-- ==== Sys2Proof/Word.lean ====
section
/-! DEFINITION. The word types of the UX1640 and the named kinds of thing a command can carry. -/

namespace Sys2Proof

/-- A register word: every register access is one naturally aligned 32-bit word (R13). -/
abbrev Word := BitVec 32

/-- One byte of a descriptor, a record, a message or the flash. -/
abbrev Byte := BitVec 8

/-- The masters that reach registers, each with its own latches and banks (R13, R197); a channel sequencer reaches the mailboxes
(R314). -/
inductive Master where
  | pf0 | pf1 | sup | sp
  | seq (n : Fin 16)
deriving DecidableEq, Repr

/-- The ports of the mailboxes (table before R313). -/
inductive Port where
  | pf0 | pf1 | sup
  | seq (n : Fin 16)
deriving DecidableEq, Repr

/-- The three rails that the supply monitors watch (R346). -/
inductive Rail where
  | vdd | vdd18 | vdd33
deriving DecidableEq, Repr

/-- The two screening pipes of a channel (R75). -/
inductive Pipe where
  | a | b
deriving DecidableEq, Repr

/-- The signal lines of an encoder input (R113, R119). -/
inductive EncLine where
  | a | b | z
deriving DecidableEq, Repr

/-- Which front end of an encoder takes a sample: POS's own, or the private copy of a channel (R110, R124). -/
inductive FrontEnd where
  | pos
  | ch (n : Fin 16)
deriving DecidableEq, Repr

/-- The two coils of a motion axis (R289). -/
inductive Coil where
  | a | b
deriving DecidableEq, Repr

/-- The two image slots of the configuration flash (R356). -/
inductive Slot where
  | a | b
deriving DecidableEq, Repr

/-- The levels of a camera port's inputs at a PCLK edge: FVAL, LVAL, DVAL and D[35:0] (R215). -/
structure CamSample where
  fval : Bool
  lval : Bool
  dval : Bool
  d : BitVec 36
deriving DecidableEq, Repr

/-- The PLLs that can lose lock: each channel's own, or the shared one (R405). -/
inductive Pll where
  | shared
  | ch (n : Fin 16)
deriving DecidableEq, Repr

/-- How a read of host memory fails: no completion in time, Unsupported Request or Completer Abort status, poisoned data (R304). -/
inductive ReadErr where
  | timeout | unsupported | abort | poisoned
deriving DecidableEq, Repr

/-- What a reading of channel memory for a line could not correct: an image word, a word of one matrix (R81). -/
structure ReadBack where
  img : Bool
  mtx : Option (Fin 4)
deriving DecidableEq, Repr

/-- The correctable errors of PCI Express (R304). -/
inductive CorErr where
  | receiver | badTlp | badDllp | rollover | replayTimeout
deriving DecidableEq, Repr

/-- The instructions of the TAP (R390). -/
inductive TapInstr where
  | bypass | sample | extest | idcode
deriving DecidableEq, Repr

/-- What the tester does at the TAP: test-logic reset, loading an instruction, or one pass through the selected data register, the
cells capturing the levels `pins` (bit c is cell c, counted from TDI) while `tdi` is shifted in, first bit first (R390, R425). -/
inductive TapOp where
  | reset
  | load (i : TapInstr)
  | scan (pins : BitVec 604) (tdi : List Bool)
deriving DecidableEq, Repr

/-- The registers of the express page that a posted write can name (R312). -/
inductive ExpReg where
  | stop | inh | fetch | safe | latch | other
deriving DecidableEq, Repr

/-- A participant of a capo transaction: a system block, or sub-block `s` of channel `n` (R203, CAPO_TXt_NOVOTE). -/
inductive Part where
  | sys (b : Fin 16)
  | ch (n : Fin 16) (s : Fin 7)
deriving DecidableEq, Repr

end Sys2Proof
end

