-- ==== Sys2Proof/Syntax.lean ====
section
/-! DEFINITION. The commands of the UX1640: one constructor for each row of the table of operations and events, with the
operands the chapters give the step. An operand carries what reaches the block from outside in that step: the word a
master writes, the bytes a read returned, the code of a converter, the verdict of a check. -/

namespace Sys2Proof

/-- A command: an operation or event of the table. -/
inductive Instr where
  /-- `POWER_ON_RESET`, R29: Main supplies rise through the power-on level, including exit from deep standby; every switched domain is reset and start-up runs from step 1. -/
  | powerOnReset
  /-- `BROWN_OUT_RESET`, R29: VDD, VDD18 or VDD33 falls to its brown-out level; after the halt and flush, every switched domain is reset as at power-on. -/
  | brownOutReset (r : Rail)
  /-- `DEVICE_RESET`, R374: A write of 0xDE57 to SYS_DEVRST stops fetching, halts and flushes every channel, drops SAFE_OK, resets the switched domains and reruns start-up. -/
  | deviceReset (m : Master) (v : Word)
  /-- `PCIE_FUNDAMENTAL_RESET`, R29: PERST_N resets the PCIe endpoint, the configuration space of PF0 and PF1 and the MSI-X state; channels continue with buffered work. -/
  | pcieFundamentalReset
  /-- `HOT_RESET`, R29: A PCIe hot reset or link disable resets only the endpoint and the function state. -/
  | hotReset
  /-- `FLR_PF0`, R29: A function-level reset of PF0 resets its configuration space and MSI-X, aborts its DMA and aborts capo slots it owns. -/
  | flrPf0
  /-- `FLR_PF1`, R29: A function-level reset of PF1 resets its configuration space and mailboxes and releases its mailbox locks. -/
  | flrPf1
  /-- `SUP_LOCKSTEP`, R433: The two supervisor cores disagree, which starts a supervisor restart. -/
  | supLockstep
  /-- `SUP_WDOG`, R433: The supervisor watchdog expires, which starts a supervisor restart. -/
  | supWdog
  /-- `SUP_RESTART`, R433: A supervisor restart completes within 2 ms, or 4 ms under throttle step 1. -/
  | supRestart
  /-- `PWR_DOMON`, R398: A write of PWR_DOMON requests switch-on of domains; the request is refused, queued or started under R399 and R400. -/
  | pwrDomon (m : Master) (v : Word)
  /-- `PWR_DOMOFF`, R398: A write of PWR_DOMOFF requests switch-off of domains; the request is refused, queued or started under R399 and R400. -/
  | pwrDomoff (m : Master) (v : Word)
  /-- `DOMAIN_RAMP_DONE`, R400: A ramping domain reaches ON or OFF, and the next queued domain request starts. -/
  | domainRampDone
  /-- `PWR_DOMFAIL`, R31: A domain has not reached ON within 1 ms; it enters FAIL, is held off and is reported to the fault collector. -/
  | pwrDomfail
  /-- `PWR_STBY`, R402: A write of 0x57DB to PWR_STBY is refused if any channel is in RUN; otherwise the device flushes, drops SAFE_OK, switches off its domains and drops SUPEN. -/
  | pwrStby (m : Master) (v : Word)
  /-- `WAKE_N_WAKE`, R403: WAKE_N held low for 1 ms, with the source enabled, raises SUPEN and records the wake source. -/
  | wakeNWake
  /-- `WAKE_TIMER`, R403: The wake timer expires, with its source enabled, raising SUPEN. -/
  | wakeTimer
  /-- `MAIN_RAILS_RISE`, R403: The main rails rise while SUPEN is low, which wakes the device. -/
  | mainRailsRise
  /-- `SUPPLY_WARNING`, R347: A rail falls below its warning level or PFAIL_N is asserted: DMA and flash writes stop, every channel halts and a ledger flush starts. -/
  | supplyWarning (r : Option Rail)
  /-- `LEDGER_FLUSH_COMPLETE`, R347: The ledger flush writes its completion mark and FLUSHDONE is set. -/
  | ledgerFlushComplete
  /-- `NVW`, R348: A rail falls below VNVW: no MRAM write or flash command starts and NVWB is set. -/
  | nvw (r : Rail)
  /-- `NV_WRITE_RESUME`, R348: Every rail rises above VNVW plus hysteresis; writes resume and deferred journal records are written. -/
  | nvWriteResume
  /-- `SUPPLY_RECOVER`, R349: Every rail is back above its warning level with PFAIL_N released and no brown-out, so no reset occurs and channels stay held. -/
  | supplyRecover (r : Option Rail)
  /-- `SUPPLY_WARN_CLEAR`, R349: A write of 1 to PWR_MON_STAT.WARN clears it, unless a rail is still low or PFAIL_N is asserted. -/
  | supplyWarnClear (m : Master) (v : Word)
  /-- `CLK_REFLOSS`, R405: CLK25 shows no rising edge for 2 µs; every channel and the shared PLL switch to their fallback oscillators. -/
  | clkRefloss
  /-- `CLK_REFBACK`, R405: The reference has been present for 10 ms and the PLLs have relocked; the shared consumers switch back. -/
  | clkRefback
  /-- `CLK_PLLFAIL`, R405: A PLL loses lock while the reference is present; its consumers switch to their fallback. -/
  | clkPllfail (p : Pll)
  /-- `CHANNEL_CLOCK_SWITCHBACK`, R405: A channel on its fallback oscillator returns to the reference at its next line boundary. -/
  | channelClockSwitchback (n : Fin 16)
  /-- `MEMORY_RATE_CHANGE`, R407: At the next refresh after a clock switch, channel memory changes between 6,400 and 6,000 MT/s. -/
  | memoryRateChange (n : Fin 16)
  /-- `DEVTIME_BROADCAST`, R27: Every 1.024 µs each channel realigns its local copy of DEV_TIME from the gray-coded broadcast, without stepping backwards. -/
  | devtimeBroadcast
  /-- `SYS_EPOCH_LO_WRITE`, R25: A write of SYS_EPOCH_LO stages the low word of the epoch. -/
  | sysEpochLoWrite (m : Master) (v : Word)
  /-- `SYS_EPOCH_HI_WRITE`, R25: A write of SYS_EPOCH_HI makes both epoch words take effect and captures DEV_TIME in SYS_EPOCHBASE. -/
  | sysEpochHiWrite (m : Master) (v : Word)
  /-- `LOW_WORD_READ`, R13: A read of the low word of a 64-bit register latches its high word for the reading master. -/
  | lowWordRead (m : Master) (a : Nat)
  /-- `RC_READ`, R10: A read of a register with RC fields returns the fields and clears them. -/
  | rcRead (m : Master) (a : Nat)
  /-- `REGISTER_WRITE`, R10: A write to a register without a row of its own acts on its fields according to their type codes. -/
  | registerWrite (m : Master) (a : Nat) (v : Word)
  /-- `FAB_RETRY`, R433: The fabric makes a link-level retry. -/
  | fabRetry
  /-- `FAB_UE`, R433: An uncorrectable error is found in the fabric or in the firmware store. -/
  | fabUe
  /-- `JNL_CE`, R433: A correctable MRAM error is found. -/
  | jnlCe
  /-- `PIDX_WRITE`, R33: Software writes WRK_SCRn_PIDX to submit descriptors to channel n's scroll. -/
  | pidxWrite (m : Master) (n : Fin 16) (v : Word)
  /-- `DESCRIPTOR_FETCH`, R34: A channel in RUN fetches its next descriptor once fewer than 64 bands are unretired, band space suffices and fewer than 16 rejection records wait. -/
  | descriptorFetch (n : Fin 16) (bs : List Byte)
  /-- `DESCRIPTOR_CHECK`, R38: A fetched descriptor is checked in order for DCRC, field ranges, SEQ and the page flag. -/
  | descriptorCheck (n : Fin 16)
  /-- `REJECTION_RECORD_WRITE`, R41: A waiting rejection record is written to the completion ring once a slot is free, and REJECT is raised. -/
  | rejectionRecordWrite (n : Fin 16)
  /-- `BAND_ACCEPT`, R40: The acceptance record is complete in the journal; the band is ACCEPTED, CIDX advances and LASTSEQ and the page flag update. -/
  | bandAccept (n : Fin 16)
  /-- `JNL_WRFAIL`, R40: A journal write fails; the descriptor is neither accepted nor rejected, and FAB's fault line is raised. -/
  | jnlWrfail (n : Fin 16)
  /-- `ACCEPT_RETRY`, R40: 1 ms after a failed journal write, the channel retries the acceptance of the descriptor. -/
  | acceptRetry (n : Fin 16)
  /-- `SCRERR`, R62: A descriptor fetch ends in a PCIe error; fetching stops and the channel holds with HCAUSE 7. -/
  | screrr (n : Fin 16) (err : ReadErr)
  /-- `BAND_LOAD_START`, R44: An ACCEPTED band enters LOADING once the previous band is READY or later and the channel is in RUN. -/
  | bandLoadStart (n : Fin 16)
  /-- `IMAGE_DMA_ERROR`, R304: An image read ends in a PCIe error; it counts as a failed DMA, and the third failure in succession holds the channel with HCAUSE 4. -/
  | imageDmaError (n : Fin 16) (err : ReadErr) (got : List (List Byte))
  /-- `IMAGE_DMA_RETRY`, R304: 10 µs after a failed image read, the read restarts from the first incomplete line. -/
  | imageDmaRetry (n : Fin 16)
  /-- `BAND_LOAD_COMPLETE`, R44: The last image byte of a band is written to channel memory and the band becomes READY. -/
  | bandLoadComplete (n : Fin 16) (got : List (List Byte))
  /-- `BAND_RELEASE`, R44: A READY band is handed to the hardware path once the previous band is RELEASED or later. -/
  | bandRelease (n : Fin 16)
  /-- `BAND_RETIRE`, R46: The oldest DONE band is journalled as RETIRED and its completion record and RETIRE message are written in order, or CMPFULL is raised when the ring is full. -/
  | bandRetire (n : Fin 16)
  /-- `CMP_HEAD_WRITE`, R49: Software writes WRK_CMPn_HEAD, which frees completion slots and advances ACKSEQ. -/
  | cmpHeadWrite (m : Master) (n : Fin 16) (v : Word)
  /-- `CHECKPOINT`, R54: Every 1 ms, each channel in RUN or HELD writes a checkpoint slot to the journal. -/
  | checkpoint (n : Fin 16)
  /-- `START`, R58: Command START enters RUN from IDLE or RESUME_WAIT, re-posts completion records and re-arms the pending line. -/
  | cmdStart (m : Master) (n : Fin 16)
  /-- `STOP`, R58: Command STOP halts the channel at the next line boundary and holds it with HCAUSE 1. -/
  | cmdStop (m : Master) (n : Fin 16)
  /-- `RESUME`, R58: Command RESUME returns a HELD channel with no unresolved cause to RUN and re-arms firing under R157. -/
  | cmdResume (m : Master) (n : Fin 16)
  /-- `REFIRE`, R58: Command REFIRE resolves a PARTIAL or uncertain line so that it is fired again. -/
  | cmdRefire (m : Master) (n : Fin 16)
  /-- `SKIP`, R58: Command SKIP writes SKIPPED entries for the PARTIAL or uncertain lines. -/
  | cmdSkip (m : Master) (n : Fin 16)
  /-- `ABANDON`, R58: Command ABANDON takes the oldest band not yet DONE to DONE with status ABANDONED. -/
  | cmdAbandon (m : Master) (n : Fin 16)
  /-- `ABANDON_ALL`, R58: Command ABANDON_ALL abandons every unretired band short of DONE, closes the page and enters IDLE. -/
  | cmdAbandonAll (m : Master) (n : Fin 16)
  /-- `REFETCH`, R58: Command REFETCH restarts the failed band's image DMA from its first missing line. -/
  | cmdRefetch (m : Master) (n : Fin 16)
  /-- `REBASE`, R58: Command REBASE gives a reinstated band a new image address and journals it. -/
  | cmdRebase (m : Master) (n : Fin 16)
  /-- `SETSEQ`, R58: Command SETSEQ sets LASTSEQ in the journal for a channel in IDLE with no unretired band. -/
  | cmdSetseq (m : Master) (n : Fin 16)
  /-- `LINE_SCREEN`, R75: Pipes A and B start screening the next line while fewer than LEAD released lines are waiting. -/
  | lineScreen (n : Fin 16) (ce : Nat) (imgUe : Bool) (mtxUe : Option (Fin 4))
  /-- `IMAGE_REFETCH_DONE`, R81: The refetch of an image range completes, and the word is read again. -/
  | imageRefetchDone (n : Fin 16) (bad : ReadBack)
  /-- `PIPE_COMPARE`, R76: Both pipes finish a line; the comparator releases it, fences a pipe or starts a recompute according to outputs and residues. -/
  | pipeCompare (n : Fin 16) (fa : List (Nat × Nat)) (fb : List (Nat × Nat)) (ra : Bool) (rb : Bool) (maskMis : Nat)
  /-- `PIPE_RECOMP_DONE`, R76: A recompute of a line completes, and the line is released, the known-answer test runs, or the line is withheld. -/
  | pipeRecompDone (n : Fin 16) (fa : List (Nat × Nat)) (fb : List (Nat × Nat)) (ra : Bool) (rb : Bool) (maskMis : Nat)
    (imgUe : Bool) (mtxUe : Option (Fin 4))
  /-- `KAT_DONE`, R77: The known-answer test completes; a pipe is fenced or arbitration starts. -/
  | katDone (n : Fin 16) (okA : Bool) (okB : Bool) (maskMis : Nat)
  /-- `ARBITRATION_DONE`, R77: The arbiter's recomputation completes; pipes are kept or fenced and the line is released or withheld. -/
  | arbitrationDone (n : Fin 16) (f : List (Nat × Nat)) (ok : Bool) (maskMis : Nat) (imgUe : Bool) (mtxUe : Option (Fin 4))
  /-- `MEM_SCRUB`, R66: Background scrubbing corrects single-bit errors so that the whole die is scrubbed every 10 minutes. -/
  | memScrub (n : Fin 16) (ce : Nat) (ue : List (Nat × Nat))
  /-- `READMIT_REQUEST`, R80: A write of 1 to READMA or READMB requests readmission of a fenced pipe. -/
  | readmitRequest (m : Master) (n : Fin 16) (a : Bool) (b : Bool)
  /-- `RESCNT_CLEAR`, R76: A write of CNTCLR = 1 clears the residue counts of both pipes. -/
  | rescntClear (m : Master) (n : Fin 16)
  /-- `TABLE_WINDOW_WRITE`, R83: A write into a table window reaches both pipes and the arbiter, and is discarded with ACTWR set if it targets an active or voted bank. -/
  | tableWindowWrite (m : Master) (a : Nat) (v : Word)
  /-- `TABLE_LOAD_GO`, R84: A write of GO to CHn_IMG_TLD_CTRL starts a matrix load, or refuses it with ERR. -/
  | tableLoadGo (m : Master) (n : Fin 16) (v : Word)
  /-- `TABLE_LOAD_ERROR`, R84: A read of a matrix load ends in a PCIe error, and the third failure in succession ends the load with ERR = 3. -/
  | tableLoadError (n : Fin 16) (err : ReadErr) (rows : List (List Word))
  /-- `TABLE_LOAD_RETRY`, R84: 10 µs after a failed load read, the read restarts from the first incomplete row. -/
  | tableLoadRetry (n : Fin 16)
  /-- `TLOAD`, R84: A matrix load completes, and TLOAD is raised. -/
  | tload (n : Fin 16) (rows : List (List Word))
  /-- `DUTY_DECIDE`, R103: The duty limiter completes its decision on a line's codes under the nozzle and head budgets. -/
  | dutyDecide (n : Fin 16) (perr : List Nat)
  /-- `LINE_DECIDE`, R146: The pending line is reached by count or by interpolation; after the overlap and acknowledgement checks it is decided, or the channel halts. -/
  | lineDecide (n : Fin 16)
  /-- `LINE_FIRE`, R148: The FIRE edge appears at the balls; the ledger entry is written, a waveform frame starts and duty counts are charged. -/
  | lineFire (n : Fin 16)
  /-- `SEG_STROBE`, R93: CHn_SEG pulses at each segment boundary plus SEGDLY. -/
  | segStrobe (n : Fin 16)
  /-- `FIRING_WINDOW_END`, R52: The longest waveform of a line ends and its firing window closes. -/
  | firingWindowEnd (n : Fin 16)
  /-- `WFB_FRAME_MEASURE`, R99: The WFB measurement of a frame completes, giving its peak or marking it not measured. -/
  | wfbFrameMeasure (n : Fin 16) (before : List Nat) (adc : List Nat)
  /-- `ENCODER_TRANSITION`, R113: An accepted level change of an encoder line is counted, checked for legality, and updates trackers, frets, emulation and fire timing. -/
  | encoderTransition (e : Fin 4) (a : Bool) (b : Bool) (z : Bool) (seen : BitVec 17)
  /-- `FILTER_ACCEPT`, R111: A pending filtered change is accepted when FILT × 5 ns has passed and the line still differs. -/
  | filterAccept (e : Fin 4) (l : EncLine) (fe : FrontEnd)
  /-- `FAULT_WINDOW_END`, R117: An encoder fault window ends and its fault count restarts. -/
  | faultWindowEnd (e : Fin 4)
  /-- `INDEX_EVENT`, R119: An index event captures the count and checks it against NOM. -/
  | indexEvent (e : Fin 4)
  /-- `SPEED_WINDOW_END`, R123: A speed window ends and EDGES and DIR are reported. -/
  | speedWindowEnd (e : Fin 4)
  /-- `XCHECK_SNAPSHOT`, R126: Every 1.024 µs POS compares its count with every valid tracker, failing trackers, substituting POS or faulting the encoder. -/
  | xcheckSnapshot
  /-- `ENC_FAULT_CLEAR`, R118: A write of 1 to POS_ENCe_STAT.FAULT clears it only when no fault condition is pending. -/
  | encFaultClear (m : Master) (e : Fin 4)
  /-- `FRET_CMP_LO_WRITE`, R134: A write of POS_FRETf_CMP_LO stages the low word of CMP. -/
  | fretCmpLoWrite (m : Master) (f : Fin 64) (v : Word)
  /-- `FRET_CMP_HI_WRITE`, R134: A write of POS_FRETf_CMP_HI makes both CMP words take effect in the next sample. -/
  | fretCmpHiWrite (m : Master) (f : Fin 64) (v : Word)
  /-- `FRET_ARM`, R134: A write of ARM = 1 arms the fret. -/
  | fretArm (m : Master) (f : Fin 64)
  /-- `FRET_DISARM`, R134: A write of DISARM = 1 disarms the fret, winning over ARM. -/
  | fretDisarm (m : Master) (f : Fin 64)
  /-- `EMU_OUTPUT_COUNT`, R136: An emulation output makes one count from its backlog once MINSP has passed. -/
  | emuOutputCount (k : Fin 4)
  /-- `SOS_EVENT`, R153: An enabled SOS input stays high for SOSMIN samples, capturing the count to arm or latch a page. -/
  | sosEvent (i : Fin 8) (n : Fin 16)
  /-- `PAGE_ARM`, R152: A channel ready to arm arms the next page under FOLLOW or from a latched event. -/
  | pageArm (n : Fin 16)
  /-- `HALT_REQUEST`, R156: A halt request reaches the fire timing engine and no decision is made from the next tick on. -/
  | haltRequest (n : Fin 16)
  /-- `DATA_FRAME_SEND`, R177: A DATA frame for a decided line starts on the Bridge link. -/
  | dataFrameSend (n : Fin 16)
  /-- `CFG_FRAME_SEND`, R177: A CFG frame carrying masks or software data starts. -/
  | cfgFrameSend (n : Fin 16)
  /-- `STAT_FRAME_SEND`, R177: A STAT frame starts while the fire timing is not FIRING. -/
  | statFrameSend (n : Fin 16)
  /-- `IDLE_FRAME_SEND`, R177: After 1 µs with no frame started, an IDLE frame starts. -/
  | idleFrameSend (n : Fin 16)
  /-- `ACK`, R176: An ACK message is recognised and the outstanding frame is complete. `syms` are the symbols after K27.7, bit a
  first, and `rd` the running disparity before them; so for the three messages after it. -/
  | ack (n : Fin 16) (rd : Bool) (syms : List (BitVec 10))
  /-- `NAK`, R176: A NAK message is recognised and the outstanding frame is retransmitted. -/
  | nak (n : Fin 16) (rd : Bool) (syms : List (BitVec 10))
  /-- `STATUS_MESSAGE`, R172: A STATUS message answers a STAT frame, completing training to UP or delivering a page. -/
  | statusMessage (n : Fin 16) (rd : Bool) (syms : List (BitVec 10))
  /-- `TRDY`, R183: A TRDY message arrives, and four in succession end the first phase of training. -/
  | trdy (n : Fin 16) (rd : Bool) (syms : List (BitVec 10))
  /-- `ANSWER_TIMEOUT`, R176: No answer within 1.0 µs leads to retransmission or, after RETXMAX, to link DOWN. -/
  | answerTimeout (n : Fin 16)
  /-- `RETURN_LANE_LOSS`, R184: CHn_BRET carries no valid symbol for 5 µs, so the link goes DOWN. -/
  | returnLaneLoss (n : Fin 16)
  /-- `HEAD_PRESENT`, R182: CHn_PRES_N has been low for 10 ms; the head board is present and IDENT starts. -/
  | headPresent (n : Fin 16)
  /-- `HEAD_REMOVED`, R182: CHn_PRES_N has been high for 1 µs; the link goes OFF, HPEN drops and firing is inhibited. -/
  | headRemoved (n : Fin 16)
  /-- `IDENTITY_READ_DONE`, R190: The identity record has been read over I²C and checked, giving TRAIN or STOP. -/
  | identityReadDone (n : Fin 16) (rec : List Byte)
  /-- `I2C_RETRY`, R191: A NACK or an excess stretch repeats the read, up to three times. -/
  | i2cRetry (n : Fin 16)
  /-- `TRIM_READ_DONE`, R190: The trim area read completes and TRIMVALID is set if its CRC is correct. -/
  | trimReadDone (n : Fin 16) (trim : List Byte)
  /-- `TRAIN_IDLE_DONE`, R183: After 10 µs of IDLE frames the STAT frame for page 0 is sent. -/
  | trainIdleDone (n : Fin 16)
  /-- `TRAIN_TIMEOUT`, R183: TRAIN has not reached UP within 5 ms, so the link goes DOWN. -/
  | trainTimeout (n : Fin 16)
  /-- `AUTO_RETRAIN`, R181: 1 ms after entry to DOWN with AUTORT = 1, the link restarts at IDENT. -/
  | autoRetrain (n : Fin 16)
  /-- `LINK_EN_WRITE`, R187: A write of LINK_EN starts link bring-up, or takes the link OFF at the next line boundary. -/
  | linkEnWrite (m : Master) (n : Fin 16) (v : Word)
  /-- `STATREQ_GO`, R177: A write of GO to CHn_BRG_STATREQ queues a STAT frame for a status page. -/
  | statreqGo (m : Master) (n : Fin 16) (v : Word)
  /-- `HCFG_DATA_WRITE`, R171: A write of CHn_BRG_HCFG_DATA sends a one-word CFG frame to the head space. -/
  | hcfgDataWrite (m : Master) (n : Fin 16) (v : Word)
  /-- `CAPO_ALLOC`, R196: A read of CAPO_ALLOC allocates the lowest FREE slot to the reader. -/
  | capoAlloc (m : Master)
  /-- `CAPO_BIND`, R197: A write of CAPO_BIND binds the master to an OPEN slot it owns. -/
  | capoBind (m : Master) (v : Word)
  /-- `STAGED_WRITE`, R198: A bound master's write to a register with ST fields stages those fields as an entry. -/
  | stagedWrite (m : Master) (a : Nat) (v : Word)
  /-- `IMPLICIT_TRANSACTION`, R200: An unbound write to an ST field forms and commits a one-entry transaction. -/
  | implicitTransaction (m : Master) (a : Nat) (v : Word)
  /-- `COMMIT`, R195: Command COMMIT moves an OPEN slot to VOTING, or to PROPOSED for the PROTECTED class, or aborts it. -/
  | capoCommit (m : Master) (t : Fin 16)
  /-- `ABORT`, R209: Command ABORT aborts an owner's slot from OPEN to ARMED. -/
  | capoAbort (m : Master) (t : Fin 16)
  /-- `RELEASE`, R195: Command RELEASE frees an APPLIED or ABORTED slot. -/
  | capoRelease (m : Master) (t : Fin 16)
  /-- `VOTE`, R203: A participant's vote arrives; a no aborts the slot and the last ready vote arms it. -/
  | capoVote (t : Fin 16) (p : Part) (eccUe : Bool)
  /-- `VOTE_WITHDRAW`, R203: A ready vote is withdrawn before the commit instant, which aborts the slot. -/
  | voteWithdraw (t : Fin 16) (p : Part) (eccUe : Bool)
  /-- `VOTETMO`, R209: The vote window ends with a vote missing, and the slot aborts. -/
  | votetmo (t : Fin 16)
  /-- `CMTTMO`, R209: The commit window ends without the condition, and the slot aborts. -/
  | cmttmo (t : Fin 16)
  /-- `COMMIT_INSTANT`, R205: At the first sample 40 ns after the condition, the slot commits, is stamped and signalled on the commit lines. -/
  | commitInstant
  /-- `PARTICIPANT_APPLY`, R207: A participant reaches its application point and applies its staged entries. -/
  | participantApply (t : Fin 16) (p : Part)
  /-- `PROT_CFM_HI_WRITE`, R353: A write of PROT_CFM_HI confirms a PROPOSED slot, giving MATCH, MISMATCH or REFUSED. -/
  | protCfmHiWrite (m : Master) (v : Word)
  /-- `CONFIRM_TIMEOUT`, R353: A slot still PROPOSED after 1 s aborts with NOKEY. -/
  | confirmTimeout
  /-- `FRAME_START`, R217: FVAL rises on a camera port, which begins a frame. -/
  | frameStart (p : Fin 2)
  /-- `LINE_START`, R217: LVAL rises within a frame, beginning the next input line, or dropping it when the FIFO is full. -/
  | lineStart (p : Fin 2)
  /-- `LINE_END`, R217: LVAL falls; the line is complete, or is discarded as a runt. `cycles` are the PCLK cycles since LVAL rose, each
  with the inputs at its rising and at its falling edge. -/
  | lineEnd (p : Fin 2) (cycles : List (CamSample × CamSample))
  /-- `FRAME_END`, R218: FVAL is seen low after a frame; the frame ends and staged port settings apply. -/
  | frameEnd (p : Fin 2)
  /-- `FRAME_TIMEOUT`, R217: FVAL is still high FTMO ms after its rise; the frame is closed SHORT and TMO. -/
  | frameTimeout (p : Fin 2)
  /-- `PIPELINE_TAKE`, R219: The free pipeline takes one complete line under the arbitration rules and processes it. -/
  | pipelineTake
  /-- `LADDER_ANALYSIS`, R228: A ladder region completes and each nozzle is measured and classified. `printed` are the ticks at which
  the marks of its rungs were printed on the substrate that the camera saw. -/
  | ladderAnalysis (n : Fin 16) (printed : List Nat)
  /-- `DENSITY_PROFILE`, R231: A density region completes and each nozzle's density is measured. -/
  | densityProfile (n : Fin 16)
  /-- `HEAL_ROUND`, R235: The supervisor updates statuses, writes inactive banks and commits a bank-switch slot for the channels. -/
  | healRound
  /-- `LAD_ARM`, R228: A write of 1 to INS_Pp_ARM.LAD arms the next frame for ladder analysis. -/
  | ladArm (m : Master) (p : Fin 2)
  /-- `DENS_ARM`, R231: A write of 1 to INS_Pp_ARM.DENS arms the next frame for a density profile. -/
  | densArm (m : Master) (p : Fin 2)
  /-- `INS_TBLDATA_WRITE`, R224: A write of INS_TBLDATA writes the addressed entry, unless it is discarded, and advances INDEX. -/
  | insTbldataWrite (m : Master) (v : Word)
  /-- `INS_TBLDATA_READ`, R224: A read of INS_TBLDATA returns the entry and advances INDEX. -/
  | insTbldataRead (m : Master)
  /-- `TUNER_SCHEDULE`, R248: Every PER × 10 ms the Tuner measures the next instance of classes 0–2, or skips it. -/
  | tunerSchedule (c : Fin 5)
  /-- `TUNER_MEASURE_DONE`, R248: A SENS or VREF measurement completes with a result. -/
  | tunerMeasureDone (c : Fin 5) (raw : Int) (ok : Bool)
  /-- `OSC_GATE_DONE`, R249: An OSC measurement gate of 2^20 reference cycles ends with a trim result, or is discarded. -/
  | oscGateDone (cnt : Nat)
  /-- `TUNER_APPLY`, R247: A new value in effect is written to its target at its application point. -/
  | tunerApply (c : Fin 5) (i : Nat)
  /-- `TUN_SETDATA_WRITE`, R253: A write of TUN_SETDATA stores an entry and applies R245. -/
  | tunSetdataWrite (m : Master) (v : Word)
  /-- `TUN_SETDATA_READ`, R252: A read of TUN_SETDATA returns the entry and advances INST with AUTOINC. -/
  | tunSetdataRead (m : Master)
  /-- `SENSOR_CONVERSION`, R258: A sensor's conversion slot ends; its temperature is computed, cross-checked and compared with the levels and throttle thresholds. -/
  | sensorConversion (k : Fin 48) (code : Nat)
  /-- `THM_SHUT`, R270: Once every channel has halted, or 200 µs after the request, the safe state is entered and channel, INS and CAM domains go off. -/
  | thmShut
  /-- `DIE_TRIP`, R271: An on-die comparator stays at 125 °C for 100 µs; the safe state is entered and domains go off. -/
  | dieTrip
  /-- `HEATER_UPDATE`, R266: Every 3.906 ms each heater's PI duty is computed. -/
  | heaterUpdate
  /-- `THM_TBLDATA_WRITE`, R259: A write of THM_TBLDATA writes a thermistor table entry, unless the table is in use, and advances INDEX. -/
  | thmTbldataWrite (m : Master) (v : Word)
  /-- `THM_CHSTAT_CLEAR`, R265: A write of 1 to LIM or CRIT clears it only below the level less HYS and out of fallback. -/
  | thmChstatClear (m : Master) (v : Word)
  /-- `SENSOR_FAIL_CLEAR`, R261: A write of 1 to a sensor's FAIL clears it only after XCNT agreeing conversions. -/
  | sensorFailClear (m : Master) (k : Fin 48)
  /-- `THM_SHUT_CLEAR`, R270: A write of 1 to SHUT or TRIP clears it only when Td is below DSHUT − 10.0 °C. -/
  | thmShutClear (m : Master) (v : Word)
  /-- `PROFILE_TICK`, R279: Every 1 µs each axis's profile generator updates position and velocity. -/
  | profileTick
  /-- `GEAR_MASTER_COUNT`, R282: A master count change reaches MOT and updates the gear position. -/
  | gearMasterCount (x : Fin 4)
  /-- `STEP_INPUT`, R285: An accepted rising edge of AXa_SI in STEPIN adds one input step. -/
  | stepInput (x : Fin 4) (dir : Bool)
  /-- `STEPIN_INTERPOLATE`, R286: An interpolated input step issues its next microstep from the backlog. -/
  | stepinInterpolate (x : Fin 4)
  /-- `CHOPPER_COMPARATOR`, R291: A coil's comparator crosses its reference after blanking and the coil changes between DRIVE and DECAY. -/
  | chopperComparator (x : Fin 4) (c : Coil)
  /-- `CHOPPER_PHASE_TIMEOUT`, R291: A DRIVE phase reaches TDRVMAX or a DECAY phase reaches TDMAX. -/
  | chopperPhaseTimeout (x : Fin 4) (c : Coil)
  /-- `CHOPPER_PROBE`, R292: At cycle P of DECAY the adaptive probe reads the comparator and adjusts OFS. -/
  | chopperProbe (x : Fin 4) (c : Coil) (high : Bool)
  /-- `STEP_OUTPUT_PULSE`, R293: A queued step pulse is issued on AXa_G0. -/
  | stepOutputPulse (x : Fin 4)
  /-- `STANDSTILL`, R294: XACT unchanged for TSTAND ms puts the axis into standstill mode. -/
  | standstill (x : Fin 4)
  /-- `AXIS_FAULT_CLEAR`, R296: A write of 1 to an axis's FAULT clears it unless its master is still faulty. -/
  | axisFaultClear (m : Master) (x : Fin 4)
  /-- `WTAB_WRITE`, R288: A write to the microstep table is discarded while a chopper axis is out of OFF standstill. -/
  | wtabWrite (m : Master) (k : Nat) (v : Word)
  /-- `EVT_PEND_CLEAR`, R307: A write of 1 clears a pending bit. -/
  | evtPendClear (m : Master) (w : Fin 16) (v : Word)
  /-- `MSIX_UNMASK`, R306: Unmasking a function or vector sends the message held in the PBA. -/
  | msixUnmask (fn : Fin 2) (vec : Option (Fin 512))
  /-- `EXP_STOP`, R312: An express write to WRK_EXP_STOP halts the named channels and sets STOPL. -/
  | expStop (v : Word)
  /-- `EXP_INH`, R312: An express write to WRK_EXP_INH inhibits the named channels at once and sets INHL. -/
  | expInh (v : Word)
  /-- `EXP_FETCH`, R312: An express write to WRK_EXP_FETCH with OFF = 1 clears FETCH_EN. -/
  | expFetch (v : Word)
  /-- `EXP_SAFE`, R312: An express write of key 0x5AFE to WRK_EXP_SAFE enters the safe state. -/
  | expSafe (v : Word)
  /-- `EXP_LATCH_CLEAR`, R312: An express write of 1 to WRK_EXP_LATCH clears STOPL or INHL bits. -/
  | expLatchClear (v : Word)
  /-- `EXPRESS_MERGE`, R310: An express write arriving while the queue holds 16 entries is merged into one entry and counted. -/
  | expressMerge (r : ExpReg) (v : Word)
  /-- `EXPRESS_MERGED_APPLY`, R310: The merged entry is applied in its turn: clears, fetch stop, stops and inhibits, then safe request. -/
  | expressMergedApply
  /-- `PCIE_LINK_DOWN`, R305: The PCIe link goes down; DMA stops and outstanding reads are abandoned. -/
  | pcieLinkDown
  /-- `PCIE_LINK_UP`, R305: The link returns; DMA resumes and HOST_ERR is raised. -/
  | pcieLinkUp
  /-- `BAR0_BAD_REQUEST`, R302: A BAR0 request that is not one aligned DW is completed with Completer Abort. -/
  | bar0BadRequest (m : Master)
  /-- `HOST_REQUEST_MALFORMED`, R304: A poisoned or malformed host request to a function is discarded; `reply` says that a completion is due. -/
  | hostRequestMalformed (fn : Fin 2) (poisoned : Bool) (reply : Bool)
  /-- `RING_WRITE_REJECTED`, R304: The root complex rejects a write to a ring or result area, raising HOST_ERR. -/
  | ringWriteRejected (t : Fin 19)
  /-- `COMPLETION_REWRITE`, R304: Every 10 µs a rejected completion record is written again. -/
  | completionRewrite (n : Fin 16) (ok : Bool)
  /-- `MBX_SEND`, R315: A read of MBX_m_SEND by PF0 or PF1 delivers the bank, returning ACCEPTED, FULL or ABORTED. -/
  | mbxSend (p : Port) (m : Fin 48)
  /-- `MBX_SEND_INTERNAL`, R316: An internal master writes SEND = 1 and delivers its bank, or gets a bus error. -/
  | mbxSendInternal (p : Port) (m : Fin 48)
  /-- `MBX_RELEASE`, R317: The receiver writes 1 to MBX_m_STAT.FULL to release the message. -/
  | mbxRelease (p : Port) (m : Fin 48)
  /-- `MBX_LOCK_READ`, R319: A read of MBX_m_LOCK takes the free lock or returns the owner. -/
  | mbxLockRead (p : Port) (m : Fin 48)
  /-- `MBX_LOCK_RELEASE`, R319: The owner writes 0 to LOCK and releases it. -/
  | mbxLockRelease (p : Port) (m : Fin 48)
  /-- `MBX_GO`, R319: The lock owner's write of GO = 1 delivers its bank, or sets OVR on a full mailbox. -/
  | mbxGo (p : Port) (m : Fin 48)
  /-- `MBX_ACKTMO`, R323: The acknowledgement window ends without a reply. -/
  | mbxAcktmo (p : Port) (m : Fin 48)
  /-- `PING`, R325: Request PING returns the firmware version, boot count or channel state and slot. -/
  | ping (m : Fin 48)
  /-- `BANDREC`, R325: Request BANDREC returns a band record from the journal. -/
  | bandrec (m : Fin 48)
  /-- `CHKPT`, R325: Request CHKPT returns a channel's last checkpoint. -/
  | chkpt (m : Fin 48)
  /-- `TUNNOW`, R325: Request TUNNOW measures a Tuner instance at once. -/
  | tunnow (m : Fin 48) (raw : Int) (ok : Bool)
  /-- `SUPRST`, R325: Request SUPRST with the key restarts the supervisor after the reply. -/
  | suprst (m : Fin 48)
  /-- `SLOTINFO`, R325: Request SLOTINFO returns the state of an image slot header. -/
  | slotinfo (m : Fin 48)
  /-- `BANDSTATE`, R325: Request BANDSTATE returns an unretired band's state and lines fired. -/
  | bandstate (m : Fin 48)
  /-- `BANDLIST`, R325: Request BANDLIST returns the unretired bands of a channel. -/
  | bandlist (m : Fin 48)
  /-- `UNKNOWN_CODE`, R325: A request with a CODE not listed for the mailbox is answered with UNKNOWN. -/
  | unknownCode (m : Fin 48)
  /-- `CHISOL`, R379: Service CHISOL isolates a channel that is not in RUN once no capo slot involving it is in flight. -/
  | chisol (m : Fin 48)
  /-- `CHBIST`, R383: Service CHBIST runs the selected self-tests on an isolated channel. -/
  | chbist (m : Fin 48) (res : Nat)
  /-- `CHPOWER`, R382: Service CHPOWER switches an isolated channel's domain off or on and trains its memory. -/
  | chpower (m : Fin 48) (up : Bool) (trained : Bool)
  /-- `CHLOAD`, R384: Service CHLOAD applies a slot's channel sections to an isolated channel. -/
  | chload (m : Fin 48)
  /-- `CHJOIN`, R385: Service CHJOIN returns an isolated channel to service. -/
  | chjoin (m : Fin 48)
  /-- `NOZTEST`, R388: Service NOZTEST prints a ladder with every enabled nozzle live and commits the result as a round. -/
  | noztest (m : Fin 48)
  /-- `NOZTEST_TIMEOUT`, R388: No ladder arrives within the time limit, and the map from before the test is restored. -/
  | noztestTimeout (n : Fin 16)
  /-- `SEQRST`, R387: Service SEQRST restarts a channel sequencer. -/
  | seqrst (m : Fin 48)
  /-- `BSCAN`, R390: Service BSCAN enters the safe state and releases the TAP; `tck` is what the tester then does there. -/
  | bscan (m : Fin 48) (tck : List TapOp)
  /-- `TESTSTAT`, R378: Service TESTSTAT returns a channel's test and isolation status. -/
  | teststat (m : Fin 48)
  /-- `FLT_STAT_CLEAR`, R333: A write of 1 to an FLT_STAT bit clears it and releases its reactions when no source on the line is active. -/
  | fltStatClear (m : Master) (hi : Bool) (v : Word)
  /-- `PARITY_SCAN`, R335: The background scan checks collector words every 10 µs, and a parity error enters the safe state. -/
  | parityScan (bad : Option (Fin 67))
  /-- `FLT_SAFE_CLEAR`, R338: A write of 1 to FLT_SAFE.ACTIVE ends the safe state when no cause remains. -/
  | fltSafeClear (m : Master) (v : Word)
  /-- `STOPN`, R339: STOP_N is accepted low and its configured action is taken. -/
  | stopn
  /-- `STOP_N_RELEASE`, R339: STOP_N is accepted high again. -/
  | stopNRelease
  /-- `PROT_STAT_CLEAR`, R339: A write of 1 to STOPN, SPWD, SPRST or NOKEY clears it subject to its condition. -/
  | protStatClear (m : Master) (v : Word)
  /-- `PROT_SAFEREQ`, R337: A write of the key to PROT_SAFEREQ enters the safe state. -/
  | protSafereq (m : Master) (v : Word)
  /-- `SP_READ`, R343: A Safety port READ command reads a BAR0 word, or repeats or denies. -/
  | spRead (bs : List Byte)
  /-- `SP_WRITE`, R343: A Safety port WRITE command writes a permitted register, or repeats or denies. -/
  | spWrite (bs : List Byte)
  /-- `SP_STATUS`, R341: A Safety port STATUS command returns PROT_STAT. -/
  | spStatus (bs : List Byte)
  /-- `SP_CRC_ERROR`, R342: A Safety port command fails its CRC and is not executed. -/
  | spCrcError (bs : List Byte)
  /-- `SP_CS_EARLY`, R342: SP_CS_N rises before byte 15 and the command is discarded. -/
  | spCsEarly (bs : List Byte)
  /-- `SAFETY_PORT_WATCHDOG`, R344: The Safety port watchdog expires and SPTOACT is taken. -/
  | safetyPortWatchdog
  /-- `SAFETY_PORT_RESET`, R345: SP_CS_N low for over 1 ms or 16 CRC failures reset the port and abort its slots. -/
  | safetyPortReset
  /-- `SLOT_SELECT`, R366: Headers and signatures are checked and the boot ROM chooses the slot. -/
  | slotSelect
  /-- `SECTION_LOADED`, R367: A section has been read and checked against SCRC, retried or failed. -/
  | sectionLoaded (ok : Bool)
  /-- `BOOT_LOAD_COMPLETE`, R367: The last section is read, BODYDIG and block checks pass or the slot fails. -/
  | bootLoadComplete
  /-- `MEMORY_TRAINED`, R369: A channel's memory completes training. -/
  | memoryTrained (n : Fin 16)
  /-- `MEMORY_TRAIN_TIMEOUT`, R369: A channel's memory does not train within 40 ms and is left OFF. -/
  | memoryTrainTimeout (n : Fin 16)
  /-- `BOOT_READY`, R370: Resume completes in every channel and READY is declared. -/
  | bootReady
  /-- `NVM_READ`, R376: Command READ copies flash to host memory. -/
  | nvmRead (m : Master)
  /-- `NVM_PROGRAM`, R376: Command PROGRAM writes flash from host memory. -/
  | nvmProgram (m : Master)
  /-- `NVM_ERASE`, R376: Command ERASE erases flash units. -/
  | nvmErase (m : Master)
  /-- `NVM_VERIFY`, R376: Command VERIFY checks a slot's header and integrity. -/
  | nvmVerify (m : Master) (sl : Slot)
  /-- `NVM_DONE`, R376: A flash command ends, with or without error. -/
  | nvmDone (err : Fin 3) (data : List Byte)
  /-- `BUS_MASTER_ENABLE`, R305: A configuration write that sets or clears Bus Master Enable of PF0 stops all DMA or lets it resume, including the fetches held since an FLR of PF0. -/
  | busMasterEnable (on : Bool)
  /-- `CORRECTABLE_ERROR`, R304: A correctable PCIe error is logged under AER, and HOST_ERR is raised under R308. -/
  | correctableError (fn : Fin 2) (err : CorErr)
  /-- `SP_BAD_COMMAND`, R341: A Safety port transaction with a correct CRC but an invalid CMD is not executed, and it is answered with STATUS BADCMD. -/
  | spBadCommand (bs : List Byte)
  /-- `SEQUENCER_RESTART_DONE`, R15: A restarted channel sequencer runs its first instruction again; unreleased bands and pending commands proceed, and mailbox n accepts sends again. -/
  | sequencerRestartDone (n : Fin 16)
  /-- `VKEEP_LOSS`, R30: VKEEP is lost while the main supplies are absent; the AON contents, including the ledger SRAM and the reset-cause record, are lost, and SYS_RSTCAUSE later reads 0x0000_0001. -/
  | vkeepLoss
  /-- `RESET_N_RELEASE`, R371: The rising edge of RESET_N, when it comes after the internal power-on reset release, sets T0 and starts start-up. -/
  | resetNRelease
deriving DecidableEq, Repr

end Sys2Proof
end

