-- ==== Sys2Proof/Decode.lean ====
section
/-! DEFINITION. The table of this block gives no command a bit pattern: its rows are operations and events, carried by
no instruction word. -/

namespace Sys2Proof

/-- The command a word of the table spells: none, since no row of the table gives bits. -/
def decodeTableWord (_nbits _w : Nat) : Option Instr := none

end Sys2Proof
end

