-- ==== Sys2Proof/Config.lean ====
section
/-! DEFINITION. What one part or one firmware fixes and the spec leaves open: opaque constants, so that no proof can
lean on a value of theirs. -/

namespace Sys2Proof.Config

/-- A fresh value the spec does not give; applied to the state's free-value counter. -/
opaque freeWord : Nat → Word

/-- The fused diode gain of on-die sensor s, s from 40 up (heading of THM_TSs_CFG). -/
opaque fusedGain : Nat → BitVec 16

/-- Of fallback oscillator i, 16 being the shared one: its nominal count over the gate of R249, its factory trim code, and whether a
higher trim code makes it faster (R406). -/
opaque oscNominal : Nat → Nat
opaque oscFactory : Nat → Nat
opaque oscRises : Nat → Bool

/-- The firmware version that PING returns, major in [31:16] and minor in [15:0] (R325). -/
opaque fwVersion : Word

/-- The device serial number in the fuses (R300). -/
opaque serialLo : Word
opaque serialHi : Word

end Sys2Proof.Config
end

