-- ==== Sys2Proof/Machine/Bits.lean ====
section
/-! DEFINITION. Bit fields, two's complement, byte order, clamps and the checks over byte strings (CRC-32C of R37,
SHA-256 of R213) that the meanings share. -/

namespace Sys2Proof.Machine

/-- The unsigned value of `width` bits of `w` from bit `lo` up. -/
def getBits (w : Word) (lo width : Nat) : Nat := (w >>> lo).toNat % 2 ^ width

/-- `w` with the `width` bits from `lo` up replaced by the low bits of `v`. -/
def setBits (w : Word) (lo width v : Nat) : Word :=
  (w &&& ~~~(BitVec.ofNat 32 ((2 ^ width - 1) * 2 ^ lo))) ||| BitVec.ofNat 32 ((v % 2 ^ width) * 2 ^ lo)

/-- Bit `i` of a number. -/
def bitAt (v i : Nat) : Bool := v.testBit i

/-- 1 for true, 0 for false: how a register shows a condition. -/
def b2n (b : Bool) : Nat := if b then 1 else 0

/-- Read a `width`-bit number as two's complement. -/
def toSigned (width v : Nat) : Int :=
  if v % 2 ^ width < 2 ^ (width - 1) then (v % 2 ^ width : Nat) else (v % 2 ^ width : Nat) - (2 ^ width : Nat)

/-- The `width`-bit two's complement code of an integer, wrapping. -/
def ofSigned (width : Nat) (v : Int) : Nat := (v % ((2 ^ width : Nat) : Int)).toNat

/-- `v` held within `lo` to `hi`. -/
def clampI (lo hi v : Int) : Int := if v < lo then lo else if hi < v then hi else v

/-- `v` held within `lo` to `hi`. -/
def clampN (lo hi v : Nat) : Nat := if v < lo then lo else if hi < v then hi else v

/-- Round to nearest, halves upward: floor((2n + d) / 2d). -/
def roundDiv (n d : Int) : Int := (2 * n + d).fdiv (2 * d)

/-- Floor division of integers. -/
def floorDiv (n d : Int) : Int := n.fdiv d

/-- Little-endian value of a byte string. -/
def leNat : List Byte → Nat
  | [] => 0
  | b :: bs => b.toNat + 256 * leNat bs

/-- The `k` bytes of a number, least significant first. -/
def leBytes : Nat → Nat → List Byte
  | 0, _ => []
  | k + 1, v => BitVec.ofNat 8 v :: leBytes k (v / 256)

/-- `k` bytes of a string from offset `i`, zeros beyond its end. -/
def bytesAt (bs : List Byte) (i k : Nat) : List Byte :=
  (List.range k).map fun j => bs.getD (i + j) 0

/-- Little-endian value of the `k` bytes from offset `i`. -/
def fieldAt (bs : List Byte) (i k : Nat) : Nat := leNat (bytesAt bs i k)

/-- One bit of a reflected 32-bit CRC with reflected polynomial `poly`. -/
def crcBit (poly : BitVec 32) (c : BitVec 32) : BitVec 32 :=
  if c.getLsbD 0 then (c >>> 1) ^^^ poly else c >>> 1

/-- One byte of a reflected 32-bit CRC. -/
def crcByte (poly c : BitVec 32) (b : Byte) : BitVec 32 :=
  (List.range 8).foldl (fun c _ => crcBit poly c) (c ^^^ b.zeroExtend 32)

/-- CRC-32C: polynomial 0x1EDC_6F41 processed least significant bit first, initial value all ones, inverted (R37). -/
def crc32c (bs : List Byte) : BitVec 32 :=
  ~~~(bs.foldl (crcByte 0x82F63B78#32) 0xFFFFFFFF#32)

/-- CRC-32 with polynomial 0x04C1_1DB7 processed least significant bit first, initial value all ones, inverted (R170). -/
def crc32 (bs : List Byte) : BitVec 32 :=
  ~~~(bs.foldl (crcByte 0xEDB88320#32) 0xFFFFFFFF#32)

/-- One bit of the CRC-8 with polynomial 0x07, most significant bit first. -/
def crc8Bit (c : Byte) : Byte := if c.getLsbD 7 then (c <<< 1) ^^^ 0x07 else c <<< 1

/-- CRC-8 with polynomial 0x07, initial value 0, not reflected and not inverted (R172). -/
def crc8 (bs : List Byte) : Byte :=
  bs.foldl (fun c b => (List.range 8).foldl (fun c _ => crc8Bit c) (c ^^^ b)) 0

/-! ## The 8b/10b code -/

/-- The bits abcdei of D.00 to D.31 at negative running disparity (R172; PRESUMED, log 147: the standard code). -/
def code6 : List Nat :=
  [0x27, 0x1D, 0x2D, 0x31, 0x35, 0x29, 0x19, 0x38, 0x39, 0x25, 0x15, 0x34, 0x0D, 0x2C, 0x1C, 0x17] ++
  [0x1B, 0x23, 0x13, 0x32, 0x0B, 0x2A, 0x1A, 0x3A, 0x33, 0x26, 0x16, 0x36, 0x0E, 0x2E, 0x1E, 0x2B]

/-- The bits fghj of D.x.0 to D.x.7 at negative running disparity, and of the alternate of D.x.7. -/
def code4 : List Nat := [0xB, 0x9, 0x5, 0xC, 0xD, 0xA, 0x6, 0xE, 0x7]

/-- Ones among the lowest k bits of a number. -/
def ones (k v : Nat) : Nat := (List.range k).foldl (fun c i => c + v / 2 ^ i % 2) 0

/-- The code of a part of k bits at running disparity rd (true: positive): an unbalanced code is inverted at positive disparity, and
so are the balanced ones that begin or end with a run of like bits (D.07, D.x.3). -/
def atRd (k c : Nat) (rd : Bool) : Nat :=
  if rd && (ones k c != k / 2 || c == 0x38 || (k == 4 && c == 0xC)) then 2 ^ k - 1 - c else c

/-- The running disparity after a part of k bits. -/
def rdAfter (k v : Nat) (rd : Bool) : Bool := if ones k v = k / 2 then rd else decide (k / 2 < ones k v)

/-- Which code of D.x.7 stands after D.x at running disparity rd before fghj: the alternate avoids five like bits in a row. -/
def alt7 (x : Nat) (rd : Bool) : Bool :=
  if rd then x == 11 || x == 13 || x == 14 else x == 17 || x == 18 || x == 20

/-- The byte of a data symbol at running disparity rd, none where the symbol is no valid code, and the disparity after it. -/
def decode10 (rd : Bool) (v : BitVec 10) : Option Byte × Bool :=
  let hi := v.toNat / 16
  let lo := v.toNat % 16
  let mid := rdAfter 6 hi rd
  let b := match (List.range 32).find? fun x => atRd 6 (code6.getD x 0) rd == hi with
    | some x =>
      ((List.range 8).find? fun y => atRd 4 (code4.getD (if y = 7 ∧ alt7 x mid then 8 else y) 0) mid == lo).map fun y =>
        BitVec.ofNat 8 (x + 32 * y)
    | none => none
  (b, rdAfter 4 lo mid)

/-- The bytes of a run of symbols from running disparity rd on: a symbol that is no valid code is discarded (R172). -/
def bytes10 : Bool → List (BitVec 10) → List Byte
  | _, [] => []
  | rd, v :: r =>
    let d := decode10 rd v
    d.1.toList ++ bytes10 d.2 r

/-- The bytes of a message before its CRC-8, none where the CRC-8 fails (R172). -/
def retMsg (rd : Bool) (syms : List (BitVec 10)) : Option (List Byte) :=
  let bs := bytes10 rd syms
  if 2 ≤ bs.length ∧ bs.getLast? = some (crc8 bs.dropLast) then some bs.dropLast else none

/-- The largest number of k more bits under r whose n-th power is at most v, found bit by bit. -/
def rootBits (n v : Nat) : Nat → Nat → Nat
  | 0, r => r
  | k + 1, r => rootBits n v k (if (r + 2 ^ k) ^ n ≤ v then r + 2 ^ k else r)

/-- The primes below 312. -/
def smallPrimes : List Nat :=
  (List.range 312).filter fun p => decide (2 ≤ p) && (List.range 18).all fun d => decide (d < 2) || decide (p ≤ d) || p % d != 0

/-- The first 32 bits behind the point of the n-th root of p, from which SHA-256 takes its constants. -/
def rootWord (n p : Nat) : BitVec 32 := BitVec.ofNat 32 (rootBits n (p * 2 ^ (32 * n)) 36 0)

/-- Big-endian bytes of a 32-bit word. -/
def beBytes4 (w : BitVec 32) : List Byte :=
  [(w >>> 24).truncate 8, (w >>> 16).truncate 8, (w >>> 8).truncate 8, w.truncate 8]

/-- Big-endian words of a byte string. -/
def beWords : List Byte → List (BitVec 32)
  | a :: b :: c :: d :: r => (a ++ b ++ c ++ d) :: beWords r
  | _ => []

/-- The padding of SHA-256: 0x80, zeros, and the bit length in 8 big-endian bytes. -/
def shaPad (bs : List Byte) : List Byte :=
  let n := bs.length
  bs ++ [0x80#8] ++ List.replicate ((119 - n % 64) % 64) 0#8 ++ (leBytes 8 (8 * n)).reverse

/-- The sum without carries of a word turned right by each of some numbers of places. -/
def turns (l : List Nat) (x : BitVec 32) : BitVec 32 := l.foldl (fun acc k => acc ^^^ x.rotateRight k) 0

/-- The message schedule of one block: 48 words follow the block's 16. -/
def shaSched (ws : List (BitVec 32)) : List (BitVec 32) :=
  let next (w : List (BitVec 32)) (_ : Nat) : List (BitVec 32) :=
    let x (back : Nat) : BitVec 32 := w.getD (back - 1) 0
    (x 16 + (turns [7, 18] (x 15) ^^^ (x 15 >>> 3)) + x 7 + (turns [17, 19] (x 2) ^^^ (x 2 >>> 10))) :: w
  ((List.range 48).foldl next ws.reverse).reverse

/-- The working words of SHA-256 as two shift registers of four, the newest word of each first. -/
abbrev ShaRegs := List (BitVec 32) × List (BitVec 32)

/-- One round: a word enters each register and the oldest leaves it. -/
def shaRound (q : ShaRegs) (kw : BitVec 32) : ShaRegs :=
  let l (i : Nat) : BitVec 32 := q.1.getD i 0
  let r (i : Nat) : BitVec 32 := q.2.getD i 0
  let t := kw + r 3 + turns [6, 11, 25] (r 0) + (r 2 ^^^ (r 0 &&& (r 1 ^^^ r 2)))
  ((t + turns [2, 13, 22] (l 0) + ((l 0 &&& (l 1 ||| l 2)) ||| (l 1 &&& l 2))) :: q.1.take 3, (l 3 + t) :: q.2.take 3)

/-- One block of SHA-256 under its round constants. -/
def shaBlock (ks h ws : List (BitVec 32)) : List (BitVec 32) :=
  let q := (List.zipWith (· + ·) ks (shaSched ws)).foldl shaRound (h.take 4, h.drop 4)
  List.zipWith (· + ·) h (q.1 ++ q.2)

/-- The first k blocks of 16 words each. -/
def shaBlocks (ks : List (BitVec 32)) : Nat → List (BitVec 32) → List (BitVec 32) → List (BitVec 32)
  | 0, h, _ => h
  | k + 1, h, ws => shaBlocks ks k (shaBlock ks h (ws.take 16)) (ws.drop 16)

/-- SHA-256 of a byte string, as 32 bytes: the round constants are of cube roots, the first chaining words of square roots. -/
def sha256 (bs : List Byte) : List Byte :=
  let ws := beWords (shaPad bs)
  (shaBlocks (smallPrimes.map (rootWord 3)) (ws.length / 16) ((smallPrimes.take 8).map (rootWord 2)) ws).flatMap beBytes4

end Sys2Proof.Machine
end

