-- ==== Sys2Proof/Machine/Sparse.lean ====
section
/-! DEFINITION. Sparse stores: a list of (address, value) pairs in one canonical form, addresses strictly rising and no
entry equal to what an unlisted address reads as. The register space, the latches and the flash are such stores. -/

namespace Sys2Proof.Machine

/-- A store of `w`-bit values by address. With `w = 8` an entry is a `Host.Cell`. -/
abbrev Sparse (w : Nat) := List (Nat × BitVec w)

/-- What address `a` reads as, `d` giving the value of an unlisted address. -/
def sparseGet (d : Nat → BitVec w) (m : Sparse w) (a : Nat) : BitVec w :=
  match m with
  | [] => d a
  | (k, v) :: r => if a = k then v else sparseGet d r a

/-- The store without the entries whose address satisfies `p`: those addresses read their default again. -/
def sparseDrop (p : Nat → Bool) : Sparse w → Sparse w
  | [] => []
  | (k, v) :: r => if p k then sparseDrop p r else (k, v) :: sparseDrop p r

/-- An entry put in its place in the rising order. -/
def sparseInsert (a : Nat) (v : BitVec w) : Sparse w → Sparse w
  | [] => [(a, v)]
  | (k, u) :: r => if a < k then (a, v) :: (k, u) :: r else (k, u) :: sparseInsert a v r

/-- `m` with address `a` holding `v`, in canonical form: the entry goes where `v` is the default. -/
def sparseSet (d : Nat → BitVec w) (m : Sparse w) (a : Nat) (v : BitVec w) : Sparse w :=
  let r := sparseDrop (fun k => k == a) m
  if v = d a then r else sparseInsert a v r

/-- Every address of the store is above `a`. -/
def sparseAbove (a : Nat) : Sparse w → Bool
  | [] => true
  | (k, _) :: _ => a < k

/-- The canonical form: addresses strictly rising, no entry equal to its default. -/
def sparseWf (d : Nat → BitVec w) : Sparse w → Bool
  | [] => true
  | (k, v) :: r => (v != d k) && sparseAbove k r && sparseWf d r

end Sys2Proof.Machine
end

