-- ==== Sys2Proof/Machine/RegMap.lean ====
section
/-! DEFINITION. The register map: every register of the chapters' register sections, with its offset (the index of
chapter 19), its reset value, its fields and their type codes (R10), and an accessor for each address and field. -/

namespace Sys2Proof.Machine

/-- The field type codes of R10. -/
inductive FTyp where
  | rw | ro | w1c | w1s | wo | rc | st
deriving DecidableEq, Repr

/-- A field of a register: its lowest bit, its width and its type code. -/
structure FieldDef where
  lo : Nat
  width : Nat
  typ : FTyp
deriving DecidableEq, Repr

/-- A register or a group of equal registers: the offset of the first, the stride and count of each index (largest
stride first), the reset value, how far above it the high word of its 64-bit pair lies if it is a low word (R13), and
its fields. Bits in no field are reserved and read 0 (R12). -/
structure RegDef where
  name : String
  base : Nat
  dims : List (Nat × Nat)
  reset : Nat
  hi : Option Nat
  fields : List FieldDef
deriving DecidableEq, Repr

/-- A field of one register: the register's offset, the lowest bit, the width. -/
structure Fld where
  addr : Nat
  lo : Nat
  width : Nat
deriving DecidableEq, Repr

/-- 01_architecture.md, `SYS_ID`. -/
def A.SYS_ID : Nat := 0x0
def F.SYS_ID_REV : Fld := ⟨A.SYS_ID, 0, 8⟩
/-- 01_architecture.md, `SYS_PART`. -/
def A.SYS_PART : Nat := 0x4
def F.SYS_PART_PART : Fld := ⟨A.SYS_PART, 0, 16⟩
def F.SYS_PART_NCH : Fld := ⟨A.SYS_PART, 16, 5⟩
/-- 01_architecture.md, `SYS_BOOTCNT`. -/
def A.SYS_BOOTCNT : Nat := 0x8
def F.SYS_BOOTCNT_COUNT : Fld := ⟨A.SYS_BOOTCNT, 0, 32⟩
/-- 01_architecture.md, `SYS_TIME_LO`. -/
def A.SYS_TIME_LO : Nat := 0x10
def F.SYS_TIME_LO_TIME_L : Fld := ⟨A.SYS_TIME_LO, 3, 29⟩
/-- 01_architecture.md, `SYS_TIME_HI`. -/
def A.SYS_TIME_HI : Nat := 0x14
def F.SYS_TIME_HI_TIME_H : Fld := ⟨A.SYS_TIME_HI, 0, 32⟩
/-- 01_architecture.md, `SYS_EPOCH_LO`. -/
def A.SYS_EPOCH_LO : Nat := 0x18
def F.SYS_EPOCH_LO_EPOCH_L : Fld := ⟨A.SYS_EPOCH_LO, 0, 32⟩
/-- 01_architecture.md, `SYS_EPOCH_HI`. -/
def A.SYS_EPOCH_HI : Nat := 0x1C
def F.SYS_EPOCH_HI_EPOCH_H : Fld := ⟨A.SYS_EPOCH_HI, 0, 32⟩
/-- 01_architecture.md, `SYS_EPOCHBASE_LO`. -/
def A.SYS_EPOCHBASE_LO : Nat := 0x20
def F.SYS_EPOCHBASE_LO_BASE_L : Fld := ⟨A.SYS_EPOCHBASE_LO, 0, 32⟩
/-- 01_architecture.md, `SYS_EPOCHBASE_HI`. -/
def A.SYS_EPOCHBASE_HI : Nat := 0x24
def F.SYS_EPOCHBASE_HI_BASE_H : Fld := ⟨A.SYS_EPOCHBASE_HI, 0, 32⟩
/-- 01_architecture.md, `SYS_RSTCAUSE`. -/
def A.SYS_RSTCAUSE : Nat := 0x30
def F.SYS_RSTCAUSE_POR : Fld := ⟨A.SYS_RSTCAUSE, 0, 1⟩
def F.SYS_RSTCAUSE_BOR : Fld := ⟨A.SYS_RSTCAUSE, 1, 1⟩
def F.SYS_RSTCAUSE_PERST : Fld := ⟨A.SYS_RSTCAUSE, 2, 1⟩
def F.SYS_RSTCAUSE_HOTRST : Fld := ⟨A.SYS_RSTCAUSE, 3, 1⟩
def F.SYS_RSTCAUSE_FLR0 : Fld := ⟨A.SYS_RSTCAUSE, 4, 1⟩
def F.SYS_RSTCAUSE_FLR1 : Fld := ⟨A.SYS_RSTCAUSE, 5, 1⟩
def F.SYS_RSTCAUSE_DEVRST : Fld := ⟨A.SYS_RSTCAUSE, 6, 1⟩
def F.SYS_RSTCAUSE_SUPRST : Fld := ⟨A.SYS_RSTCAUSE, 7, 1⟩
def F.SYS_RSTCAUSE_LOCKSTEP : Fld := ⟨A.SYS_RSTCAUSE, 8, 1⟩
def F.SYS_RSTCAUSE_WAKE : Fld := ⟨A.SYS_RSTCAUSE, 9, 1⟩
def F.SYS_RSTCAUSE_CHRST : Fld := ⟨A.SYS_RSTCAUSE, 16, 16⟩
/-- 01_architecture.md, `SYS_DOMSTAT_LO`. -/
def A.SYS_DOMSTAT_LO : Nat := 0x40
def F.SYS_DOMSTAT_LO_DOM : Fld := ⟨A.SYS_DOMSTAT_LO, 0, 32⟩
/-- 01_architecture.md, `SYS_DOMSTAT_HI`. -/
def A.SYS_DOMSTAT_HI : Nat := 0x44
def F.SYS_DOMSTAT_HI_DOM : Fld := ⟨A.SYS_DOMSTAT_HI, 0, 16⟩
/-- 02_work_and_ledger.md, `WRK_CTRL`. -/
def A.WRK_CTRL : Nat := 0xC0000
def F.WRK_CTRL_FETCH_EN : Fld := ⟨A.WRK_CTRL, 0, 1⟩
/-- 02_work_and_ledger.md, `WRK_STAT`. -/
def A.WRK_STAT : Nat := 0xC0004
def F.WRK_STAT_RUN : Fld := ⟨A.WRK_STAT, 0, 16⟩
def F.WRK_STAT_HOLD : Fld := ⟨A.WRK_STAT, 16, 16⟩
/-- 02_work_and_ledger.md, `WRK_SCRn_BASE_LO`. -/
def A.WRK_SCRn_BASE_LO (n : Nat) : Nat := 0xC0100 + n * 0x40
def F.WRK_SCRn_BASE_LO_BASE_L (n : Nat) : Fld := ⟨A.WRK_SCRn_BASE_LO n, 12, 20⟩
/-- 02_work_and_ledger.md, `WRK_SCRn_BASE_HI`. -/
def A.WRK_SCRn_BASE_HI (n : Nat) : Nat := 0xC0104 + n * 0x40
def F.WRK_SCRn_BASE_HI_BASE_H (n : Nat) : Fld := ⟨A.WRK_SCRn_BASE_HI n, 0, 32⟩
/-- 02_work_and_ledger.md, `WRK_SCRn_SIZE`. -/
def A.WRK_SCRn_SIZE (n : Nat) : Nat := 0xC0108 + n * 0x40
def F.WRK_SCRn_SIZE_SCR_LOG2 (n : Nat) : Fld := ⟨A.WRK_SCRn_SIZE n, 0, 4⟩
def F.WRK_SCRn_SIZE_CMP_LOG2 (n : Nat) : Fld := ⟨A.WRK_SCRn_SIZE n, 8, 4⟩
/-- 02_work_and_ledger.md, `WRK_SCRn_PIDX`. -/
def A.WRK_SCRn_PIDX (n : Nat) : Nat := 0xC010C + n * 0x40
def F.WRK_SCRn_PIDX_PIDX (n : Nat) : Fld := ⟨A.WRK_SCRn_PIDX n, 0, 12⟩
/-- 02_work_and_ledger.md, `WRK_SCRn_CIDX`. -/
def A.WRK_SCRn_CIDX (n : Nat) : Nat := 0xC0110 + n * 0x40
def F.WRK_SCRn_CIDX_CIDX (n : Nat) : Fld := ⟨A.WRK_SCRn_CIDX n, 0, 12⟩
/-- 02_work_and_ledger.md, `WRK_CMPn_BASE_LO`. -/
def A.WRK_CMPn_BASE_LO (n : Nat) : Nat := 0xC0114 + n * 0x40
def F.WRK_CMPn_BASE_LO_BASE_L (n : Nat) : Fld := ⟨A.WRK_CMPn_BASE_LO n, 12, 20⟩
/-- 02_work_and_ledger.md, `WRK_CMPn_BASE_HI`. -/
def A.WRK_CMPn_BASE_HI (n : Nat) : Nat := 0xC0118 + n * 0x40
def F.WRK_CMPn_BASE_HI_BASE_H (n : Nat) : Fld := ⟨A.WRK_CMPn_BASE_HI n, 0, 32⟩
/-- 02_work_and_ledger.md, `WRK_CMPn_HEAD`. -/
def A.WRK_CMPn_HEAD (n : Nat) : Nat := 0xC011C + n * 0x40
def F.WRK_CMPn_HEAD_HEAD (n : Nat) : Fld := ⟨A.WRK_CMPn_HEAD n, 0, 12⟩
/-- 02_work_and_ledger.md, `WRK_CMPn_TAIL`. -/
def A.WRK_CMPn_TAIL (n : Nat) : Nat := 0xC0120 + n * 0x40
def F.WRK_CMPn_TAIL_TAIL (n : Nat) : Fld := ⟨A.WRK_CMPn_TAIL n, 0, 12⟩
def F.WRK_CMPn_TAIL_PHASE (n : Nat) : Fld := ⟨A.WRK_CMPn_TAIL n, 12, 1⟩
/-- 02_work_and_ledger.md, `WRK_SCRn_CMD`. -/
def A.WRK_SCRn_CMD (n : Nat) : Nat := 0xC0124 + n * 0x40
def F.WRK_SCRn_CMD_CODE (n : Nat) : Fld := ⟨A.WRK_SCRn_CMD n, 0, 4⟩
/-- 02_work_and_ledger.md, `WRK_SCRn_ARG_SEQ`. -/
def A.WRK_SCRn_ARG_SEQ (n : Nat) : Nat := 0xC0128 + n * 0x40
def F.WRK_SCRn_ARG_SEQ_SEQ (n : Nat) : Fld := ⟨A.WRK_SCRn_ARG_SEQ n, 0, 32⟩
/-- 02_work_and_ledger.md, `WRK_SCRn_ARG_ADDR_LO`. -/
def A.WRK_SCRn_ARG_ADDR_LO (n : Nat) : Nat := 0xC012C + n * 0x40
def F.WRK_SCRn_ARG_ADDR_LO_ADDR_L (n : Nat) : Fld := ⟨A.WRK_SCRn_ARG_ADDR_LO n, 0, 32⟩
/-- 02_work_and_ledger.md, `WRK_SCRn_ARG_ADDR_HI`. -/
def A.WRK_SCRn_ARG_ADDR_HI (n : Nat) : Nat := 0xC0130 + n * 0x40
def F.WRK_SCRn_ARG_ADDR_HI_ADDR_H (n : Nat) : Fld := ⟨A.WRK_SCRn_ARG_ADDR_HI n, 0, 32⟩
/-- 02_work_and_ledger.md, `WRK_SCRn_STAT`. -/
def A.WRK_SCRn_STAT (n : Nat) : Nat := 0xC0134 + n * 0x40
def F.WRK_SCRn_STAT_STATE (n : Nat) : Fld := ⟨A.WRK_SCRn_STAT n, 0, 2⟩
def F.WRK_SCRn_STAT_HCAUSE (n : Nat) : Fld := ⟨A.WRK_SCRn_STAT n, 2, 3⟩
def F.WRK_SCRn_STAT_CMDBUSY (n : Nat) : Fld := ⟨A.WRK_SCRn_STAT n, 5, 1⟩
def F.WRK_SCRn_STAT_CMDRES (n : Nat) : Fld := ⟨A.WRK_SCRn_STAT n, 6, 2⟩
def F.WRK_SCRn_STAT_NBANDS (n : Nat) : Fld := ⟨A.WRK_SCRn_STAT n, 8, 7⟩
/-- 02_work_and_ledger.md, `WRK_SCRn_LASTSEQ`. -/
def A.WRK_SCRn_LASTSEQ (n : Nat) : Nat := 0xC0138 + n * 0x40
def F.WRK_SCRn_LASTSEQ_LASTSEQ (n : Nat) : Fld := ⟨A.WRK_SCRn_LASTSEQ n, 0, 32⟩
/-- 02_work_and_ledger.md, `CHn_LED_SEQ`. -/
def A.CHn_LED_SEQ (n : Nat) : Nat := 0x1060000 + n * 0x100000
def F.CHn_LED_SEQ_SEQ (n : Nat) : Fld := ⟨A.CHn_LED_SEQ n, 0, 32⟩
/-- 02_work_and_ledger.md, `CHn_LED_LINE`. -/
def A.CHn_LED_LINE (n : Nat) : Nat := 0x1060004 + n * 0x100000
def F.CHn_LED_LINE_LINE (n : Nat) : Fld := ⟨A.CHn_LED_LINE n, 0, 24⟩
def F.CHn_LED_LINE_STATE (n : Nat) : Fld := ⟨A.CHn_LED_LINE n, 24, 2⟩
def F.CHn_LED_LINE_DIR (n : Nat) : Fld := ⟨A.CHn_LED_LINE n, 26, 1⟩
def F.CHn_LED_LINE_SOSK (n : Nat) : Fld := ⟨A.CHn_LED_LINE n, 27, 1⟩
/-- 02_work_and_ledger.md, `CHn_LED_COUNT`. -/
def A.CHn_LED_COUNT (n : Nat) : Nat := 0x1060008 + n * 0x100000
def F.CHn_LED_COUNT_COUNT (n : Nat) : Fld := ⟨A.CHn_LED_COUNT n, 0, 32⟩
/-- 02_work_and_ledger.md, `CHn_LED_PSEQ`. -/
def A.CHn_LED_PSEQ (n : Nat) : Nat := 0x106000C + n * 0x100000
def F.CHn_LED_PSEQ_SEQ (n : Nat) : Fld := ⟨A.CHn_LED_PSEQ n, 0, 32⟩
/-- 02_work_and_ledger.md, `CHn_LED_PLINE`. -/
def A.CHn_LED_PLINE (n : Nat) : Nat := 0x1060010 + n * 0x100000
def F.CHn_LED_PLINE_LINE (n : Nat) : Fld := ⟨A.CHn_LED_PLINE n, 0, 24⟩
def F.CHn_LED_PLINE_PEND (n : Nat) : Fld := ⟨A.CHn_LED_PLINE n, 31, 1⟩
/-- 02_work_and_ledger.md, `CHn_LED_UNC`. -/
def A.CHn_LED_UNC (n : Nat) : Nat := 0x1060014 + n * 0x100000
def F.CHn_LED_UNC_COUNT (n : Nat) : Fld := ⟨A.CHn_LED_UNC n, 0, 8⟩
/-- 02_work_and_ledger.md, `CHn_LED_FLUSH`. -/
def A.CHn_LED_FLUSH (n : Nat) : Nat := 0x1060018 + n * 0x100000
def F.CHn_LED_FLUSH_DONE (n : Nat) : Fld := ⟨A.CHn_LED_FLUSH n, 0, 1⟩
def F.CHn_LED_FLUSH_SRC (n : Nat) : Fld := ⟨A.CHn_LED_FLUSH n, 1, 2⟩
/-- 03_image_path.md, `CHn_IMG_GEOM`. -/
def A.CHn_IMG_GEOM (n : Nat) : Nat := 0x1010000 + n * 0x100000
def F.CHn_IMG_GEOM_NNOZ (n : Nat) : Fld := ⟨A.CHn_IMG_GEOM n, 0, 13⟩
def F.CHn_IMG_GEOM_NROWS (n : Nat) : Fld := ⟨A.CHn_IMG_GEOM n, 16, 3⟩
/-- 03_image_path.md, `CHn_IMG_CTRL`. -/
def A.CHn_IMG_CTRL (n : Nat) : Nat := 0x1010004 + n * 0x100000
def F.CHn_IMG_CTRL_LEAD (n : Nat) : Fld := ⟨A.CHn_IMG_CTRL n, 0, 6⟩
def F.CHn_IMG_CTRL_DEVDEAD (n : Nat) : Fld := ⟨A.CHn_IMG_CTRL n, 8, 1⟩
def F.CHn_IMG_CTRL_FENCE_LIM (n : Nat) : Fld := ⟨A.CHn_IMG_CTRL n, 12, 4⟩
/-- 03_image_path.md, `CHn_IMG_BANK`. -/
def A.CHn_IMG_BANK (n : Nat) : Nat := 0x1010008 + n * 0x100000
def F.CHn_IMG_BANK_MAPB (n : Nat) : Fld := ⟨A.CHn_IMG_BANK n, 0, 1⟩
def F.CHn_IMG_BANK_LUTB (n : Nat) : Fld := ⟨A.CHn_IMG_BANK n, 1, 1⟩
def F.CHn_IMG_BANK_SADB (n : Nat) : Fld := ⟨A.CHn_IMG_BANK n, 2, 1⟩
def F.CHn_IMG_BANK_MASKB (n : Nat) : Fld := ⟨A.CHn_IMG_BANK n, 3, 1⟩
def F.CHn_IMG_BANK_MTXB (n : Nat) : Fld := ⟨A.CHn_IMG_BANK n, 4, 1⟩
/-- 03_image_path.md, `CHn_IMG_SADDLE`. -/
def A.CHn_IMG_SADDLE (n : Nat) : Nat := 0x101000C + n * 0x100000
def F.CHn_IMG_SADDLE_SADL (n : Nat) : Fld := ⟨A.CHn_IMG_SADDLE n, 0, 9⟩
def F.CHn_IMG_SADDLE_SADR (n : Nat) : Fld := ⟨A.CHn_IMG_SADDLE n, 16, 9⟩
/-- 03_image_path.md, `CHn_IMG_CMPW`. -/
def A.CHn_IMG_CMPW (n : Nat) : Nat := 0x1010010 + n * 0x100000
def F.CHn_IMG_CMPW_W1 (n : Nat) : Fld := ⟨A.CHn_IMG_CMPW n, 0, 8⟩
def F.CHn_IMG_CMPW_W2 (n : Nat) : Fld := ⟨A.CHn_IMG_CMPW n, 8, 8⟩
/-- 03_image_path.md, `CHn_IMG_MTXGEOMm`. -/
def A.CHn_IMG_MTXGEOMm (n : Nat) (m : Nat) : Nat := 0x1010020 + n * 0x100000 + m * 0x8
def F.CHn_IMG_MTXGEOMm_MW (n : Nat) (m : Nat) : Fld := ⟨A.CHn_IMG_MTXGEOMm n m, 0, 9⟩
def F.CHn_IMG_MTXGEOMm_MH (n : Nat) (m : Nat) : Fld := ⟨A.CHn_IMG_MTXGEOMm n m, 16, 9⟩
/-- 03_image_path.md, `CHn_IMG_MTXOFFm`. -/
def A.CHn_IMG_MTXOFFm (n : Nat) (m : Nat) : Nat := 0x1010024 + n * 0x100000 + m * 0x8
def F.CHn_IMG_MTXOFFm_XOFF (n : Nat) (m : Nat) : Fld := ⟨A.CHn_IMG_MTXOFFm n m, 0, 9⟩
def F.CHn_IMG_MTXOFFm_YOFF (n : Nat) (m : Nat) : Fld := ⟨A.CHn_IMG_MTXOFFm n m, 16, 9⟩
/-- 03_image_path.md, `CHn_IMG_PXOFFq`. -/
def A.CHn_IMG_PXOFFq (n : Nat) (q : Nat) : Nat := 0x1010040 + n * 0x100000 + q * 0x4
def F.CHn_IMG_PXOFFq_OFF0 (n : Nat) (q : Nat) : Fld := ⟨A.CHn_IMG_PXOFFq n q, 0, 8⟩
def F.CHn_IMG_PXOFFq_OFF1 (n : Nat) (q : Nat) : Fld := ⟨A.CHn_IMG_PXOFFq n q, 8, 8⟩
def F.CHn_IMG_PXOFFq_OFF2 (n : Nat) (q : Nat) : Fld := ⟨A.CHn_IMG_PXOFFq n q, 16, 8⟩
def F.CHn_IMG_PXOFFq_OFF3 (n : Nat) (q : Nat) : Fld := ⟨A.CHn_IMG_PXOFFq n q, 24, 8⟩
/-- 03_image_path.md, `CHn_IMG_PASSCFG`. -/
def A.CHn_IMG_PASSCFG (n : Nat) : Nat := 0x1010050 + n * 0x100000
def F.CHn_IMG_PASSCFG_MYOFF (n : Nat) : Fld := ⟨A.CHn_IMG_PASSCFG n, 0, 8⟩
def F.CHn_IMG_PASSCFG_MASK_EN (n : Nat) : Fld := ⟨A.CHn_IMG_PASSCFG n, 8, 1⟩
/-- 03_image_path.md, `CHn_IMG_PIPESTAT`. -/
def A.CHn_IMG_PIPESTAT (n : Nat) : Nat := 0x1010060 + n * 0x100000
def F.CHn_IMG_PIPESTAT_FENCEA (n : Nat) : Fld := ⟨A.CHn_IMG_PIPESTAT n, 0, 1⟩
def F.CHn_IMG_PIPESTAT_FENCEB (n : Nat) : Fld := ⟨A.CHn_IMG_PIPESTAT n, 1, 1⟩
def F.CHn_IMG_PIPESTAT_READMA (n : Nat) : Fld := ⟨A.CHn_IMG_PIPESTAT n, 4, 1⟩
def F.CHn_IMG_PIPESTAT_READMB (n : Nat) : Fld := ⟨A.CHn_IMG_PIPESTAT n, 5, 1⟩
def F.CHn_IMG_PIPESTAT_RESCNTA (n : Nat) : Fld := ⟨A.CHn_IMG_PIPESTAT n, 8, 4⟩
def F.CHn_IMG_PIPESTAT_RESCNTB (n : Nat) : Fld := ⟨A.CHn_IMG_PIPESTAT n, 12, 4⟩
def F.CHn_IMG_PIPESTAT_CNTCLR (n : Nat) : Fld := ⟨A.CHn_IMG_PIPESTAT n, 16, 1⟩
/-- 03_image_path.md, `CHn_IMG_RECOMP`. -/
def A.CHn_IMG_RECOMP (n : Nat) : Nat := 0x1010064 + n * 0x100000
def F.CHn_IMG_RECOMP_RECOMP (n : Nat) : Fld := ⟨A.CHn_IMG_RECOMP n, 0, 16⟩
def F.CHn_IMG_RECOMP_KAT (n : Nat) : Fld := ⟨A.CHn_IMG_RECOMP n, 16, 16⟩
/-- 03_image_path.md, `CHn_IMG_STAT`. -/
def A.CHn_IMG_STAT (n : Nat) : Nat := 0x1010068 + n * 0x100000
def F.CHn_IMG_STAT_ACTWR (n : Nat) : Fld := ⟨A.CHn_IMG_STAT n, 0, 1⟩
def F.CHn_IMG_STAT_MTXUE (n : Nat) : Fld := ⟨A.CHn_IMG_STAT n, 1, 1⟩
def F.CHn_IMG_STAT_IMGUE (n : Nat) : Fld := ⟨A.CHn_IMG_STAT n, 2, 1⟩
def F.CHn_IMG_STAT_MASKMIS (n : Nat) : Fld := ⟨A.CHn_IMG_STAT n, 3, 1⟩
def F.CHn_IMG_STAT_LEADNOW (n : Nat) : Fld := ⟨A.CHn_IMG_STAT n, 8, 6⟩
/-- 03_image_path.md, `CHn_IMG_ECC`. -/
def A.CHn_IMG_ECC (n : Nat) : Nat := 0x101006C + n * 0x100000
def F.CHn_IMG_ECC_CE (n : Nat) : Fld := ⟨A.CHn_IMG_ECC n, 0, 16⟩
def F.CHn_IMG_ECC_UE (n : Nat) : Fld := ⟨A.CHn_IMG_ECC n, 16, 16⟩
/-- 03_image_path.md, `CHn_IMG_TLD_ADDR_LO`. -/
def A.CHn_IMG_TLD_ADDR_LO (n : Nat) : Nat := 0x1010070 + n * 0x100000
def F.CHn_IMG_TLD_ADDR_LO_ADDR_L (n : Nat) : Fld := ⟨A.CHn_IMG_TLD_ADDR_LO n, 6, 26⟩
/-- 03_image_path.md, `CHn_IMG_TLD_ADDR_HI`. -/
def A.CHn_IMG_TLD_ADDR_HI (n : Nat) : Nat := 0x1010074 + n * 0x100000
def F.CHn_IMG_TLD_ADDR_HI_ADDR_H (n : Nat) : Fld := ⟨A.CHn_IMG_TLD_ADDR_HI n, 0, 32⟩
/-- 03_image_path.md, `CHn_IMG_TLD_CTRL`. -/
def A.CHn_IMG_TLD_CTRL (n : Nat) : Nat := 0x1010078 + n * 0x100000
def F.CHn_IMG_TLD_CTRL_ROWS (n : Nat) : Fld := ⟨A.CHn_IMG_TLD_CTRL n, 0, 10⟩
def F.CHn_IMG_TLD_CTRL_MTX (n : Nat) : Fld := ⟨A.CHn_IMG_TLD_CTRL n, 10, 2⟩
def F.CHn_IMG_TLD_CTRL_BANK (n : Nat) : Fld := ⟨A.CHn_IMG_TLD_CTRL n, 12, 1⟩
def F.CHn_IMG_TLD_CTRL_GO (n : Nat) : Fld := ⟨A.CHn_IMG_TLD_CTRL n, 31, 1⟩
/-- 03_image_path.md, `CHn_IMG_TLD_STAT`. -/
def A.CHn_IMG_TLD_STAT (n : Nat) : Nat := 0x101007C + n * 0x100000
def F.CHn_IMG_TLD_STAT_BUSY (n : Nat) : Fld := ⟨A.CHn_IMG_TLD_STAT n, 0, 1⟩
def F.CHn_IMG_TLD_STAT_ERR (n : Nat) : Fld := ⟨A.CHn_IMG_TLD_STAT n, 1, 2⟩
def F.CHn_IMG_TLD_STAT_DONE (n : Nat) : Fld := ⟨A.CHn_IMG_TLD_STAT n, 3, 10⟩
/-- 04_drop_waveforms_and_duty.md, `CHn_WAV_CTRL`. -/
def A.CHn_WAV_CTRL (n : Nat) : Nat := 0x1020000 + n * 0x100000
def F.CHn_WAV_CTRL_WV0EN (n : Nat) : Fld := ⟨A.CHn_WAV_CTRL n, 0, 1⟩
def F.CHn_WAV_CTRL_WV1EN (n : Nat) : Fld := ⟨A.CHn_WAV_CTRL n, 1, 1⟩
def F.CHn_WAV_CTRL_GAP (n : Nat) : Fld := ⟨A.CHn_WAV_CTRL n, 8, 8⟩
/-- 04_drop_waveforms_and_duty.md, `CHn_WAV_DLY`. -/
def A.CHn_WAV_DLY (n : Nat) : Nat := 0x1020004 + n * 0x100000
def F.CHn_WAV_DLY_WDLY (n : Nat) : Fld := ⟨A.CHn_WAV_DLY n, 0, 12⟩
def F.CHn_WAV_DLY_SEGDLY (n : Nat) : Fld := ⟨A.CHn_WAV_DLY n, 16, 12⟩
/-- 04_drop_waveforms_and_duty.md, `CHn_WAV_BANK`. -/
def A.CHn_WAV_BANK (n : Nat) : Nat := 0x1020008 + n * 0x100000
def F.CHn_WAV_BANK_BANK (n : Nat) : Fld := ⟨A.CHn_WAV_BANK n, 0, 1⟩
/-- 04_drop_waveforms_and_duty.md, `CHn_WAV_SEL`. -/
def A.CHn_WAV_SEL (n : Nat) : Nat := 0x102000C + n * 0x100000
def F.CHn_WAV_SEL_TAB (n : Nat) : Fld := ⟨A.CHn_WAV_SEL n, 0, 2⟩
def F.CHn_WAV_SEL_PASSSEL (n : Nat) : Fld := ⟨A.CHn_WAV_SEL n, 4, 1⟩
/-- 04_drop_waveforms_and_duty.md, `CHn_WAV_PASSTAB`. -/
def A.CHn_WAV_PASSTAB (n : Nat) : Nat := 0x1020010 + n * 0x100000
def F.CHn_WAV_PASSTAB_TAB (n : Nat) : Fld := ⟨A.CHn_WAV_PASSTAB n, 0, 32⟩
/-- 04_drop_waveforms_and_duty.md, `CHn_WAV_REST`. -/
def A.CHn_WAV_REST (n : Nat) : Nat := 0x1020014 + n * 0x100000
def F.CHn_WAV_REST_REST0 (n : Nat) : Fld := ⟨A.CHn_WAV_REST n, 0, 16⟩
def F.CHn_WAV_REST_REST1 (n : Nat) : Fld := ⟨A.CHn_WAV_REST n, 16, 16⟩
/-- 04_drop_waveforms_and_duty.md, `CHn_WAV_AMP`. -/
def A.CHn_WAV_AMP (n : Nat) : Nat := 0x1020018 + n * 0x100000
def F.CHn_WAV_AMP_AMP0 (n : Nat) : Fld := ⟨A.CHn_WAV_AMP n, 0, 16⟩
def F.CHn_WAV_AMP_AMP1 (n : Nat) : Fld := ⟨A.CHn_WAV_AMP n, 16, 16⟩
/-- 04_drop_waveforms_and_duty.md, `CHn_WAV_SCALE`. -/
def A.CHn_WAV_SCALE (n : Nat) : Nat := 0x102001C + n * 0x100000
def F.CHn_WAV_SCALE_SC0 (n : Nat) : Fld := ⟨A.CHn_WAV_SCALE n, 0, 16⟩
def F.CHn_WAV_SCALE_SC1 (n : Nat) : Fld := ⟨A.CHn_WAV_SCALE n, 16, 16⟩
/-- 04_drop_waveforms_and_duty.md, `CHn_WAV_WFB`. -/
def A.CHn_WAV_WFB (n : Nat) : Nat := 0x1020020 + n * 0x100000
def F.CHn_WAV_WFB_LOOP_EN (n : Nat) : Fld := ⟨A.CHn_WAV_WFB n, 0, 1⟩
def F.CHn_WAV_WFB_SRC (n : Nat) : Fld := ⟨A.CHn_WAV_WFB n, 1, 1⟩
def F.CHn_WAV_WFB_TAB (n : Nat) : Fld := ⟨A.CHn_WAV_WFB n, 2, 2⟩
def F.CHn_WAV_WFB_NAVG (n : Nat) : Fld := ⟨A.CHn_WAV_WFB n, 4, 4⟩
/-- 04_drop_waveforms_and_duty.md, `CHn_WAV_WFBWIN`. -/
def A.CHn_WAV_WFBWIN (n : Nat) : Nat := 0x1020024 + n * 0x100000
def F.CHn_WAV_WFBWIN_WST (n : Nat) : Fld := ⟨A.CHn_WAV_WFBWIN n, 0, 12⟩
def F.CHn_WAV_WFBWIN_WEND (n : Nat) : Fld := ⟨A.CHn_WAV_WFBWIN n, 16, 12⟩
/-- 04_drop_waveforms_and_duty.md, `CHn_WAV_WFBTGT`. -/
def A.CHn_WAV_WFBTGT (n : Nat) : Nat := 0x1020028 + n * 0x100000
def F.CHn_WAV_WFBTGT_TARGET (n : Nat) : Fld := ⟨A.CHn_WAV_WFBTGT n, 0, 12⟩
def F.CHn_WAV_WFBTGT_STEPMAX (n : Nat) : Fld := ⟨A.CHn_WAV_WFBTGT n, 16, 12⟩
/-- 04_drop_waveforms_and_duty.md, `CHn_WAV_WFBLIM`. -/
def A.CHn_WAV_WFBLIM (n : Nat) : Nat := 0x102002C + n * 0x100000
def F.CHn_WAV_WFBLIM_SCMIN (n : Nat) : Fld := ⟨A.CHn_WAV_WFBLIM n, 0, 16⟩
def F.CHn_WAV_WFBLIM_SCMAX (n : Nat) : Fld := ⟨A.CHn_WAV_WFBLIM n, 16, 16⟩
/-- 04_drop_waveforms_and_duty.md, `CHn_WAV_WFBPK`. -/
def A.CHn_WAV_WFBPK (n : Nat) : Nat := 0x1020030 + n * 0x100000
def F.CHn_WAV_WFBPK_PEAK (n : Nat) : Fld := ⟨A.CHn_WAV_WFBPK n, 0, 16⟩
def F.CHn_WAV_WFBPK_UPD (n : Nat) : Fld := ⟨A.CHn_WAV_WFBPK n, 16, 16⟩
/-- 04_drop_waveforms_and_duty.md, `CHn_WAV_STAT`. -/
def A.CHn_WAV_STAT (n : Nat) : Nat := 0x1020034 + n * 0x100000
def F.CHn_WAV_STAT_OVERLAP (n : Nat) : Fld := ⟨A.CHn_WAV_STAT n, 0, 1⟩
def F.CHn_WAV_STAT_CLAMP (n : Nat) : Fld := ⟨A.CHn_WAV_STAT n, 1, 1⟩
def F.CHn_WAV_STAT_WFBSAT (n : Nat) : Fld := ⟨A.CHn_WAV_STAT n, 2, 1⟩
def F.CHn_WAV_STAT_ACTWR (n : Nat) : Fld := ⟨A.CHn_WAV_STAT n, 3, 1⟩
def F.CHn_WAV_STAT_MASKPEND (n : Nat) : Fld := ⟨A.CHn_WAV_STAT n, 4, 1⟩
def F.CHn_WAV_STAT_FLEN (n : Nat) : Fld := ⟨A.CHn_WAV_STAT n, 16, 14⟩
/-- 04_drop_waveforms_and_duty.md, `CHn_DUT_CTRL`. -/
def A.CHn_DUT_CTRL (n : Nat) : Nat := 0x1050000 + n * 0x100000
def F.CHn_DUT_CTRL_EN (n : Nat) : Fld := ⟨A.CHn_DUT_CTRL n, 0, 1⟩
def F.CHn_DUT_CTRL_NPOL (n : Nat) : Fld := ⟨A.CHn_DUT_CTRL n, 1, 1⟩
def F.CHn_DUT_CTRL_HPOL (n : Nat) : Fld := ⟨A.CHn_DUT_CTRL n, 2, 1⟩
/-- 04_drop_waveforms_and_duty.md, `CHn_DUT_WEIGHT`. -/
def A.CHn_DUT_WEIGHT (n : Nat) : Nat := 0x1050004 + n * 0x100000
def F.CHn_DUT_WEIGHT_CW1 (n : Nat) : Fld := ⟨A.CHn_DUT_WEIGHT n, 0, 4⟩
def F.CHn_DUT_WEIGHT_CW2 (n : Nat) : Fld := ⟨A.CHn_DUT_WEIGHT n, 4, 4⟩
def F.CHn_DUT_WEIGHT_CW3 (n : Nat) : Fld := ⟨A.CHn_DUT_WEIGHT n, 8, 4⟩
/-- 04_drop_waveforms_and_duty.md, `CHn_DUT_NWIN`. -/
def A.CHn_DUT_NWIN (n : Nat) : Nat := 0x1050008 + n * 0x100000
def F.CHn_DUT_NWIN_NWIN (n : Nat) : Fld := ⟨A.CHn_DUT_NWIN n, 0, 12⟩
/-- 04_drop_waveforms_and_duty.md, `CHn_DUT_NLIM`. -/
def A.CHn_DUT_NLIM (n : Nat) : Nat := 0x105000C + n * 0x100000
def F.CHn_DUT_NLIM_NLIM (n : Nat) : Fld := ⟨A.CHn_DUT_NLIM n, 0, 16⟩
/-- 04_drop_waveforms_and_duty.md, `CHn_DUT_HWIN`. -/
def A.CHn_DUT_HWIN (n : Nat) : Nat := 0x1050010 + n * 0x100000
def F.CHn_DUT_HWIN_HWIN (n : Nat) : Fld := ⟨A.CHn_DUT_HWIN n, 0, 16⟩
/-- 04_drop_waveforms_and_duty.md, `CHn_DUT_HLIM`. -/
def A.CHn_DUT_HLIM (n : Nat) : Nat := 0x1050014 + n * 0x100000
def F.CHn_DUT_HLIM_HLIM (n : Nat) : Fld := ⟨A.CHn_DUT_HLIM n, 0, 32⟩
/-- 04_drop_waveforms_and_duty.md, `CHn_DUT_HCOUNT`. -/
def A.CHn_DUT_HCOUNT (n : Nat) : Nat := 0x1050018 + n * 0x100000
def F.CHn_DUT_HCOUNT_HCNT (n : Nat) : Fld := ⟨A.CHn_DUT_HCOUNT n, 0, 32⟩
/-- 04_drop_waveforms_and_duty.md, `CHn_DUT_NACT`. -/
def A.CHn_DUT_NACT (n : Nat) : Nat := 0x105001C + n * 0x100000
def F.CHn_DUT_NACT_DEM (n : Nat) : Fld := ⟨A.CHn_DUT_NACT n, 0, 16⟩
def F.CHn_DUT_NACT_SUP (n : Nat) : Fld := ⟨A.CHn_DUT_NACT n, 16, 16⟩
/-- 04_drop_waveforms_and_duty.md, `CHn_DUT_HACT`. -/
def A.CHn_DUT_HACT (n : Nat) : Nat := 0x1050020 + n * 0x100000
def F.CHn_DUT_HACT_HDEM (n : Nat) : Fld := ⟨A.CHn_DUT_HACT n, 0, 16⟩
def F.CHn_DUT_HACT_HSUP (n : Nat) : Fld := ⟨A.CHn_DUT_HACT n, 16, 16⟩
/-- 04_drop_waveforms_and_duty.md, `CHn_DUT_STAT`. -/
def A.CHn_DUT_STAT (n : Nat) : Nat := 0x1050024 + n * 0x100000
def F.CHn_DUT_STAT_NACT (n : Nat) : Fld := ⟨A.CHn_DUT_STAT n, 0, 1⟩
def F.CHn_DUT_STAT_HACT (n : Nat) : Fld := ⟨A.CHn_DUT_STAT n, 1, 1⟩
def F.CHn_DUT_STAT_PERR (n : Nat) : Fld := ⟨A.CHn_DUT_STAT n, 2, 1⟩
/-- 05_position_feedback.md, `POS_STAT`. -/
def A.POS_STAT : Nat := 0x40000
def F.POS_STAT_FAULT : Fld := ⟨A.POS_STAT, 0, 4⟩
def F.POS_STAT_VALID : Fld := ⟨A.POS_STAT, 4, 4⟩
def F.POS_STAT_ACTSEC : Fld := ⟨A.POS_STAT, 8, 1⟩
def F.POS_STAT_PAIRLOST : Fld := ⟨A.POS_STAT, 9, 1⟩
/-- 05_position_feedback.md, `POS_XCFG`. -/
def A.POS_XCFG : Nat := 0x40008
def F.POS_XCFG_XTOL : Fld := ⟨A.POS_XCFG, 0, 3⟩
def F.POS_XCFG_XPERS : Fld := ⟨A.POS_XCFG, 8, 4⟩
/-- 05_position_feedback.md, `POS_XSTAT`. -/
def A.POS_XSTAT : Nat := 0x4000C
def F.POS_XSTAT_TRKFAIL : Fld := ⟨A.POS_XSTAT, 0, 16⟩
def F.POS_XSTAT_POSSUB : Fld := ⟨A.POS_XSTAT, 16, 4⟩
/-- 05_position_feedback.md, `POS_ENCe_CFG`. -/
def A.POS_ENCe_CFG (e : Nat) : Nat := 0x40100 + e * 0x40
def F.POS_ENCe_CFG_EN (e : Nat) : Fld := ⟨A.POS_ENCe_CFG e, 0, 1⟩
def F.POS_ENCe_CFG_MODE (e : Nat) : Fld := ⟨A.POS_ENCe_CFG e, 1, 3⟩
def F.POS_ENCe_CFG_DIRINV (e : Nat) : Fld := ⟨A.POS_ENCe_CFG e, 4, 1⟩
def F.POS_ENCe_CFG_IDXGATE (e : Nat) : Fld := ⟨A.POS_ENCe_CFG e, 5, 1⟩
def F.POS_ENCe_CFG_IDXAB (e : Nat) : Fld := ⟨A.POS_ENCe_CFG e, 6, 2⟩
def F.POS_ENCe_CFG_FILT (e : Nat) : Fld := ⟨A.POS_ENCe_CFG e, 8, 10⟩
/-- 05_position_feedback.md, `POS_ENCe_FLT`. -/
def A.POS_ENCe_FLT (e : Nat) : Nat := 0x40104 + e * 0x40
def F.POS_ENCe_FLT_FWIN (e : Nat) : Fld := ⟨A.POS_ENCe_FLT e, 0, 16⟩
def F.POS_ENCe_FLT_FLIM (e : Nat) : Fld := ⟨A.POS_ENCe_FLT e, 16, 8⟩
/-- 05_position_feedback.md, `POS_ENCe_CNT_LO`. -/
def A.POS_ENCe_CNT_LO (e : Nat) : Nat := 0x40108 + e * 0x40
def F.POS_ENCe_CNT_LO_CNT_L (e : Nat) : Fld := ⟨A.POS_ENCe_CNT_LO e, 0, 32⟩
/-- 05_position_feedback.md, `POS_ENCe_CNT_HI`. -/
def A.POS_ENCe_CNT_HI (e : Nat) : Nat := 0x4010C + e * 0x40
def F.POS_ENCe_CNT_HI_CNT_H (e : Nat) : Fld := ⟨A.POS_ENCe_CNT_HI e, 0, 16⟩
def F.POS_ENCe_CNT_HI_SIGN (e : Nat) : Fld := ⟨A.POS_ENCe_CNT_HI e, 16, 16⟩
/-- 05_position_feedback.md, `POS_ENCe_PRESET_LO`. -/
def A.POS_ENCe_PRESET_LO (e : Nat) : Nat := 0x40110 + e * 0x40
def F.POS_ENCe_PRESET_LO_VAL_L (e : Nat) : Fld := ⟨A.POS_ENCe_PRESET_LO e, 0, 32⟩
/-- 05_position_feedback.md, `POS_ENCe_PRESET_HI`. -/
def A.POS_ENCe_PRESET_HI (e : Nat) : Nat := 0x40114 + e * 0x40
def F.POS_ENCe_PRESET_HI_VAL_H (e : Nat) : Fld := ⟨A.POS_ENCe_PRESET_HI e, 0, 16⟩
def F.POS_ENCe_PRESET_HI_LOAD (e : Nat) : Fld := ⟨A.POS_ENCe_PRESET_HI e, 31, 1⟩
/-- 05_position_feedback.md, `POS_ENCe_IDXNOM`. -/
def A.POS_ENCe_IDXNOM (e : Nat) : Nat := 0x40118 + e * 0x40
def F.POS_ENCe_IDXNOM_NOM (e : Nat) : Fld := ⟨A.POS_ENCe_IDXNOM e, 0, 32⟩
/-- 05_position_feedback.md, `POS_ENCe_IDXCFG`. -/
def A.POS_ENCe_IDXCFG (e : Nat) : Nat := 0x4011C + e * 0x40
def F.POS_ENCe_IDXCFG_TOL (e : Nat) : Fld := ⟨A.POS_ENCe_IDXCFG e, 0, 16⟩
def F.POS_ENCe_IDXCFG_POLICY (e : Nat) : Fld := ⟨A.POS_ENCe_IDXCFG e, 16, 2⟩
/-- 05_position_feedback.md, `POS_ENCe_IDXCAP_LO`. -/
def A.POS_ENCe_IDXCAP_LO (e : Nat) : Nat := 0x40120 + e * 0x40
def F.POS_ENCe_IDXCAP_LO_CAP_L (e : Nat) : Fld := ⟨A.POS_ENCe_IDXCAP_LO e, 0, 32⟩
/-- 05_position_feedback.md, `POS_ENCe_IDXCAP_HI`. -/
def A.POS_ENCe_IDXCAP_HI (e : Nat) : Nat := 0x40124 + e * 0x40
def F.POS_ENCe_IDXCAP_HI_CAP_H (e : Nat) : Fld := ⟨A.POS_ENCe_IDXCAP_HI e, 0, 16⟩
def F.POS_ENCe_IDXCAP_HI_VALID (e : Nat) : Fld := ⟨A.POS_ENCe_IDXCAP_HI e, 31, 1⟩
/-- 05_position_feedback.md, `POS_ENCe_SPDCFG`. -/
def A.POS_ENCe_SPDCFG (e : Nat) : Nat := 0x40128 + e * 0x40
def F.POS_ENCe_SPDCFG_SWIN (e : Nat) : Fld := ⟨A.POS_ENCe_SPDCFG e, 0, 16⟩
/-- 05_position_feedback.md, `POS_ENCe_SPD`. -/
def A.POS_ENCe_SPD (e : Nat) : Nat := 0x4012C + e * 0x40
def F.POS_ENCe_SPD_EDGES (e : Nat) : Fld := ⟨A.POS_ENCe_SPD e, 0, 24⟩
def F.POS_ENCe_SPD_DIR (e : Nat) : Fld := ⟨A.POS_ENCe_SPD e, 24, 1⟩
/-- 05_position_feedback.md, `POS_ENCe_PERIOD`. -/
def A.POS_ENCe_PERIOD (e : Nat) : Nat := 0x40130 + e * 0x40
def F.POS_ENCe_PERIOD_PERIOD (e : Nat) : Fld := ⟨A.POS_ENCe_PERIOD e, 0, 32⟩
/-- 05_position_feedback.md, `POS_ENCe_STAT`. -/
def A.POS_ENCe_STAT (e : Nat) : Nat := 0x40134 + e * 0x40
def F.POS_ENCe_STAT_FAULT (e : Nat) : Fld := ⟨A.POS_ENCe_STAT e, 0, 1⟩
def F.POS_ENCe_STAT_ILL (e : Nat) : Fld := ⟨A.POS_ENCe_STAT e, 1, 1⟩
def F.POS_ENCe_STAT_FLTR (e : Nat) : Fld := ⟨A.POS_ENCe_STAT e, 2, 1⟩
def F.POS_ENCe_STAT_IDXMIS (e : Nat) : Fld := ⟨A.POS_ENCe_STAT e, 3, 1⟩
def F.POS_ENCe_STAT_XCHK (e : Nat) : Fld := ⟨A.POS_ENCe_STAT e, 4, 1⟩
def F.POS_ENCe_STAT_FCOUNT (e : Nat) : Fld := ⟨A.POS_ENCe_STAT e, 8, 8⟩
/-- 05_position_feedback.md, `POS_ENCe_FCNT`. -/
def A.POS_ENCe_FCNT (e : Nat) : Nat := 0x40138 + e * 0x40
def F.POS_ENCe_FCNT_ILLCNT (e : Nat) : Fld := ⟨A.POS_ENCe_FCNT e, 0, 16⟩
def F.POS_ENCe_FCNT_FLTCNT (e : Nat) : Fld := ⟨A.POS_ENCe_FCNT e, 16, 16⟩
/-- 05_position_feedback.md, `POS_PAIR_CTRL`. -/
def A.POS_PAIR_CTRL : Nat := 0x40200
def F.POS_PAIR_CTRL_EN : Fld := ⟨A.POS_PAIR_CTRL, 0, 1⟩
def F.POS_PAIR_CTRL_PRI : Fld := ⟨A.POS_PAIR_CTRL, 1, 1⟩
def F.POS_PAIR_CTRL_RESYNC : Fld := ⟨A.POS_PAIR_CTRL, 2, 1⟩
/-- 05_position_feedback.md, `POS_PAIR_K`. -/
def A.POS_PAIR_K : Nat := 0x40204
def F.POS_PAIR_K_K : Fld := ⟨A.POS_PAIR_K, 0, 32⟩
/-- 05_position_feedback.md, `POS_PAIR_OFS_LO`. -/
def A.POS_PAIR_OFS_LO : Nat := 0x40208
def F.POS_PAIR_OFS_LO_FRAC : Fld := ⟨A.POS_PAIR_OFS_LO, 0, 16⟩
def F.POS_PAIR_OFS_LO_INT_L : Fld := ⟨A.POS_PAIR_OFS_LO, 16, 16⟩
/-- 05_position_feedback.md, `POS_PAIR_OFS_HI`. -/
def A.POS_PAIR_OFS_HI : Nat := 0x4020C
def F.POS_PAIR_OFS_HI_INT_H : Fld := ⟨A.POS_PAIR_OFS_HI, 0, 32⟩
/-- 05_position_feedback.md, `POS_PAIR_DIV`. -/
def A.POS_PAIR_DIV : Nat := 0x40210
def F.POS_PAIR_DIV_DIVLIM : Fld := ⟨A.POS_PAIR_DIV, 0, 16⟩
/-- 05_position_feedback.md, `POS_PAIR_STAT`. -/
def A.POS_PAIR_STAT : Nat := 0x40214
def F.POS_PAIR_STAT_SRC : Fld := ⟨A.POS_PAIR_STAT, 0, 2⟩
def F.POS_PAIR_STAT_DIV : Fld := ⟨A.POS_PAIR_STAT, 2, 1⟩
def F.POS_PAIR_STAT_SWITCHED : Fld := ⟨A.POS_PAIR_STAT, 3, 1⟩
/-- 05_position_feedback.md, `POS_FRETHIT_LO`. -/
def A.POS_FRETHIT_LO : Nat := 0x40300
def F.POS_FRETHIT_LO_HIT_L : Fld := ⟨A.POS_FRETHIT_LO, 0, 32⟩
/-- 05_position_feedback.md, `POS_FRETHIT_HI`. -/
def A.POS_FRETHIT_HI : Nat := 0x40304
def F.POS_FRETHIT_HI_HIT_H : Fld := ⟨A.POS_FRETHIT_HI, 0, 32⟩
/-- 05_position_feedback.md, `POS_FRETf_CMP_LO`. -/
def A.POS_FRETf_CMP_LO (f : Nat) : Nat := 0x41000 + f * 0x10
def F.POS_FRETf_CMP_LO_CMP_L (f : Nat) : Fld := ⟨A.POS_FRETf_CMP_LO f, 0, 32⟩
/-- 05_position_feedback.md, `POS_FRETf_CMP_HI`. -/
def A.POS_FRETf_CMP_HI (f : Nat) : Nat := 0x41004 + f * 0x10
def F.POS_FRETf_CMP_HI_CMP_H (f : Nat) : Fld := ⟨A.POS_FRETf_CMP_HI f, 0, 16⟩
/-- 05_position_feedback.md, `POS_FRETf_STEP`. -/
def A.POS_FRETf_STEP (f : Nat) : Nat := 0x41008 + f * 0x10
def F.POS_FRETf_STEP_STEP (f : Nat) : Fld := ⟨A.POS_FRETf_STEP f, 0, 32⟩
/-- 05_position_feedback.md, `POS_FRETf_CTRL`. -/
def A.POS_FRETf_CTRL (f : Nat) : Nat := 0x4100C + f * 0x10
def F.POS_FRETf_CTRL_SRC (f : Nat) : Fld := ⟨A.POS_FRETf_CTRL f, 0, 3⟩
def F.POS_FRETf_CTRL_DIR (f : Nat) : Fld := ⟨A.POS_FRETf_CTRL f, 3, 2⟩
def F.POS_FRETf_CTRL_RELOAD (f : Nat) : Fld := ⟨A.POS_FRETf_CTRL f, 5, 1⟩
def F.POS_FRETf_CTRL_EVT (f : Nat) : Fld := ⟨A.POS_FRETf_CTRL f, 6, 1⟩
def F.POS_FRETf_CTRL_CAPO (f : Nat) : Fld := ⟨A.POS_FRETf_CTRL f, 7, 1⟩
def F.POS_FRETf_CTRL_PAGE (f : Nat) : Fld := ⟨A.POS_FRETf_CTRL f, 8, 1⟩
def F.POS_FRETf_CTRL_ARM (f : Nat) : Fld := ⟨A.POS_FRETf_CTRL f, 16, 1⟩
def F.POS_FRETf_CTRL_DISARM (f : Nat) : Fld := ⟨A.POS_FRETf_CTRL f, 17, 1⟩
/-- 05_position_feedback.md, `POS_EMUm_CFG`. -/
def A.POS_EMUm_CFG (m : Nat) : Nat := 0x40400 + m * 0x20
def F.POS_EMUm_CFG_EN (m : Nat) : Fld := ⟨A.POS_EMUm_CFG m, 0, 1⟩
def F.POS_EMUm_CFG_SRC (m : Nat) : Fld := ⟨A.POS_EMUm_CFG m, 1, 3⟩
def F.POS_EMUm_CFG_DIRINV (m : Nat) : Fld := ⟨A.POS_EMUm_CFG m, 4, 1⟩
def F.POS_EMUm_CFG_ZMODE (m : Nat) : Fld := ⟨A.POS_EMUm_CFG m, 5, 1⟩
def F.POS_EMUm_CFG_MINSP (m : Nat) : Fld := ⟨A.POS_EMUm_CFG m, 8, 8⟩
/-- 05_position_feedback.md, `POS_EMUm_RATIO`. -/
def A.POS_EMUm_RATIO (m : Nat) : Nat := 0x40404 + m * 0x20
def F.POS_EMUm_RATIO_RATIO (m : Nat) : Fld := ⟨A.POS_EMUm_RATIO m, 0, 32⟩
/-- 05_position_feedback.md, `POS_EMUm_ZDIV`. -/
def A.POS_EMUm_ZDIV (m : Nat) : Nat := 0x40408 + m * 0x20
def F.POS_EMUm_ZDIV_ZDIV (m : Nat) : Fld := ⟨A.POS_EMUm_ZDIV m, 0, 32⟩
/-- 05_position_feedback.md, `POS_EMUm_STAT`. -/
def A.POS_EMUm_STAT (m : Nat) : Nat := 0x4040C + m * 0x20
def F.POS_EMUm_STAT_BACKLOG (m : Nat) : Fld := ⟨A.POS_EMUm_STAT m, 0, 16⟩
def F.POS_EMUm_STAT_LAG (m : Nat) : Fld := ⟨A.POS_EMUm_STAT m, 16, 1⟩
def F.POS_EMUm_STAT_OVF (m : Nat) : Fld := ⟨A.POS_EMUm_STAT m, 17, 1⟩
def F.POS_EMUm_STAT_HOLD (m : Nat) : Fld := ⟨A.POS_EMUm_STAT m, 18, 1⟩
/-- 06_fire_timing.md, `CHn_FT_CTRL`. -/
def A.CHn_FT_CTRL (n : Nat) : Nat := 0x1030000 + n * 0x100000
def F.CHn_FT_CTRL_FIRE_EN (n : Nat) : Fld := ⟨A.CHn_FT_CTRL n, 0, 1⟩
def F.CHn_FT_CTRL_SRC (n : Nat) : Fld := ⟨A.CHn_FT_CTRL n, 1, 3⟩
def F.CHn_FT_CTRL_INTMODE (n : Nat) : Fld := ⟨A.CHn_FT_CTRL n, 4, 1⟩
def F.CHn_FT_CTRL_REARM (n : Nat) : Fld := ⟨A.CHn_FT_CTRL n, 5, 1⟩
def F.CHn_FT_CTRL_BKL (n : Nat) : Fld := ⟨A.CHn_FT_CTRL n, 8, 8⟩
/-- 06_fire_timing.md, `CHn_FT_PITCH_LO`. -/
def A.CHn_FT_PITCH_LO (n : Nat) : Nat := 0x1030004 + n * 0x100000
def F.CHn_FT_PITCH_LO_FRAC (n : Nat) : Fld := ⟨A.CHn_FT_PITCH_LO n, 0, 32⟩
/-- 06_fire_timing.md, `CHn_FT_PITCH_HI`. -/
def A.CHn_FT_PITCH_HI (n : Nat) : Nat := 0x1030008 + n * 0x100000
def F.CHn_FT_PITCH_HI_INT (n : Nat) : Fld := ⟨A.CHn_FT_PITCH_HI n, 0, 32⟩
/-- 06_fire_timing.md, `CHn_FT_TOPOFS_LO`. -/
def A.CHn_FT_TOPOFS_LO (n : Nat) : Nat := 0x103000C + n * 0x100000
def F.CHn_FT_TOPOFS_LO_FRAC (n : Nat) : Fld := ⟨A.CHn_FT_TOPOFS_LO n, 0, 32⟩
/-- 06_fire_timing.md, `CHn_FT_TOPOFS_HI`. -/
def A.CHn_FT_TOPOFS_HI (n : Nat) : Nat := 0x1030010 + n * 0x100000
def F.CHn_FT_TOPOFS_HI_INT (n : Nat) : Fld := ⟨A.CHn_FT_TOPOFS_HI n, 0, 32⟩
/-- 06_fire_timing.md, `CHn_FT_PAGE`. -/
def A.CHn_FT_PAGE (n : Nat) : Nat := 0x1030014 + n * 0x100000
def F.CHn_FT_PAGE_FRET (n : Nat) : Fld := ⟨A.CHn_FT_PAGE n, 0, 6⟩
/-- 06_fire_timing.md, `CHn_FT_SOS`. -/
def A.CHn_FT_SOS (n : Nat) : Nat := 0x1030018 + n * 0x100000
def F.CHn_FT_SOS_SOSF (n : Nat) : Fld := ⟨A.CHn_FT_SOS n, 0, 3⟩
def F.CHn_FT_SOS_FEN (n : Nat) : Fld := ⟨A.CHn_FT_SOS n, 3, 1⟩
def F.CHn_FT_SOS_SOSB (n : Nat) : Fld := ⟨A.CHn_FT_SOS n, 4, 3⟩
def F.CHn_FT_SOS_BEN (n : Nat) : Fld := ⟨A.CHn_FT_SOS n, 7, 1⟩
def F.CHn_FT_SOS_SOSMIN (n : Nat) : Fld := ⟨A.CHn_FT_SOS n, 8, 8⟩
/-- 06_fire_timing.md, `CHn_FT_SOSOFSF_LO`. -/
def A.CHn_FT_SOSOFSF_LO (n : Nat) : Nat := 0x103001C + n * 0x100000
def F.CHn_FT_SOSOFSF_LO_FRAC (n : Nat) : Fld := ⟨A.CHn_FT_SOSOFSF_LO n, 0, 32⟩
/-- 06_fire_timing.md, `CHn_FT_SOSOFSF_HI`. -/
def A.CHn_FT_SOSOFSF_HI (n : Nat) : Nat := 0x1030020 + n * 0x100000
def F.CHn_FT_SOSOFSF_HI_INT (n : Nat) : Fld := ⟨A.CHn_FT_SOSOFSF_HI n, 0, 32⟩
/-- 06_fire_timing.md, `CHn_FT_SOSOFSB_LO`. -/
def A.CHn_FT_SOSOFSB_LO (n : Nat) : Nat := 0x1030024 + n * 0x100000
def F.CHn_FT_SOSOFSB_LO_FRAC (n : Nat) : Fld := ⟨A.CHn_FT_SOSOFSB_LO n, 0, 32⟩
/-- 06_fire_timing.md, `CHn_FT_SOSOFSB_HI`. -/
def A.CHn_FT_SOSOFSB_HI (n : Nat) : Nat := 0x1030028 + n * 0x100000
def F.CHn_FT_SOSOFSB_HI_INT (n : Nat) : Fld := ⟨A.CHn_FT_SOSOFSB_HI n, 0, 32⟩
/-- 06_fire_timing.md, `CHn_FT_FDLY`. -/
def A.CHn_FT_FDLY (n : Nat) : Nat := 0x103002C + n * 0x100000
def F.CHn_FT_FDLY_FDLYF (n : Nat) : Fld := ⟨A.CHn_FT_FDLY n, 0, 12⟩
def F.CHn_FT_FDLY_FDLYB (n : Nat) : Fld := ⟨A.CHn_FT_FDLY n, 16, 12⟩
/-- 06_fire_timing.md, `CHn_FT_RESOFS_LO`. -/
def A.CHn_FT_RESOFS_LO (n : Nat) : Nat := 0x1030030 + n * 0x100000
def F.CHn_FT_RESOFS_LO_FRAC (n : Nat) : Fld := ⟨A.CHn_FT_RESOFS_LO n, 0, 32⟩
/-- 06_fire_timing.md, `CHn_FT_RESOFS_HI`. -/
def A.CHn_FT_RESOFS_HI (n : Nat) : Nat := 0x1030034 + n * 0x100000
def F.CHn_FT_RESOFS_HI_INT (n : Nat) : Fld := ⟨A.CHn_FT_RESOFS_HI n, 0, 32⟩
/-- 06_fire_timing.md, `CHn_FT_ROWDLYr`. -/
def A.CHn_FT_ROWDLYr (n : Nat) (r : Nat) : Nat := 0x1030040 + n * 0x100000 + r * 0x4
def F.CHn_FT_ROWDLYr_DLYF (n : Nat) (r : Nat) : Fld := ⟨A.CHn_FT_ROWDLYr n r, 0, 12⟩
def F.CHn_FT_ROWDLYr_DLYB (n : Nat) (r : Nat) : Fld := ⟨A.CHn_FT_ROWDLYr n r, 16, 12⟩
/-- 06_fire_timing.md, `CHn_FT_STAT`. -/
def A.CHn_FT_STAT (n : Nat) : Nat := 0x1030060 + n * 0x100000
def F.CHn_FT_STAT_STATE (n : Nat) : Fld := ⟨A.CHn_FT_STAT n, 0, 2⟩
def F.CHn_FT_STAT_DIR (n : Nat) : Fld := ⟨A.CHn_FT_STAT n, 2, 1⟩
def F.CHn_FT_STAT_IARM (n : Nat) : Fld := ⟨A.CHn_FT_STAT n, 3, 1⟩
def F.CHn_FT_STAT_LATCH (n : Nat) : Fld := ⟨A.CHn_FT_STAT n, 4, 1⟩
def F.CHn_FT_STAT_REVERSE (n : Nat) : Fld := ⟨A.CHn_FT_STAT n, 8, 1⟩
def F.CHn_FT_STAT_MISS (n : Nat) : Fld := ⟨A.CHn_FT_STAT n, 9, 1⟩
/-- 06_fire_timing.md, `CHn_FT_NEXT_LO`. -/
def A.CHn_FT_NEXT_LO (n : Nat) : Nat := 0x1030064 + n * 0x100000
def F.CHn_FT_NEXT_LO_FRAC (n : Nat) : Fld := ⟨A.CHn_FT_NEXT_LO n, 0, 16⟩
def F.CHn_FT_NEXT_LO_INT_L (n : Nat) : Fld := ⟨A.CHn_FT_NEXT_LO n, 16, 16⟩
/-- 06_fire_timing.md, `CHn_FT_NEXT_HI`. -/
def A.CHn_FT_NEXT_HI (n : Nat) : Nat := 0x1030068 + n * 0x100000
def F.CHn_FT_NEXT_HI_INT_H (n : Nat) : Fld := ⟨A.CHn_FT_NEXT_HI n, 0, 32⟩
/-- 06_fire_timing.md, `CHn_FT_HWM_LO`. -/
def A.CHn_FT_HWM_LO (n : Nat) : Nat := 0x103006C + n * 0x100000
def F.CHn_FT_HWM_LO_H_L (n : Nat) : Fld := ⟨A.CHn_FT_HWM_LO n, 0, 32⟩
/-- 06_fire_timing.md, `CHn_FT_HWM_HI`. -/
def A.CHn_FT_HWM_HI (n : Nat) : Nat := 0x1030070 + n * 0x100000
def F.CHn_FT_HWM_HI_H_H (n : Nat) : Fld := ⟨A.CHn_FT_HWM_HI n, 0, 16⟩
def F.CHn_FT_HWM_HI_SIGN (n : Nat) : Fld := ⟨A.CHn_FT_HWM_HI n, 16, 16⟩
/-- 06_fire_timing.md, `CHn_FT_PERIOD`. -/
def A.CHn_FT_PERIOD (n : Nat) : Nat := 0x1030074 + n * 0x100000
def F.CHn_FT_PERIOD_T1 (n : Nat) : Fld := ⟨A.CHn_FT_PERIOD n, 0, 24⟩
/-- 06_fire_timing.md, `CHn_FT_CNT`. -/
def A.CHn_FT_CNT (n : Nat) : Nat := 0x1030078 + n * 0x100000
def F.CHn_FT_CNT_MISSCNT (n : Nat) : Fld := ⟨A.CHn_FT_CNT n, 0, 16⟩
def F.CHn_FT_CNT_REVCNT (n : Nat) : Fld := ⟨A.CHn_FT_CNT n, 16, 16⟩
/-- 06_fire_timing.md, `CHn_FT_LINES`. -/
def A.CHn_FT_LINES (n : Nat) : Nat := 0x103007C + n * 0x100000
def F.CHn_FT_LINES_LINES (n : Nat) : Fld := ⟨A.CHn_FT_LINES n, 0, 32⟩
/-- 07_bridge_link_and_heads.md, `CHn_BRG_CTRL`. -/
def A.CHn_BRG_CTRL (n : Nat) : Nat := 0x1040000 + n * 0x100000
def F.CHn_BRG_CTRL_LINK_EN (n : Nat) : Fld := ⟨A.CHn_BRG_CTRL n, 0, 1⟩
def F.CHn_BRG_CTRL_AUTORT (n : Nat) : Fld := ⟨A.CHn_BRG_CTRL n, 1, 1⟩
def F.CHn_BRG_CTRL_RETXMAX (n : Nat) : Fld := ⟨A.CHn_BRG_CTRL n, 4, 3⟩
/-- 07_bridge_link_and_heads.md, `CHn_BRG_HPWR`. -/
def A.CHn_BRG_HPWR (n : Nat) : Nat := 0x1040004 + n * 0x100000
def F.CHn_BRG_HPWR_EN (n : Nat) : Fld := ⟨A.CHn_BRG_HPWR n, 0, 1⟩
/-- 07_bridge_link_and_heads.md, `CHn_BRG_HEXP`. -/
def A.CHn_BRG_HEXP (n : Nat) : Nat := 0x1040008 + n * 0x100000
def F.CHn_BRG_HEXP_TYPE (n : Nat) : Fld := ⟨A.CHn_BRG_HEXP n, 0, 16⟩
def F.CHn_BRG_HEXP_TYPECHK (n : Nat) : Fld := ⟨A.CHn_BRG_HEXP n, 16, 1⟩
/-- 07_bridge_link_and_heads.md, `CHn_BRG_STAT`. -/
def A.CHn_BRG_STAT (n : Nat) : Nat := 0x104000C + n * 0x100000
def F.CHn_BRG_STAT_LSTATE (n : Nat) : Fld := ⟨A.CHn_BRG_STAT n, 0, 3⟩
def F.CHn_BRG_STAT_PRES (n : Nat) : Fld := ⟨A.CHn_BRG_STAT n, 3, 1⟩
def F.CHn_BRG_STAT_HPEN (n : Nat) : Fld := ⟨A.CHn_BRG_STAT n, 4, 1⟩
def F.CHn_BRG_STAT_HVOK (n : Nat) : Fld := ⟨A.CHn_BRG_STAT n, 5, 1⟩
def F.CHn_BRG_STAT_DCAUSE (n : Nat) : Fld := ⟨A.CHn_BRG_STAT n, 8, 3⟩
def F.CHn_BRG_STAT_FLAGS (n : Nat) : Fld := ⟨A.CHn_BRG_STAT n, 16, 8⟩
def F.CHn_BRG_STAT_LATE (n : Nat) : Fld := ⟨A.CHn_BRG_STAT n, 24, 1⟩
def F.CHn_BRG_STAT_PARTH (n : Nat) : Fld := ⟨A.CHn_BRG_STAT n, 25, 1⟩
/-- 07_bridge_link_and_heads.md, `CHn_BRG_IDSTAT`. -/
def A.CHn_BRG_IDSTAT (n : Nat) : Nat := 0x1040010 + n * 0x100000
def F.CHn_BRG_IDSTAT_IDVALID (n : Nat) : Fld := ⟨A.CHn_BRG_IDSTAT n, 0, 1⟩
def F.CHn_BRG_IDSTAT_MAGICERR (n : Nat) : Fld := ⟨A.CHn_BRG_IDSTAT n, 1, 1⟩
def F.CHn_BRG_IDSTAT_CRCERR (n : Nat) : Fld := ⟨A.CHn_BRG_IDSTAT n, 2, 1⟩
def F.CHn_BRG_IDSTAT_I2CERR (n : Nat) : Fld := ⟨A.CHn_BRG_IDSTAT n, 3, 1⟩
def F.CHn_BRG_IDSTAT_NNOZMIS (n : Nat) : Fld := ⟨A.CHn_BRG_IDSTAT n, 4, 1⟩
def F.CHn_BRG_IDSTAT_TYPEMIS (n : Nat) : Fld := ⟨A.CHn_BRG_IDSTAT n, 5, 1⟩
def F.CHn_BRG_IDSTAT_TRIMVALID (n : Nat) : Fld := ⟨A.CHn_BRG_IDSTAT n, 6, 1⟩
/-- 07_bridge_link_and_heads.md, `CHn_BRG_CNT1`. -/
def A.CHn_BRG_CNT1 (n : Nat) : Nat := 0x1040014 + n * 0x100000
def F.CHn_BRG_CNT1_RETX (n : Nat) : Fld := ⟨A.CHn_BRG_CNT1 n, 0, 16⟩
def F.CHn_BRG_CNT1_NAK (n : Nat) : Fld := ⟨A.CHn_BRG_CNT1 n, 16, 16⟩
/-- 07_bridge_link_and_heads.md, `CHn_BRG_CNT2`. -/
def A.CHn_BRG_CNT2 (n : Nat) : Nat := 0x1040018 + n * 0x100000
def F.CHn_BRG_CNT2_TMO (n : Nat) : Fld := ⟨A.CHn_BRG_CNT2 n, 0, 16⟩
def F.CHn_BRG_CNT2_LATECNT (n : Nat) : Fld := ⟨A.CHn_BRG_CNT2 n, 16, 8⟩
def F.CHn_BRG_CNT2_DOWNCNT (n : Nat) : Fld := ⟨A.CHn_BRG_CNT2 n, 24, 8⟩
/-- 07_bridge_link_and_heads.md, `CHn_BRG_STATREQ`. -/
def A.CHn_BRG_STATREQ (n : Nat) : Nat := 0x1040020 + n * 0x100000
def F.CHn_BRG_STATREQ_PAGE (n : Nat) : Fld := ⟨A.CHn_BRG_STATREQ n, 0, 4⟩
def F.CHn_BRG_STATREQ_DONE (n : Nat) : Fld := ⟨A.CHn_BRG_STATREQ n, 29, 1⟩
def F.CHn_BRG_STATREQ_BUSY (n : Nat) : Fld := ⟨A.CHn_BRG_STATREQ n, 30, 1⟩
def F.CHn_BRG_STATREQ_GO (n : Nat) : Fld := ⟨A.CHn_BRG_STATREQ n, 31, 1⟩
/-- 07_bridge_link_and_heads.md, `CHn_BRG_STATPGw`. -/
def A.CHn_BRG_STATPGw (n : Nat) (w : Nat) : Nat := 0x1040024 + n * 0x100000 + w * 0x4
def F.CHn_BRG_STATPGw_DATA (n : Nat) (w : Nat) : Fld := ⟨A.CHn_BRG_STATPGw n w, 0, 32⟩
/-- 07_bridge_link_and_heads.md, `CHn_BRG_HCFG_ADDR`. -/
def A.CHn_BRG_HCFG_ADDR (n : Nat) : Nat := 0x1040040 + n * 0x100000
def F.CHn_BRG_HCFG_ADDR_ADDR (n : Nat) : Fld := ⟨A.CHn_BRG_HCFG_ADDR n, 2, 14⟩
/-- 07_bridge_link_and_heads.md, `CHn_BRG_HCFG_DATA`. -/
def A.CHn_BRG_HCFG_DATA (n : Nat) : Nat := 0x1040044 + n * 0x100000
def F.CHn_BRG_HCFG_DATA_DATA (n : Nat) : Fld := ⟨A.CHn_BRG_HCFG_DATA n, 0, 32⟩
/-- 07_bridge_link_and_heads.md, `CHn_BRG_HCFG_STAT`. -/
def A.CHn_BRG_HCFG_STAT (n : Nat) : Nat := 0x1040048 + n * 0x100000
def F.CHn_BRG_HCFG_STAT_BUSY (n : Nat) : Fld := ⟨A.CHn_BRG_HCFG_STAT n, 0, 1⟩
def F.CHn_BRG_HCFG_STAT_RES (n : Nat) : Fld := ⟨A.CHn_BRG_HCFG_STAT n, 1, 2⟩
/-- 08_capo_transactions.md, `CAPO_ALLOC`. -/
def A.CAPO_ALLOC : Nat := 0x50000
def F.CAPO_ALLOC_TX : Fld := ⟨A.CAPO_ALLOC, 0, 4⟩
def F.CAPO_ALLOC_VALID : Fld := ⟨A.CAPO_ALLOC, 31, 1⟩
/-- 08_capo_transactions.md, `CAPO_BIND`. -/
def A.CAPO_BIND : Nat := 0x50004
def F.CAPO_BIND_TX : Fld := ⟨A.CAPO_BIND, 0, 4⟩
def F.CAPO_BIND_BOUND : Fld := ⟨A.CAPO_BIND, 4, 1⟩
/-- 08_capo_transactions.md, `CAPO_STAT`. -/
def A.CAPO_STAT : Nat := 0x50008
def F.CAPO_STAT_BUSY : Fld := ⟨A.CAPO_STAT, 0, 16⟩
def F.CAPO_STAT_ENTUSED : Fld := ⟨A.CAPO_STAT, 16, 13⟩
/-- 08_capo_transactions.md, `CAPO_FLAGS`. -/
def A.CAPO_FLAGS : Nat := 0x5000C
def F.CAPO_FLAGS_DROP : Fld := ⟨A.CAPO_FLAGS, 0, 1⟩
def F.CAPO_FLAGS_PROTWR : Fld := ⟨A.CAPO_FLAGS, 1, 1⟩
def F.CAPO_FLAGS_IMPLAB : Fld := ⟨A.CAPO_FLAGS, 2, 1⟩
/-- 08_capo_transactions.md, `CAPO_TXt_CTRL`. -/
def A.CAPO_TXt_CTRL (t : Nat) : Nat := 0x50100 + t * 0x40
def F.CAPO_TXt_CTRL_CLASS (t : Nat) : Fld := ⟨A.CAPO_TXt_CTRL t, 0, 1⟩
def F.CAPO_TXt_CTRL_COND (t : Nat) : Fld := ⟨A.CAPO_TXt_CTRL t, 1, 3⟩
def F.CAPO_TXt_CTRL_IRQ (t : Nat) : Fld := ⟨A.CAPO_TXt_CTRL t, 4, 1⟩
def F.CAPO_TXt_CTRL_ARG (t : Nat) : Fld := ⟨A.CAPO_TXt_CTRL t, 8, 6⟩
/-- 08_capo_transactions.md, `CAPO_TXt_TMO`. -/
def A.CAPO_TXt_TMO (t : Nat) : Nat := 0x50104 + t * 0x40
def F.CAPO_TXt_TMO_VOTETMO (t : Nat) : Fld := ⟨A.CAPO_TXt_TMO t, 0, 16⟩
def F.CAPO_TXt_TMO_CMTTMO (t : Nat) : Fld := ⟨A.CAPO_TXt_TMO t, 16, 16⟩
/-- 08_capo_transactions.md, `CAPO_TXt_CMD`. -/
def A.CAPO_TXt_CMD (t : Nat) : Nat := 0x50108 + t * 0x40
def F.CAPO_TXt_CMD_CODE (t : Nat) : Fld := ⟨A.CAPO_TXt_CMD t, 0, 2⟩
/-- 08_capo_transactions.md, `CAPO_TXt_STAT`. -/
def A.CAPO_TXt_STAT (t : Nat) : Nat := 0x5010C + t * 0x40
def F.CAPO_TXt_STAT_STATE (t : Nat) : Fld := ⟨A.CAPO_TXt_STAT t, 0, 3⟩
def F.CAPO_TXt_STAT_CAUSE (t : Nat) : Fld := ⟨A.CAPO_TXt_STAT t, 3, 4⟩
def F.CAPO_TXt_STAT_LOST (t : Nat) : Fld := ⟨A.CAPO_TXt_STAT t, 7, 1⟩
def F.CAPO_TXt_STAT_OWNER (t : Nat) : Fld := ⟨A.CAPO_TXt_STAT t, 8, 2⟩
def F.CAPO_TXt_STAT_FULL (t : Nat) : Fld := ⟨A.CAPO_TXt_STAT t, 10, 1⟩
def F.CAPO_TXt_STAT_CONFLICT (t : Nat) : Fld := ⟨A.CAPO_TXt_STAT t, 11, 1⟩
def F.CAPO_TXt_STAT_CMDREF (t : Nat) : Fld := ⟨A.CAPO_TXt_STAT t, 12, 1⟩
def F.CAPO_TXt_STAT_IMPL (t : Nat) : Fld := ⟨A.CAPO_TXt_STAT t, 13, 1⟩
def F.CAPO_TXt_STAT_NENT (t : Nat) : Fld := ⟨A.CAPO_TXt_STAT t, 16, 13⟩
/-- 08_capo_transactions.md, `CAPO_TXt_PART_CH`. -/
def A.CAPO_TXt_PART_CH (t : Nat) : Nat := 0x50110 + t * 0x40
def F.CAPO_TXt_PART_CH_CH (t : Nat) : Fld := ⟨A.CAPO_TXt_PART_CH t, 0, 16⟩
/-- 08_capo_transactions.md, `CAPO_TXt_PART_SYS`. -/
def A.CAPO_TXt_PART_SYS (t : Nat) : Nat := 0x50114 + t * 0x40
def F.CAPO_TXt_PART_SYS_SYS (t : Nat) : Fld := ⟨A.CAPO_TXt_PART_SYS t, 0, 16⟩
/-- 08_capo_transactions.md, `CAPO_TXt_NOVOTE`. -/
def A.CAPO_TXt_NOVOTE (t : Nat) : Nat := 0x50118 + t * 0x40
def F.CAPO_TXt_NOVOTE_PART (t : Nat) : Fld := ⟨A.CAPO_TXt_NOVOTE t, 0, 8⟩
def F.CAPO_TXt_NOVOTE_REASON (t : Nat) : Fld := ⟨A.CAPO_TXt_NOVOTE t, 8, 3⟩
/-- 08_capo_transactions.md, `CAPO_TXt_TIME_LO`. -/
def A.CAPO_TXt_TIME_LO (t : Nat) : Nat := 0x5011C + t * 0x40
def F.CAPO_TXt_TIME_LO_TIME_L (t : Nat) : Fld := ⟨A.CAPO_TXt_TIME_LO t, 0, 32⟩
/-- 08_capo_transactions.md, `CAPO_TXt_TIME_HI`. -/
def A.CAPO_TXt_TIME_HI (t : Nat) : Nat := 0x50120 + t * 0x40
def F.CAPO_TXt_TIME_HI_TIME_H (t : Nat) : Fld := ⟨A.CAPO_TXt_TIME_HI t, 0, 32⟩
/-- 08_capo_transactions.md, `CAPO_TXt_DIGEST_LO`. -/
def A.CAPO_TXt_DIGEST_LO (t : Nat) : Nat := 0x50124 + t * 0x40
def F.CAPO_TXt_DIGEST_LO_DIG_L (t : Nat) : Fld := ⟨A.CAPO_TXt_DIGEST_LO t, 0, 32⟩
/-- 08_capo_transactions.md, `CAPO_TXt_DIGEST_HI`. -/
def A.CAPO_TXt_DIGEST_HI (t : Nat) : Nat := 0x50128 + t * 0x40
def F.CAPO_TXt_DIGEST_HI_DIG_H (t : Nat) : Fld := ⟨A.CAPO_TXt_DIGEST_HI t, 0, 32⟩
/-- 09_inspection_pipeline.md, `INS_CTRL`. -/
def A.INS_CTRL : Nat := 0x80000
def F.INS_CTRL_PRIO : Fld := ⟨A.INS_CTRL, 0, 1⟩
/-- 09_inspection_pipeline.md, `INS_STAT`. -/
def A.INS_STAT : Nat := 0x80004
def F.INS_STAT_INFRAME : Fld := ⟨A.INS_STAT, 0, 2⟩
def F.INS_STAT_ACTWR : Fld := ⟨A.INS_STAT, 4, 1⟩
/-- 09_inspection_pipeline.md, `INS_TBLADDR`. -/
def A.INS_TBLADDR : Nat := 0x80010
def F.INS_TBLADDR_INDEX : Fld := ⟨A.INS_TBLADDR, 0, 16⟩
def F.INS_TBLADDR_TABLE : Fld := ⟨A.INS_TBLADDR, 16, 2⟩
def F.INS_TBLADDR_PORT : Fld := ⟨A.INS_TBLADDR, 18, 1⟩
def F.INS_TBLADDR_BANK : Fld := ⟨A.INS_TBLADDR, 19, 1⟩
/-- 09_inspection_pipeline.md, `INS_TBLDATA`. -/
def A.INS_TBLDATA : Nat := 0x80014
def F.INS_TBLDATA_DATA : Fld := ⟨A.INS_TBLDATA, 0, 16⟩
/-- 09_inspection_pipeline.md, `INS_RESBASE_LO`. -/
def A.INS_RESBASE_LO : Nat := 0x80020
def F.INS_RESBASE_LO_EN : Fld := ⟨A.INS_RESBASE_LO, 0, 1⟩
def F.INS_RESBASE_LO_BASE_L : Fld := ⟨A.INS_RESBASE_LO, 12, 20⟩
/-- 09_inspection_pipeline.md, `INS_RESBASE_HI`. -/
def A.INS_RESBASE_HI : Nat := 0x80024
def F.INS_RESBASE_HI_BASE_H : Fld := ⟨A.INS_RESBASE_HI, 0, 32⟩
/-- 09_inspection_pipeline.md, `INS_HEAL`. -/
def A.INS_HEAL : Nat := 0x80028
def F.INS_HEAL_APPLIED : Fld := ⟨A.INS_HEAL, 0, 16⟩
def F.INS_HEAL_SKIPPED : Fld := ⟨A.INS_HEAL, 16, 15⟩
def F.INS_HEAL_BUSY : Fld := ⟨A.INS_HEAL, 31, 1⟩
/-- 09_inspection_pipeline.md, `INS_HEALCNT`. -/
def A.INS_HEALCNT : Nat := 0x8002C
def F.INS_HEALCNT_ROUNDS : Fld := ⟨A.INS_HEALCNT, 0, 15⟩
def F.INS_HEALCNT_SKIP15 : Fld := ⟨A.INS_HEALCNT, 15, 1⟩
def F.INS_HEALCNT_ABORTS : Fld := ⟨A.INS_HEALCNT, 16, 16⟩
/-- 09_inspection_pipeline.md, `INS_Pp_CFG`. -/
def A.INS_Pp_CFG (p : Nat) : Nat := 0x80100 + p * 0x80
def F.INS_Pp_CFG_EN (p : Nat) : Fld := ⟨A.INS_Pp_CFG p, 0, 1⟩
def F.INS_Pp_CFG_BYPASS (p : Nat) : Fld := ⟨A.INS_Pp_CFG p, 1, 1⟩
def F.INS_Pp_CFG_BANK (p : Nat) : Fld := ⟨A.INS_Pp_CFG p, 2, 1⟩
def F.INS_Pp_CFG_EDGE (p : Nat) : Fld := ⟨A.INS_Pp_CFG p, 3, 1⟩
def F.INS_Pp_CFG_LADMODE (p : Nat) : Fld := ⟨A.INS_Pp_CFG p, 4, 2⟩
def F.INS_Pp_CFG_WIDTH (p : Nat) : Fld := ⟨A.INS_Pp_CFG p, 16, 14⟩
/-- 09_inspection_pipeline.md, `INS_Pp_FRAME`. -/
def A.INS_Pp_FRAME (p : Nat) : Nat := 0x80104 + p * 0x80
def F.INS_Pp_FRAME_HEIGHT (p : Nat) : Fld := ⟨A.INS_Pp_FRAME p, 0, 16⟩
def F.INS_Pp_FRAME_FTMO (p : Nat) : Fld := ⟨A.INS_Pp_FRAME p, 16, 8⟩
/-- 09_inspection_pipeline.md, `INS_Pp_ALIGN`. -/
def A.INS_Pp_ALIGN (p : Nat) : Nat := 0x80108 + p * 0x80
def F.INS_Pp_ALIGN_D0 (p : Nat) : Fld := ⟨A.INS_Pp_ALIGN p, 0, 4⟩
def F.INS_Pp_ALIGN_D1 (p : Nat) : Fld := ⟨A.INS_Pp_ALIGN p, 4, 4⟩
def F.INS_Pp_ALIGN_D2 (p : Nat) : Fld := ⟨A.INS_Pp_ALIGN p, 8, 4⟩
/-- 09_inspection_pipeline.md, `INS_Pp_DENS`. -/
def A.INS_Pp_DENS (p : Nat) : Nat := 0x8010C + p * 0x80
def F.INS_Pp_DENS_DY0 (p : Nat) : Fld := ⟨A.INS_Pp_DENS p, 0, 16⟩
def F.INS_Pp_DENS_DLINES (p : Nat) : Fld := ⟨A.INS_Pp_DENS p, 16, 12⟩
/-- 09_inspection_pipeline.md, `INS_Pp_ARM`. -/
def A.INS_Pp_ARM (p : Nat) : Nat := 0x80110 + p * 0x80
def F.INS_Pp_ARM_LAD (p : Nat) : Fld := ⟨A.INS_Pp_ARM p, 0, 1⟩
def F.INS_Pp_ARM_DENS (p : Nat) : Fld := ⟨A.INS_Pp_ARM p, 1, 1⟩
/-- 09_inspection_pipeline.md, `INS_Pp_TAPCFG`. -/
def A.INS_Pp_TAPCFG (p : Nat) : Nat := 0x80114 + p * 0x80
def F.INS_Pp_TAPCFG_POINT (p : Nat) : Fld := ⟨A.INS_Pp_TAPCFG p, 0, 3⟩
def F.INS_Pp_TAPCFG_PLANE (p : Nat) : Fld := ⟨A.INS_Pp_TAPCFG p, 3, 3⟩
def F.INS_Pp_TAPCFG_DECIM (p : Nat) : Fld := ⟨A.INS_Pp_TAPCFG p, 8, 8⟩
/-- 09_inspection_pipeline.md, `INS_Pp_TAPBASE_LO`. -/
def A.INS_Pp_TAPBASE_LO (p : Nat) : Nat := 0x80118 + p * 0x80
def F.INS_Pp_TAPBASE_LO_BASE_L (p : Nat) : Fld := ⟨A.INS_Pp_TAPBASE_LO p, 12, 20⟩
/-- 09_inspection_pipeline.md, `INS_Pp_TAPBASE_HI`. -/
def A.INS_Pp_TAPBASE_HI (p : Nat) : Nat := 0x8011C + p * 0x80
def F.INS_Pp_TAPBASE_HI_BASE_H (p : Nat) : Fld := ⟨A.INS_Pp_TAPBASE_HI p, 0, 32⟩
/-- 09_inspection_pipeline.md, `INS_Pp_TAPSIZE`. -/
def A.INS_Pp_TAPSIZE (p : Nat) : Nat := 0x80120 + p * 0x80
def F.INS_Pp_TAPSIZE_LOG2 (p : Nat) : Fld := ⟨A.INS_Pp_TAPSIZE p, 0, 4⟩
def F.INS_Pp_TAPSIZE_STRIDE (p : Nat) : Fld := ⟨A.INS_Pp_TAPSIZE p, 16, 16⟩
/-- 09_inspection_pipeline.md, `INS_Pp_TAPHEAD`. -/
def A.INS_Pp_TAPHEAD (p : Nat) : Nat := 0x80124 + p * 0x80
def F.INS_Pp_TAPHEAD_HEAD (p : Nat) : Fld := ⟨A.INS_Pp_TAPHEAD p, 0, 12⟩
/-- 09_inspection_pipeline.md, `INS_Pp_TAPTAIL`. -/
def A.INS_Pp_TAPTAIL (p : Nat) : Nat := 0x80128 + p * 0x80
def F.INS_Pp_TAPTAIL_TAIL (p : Nat) : Fld := ⟨A.INS_Pp_TAPTAIL p, 0, 12⟩
def F.INS_Pp_TAPTAIL_PHASE (p : Nat) : Fld := ⟨A.INS_Pp_TAPTAIL p, 12, 1⟩
/-- 09_inspection_pipeline.md, `INS_Pp_STAT`. -/
def A.INS_Pp_STAT (p : Nat) : Nat := 0x8012C + p * 0x80
def F.INS_Pp_STAT_INFRAME (p : Nat) : Fld := ⟨A.INS_Pp_STAT p, 0, 1⟩
def F.INS_Pp_STAT_SHORT (p : Nat) : Fld := ⟨A.INS_Pp_STAT p, 1, 1⟩
def F.INS_Pp_STAT_LONG (p : Nat) : Fld := ⟨A.INS_Pp_STAT p, 2, 1⟩
def F.INS_Pp_STAT_TMO (p : Nat) : Fld := ⟨A.INS_Pp_STAT p, 3, 1⟩
def F.INS_Pp_STAT_FRAMECNT (p : Nat) : Fld := ⟨A.INS_Pp_STAT p, 16, 16⟩
/-- 09_inspection_pipeline.md, `INS_Pp_CNT1`. -/
def A.INS_Pp_CNT1 (p : Nat) : Nat := 0x80130 + p * 0x80
def F.INS_Pp_CNT1_DROP (p : Nat) : Fld := ⟨A.INS_Pp_CNT1 p, 0, 16⟩
def F.INS_Pp_CNT1_RUNT (p : Nat) : Fld := ⟨A.INS_Pp_CNT1 p, 16, 16⟩
/-- 09_inspection_pipeline.md, `INS_Pp_CNT2`. -/
def A.INS_Pp_CNT2 (p : Nat) : Nat := 0x80134 + p * 0x80
def F.INS_Pp_CNT2_LONGLINE (p : Nat) : Fld := ⟨A.INS_Pp_CNT2 p, 0, 16⟩
def F.INS_Pp_CNT2_TAPDROP (p : Nat) : Fld := ⟨A.INS_Pp_CNT2 p, 16, 16⟩
/-- 09_inspection_pipeline.md, `INS_LADn_CFG`. -/
def A.INS_LADn_CFG (n : Nat) : Nat := 0x80400 + n * 0x20
def F.INS_LADn_CFG_EN (n : Nat) : Fld := ⟨A.INS_LADn_CFG n, 0, 1⟩
def F.INS_LADn_CFG_PORT (n : Nat) : Fld := ⟨A.INS_LADn_CFG n, 1, 1⟩
def F.INS_LADn_CFG_HEAL (n : Nat) : Fld := ⟨A.INS_LADn_CFG n, 2, 1⟩
def F.INS_LADn_CFG_PLANE (n : Nat) : Fld := ⟨A.INS_LADn_CFG n, 4, 3⟩
def F.INS_LADn_CFG_STRIDE (n : Nat) : Fld := ⟨A.INS_LADn_CFG n, 8, 5⟩
def F.INS_LADn_CFG_MLINES (n : Nat) : Fld := ⟨A.INS_LADn_CFG n, 16, 8⟩
def F.INS_LADn_CFG_UPCNT (n : Nat) : Fld := ⟨A.INS_LADn_CFG n, 24, 4⟩
/-- 09_inspection_pipeline.md, `INS_LADn_X0`. -/
def A.INS_LADn_X0 (n : Nat) : Nat := 0x80404 + n * 0x20
def F.INS_LADn_X0_X0 (n : Nat) : Fld := ⟨A.INS_LADn_X0 n, 0, 24⟩
/-- 09_inspection_pipeline.md, `INS_LADn_PXN`. -/
def A.INS_LADn_PXN (n : Nat) : Nat := 0x80408 + n * 0x20
def F.INS_LADn_PXN_PXN (n : Nat) : Fld := ⟨A.INS_LADn_PXN n, 0, 24⟩
/-- 09_inspection_pipeline.md, `INS_LADn_Y`. -/
def A.INS_LADn_Y (n : Nat) : Nat := 0x8040C + n * 0x20
def F.INS_LADn_Y_Y0 (n : Nat) : Fld := ⟨A.INS_LADn_Y n, 0, 16⟩
def F.INS_LADn_Y_RSTEP (n : Nat) : Fld := ⟨A.INS_LADn_Y n, 16, 16⟩
/-- 09_inspection_pipeline.md, `INS_LADn_THR`. -/
def A.INS_LADn_THR (n : Nat) : Nat := 0x80410 + n * 0x20
def F.INS_LADn_THR_TMISS (n : Nat) : Fld := ⟨A.INS_LADn_THR n, 0, 8⟩
def F.INS_LADn_THR_TWEAK (n : Nat) : Fld := ⟨A.INS_LADn_THR n, 8, 8⟩
def F.INS_LADn_THR_TDEV (n : Nat) : Fld := ⟨A.INS_LADn_THR n, 16, 8⟩
def F.INS_LADn_THR_HALFW (n : Nat) : Fld := ⟨A.INS_LADn_THR n, 24, 8⟩
/-- 09_inspection_pipeline.md, `INS_LADn_HEALMAX`. -/
def A.INS_LADn_HEALMAX (n : Nat) : Nat := 0x80414 + n * 0x20
def F.INS_LADn_HEALMAX_MAXNEW (n : Nat) : Fld := ⟨A.INS_LADn_HEALMAX n, 0, 13⟩
def F.INS_LADn_HEALMAX_ANOM (n : Nat) : Fld := ⟨A.INS_LADn_HEALMAX n, 16, 16⟩
/-- 09_inspection_pipeline.md, `INS_LADn_RES0`. -/
def A.INS_LADn_RES0 (n : Nat) : Nat := 0x80418 + n * 0x20
def F.INS_LADn_RES0_OK (n : Nat) : Fld := ⟨A.INS_LADn_RES0 n, 0, 13⟩
def F.INS_LADn_RES0_WEAK (n : Nat) : Fld := ⟨A.INS_LADn_RES0 n, 16, 13⟩
/-- 09_inspection_pipeline.md, `INS_LADn_RES1`. -/
def A.INS_LADn_RES1 (n : Nat) : Nat := 0x8041C + n * 0x20
def F.INS_LADn_RES1_DEV (n : Nat) : Fld := ⟨A.INS_LADn_RES1 n, 0, 13⟩
def F.INS_LADn_RES1_MISS (n : Nat) : Fld := ⟨A.INS_LADn_RES1 n, 16, 13⟩
/-- 10_tuner_calibration.md, `TUN_STAT`. -/
def A.TUN_STAT : Nat := 0x90000
def F.TUN_STAT_CLAMP : Fld := ⟨A.TUN_STAT, 0, 5⟩
def F.TUN_STAT_SKIP : Fld := ⟨A.TUN_STAT, 8, 5⟩
def F.TUN_STAT_WRLOST : Fld := ⟨A.TUN_STAT, 16, 1⟩
def F.TUN_STAT_RUN : Fld := ⟨A.TUN_STAT, 17, 1⟩
/-- 10_tuner_calibration.md, `TUN_SETADDR`. -/
def A.TUN_SETADDR : Nat := 0x90010
def F.TUN_SETADDR_INST : Fld := ⟨A.TUN_SETADDR, 0, 16⟩
def F.TUN_SETADDR_POINT : Fld := ⟨A.TUN_SETADDR, 16, 3⟩
def F.TUN_SETADDR_CLASS : Fld := ⟨A.TUN_SETADDR, 20, 3⟩
def F.TUN_SETADDR_AUTOINC : Fld := ⟨A.TUN_SETADDR, 31, 1⟩
/-- 10_tuner_calibration.md, `TUN_SETDATA`. -/
def A.TUN_SETDATA : Nat := 0x90014
def F.TUN_SETDATA_VALUE : Fld := ⟨A.TUN_SETDATA, 0, 24⟩
def F.TUN_SETDATA_VALID : Fld := ⟨A.TUN_SETDATA, 31, 1⟩
/-- 10_tuner_calibration.md, `TUN_DAXw`. -/
def A.TUN_DAXw (w : Nat) : Nat := 0x90020 + w * 0x4
def F.TUN_DAXw_PT0 (w : Nat) : Fld := ⟨A.TUN_DAXw w, 0, 16⟩
def F.TUN_DAXw_PT1 (w : Nat) : Fld := ⟨A.TUN_DAXw w, 16, 16⟩
/-- 10_tuner_calibration.md, `TUN_IAXw`. -/
def A.TUN_IAXw (w : Nat) : Nat := 0x90030 + w * 0x4
def F.TUN_IAXw_PT0 (w : Nat) : Fld := ⟨A.TUN_IAXw w, 0, 16⟩
def F.TUN_IAXw_PT1 (w : Nat) : Fld := ⟨A.TUN_IAXw w, 16, 16⟩
/-- 10_tuner_calibration.md, `TUN_NPT`. -/
def A.TUN_NPT : Nat := 0x90040
def F.TUN_NPT_DNPT : Fld := ⟨A.TUN_NPT, 0, 4⟩
def F.TUN_NPT_INPT : Fld := ⟨A.TUN_NPT, 4, 4⟩
/-- 10_tuner_calibration.md, `TUN_CFGc`. -/
def A.TUN_CFGc (c : Nat) : Nat := 0x90100 + c * 0x20
def F.TUN_CFGc_EN (c : Nat) : Fld := ⟨A.TUN_CFGc c, 0, 1⟩
def F.TUN_CFGc_HYST (c : Nat) : Fld := ⟨A.TUN_CFGc c, 8, 8⟩
def F.TUN_CFGc_WIN (c : Nat) : Fld := ⟨A.TUN_CFGc c, 16, 8⟩
def F.TUN_CFGc_PER (c : Nat) : Fld := ⟨A.TUN_CFGc c, 24, 8⟩
/-- 10_tuner_calibration.md, `TUN_LIMc`. -/
def A.TUN_LIMc (c : Nat) : Nat := 0x90104 + c * 0x20
def F.TUN_LIMc_MIN (c : Nat) : Fld := ⟨A.TUN_LIMc c, 0, 16⟩
def F.TUN_LIMc_MAX (c : Nat) : Fld := ⟨A.TUN_LIMc c, 16, 16⟩
/-- 10_tuner_calibration.md, `TUN_COUNTc`. -/
def A.TUN_COUNTc (c : Nat) : Nat := 0x90108 + c * 0x20
def F.TUN_COUNTc_COUNT (c : Nat) : Fld := ⟨A.TUN_COUNTc c, 0, 32⟩
/-- 10_tuner_calibration.md, `TUN_LASTc_LO`. -/
def A.TUN_LASTc_LO (c : Nat) : Nat := 0x9010C + c * 0x20
def F.TUN_LASTc_LO_TIME_L (c : Nat) : Fld := ⟨A.TUN_LASTc_LO c, 0, 32⟩
/-- 10_tuner_calibration.md, `TUN_LASTc_HI`. -/
def A.TUN_LASTc_HI (c : Nat) : Nat := 0x90110 + c * 0x20
def F.TUN_LASTc_HI_TIME_H (c : Nat) : Fld := ⟨A.TUN_LASTc_HI c, 0, 32⟩
/-- 10_tuner_calibration.md, `TUN_LBOOTc`. -/
def A.TUN_LBOOTc (c : Nat) : Nat := 0x90114 + c * 0x20
def F.TUN_LBOOTc_BOOT (c : Nat) : Fld := ⟨A.TUN_LBOOTc c, 0, 32⟩
/-- 11_thermal.md, `THM_CTRL`. -/
def A.THM_CTRL : Nat := 0x60000
def F.THM_CTRL_DMARGIN : Fld := ⟨A.THM_CTRL, 0, 8⟩
/-- 11_thermal.md, `THM_STAT`. -/
def A.THM_STAT : Nat := 0x60004
def F.THM_STAT_DIE : Fld := ⟨A.THM_STAT, 0, 16⟩
def F.THM_STAT_STEP : Fld := ⟨A.THM_STAT, 16, 2⟩
def F.THM_STAT_DIEFB : Fld := ⟨A.THM_STAT, 18, 1⟩
def F.THM_STAT_SHUT : Fld := ⟨A.THM_STAT, 19, 1⟩
def F.THM_STAT_TRIP : Fld := ⟨A.THM_STAT, 20, 1⟩
def F.THM_STAT_ACTWR : Fld := ⟨A.THM_STAT, 21, 1⟩
/-- 11_thermal.md, `THM_DIELIM0`. -/
def A.THM_DIELIM0 : Nat := 0x60008
def F.THM_DIELIM0_THR1 : Fld := ⟨A.THM_DIELIM0, 0, 16⟩
def F.THM_DIELIM0_THR2 : Fld := ⟨A.THM_DIELIM0, 16, 16⟩
/-- 11_thermal.md, `THM_DIELIM1`. -/
def A.THM_DIELIM1 : Nat := 0x6000C
def F.THM_DIELIM1_THR3 : Fld := ⟨A.THM_DIELIM1, 0, 16⟩
def F.THM_DIELIM1_DSHUT : Fld := ⟨A.THM_DIELIM1, 16, 16⟩
/-- 11_thermal.md, `THM_CHSTAT`. -/
def A.THM_CHSTAT : Nat := 0x60010
def F.THM_CHSTAT_LIM : Fld := ⟨A.THM_CHSTAT, 0, 16⟩
def F.THM_CHSTAT_CRIT : Fld := ⟨A.THM_CHSTAT, 16, 16⟩
/-- 11_thermal.md, `THM_WARNSTAT`. -/
def A.THM_WARNSTAT : Nat := 0x60014
def F.THM_WARNSTAT_WARN : Fld := ⟨A.THM_WARNSTAT, 0, 16⟩
/-- 11_thermal.md, `THM_XCFG`. -/
def A.THM_XCFG : Nat := 0x60018
def F.THM_XCFG_XTOL : Fld := ⟨A.THM_XCFG, 0, 8⟩
def F.THM_XCFG_XCNT : Fld := ⟨A.THM_XCFG, 8, 4⟩
/-- 11_thermal.md, `THM_SFAIL_LO`. -/
def A.THM_SFAIL_LO : Nat := 0x6001C
def F.THM_SFAIL_LO_FAIL_L : Fld := ⟨A.THM_SFAIL_LO, 0, 32⟩
/-- 11_thermal.md, `THM_SFAIL_HI`. -/
def A.THM_SFAIL_HI : Nat := 0x60020
def F.THM_SFAIL_HI_FAIL_H : Fld := ⟨A.THM_SFAIL_HI, 0, 16⟩
/-- 11_thermal.md, `THM_TBLADDR`. -/
def A.THM_TBLADDR : Nat := 0x60024
def F.THM_TBLADDR_INDEX : Fld := ⟨A.THM_TBLADDR, 0, 8⟩
/-- 11_thermal.md, `THM_TBLDATA`. -/
def A.THM_TBLDATA : Nat := 0x60028
def F.THM_TBLDATA_TEMP : Fld := ⟨A.THM_TBLDATA, 0, 16⟩
/-- 11_thermal.md, `THM_TSs_CFG`. -/
def A.THM_TSs_CFG (s : Nat) : Nat := 0x60100 + s * 0x20
def F.THM_TSs_CFG_EN (s : Nat) : Fld := ⟨A.THM_TSs_CFG s, 0, 1⟩
def F.THM_TSs_CFG_KIND (s : Nat) : Fld := ⟨A.THM_TSs_CFG s, 1, 1⟩
def F.THM_TSs_CFG_TBL (s : Nat) : Fld := ⟨A.THM_TSs_CFG s, 2, 2⟩
def F.THM_TSs_CFG_DGAIN (s : Nat) : Fld := ⟨A.THM_TSs_CFG s, 16, 16⟩
/-- 11_thermal.md, `THM_TSs_NBR`. -/
def A.THM_TSs_NBR (s : Nat) : Nat := 0x60104 + s * 0x20
def F.THM_TSs_NBR_NB0 (s : Nat) : Fld := ⟨A.THM_TSs_NBR s, 0, 6⟩
def F.THM_TSs_NBR_NB1 (s : Nat) : Fld := ⟨A.THM_TSs_NBR s, 6, 6⟩
def F.THM_TSs_NBR_NB2 (s : Nat) : Fld := ⟨A.THM_TSs_NBR s, 12, 6⟩
def F.THM_TSs_NBR_NB3 (s : Nat) : Fld := ⟨A.THM_TSs_NBR s, 18, 6⟩
/-- 11_thermal.md, `THM_TSs_OFS`. -/
def A.THM_TSs_OFS (s : Nat) : Nat := 0x60108 + s * 0x20
def F.THM_TSs_OFS_SOFS (s : Nat) : Fld := ⟨A.THM_TSs_OFS s, 0, 16⟩
def F.THM_TSs_OFS_TOFS (s : Nat) : Fld := ⟨A.THM_TSs_OFS s, 16, 16⟩
/-- 11_thermal.md, `THM_TSs_VAL`. -/
def A.THM_TSs_VAL (s : Nat) : Nat := 0x6010C + s * 0x20
def F.THM_TSs_VAL_VALUE (s : Nat) : Fld := ⟨A.THM_TSs_VAL s, 0, 16⟩
/-- 11_thermal.md, `THM_TSs_STAT`. -/
def A.THM_TSs_STAT (s : Nat) : Nat := 0x60110 + s * 0x20
def F.THM_TSs_STAT_FAIL (s : Nat) : Fld := ⟨A.THM_TSs_STAT s, 0, 1⟩
def F.THM_TSs_STAT_SUSP (s : Nat) : Fld := ⟨A.THM_TSs_STAT s, 1, 1⟩
def F.THM_TSs_STAT_SUBST (s : Nat) : Fld := ⟨A.THM_TSs_STAT s, 2, 1⟩
def F.THM_TSs_STAT_FALLBK (s : Nat) : Fld := ⟨A.THM_TSs_STAT s, 3, 1⟩
def F.THM_TSs_STAT_RAISED (s : Nat) : Fld := ⟨A.THM_TSs_STAT s, 4, 1⟩
def F.THM_TSs_STAT_LVALID (s : Nat) : Fld := ⟨A.THM_TSs_STAT s, 5, 1⟩
def F.THM_TSs_STAT_LOFS (s : Nat) : Fld := ⟨A.THM_TSs_STAT s, 16, 16⟩
/-- 11_thermal.md, `THM_CHn_CFG`. -/
def A.THM_CHn_CFG (n : Nat) : Nat := 0x60800 + n * 0x20
def F.THM_CHn_CFG_HSEN (n : Nat) : Fld := ⟨A.THM_CHn_CFG n, 0, 6⟩
def F.THM_CHn_CFG_HTREN (n : Nat) : Fld := ⟨A.THM_CHn_CFG n, 8, 1⟩
/-- 11_thermal.md, `THM_CHn_LIM0`. -/
def A.THM_CHn_LIM0 (n : Nat) : Nat := 0x60804 + n * 0x20
def F.THM_CHn_LIM0_WARN (n : Nat) : Fld := ⟨A.THM_CHn_LIM0 n, 0, 16⟩
def F.THM_CHn_LIM0_LIMIT (n : Nat) : Fld := ⟨A.THM_CHn_LIM0 n, 16, 16⟩
/-- 11_thermal.md, `THM_CHn_LIM1`. -/
def A.THM_CHn_LIM1 (n : Nat) : Nat := 0x60808 + n * 0x20
def F.THM_CHn_LIM1_CRIT (n : Nat) : Fld := ⟨A.THM_CHn_LIM1 n, 0, 16⟩
def F.THM_CHn_LIM1_HYS (n : Nat) : Fld := ⟨A.THM_CHn_LIM1 n, 16, 8⟩
def F.THM_CHn_LIM1_MARGIN (n : Nat) : Fld := ⟨A.THM_CHn_LIM1 n, 24, 8⟩
/-- 11_thermal.md, `THM_CHn_HTR`. -/
def A.THM_CHn_HTR (n : Nat) : Nat := 0x6080C + n * 0x20
def F.THM_CHn_HTR_SET (n : Nat) : Fld := ⟨A.THM_CHn_HTR n, 0, 16⟩
def F.THM_CHn_HTR_DMAX (n : Nat) : Fld := ⟨A.THM_CHn_HTR n, 16, 10⟩
/-- 11_thermal.md, `THM_CHn_HTRPI`. -/
def A.THM_CHn_HTRPI (n : Nat) : Nat := 0x60810 + n * 0x20
def F.THM_CHn_HTRPI_KP (n : Nat) : Fld := ⟨A.THM_CHn_HTRPI n, 0, 16⟩
def F.THM_CHn_HTRPI_KI (n : Nat) : Fld := ⟨A.THM_CHn_HTRPI n, 16, 16⟩
/-- 11_thermal.md, `THM_CHn_HTRSTAT`. -/
def A.THM_CHn_HTRSTAT (n : Nat) : Nat := 0x60814 + n * 0x20
def F.THM_CHn_HTRSTAT_DUTY (n : Nat) : Fld := ⟨A.THM_CHn_HTRSTAT n, 0, 10⟩
def F.THM_CHn_HTRSTAT_HTRSAT (n : Nat) : Fld := ⟨A.THM_CHn_HTRSTAT n, 16, 1⟩
def F.THM_CHn_HTRSTAT_FORCED0 (n : Nat) : Fld := ⟨A.THM_CHn_HTRSTAT n, 17, 1⟩
/-- 11_thermal.md, `THM_CHn_TEMP`. -/
def A.THM_CHn_TEMP (n : Nat) : Nat := 0x60818 + n * 0x20
def F.THM_CHn_TEMP_TEMP (n : Nat) : Fld := ⟨A.THM_CHn_TEMP n, 0, 16⟩
def F.THM_CHn_TEMP_VALID (n : Nat) : Fld := ⟨A.THM_CHn_TEMP n, 16, 1⟩
def F.THM_CHn_TEMP_SUBST (n : Nat) : Fld := ⟨A.THM_CHn_TEMP n, 17, 1⟩
/-- 12_motion.md, `MOT_STAT`. -/
def A.MOT_STAT : Nat := 0x70000
def F.MOT_STAT_MOVING : Fld := ⟨A.MOT_STAT, 0, 4⟩
def F.MOT_STAT_FAULT : Fld := ⟨A.MOT_STAT, 4, 4⟩
def F.MOT_STAT_ACTWR : Fld := ⟨A.MOT_STAT, 8, 1⟩
/-- 12_motion.md, `MOT_AXa_CTRL`. -/
def A.MOT_AXa_CTRL (a : Nat) : Nat := 0x70100 + a * 0x80
def F.MOT_AXa_CTRL_EN (a : Nat) : Fld := ⟨A.MOT_AXa_CTRL a, 0, 1⟩
def F.MOT_AXa_CTRL_DRV (a : Nat) : Fld := ⟨A.MOT_AXa_CTRL a, 1, 1⟩
def F.MOT_AXa_CTRL_MODE (a : Nat) : Fld := ⟨A.MOT_AXa_CTRL a, 2, 3⟩
def F.MOT_AXa_CTRL_MRES (a : Nat) : Fld := ⟨A.MOT_AXa_CTRL a, 8, 4⟩
def F.MOT_AXa_CTRL_IRQ (a : Nat) : Fld := ⟨A.MOT_AXa_CTRL a, 12, 1⟩
/-- 12_motion.md, `MOT_AXa_CUR`. -/
def A.MOT_AXa_CUR (a : Nat) : Nat := 0x70104 + a * 0x80
def F.MOT_AXa_CUR_IRUN (a : Nat) : Fld := ⟨A.MOT_AXa_CUR a, 0, 9⟩
def F.MOT_AXa_CUR_IHOLD (a : Nat) : Fld := ⟨A.MOT_AXa_CUR a, 16, 9⟩
/-- 12_motion.md, `MOT_AXa_CHOP`. -/
def A.MOT_AXa_CHOP (a : Nat) : Nat := 0x70108 + a * 0x80
def F.MOT_AXa_CHOP_TBLANK (a : Nat) : Fld := ⟨A.MOT_AXa_CHOP a, 0, 6⟩
def F.MOT_AXa_CHOP_DT (a : Nat) : Fld := ⟨A.MOT_AXa_CHOP a, 6, 5⟩
def F.MOT_AXa_CHOP_DECAY (a : Nat) : Fld := ⟨A.MOT_AXa_CHOP a, 11, 1⟩
def F.MOT_AXa_CHOP_HYST (a : Nat) : Fld := ⟨A.MOT_AXa_CHOP a, 12, 8⟩
def F.MOT_AXa_CHOP_OFSMAX (a : Nat) : Fld := ⟨A.MOT_AXa_CHOP a, 20, 7⟩
def F.MOT_AXa_CHOP_ADAPT (a : Nat) : Fld := ⟨A.MOT_AXa_CHOP a, 27, 1⟩
/-- 12_motion.md, `MOT_AXa_CHOP2`. -/
def A.MOT_AXa_CHOP2 (a : Nat) : Nat := 0x7010C + a * 0x80
def F.MOT_AXa_CHOP2_CMID (a : Nat) : Fld := ⟨A.MOT_AXa_CHOP2 a, 0, 10⟩
def F.MOT_AXa_CHOP2_TDMAX (a : Nat) : Fld := ⟨A.MOT_AXa_CHOP2 a, 16, 16⟩
/-- 12_motion.md, `MOT_AXa_CHOP3`. -/
def A.MOT_AXa_CHOP3 (a : Nat) : Nat := 0x70110 + a * 0x80
def F.MOT_AXa_CHOP3_TDRVMAX (a : Nat) : Fld := ⟨A.MOT_AXa_CHOP3 a, 0, 16⟩
/-- 12_motion.md, `MOT_AXa_VMAX`. -/
def A.MOT_AXa_VMAX (a : Nat) : Nat := 0x70114 + a * 0x80
def F.MOT_AXa_VMAX_VMAX (a : Nat) : Fld := ⟨A.MOT_AXa_VMAX a, 0, 32⟩
/-- 12_motion.md, `MOT_AXa_AMAX`. -/
def A.MOT_AXa_AMAX (a : Nat) : Nat := 0x70118 + a * 0x80
def F.MOT_AXa_AMAX_AMAX (a : Nat) : Fld := ⟨A.MOT_AXa_AMAX a, 0, 32⟩
/-- 12_motion.md, `MOT_AXa_DMAX`. -/
def A.MOT_AXa_DMAX (a : Nat) : Nat := 0x7011C + a * 0x80
def F.MOT_AXa_DMAX_DMAX (a : Nat) : Fld := ⟨A.MOT_AXa_DMAX a, 0, 32⟩
/-- 12_motion.md, `MOT_AXa_SFILT`. -/
def A.MOT_AXa_SFILT (a : Nat) : Nat := 0x70120 + a * 0x80
def F.MOT_AXa_SFILT_NS (a : Nat) : Fld := ⟨A.MOT_AXa_SFILT a, 0, 10⟩
/-- 12_motion.md, `MOT_AXa_TGT_LO`. -/
def A.MOT_AXa_TGT_LO (a : Nat) : Nat := 0x70124 + a * 0x80
def F.MOT_AXa_TGT_LO_TGT_L (a : Nat) : Fld := ⟨A.MOT_AXa_TGT_LO a, 0, 32⟩
/-- 12_motion.md, `MOT_AXa_TGT_HI`. -/
def A.MOT_AXa_TGT_HI (a : Nat) : Nat := 0x70128 + a * 0x80
def F.MOT_AXa_TGT_HI_TGT_H (a : Nat) : Fld := ⟨A.MOT_AXa_TGT_HI a, 0, 16⟩
/-- 12_motion.md, `MOT_AXa_VT`. -/
def A.MOT_AXa_VT (a : Nat) : Nat := 0x7012C + a * 0x80
def F.MOT_AXa_VT_VT (a : Nat) : Fld := ⟨A.MOT_AXa_VT a, 0, 32⟩
/-- 12_motion.md, `MOT_AXa_GNUM`. -/
def A.MOT_AXa_GNUM (a : Nat) : Nat := 0x70130 + a * 0x80
def F.MOT_AXa_GNUM_NUM (a : Nat) : Fld := ⟨A.MOT_AXa_GNUM a, 0, 24⟩
/-- 12_motion.md, `MOT_AXa_GDEN`. -/
def A.MOT_AXa_GDEN (a : Nat) : Nat := 0x70134 + a * 0x80
def F.MOT_AXa_GDEN_DEN (a : Nat) : Fld := ⟨A.MOT_AXa_GDEN a, 0, 24⟩
def F.MOT_AXa_GDEN_GSRC (a : Nat) : Fld := ⟨A.MOT_AXa_GDEN a, 24, 3⟩
/-- 12_motion.md, `MOT_AXa_SIN`. -/
def A.MOT_AXa_SIN (a : Nat) : Nat := 0x70138 + a * 0x80
def F.MOT_AXa_SIN_SIRES (a : Nat) : Fld := ⟨A.MOT_AXa_SIN a, 0, 4⟩
def F.MOT_AXa_SIN_INTERP (a : Nat) : Fld := ⟨A.MOT_AXa_SIN a, 4, 1⟩
def F.MOT_AXa_SIN_SIDIRINV (a : Nat) : Fld := ⟨A.MOT_AXa_SIN a, 5, 1⟩
/-- 12_motion.md, `MOT_AXa_SOUT`. -/
def A.MOT_AXa_SOUT (a : Nat) : Nat := 0x7013C + a * 0x80
def F.MOT_AXa_SOUT_OUTRES (a : Nat) : Fld := ⟨A.MOT_AXa_SOUT a, 0, 4⟩
def F.MOT_AXa_SOUT_SPW (a : Nat) : Fld := ⟨A.MOT_AXa_SOUT a, 4, 8⟩
def F.MOT_AXa_SOUT_DIRSU (a : Nat) : Fld := ⟨A.MOT_AXa_SOUT a, 12, 8⟩
def F.MOT_AXa_SOUT_OUTDIRINV (a : Nat) : Fld := ⟨A.MOT_AXa_SOUT a, 20, 1⟩
/-- 12_motion.md, `MOT_AXa_STAND`. -/
def A.MOT_AXa_STAND (a : Nat) : Nat := 0x70140 + a * 0x80
def F.MOT_AXa_STAND_STMODE (a : Nat) : Fld := ⟨A.MOT_AXa_STAND a, 0, 2⟩
def F.MOT_AXa_STAND_TSTAND (a : Nat) : Fld := ⟨A.MOT_AXa_STAND a, 4, 12⟩
/-- 12_motion.md, `MOT_AXa_SAFE`. -/
def A.MOT_AXa_SAFE (a : Nat) : Nat := 0x70144 + a * 0x80
def F.MOT_AXa_SAFE_SAFEMODE (a : Nat) : Fld := ⟨A.MOT_AXa_SAFE a, 0, 2⟩
/-- 12_motion.md, `MOT_AXa_XACT_LO`. -/
def A.MOT_AXa_XACT_LO (a : Nat) : Nat := 0x70148 + a * 0x80
def F.MOT_AXa_XACT_LO_X_L (a : Nat) : Fld := ⟨A.MOT_AXa_XACT_LO a, 0, 32⟩
/-- 12_motion.md, `MOT_AXa_XACT_HI`. -/
def A.MOT_AXa_XACT_HI (a : Nat) : Nat := 0x7014C + a * 0x80
def F.MOT_AXa_XACT_HI_X_H (a : Nat) : Fld := ⟨A.MOT_AXa_XACT_HI a, 0, 16⟩
def F.MOT_AXa_XACT_HI_SIGN (a : Nat) : Fld := ⟨A.MOT_AXa_XACT_HI a, 16, 16⟩
/-- 12_motion.md, `MOT_AXa_VACT`. -/
def A.MOT_AXa_VACT (a : Nat) : Nat := 0x70150 + a * 0x80
def F.MOT_AXa_VACT_V (a : Nat) : Fld := ⟨A.MOT_AXa_VACT a, 0, 32⟩
/-- 12_motion.md, `MOT_AXa_STAT`. -/
def A.MOT_AXa_STAT (a : Nat) : Nat := 0x70154 + a * 0x80
def F.MOT_AXa_STAT_MOVING (a : Nat) : Fld := ⟨A.MOT_AXa_STAT a, 0, 1⟩
def F.MOT_AXa_STAT_STAND (a : Nat) : Fld := ⟨A.MOT_AXa_STAT a, 1, 1⟩
def F.MOT_AXa_STAT_ARRIVED (a : Nat) : Fld := ⟨A.MOT_AXa_STAT a, 2, 1⟩
def F.MOT_AXa_STAT_FAULT (a : Nat) : Fld := ⟨A.MOT_AXa_STAT a, 3, 1⟩
def F.MOT_AXa_STAT_FCAUSE (a : Nat) : Fld := ⟨A.MOT_AXa_STAT a, 4, 3⟩
def F.MOT_AXa_STAT_STOPPED (a : Nat) : Fld := ⟨A.MOT_AXa_STAT a, 7, 1⟩
def F.MOT_AXa_STAT_OBACK (a : Nat) : Fld := ⟨A.MOT_AXa_STAT a, 16, 16⟩
/-- 12_motion.md, `MOT_AXa_OFS`. -/
def A.MOT_AXa_OFS (a : Nat) : Nat := 0x70158 + a * 0x80
def F.MOT_AXa_OFS_OFSA (a : Nat) : Fld := ⟨A.MOT_AXa_OFS a, 0, 8⟩
def F.MOT_AXa_OFS_OFSB (a : Nat) : Fld := ⟨A.MOT_AXa_OFS a, 8, 8⟩
/-- 13_host_port_and_mailboxes.md, `EVT_PENDw`. -/
def A.EVT_PENDw (w : Nat) : Nat := 0x10000 + w * 0x4
def F.EVT_PENDw_PEND (w : Nat) : Fld := ⟨A.EVT_PENDw w, 0, 32⟩
/-- 13_host_port_and_mailboxes.md, `EVT_ROUTEe`. -/
def A.EVT_ROUTEe (e : Nat) : Nat := 0x11000 + e * 0x4
def F.EVT_ROUTEe_PF0EN (e : Nat) : Fld := ⟨A.EVT_ROUTEe e, 0, 1⟩
def F.EVT_ROUTEe_PF1EN (e : Nat) : Fld := ⟨A.EVT_ROUTEe e, 1, 1⟩
def F.EVT_ROUTEe_PF1VEC (e : Nat) : Fld := ⟨A.EVT_ROUTEe e, 2, 6⟩
/-- 13_host_port_and_mailboxes.md, `WRK_EXP_STOP`. -/
def A.WRK_EXP_STOP : Nat := 0xE0000
def F.WRK_EXP_STOP_STOP : Fld := ⟨A.WRK_EXP_STOP, 0, 16⟩
/-- 13_host_port_and_mailboxes.md, `WRK_EXP_INH`. -/
def A.WRK_EXP_INH : Nat := 0xE0004
def F.WRK_EXP_INH_INH : Fld := ⟨A.WRK_EXP_INH, 0, 16⟩
/-- 13_host_port_and_mailboxes.md, `WRK_EXP_FETCH`. -/
def A.WRK_EXP_FETCH : Nat := 0xE0008
def F.WRK_EXP_FETCH_OFF : Fld := ⟨A.WRK_EXP_FETCH, 0, 1⟩
/-- 13_host_port_and_mailboxes.md, `WRK_EXP_SAFE`. -/
def A.WRK_EXP_SAFE : Nat := 0xE000C
def F.WRK_EXP_SAFE_KEY : Fld := ⟨A.WRK_EXP_SAFE, 0, 16⟩
/-- 13_host_port_and_mailboxes.md, `WRK_EXP_LATCH`. -/
def A.WRK_EXP_LATCH : Nat := 0xE0010
def F.WRK_EXP_LATCH_STOPL : Fld := ⟨A.WRK_EXP_LATCH, 0, 16⟩
def F.WRK_EXP_LATCH_INHL : Fld := ⟨A.WRK_EXP_LATCH, 16, 16⟩
/-- 13_host_port_and_mailboxes.md, `WRK_EXP_CNT`. -/
def A.WRK_EXP_CNT : Nat := 0xE0014
def F.WRK_EXP_CNT_NEXP : Fld := ⟨A.WRK_EXP_CNT, 0, 16⟩
def F.WRK_EXP_CNT_NMRG : Fld := ⟨A.WRK_EXP_CNT, 16, 16⟩
/-- 13_host_port_and_mailboxes.md, `MBX_FULL_LO`. -/
def A.MBX_FULL_LO : Nat := 0x30000
def F.MBX_FULL_LO_FULL_L : Fld := ⟨A.MBX_FULL_LO, 0, 32⟩
/-- 13_host_port_and_mailboxes.md, `MBX_FULL_HI`. -/
def A.MBX_FULL_HI : Nat := 0x30004
def F.MBX_FULL_HI_FULL_H : Fld := ⟨A.MBX_FULL_HI, 0, 16⟩
/-- 13_host_port_and_mailboxes.md, `MBX_m_CTRL`. -/
def A.MBX_m_CTRL (m : Nat) : Nat := 0x31000 + m * 0x100
def F.MBX_m_CTRL_LEN (m : Nat) : Fld := ⟨A.MBX_m_CTRL m, 0, 5⟩
def F.MBX_m_CTRL_GO (m : Nat) : Fld := ⟨A.MBX_m_CTRL m, 8, 1⟩
/-- 13_host_port_and_mailboxes.md, `MBX_m_SEND`. -/
def A.MBX_m_SEND (m : Nat) : Nat := 0x31004 + m * 0x100
def F.MBX_m_SEND_RES (m : Nat) : Fld := ⟨A.MBX_m_SEND m, 0, 2⟩
def F.MBX_m_SEND_SEND (m : Nat) : Fld := ⟨A.MBX_m_SEND m, 31, 1⟩
/-- 13_host_port_and_mailboxes.md, `MBX_m_LOCK`. -/
def A.MBX_m_LOCK (m : Nat) : Nat := 0x31008 + m * 0x100
def F.MBX_m_LOCK_OWNER (m : Nat) : Fld := ⟨A.MBX_m_LOCK m, 0, 5⟩
/-- 13_host_port_and_mailboxes.md, `MBX_m_STAT`. -/
def A.MBX_m_STAT (m : Nat) : Nat := 0x3100C + m * 0x100
def F.MBX_m_STAT_FULL (m : Nat) : Fld := ⟨A.MBX_m_STAT m, 0, 1⟩
def F.MBX_m_STAT_ACKWAIT (m : Nat) : Fld := ⟨A.MBX_m_STAT m, 1, 1⟩
def F.MBX_m_STAT_ABORTED (m : Nat) : Fld := ⟨A.MBX_m_STAT m, 2, 1⟩
def F.MBX_m_STAT_ACKTMO (m : Nat) : Fld := ⟨A.MBX_m_STAT m, 3, 1⟩
def F.MBX_m_STAT_OVR (m : Nat) : Fld := ⟨A.MBX_m_STAT m, 4, 1⟩
def F.MBX_m_STAT_SRC (m : Nat) : Fld := ⟨A.MBX_m_STAT m, 8, 5⟩
def F.MBX_m_STAT_RLEN (m : Nat) : Fld := ⟨A.MBX_m_STAT m, 16, 5⟩
/-- 13_host_port_and_mailboxes.md, `MBX_m_ACKTMO`. -/
def A.MBX_m_ACKTMO (m : Nat) : Nat := 0x31010 + m * 0x100
def F.MBX_m_ACKTMO_TMO (m : Nat) : Fld := ⟨A.MBX_m_ACKTMO m, 0, 16⟩
/-- 13_host_port_and_mailboxes.md, `MBX_m_DATAw`. -/
def A.MBX_m_DATAw (m : Nat) (w : Nat) : Nat := 0x31040 + m * 0x100 + w * 0x4
def F.MBX_m_DATAw_DATA (m : Nat) (w : Nat) : Fld := ⟨A.MBX_m_DATAw m w, 0, 32⟩
/-- 13_host_port_and_mailboxes.md, `MBX_m_MSGw`. -/
def A.MBX_m_MSGw (m : Nat) (w : Nat) : Nat := 0x31080 + m * 0x100 + w * 0x4
def F.MBX_m_MSGw_MSG (m : Nat) (w : Nat) : Fld := ⟨A.MBX_m_MSGw m w, 0, 32⟩
/-- 14_faults_and_protection.md, `FLT_STAT_LO`. -/
def A.FLT_STAT_LO : Nat := 0x20000
def F.FLT_STAT_LO_LINE_L : Fld := ⟨A.FLT_STAT_LO, 0, 32⟩
/-- 14_faults_and_protection.md, `FLT_STAT_HI`. -/
def A.FLT_STAT_HI : Nat := 0x20004
def F.FLT_STAT_HI_LINE_H : Fld := ⟨A.FLT_STAT_HI, 0, 32⟩
/-- 14_faults_and_protection.md, `FLT_SAFE`. -/
def A.FLT_SAFE : Nat := 0x20008
def F.FLT_SAFE_ACTIVE : Fld := ⟨A.FLT_SAFE, 0, 1⟩
def F.FLT_SAFE_SEV4 : Fld := ⟨A.FLT_SAFE, 1, 1⟩
def F.FLT_SAFE_PAR : Fld := ⟨A.FLT_SAFE, 2, 1⟩
def F.FLT_SAFE_KEY : Fld := ⟨A.FLT_SAFE, 3, 1⟩
def F.FLT_SAFE_STOPN : Fld := ⟨A.FLT_SAFE, 4, 1⟩
def F.FLT_SAFE_SPWD : Fld := ⟨A.FLT_SAFE, 5, 1⟩
def F.FLT_SAFE_THERMAL : Fld := ⟨A.FLT_SAFE, 6, 1⟩
def F.FLT_SAFE_BSCAN : Fld := ⟨A.FLT_SAFE, 7, 1⟩
/-- 14_faults_and_protection.md, `FLT_CHREACT`. -/
def A.FLT_CHREACT : Nat := 0x2000C
def F.FLT_CHREACT_HALT : Fld := ⟨A.FLT_CHREACT, 0, 16⟩
def F.FLT_CHREACT_INH : Fld := ⟨A.FLT_CHREACT, 16, 16⟩
/-- 14_faults_and_protection.md, `FLT_FIRST`. -/
def A.FLT_FIRST : Nat := 0x20010
def F.FLT_FIRST_SRC : Fld := ⟨A.FLT_FIRST, 0, 9⟩
def F.FLT_FIRST_SEV : Fld := ⟨A.FLT_FIRST, 9, 3⟩
def F.FLT_FIRST_VALID : Fld := ⟨A.FLT_FIRST, 31, 1⟩
/-- 14_faults_and_protection.md, `FLT_FIRSTTIME_LO`. -/
def A.FLT_FIRSTTIME_LO : Nat := 0x20014
def F.FLT_FIRSTTIME_LO_TIME_L : Fld := ⟨A.FLT_FIRSTTIME_LO, 0, 32⟩
/-- 14_faults_and_protection.md, `FLT_FIRSTTIME_HI`. -/
def A.FLT_FIRSTTIME_HI : Nat := 0x20018
def F.FLT_FIRSTTIME_HI_TIME_H : Fld := ⟨A.FLT_FIRSTTIME_HI, 0, 32⟩
/-- 14_faults_and_protection.md, `FLT_PAR`. -/
def A.FLT_PAR : Nat := 0x2001C
def F.FLT_PAR_PARERR : Fld := ⟨A.FLT_PAR, 0, 1⟩
def F.FLT_PAR_WORD : Fld := ⟨A.FLT_PAR, 4, 7⟩
/-- 14_faults_and_protection.md, `FLT_LOGCNT`. -/
def A.FLT_LOGCNT : Nat := 0x20020
def F.FLT_LOGCNT_COUNT : Fld := ⟨A.FLT_LOGCNT, 0, 32⟩
/-- 14_faults_and_protection.md, `FLT_SEVw`. -/
def A.FLT_SEVw (w : Nat) : Nat := 0x21000 + w * 0x4
def F.FLT_SEVw_SEVi (w i : Nat) : Fld := ⟨A.FLT_SEVw w, 4 * i, 3⟩
/-- 14_faults_and_protection.md, `PWR_MON_STAT`. -/
def A.PWR_MON_STAT : Nat := 0xB0000
def F.PWR_MON_STAT_WARN : Fld := ⟨A.PWR_MON_STAT, 0, 1⟩
def F.PWR_MON_STAT_PFAIL : Fld := ⟨A.PWR_MON_STAT, 1, 1⟩
def F.PWR_MON_STAT_NVWB : Fld := ⟨A.PWR_MON_STAT, 2, 1⟩
def F.PWR_MON_STAT_FLUSHDONE : Fld := ⟨A.PWR_MON_STAT, 3, 1⟩
def F.PWR_MON_STAT_BELOW : Fld := ⟨A.PWR_MON_STAT, 4, 3⟩
/-- 14_faults_and_protection.md, `PWR_MON_WARN0`. -/
def A.PWR_MON_WARN0 : Nat := 0xB0004
def F.PWR_MON_WARN0_WVDD : Fld := ⟨A.PWR_MON_WARN0, 0, 12⟩
def F.PWR_MON_WARN0_WVDD18 : Fld := ⟨A.PWR_MON_WARN0, 16, 12⟩
/-- 14_faults_and_protection.md, `PWR_MON_WARN1`. -/
def A.PWR_MON_WARN1 : Nat := 0xB0008
def F.PWR_MON_WARN1_WVDD33 : Fld := ⟨A.PWR_MON_WARN1, 0, 12⟩
/-- 14_faults_and_protection.md, `PWR_MON_CNT`. -/
def A.PWR_MON_CNT : Nat := 0xB000C
def F.PWR_MON_CNT_WARNCNT : Fld := ⟨A.PWR_MON_CNT, 0, 16⟩
def F.PWR_MON_CNT_PFAILCNT : Fld := ⟨A.PWR_MON_CNT, 16, 16⟩
/-- 14_faults_and_protection.md, `PWR_MON_FLUSH`. -/
def A.PWR_MON_FLUSH : Nat := 0xB0010
def F.PWR_MON_FLUSH_HALTT : Fld := ⟨A.PWR_MON_FLUSH, 0, 8⟩
def F.PWR_MON_FLUSH_FLUSHT : Fld := ⟨A.PWR_MON_FLUSH, 8, 16⟩
/-- 14_faults_and_protection.md, `PROT_ROLE`. -/
def A.PROT_ROLE : Nat := 0xD0000
def F.PROT_ROLE_ADMIN : Fld := ⟨A.PROT_ROLE, 0, 1⟩
def F.PROT_ROLE_SPEN : Fld := ⟨A.PROT_ROLE, 1, 1⟩
def F.PROT_ROLE_PROPA : Fld := ⟨A.PROT_ROLE, 2, 1⟩
def F.PROT_ROLE_PROPS : Fld := ⟨A.PROT_ROLE, 3, 1⟩
/-- 14_faults_and_protection.md, `PROT_CFG`. -/
def A.PROT_CFG : Nat := 0xD0004
def F.PROT_CFG_FLASHWE : Fld := ⟨A.PROT_CFG, 0, 1⟩
def F.PROT_CFG_FETCHOFF : Fld := ⟨A.PROT_CFG, 1, 1⟩
def F.PROT_CFG_STOPNACT : Fld := ⟨A.PROT_CFG, 2, 2⟩
def F.PROT_CFG_SPTOACT : Fld := ⟨A.PROT_CFG, 4, 2⟩
def F.PROT_CFG_SPWDOG : Fld := ⟨A.PROT_CFG, 8, 8⟩
/-- 14_faults_and_protection.md, `PROT_STAT`. -/
def A.PROT_STAT : Nat := 0xD0008
def F.PROT_STAT_PENDING : Fld := ⟨A.PROT_STAT, 0, 1⟩
def F.PROT_STAT_PTX : Fld := ⟨A.PROT_STAT, 1, 4⟩
def F.PROT_STAT_POWNER : Fld := ⟨A.PROT_STAT, 5, 2⟩
def F.PROT_STAT_STOPN : Fld := ⟨A.PROT_STAT, 8, 1⟩
def F.PROT_STAT_SPWD : Fld := ⟨A.PROT_STAT, 9, 1⟩
def F.PROT_STAT_SPRST : Fld := ⟨A.PROT_STAT, 10, 1⟩
def F.PROT_STAT_NOKEY : Fld := ⟨A.PROT_STAT, 11, 1⟩
def F.PROT_STAT_STOPNLVL : Fld := ⟨A.PROT_STAT, 12, 1⟩
/-- 14_faults_and_protection.md, `PROT_CFMTX`. -/
def A.PROT_CFMTX : Nat := 0xD000C
def F.PROT_CFMTX_TX : Fld := ⟨A.PROT_CFMTX, 0, 4⟩
/-- 14_faults_and_protection.md, `PROT_CFM_LO`. -/
def A.PROT_CFM_LO : Nat := 0xD0010
def F.PROT_CFM_LO_DIG_L : Fld := ⟨A.PROT_CFM_LO, 0, 32⟩
/-- 14_faults_and_protection.md, `PROT_CFM_HI`. -/
def A.PROT_CFM_HI : Nat := 0xD0014
def F.PROT_CFM_HI_DIG_H : Fld := ⟨A.PROT_CFM_HI, 0, 32⟩
/-- 14_faults_and_protection.md, `PROT_CFMRES`. -/
def A.PROT_CFMRES : Nat := 0xD0018
def F.PROT_CFMRES_RES : Fld := ⟨A.PROT_CFMRES, 0, 2⟩
/-- 14_faults_and_protection.md, `PROT_SAFEREQ`. -/
def A.PROT_SAFEREQ : Nat := 0xD001C
def F.PROT_SAFEREQ_KEY : Fld := ⟨A.PROT_SAFEREQ, 0, 16⟩
/-- 14_faults_and_protection.md, `PROT_SPCNT`. -/
def A.PROT_SPCNT : Nat := 0xD0020
def F.PROT_SPCNT_FRAMES : Fld := ⟨A.PROT_SPCNT, 0, 16⟩
def F.PROT_SPCNT_CRCERR : Fld := ⟨A.PROT_SPCNT, 16, 16⟩
/-- 15_startup_and_config_image.md, `SYS_DEVRST`. -/
def A.SYS_DEVRST : Nat := 0x50
def F.SYS_DEVRST_KEY : Fld := ⟨A.SYS_DEVRST, 0, 16⟩
/-- 15_startup_and_config_image.md, `NVM_BOOTSTAT`. -/
def A.NVM_BOOTSTAT : Nat := 0xA0000
def F.NVM_BOOTSTAT_STATE : Fld := ⟨A.NVM_BOOTSTAT, 0, 3⟩
def F.NVM_BOOTSTAT_SLOT : Fld := ⟨A.NVM_BOOTSTAT, 3, 1⟩
def F.NVM_BOOTSTAT_FALLBACK : Fld := ⟨A.NVM_BOOTSTAT, 4, 1⟩
def F.NVM_BOOTSTAT_AUTH : Fld := ⟨A.NVM_BOOTSTAT, 5, 1⟩
def F.NVM_BOOTSTAT_FCAUSE : Fld := ⟨A.NVM_BOOTSTAT, 8, 4⟩
def F.NVM_BOOTSTAT_VBLK : Fld := ⟨A.NVM_BOOTSTAT, 12, 4⟩
def F.NVM_BOOTSTAT_BOOTMS : Fld := ⟨A.NVM_BOOTSTAT, 16, 12⟩
def F.NVM_BOOTSTAT_VCH : Fld := ⟨A.NVM_BOOTSTAT, 28, 4⟩
/-- 15_startup_and_config_image.md, `NVM_BOOTSEL`. -/
def A.NVM_BOOTSEL : Nat := 0xA0004
def F.NVM_BOOTSEL_PREF : Fld := ⟨A.NVM_BOOTSEL, 0, 2⟩
def F.NVM_BOOTSEL_ONCE : Fld := ⟨A.NVM_BOOTSEL, 2, 1⟩
/-- 15_startup_and_config_image.md, `NVM_SLOTSTATA`. -/
def A.NVM_SLOTSTATA : Nat := 0xA0008
def F.NVM_SLOTSTATA_HDRVALID : Fld := ⟨A.NVM_SLOTSTATA, 0, 1⟩
def F.NVM_SLOTSTATA_AUTH : Fld := ⟨A.NVM_SLOTSTATA, 1, 1⟩
def F.NVM_SLOTSTATA_CAND : Fld := ⟨A.NVM_SLOTSTATA, 2, 1⟩
def F.NVM_SLOTSTATA_BODYBAD : Fld := ⟨A.NVM_SLOTSTATA, 3, 1⟩
def F.NVM_SLOTSTATA_CAUSE : Fld := ⟨A.NVM_SLOTSTATA, 8, 4⟩
/-- 15_startup_and_config_image.md, `NVM_SLOTSTATB`. -/
def A.NVM_SLOTSTATB : Nat := 0xA000C
def F.NVM_SLOTSTATB_HDRVALID : Fld := ⟨A.NVM_SLOTSTATB, 0, 1⟩
def F.NVM_SLOTSTATB_AUTH : Fld := ⟨A.NVM_SLOTSTATB, 1, 1⟩
def F.NVM_SLOTSTATB_CAND : Fld := ⟨A.NVM_SLOTSTATB, 2, 1⟩
def F.NVM_SLOTSTATB_BODYBAD : Fld := ⟨A.NVM_SLOTSTATB, 3, 1⟩
def F.NVM_SLOTSTATB_CAUSE : Fld := ⟨A.NVM_SLOTSTATB, 8, 4⟩
/-- 15_startup_and_config_image.md, `NVM_SLOTGENA`. -/
def A.NVM_SLOTGENA : Nat := 0xA0010
def F.NVM_SLOTGENA_GEN : Fld := ⟨A.NVM_SLOTGENA, 0, 32⟩
/-- 15_startup_and_config_image.md, `NVM_SLOTGENB`. -/
def A.NVM_SLOTGENB : Nat := 0xA0014
def F.NVM_SLOTGENB_GEN : Fld := ⟨A.NVM_SLOTGENB, 0, 32⟩
/-- 15_startup_and_config_image.md, `NVM_DEVINFO`. -/
def A.NVM_DEVINFO : Nat := 0xA0018
def F.NVM_DEVINFO_CAPL2 : Fld := ⟨A.NVM_DEVINFO, 0, 5⟩
def F.NVM_DEVINFO_ERL2 : Fld := ⟨A.NVM_DEVINFO, 8, 5⟩
def F.NVM_DEVINFO_SLOW : Fld := ⟨A.NVM_DEVINFO, 16, 1⟩
/-- 15_startup_and_config_image.md, `NVM_CHBOOT`. -/
def A.NVM_CHBOOT : Nat := 0xA001C
def F.NVM_CHBOOT_CFG : Fld := ⟨A.NVM_CHBOOT, 0, 16⟩
def F.NVM_CHBOOT_FAIL : Fld := ⟨A.NVM_CHBOOT, 16, 16⟩
/-- 15_startup_and_config_image.md, `NVM_CMD`. -/
def A.NVM_CMD : Nat := 0xA0030
def F.NVM_CMD_CODE : Fld := ⟨A.NVM_CMD, 0, 3⟩
def F.NVM_CMD_SLOT : Fld := ⟨A.NVM_CMD, 3, 1⟩
def F.NVM_CMD_GO : Fld := ⟨A.NVM_CMD, 31, 1⟩
/-- 15_startup_and_config_image.md, `NVM_FADDR`. -/
def A.NVM_FADDR : Nat := 0xA0034
def F.NVM_FADDR_FADDR : Fld := ⟨A.NVM_FADDR, 0, 32⟩
/-- 15_startup_and_config_image.md, `NVM_LEN`. -/
def A.NVM_LEN : Nat := 0xA0038
def F.NVM_LEN_LEN : Fld := ⟨A.NVM_LEN, 0, 32⟩
/-- 15_startup_and_config_image.md, `NVM_HADDR_LO`. -/
def A.NVM_HADDR_LO : Nat := 0xA003C
def F.NVM_HADDR_LO_ADDR_L : Fld := ⟨A.NVM_HADDR_LO, 6, 26⟩
/-- 15_startup_and_config_image.md, `NVM_HADDR_HI`. -/
def A.NVM_HADDR_HI : Nat := 0xA0040
def F.NVM_HADDR_HI_ADDR_H : Fld := ⟨A.NVM_HADDR_HI, 0, 32⟩
/-- 15_startup_and_config_image.md, `NVM_CMDSTAT`. -/
def A.NVM_CMDSTAT : Nat := 0xA0044
def F.NVM_CMDSTAT_BUSY : Fld := ⟨A.NVM_CMDSTAT, 0, 1⟩
def F.NVM_CMDSTAT_DONE : Fld := ⟨A.NVM_CMDSTAT, 1, 1⟩
def F.NVM_CMDSTAT_ERR : Fld := ⟨A.NVM_CMDSTAT, 2, 3⟩
def F.NVM_CMDSTAT_VPASS : Fld := ⟨A.NVM_CMDSTAT, 5, 1⟩
def F.NVM_CMDSTAT_PROG : Fld := ⟨A.NVM_CMDSTAT, 8, 24⟩
/-- 17_power_and_clocks.md, `SYS_CLKSTAT`. -/
def A.SYS_CLKSTAT : Nat := 0x60
def F.SYS_CLKSTAT_REFOK : Fld := ⟨A.SYS_CLKSTAT, 0, 1⟩
def F.SYS_CLKSTAT_SHFB : Fld := ⟨A.SYS_CLKSTAT, 1, 1⟩
def F.SYS_CLKSTAT_CHFB : Fld := ⟨A.SYS_CLKSTAT, 16, 16⟩
/-- 17_power_and_clocks.md, `SYS_CLKCNT`. -/
def A.SYS_CLKCNT : Nat := 0x64
def F.SYS_CLKCNT_REFLOSS : Fld := ⟨A.SYS_CLKCNT, 0, 16⟩
def F.SYS_CLKCNT_PLLFAIL : Fld := ⟨A.SYS_CLKCNT, 16, 16⟩
/-- 17_power_and_clocks.md, `PWR_DOMON`. -/
def A.PWR_DOMON : Nat := 0xB0100
def F.PWR_DOMON_DOM : Fld := ⟨A.PWR_DOMON, 0, 24⟩
/-- 17_power_and_clocks.md, `PWR_DOMOFF`. -/
def A.PWR_DOMOFF : Nat := 0xB0104
def F.PWR_DOMOFF_DOM : Fld := ⟨A.PWR_DOMOFF, 0, 24⟩
/-- 17_power_and_clocks.md, `PWR_DOMREF`. -/
def A.PWR_DOMREF : Nat := 0xB0108
def F.PWR_DOMREF_REF : Fld := ⟨A.PWR_DOMREF, 0, 24⟩
def F.PWR_DOMREF_CAUSE : Fld := ⟨A.PWR_DOMREF, 24, 4⟩
/-- 17_power_and_clocks.md, `PWR_STBY`. -/
def A.PWR_STBY : Nat := 0xB0110
def F.PWR_STBY_KEY : Fld := ⟨A.PWR_STBY, 0, 16⟩
/-- 17_power_and_clocks.md, `PWR_WAKECFG`. -/
def A.PWR_WAKECFG : Nat := 0xB0114
def F.PWR_WAKECFG_WAKEN : Fld := ⟨A.PWR_WAKECFG, 0, 1⟩
def F.PWR_WAKECFG_TMR : Fld := ⟨A.PWR_WAKECFG, 1, 1⟩
/-- 17_power_and_clocks.md, `PWR_WAKETMR`. -/
def A.PWR_WAKETMR : Nat := 0xB0118
def F.PWR_WAKETMR_TICKS : Fld := ⟨A.PWR_WAKETMR, 0, 32⟩
/-- 17_power_and_clocks.md, `PWR_WAKESRC`. -/
def A.PWR_WAKESRC : Nat := 0xB011C
def F.PWR_WAKESRC_WAKEN : Fld := ⟨A.PWR_WAKESRC, 0, 1⟩
def F.PWR_WAKESRC_TMR : Fld := ⟨A.PWR_WAKESRC, 1, 1⟩
def F.PWR_WAKESRC_SUPPLY : Fld := ⟨A.PWR_WAKESRC, 2, 1⟩

/-- Registers of block SYS, part 0. -/
def regsSys0 : List RegDef := [
  ⟨"SYS_ID", 0x0, [], 0xB1, none,
   [⟨0, 8, .ro⟩]⟩,
  ⟨"SYS_PART", 0x4, [], 0x101640, none,
   [⟨0, 16, .ro⟩, ⟨16, 5, .ro⟩]⟩,
  ⟨"SYS_BOOTCNT", 0x8, [], 0x0, none,
   [⟨0, 32, .ro⟩]⟩,
  ⟨"SYS_TIME_LO", 0x10, [], 0x0, some 0x4,
   [⟨3, 29, .ro⟩]⟩,
  ⟨"SYS_TIME_HI", 0x14, [], 0x0, none,
   [⟨0, 32, .ro⟩]⟩,
  ⟨"SYS_EPOCH_LO", 0x18, [], 0x0, some 0x4,
   [⟨0, 32, .rw⟩]⟩,
  ⟨"SYS_EPOCH_HI", 0x1C, [], 0x0, none,
   [⟨0, 32, .rw⟩]⟩,
  ⟨"SYS_EPOCHBASE_LO", 0x20, [], 0x0, some 0x4,
   [⟨0, 32, .ro⟩]⟩,
  ⟨"SYS_EPOCHBASE_HI", 0x24, [], 0x0, none,
   [⟨0, 32, .ro⟩]⟩,
  ⟨"SYS_RSTCAUSE", 0x30, [], 0x1, none,
   [⟨0, 1, .w1c⟩, ⟨1, 1, .w1c⟩, ⟨2, 1, .w1c⟩, ⟨3, 1, .w1c⟩, ⟨4, 1, .w1c⟩, ⟨5, 1, .w1c⟩, ⟨6, 1, .w1c⟩, ⟨7, 1, .w1c⟩, ⟨8, 1, .w1c⟩, ⟨9, 1, .w1c⟩, ⟨16, 16, .w1c⟩]⟩,
  ⟨"SYS_DOMSTAT_LO", 0x40, [], 0xAA, some 0x4,
   [⟨0, 32, .ro⟩]⟩,
  ⟨"SYS_DOMSTAT_HI", 0x44, [], 0x0, none,
   [⟨0, 16, .ro⟩]⟩]

/-- Registers of block SYS, part 1. -/
def regsSys1 : List RegDef := [
  ⟨"SYS_DEVRST", 0x50, [], 0x0, none,
   [⟨0, 16, .wo⟩]⟩,
  ⟨"SYS_CLKSTAT", 0x60, [], 0x1, none,
   [⟨0, 1, .ro⟩, ⟨1, 1, .ro⟩, ⟨16, 16, .ro⟩]⟩,
  ⟨"SYS_CLKCNT", 0x64, [], 0x0, none,
   [⟨0, 16, .rc⟩, ⟨16, 16, .rc⟩]⟩]

/-- Registers of block SYS. -/
def regsSys : List RegDef := regsSys0 ++ regsSys1

/-- Registers of block EVT, part 0. -/
def regsEvt0 : List RegDef := [
  ⟨"EVT_PENDw", 0x10000, [(0x4, 16)], 0x0, none,
   [⟨0, 32, .w1c⟩]⟩,
  ⟨"EVT_ROUTEe", 0x11000, [(0x4, 512)], 0x1, none,
   [⟨0, 1, .rw⟩, ⟨1, 1, .rw⟩, ⟨2, 6, .rw⟩]⟩]

/-- Registers of block EVT. -/
def regsEvt : List RegDef := regsEvt0

/-- Registers of block FLT, part 0. -/
def regsFlt0 : List RegDef := [
  ⟨"FLT_STAT_LO", 0x20000, [], 0x0, some 0x4,
   [⟨0, 32, .w1c⟩]⟩,
  ⟨"FLT_STAT_HI", 0x20004, [], 0x0, none,
   [⟨0, 32, .w1c⟩]⟩,
  ⟨"FLT_SAFE", 0x20008, [], 0x0, none,
   [⟨0, 1, .w1c⟩, ⟨1, 1, .ro⟩, ⟨2, 1, .ro⟩, ⟨3, 1, .ro⟩, ⟨4, 1, .ro⟩, ⟨5, 1, .ro⟩, ⟨6, 1, .ro⟩, ⟨7, 1, .ro⟩]⟩,
  ⟨"FLT_CHREACT", 0x2000C, [], 0x0, none,
   [⟨0, 16, .ro⟩, ⟨16, 16, .ro⟩]⟩,
  ⟨"FLT_FIRST", 0x20010, [], 0x0, none,
   [⟨0, 9, .ro⟩, ⟨9, 3, .ro⟩, ⟨31, 1, .w1c⟩]⟩,
  ⟨"FLT_FIRSTTIME_LO", 0x20014, [], 0x0, some 0x4,
   [⟨0, 32, .ro⟩]⟩,
  ⟨"FLT_FIRSTTIME_HI", 0x20018, [], 0x0, none,
   [⟨0, 32, .ro⟩]⟩,
  ⟨"FLT_PAR", 0x2001C, [], 0x0, none,
   [⟨0, 1, .ro⟩, ⟨4, 7, .ro⟩]⟩,
  ⟨"FLT_LOGCNT", 0x20020, [], 0x0, none,
   [⟨0, 32, .ro⟩]⟩,
  ⟨"FLT_SEVw", 0x21000, [(0x4, 64)], 0x11111111, none,
   [⟨0, 3, .st⟩, ⟨4, 3, .st⟩, ⟨8, 3, .st⟩, ⟨12, 3, .st⟩, ⟨16, 3, .st⟩, ⟨20, 3, .st⟩, ⟨24, 3, .st⟩, ⟨28, 3, .st⟩]⟩]

/-- Registers of block FLT. -/
def regsFlt : List RegDef := regsFlt0

/-- Registers of block MBX, part 0. -/
def regsMbx0 : List RegDef := [
  ⟨"MBX_FULL_LO", 0x30000, [], 0x0, some 0x4,
   [⟨0, 32, .ro⟩]⟩,
  ⟨"MBX_FULL_HI", 0x30004, [], 0x0, none,
   [⟨0, 16, .ro⟩]⟩,
  ⟨"MBX_m_CTRL", 0x31000, [(0x100, 48)], 0x0, none,
   [⟨0, 5, .rw⟩, ⟨8, 1, .wo⟩]⟩,
  ⟨"MBX_m_SEND", 0x31004, [(0x100, 48)], 0x0, none,
   [⟨0, 2, .ro⟩, ⟨31, 1, .wo⟩]⟩,
  ⟨"MBX_m_LOCK", 0x31008, [(0x100, 48)], 0x0, none,
   [⟨0, 5, .rw⟩]⟩,
  ⟨"MBX_m_STAT", 0x3100C, [(0x100, 48)], 0x0, none,
   [⟨0, 1, .w1c⟩, ⟨1, 1, .ro⟩, ⟨2, 1, .w1c⟩, ⟨3, 1, .w1c⟩, ⟨4, 1, .w1c⟩, ⟨8, 5, .ro⟩, ⟨16, 5, .ro⟩]⟩,
  ⟨"MBX_m_ACKTMO", 0x31010, [(0x100, 48)], 0x64, none,
   [⟨0, 16, .rw⟩]⟩,
  ⟨"MBX_m_DATAw", 0x31040, [(0x100, 48), (0x4, 16)], 0x0, none,
   [⟨0, 32, .rw⟩]⟩,
  ⟨"MBX_m_MSGw", 0x31080, [(0x100, 48), (0x4, 16)], 0x0, none,
   [⟨0, 32, .ro⟩]⟩]

/-- Registers of block MBX. -/
def regsMbx : List RegDef := regsMbx0

/-- Registers of block POS, part 0. -/
def regsPos0 : List RegDef := [
  ⟨"POS_STAT", 0x40000, [], 0x0, none,
   [⟨0, 4, .ro⟩, ⟨4, 4, .ro⟩, ⟨8, 1, .ro⟩, ⟨9, 1, .ro⟩]⟩,
  ⟨"POS_XCFG", 0x40008, [], 0x302, none,
   [⟨0, 3, .st⟩, ⟨8, 4, .st⟩]⟩,
  ⟨"POS_XSTAT", 0x4000C, [], 0x0, none,
   [⟨0, 16, .w1c⟩, ⟨16, 4, .ro⟩]⟩,
  ⟨"POS_ENCe_CFG", 0x40100, [(0x40, 4)], 0x0, none,
   [⟨0, 1, .st⟩, ⟨1, 3, .st⟩, ⟨4, 1, .st⟩, ⟨5, 1, .st⟩, ⟨6, 2, .st⟩, ⟨8, 10, .st⟩]⟩,
  ⟨"POS_ENCe_FLT", 0x40104, [(0x40, 4)], 0x1003E7, none,
   [⟨0, 16, .st⟩, ⟨16, 8, .st⟩]⟩,
  ⟨"POS_ENCe_CNT_LO", 0x40108, [(0x40, 4)], 0x0, some 0x4,
   [⟨0, 32, .ro⟩]⟩,
  ⟨"POS_ENCe_CNT_HI", 0x4010C, [(0x40, 4)], 0x0, none,
   [⟨0, 16, .ro⟩, ⟨16, 16, .ro⟩]⟩,
  ⟨"POS_ENCe_PRESET_LO", 0x40110, [(0x40, 4)], 0x0, some 0x4,
   [⟨0, 32, .st⟩]⟩,
  ⟨"POS_ENCe_PRESET_HI", 0x40114, [(0x40, 4)], 0x0, none,
   [⟨0, 16, .st⟩, ⟨31, 1, .st⟩]⟩,
  ⟨"POS_ENCe_IDXNOM", 0x40118, [(0x40, 4)], 0x0, none,
   [⟨0, 32, .st⟩]⟩,
  ⟨"POS_ENCe_IDXCFG", 0x4011C, [(0x40, 4)], 0x0, none,
   [⟨0, 16, .st⟩, ⟨16, 2, .st⟩]⟩,
  ⟨"POS_ENCe_IDXCAP_LO", 0x40120, [(0x40, 4)], 0x0, some 0x4,
   [⟨0, 32, .ro⟩]⟩]

/-- Registers of block POS, part 1. -/
def regsPos1 : List RegDef := [
  ⟨"POS_ENCe_IDXCAP_HI", 0x40124, [(0x40, 4)], 0x0, none,
   [⟨0, 16, .ro⟩, ⟨31, 1, .ro⟩]⟩,
  ⟨"POS_ENCe_SPDCFG", 0x40128, [(0x40, 4)], 0x63, none,
   [⟨0, 16, .st⟩]⟩,
  ⟨"POS_ENCe_SPD", 0x4012C, [(0x40, 4)], 0x0, none,
   [⟨0, 24, .ro⟩, ⟨24, 1, .ro⟩]⟩,
  ⟨"POS_ENCe_PERIOD", 0x40130, [(0x40, 4)], 0xFFFFFFFF, none,
   [⟨0, 32, .ro⟩]⟩,
  ⟨"POS_ENCe_STAT", 0x40134, [(0x40, 4)], 0x0, none,
   [⟨0, 1, .w1c⟩, ⟨1, 1, .w1c⟩, ⟨2, 1, .w1c⟩, ⟨3, 1, .w1c⟩, ⟨4, 1, .w1c⟩, ⟨8, 8, .ro⟩]⟩,
  ⟨"POS_ENCe_FCNT", 0x40138, [(0x40, 4)], 0x0, none,
   [⟨0, 16, .rc⟩, ⟨16, 16, .rc⟩]⟩,
  ⟨"POS_PAIR_CTRL", 0x40200, [], 0x0, none,
   [⟨0, 1, .st⟩, ⟨1, 1, .st⟩, ⟨2, 1, .st⟩]⟩,
  ⟨"POS_PAIR_K", 0x40204, [], 0x1000000, none,
   [⟨0, 32, .st⟩]⟩,
  ⟨"POS_PAIR_OFS_LO", 0x40208, [], 0x0, some 0x4,
   [⟨0, 16, .ro⟩, ⟨16, 16, .ro⟩]⟩,
  ⟨"POS_PAIR_OFS_HI", 0x4020C, [], 0x0, none,
   [⟨0, 32, .ro⟩]⟩,
  ⟨"POS_PAIR_DIV", 0x40210, [], 0x10, none,
   [⟨0, 16, .st⟩]⟩,
  ⟨"POS_PAIR_STAT", 0x40214, [], 0x0, none,
   [⟨0, 2, .ro⟩, ⟨2, 1, .w1c⟩, ⟨3, 1, .w1c⟩]⟩]

/-- Registers of block POS, part 2. -/
def regsPos2 : List RegDef := [
  ⟨"POS_FRETHIT_LO", 0x40300, [], 0x0, some 0x4,
   [⟨0, 32, .w1c⟩]⟩,
  ⟨"POS_FRETHIT_HI", 0x40304, [], 0x0, none,
   [⟨0, 32, .w1c⟩]⟩,
  ⟨"POS_FRETf_CMP_LO", 0x41000, [(0x10, 64)], 0x0, some 0x4,
   [⟨0, 32, .rw⟩]⟩,
  ⟨"POS_FRETf_CMP_HI", 0x41004, [(0x10, 64)], 0x0, none,
   [⟨0, 16, .rw⟩]⟩,
  ⟨"POS_FRETf_STEP", 0x41008, [(0x10, 64)], 0x0, none,
   [⟨0, 32, .rw⟩]⟩,
  ⟨"POS_FRETf_CTRL", 0x4100C, [(0x10, 64)], 0x0, none,
   [⟨0, 3, .rw⟩, ⟨3, 2, .rw⟩, ⟨5, 1, .rw⟩, ⟨6, 1, .rw⟩, ⟨7, 1, .rw⟩, ⟨8, 1, .rw⟩, ⟨16, 1, .w1s⟩, ⟨17, 1, .wo⟩]⟩,
  ⟨"POS_EMUm_CFG", 0x40400, [(0x20, 4)], 0x800, none,
   [⟨0, 1, .st⟩, ⟨1, 3, .st⟩, ⟨4, 1, .st⟩, ⟨5, 1, .st⟩, ⟨8, 8, .st⟩]⟩,
  ⟨"POS_EMUm_RATIO", 0x40404, [(0x20, 4)], 0x1000000, none,
   [⟨0, 32, .st⟩]⟩,
  ⟨"POS_EMUm_ZDIV", 0x40408, [(0x20, 4)], 0x0, none,
   [⟨0, 32, .st⟩]⟩,
  ⟨"POS_EMUm_STAT", 0x4040C, [(0x20, 4)], 0x0, none,
   [⟨0, 16, .ro⟩, ⟨16, 1, .w1c⟩, ⟨17, 1, .w1c⟩, ⟨18, 1, .ro⟩]⟩]

/-- Registers of block POS. -/
def regsPos : List RegDef := regsPos0 ++ regsPos1 ++ regsPos2

/-- Registers of block CAPO, part 0. -/
def regsCapo0 : List RegDef := [
  ⟨"CAPO_ALLOC", 0x50000, [], 0x0, none,
   [⟨0, 4, .ro⟩, ⟨31, 1, .ro⟩]⟩,
  ⟨"CAPO_BIND", 0x50004, [], 0x0, none,
   [⟨0, 4, .rw⟩, ⟨4, 1, .rw⟩]⟩,
  ⟨"CAPO_STAT", 0x50008, [], 0x0, none,
   [⟨0, 16, .ro⟩, ⟨16, 13, .ro⟩]⟩,
  ⟨"CAPO_FLAGS", 0x5000C, [], 0x0, none,
   [⟨0, 1, .w1c⟩, ⟨1, 1, .w1c⟩, ⟨2, 1, .w1c⟩]⟩,
  ⟨"CAPO_TXt_CTRL", 0x50100, [(0x40, 16)], 0x0, none,
   [⟨0, 1, .rw⟩, ⟨1, 3, .rw⟩, ⟨4, 1, .rw⟩, ⟨8, 6, .rw⟩]⟩,
  ⟨"CAPO_TXt_TMO", 0x50104, [(0x40, 16)], 0x3E8, none,
   [⟨0, 16, .rw⟩, ⟨16, 16, .rw⟩]⟩,
  ⟨"CAPO_TXt_CMD", 0x50108, [(0x40, 16)], 0x0, none,
   [⟨0, 2, .wo⟩]⟩,
  ⟨"CAPO_TXt_STAT", 0x5010C, [(0x40, 16)], 0x0, none,
   [⟨0, 3, .ro⟩, ⟨3, 4, .ro⟩, ⟨7, 1, .ro⟩, ⟨8, 2, .ro⟩, ⟨10, 1, .ro⟩, ⟨11, 1, .ro⟩, ⟨12, 1, .ro⟩, ⟨13, 1, .ro⟩, ⟨16, 13, .ro⟩]⟩,
  ⟨"CAPO_TXt_PART_CH", 0x50110, [(0x40, 16)], 0x0, none,
   [⟨0, 16, .ro⟩]⟩,
  ⟨"CAPO_TXt_PART_SYS", 0x50114, [(0x40, 16)], 0x0, none,
   [⟨0, 16, .ro⟩]⟩,
  ⟨"CAPO_TXt_NOVOTE", 0x50118, [(0x40, 16)], 0x0, none,
   [⟨0, 8, .ro⟩, ⟨8, 3, .ro⟩]⟩,
  ⟨"CAPO_TXt_TIME_LO", 0x5011C, [(0x40, 16)], 0x0, some 0x4,
   [⟨0, 32, .ro⟩]⟩]

/-- Registers of block CAPO, part 1. -/
def regsCapo1 : List RegDef := [
  ⟨"CAPO_TXt_TIME_HI", 0x50120, [(0x40, 16)], 0x0, none,
   [⟨0, 32, .ro⟩]⟩,
  ⟨"CAPO_TXt_DIGEST_LO", 0x50124, [(0x40, 16)], 0x0, some 0x4,
   [⟨0, 32, .ro⟩]⟩,
  ⟨"CAPO_TXt_DIGEST_HI", 0x50128, [(0x40, 16)], 0x0, none,
   [⟨0, 32, .ro⟩]⟩]

/-- Registers of block CAPO. -/
def regsCapo : List RegDef := regsCapo0 ++ regsCapo1

/-- Registers of block THM, part 0. -/
def regsThm0 : List RegDef := [
  ⟨"THM_CTRL", 0x60000, [], 0x14, none,
   [⟨0, 8, .rw⟩]⟩,
  ⟨"THM_STAT", 0x60004, [], 0x0, none,
   [⟨0, 16, .ro⟩, ⟨16, 2, .ro⟩, ⟨18, 1, .ro⟩, ⟨19, 1, .w1c⟩, ⟨20, 1, .w1c⟩, ⟨21, 1, .w1c⟩]⟩,
  ⟨"THM_DIELIM0", 0x60008, [], 0x3E803B6, none,
   [⟨0, 16, .st⟩, ⟨16, 16, .st⟩]⟩,
  ⟨"THM_DIELIM1", 0x6000C, [], 0x4380406, none,
   [⟨0, 16, .st⟩, ⟨16, 16, .st⟩]⟩,
  ⟨"THM_CHSTAT", 0x60010, [], 0x0, none,
   [⟨0, 16, .w1c⟩, ⟨16, 16, .w1c⟩]⟩,
  ⟨"THM_WARNSTAT", 0x60014, [], 0x0, none,
   [⟨0, 16, .ro⟩]⟩,
  ⟨"THM_XCFG", 0x60018, [], 0x31E, none,
   [⟨0, 8, .rw⟩, ⟨8, 4, .rw⟩]⟩,
  ⟨"THM_SFAIL_LO", 0x6001C, [], 0x0, some 0x4,
   [⟨0, 32, .ro⟩]⟩,
  ⟨"THM_SFAIL_HI", 0x60020, [], 0x0, none,
   [⟨0, 16, .ro⟩]⟩,
  ⟨"THM_TBLADDR", 0x60024, [], 0x0, none,
   [⟨0, 8, .rw⟩]⟩,
  ⟨"THM_TBLDATA", 0x60028, [], 0x0, none,
   [⟨0, 16, .rw⟩]⟩,
  ⟨"THM_TSs_CFG", 0x60100, [(0x20, 48)], 0x1AC90000, none,
   [⟨0, 1, .rw⟩, ⟨1, 1, .rw⟩, ⟨2, 2, .rw⟩, ⟨16, 16, .rw⟩]⟩]

/-- Registers of block THM, part 1. -/
def regsThm1 : List RegDef := [
  ⟨"THM_TSs_NBR", 0x60104, [(0x20, 48)], 0xFFFFFF, none,
   [⟨0, 6, .rw⟩, ⟨6, 6, .rw⟩, ⟨12, 6, .rw⟩, ⟨18, 6, .rw⟩]⟩,
  ⟨"THM_TSs_OFS", 0x60108, [(0x20, 48)], 0x0, none,
   [⟨0, 16, .ro⟩, ⟨16, 16, .rw⟩]⟩,
  ⟨"THM_TSs_VAL", 0x6010C, [(0x20, 48)], 0x0, none,
   [⟨0, 16, .ro⟩]⟩,
  ⟨"THM_TSs_STAT", 0x60110, [(0x20, 48)], 0x0, none,
   [⟨0, 1, .w1c⟩, ⟨1, 1, .ro⟩, ⟨2, 1, .ro⟩, ⟨3, 1, .ro⟩, ⟨4, 1, .ro⟩, ⟨5, 1, .ro⟩, ⟨16, 16, .ro⟩]⟩,
  ⟨"THM_CHn_CFG", 0x60800, [(0x20, 16)], 0x3F, none,
   [⟨0, 6, .st⟩, ⟨8, 1, .rw⟩]⟩,
  ⟨"THM_CHn_LIM0", 0x60804, [(0x20, 16)], 0x28A0258, none,
   [⟨0, 16, .st⟩, ⟨16, 16, .st⟩]⟩,
  ⟨"THM_CHn_LIM1", 0x60808, [(0x20, 16)], 0x141402BC, none,
   [⟨0, 16, .st⟩, ⟨16, 8, .st⟩, ⟨24, 8, .st⟩]⟩,
  ⟨"THM_CHn_HTR", 0x6080C, [(0x20, 16)], 0x0, none,
   [⟨0, 16, .rw⟩, ⟨16, 10, .st⟩]⟩,
  ⟨"THM_CHn_HTRPI", 0x60810, [(0x20, 16)], 0x1000400, none,
   [⟨0, 16, .rw⟩, ⟨16, 16, .rw⟩]⟩,
  ⟨"THM_CHn_HTRSTAT", 0x60814, [(0x20, 16)], 0x0, none,
   [⟨0, 10, .ro⟩, ⟨16, 1, .w1c⟩, ⟨17, 1, .ro⟩]⟩,
  ⟨"THM_CHn_TEMP", 0x60818, [(0x20, 16)], 0x0, none,
   [⟨0, 16, .ro⟩, ⟨16, 1, .ro⟩, ⟨17, 1, .ro⟩]⟩]

/-- Registers of block THM. -/
def regsThm : List RegDef := regsThm0 ++ regsThm1

/-- Registers of block MOT, part 0. -/
def regsMot0 : List RegDef := [
  ⟨"MOT_STAT", 0x70000, [], 0x0, none,
   [⟨0, 4, .ro⟩, ⟨4, 4, .ro⟩, ⟨8, 1, .w1c⟩]⟩,
  ⟨"MOT_AXa_CTRL", 0x70100, [(0x80, 4)], 0x800, none,
   [⟨0, 1, .st⟩, ⟨1, 1, .st⟩, ⟨2, 3, .st⟩, ⟨8, 4, .st⟩, ⟨12, 1, .rw⟩]⟩,
  ⟨"MOT_AXa_CUR", 0x70104, [(0x80, 4)], 0x0, none,
   [⟨0, 9, .st⟩, ⟨16, 9, .st⟩]⟩,
  ⟨"MOT_AXa_CHOP", 0x70108, [(0x80, 4)], 0x200814A, none,
   [⟨0, 6, .st⟩, ⟨6, 5, .st⟩, ⟨11, 1, .st⟩, ⟨12, 8, .st⟩, ⟨20, 7, .st⟩, ⟨27, 1, .st⟩]⟩,
  ⟨"MOT_AXa_CHOP2", 0x7010C, [(0x80, 4)], 0x13880200, none,
   [⟨0, 10, .st⟩, ⟨16, 16, .st⟩]⟩,
  ⟨"MOT_AXa_CHOP3", 0x70110, [(0x80, 4)], 0x2710, none,
   [⟨0, 16, .st⟩]⟩,
  ⟨"MOT_AXa_VMAX", 0x70114, [(0x80, 4)], 0x0, none,
   [⟨0, 32, .st⟩]⟩,
  ⟨"MOT_AXa_AMAX", 0x70118, [(0x80, 4)], 0x0, none,
   [⟨0, 32, .st⟩]⟩,
  ⟨"MOT_AXa_DMAX", 0x7011C, [(0x80, 4)], 0x0, none,
   [⟨0, 32, .st⟩]⟩,
  ⟨"MOT_AXa_SFILT", 0x70120, [(0x80, 4)], 0x0, none,
   [⟨0, 10, .st⟩]⟩,
  ⟨"MOT_AXa_TGT_LO", 0x70124, [(0x80, 4)], 0x0, some 0x4,
   [⟨0, 32, .st⟩]⟩,
  ⟨"MOT_AXa_TGT_HI", 0x70128, [(0x80, 4)], 0x0, none,
   [⟨0, 16, .st⟩]⟩]

/-- Registers of block MOT, part 1. -/
def regsMot1 : List RegDef := [
  ⟨"MOT_AXa_VT", 0x7012C, [(0x80, 4)], 0x0, none,
   [⟨0, 32, .st⟩]⟩,
  ⟨"MOT_AXa_GNUM", 0x70130, [(0x80, 4)], 0x1, none,
   [⟨0, 24, .st⟩]⟩,
  ⟨"MOT_AXa_GDEN", 0x70134, [(0x80, 4)], 0x1, none,
   [⟨0, 24, .st⟩, ⟨24, 3, .st⟩]⟩,
  ⟨"MOT_AXa_SIN", 0x70138, [(0x80, 4)], 0x8, none,
   [⟨0, 4, .st⟩, ⟨4, 1, .st⟩, ⟨5, 1, .st⟩]⟩,
  ⟨"MOT_AXa_SOUT", 0x7013C, [(0x80, 4)], 0x140A8, none,
   [⟨0, 4, .st⟩, ⟨4, 8, .st⟩, ⟨12, 8, .st⟩, ⟨20, 1, .st⟩]⟩,
  ⟨"MOT_AXa_STAND", 0x70140, [(0x80, 4)], 0xC80, none,
   [⟨0, 2, .st⟩, ⟨4, 12, .st⟩]⟩,
  ⟨"MOT_AXa_SAFE", 0x70144, [(0x80, 4)], 0x2, none,
   [⟨0, 2, .st⟩]⟩,
  ⟨"MOT_AXa_XACT_LO", 0x70148, [(0x80, 4)], 0x0, some 0x4,
   [⟨0, 32, .ro⟩]⟩,
  ⟨"MOT_AXa_XACT_HI", 0x7014C, [(0x80, 4)], 0x0, none,
   [⟨0, 16, .ro⟩, ⟨16, 16, .ro⟩]⟩,
  ⟨"MOT_AXa_VACT", 0x70150, [(0x80, 4)], 0x0, none,
   [⟨0, 32, .ro⟩]⟩,
  ⟨"MOT_AXa_STAT", 0x70154, [(0x80, 4)], 0x0, none,
   [⟨0, 1, .ro⟩, ⟨1, 1, .ro⟩, ⟨2, 1, .w1c⟩, ⟨3, 1, .w1c⟩, ⟨4, 3, .ro⟩, ⟨7, 1, .ro⟩, ⟨16, 16, .ro⟩]⟩,
  ⟨"MOT_AXa_OFS", 0x70158, [(0x80, 4)], 0x0, none,
   [⟨0, 8, .ro⟩, ⟨8, 8, .ro⟩]⟩]

/-- Registers of block MOT. -/
def regsMot : List RegDef := regsMot0 ++ regsMot1

/-- Registers of block INS, part 0. -/
def regsIns0 : List RegDef := [
  ⟨"INS_CTRL", 0x80000, [], 0x0, none,
   [⟨0, 1, .st⟩]⟩,
  ⟨"INS_STAT", 0x80004, [], 0x0, none,
   [⟨0, 2, .ro⟩, ⟨4, 1, .w1c⟩]⟩,
  ⟨"INS_TBLADDR", 0x80010, [], 0x0, none,
   [⟨0, 16, .rw⟩, ⟨16, 2, .rw⟩, ⟨18, 1, .rw⟩, ⟨19, 1, .rw⟩]⟩,
  ⟨"INS_TBLDATA", 0x80014, [], 0x0, none,
   [⟨0, 16, .rw⟩]⟩,
  ⟨"INS_RESBASE_LO", 0x80020, [], 0x0, some 0x4,
   [⟨0, 1, .rw⟩, ⟨12, 20, .rw⟩]⟩,
  ⟨"INS_RESBASE_HI", 0x80024, [], 0x0, none,
   [⟨0, 32, .rw⟩]⟩,
  ⟨"INS_HEAL", 0x80028, [], 0x0, none,
   [⟨0, 16, .ro⟩, ⟨16, 15, .ro⟩, ⟨31, 1, .ro⟩]⟩,
  ⟨"INS_HEALCNT", 0x8002C, [], 0x0, none,
   [⟨0, 15, .rc⟩, ⟨15, 1, .ro⟩, ⟨16, 16, .rc⟩]⟩,
  ⟨"INS_Pp_CFG", 0x80100, [(0x80, 2)], 0x3FFF0000, none,
   [⟨0, 1, .st⟩, ⟨1, 1, .st⟩, ⟨2, 1, .st⟩, ⟨3, 1, .st⟩, ⟨4, 2, .st⟩, ⟨16, 14, .st⟩]⟩,
  ⟨"INS_Pp_FRAME", 0x80104, [(0x80, 2)], 0x3FF, none,
   [⟨0, 16, .st⟩, ⟨16, 8, .st⟩]⟩,
  ⟨"INS_Pp_ALIGN", 0x80108, [(0x80, 2)], 0x0, none,
   [⟨0, 4, .st⟩, ⟨4, 4, .st⟩, ⟨8, 4, .st⟩]⟩,
  ⟨"INS_Pp_DENS", 0x8010C, [(0x80, 2)], 0x0, none,
   [⟨0, 16, .st⟩, ⟨16, 12, .st⟩]⟩]

/-- Registers of block INS, part 1. -/
def regsIns1 : List RegDef := [
  ⟨"INS_Pp_ARM", 0x80110, [(0x80, 2)], 0x0, none,
   [⟨0, 1, .w1s⟩, ⟨1, 1, .w1s⟩]⟩,
  ⟨"INS_Pp_TAPCFG", 0x80114, [(0x80, 2)], 0x0, none,
   [⟨0, 3, .st⟩, ⟨3, 3, .st⟩, ⟨8, 8, .st⟩]⟩,
  ⟨"INS_Pp_TAPBASE_LO", 0x80118, [(0x80, 2)], 0x0, some 0x4,
   [⟨12, 20, .rw⟩]⟩,
  ⟨"INS_Pp_TAPBASE_HI", 0x8011C, [(0x80, 2)], 0x0, none,
   [⟨0, 32, .rw⟩]⟩,
  ⟨"INS_Pp_TAPSIZE", 0x80120, [(0x80, 2)], 0x4, none,
   [⟨0, 4, .rw⟩, ⟨16, 16, .rw⟩]⟩,
  ⟨"INS_Pp_TAPHEAD", 0x80124, [(0x80, 2)], 0x0, none,
   [⟨0, 12, .rw⟩]⟩,
  ⟨"INS_Pp_TAPTAIL", 0x80128, [(0x80, 2)], 0x1000, none,
   [⟨0, 12, .ro⟩, ⟨12, 1, .ro⟩]⟩,
  ⟨"INS_Pp_STAT", 0x8012C, [(0x80, 2)], 0x0, none,
   [⟨0, 1, .ro⟩, ⟨1, 1, .w1c⟩, ⟨2, 1, .w1c⟩, ⟨3, 1, .w1c⟩, ⟨16, 16, .ro⟩]⟩,
  ⟨"INS_Pp_CNT1", 0x80130, [(0x80, 2)], 0x0, none,
   [⟨0, 16, .rc⟩, ⟨16, 16, .rc⟩]⟩,
  ⟨"INS_Pp_CNT2", 0x80134, [(0x80, 2)], 0x0, none,
   [⟨0, 16, .rc⟩, ⟨16, 16, .rc⟩]⟩,
  ⟨"INS_LADn_CFG", 0x80400, [(0x20, 16)], 0x3060700, none,
   [⟨0, 1, .st⟩, ⟨1, 1, .st⟩, ⟨2, 1, .st⟩, ⟨4, 3, .st⟩, ⟨8, 5, .st⟩, ⟨16, 8, .st⟩, ⟨24, 4, .st⟩]⟩,
  ⟨"INS_LADn_X0", 0x80404, [(0x20, 16)], 0x0, none,
   [⟨0, 24, .st⟩]⟩]

/-- Registers of block INS, part 2. -/
def regsIns2 : List RegDef := [
  ⟨"INS_LADn_PXN", 0x80408, [(0x20, 16)], 0x10000, none,
   [⟨0, 24, .st⟩]⟩,
  ⟨"INS_LADn_Y", 0x8040C, [(0x20, 16)], 0x0, none,
   [⟨0, 16, .st⟩, ⟨16, 16, .st⟩]⟩,
  ⟨"INS_LADn_THR", 0x80410, [(0x20, 16)], 0x3018C040, none,
   [⟨0, 8, .st⟩, ⟨8, 8, .st⟩, ⟨16, 8, .st⟩, ⟨24, 8, .st⟩]⟩,
  ⟨"INS_LADn_HEALMAX", 0x80414, [(0x20, 16)], 0x40, none,
   [⟨0, 13, .st⟩, ⟨16, 16, .st⟩]⟩,
  ⟨"INS_LADn_RES0", 0x80418, [(0x20, 16)], 0x0, none,
   [⟨0, 13, .ro⟩, ⟨16, 13, .ro⟩]⟩,
  ⟨"INS_LADn_RES1", 0x8041C, [(0x20, 16)], 0x0, none,
   [⟨0, 13, .ro⟩, ⟨16, 13, .ro⟩]⟩]

/-- Registers of block INS. -/
def regsIns : List RegDef := regsIns0 ++ regsIns1 ++ regsIns2

/-- Registers of block TUN, part 0. -/
def regsTun0 : List RegDef := [
  ⟨"TUN_STAT", 0x90000, [], 0x0, none,
   [⟨0, 5, .w1c⟩, ⟨8, 5, .w1c⟩, ⟨16, 1, .w1c⟩, ⟨17, 1, .ro⟩]⟩,
  ⟨"TUN_SETADDR", 0x90010, [], 0x0, none,
   [⟨0, 16, .rw⟩, ⟨16, 3, .rw⟩, ⟨20, 3, .rw⟩, ⟨31, 1, .rw⟩]⟩,
  ⟨"TUN_SETDATA", 0x90014, [], 0x0, none,
   [⟨0, 24, .rw⟩, ⟨31, 1, .rw⟩]⟩,
  ⟨"TUN_DAXw", 0x90020, [(0x4, 4)], 0x0, none,
   [⟨0, 16, .st⟩, ⟨16, 16, .st⟩]⟩,
  ⟨"TUN_IAXw", 0x90030, [(0x4, 4)], 0x0, none,
   [⟨0, 16, .st⟩, ⟨16, 16, .st⟩]⟩,
  ⟨"TUN_NPT", 0x90040, [], 0x11, none,
   [⟨0, 4, .st⟩, ⟨4, 4, .st⟩]⟩,
  ⟨"TUN_CFGc", 0x90100, [(0x20, 5)], 0xA0A0500, none,
   [⟨0, 1, .rw⟩, ⟨8, 8, .rw⟩, ⟨16, 8, .rw⟩, ⟨24, 8, .rw⟩]⟩,
  ⟨"TUN_LIMc", 0x90104, [(0x20, 5)], 0x0, none,
   [⟨0, 16, .rw⟩, ⟨16, 16, .rw⟩]⟩,
  ⟨"TUN_COUNTc", 0x90108, [(0x20, 5)], 0x0, none,
   [⟨0, 32, .ro⟩]⟩,
  ⟨"TUN_LASTc_LO", 0x9010C, [(0x20, 5)], 0x0, some 0x4,
   [⟨0, 32, .ro⟩]⟩,
  ⟨"TUN_LASTc_HI", 0x90110, [(0x20, 5)], 0x0, none,
   [⟨0, 32, .ro⟩]⟩,
  ⟨"TUN_LBOOTc", 0x90114, [(0x20, 5)], 0x0, none,
   [⟨0, 32, .ro⟩]⟩]

/-- Registers of block TUN. -/
def regsTun : List RegDef := regsTun0

/-- Registers of block NVM, part 0. -/
def regsNvm0 : List RegDef := [
  ⟨"NVM_BOOTSTAT", 0xA0000, [], 0x0, none,
   [⟨0, 3, .ro⟩, ⟨3, 1, .ro⟩, ⟨4, 1, .ro⟩, ⟨5, 1, .ro⟩, ⟨8, 4, .ro⟩, ⟨12, 4, .ro⟩, ⟨16, 12, .ro⟩, ⟨28, 4, .ro⟩]⟩,
  ⟨"NVM_BOOTSEL", 0xA0004, [], 0x0, none,
   [⟨0, 2, .rw⟩, ⟨2, 1, .rw⟩]⟩,
  ⟨"NVM_SLOTSTATA", 0xA0008, [], 0x0, none,
   [⟨0, 1, .ro⟩, ⟨1, 1, .ro⟩, ⟨2, 1, .ro⟩, ⟨3, 1, .ro⟩, ⟨8, 4, .ro⟩]⟩,
  ⟨"NVM_SLOTSTATB", 0xA000C, [], 0x0, none,
   [⟨0, 1, .ro⟩, ⟨1, 1, .ro⟩, ⟨2, 1, .ro⟩, ⟨3, 1, .ro⟩, ⟨8, 4, .ro⟩]⟩,
  ⟨"NVM_SLOTGENA", 0xA0010, [], 0x0, none,
   [⟨0, 32, .ro⟩]⟩,
  ⟨"NVM_SLOTGENB", 0xA0014, [], 0x0, none,
   [⟨0, 32, .ro⟩]⟩,
  ⟨"NVM_DEVINFO", 0xA0018, [], 0x0, none,
   [⟨0, 5, .ro⟩, ⟨8, 5, .ro⟩, ⟨16, 1, .ro⟩]⟩,
  ⟨"NVM_CHBOOT", 0xA001C, [], 0x0, none,
   [⟨0, 16, .ro⟩, ⟨16, 16, .ro⟩]⟩,
  ⟨"NVM_CMD", 0xA0030, [], 0x0, none,
   [⟨0, 3, .rw⟩, ⟨3, 1, .rw⟩, ⟨31, 1, .wo⟩]⟩,
  ⟨"NVM_FADDR", 0xA0034, [], 0x0, none,
   [⟨0, 32, .rw⟩]⟩,
  ⟨"NVM_LEN", 0xA0038, [], 0x0, none,
   [⟨0, 32, .rw⟩]⟩,
  ⟨"NVM_HADDR_LO", 0xA003C, [], 0x0, some 0x4,
   [⟨6, 26, .rw⟩]⟩]

/-- Registers of block NVM, part 1. -/
def regsNvm1 : List RegDef := [
  ⟨"NVM_HADDR_HI", 0xA0040, [], 0x0, none,
   [⟨0, 32, .rw⟩]⟩,
  ⟨"NVM_CMDSTAT", 0xA0044, [], 0x0, none,
   [⟨0, 1, .ro⟩, ⟨1, 1, .w1c⟩, ⟨2, 3, .ro⟩, ⟨5, 1, .ro⟩, ⟨8, 24, .ro⟩]⟩]

/-- Registers of block NVM. -/
def regsNvm : List RegDef := regsNvm0 ++ regsNvm1

/-- Registers of block PWR, part 0. -/
def regsPwr0 : List RegDef := [
  ⟨"PWR_MON_STAT", 0xB0000, [], 0x0, none,
   [⟨0, 1, .w1c⟩, ⟨1, 1, .ro⟩, ⟨2, 1, .ro⟩, ⟨3, 1, .ro⟩, ⟨4, 3, .ro⟩]⟩,
  ⟨"PWR_MON_WARN0", 0xB0004, [], 0x6AE02C6, none,
   [⟨0, 12, .rw⟩, ⟨16, 12, .rw⟩]⟩,
  ⟨"PWR_MON_WARN1", 0xB0008, [], 0xC3A, none,
   [⟨0, 12, .rw⟩]⟩,
  ⟨"PWR_MON_CNT", 0xB000C, [], 0x0, none,
   [⟨0, 16, .rc⟩, ⟨16, 16, .rc⟩]⟩,
  ⟨"PWR_MON_FLUSH", 0xB0010, [], 0x0, none,
   [⟨0, 8, .ro⟩, ⟨8, 16, .ro⟩]⟩,
  ⟨"PWR_DOMON", 0xB0100, [], 0x0, none,
   [⟨0, 24, .wo⟩]⟩,
  ⟨"PWR_DOMOFF", 0xB0104, [], 0x0, none,
   [⟨0, 24, .wo⟩]⟩,
  ⟨"PWR_DOMREF", 0xB0108, [], 0x0, none,
   [⟨0, 24, .w1c⟩, ⟨24, 4, .ro⟩]⟩,
  ⟨"PWR_STBY", 0xB0110, [], 0x0, none,
   [⟨0, 16, .wo⟩]⟩,
  ⟨"PWR_WAKECFG", 0xB0114, [], 0x1, none,
   [⟨0, 1, .rw⟩, ⟨1, 1, .rw⟩]⟩,
  ⟨"PWR_WAKETMR", 0xB0118, [], 0x0, none,
   [⟨0, 32, .rw⟩]⟩,
  ⟨"PWR_WAKESRC", 0xB011C, [], 0x0, none,
   [⟨0, 1, .w1c⟩, ⟨1, 1, .w1c⟩, ⟨2, 1, .w1c⟩]⟩]

/-- Registers of block PWR. -/
def regsPwr : List RegDef := regsPwr0

/-- Registers of block WRK, part 0. -/
def regsWrk0 : List RegDef := [
  ⟨"WRK_CTRL", 0xC0000, [], 0x0, none,
   [⟨0, 1, .rw⟩]⟩,
  ⟨"WRK_STAT", 0xC0004, [], 0x0, none,
   [⟨0, 16, .ro⟩, ⟨16, 16, .ro⟩]⟩,
  ⟨"WRK_SCRn_BASE_LO", 0xC0100, [(0x40, 16)], 0x0, some 0x4,
   [⟨12, 20, .rw⟩]⟩,
  ⟨"WRK_SCRn_BASE_HI", 0xC0104, [(0x40, 16)], 0x0, none,
   [⟨0, 32, .rw⟩]⟩,
  ⟨"WRK_SCRn_SIZE", 0xC0108, [(0x40, 16)], 0x404, none,
   [⟨0, 4, .rw⟩, ⟨8, 4, .rw⟩]⟩,
  ⟨"WRK_SCRn_PIDX", 0xC010C, [(0x40, 16)], 0x0, none,
   [⟨0, 12, .rw⟩]⟩,
  ⟨"WRK_SCRn_CIDX", 0xC0110, [(0x40, 16)], 0x0, none,
   [⟨0, 12, .ro⟩]⟩,
  ⟨"WRK_CMPn_BASE_LO", 0xC0114, [(0x40, 16)], 0x0, some 0x4,
   [⟨12, 20, .rw⟩]⟩,
  ⟨"WRK_CMPn_BASE_HI", 0xC0118, [(0x40, 16)], 0x0, none,
   [⟨0, 32, .rw⟩]⟩,
  ⟨"WRK_CMPn_HEAD", 0xC011C, [(0x40, 16)], 0x0, none,
   [⟨0, 12, .rw⟩]⟩,
  ⟨"WRK_CMPn_TAIL", 0xC0120, [(0x40, 16)], 0x1000, none,
   [⟨0, 12, .ro⟩, ⟨12, 1, .ro⟩]⟩,
  ⟨"WRK_SCRn_CMD", 0xC0124, [(0x40, 16)], 0x0, none,
   [⟨0, 4, .wo⟩]⟩]

/-- Registers of block WRK, part 1. -/
def regsWrk1 : List RegDef := [
  ⟨"WRK_SCRn_ARG_SEQ", 0xC0128, [(0x40, 16)], 0x0, none,
   [⟨0, 32, .rw⟩]⟩,
  ⟨"WRK_SCRn_ARG_ADDR_LO", 0xC012C, [(0x40, 16)], 0x0, some 0x4,
   [⟨0, 32, .rw⟩]⟩,
  ⟨"WRK_SCRn_ARG_ADDR_HI", 0xC0130, [(0x40, 16)], 0x0, none,
   [⟨0, 32, .rw⟩]⟩,
  ⟨"WRK_SCRn_STAT", 0xC0134, [(0x40, 16)], 0x0, none,
   [⟨0, 2, .ro⟩, ⟨2, 3, .ro⟩, ⟨5, 1, .ro⟩, ⟨6, 2, .ro⟩, ⟨8, 7, .ro⟩]⟩,
  ⟨"WRK_SCRn_LASTSEQ", 0xC0138, [(0x40, 16)], 0x0, none,
   [⟨0, 32, .ro⟩]⟩]

/-- Registers of block WRK. -/
def regsWrk : List RegDef := regsWrk0 ++ regsWrk1

/-- Registers of block PROT, part 0. -/
def regsProt0 : List RegDef := [
  ⟨"PROT_ROLE", 0xD0000, [], 0x0, none,
   [⟨0, 1, .st⟩, ⟨1, 1, .st⟩, ⟨2, 1, .st⟩, ⟨3, 1, .st⟩]⟩,
  ⟨"PROT_CFG", 0xD0004, [], 0x0, none,
   [⟨0, 1, .st⟩, ⟨1, 1, .st⟩, ⟨2, 2, .st⟩, ⟨4, 2, .st⟩, ⟨8, 8, .st⟩]⟩,
  ⟨"PROT_STAT", 0xD0008, [], 0x0, none,
   [⟨0, 1, .ro⟩, ⟨1, 4, .ro⟩, ⟨5, 2, .ro⟩, ⟨8, 1, .w1c⟩, ⟨9, 1, .w1c⟩, ⟨10, 1, .w1c⟩, ⟨11, 1, .w1c⟩, ⟨12, 1, .ro⟩]⟩,
  ⟨"PROT_CFMTX", 0xD000C, [], 0x0, none,
   [⟨0, 4, .rw⟩]⟩,
  ⟨"PROT_CFM_LO", 0xD0010, [], 0x0, some 0x4,
   [⟨0, 32, .rw⟩]⟩,
  ⟨"PROT_CFM_HI", 0xD0014, [], 0x0, none,
   [⟨0, 32, .rw⟩]⟩,
  ⟨"PROT_CFMRES", 0xD0018, [], 0x0, none,
   [⟨0, 2, .ro⟩]⟩,
  ⟨"PROT_SAFEREQ", 0xD001C, [], 0x0, none,
   [⟨0, 16, .wo⟩]⟩,
  ⟨"PROT_SPCNT", 0xD0020, [], 0x0, none,
   [⟨0, 16, .rc⟩, ⟨16, 16, .rc⟩]⟩]

/-- Registers of block PROT. -/
def regsProt : List RegDef := regsProt0

/-- Registers of block EXP, part 0. -/
def regsExp0 : List RegDef := [
  ⟨"WRK_EXP_STOP", 0xE0000, [], 0x0, none,
   [⟨0, 16, .wo⟩]⟩,
  ⟨"WRK_EXP_INH", 0xE0004, [], 0x0, none,
   [⟨0, 16, .wo⟩]⟩,
  ⟨"WRK_EXP_FETCH", 0xE0008, [], 0x0, none,
   [⟨0, 1, .wo⟩]⟩,
  ⟨"WRK_EXP_SAFE", 0xE000C, [], 0x0, none,
   [⟨0, 16, .wo⟩]⟩,
  ⟨"WRK_EXP_LATCH", 0xE0010, [], 0x0, none,
   [⟨0, 16, .w1c⟩, ⟨16, 16, .w1c⟩]⟩,
  ⟨"WRK_EXP_CNT", 0xE0014, [], 0x0, none,
   [⟨0, 16, .rc⟩, ⟨16, 16, .rc⟩]⟩]

/-- Registers of block EXP. -/
def regsExp : List RegDef := regsExp0

/-- Registers of block IMG, part 0. -/
def regsImg0 : List RegDef := [
  ⟨"CHn_IMG_GEOM", 0x1010000, [(0x100000, 16)], 0x71000, none,
   [⟨0, 13, .st⟩, ⟨16, 3, .st⟩]⟩,
  ⟨"CHn_IMG_CTRL", 0x1010004, [(0x100000, 16)], 0x4008, none,
   [⟨0, 6, .st⟩, ⟨8, 1, .st⟩, ⟨12, 4, .st⟩]⟩,
  ⟨"CHn_IMG_BANK", 0x1010008, [(0x100000, 16)], 0x0, none,
   [⟨0, 1, .st⟩, ⟨1, 1, .st⟩, ⟨2, 1, .st⟩, ⟨3, 1, .st⟩, ⟨4, 1, .st⟩]⟩,
  ⟨"CHn_IMG_SADDLE", 0x101000C, [(0x100000, 16)], 0x0, none,
   [⟨0, 9, .st⟩, ⟨16, 9, .st⟩]⟩,
  ⟨"CHn_IMG_CMPW", 0x1010010, [(0x100000, 16)], 0x0, none,
   [⟨0, 8, .st⟩, ⟨8, 8, .st⟩]⟩,
  ⟨"CHn_IMG_MTXGEOMm", 0x1010020, [(0x100000, 16), (0x8, 4)], 0x1FF01FF, none,
   [⟨0, 9, .st⟩, ⟨16, 9, .st⟩]⟩,
  ⟨"CHn_IMG_MTXOFFm", 0x1010024, [(0x100000, 16), (0x8, 4)], 0x0, none,
   [⟨0, 9, .st⟩, ⟨16, 9, .st⟩]⟩,
  ⟨"CHn_IMG_PXOFFq", 0x1010040, [(0x100000, 16), (0x4, 4)], 0x0, none,
   [⟨0, 8, .st⟩, ⟨8, 8, .st⟩, ⟨16, 8, .st⟩, ⟨24, 8, .st⟩]⟩,
  ⟨"CHn_IMG_PASSCFG", 0x1010050, [(0x100000, 16)], 0x0, none,
   [⟨0, 8, .st⟩, ⟨8, 1, .st⟩]⟩,
  ⟨"CHn_IMG_PIPESTAT", 0x1010060, [(0x100000, 16)], 0x0, none,
   [⟨0, 1, .ro⟩, ⟨1, 1, .ro⟩, ⟨4, 1, .w1s⟩, ⟨5, 1, .w1s⟩, ⟨8, 4, .ro⟩, ⟨12, 4, .ro⟩, ⟨16, 1, .wo⟩]⟩,
  ⟨"CHn_IMG_RECOMP", 0x1010064, [(0x100000, 16)], 0x0, none,
   [⟨0, 16, .rc⟩, ⟨16, 16, .rc⟩]⟩,
  ⟨"CHn_IMG_STAT", 0x1010068, [(0x100000, 16)], 0x0, none,
   [⟨0, 1, .w1c⟩, ⟨1, 1, .w1c⟩, ⟨2, 1, .w1c⟩, ⟨3, 1, .w1c⟩, ⟨8, 6, .ro⟩]⟩]

/-- Registers of block IMG, part 1. -/
def regsImg1 : List RegDef := [
  ⟨"CHn_IMG_ECC", 0x101006C, [(0x100000, 16)], 0x0, none,
   [⟨0, 16, .rc⟩, ⟨16, 16, .rc⟩]⟩,
  ⟨"CHn_IMG_TLD_ADDR_LO", 0x1010070, [(0x100000, 16)], 0x0, some 0x4,
   [⟨6, 26, .rw⟩]⟩,
  ⟨"CHn_IMG_TLD_ADDR_HI", 0x1010074, [(0x100000, 16)], 0x0, none,
   [⟨0, 32, .rw⟩]⟩,
  ⟨"CHn_IMG_TLD_CTRL", 0x1010078, [(0x100000, 16)], 0x0, none,
   [⟨0, 10, .rw⟩, ⟨10, 2, .rw⟩, ⟨12, 1, .rw⟩, ⟨31, 1, .wo⟩]⟩,
  ⟨"CHn_IMG_TLD_STAT", 0x101007C, [(0x100000, 16)], 0x0, none,
   [⟨0, 1, .ro⟩, ⟨1, 2, .ro⟩, ⟨3, 10, .ro⟩]⟩]

/-- Registers of block IMG. -/
def regsImg : List RegDef := regsImg0 ++ regsImg1

/-- Registers of block WAV, part 0. -/
def regsWav0 : List RegDef := [
  ⟨"CHn_WAV_CTRL", 0x1020000, [(0x100000, 16)], 0xA00, none,
   [⟨0, 1, .st⟩, ⟨1, 1, .st⟩, ⟨8, 8, .st⟩]⟩,
  ⟨"CHn_WAV_DLY", 0x1020004, [(0x100000, 16)], 0x0, none,
   [⟨0, 12, .st⟩, ⟨16, 12, .st⟩]⟩,
  ⟨"CHn_WAV_BANK", 0x1020008, [(0x100000, 16)], 0x0, none,
   [⟨0, 1, .st⟩]⟩,
  ⟨"CHn_WAV_SEL", 0x102000C, [(0x100000, 16)], 0x0, none,
   [⟨0, 2, .st⟩, ⟨4, 1, .st⟩]⟩,
  ⟨"CHn_WAV_PASSTAB", 0x1020010, [(0x100000, 16)], 0x0, none,
   [⟨0, 32, .st⟩]⟩,
  ⟨"CHn_WAV_REST", 0x1020014, [(0x100000, 16)], 0x0, none,
   [⟨0, 16, .st⟩, ⟨16, 16, .st⟩]⟩,
  ⟨"CHn_WAV_AMP", 0x1020018, [(0x100000, 16)], 0x40004000, none,
   [⟨0, 16, .st⟩, ⟨16, 16, .st⟩]⟩,
  ⟨"CHn_WAV_SCALE", 0x102001C, [(0x100000, 16)], 0x40004000, none,
   [⟨0, 16, .ro⟩, ⟨16, 16, .ro⟩]⟩,
  ⟨"CHn_WAV_WFB", 0x1020020, [(0x100000, 16)], 0x0, none,
   [⟨0, 1, .st⟩, ⟨1, 1, .st⟩, ⟨2, 2, .st⟩, ⟨4, 4, .st⟩]⟩,
  ⟨"CHn_WAV_WFBWIN", 0x1020024, [(0x100000, 16)], 0xFFF0000, none,
   [⟨0, 12, .st⟩, ⟨16, 12, .st⟩]⟩,
  ⟨"CHn_WAV_WFBTGT", 0x1020028, [(0x100000, 16)], 0x1000000, none,
   [⟨0, 12, .st⟩, ⟨16, 12, .st⟩]⟩,
  ⟨"CHn_WAV_WFBLIM", 0x102002C, [(0x100000, 16)], 0x60002000, none,
   [⟨0, 16, .st⟩, ⟨16, 16, .st⟩]⟩]

/-- Registers of block WAV, part 1. -/
def regsWav1 : List RegDef := [
  ⟨"CHn_WAV_WFBPK", 0x1020030, [(0x100000, 16)], 0x0, none,
   [⟨0, 16, .ro⟩, ⟨16, 16, .rc⟩]⟩,
  ⟨"CHn_WAV_STAT", 0x1020034, [(0x100000, 16)], 0x0, none,
   [⟨0, 1, .w1c⟩, ⟨1, 1, .w1c⟩, ⟨2, 1, .w1c⟩, ⟨3, 1, .w1c⟩, ⟨4, 1, .ro⟩, ⟨16, 14, .ro⟩]⟩]

/-- Registers of block WAV. -/
def regsWav : List RegDef := regsWav0 ++ regsWav1

/-- Registers of block FT, part 0. -/
def regsFt0 : List RegDef := [
  ⟨"CHn_FT_CTRL", 0x1030000, [(0x100000, 16)], 0x400, none,
   [⟨0, 1, .st⟩, ⟨1, 3, .st⟩, ⟨4, 1, .st⟩, ⟨5, 1, .st⟩, ⟨8, 8, .st⟩]⟩,
  ⟨"CHn_FT_PITCH_LO", 0x1030004, [(0x100000, 16)], 0x0, some 0x4,
   [⟨0, 32, .st⟩]⟩,
  ⟨"CHn_FT_PITCH_HI", 0x1030008, [(0x100000, 16)], 0x1, none,
   [⟨0, 32, .st⟩]⟩,
  ⟨"CHn_FT_TOPOFS_LO", 0x103000C, [(0x100000, 16)], 0x0, some 0x4,
   [⟨0, 32, .st⟩]⟩,
  ⟨"CHn_FT_TOPOFS_HI", 0x1030010, [(0x100000, 16)], 0x0, none,
   [⟨0, 32, .st⟩]⟩,
  ⟨"CHn_FT_PAGE", 0x1030014, [(0x100000, 16)], 0x0, none,
   [⟨0, 6, .st⟩]⟩,
  ⟨"CHn_FT_SOS", 0x1030018, [(0x100000, 16)], 0x200, none,
   [⟨0, 3, .st⟩, ⟨3, 1, .st⟩, ⟨4, 3, .st⟩, ⟨7, 1, .st⟩, ⟨8, 8, .st⟩]⟩,
  ⟨"CHn_FT_SOSOFSF_LO", 0x103001C, [(0x100000, 16)], 0x0, some 0x4,
   [⟨0, 32, .st⟩]⟩,
  ⟨"CHn_FT_SOSOFSF_HI", 0x1030020, [(0x100000, 16)], 0x0, none,
   [⟨0, 32, .st⟩]⟩,
  ⟨"CHn_FT_SOSOFSB_LO", 0x1030024, [(0x100000, 16)], 0x0, some 0x4,
   [⟨0, 32, .st⟩]⟩,
  ⟨"CHn_FT_SOSOFSB_HI", 0x1030028, [(0x100000, 16)], 0x0, none,
   [⟨0, 32, .st⟩]⟩,
  ⟨"CHn_FT_FDLY", 0x103002C, [(0x100000, 16)], 0x0, none,
   [⟨0, 12, .st⟩, ⟨16, 12, .st⟩]⟩]

/-- Registers of block FT, part 1. -/
def regsFt1 : List RegDef := [
  ⟨"CHn_FT_RESOFS_LO", 0x1030030, [(0x100000, 16)], 0x0, some 0x4,
   [⟨0, 32, .st⟩]⟩,
  ⟨"CHn_FT_RESOFS_HI", 0x1030034, [(0x100000, 16)], 0x0, none,
   [⟨0, 32, .st⟩]⟩,
  ⟨"CHn_FT_ROWDLYr", 0x1030040, [(0x100000, 16), (0x4, 8)], 0x0, none,
   [⟨0, 12, .st⟩, ⟨16, 12, .st⟩]⟩,
  ⟨"CHn_FT_STAT", 0x1030060, [(0x100000, 16)], 0x0, none,
   [⟨0, 2, .ro⟩, ⟨2, 1, .ro⟩, ⟨3, 1, .ro⟩, ⟨4, 1, .ro⟩, ⟨8, 1, .w1c⟩, ⟨9, 1, .w1c⟩]⟩,
  ⟨"CHn_FT_NEXT_LO", 0x1030064, [(0x100000, 16)], 0x0, some 0x4,
   [⟨0, 16, .ro⟩, ⟨16, 16, .ro⟩]⟩,
  ⟨"CHn_FT_NEXT_HI", 0x1030068, [(0x100000, 16)], 0x0, none,
   [⟨0, 32, .ro⟩]⟩,
  ⟨"CHn_FT_HWM_LO", 0x103006C, [(0x100000, 16)], 0x0, some 0x4,
   [⟨0, 32, .ro⟩]⟩,
  ⟨"CHn_FT_HWM_HI", 0x1030070, [(0x100000, 16)], 0x0, none,
   [⟨0, 16, .ro⟩, ⟨16, 16, .ro⟩]⟩,
  ⟨"CHn_FT_PERIOD", 0x1030074, [(0x100000, 16)], 0xFFFFFF, none,
   [⟨0, 24, .ro⟩]⟩,
  ⟨"CHn_FT_CNT", 0x1030078, [(0x100000, 16)], 0x0, none,
   [⟨0, 16, .rc⟩, ⟨16, 16, .rc⟩]⟩,
  ⟨"CHn_FT_LINES", 0x103007C, [(0x100000, 16)], 0x0, none,
   [⟨0, 32, .ro⟩]⟩]

/-- Registers of block FT. -/
def regsFt : List RegDef := regsFt0 ++ regsFt1

/-- Registers of block BRG, part 0. -/
def regsBrg0 : List RegDef := [
  ⟨"CHn_BRG_CTRL", 0x1040000, [(0x100000, 16)], 0x32, none,
   [⟨0, 1, .rw⟩, ⟨1, 1, .rw⟩, ⟨4, 3, .rw⟩]⟩,
  ⟨"CHn_BRG_HPWR", 0x1040004, [(0x100000, 16)], 0x0, none,
   [⟨0, 1, .st⟩]⟩,
  ⟨"CHn_BRG_HEXP", 0x1040008, [(0x100000, 16)], 0x0, none,
   [⟨0, 16, .rw⟩, ⟨16, 1, .rw⟩]⟩,
  ⟨"CHn_BRG_STAT", 0x104000C, [(0x100000, 16)], 0x0, none,
   [⟨0, 3, .ro⟩, ⟨3, 1, .ro⟩, ⟨4, 1, .ro⟩, ⟨5, 1, .ro⟩, ⟨8, 3, .ro⟩, ⟨16, 8, .ro⟩, ⟨24, 1, .w1c⟩, ⟨25, 1, .w1c⟩]⟩,
  ⟨"CHn_BRG_IDSTAT", 0x1040010, [(0x100000, 16)], 0x0, none,
   [⟨0, 1, .ro⟩, ⟨1, 1, .ro⟩, ⟨2, 1, .ro⟩, ⟨3, 1, .ro⟩, ⟨4, 1, .ro⟩, ⟨5, 1, .ro⟩, ⟨6, 1, .ro⟩]⟩,
  ⟨"CHn_BRG_CNT1", 0x1040014, [(0x100000, 16)], 0x0, none,
   [⟨0, 16, .rc⟩, ⟨16, 16, .rc⟩]⟩,
  ⟨"CHn_BRG_CNT2", 0x1040018, [(0x100000, 16)], 0x0, none,
   [⟨0, 16, .rc⟩, ⟨16, 8, .rc⟩, ⟨24, 8, .rc⟩]⟩,
  ⟨"CHn_BRG_STATREQ", 0x1040020, [(0x100000, 16)], 0x0, none,
   [⟨0, 4, .rw⟩, ⟨29, 1, .w1c⟩, ⟨30, 1, .ro⟩, ⟨31, 1, .wo⟩]⟩,
  ⟨"CHn_BRG_STATPGw", 0x1040024, [(0x100000, 16), (0x4, 4)], 0x0, none,
   [⟨0, 32, .ro⟩]⟩,
  ⟨"CHn_BRG_HCFG_ADDR", 0x1040040, [(0x100000, 16)], 0x1000, none,
   [⟨2, 14, .rw⟩]⟩,
  ⟨"CHn_BRG_HCFG_DATA", 0x1040044, [(0x100000, 16)], 0x0, none,
   [⟨0, 32, .wo⟩]⟩,
  ⟨"CHn_BRG_HCFG_STAT", 0x1040048, [(0x100000, 16)], 0x0, none,
   [⟨0, 1, .ro⟩, ⟨1, 2, .ro⟩]⟩]

/-- Registers of block BRG. -/
def regsBrg : List RegDef := regsBrg0

/-- Registers of block DUT, part 0. -/
def regsDut0 : List RegDef := [
  ⟨"CHn_DUT_CTRL", 0x1050000, [(0x100000, 16)], 0x1, none,
   [⟨0, 1, .st⟩, ⟨1, 1, .st⟩, ⟨2, 1, .st⟩]⟩,
  ⟨"CHn_DUT_WEIGHT", 0x1050004, [(0x100000, 16)], 0x321, none,
   [⟨0, 4, .st⟩, ⟨4, 4, .st⟩, ⟨8, 4, .st⟩]⟩,
  ⟨"CHn_DUT_NWIN", 0x1050008, [(0x100000, 16)], 0xFF, none,
   [⟨0, 12, .st⟩]⟩,
  ⟨"CHn_DUT_NLIM", 0x105000C, [(0x100000, 16)], 0xFFFF, none,
   [⟨0, 16, .st⟩]⟩,
  ⟨"CHn_DUT_HWIN", 0x1050010, [(0x100000, 16)], 0x3FF, none,
   [⟨0, 16, .st⟩]⟩,
  ⟨"CHn_DUT_HLIM", 0x1050014, [(0x100000, 16)], 0xFFFFFFFF, none,
   [⟨0, 32, .st⟩]⟩,
  ⟨"CHn_DUT_HCOUNT", 0x1050018, [(0x100000, 16)], 0x0, none,
   [⟨0, 32, .ro⟩]⟩,
  ⟨"CHn_DUT_NACT", 0x105001C, [(0x100000, 16)], 0x0, none,
   [⟨0, 16, .rc⟩, ⟨16, 16, .rc⟩]⟩,
  ⟨"CHn_DUT_HACT", 0x1050020, [(0x100000, 16)], 0x0, none,
   [⟨0, 16, .rc⟩, ⟨16, 16, .rc⟩]⟩,
  ⟨"CHn_DUT_STAT", 0x1050024, [(0x100000, 16)], 0x0, none,
   [⟨0, 1, .w1c⟩, ⟨1, 1, .w1c⟩, ⟨2, 1, .w1c⟩]⟩]

/-- Registers of block DUT. -/
def regsDut : List RegDef := regsDut0

/-- Registers of block LED, part 0. -/
def regsLed0 : List RegDef := [
  ⟨"CHn_LED_SEQ", 0x1060000, [(0x100000, 16)], 0x0, some 0x4,
   [⟨0, 32, .ro⟩]⟩,
  ⟨"CHn_LED_LINE", 0x1060004, [(0x100000, 16)], 0x0, none,
   [⟨0, 24, .ro⟩, ⟨24, 2, .ro⟩, ⟨26, 1, .ro⟩, ⟨27, 1, .ro⟩]⟩,
  ⟨"CHn_LED_COUNT", 0x1060008, [(0x100000, 16)], 0x0, none,
   [⟨0, 32, .ro⟩]⟩,
  ⟨"CHn_LED_PSEQ", 0x106000C, [(0x100000, 16)], 0x0, none,
   [⟨0, 32, .ro⟩]⟩,
  ⟨"CHn_LED_PLINE", 0x1060010, [(0x100000, 16)], 0x0, none,
   [⟨0, 24, .ro⟩, ⟨31, 1, .ro⟩]⟩,
  ⟨"CHn_LED_UNC", 0x1060014, [(0x100000, 16)], 0x0, none,
   [⟨0, 8, .ro⟩]⟩,
  ⟨"CHn_LED_FLUSH", 0x1060018, [(0x100000, 16)], 0x0, none,
   [⟨0, 1, .ro⟩, ⟨1, 2, .ro⟩]⟩]

/-- Registers of block LED. -/
def regsLed : List RegDef := regsLed0

/-- The block that a BAR0 offset lies in: 0 to 15 for the 64 KiB blocks of the system region, 16 + s for sub-block s
of a channel window, 99 for the reserved range (R429, R430). -/
def blockOf (a : Nat) : Nat :=
  if a < 0x100000 then a / 0x10000
  else if a < 0x1000000 then 99
  else if a < 0x2000000 then 16 + (a % 0x100000) / 0x10000 else 99

/-- The register definitions of a block. -/
def regsOf (b : Nat) : List RegDef :=
  match b with
  | 0 => regsSys
  | 1 => regsEvt
  | 2 => regsFlt
  | 3 => regsMbx
  | 4 => regsPos
  | 5 => regsCapo
  | 6 => regsThm
  | 7 => regsMot
  | 8 => regsIns
  | 9 => regsTun
  | 10 => regsNvm
  | 11 => regsPwr
  | 12 => regsWrk
  | 13 => regsProt
  | 14 => regsExp
  | 17 => regsImg
  | 18 => regsWav
  | 19 => regsFt
  | 20 => regsBrg
  | 21 => regsDut
  | 22 => regsLed
  | _ => []

/-- Whether an offset is one of the registers of a definition's index ranges. -/
def dimsHit : List (Nat × Nat) → Nat → Bool
  | [], off => off == 0
  | (st, c) :: ds, off => off / st < c && dimsHit ds (off % st)

/-- Whether offset `a` is a register of definition `r`. -/
def RegDef.hit (r : RegDef) (a : Nat) : Bool := r.base ≤ a && dimsHit r.dims (a - r.base)

/-- The definition of the register at BAR0 offset `a`, if one lies there. -/
def regAt (a : Nat) : Option RegDef := (regsOf (blockOf a)).find? (fun r => r.hit a)

end Sys2Proof.Machine
end

