-- ==== Sys2Proof/Machine/State.lean ====
section
/-! DEFINITION. The state of the UX1640 as plain data: the register space in one canonical store, and beside it the
state the chapters give each block that no register shows. -/

namespace Sys2Proof.Machine

/-- A happening on the bus or the pins that a command causes. The list of them is the model's own field: it makes what
leaves the block comparable. -/
inductive Output where
  /-- An MSI-X message of function 0 or 1 on a vector (R306). -/
  | msix (fn vec : Nat)
  /-- A write to host memory: a completion, tap or result record (R48, R225, R232). -/
  | hostWrite (addr : Nat) (bytes : List Byte)
  /-- The word a register read returned to a master. -/
  | read (m : Master) (addr : Nat) (w : Word)
  /-- A request completed with Completer Abort (R302) or Unsupported Request (R304). -/
  | completerAbort | unsupported
  /-- A configuration request completed with Configuration Request Retry Status (R372). -/
  | configRetry
  /-- A bus error to an internal master (R316). -/
  | busError (p : Port)
  /-- The word a mailbox read returned to a port. -/
  | mbxRead (p : Port) (m : Nat) (w : Word)
  /-- A FIRE pulse and a SEG pulse of channel n (R148, R93). -/
  | fire (n : Nat) | seg (n : Nat)
  /-- A waveform frame on port p of channel n with phase phi (R96), and for each sample what D0, D1 and FRM carry (R94). -/
  | wave (n p tab phi : Nat) (lanes : List (Nat × Nat × Nat))
  /-- Every enabled port of channel n is at REST from the sample whose port time is t on, its frame cut off (R98). -/
  | cut (n t : Nat)
  /-- A Bridge link frame of channel n whose first bit time begins at tick t (R166, R168). -/
  | frame (n t : Nat) (bytes : List Byte)
  /-- The forward lanes of channel n: CHn_BCLK starts and every lane and CHn_BFRM carry the training word (R183). -/
  | train (n word : Nat)
  /-- The reply bytes 20 to 35 of a Safety port transaction (R341). -/
  | spReply (bytes : List Byte)
  /-- A power management event of function 0 or 1 (R320). -/
  | pme (fn : Nat)
  /-- A count on emulation output m, forward or backward (R136), and its Z pulse. -/
  | emu (m : Nat) (fwd : Bool) | emuZ (m : Nat)
  /-- A commit strobe on the capo commit lines for slot t (R205). -/
  | commit (t : Nat)
  /-- A step pulse of axis a with its direction level (R293). -/
  | step (a : Nat) (dir : Bool)
  /-- The bits shifted out at TDO, the first one first (R390). -/
  | tdo (bits : List Bool)
deriving DecidableEq, Repr

/-! ## Work, ledger and journal (chapter 2) -/

/-- A scroll descriptor that has passed its field checks (R36). -/
structure Desc where
  seq : Nat
  lines : Nat
  fmt : Nat
  mtx : Nat
  pass : Nat
  pstart : Bool
  pend : Bool
  irq : Bool
  arm : Nat
  buf : Nat
  stride : Nat
  width : Nat
  tag : Nat
deriving DecidableEq, Repr

/-- The states of an accepted band (R43). -/
inductive BandState where
  | accepted | loading | ready | released | firing | done | retired
deriving DecidableEq, Repr

/-- A band accepted and not yet retired: its descriptor, the state of R43, the page line count at its line 0 (R53), and
what the channel has counted of it. `img` holds the image lines in channel memory from line `first` on; `failed` says that its image DMA
has failed three times and that it is not READY since (R56). -/
structure Band where
  desc : Desc
  state : BandState
  l0 : Nat
  page : Nat
  accTime : Nat
  accBoot : Nat
  abandoned : Bool
  reinst : Bool
  fired : Nat
  npart : Nat
  hadPart : Bool
  lastTime : Nat
  lastBoot : Nat
  first : Nat
  img : List (List Byte)
  fails : Nat
  failTick : Option Nat
  needRefetch : Bool
  failed : Bool
deriving DecidableEq, Repr

/-- A completion record that is due and not yet written (R48, R49): of a band, of a rejected descriptor, or re-posted
after a reset (R55). -/
structure DueRec where
  seq : Nat
  status : Nat
  reject : Bool
  repost : Bool
  irq : Bool
  resumed : Bool
  npart : Nat
  nfired : Nat
  boot : Nat
  tag : Nat
  time : Nat
deriving DecidableEq, Repr

/-- A band record of the journal (R53). `time` and `boot` are TSTAMP and BOOT of its completion record (DEDUCED, log 22). -/
structure BandRec where
  time : Nat
  boot : Nat
  desc : Desc
  accTime : Nat
  accBoot : Nat
  l0 : Nat
  state : BandState
  status : Nat
  npart : Nat
  nfired : Nat
deriving DecidableEq, Repr

/-- A position: the last ledger entry's band, line and state, with DIR and SOSK (R435). -/
structure Posn where
  seq : Nat
  line : Nat
  state : Nat
  dir : Bool
  sosk : Bool
deriving DecidableEq, Repr

/-- What a checkpoint slot holds (R54). -/
structure Ckpt where
  pos : Posn
  ackSeq : Nat
  boot : Nat
  time : Nat
  nrate : Nat
deriving DecidableEq, Repr

/-- A channel's part of the journal. `recs` is the rotation of 512 band records, oldest first. `setSeq` is the LASTSEQ
of a SETSEQ given after the newest band record; `closed` says that ABANDON_ALL or SETSEQ closed the page after it. `ckpts` is the rotation of 1,024 checkpoint slots, oldest first,
each four 64-bit words (R54). `flushUnc` and `ckptUnc` count the lines that were uncertain behind the position of the flush and of the
newest checkpoint (R60). -/
structure ChJnl where
  recs : List BandRec
  setSeq : Option Nat
  closed : Bool
  ckpts : List (List (BitVec 64))
  flush : Option (Posn × List (List Word))
  flushUnc : Nat
  ckptUnc : Nat
deriving DecidableEq, Repr

/-- The channel sequencer's side of the work path. `awaitStart` holds back every record until START after a reset (R55);
`cmpBase`, `cmpLog` and `scrLog` are the ring settings taken at START (R32). `decPage` and `decL` tell the page and the
count of its lines decided, `firedPage` and `firedL` the same of lines fired or resolved. `lastRec` is the record written last, `rewrite` one that
was rejected, with the tick of its last writing (R304). `refire` is the line to be fired first on RESUME and `skipTo` the page and
count of its lines to go on with after it, where lines behind it have been skipped meanwhile (R58); `skipKind` holds the direction and
arming kind of that page, where it is another page than the line's (R157). `boots` is SYS_BOOTCNT at the last 256 ledger entries, newest
first (R48). `waitCmd` is the command that
waits, with its two arguments: for the sequencer (R57), or for non-volatile writes (R348). -/
structure Work where
  awaitStart : Bool
  cmpBase : Nat
  cmpLog : Nat
  scrLog : Nat
  decPage : Nat
  decL : Nat
  firedPage : Nat
  firedL : Nat
  bands : List Band
  fetched : Option (List Byte)
  accepting : Option Desc
  accFailTick : Option Nat
  due : List DueRec
  unread : List (Nat × Bool)
  lastRec : Option (Nat × List Byte)
  rewrite : Option (Nat × List Byte × Nat)
  ackSeq : Nat
  causes : List Nat
  fetchStop : Bool
  fireTicks : List Nat
  ckptTick : Nat
  refire : Option (Nat × Nat)
  skipTo : Option (Nat × Nat)
  skipKind : Option (Bool × Bool)
  pageNo : Nat
  seqUp : Bool
  waitCmd : Option (Nat × Nat × Nat)
  ledgerValid : Bool
  flushedTo : Nat
  boots : List Nat
deriving DecidableEq, Repr

/-! ## Image path (chapter 3) -/

/-- A line on its way through the path: which line it is, its page line count, its pass, its drop codes, and `back`, the direction it
was screened for. -/
structure Line where
  seq : Nat
  line : Nat
  l : Nat
  page : Nat
  pass : Nat
  codes : List Nat
  passes : List Nat
  single : Bool
  back : Bool
deriving DecidableEq, Repr

/-- Where the screening of the line in the pipes stands (R76, R77, R81; `readmit` waits for the test of R80). -/
inductive Stage where
  | screened | recompute | freshRead | kat | arbitrate | refetch | readmit
deriving DecidableEq, Repr

/-- The line in the pipes: its right codes, the two pipes' outputs, the verdicts of their residue checks, and the stage that goes
on once an image word has been fetched again (R81). -/
structure Job where
  line : Line
  stage : Stage
  outA : List Nat
  outB : List Nat
  resA : Bool
  resB : Bool
  after : Stage
deriving DecidableEq, Repr

/-- A threshold matrix load in progress (R84). -/
structure TableLoad where
  mtx : Nat
  bank : Nat
  rows : Nat
  fails : Nat
  failTick : Option Nat
deriving DecidableEq, Repr

/-- The settings of the image path that went out of effect at the start of page `page` (R85): the channel's registers and tables of
the path, and its threshold matrices, as they were then. -/
structure OldImg where
  page : Nat
  regs : Sparse 32
  mtx : Sparse 32
deriving DecidableEq, Repr

/-- The dead nozzles of a map that is out of effect: lines of page `page` and later are printed by the one after it, from `tick` on,
the FIRE edge of the first of them (R85, R233). -/
structure DeadWas where
  page : Nat
  tick : Option Nat
  dead : List Nat
deriving DecidableEq, Repr

/-- The image path of one channel: how far screening has come (page, and its lines screened; from the pending line if not
`started`), the last page whose line 0 has begun to be screened (R85), the page at whose line 0 a test of R80 is due and has not
ended, the direction screened for, the line in the pipes, the released lines, the threshold
matrices, the (bank, matrix) pairs that are unusable or have had an uncorrectable error (R84, R86), the dead nozzles of the maps
that were in effect before, oldest first (R233), and the settings that lines of earlier pages are
still screened with, oldest first (R21, R85). -/
structure Img where
  scrPage : Nat
  scrL : Nat
  started : Bool
  begun : Nat
  katPage : Option Nat
  scrDir : Bool
  job : Option Job
  released : List Line
  mtx : Sparse 32
  load : Option TableLoad
  badMtx : List (Nat × Nat)
  ueTables : List (Nat × Nat)
  deadWas : List DeadWas
  old : List OldImg
deriving DecidableEq, Repr

/-! ## Waveforms and duty (chapter 4) -/

/-- The firing window of a fired line (R52, R97). -/
structure Win where
  seq : Nat
  line : Nat
  slot : Nat
  fireTick : Nat
  segDly : Nat
  endTick : Nat
  tab : Nat
  bank : Nat
  segDone : Nat
  startTicks : List Nat
deriving DecidableEq, Repr

/-- A waveform frame on a port: the port time of its first sample, and what D0, D1 and FRM carry for each sample until the frame
ends or is cut off (R94, R96, R98). -/
structure PortFrame where
  port : Nat
  start : Nat
  lanes : List (Nat × Nat × Nat)
deriving DecidableEq, Repr

/-- A frame to be measured (R99): the port time of its first sample and that of the next frame, once there is one; whether it
began 0.8 µs or more after the frame before it; and CHn_WAV_WFB, WFBWIN, WFBTGT and WFBLIM as they were for its line (R107). -/
structure Meas where
  start : Nat
  stop : Option Nat
  clean : Bool
  wfb : Word
  win : Word
  tgt : Word
  lim : Word
deriving DecidableEq, Repr

/-- The waveform engine of one channel. `words` are the mask words whose CFG frames are still to be sent or
acknowledged, as (bank, word index); `full` are the banks whose full transfer after UP is not complete (R171). `waveEnd` is the
waveform end of the last fired line (R97), `lastFrameEnd` the port-time end of the frame before it, and `newScale` a
scale that waits for the next frame (R100). `frames` are the frames on the ports, `meas` those to be measured and not yet
measured, oldest first (R99); `peaks` are the frame peaks since the last mean, under CHn_WAV_WFB as `peakCfg`. -/
structure Wav where
  win : Option Win
  gridBase : Nat
  lastFrameEnd : Option Nat
  waveEnd : Option Nat
  newScale : Option Nat
  peaks : List Nat
  words : List (Nat × Nat)
  full : List Nat
  frames : List PortFrame
  meas : List Meas
  peakCfg : Word
deriving DecidableEq, Repr

/-- The duty limiter's decision on one line: what is sent, and what is recorded at its FIRE (R103, R104). -/
structure DutyDec where
  line : Line
  out : List Nat
  nDem : Nat
  nSup : Nat
  lvl : Nat
  t0 : Nat
  first : Bool
deriving DecidableEq, Repr

/-- The duty limiter of one channel: lines counted since base, whether an event was raised in this head window, and the
nozzles whose counter a parity error holds at NLIM. -/
structure Dut where
  count : Nat
  raised : Bool
  dec : Option DutyDec
deriving DecidableEq, Repr

/-! ## Fire timing (chapter 6) -/

/-- A decided line waiting for its FIRE edge (R146, R148): what the duty limiter sent and will charge, whether a
retransmission happened and the position came from the secondary encoder (R50), and DIR and SOSK of its page (R435). -/
structure Decided where
  duty : DutyDec
  fireTick : Nat
  refired : Bool
  retx : Bool
  altEnc : Bool
  dir : Bool
  sosk : Bool
deriving DecidableEq, Repr

/-- The fire timing engine of one channel. `x` is the next line position in print coordinates, 48.32 (R143), `h` the
high-water mark, 48.16; `fwd`, `t1`, `t2`, `tl` are those of R146. `decidedSince` says a line was decided since START or a
re-arm under MARK (R152), `waitMark` that the channel waits to re-arm under MARK (R157). The latches hold an arming event
of each kind (R154), an SOS capture with its direction. `cntHist` keeps the recent positions by tick, newest first, from
which the capture of R153 is taken; `timeOfs` is how far the channel's copy of DEV_TIME lies from it, in ns, and `timeFloor` what
the copy showed at its last realignment (R27; until the first one the copy shows DEV_TIME, DESIGN CHOICE, log 123). `pageDly` holds
the row delays of the pages begun, by page (R158), `armedSince` that a page was armed since START (R437), and `waitArm` that
the pending line is to be re-armed once FIRE_EN = 1 takes effect (R157, R161). -/
structure Ft where
  x : BitVec 80
  h : BitVec 64
  t1 : Nat
  t2 : Nat
  tl : Nat
  fwd : Nat
  armed : Bool
  excursion : Bool
  sosk : Bool
  decidedSince : Bool
  waitMark : Bool
  latchMark : Option (BitVec 48)
  latchSos : Option (BitVec 64 × Bool)
  decided : List Decided
  cntHist : List (Nat × BitVec 64)
  sosTick : Option Nat
  timeOfs : Int
  timeFloor : Nat
  pageDly : List (Nat × List Nat)
  armedSince : Bool
  waitArm : Bool
deriving DecidableEq, Repr

/-! ## Bridge link (chapter 7) -/

/-- A frame on the forward link that awaits its answer (R176): its type, sequence number, header fields and payload, how
often it was retransmitted, when its last bit time ended, the mask words it carries as (bank, word index), and for a CFG
frame from software its address and word. -/
structure Frame where
  typ : Nat
  fsn : Nat
  tab : Nat
  mbank : Nat
  payload : List Byte
  retx : Nat
  endTick : Nat
  masks : List (Nat × Nat)
  soft : Option (Nat × Word)
deriving DecidableEq, Repr

/-- The Bridge link of one channel. A new frame may start from `busyTill` on; `lastStart` is when the last one started. `trdy`
counts the TRDY messages of training, whose phase, start and phase start follow. `soft` is the software CFG write that waits,
`stat` the status page requested. `sent`, `acked` and `retxed` concern the frame of the line the duty limiter has decided.
`trimPend` is a trim read under way, `offPend` a LINK_EN = 0 that waits for the line boundary (R187), `hpwrHalt` a halt under
R185 whose cause persists, `hpenHold` a CHn_HPEN that falls at the line boundary, and `onLanes` the last two frames as (tick of the
first bit time, bytes), newest first. -/
structure Brg where
  outst : Option Frame
  nextFsn : Nat
  busyTill : Nat
  lastStart : Nat
  trdy : Nat
  phase : Nat
  trainTick : Nat
  phaseTick : Nat
  downTick : Nat
  soft : Option (Nat × Word)
  stat : Option Nat
  i2cTries : Nat
  trimPend : Bool
  sent : Bool
  acked : Bool
  retxed : Bool
  offPend : Bool
  hpwrHalt : Bool
  hpenHold : Bool
  onLanes : List (Nat × List Byte)
deriving DecidableEq, Repr

/-- A nozzle test under way (R388): the mailbox and header of its request, when its time limit ends, the nozzle map words from
before and the bank that held them, the frame counts of the ports when the test map applied, and the counts of its reply.
`stage` is 0 until the test map applies, 1 while a ladder is awaited, 2 with the result's round in flight, 3 with the switch back
in flight, 4 when the switch back is due. `silent` says that a restart of the supervisor interrupted it (R386). -/
structure NozTest where
  mbx : Nat
  header : Word
  till : Nat
  saved : List Word
  bank : Nat
  since : List Nat
  back : Nat
  newDead : Nat
  stage : Nat
  silent : Bool
deriving DecidableEq, Repr

/-- What FAB and the channel's own clock keep of one channel (R379 to R388): isolated or not and its work state at isolation, loaded,
the memory lost or not trained at the last CHPOWER, powered off or tested with MEM since isolation, the last CHBIST, a nozzle test,
the protection set-up kept, the sequencer firmware loaded into it (R362, R384); and of its clock: a switch back due at the line
boundary, the memory at its lower rate (R405, R407). -/
structure Iso where
  isolated : Bool
  stateWas : Nat
  untrained : Bool
  fw : List Byte
  loaded : Bool
  memLost : Bool
  offSince : Bool
  bistPass : Nat
  bistFail : Nat
  bistBoot : Nat
  bistTime : Nat
  nozTest : Option NozTest
  kept : List (Nat × Word)
  switchBack : Bool
  memSlow : Bool
deriving DecidableEq, Repr

/-- One head channel. -/
structure Chan where
  work : Work
  img : Img
  wav : Wav
  dut : Dut
  ft : Ft
  brg : Brg
  iso : Iso
deriving DecidableEq, Repr

/-! ## Capo transactions (chapter 8) -/

/-- A staged entry: the register and the word with every bit outside its ST fields 0 (R198, R213). -/
structure Entry where
  addr : Nat
  word : Word
deriving DecidableEq, Repr

/-- What CAPO_TXt registers do not show of a slot: its entries in ascending address order, the participants that have
voted ready, the addresses applied, and the start of its window. `cond` is when its condition was met. -/
structure CapoSlot where
  entries : List Entry
  voted : List Part
  applied : List Nat
  startTick : Nat
  cond : Option Nat
deriving DecidableEq, Repr

/-! ## Host port, events and mailboxes (chapter 13) -/

/-- A sender's view of a mailbox (R314, R323). -/
structure MbxView where
  ackWait : Bool
  aborted : Bool
  ackTmo : Bool
  ovr : Bool
  tag : Nat
  sendTick : Nat
  window : Nat
deriving DecidableEq, Repr

/-- A mailbox: the message held and the lock. `waiting` says that the message waits for SUP to come on (R320), `held` the
replies that the firmware holds until the mailbox is released (R324). Views 0 to 3 are those of PF0, PF1, the supervisor and
the sequencers. -/
structure Mbox where
  full : Bool
  src : Option Port
  len : Nat
  msg : List Word
  lock : Option Port
  waiting : Bool
  held : List (List Word)
  views : Vector MbxView 4
deriving DecidableEq, Repr

/-- The effects merged into one entry of the express queue (R310). -/
structure Merge where
  clr : Nat
  stop : Nat
  inh : Nat
  fetch : Bool
  safe : Bool
deriving DecidableEq, Repr

/-- An entry of the express queue: a write of a register of the page, or merged effects (R309, R310). -/
inductive ExpEntry where
  | write (r : ExpReg) (v : Word)
  | merged (e : Merge)
deriving DecidableEq, Repr

/-- The endpoint: link (`wasUp`: it has been up since HOST came on), Bus Master Enable of PF0, and of both functions the power state
(D3hot or D0), the enable and function mask of MSI-X, the masks and the words of the MSI-X table (4v + i for word i of vector v),
the PBA and the other configuration words (R300, R301); the express queue, oldest first, and the merged effects that wait for a slot
of it (R309, R310). -/
structure Endpoint where
  linkUp : Bool
  wasUp : Bool
  bme : Bool
  d3 : Vector Bool 2
  msixEn : Vector Bool 2
  fnMasked : Vector Bool 2
  vecMasked : Vector (BitVec 512) 2
  pba : Vector (BitVec 512) 2
  cfg : Vector (Sparse 32) 2
  msixTab : Vector (Sparse 32) 2
  expQ : List ExpEntry
  merge : Option Merge
deriving DecidableEq, Repr

/-! ## Faults, power, boot (chapters 14 to 17) -/

/-- The TAP: the instruction in effect, the update latches of the boundary register, bit c being cell c from TDI, and whether EXTEST
has been loaded since the TAP was released (R390, R425). -/
structure Tap where
  instr : TapInstr
  cells : BitVec 604
  extest : Bool
deriving DecidableEq, Repr

/-- The collector's reaction state: the lines holding an S2, S3 or S4 reaction (R330, R333), the channels whose BRG_HALT has
been raised (R178, R332), when a source with a rate limit was last raised, and the TAP, which FLT_SAFE.BSCAN releases (R390). -/
structure Flt where
  s2 : BitVec 64
  s3 : BitVec 64
  s4 : BitVec 64
  brgHalt : BitVec 16
  lastRaise : List (Nat × Nat)
  tap : Tap
deriving DecidableEq, Repr

/-- The Safety port (R341 to R345). -/
structure SpPort where
  last : Option (List Byte × List Byte)
  lastTick : Nat
  running : Bool
  sinceExpiry : Bool
  crcRun : Nat
deriving DecidableEq, Repr

/-- What waits for non-volatile writes to resume (R348): a device reset, the entry to standby, a slot preference. -/
inductive NvWait where
  | deviceReset | standby
  | slotPref (pref : Nat) (once : Bool)
deriving DecidableEq, Repr

/-- The Tuner's sets, its registers and the slot records as the journal holds them while its writes are blocked (R348): what has
been made of them since is not yet written. -/
structure JnlWas where
  sets : Sparse 32
  regs : Sparse 32
  seed : Nat
  failA : Option Nat
  failB : Option Nat
deriving DecidableEq, Repr

/-- Supplies, domain switching, standby and clocks (R346 to R349, R398 to R407). `relTick` is when the internal power-on reset is
released, none while a rail of `broken` is at its brown-out level (R395). `waits` is what waits for non-volatile writes, oldest
first; `jnlWas` is what the journal holds from before they were blocked. `wakeDue` says that WAKE_N woke the device while its entry
to standby waited (R403). -/
structure Pwr where
  ramp : Option (Nat × Bool)
  rampTick : Nat
  queue : List (Nat × Bool)
  nvwBelow : List Rail
  mainUp : Bool
  relTick : Option Nat
  broken : List Rail
  jnlWas : Option JnlWas
  wakeDue : Bool
  supen : Bool
  standby : Bool
  stbyTick : Nat
  flush : Option (Nat × Bool)
  warnTick : Nat
  stopN : Bool
  waits : List NvWait
deriving DecidableEq, Repr

/-! ## Start-up and flash (chapter 15) -/

/-- The steps of start-up (R371, NVM_BOOTSTAT.STATE says the rest). -/
inductive BootPhase where
  /-- Before T0: the internal reset or RESET_N still holds the device. -/
  | held
  /-- The boot ROM runs; headers are still to be read. -/
  | rom
  /-- Sections of a slot are being loaded. -/
  | load (sect : Nat) (tries : Nat)
  /-- Sections loaded and checked; the channels resume. -/
  | resume
  /-- READY. -/
  | ready
  /-- NOIMAGE (R373). -/
  | noImage
deriving DecidableEq, Repr

/-- How the flash controller talks to the device: 1S-1S-1S at 25 MHz, 8D-8D-8D at 200 MHz, 1S-1S-8S at 100 MHz (R357). -/
inductive FlashMode where
  | sdr1 | ddr8 | sdr8
deriving DecidableEq, Repr

/-- A flash command in progress (R376). -/
structure NvmCmd where
  code : Nat
  addr : Nat
  len : Nat
  host : Nat
  slot : Slot
deriving DecidableEq, Repr

/-- Start-up, the flash and the journal's system region. `failA` and `failB` are the header CRCs against which a body
failure is recorded (R368); `seed` is the Tuner seed identifier (R364); `supUp` is false
during a supervisor restart; `fwSup` and `fwSeq` are the firmware in the store of R370. `resetN`
says that T0 is settled: RESET_N has risen after the internal release, or a slot has been chosen. `keyHash` is the key hash in
the one-time fuses, if any (R365). `flashSize`, `flashErase` and `flashSlow` are the attached device (R356, R357): the log2 of its
capacity used is 25 + min 2 flashSize and that of its erase size flashErase mod 32; a slow one reports no 8D-8D-8D read. No command
writes these four. `mode` is the read mode that the boot has taken (R357). -/
structure Boot where
  phase : BootPhase
  t0 : Nat
  slot : Slot
  fellBack : Bool
  chMask : Nat
  trainMask : Nat
  trainTick : Nat
  ssvid : Nat
  ssid : Nat
  flash : Sparse 8
  keyHash : Option (List Byte)
  flashSize : Nat
  flashErase : Nat
  flashSlow : Bool
  mode : FlashMode
  failA : Option Nat
  failB : Option Nat
  pref : Nat
  once : Bool
  bootCnt : Nat
  seed : Nat
  supUp : Bool
  fwSup : List Byte
  fwSeq : List Byte
  cmd : Option NvmCmd
  resetN : Bool
  rstDue : Option (Nat × Nat)
deriving DecidableEq, Repr

/-! ## Position (chapter 5) -/

/-- One signal line in a front end: the sampled level, the accepted level, and the tick of the last accepted change; a
change is pending while the two levels differ (R111). -/
structure EncSig where
  raw : Bool
  acc : Bool
  tick : Nat
deriving DecidableEq, Repr

/-- One encoder in one front end: its lines, its count, the fault count of the window, its own fault declaration, and
for a channel tracker whether it is enabled, valid and failed (R110 to R126). `back` is the direction its last transition set,
counted or not (R113). -/
structure EncFe where
  a : EncSig
  b : EncSig
  z : EncSig
  cnt : BitVec 48
  lastTick : Nat
  fc : Nat
  faulty : Bool
  en : Bool
  valid : Bool
  failed : Bool
  disagree : Nat
  back : Bool
deriving DecidableEq, Repr

/-- What POS alone keeps of an encoder: window starts, the index state and the speed window (R117 to R123).
`idxChecked` is false until the first index event that is captured and not checked; `missed` says a missing index was
reported; `pending` that an index mismatch declared the encoder faulty; `xpend` that a cross-check finding did. -/
structure EncPos where
  winTick : Nat
  idxChecked : Bool
  missed : Bool
  pending : Bool
  xpend : Bool
  edges : Nat
  spdDir : Bool
  spdTick : Nat
  sub : Option (Fin 16)
deriving DecidableEq, Repr

/-- The redundant pair as one tracker keeps it: whether it runs on the secondary, the offset in 48.16, the history of
P − K × S in 48.24 as (tick, value) with the newest first, and the clean counts of the primary (R128, R129). -/
structure PairSt where
  onSec : Bool
  ofs : Int
  hist : List (Nat × Int)
  clean : Nat
deriving DecidableEq, Repr

/-- One emulation output: the accumulator with 24 fraction bits, the output count, the tick of its last count, and
until when Z is high (R136 to R138). -/
structure Emu where
  acc : Int
  out : Int
  lastTick : Nat
  z : Bool
  zTick : Nat
  pend : Bool
deriving DecidableEq, Repr

/-- The position block and the front ends. Index 16 of `fes` and `pairs` is POS itself, 0 to 15 the channels. -/
structure Pos where
  fes : Vector (Vector EncFe 4) 17
  enc : Vector EncPos 4
  pairs : Vector PairSt 17
  fretStage : Vector Word 64
  emu : Vector Emu 4
deriving DecidableEq, Repr


/-! ## Inspection and healing (chapter 9) -/

/-- A complete line of a camera port: its frame, its number, the DEV_TIME of its LVAL rise and its pixels. -/
structure CamLine where
  frame : Nat
  num : Nat
  time : Nat
  px : List (Nat × Nat × Nat)
deriving DecidableEq, Repr

/-- A ladder group in effect at the start of a frame: channel and the words CFG, X0, PXN, Y, THR, HEALMAX. -/
structure LadSet where
  n : Nat
  words : List Word
deriving DecidableEq, Repr

/-- A frame of a port: its number, the words CFG, FRAME, ALIGN, DENS and TAPCFG and the ladder groups in effect at its start
(R221), what it was armed for, the rises of LVAL of its lines (number, DEV_TIME, ink temperatures of the channels), its input lines after the flat field (number, time, pixels), its aligned ink lines (number,
eight planes), its flags SHORT, LONG and TMO, whether it is closed, and the channels already analysed. -/
structure CamFrame where
  frame : Nat
  set : List Word
  lads : List LadSet
  lad : Bool
  dens : Bool
  starts : List (Nat × Nat × List (Option Int))
  seen : List (Nat × Nat × List (Nat × Nat × Nat))
  ink : List (Nat × List (List Nat))
  flags : Nat
  ended : Bool
  ladDone : List Nat
  densDone : List Nat
deriving DecidableEq, Repr

/-- A camera port: when its frame began, the number of the next line and the line being received with the DEV_TIME of its
LVAL rise, its FIFO of complete lines (oldest first), its frames (oldest first), the events raised as (event, frame), and the
frame of the last tap record. `waitLow` follows a frame closed by FTMO. -/
structure CamPort where
  startTick : Nat
  waitLow : Bool
  next : Nat
  cur : Option (Nat × Nat)
  fifo : List CamLine
  frames : List CamFrame
  raised : List (Nat × Nat)
  tapFrame : Option Nat
deriving DecidableEq, Repr

/-- A nozzle's result in a ladder: measured or not, and its class (R230). -/
structure NozRes where
  meas : Bool
  cls : Nat
deriving DecidableEq, Repr

/-- A channel's ladder results that wait for a healing round: which nozzles are measured and live (R233). -/
structure HealRes where
  n : Nat
  res : List NozRes
  live : List Bool
deriving DecidableEq, Repr

/-- The results of one frame that wait for their round: port, frame number, channels. -/
structure HealSet where
  port : Nat
  frame : Nat
  chans : List HealRes
deriving DecidableEq, Repr

/-- A healing round in flight: its slot, its channels, those that have not applied (R235), and the counts of better results
to be kept once it is applied, by 4,096n + j. `test` says it is the round of a nozzle test (R388). -/
structure Round where
  slot : Nat
  chans : List Nat
  waiting : List Nat
  counts : List (Nat × Nat)
  test : Bool
deriving DecidableEq, Repr

/-- The inspection block and the healing loop. `pipeTill` is when the pipeline is free; `better` the count of better results
by 4,096n + j (R233); `counts` the results of each kind since power-on; `tables` the port tables (R224). -/
structure Ins where
  ports : Vector CamPort 2
  lastB : Bool
  pipeTill : Nat
  pend : List HealSet
  better : Sparse 8
  counts : Sparse 32
  rounds : List Round
  tables : Sparse 16
deriving DecidableEq, Repr

/-! ## Tuner (chapter 10) -/

/-- The Tuner: set entries by class, instance and point, the values in effect and their reference temperatures by class
and instance, the next instance of each schedule and when its last turn came, the measurements in progress, the values waiting to be applied with the temperature of each if it has one (R244 to R247), and
the entries stored in this tick, as (tick, key), each by a result or by a write (R253). -/
structure Tun where
  sets : Sparse 32
  eff : Sparse 32
  ref : List (Nat × Int)
  next : Vector Nat 3
  last : Vector (Option Nat) 3
  meas : Vector (Option Nat) 3
  pend : List (Nat × Nat × Word × Option Int)
  skipTick : Vector (Option Nat) 5
  touched : List (Nat × Nat × Bool)
deriving DecidableEq, Repr

/-! ## Temperature (chapter 11) -/

/-- A sensor: whether it has had a value and whether the latest came from its own conversion, the temperature of its latest
own conversion, the deviations of the last
agreeing conversions (newest first, at most 64), its runs of disagreeing and agreeing conversions (R260, R261), and the latest value
that was no suspect conversion's, which levels are judged by while crossings are held (R263). -/
structure Sens where
  has : Bool
  own : Bool
  conv : Option Int
  deltas : List Int
  disagree : Nat
  agree : Nat
  sure : Option Int
deriving DecidableEq, Repr

/-- THM beside its registers: the sensors, the heaters' integrators, since when each heater is held at DMAX below its set
point, each heater's duty before its last update with the tick of that update, the tick of the last STEP change, the orderly shutdown in
progress, and the thermistor tables. -/
structure Thm where
  sens : Vector Sens 48
  integ : Vector Int 16
  satTick : Vector (Option Nat) 16
  pwm : Vector (Nat × Nat) 16
  stepTick : Option Nat
  shutTick : Option Nat
  tables : Sparse 16
deriving DecidableEq, Repr

/-! ## Motion (chapter 12) -/

/-- A coil's chopper: not chopping or with no current to make (`idle`), DRIVE or DECAY, its sign, the tick its phase began,
the length of its last complete DECAY in motion cycles, whether the probe of this DECAY has been made, and its runs of OPEN
and SHORT findings (R291 to R295). `gates` is the state of its bridge last asked for, `was` the gate levels at the tick `gateTick` of
that change (R290). -/
structure CoilSt where
  idle : Bool
  drive : Bool
  neg : Bool
  since : Nat
  prevDecay : Option Nat
  probed : Bool
  openRun : Nat
  shortRun : Nat
  gates : List Bool
  was : List Bool
  gateTick : Nat
deriving DecidableEq, Repr

/-- An axis: the profile of R279 with its history (newest first); the gear position of R282, its remainder, the master count
last seen and the gear position at the last tick; the step input of R286 (`siLast` the last input step, `siT` the interval
before it, `siN` its microsteps, `siB` those still to be issued); XACT at the last tick and the tick of its last change;
`snapped` waits for the arrival of R281; the step output of R293: the output unit last seen, the signed queue, the level of
AXa_G1, the start of the last pulse and the last change of direction; the coils, and `off` after a SHORT (R295). -/
structure Axis where
  x : Int
  v : Int
  hist : List Int
  xg : Int
  r : Int
  gearCnt : BitVec 48
  gearTick : Int
  xs : Int
  siLast : Option Nat
  siT : Nat
  siN : Nat
  siB : Int
  snapped : Bool
  lastX : Int
  moveTick : Nat
  outUnit : Int
  outQ : Int
  outDir : Bool
  outTick : Option Nat
  dirTick : Nat
  coilA : CoilSt
  coilB : CoilSt
  off : Bool
deriving DecidableEq, Repr

/-- MOT: the axes (R275). -/
structure Mot where
  axes : Vector Axis 4
deriving DecidableEq, Repr

/-! ## The whole machine -/

/-- The machine. `pending` is the queue of commands, first in first out. `tick` counts 2.5 ns periods since power-on and
`devBase` is the tick at which DEV_TIME was 0. `free` is the model's own counter of free values and `out` the model's own
record of what left the block. `bar` is the register space and `latch` the high words latched for each master (R13). -/
structure State where
  pending : List Instr
  tick : Nat
  devBase : Nat
  free : Nat
  out : List Output
  bar : Sparse 32
  latch : Sparse 32
  chans : Vector Chan 16
  jnl : Vector ChJnl 16
  capo : Vector CapoSlot 16
  mbx : Vector Mbox 48
  host : Endpoint
  flt : Flt
  sp : SpPort
  pwr : Pwr
  boot : Boot
  pos : Pos
  ins : Ins
  tun : Tun
  thm : Thm
  mot : Mot
deriving DecidableEq, Repr

/-- Why a command has no effect the spec gives. -/
inductive Fault where
  /-- A command whose data has a length or a value that no such command has (`Instr.wf`); raised by the commands that
  carry bytes or rows. Safe: the model stops where the hardware has no such event. -/
  | illFormed
deriving DecidableEq, Repr

/-- Why the model declines a command. -/
inductive Refusal where
  /-- The command's meaning has not been written; no arm answers it now. Safe: nothing can be proved of such a step. -/
  | notModelled (mnemonic : String)
deriving DecidableEq, Repr

/-! ## Reset -/

def Work.reset : Work :=
  { awaitStart := false, cmpBase := 0, cmpLog := 4, scrLog := 4, decPage := 0, decL := 0, firedPage := 0, firedL := 0,
    bands := [], fetched := none, accepting := none, accFailTick := none, due := [], unread := [], lastRec := none, rewrite := none,
    ackSeq := 0, causes := [], fetchStop := false, fireTicks := [], ckptTick := 0, refire := none, skipTo := none, skipKind := none,
    pageNo := 0, seqUp := true, waitCmd := none, ledgerValid := true, flushedTo := 0, boots := [] }

def Img.reset : Img :=
  { scrPage := 0, scrL := 0, started := false, begun := 0, katPage := none, scrDir := false, job := none, released := [], mtx := [], load := none,
    badMtx := [], ueTables := [], deadWas := [], old := [] }

def Wav.reset : Wav :=
  { win := none, gridBase := 0, lastFrameEnd := none, waveEnd := none, newScale := none, peaks := [], words := [], full := [],
    frames := [], meas := [], peakCfg := 0 }

def Dut.reset : Dut := { count := 0, raised := false, dec := none }

def Ft.reset : Ft :=
  { x := 0, h := 0, t1 := 0xFFFFFF, t2 := 0xFFFFFF, tl := 0, fwd := 0, armed := false, excursion := false, sosk := false,
    decidedSince := false, waitMark := false, latchMark := none, latchSos := none, decided := [],
    cntHist := [], sosTick := none, timeOfs := 0, timeFloor := 0, pageDly := [], armedSince := false, waitArm := false }

def Brg.reset : Brg :=
  { outst := none, nextFsn := 0, busyTill := 0, lastStart := 0, trdy := 0, phase := 0, trainTick := 0, phaseTick := 0,
    downTick := 0, soft := none, stat := none, i2cTries := 0, trimPend := false, sent := false, acked := false,
    retxed := false, offPend := false, hpwrHalt := false,
    hpenHold := false, onLanes := [] }

def Iso.reset : Iso :=
  { isolated := false, stateWas := 0, untrained := false, fw := [], loaded := false, memLost := false, offSince := false, bistPass := 0, bistFail := 0, bistBoot := 0,
    bistTime := 0, nozTest := none, kept := [], switchBack := false, memSlow := false }

def Chan.reset : Chan :=
  { work := Work.reset, img := Img.reset, wav := Wav.reset, dut := Dut.reset, ft := Ft.reset, brg := Brg.reset,
    iso := Iso.reset }

def ChJnl.reset : ChJnl := { recs := [], setSeq := none, closed := true, ckpts := [], flush := none, flushUnc := 0, ckptUnc := 0 }

def CapoSlot.reset : CapoSlot := { entries := [], voted := [], applied := [], startTick := 0, cond := none }

def MbxView.reset : MbxView :=
  { ackWait := false, aborted := false, ackTmo := false, ovr := false, tag := 0, sendTick := 0, window := 0 }

def Mbox.reset : Mbox :=
  { full := false, src := none, len := 0, msg := [], lock := none, waiting := false, held := [],
    views := Vector.replicate 4 MbxView.reset }

def Endpoint.reset : Endpoint :=
  { linkUp := false, bme := false, d3 := Vector.replicate 2 false, msixEn := Vector.replicate 2 false,
    fnMasked := Vector.replicate 2 false, vecMasked := Vector.replicate 2 (BitVec.allOnes 512), pba := Vector.replicate 2 0,
    cfg := Vector.replicate 2 [], msixTab := Vector.replicate 2 [], wasUp := false, expQ := [], merge := none }

def Tap.reset : Tap := { instr := .idcode, cells := 0, extest := false }

def Flt.reset : Flt := { s2 := 0, s3 := 0, s4 := 0, brgHalt := 0, lastRaise := [], tap := Tap.reset }

def SpPort.reset : SpPort := { last := none, lastTick := 0, running := false, sinceExpiry := false, crcRun := 0 }

def Pwr.reset : Pwr :=
  { ramp := none, rampTick := 0, queue := [], nvwBelow := [], mainUp := true, relTick := some 0, broken := [], jnlWas := none,
    wakeDue := false, supen := true, standby := false,
    stbyTick := 0, flush := none, warnTick := 0, stopN := false, waits := [] }

def Boot.reset : Boot :=
  { phase := .rom, t0 := 0, slot := .a, fellBack := false, chMask := 0, trainMask := 0, trainTick := 0, ssvid := 0, ssid := 0,
    flash := [], keyHash := none, flashSize := 0, flashErase := 12, flashSlow := false, mode := .sdr1, failA := none, failB := none, pref := 0, once := false, bootCnt := 1, seed := 0, supUp := true,
    fwSup := [], fwSeq := [], cmd := none, resetN := false, rstDue := none }

def EncSig.reset : EncSig := { raw := false, acc := false, tick := 0 }

def EncFe.reset : EncFe :=
  { a := EncSig.reset, b := EncSig.reset, z := EncSig.reset, cnt := 0, lastTick := 0, fc := 0, faulty := false,
    en := false, valid := false, failed := false, disagree := 0, back := false }

def EncPos.reset : EncPos :=
  { winTick := 0, idxChecked := false, missed := false, pending := false, xpend := false, edges := 0, spdDir := false,
    spdTick := 0, sub := none }

def PairSt.reset : PairSt := { onSec := false, ofs := 0, hist := [], clean := 0 }

def Emu.reset : Emu := { acc := 0, out := 0, lastTick := 0, z := false, zTick := 0, pend := false }

def Pos.reset : Pos :=
  { fes := Vector.replicate 17 (Vector.replicate 4 EncFe.reset), enc := Vector.replicate 4 EncPos.reset,
    pairs := Vector.replicate 17 PairSt.reset, fretStage := Vector.replicate 64 0, emu := Vector.replicate 4 Emu.reset }

def CamPort.reset : CamPort :=
  { startTick := 0, waitLow := false, next := 0, cur := none, fifo := [], frames := [], raised := [], tapFrame := none }

def Ins.reset : Ins :=
  { ports := Vector.replicate 2 CamPort.reset, lastB := true, pipeTill := 0, pend := [], better := [], counts := [],
    rounds := [], tables := [] }

def Tun.reset : Tun :=
  { sets := [], eff := [], ref := [], next := Vector.replicate 3 0, last := Vector.replicate 3 none,
    meas := Vector.replicate 3 none, pend := [], skipTick := Vector.replicate 5 none,
    touched := [] }

def Sens.reset : Sens := { has := false, own := false, conv := none, deltas := [], disagree := 0, agree := 0, sure := none }

def Thm.reset : Thm :=
  { sens := Vector.replicate 48 Sens.reset, integ := Vector.replicate 16 0, satTick := Vector.replicate 16 none,
    pwm := Vector.replicate 16 (0, 0), stepTick := none, shutTick := none, tables := [] }

def CoilSt.reset : CoilSt :=
  { idle := true, drive := false, neg := false, since := 0, prevDecay := none, probed := false, openRun := 0,
    shortRun := 0, gates := List.replicate 4 false, was := List.replicate 4 false, gateTick := 0 }

def Axis.reset : Axis :=
  { x := 0, v := 0, hist := [], xg := 0, r := 0, gearCnt := 0, gearTick := 0, xs := 0, siLast := none, siT := 0, siN := 0,
    siB := 0, snapped := false, lastX := 0, moveTick := 0, outUnit := 0, outQ := 0, outDir := false, outTick := none,
    dirTick := 0, coilA := CoilSt.reset, coilB := CoilSt.reset, off := false }

def Mot.reset : Mot := { axes := Vector.replicate 4 Axis.reset }

/-- The machine right after the power-on reset of a part whose journal and flash have never been written: every register
at its reset value, DEV_TIME 0, start-up at its first step (R28, R29, R371). -/
def State.reset : State :=
  { pending := [], tick := 0, devBase := 0, free := 0, out := [], bar := [], latch := [],
    chans := Vector.replicate 16 Chan.reset, jnl := Vector.replicate 16 ChJnl.reset,
    capo := Vector.replicate 16 CapoSlot.reset, mbx := Vector.replicate 48 Mbox.reset, host := Endpoint.reset,
    flt := Flt.reset, sp := SpPort.reset, pwr := Pwr.reset, boot := Boot.reset, pos := Pos.reset, ins := Ins.reset,
    tun := Tun.reset, thm := Thm.reset, mot := Mot.reset }

end Sys2Proof.Machine
end

