-- ==== Sys2Proof/Machine/Ops.lean ====
section
/-! DEFINITION. The named operations over the register space, the channels, time, the domains and what leaves the block:
every other file reads and writes State through these. -/

namespace Sys2Proof.Machine

/-- The outcome of a command whose data has a right form, and of one whose data has not. -/
def nextIf (ok : Bool) (s : State) : Host.Outcome State Fault Refusal := if ok then .next s else .fault .illFormed

/-! ## Registers -/

/-- The microstep table at reset: round(256 × sin(kπ/512)) for k = 0 to 256 (R287). -/
def wtabReset : List Nat :=
  [0, 2, 3, 5, 6, 8, 9, 11, 13, 14, 16, 17, 19, 20, 22, 24, 25, 27, 28, 30, 31, 33, 34, 36, 38, 39, 41, 42, 44, 45,
    47, 48, 50, 51, 53, 55, 56, 58, 59, 61] ++
  [62, 64, 65, 67, 68, 70, 71, 73, 74, 76, 77, 79, 80, 82, 83, 85, 86, 88, 89, 91, 92, 94, 95, 97, 98, 99, 101, 102,
    104, 105, 107, 108, 109, 111, 112, 114, 115, 117, 118, 119] ++
  [121, 122, 123, 125, 126, 128, 129, 130, 132, 133, 134, 136, 137, 138, 140, 141, 142, 144, 145, 146, 147, 149,
    150, 151, 152, 154, 155, 156, 157, 159, 160, 161, 162, 164, 165, 166, 167, 168, 170, 171] ++
  [172, 173, 174, 175, 177, 178, 179, 180, 181, 182, 183, 184, 185, 186, 188, 189, 190, 191, 192, 193, 194, 195,
    196, 197, 198, 199, 200, 201, 202, 203, 204, 205, 206, 207, 207, 208, 209, 210, 211, 212] ++
  [213, 214, 215, 215, 216, 217, 218, 219, 220, 220, 221, 222, 223, 224, 224, 225, 226, 227, 227, 228, 229, 229,
    230, 231, 231, 232, 233, 233, 234, 235, 235, 236, 237, 237, 238, 238, 239, 239, 240, 241] ++
  [241, 242, 242, 243, 243, 244, 244, 245, 245, 245, 246, 246, 247, 247, 248, 248, 248, 249, 249, 249, 250, 250,
    250, 251, 251, 251, 252, 252, 252, 252, 253, 253, 253, 253, 254, 254, 254, 254, 254, 255] ++
  [255, 255, 255, 255, 255, 255, 256, 256, 256, 256, 256, 256, 256, 256, 256, 256, 256]

/-- The severity an event is bound to at least: S2 for PIPE_UNRES (R79), WAV_OVERLAP (R97), POS_LOST (R127) and BRG_HALT
(R178) of a channel; S0 otherwise. -/
def sevFloor (e : Nat) : Nat :=
  if e < 128 then 0
  else
    let k := (e - 128) % 24
    if k = 9 ∨ k = 15 ∨ k = 17 ∨ k = 21 then 2 else 0

/-- What a severity written for event e reads back as and acts as (R327, R326 for event 16, R270 for THM_SHUT). -/
def sevEffective (e v : Nat) : Nat :=
  if e = 16 then 0 else if e = 93 then 4 else max (sevFloor e) (min v 4)

/-- A FLT_SEV word with every field as it reads back. -/
def sevWord (w : Nat) (v : Word) : Word :=
  (List.range 8).foldl (fun acc i => setBits acc (4 * i) 4 (sevEffective (8 * w + i) (getBits v (4 * i) 3))) 0

/-- The reset values the headings give in words: the severities with their floors applied, the clamp ranges of the Tuner,
the on-die sensors' configuration, the microstep table. Other offsets have none. -/
def regResetSpecial (a : Nat) : Option Word :=
  if 0x21000 ≤ a ∧ a < 0x21100 then some (sevWord ((a - 0x21000) / 4) 0x11111111)
  else if 0x60600 ≤ a ∧ a < 0x60700 ∧ (a - 0x60600) % 0x20 = 0 then
    some (setBits 1 16 16 (Config.fusedGain ((a - 0x60100) / 0x20)).toNat)
  else if 0x70800 ≤ a ∧ a ≤ 0x70C00 then some (BitVec.ofNat 32 (wtabReset.getD ((a - 0x70800) / 4) 0))
  else if a = A.TUN_LIMc 0 then some 0x7FFF8000
  else if a = A.TUN_LIMc 1 then some 0x0FFF0000
  else if a = A.TUN_LIMc 2 then some 0x03FF0000
  else if a = A.TUN_LIMc 4 then some 0x08000200
  else none

/-- The reset value of the word at a BAR0 offset: what an unlisted entry of the register space reads as. -/
def regReset (a : Nat) : Word :=
  match regResetSpecial a with
  | some v => v
  | none => match regAt a with
    | some r => BitVec.ofNat 32 r.reset
    | none => 0

/-- What an unlisted entry of the store `bar` reads as: banked copies lie at multiples of 32 MiB and start alike. -/
def barDefault (k : Nat) : Word := regReset (k % 0x2000000)

/-- What an unlisted latch reads as. -/
def latchDefault (_ : Nat) : Word := 0

/-- Bank k of a register that each master or port has its own copy of; bank 0 is the plain register. -/
def bankOf (k a : Nat) : Nat := a + k * 0x2000000

/-- The word stored at an offset. -/
def State.word (s : State) (a : Nat) : Word := sparseGet barDefault s.bar a

/-- The state with a word stored at an offset. -/
def State.setWord (s : State) (a : Nat) (v : Word) : State := { s with bar := sparseSet barDefault s.bar a v }

/-- The value of a field. -/
def State.get (s : State) (f : Fld) : Nat := getBits (s.word f.addr) f.lo f.width

/-- The state with a field set to a number, cut to its width. -/
def State.put (s : State) (f : Fld) (v : Nat) : State := s.setWord f.addr (setBits (s.word f.addr) f.lo f.width v)

/-- Whether a field is nonzero. -/
def State.flag (s : State) (f : Fld) : Bool := s.get f != 0

/-- A field read as two's complement. -/
def State.getS (s : State) (f : Fld) : Int := toSigned f.width (s.get f)

/-- A count field advanced by k, saturating at all ones. -/
def State.bump (s : State) (f : Fld) (k : Nat) : State := s.put f (min (s.get f + k) (2 ^ f.width - 1))

/-- A count field advanced by k, wrapping. -/
def State.wrapAdd (s : State) (f : Fld) (k : Nat) : State := s.put f (s.get f + k)

/-- The field one bit wide at bit i of a field. -/
def Fld.bit (f : Fld) (i : Nat) : Fld := ⟨f.addr, f.lo + i, 1⟩

/-- The copy of a field in bank k. -/
def Fld.bank (f : Fld) (k : Nat) : Fld := ⟨bankOf k f.addr, f.lo, f.width⟩

/-- Two words as a 64-bit number. -/
def State.pair (s : State) (lo hi : Nat) : Nat := (s.word lo).toNat + 2 ^ 32 * (s.word hi).toNat

/-- A 64-bit number stored in two words. -/
def State.setPair (s : State) (lo hi v : Nat) : State :=
  (s.setWord lo (BitVec.ofNat 32 v)).setWord hi (BitVec.ofNat 32 (v / 2 ^ 32))

/-! ## Time -/

/-- DEV_TIME at a tick: nanoseconds in steps of 8 (chapter 1, Time base). A tick is 2.5 ns. -/
def State.devTimeAt (s : State) (t : Nat) : Nat := 8 * ((t - s.devBase) * 5 / 16)

/-- DEV_TIME now. -/
def State.devTime (s : State) : Nat := s.devTimeAt s.tick

/-- Channel n's copy of DEV_TIME at a tick; it never shows less than at its last realignment (R27). -/
def State.chTimeAt (s : State) (n : Fin 16) (t : Nat) : Nat :=
  max (s.devTimeAt t + (s.chans.get n).ft.timeOfs).toNat (s.chans.get n).ft.timeFloor

/-- Ticks in a microsecond and in a millisecond. -/
def usTicks : Nat := 400
def msTicks : Nat := 400000

/-! ## Free values and outputs -/

/-- The next free value. -/
def State.freeVal (s : State) : Word := Config.freeWord s.free

/-- The state after one free value was taken. -/
def State.takeFree (s : State) : State := { s with free := s.free + 1 }

/-- Something leaves the block; the newest stands first. -/
def State.emit (s : State) (o : Output) : State := { s with out := o :: s.out }

/-! ## Channels -/

/-- The sixteen channels in index order. -/
def allCh : List (Fin 16) := List.finRange 16

/-- Channel n. -/
def State.ch (s : State) (n : Fin 16) : Chan := s.chans.get n

/-- The state with channel n changed. -/
def State.modCh (s : State) (n : Fin 16) (f : Chan → Chan) : State :=
  { s with chans := s.chans.set n (f (s.ch n)) }

def State.modWork (s : State) (n : Fin 16) (f : Work → Work) : State := s.modCh n fun c => { c with work := f c.work }
def State.modImg (s : State) (n : Fin 16) (f : Img → Img) : State := s.modCh n fun c => { c with img := f c.img }
def State.modWav (s : State) (n : Fin 16) (f : Wav → Wav) : State := s.modCh n fun c => { c with wav := f c.wav }
def State.modDut (s : State) (n : Fin 16) (f : Dut → Dut) : State := s.modCh n fun c => { c with dut := f c.dut }
def State.modFt (s : State) (n : Fin 16) (f : Ft → Ft) : State := s.modCh n fun c => { c with ft := f c.ft }
def State.modBrg (s : State) (n : Fin 16) (f : Brg → Brg) : State := s.modCh n fun c => { c with brg := f c.brg }
def State.modIso (s : State) (n : Fin 16) (f : Iso → Iso) : State := s.modCh n fun c => { c with iso := f c.iso }

/-- Channel n's part of the journal. -/
def State.journal (s : State) (n : Fin 16) : ChJnl := s.jnl.get n

/-- The state with channel n's part of the journal changed. -/
def State.modJnl (s : State) (n : Fin 16) (f : ChJnl → ChJnl) : State :=
  { s with jnl := s.jnl.set n (f (s.journal n)) }

/-- An action on each channel in index order. -/
def State.eachCh (s : State) (f : Fin 16 → State → State) : State := allCh.foldl (fun s n => f n s) s

/-- A number as a channel index, if it is one. -/
def chOf (n : Nat) : Option (Fin 16) := if h : n < 16 then some ⟨n, h⟩ else none

/-- Read an entry of a list of numbers, 0 beyond its end. -/
def nth (l : List Nat) (i : Nat) : Nat := l.getD i 0

/-! ## Power domains -/

/-- The state of switched domain d: 0 OFF, 1 RAMP, 2 ON, 3 FAIL (R31). -/
def domFld (d : Nat) : Fld := if d < 16 then ⟨A.SYS_DOMSTAT_LO, 2 * d, 2⟩ else ⟨A.SYS_DOMSTAT_HI, 2 * (d - 16), 2⟩

def State.domState (s : State) (d : Nat) : Nat := s.get (domFld d)
def State.domOn (s : State) (d : Nat) : Bool := s.domState d == 2
def State.setDom (s : State) (d v : Nat) : State := s.put (domFld d) v

/-- Whether channel n's domain is ON. -/
def State.chOn (s : State) (n : Fin 16) : Bool := s.domOn (8 + n.val)

/-- Whether start-up has come to READY; no channel fires before it (R21, R29). -/
def State.booted (s : State) : Bool := s.boot.phase == .ready

/-- The switched domain a block's registers lie in; none for the always-on blocks and the retained ledger registers
(tables of chapter 1; R303). -/
def domainOfBlock (b : Nat) : Option Nat :=
  match b with
  | 1 => some 0 | 3 => some 0 | 12 => some 0 | 14 => some 0
  | 2 => some 1 | 5 => some 1 | 9 => some 3 | 13 => some 1
  | 4 => some 4 | 7 => some 5 | 8 => some 6 | 10 => some 2
  | _ => none

/-- The switched domain of a BAR0 offset. -/
def domainOf (a : Nat) : Option Nat :=
  let b := blockOf a
  if b = 22 then none
  else if 16 ≤ b ∧ b < 99 then some (8 + (a - 0x1000000) / 0x100000)
  else domainOfBlock b

/-- The registers whose contents the journal keeps: the Tuner's axes and points, and the counts and times of its results
(R255, R364). -/
def journalReg (a : Nat) : Bool :=
  (0x90020 ≤ a && decide (a < 0x90044)) || (0x90100 ≤ a && decide (a < 0x901A0) && decide (8 ≤ a % 0x20))

/-- Registers of a domain lose their contents: their entries go, so that they read their reset values (R400). -/
def State.dropDomain (s : State) (d : Nat) : State :=
  { s with bar := sparseDrop (fun k => domainOf (k % 0x2000000) == some d && !journalReg (k % 0x2000000)) s.bar }

end Sys2Proof.Machine
end

