-- ==== Sys2Proof/Machine/Access.lean ====
section
/-! DEFINITION. Which master reaches which register (R301, R303, R343, R374, R398, chapters 1, 2 and 15). -/

namespace Sys2Proof.Machine

/-- The bank of a master where a register has a copy for each master (R197). -/
def masterBank : Master → Nat
  | .pf0 => 1 | .pf1 => 2 | .sup => 3 | .sp => 4 | .seq n => 5 + n.val

/-- The master index that CAPO_TXt_STAT.OWNER shows (R196); PF1 and the sequencers have none and reach no slot. -/
def masterIndex : Master → Nat
  | .pf0 => 0 | .sup => 1 | .sp => 2 | .pf1 => 3 | .seq _ => 3

/-- The blocks of PF1's mirror: SYS, EVT, FLT, MBX, THM, PWR and PROT (R301). -/
def inMirror (a : Nat) : Bool := a < 0x100000 && [0, 1, 2, 3, 6, 11, 13].contains (blockOf a)

/-- The table windows of the channel windows (R343, R430). -/
def isTable (a : Nat) : Bool := 0x1000000 ≤ a && a < 0x2000000 && 0x80000 ≤ a % 0x100000

/-- Whether the register at `a` has a field staged through capo (R198). -/
def hasStaged (a : Nat) : Bool :=
  match regAt a with
  | some r => r.fields.any fun f => f.typ == .st
  | none => false

/-- Whether the power domain of an offset lets it be reached (R303). -/
def State.powered (s : State) (a : Nat) : Bool :=
  match domainOf a with
  | some d => s.domOn d
  | none => true

/-- Whether an offset holds anything for a master: reserved ranges and the sequencer's own block read as 0 and discard writes
(R429, R430). -/
def inMap (a : Nat) : Bool := blockOf a != 16 && blockOf a != 99

/-- Whether a master may read an offset. -/
def mayRead (m : Master) (a : Nat) : Bool :=
  inMap a &&
  match m with
  | .pf0 => true
  | .pf1 => inMirror a
  | .sup => blockOf a ≠ 12
  | .sp => !isTable a && blockOf a ≠ 14
  | .seq _ => blockOf a == 3

/-- The slot a master is bound to (CAPO_BIND). -/
def State.boundTo (s : State) (m : Master) : Option (Fin 16) :=
  if s.flag (F.CAPO_BIND_BOUND.bank (masterBank m)) then chOf (s.get (F.CAPO_BIND_TX.bank (masterBank m))) else none

/-- Whether slot t is taken and owned by a master (R196, R197). -/
def State.ownsSlot (s : State) (m : Master) (t : Fin 16) : Bool :=
  s.get (F.CAPO_TXt_STAT_STATE t) ≠ 0 && s.get (F.CAPO_TXt_STAT_OWNER t) == masterIndex m

/-- The registers of a slot that the Safety port may write: CTRL, TMO and CMD of its own slots (R343). -/
def State.spSlotWrite (s : State) (a : Nat) : Bool :=
  0x50100 ≤ a && a < 0x50500 && (a - 0x50100) % 0x40 ≤ 8 &&
  match chOf ((a - 0x50100) / 0x40) with
  | some t => s.ownsSlot .sp t
  | none => false

/-- Registers that only PF0 can write: SYS_EPOCH, SYS_DEVRST, NVM_CMD and what it uses, PWR_STBY. -/
def pf0Only (a : Nat) : Bool :=
  [A.SYS_EPOCH_LO, A.SYS_EPOCH_HI, A.SYS_DEVRST, A.PWR_STBY].contains a || (A.NVM_CMD ≤ a && a ≤ A.NVM_CMDSTAT)

/-- Whether a master may write an offset. PF1's and a sequencer's mailbox writes are told apart by
the mailbox operations (R314). -/
def State.mayWrite (s : State) (m : Master) (a : Nat) : Bool :=
  inMap a &&
  match m with
  | .pf0 => true
  | .pf1 => blockOf a == 3
  | .sup => blockOf a ≠ 12 && !pf0Only a
  | .sp =>
    [A.CAPO_BIND, A.PROT_CFMTX, A.PROT_CFM_LO, A.PROT_CFM_HI, A.PROT_SAFEREQ, A.PROT_STAT].contains a ||
    s.spSlotWrite a || ((s.boundTo .sp).isSome && hasStaged a)
  | .seq n => blockOf a == 3 && s.chOn n && (s.ch n).work.seqUp

/-- A write of a master takes effect if the master may write the offset and its domain is ON; else it is discarded. -/
def State.wr (s : State) (m : Master) (a : Nat) (f : State → State) : State :=
  if s.mayWrite m a && s.powered a then f s else s

/-- A read of a master returns a word and has its effect if the master reaches the offset and its domain is ON; else it
returns 0 and has none (R301, R303). -/
def State.rd (s : State) (m : Master) (a : Nat) (w : Word) (f : State → State) : State :=
  if mayRead m a && s.powered a then (f s).emit (.read m a w) else s.emit (.read m a 0)

end Sys2Proof.Machine
end

