-- ==== Sys2Proof/Machine/Flags.lean ====
section
/-! DEFINITION. Events and what they cause: delivery to the host (R306), the fault collector and its reactions (R326 to
R330), holds and inhibits of a channel (R52, R56, R156), the safe state (R336, R337) and the start of a ledger flush. -/

namespace Sys2Proof.Machine

/-! ## Delivery to the host -/

/-- Whether bit i of a 512-bit mask is set, and the mask with it set or cleared. -/
def bit512 (b : BitVec 512) (i : Nat) : Bool := b.getLsbD i
def setBit512 (b : BitVec 512) (i : Nat) (v : Bool) : BitVec 512 :=
  if v then b ||| (1#512 <<< i) else b &&& ~~~(1#512 <<< i)

/-- Whether a function sends no message at all: MSI-X disabled or masked (R306), or the function in D3hot (R300; PRESUMED, log 151). -/
def Endpoint.held (h : Endpoint) (fn : Fin 2) : Bool := !h.msixEn.get fn || h.fnMasked.get fn || h.d3.get fn

/-- One message to a function on a vector: sent, or kept in the PBA while the function or vector is masked or no DMA is
possible (R305, R306). -/
def State.msix (s : State) (fn : Fin 2) (vec : Nat) : State :=
  let h := s.host
  if h.held fn || bit512 (h.vecMasked.get fn) vec || !h.linkUp || !h.bme then
    { s with host := { h with pba := h.pba.set fn (setBit512 (h.pba.get fn) vec true) } }
  else s.emit (.msix fn vec)

/-- Event e reaches EVT: the pending bit is set and a message goes to each function the route enables; nothing is sent
for a bit already set (R306). EVT lies in HOST (R303). -/
def State.evtRaise (s : State) (e : Nat) : State :=
  let pend : Fld := ⟨A.EVT_PENDw (e / 32), e % 32, 1⟩
  if s.domOn 0 && !s.flag pend then
    let s1 := s.put pend 1
    let s2 := if s1.flag (F.EVT_ROUTEe_PF0EN e) then s1.msix 0 e else s1
    if s2.flag (F.EVT_ROUTEe_PF1EN e) then s2.msix 1 (s2.get (F.EVT_ROUTEe_PF1VEC e)) else s2
  else s

/-! ## Sources and lines -/

/-- Event k of channel n (R431). -/
def chEvt (n : Fin 16) (k : Nat) : Nat := 128 + 24 * n.val + k

/-- The lines of the system sources (R326, R433). -/
def sysLine (e : Nat) : Option Nat :=
  if e = 126 then some 32
  else if 101 ≤ e ∧ e ≤ 124 then some 33
  else if e ≤ 3 ∨ e = 27 then some 34
  else if 4 ≤ e ∧ e ≤ 6 then some 35
  else if 8 ≤ e ∧ e ≤ 11 then some 36
  else if 24 ≤ e ∧ e ≤ 26 then some 37
  else if e = 19 ∨ e = 20 then some 38
  else if e = 17 ∨ e = 18 then some 39
  else if 21 ≤ e ∧ e ≤ 23 then some 40
  else if 64 ≤ e ∧ e ≤ 66 then some 41
  else if 48 ≤ e ∧ e ≤ 55 then some 42
  else if 56 ≤ e ∧ e ≤ 59 then some 43
  else if e = 60 ∨ e = 61 then some 44
  else if 96 ≤ e ∧ e ≤ 100 then some 45
  else if 72 ≤ e ∧ e ≤ 77 then some 46
  else if e = 80 ∨ e = 81 then some 47
  else if (88 ≤ e ∧ e ≤ 90) ∨ e = 94 then some 48
  else if 91 ≤ e ∧ e ≤ 93 then some 49
  else none

/-- The error line a source drives (R326, R434). -/
def lineOf (e : Nat) : Option Nat :=
  if e < 128 then sysLine e
  else
    let n := (e - 128) / 24
    let k := (e - 128) % 24
    if k = 14 ∨ k = 15 ∨ 20 ≤ k then some (2 * n + 1) else some (2 * n)

/-- The severity of a source in effect (R327). -/
def State.sevOf (s : State) (e : Nat) : Nat := sevEffective e (s.get (F.FLT_SEVw_SEVi (e / 8) (e % 8)))

/-- The FLT_STAT bit of line i. -/
def lineFld (i : Nat) : Fld := if i < 32 then ⟨A.FLT_STAT_LO, i, 1⟩ else ⟨A.FLT_STAT_HI, i - 32, 1⟩

/-- A 64-bit mask with bit i set. -/
def setLine (m : BitVec 64) (i : Nat) : BitVec 64 := m ||| (1#64 <<< i)

/-- Whether channel n holds an S2 reaction, an S3 reaction, or either or an S4 one (FLT_CHREACT, R330). -/
def State.holdsS2 (s : State) (n : Fin 16) : Bool :=
  s.flt.s2.getLsbD (2 * n.val) || s.flt.s2.getLsbD (2 * n.val + 1)
def State.holdsS3 (s : State) (n : Fin 16) : Bool :=
  s.flt.s3.getLsbD (2 * n.val) || s.flt.s3.getLsbD (2 * n.val + 1)

/-! ## Holds -/

/-- Work states of WRK_SCRn_STAT: 0 IDLE, 1 RUN, 2 HELD, 3 RESUME_WAIT. -/
def State.wstate (s : State) (n : Fin 16) : Nat := s.get (F.WRK_SCRn_STAT_STATE n)

/-- The requirement "Fault cleared" of HCAUSE 2 (R334). -/
def State.faultCleared (s : State) (n : Fin 16) : Bool :=
  !((s.flag (lineFld (2 * n.val)) || s.flag (lineFld (2 * n.val + 1))) && (s.holdsS2 n || s.holdsS3 n)) &&
  !s.flag F.FLT_SAFE_ACTIVE &&
  !s.flag (F.WRK_EXP_LATCH_STOPL.bit n) && !s.flag (F.WRK_EXP_LATCH_INHL.bit n) &&
  !s.flag (F.THM_CHSTAT_LIM.bit n) && !s.flag (F.THM_CHSTAT_CRIT.bit n) &&
  !s.flag F.PWR_MON_STAT_WARN &&
  !(s.flag F.PROT_STAT_STOPN && s.get F.PROT_CFG_STOPNACT < 2) &&
  !(s.flag F.PROT_STAT_SPWD && s.get F.PROT_CFG_SPTOACT < 2)

/-- Whether a cause of a hold is still unresolved (R56). Causes 4 and 6 leave the list when their row is met. -/
def State.unresolved (s : State) (n : Fin 16) (c : Nat) : Bool :=
  if c = 2 then !s.faultCleared n
  else if c = 3 then s.flag (F.CHn_LED_PLINE_PEND n)
  else true

/-- The lowest cause still unresolved, 0 for none. -/
def State.lowestCause (s : State) (n : Fin 16) : Nat :=
  ((s.ch n).work.causes.filter (s.unresolved n)).foldl (fun m c => if m = 0 ∨ c < m then c else m) 0

/-- HCAUSE as a hold for cause c begins: c itself counts, also where what it needs has been done already (R56, R81; DEDUCED, log 18). -/
def State.causeNow (s : State) (n : Fin 16) (c : Nat) : Nat :=
  if s.lowestCause n = 0 ∨ c < s.lowestCause n then c else s.lowestCause n

/-- HCAUSE takes a value; a change raises HELD (R62). `rs` raises an event. -/
def showCause (rs : Nat → State → State) (n : Fin 16) (c : Nat) (s : State) : State :=
  if c = s.get (F.WRK_SCRn_STAT_HCAUSE n) then s else rs (chEvt n 2) (s.put (F.WRK_SCRn_STAT_HCAUSE n) c)

/-- HCAUSE shows the lowest unresolved cause of a HELD channel (R56). -/
def refreshHoldWith (rs : Nat → State → State) (n : Fin 16) (s : State) : State :=
  if s.wstate n = 2 then showCause rs n (s.lowestCause n) s else s

/-- Record a cause. -/
def addCause (n : Fin 16) (c : Nat) (s : State) : State :=
  s.modWork n fun w => { w with causes := if w.causes.contains c then w.causes else c :: w.causes }

/-- A channel in RUN is halted at the line boundary and enters HELD: no decision is made from here on, a line already
decided is still fired, and a latched arming event is discarded (R56, R155, R156). -/
def enterHeld (n : Fin 16) (s : State) : State :=
  ((s.put (F.WRK_SCRn_STAT_STATE n) 2).put (F.CHn_FT_STAT_STATE n) 3).modFt n fun f =>
    { f with latchMark := none, latchSos := none }

/-- A request to halt channel n with a cause; a channel in IDLE or RESUME_WAIT is unchanged (R56). -/
def holdWith (rs : Nat → State → State) (n : Fin 16) (c : Nat) (s : State) : State :=
  if s.wstate n = 1 then
    let s1 := addCause n c (enterHeld n s)
    rs (chEvt n 2) (s1.put (F.WRK_SCRn_STAT_HCAUSE n) (s1.causeNow n c))
  else if s.wstate n = 2 then
    let s1 := addCause n c s
    showCause rs n (s1.causeNow n c) s1
  else s

/-! ## Ledger entries -/

/-- The offset of entry slot j of channel n's ledger. -/
def ledSlot (n : Fin 16) (j : Nat) : Nat := 0x1061000 + n.val * 0x100000 + 16 * (j % 256)

/-- SYS_BOOTCNT goes with a ledger entry that is written (R48; DESIGN CHOICE, log 11). -/
def noteBoot (n : Fin 16) (s : State) : State :=
  s.modWork n fun w => { w with boots := (s.boot.bootCnt :: w.boots).take 256 }

/-- Write a ledger entry in the layout of R50 and move the position to it (R50, R51, R435). `fl` holds SINGLE, RETX and ALTENC in bits 2 to 4 of the entry's byte 7. -/
def ledAppend (n : Fin 16) (seq line st fl time : Nat) (dir sosk : Bool) (s : State) : State :=
  let a := ledSlot n (s.get (F.CHn_LED_COUNT_COUNT n))
  let s1 := (noteBoot n s).setWord a (BitVec.ofNat 32 seq)
  let s2 := s1.setWord (a + 4) (BitVec.ofNat 32 (line % 2 ^ 24 + 2 ^ 24 * (st % 4 + fl)))
  let s3 := s2.setPair (a + 8) (a + 12) time
  let s4 := (s3.put (F.CHn_LED_SEQ_SEQ n) seq).setWord (A.CHn_LED_LINE n)
    (BitVec.ofNat 32 (line % 2 ^ 24 + 2 ^ 24 * (st % 4 + 4 * b2n dir + 8 * b2n sosk)))
  s4.wrapAdd (F.CHn_LED_COUNT_COUNT n) 1

/-- SYS_BOOTCNT at the entry k places before the newest one of channel n's ledger (R48). -/
def State.bootOf (s : State) (n : Fin 16) (k : Nat) : Word := BitVec.ofNat 32 ((s.ch n).work.boots.getD k 0)

/-- An entry of channel n's ledger as journal and resume take it: the four words of slot j, and SYS_BOOTCNT at its writing. -/
def State.ledEntry (s : State) (n : Fin 16) (j k : Nat) : List Word :=
  let a := ledSlot n j
  [s.word a, s.word (a + 4), s.word (a + 8), s.word (a + 12), s.bootOf n k]

/-- The direction and the arming kind of the page of the last ledger entry (R435). -/
def State.ledKind (s : State) (n : Fin 16) : Bool × Bool := (s.flag (F.CHn_LED_LINE_DIR n), s.flag (F.CHn_LED_LINE_SOSK n))

/-- The page that channel n works on has a direction and an arming kind. -/
def setKind (n : Fin 16) (k : Bool × Bool) (s : State) : State :=
  (s.put (F.CHn_FT_STAT_DIR n) (b2n k.1)).modFt n fun f => { f with sosk := k.2 }

/-- The state bits of the last entry of channel n's ledger. -/
def ledLastState (s : State) (n : Fin 16) : Fld :=
  ⟨ledSlot n (s.get (F.CHn_LED_COUNT_COUNT n) + 255) + 4, 24, 2⟩

/-- Change a band of channel n. -/
def modBand (n : Fin 16) (seq : Nat) (f : Band → Band) (s : State) : State :=
  s.modWork n fun w => { w with bands := w.bands.map fun b => if b.desc.seq = seq then f b else b }

/-- The lines on their way through the path are given up; screening begins again at the pending line. -/
def restartScreen (n : Fin 16) (s : State) : State :=
  ((s.modImg n fun i => { i with job := none, released := [], started := false }).modDut n fun d =>
    { d with dec := none }).modBrg n fun b => { b with sent := false, acked := false, retxed := false }

/-- The line (seq, line) has become PARTIAL: it awaits REFIRE or SKIP and counts as neither fired nor resolved until then (R45),
its band counts it, PARTIAL is raised and the channel holds with cause 3 (R52, R62). -/
def partialPending (rs : Nat → State → State) (n : Fin 16) (seq line : Nat) (s : State) : State :=
  let s1 := ((s.put (F.CHn_LED_PSEQ_SEQ n) seq).put (F.CHn_LED_PLINE_LINE n) line).put (F.CHn_LED_PLINE_PEND n) 1
  let s2 := modBand n seq (fun b =>
    { b with npart := b.npart + 1, hadPart := true }) s1
  let s3 := match (s2.ch n).work.bands.find? (fun b => b.desc.seq == seq) with
    | some b => s2.modWork n fun w => { w with firedPage := b.page, firedL := b.l0 + line }
    | none => s2
  holdWith rs n 3 (rs (chEvt n 3) s3)

/-- Whether the tick lies in the firing window of channel n's last fired line (R52). -/
def State.inWindow (s : State) (n : Fin 16) : Bool :=
  match (s.ch n).wav.win with
  | some w => s.tick < w.endTick
  | none => false

/-- The phase of a frame whose waveform time 0 lies at a tick (R96). -/
def State.phaseAt (s : State) (n : Fin 16) (t : Nat) : Nat :=
  (8 - (t + 7 * (s.ch n).wav.gridBase) % 8) % 8

/-- A frame keeps the samples whose port time lies before a tick (R98). -/
def PortFrame.cutAt (f : PortFrame) (t : Nat) : PortFrame := { f with lanes := f.lanes.take ((t - f.start + 7) / 8) }

/-- Whether channel n stands at a line boundary: nothing decided and no window open (R247). -/
def State.atBoundary (s : State) (n : Fin 16) : Bool := (s.ch n).ft.decided.isEmpty && !s.inWindow n

/-- The line in the firing window is cut off: its entry becomes PARTIAL in the same cycle, every port is at REST from the first
sample whose port time is at or after this tick, and its frame is not resumed (R52, R98). -/
def cutWindow (rs : Nat → State → State) (n : Fin 16) (s : State) : State :=
  match (s.ch n).wav.win, s.inWindow n with
  | some w, true =>
    let s1 := ((s.put (ledLastState s n) 1).put (F.CHn_LED_LINE_STATE n) 1).modWav n fun v =>
      { v with win := none, lastFrameEnd := some (min s.tick (w.endTick - w.segDly)),
               frames := v.frames.map (·.cutAt s.tick), meas := v.meas.filter fun x => decide (x.start < s.tick) }
    partialPending rs n w.seq w.line (s1.emit (.cut n.val (s.tick + s.phaseAt n s.tick)))
  | _, _ => s

/-- A line decided whose FIRE is still to come under an inhibit is not fired: it has no entry and is again the first unfired line
(R51, R104; DEDUCED, log 12). -/
def cancelDecided (n : Fin 16) (s : State) : State :=
  match (s.ch n).ft.decided with
  | d :: _ =>
    let ln := d.duty.line
    let s1 := s.modFt n fun f => { f with decided := [], sosk := d.sosk }
    let s2 := s1.modWork n fun w =>
      { w with decPage := ln.page, decL := ln.l, refire := if d.refired then some (ln.seq, ln.line) else w.refire }
    restartScreen n (s2.put (F.CHn_FT_STAT_DIR n) (b2n d.dir))
  | [] => s

/-- CHn_HPEN falls at the line boundary after CHn_BRG_HPWR.EN = 0 was committed (R185). -/
def dropHpen (n : Fin 16) (s : State) : State :=
  if (s.ch n).brg.hpenHold then (s.modBrg n fun b => { b with hpenHold := false }).put (F.CHn_BRG_STAT_HPEN n) 0 else s

/-- Channel n has come to its line boundary: during the sequence of a supply warning HALTT shows when the last one did (R347). -/
def noteHalted (n : Fin 16) (s0 : State) : State :=
  let s := dropHpen n s0
  match s.pwr.flush with
  | some (_, true) => s.put F.PWR_MON_FLUSH_HALTT (min 255 ((s.tick - s.pwr.warnTick) / usTicks))
  | _ => s

/-- FIRE and the waveform ports of channel n are inhibited: the line in its firing window becomes PARTIAL, a line decided is
not fired, and the channel halts (R52, R328). It holds with `c`. -/
def inhibitWith (rs : Nat → State → State) (c : Nat) (n : Fin 16) (s : State) : State :=
  let s1 := cancelDecided n (cutWindow rs n s)
  holdWith rs n c (if s.atBoundary n then s1 else noteHalted n s1)

/-- Whether the internal power-on reset has been released (R395). -/
def State.released (s : State) : Bool := s.pwr.relTick.any fun t => decide (t ≤ s.tick)

/-! ## The ledger flush -/

/-- Whether a journal word can be written now: FAB ON and non-volatile writes not blocked (R348). -/
def State.nvOk (s : State) : Bool := s.domOn 1 && s.pwr.nvwBelow.isEmpty

/-- The completion marks of the previous flush are cleared in the journal, once a flush is under way and the journal can be
written (R53, R348). -/
def clearMarks (s : State) : State :=
  if s.pwr.flush.isSome && s.nvOk then s.eachCh fun n s => s.modJnl n fun j => { j with flush := none } else s

/-- A ledger flush starts: the completion mark of the previous flush is cleared (R53), in the journal not before non-volatile
writes are possible (R348). A flush already running goes on (R337, R347). `warn` marks the flush of a supply warning. -/
def startFlush (warn : Bool) (s : State) : State :=
  match s.pwr.flush with
  | some (k, w) => { s with pwr := { s.pwr with flush := some (k, w || warn) } }
  | none => (clearMarks { s with pwr := { s.pwr with flush := some (s.tick, warn) } }).eachCh fun n s =>
      s.put (F.CHn_LED_FLUSH_DONE n) 0

/-! ## Motion stop -/

/-- The axis state of axis a, and the state with it changed. -/
def State.axis (s : State) (a : Fin 4) : Axis := s.mot.axes.get a
def State.modAxis (s : State) (a : Fin 4) (f : Axis → Axis) : State :=
  { s with mot := { s.mot with axes := s.mot.axes.set a (f (s.axis a)) } }

/-- The filtered profile position, s48.32: the mean of the history, rounded down (R279). -/
def Axis.xf (a : Axis) : Int :=
  if a.hist.isEmpty then a.x else floorDiv (a.hist.foldl (· + ·) 0) a.hist.length

/-- XACT, wrapped to 48 bits as a signed number (R277). -/
def Axis.xact (a : Axis) : Int := toSigned 48 (ofSigned 48 (floorDiv a.xf (2 ^ 32) + a.xg + a.xs))

/-- Set TGT of an axis. -/
def setTgt (a : Fin 4) (v : Int) (s : State) : State :=
  (s.put (F.MOT_AXa_TGT_LO_TGT_L a) (ofSigned 48 v)).put (F.MOT_AXa_TGT_HI_TGT_H a) (ofSigned 48 v / 2 ^ 32)

/-- A coil whose faults are detected afresh (R296). -/
def CoilSt.afresh (k : CoilSt) : CoilSt := { k with openRun := 0, shortRun := 0 }

/-- An axis stops: v becomes 0, TGT the present profile position, the step and output backlogs are discarded and STOPPED
is set (R295, R297). The profile stands where its filter stands (DESIGN CHOICE, log 40). -/
def stopAxis (a : Fin 4) (s : State) : State :=
  let p := floorDiv (s.axis a).xf (2 ^ 32)
  let s1 := s.modAxis a fun x =>
    { x with v := 0, x := p * 2 ^ 32, hist := x.hist.map fun _ => p * 2 ^ 32, siB := 0, outQ := 0, snapped := false,
             coilA := x.coilA.afresh, coilB := x.coilB.afresh }
  ((setTgt a p s1).put (F.MOT_AXa_STAT_STOPPED a) 1).put (F.MOT_AXa_STAT_OBACK a) 0

/-! ## The safe state -/

/-- Heater n goes to duty 0 with its integral 0, and its output goes low (R264, R267). -/
def heaterOff (n : Fin 16) (s : State) : State :=
  let s1 := (s.put (F.THM_CHn_HTRSTAT_DUTY n) 0).put (F.THM_CHn_HTRSTAT_FORCED0 n) 1
  { s1 with thm := { s1.thm with integ := s1.thm.integ.set n 0, satTick := s1.thm.satTick.set n none,
                                 pwm := s1.thm.pwm.set n (0, s.tick) } }

/-- The duty in effect of heater n: a duty takes effect with the PWM period, of 390,625 quarter ticks, after its update (R266). -/
def State.dutyNow (s : State) (n : Fin 16) : Nat :=
  let x := s.thm.pwm.get n
  if 4 * x.2 / 390625 < 4 * s.tick / 390625 then s.get (F.THM_CHn_HTRSTAT_DUTY n) else x.1

/-- The safe state is entered, or a further cause adds its bit of FLT_SAFE: strobes low and ports at REST, every channel
in RUN held with HCAUSE 2, heaters off, axes stopped, FETCH_EN cleared if FETCHOFF, the ledger flushed, SAFE_ENTER raised
(R336, R337, R355). -/
def safeWith (rs : Nat → State → State) (cause : Fld) (s : State) : State :=
  if s.flag F.FLT_SAFE_ACTIVE then s.put cause 1
  else
    let s1 := (s.put F.FLT_SAFE_ACTIVE 1).put cause 1
    let s2 := if s1.flag F.PROT_CFG_FETCHOFF then s1.put F.WRK_CTRL_FETCH_EN 0 else s1
    let s3 := s2.eachCh fun n s => heaterOff n (inhibitWith rs 2 n s)
    let s4 := (List.finRange 4).foldl (fun s a => if s.flag (F.MOT_AXa_CTRL_EN a) then stopAxis a s else s) s3
    startFlush false (rs 16 s4)

/-! ## The collector -/

/-- A fault log entry for a raise (heading of the FLT registers). -/
def logRaise (e sev : Nat) (s : State) : State :=
  let c := s.get F.FLT_LOGCNT_COUNT
  let a := 0x20800 + 16 * (c % 64)
  let s1 := (s.setWord a (BitVec.ofNat 32 (e + 512 * sev))).setWord (a + 4) (BitVec.ofNat 32 s.boot.bootCnt)
  (s1.setPair (a + 8) (a + 12) s.devTime).wrapAdd F.FLT_LOGCNT_COUNT 1

/-- A source of S1 or above latches its line and, if none is captured, itself as the first (R328). -/
def latchLine (e sev : Nat) (s : State) : State :=
  let s1 := match lineOf e with
    | some i => s.put (lineFld i) 1
    | none => s
  if s1.flag F.FLT_FIRST_VALID then s1
  else
    (((s1.put F.FLT_FIRST_SRC e).put F.FLT_FIRST_SEV sev).put F.FLT_FIRST_VALID 1).setPair
      A.FLT_FIRSTTIME_LO A.FLT_FIRSTTIME_HI s1.devTime

/-- The reaction of a severity above S1: S2 halts and S3 inhibits the channel of a channel source, S4 enters the safe
state; a system source set to S2 or S3 reacts as S1 (R328, R329). -/
def reactTo (rs : Nat → State → State) (e sev : Nat) (s : State) : State :=
  match lineOf e with
  | none => s
  | some i =>
    if sev = 4 then safeWith rs F.FLT_SAFE_SEV4 { s with flt := { s.flt with s4 := setLine s.flt.s4 i } }
    else match chOf ((e - 128) / 24) with
      | none => s
      | some n =>
        if e < 128 then s
        else if sev = 2 then holdWith rs n 2 { s with flt := { s.flt with s2 := setLine s.flt.s2 i } }
        else if sev = 3 then inhibitWith rs 2 n { s with flt := { s.flt with s3 := setLine s.flt.s3 i } }
        else s

/-- A raise of BRG_HALT of channel n is remembered: its cause has a persistence rule of its own (R178, R332). -/
def noteHalt (e : Nat) (s : State) : State :=
  if 128 ≤ e ∧ (e - 128) % 24 = 21 then
    { s with flt := { s.flt with brgHalt := s.flt.brgHalt ||| (1#16 <<< ((e - 128) / 24)) } }
  else s

/-- The collector, in FAB, records a raise and reacts (R328). -/
def collect (rs : Nat → State → State) (e : Nat) (s : State) : State :=
  if !s.domOn 1 then s
  else
    let sev := s.sevOf e
    let s1 := logRaise e sev (noteHalt e s)
    if sev = 0 then s1 else reactTo rs e sev (latchLine e sev s1)

/-- Raise event e; `k` bounds the depth of events that reactions raise in turn. -/
def raiseN : Nat → Nat → State → State
  | 0, e, s => collect (fun _ s => s) e (s.evtRaise e)
  | k + 1, e, s => collect (raiseN k) e (s.evtRaise e)

/-- Raise event e: its delivery and the collector's reaction. Reactions raise at most PARTIAL, HELD and SAFE_ENTER, so a
depth of 6 is never used up. -/
def State.raise (s : State) (e : Nat) : State := raiseN 6 e s

/-- Raise event k of channel n. -/
def State.raiseCh (s : State) (n : Fin 16) (k : Nat) : State := s.raise (chEvt n k)

/-- Raise an event that is raised at most once per `period` ticks. -/
def State.raiseLimited (s : State) (e period : Nat) : State :=
  match s.flt.lastRaise.find? (fun p => p.1 == e) with
  | some (_, t) =>
    if s.tick < t + period then s
    else { s with flt := { s.flt with lastRaise := (e, s.tick) :: s.flt.lastRaise.filter (fun p => p.1 != e) } }.raise e
  | none => { s with flt := { s.flt with lastRaise := (e, s.tick) :: s.flt.lastRaise } }.raise e

/-- Halt channel n at the line boundary with a cause. -/
def State.hold (s : State) (n : Fin 16) (c : Nat) : State := holdWith (raiseN 6) n c s

/-- Inhibit FIRE and the ports of channel n; it holds with cause 2. -/
def State.inhibit (s : State) (n : Fin 16) : State := inhibitWith (raiseN 6) 2 n s

/-- Enter the safe state with a cause bit. -/
def State.enterSafe (s : State) (cause : Fld) : State := safeWith (raiseN 6) cause s

/-- HCAUSE of every channel follows what has been resolved (R56). -/
def State.refreshHolds (s : State) : State := s.eachCh (refreshHoldWith (raiseN 6))

/-- SAFE_OK (R340). -/
def State.safeOk (s : State) : Bool :=
  s.boot.phase == .ready && !s.flag F.FLT_SAFE_ACTIVE && !s.flag F.FLT_PAR_PARERR && !s.flag F.PROT_STAT_SPWD &&
  s.pwr.mainUp && !s.pwr.standby

/-- An axis detects a fault: it is recorded, AXa_FAULT is raised and the axis stops; SHORT turns its coils off (R295). -/
def axisFault (a : Fin 4) (cause : Nat) (s : State) : State :=
  let s1 := stopAxis a (((s.put (F.MOT_AXa_STAT_FAULT a) 1).put (F.MOT_AXa_STAT_FCAUSE a) cause).raise (96 + a.val))
  if cause = 2 then s1.modAxis a fun x => { x with off := true } else s1

end Sys2Proof.Machine
end

