-- ==== Sys2Proof/Machine/WorkOps.lean ====
section
/-! DEFINITION. Operations of the work path (chapter 2): descriptors and their checks, sequence numbers, bands and their
end, completion records, the journal and the resume of a channel. -/

namespace Sys2Proof.Machine

/-! ## DMA and the journal -/

/-- Whether the device may issue DMA: link up, Bus Master Enable of PF0 set and HOST ON (R305). -/
def State.dmaUp (s : State) : Bool := s.host.linkUp && s.host.bme && !s.host.d3.get 0 && s.domOn 0

/-- Whether descriptors, image data and tables may be fetched: DMA possible and no supply warning stopping it (R347). -/
def State.dmaOk (s : State) : Bool := s.dmaUp && !s.flag F.PWR_MON_STAT_WARN

/-- LASTSEQ: the SEQ of the newest band record, or of a SETSEQ given after it (R53). -/
def ChJnl.lastSeq (j : ChJnl) : Nat :=
  match j.setSeq with
  | some v => v
  | none => match j.recs.getLast? with
    | some r => r.desc.seq
    | none => 0

/-- The page flag OPEN (R39). -/
def ChJnl.openPage (j : ChJnl) : Bool :=
  !j.closed && match j.recs.getLast? with
    | some r => !r.desc.pend
    | none => false

/-- The next SEQ after s in the cycle 1 to 0xFFFF_FFFF. -/
def nextSeq (s : Nat) : Nat := if s + 1 < 2 ^ 32 then s + 1 else 1

/-- How many steps of the cycle lead from s up to t. -/
def seqDist (s t : Nat) : Nat := (t + (2 ^ 32 - 1) - s) % (2 ^ 32 - 1)

/-- Whether t is later than s in serial order: within the half of the cycle after s. The spec does not say where "later" ends (DESIGN
CHOICE, log 153). -/
def seqAfter (t s : Nat) : Bool := let d := seqDist s t; 0 < d && d < 2 ^ 31

/-! ## Descriptors -/

/-- The descriptor a 64-byte string spells (R36). -/
def descOf (b : List Byte) : Desc :=
  { seq := fieldAt b 0 4, lines := fieldAt b 4 2, fmt := fieldAt b 6 1 % 4, mtx := fieldAt b 6 1 / 4 % 4,
    pass := fieldAt b 6 1 / 16, pstart := bitAt (fieldAt b 7 1) 0, pend := bitAt (fieldAt b 7 1) 1,
    irq := bitAt (fieldAt b 7 1) 2, arm := fieldAt b 7 1 / 8 % 4, buf := fieldAt b 8 8, stride := fieldAt b 16 4,
    width := fieldAt b 20 2 % 8192, tag := fieldAt b 24 8 }

/-- Bytes of one image line: WIDTH for contone, a quarter of it rounded up for pre-screened input. -/
def Desc.lineSize (d : Desc) : Nat := if d.fmt = 0 then d.width else (d.width + 3) / 4

/-- Bytes a band takes of the band space. -/
def Desc.imageSize (d : Desc) : Nat := d.lines * d.lineSize

/-- The band space of a channel, 496 MiB (R34). -/
def bandSpace : Nat := 496 * 2 ^ 20

/-- The field ranges and reserved fields of R36. -/
def formatOk (b : List Byte) (d : Desc) : Bool :=
  d.seq ≠ 0 && 1 ≤ d.lines && d.fmt ≤ 1 && d.arm ≤ 2 && fieldAt b 7 1 / 32 == 0 && d.buf % 64 == 0 &&
  d.stride % 64 == 0 && d.lineSize ≤ d.stride && 1 ≤ d.width && d.width ≤ 4096 && fieldAt b 20 2 / 8192 == 0 &&
  fieldAt b 22 2 == 0 && (bytesAt b 32 28).all (· == 0)

/-- The page check of R39. -/
def pageOk (j : ChJnl) (d : Desc) : Bool := d.pstart != j.openPage

/-- The checks of R38 in order: 0 for a pass, else the status code of the first failure (R42). -/
def checkDesc (j : ChJnl) (b : List Byte) : Nat :=
  let d := descOf b
  if BitVec.ofNat 32 (fieldAt b 60 4) ≠ crc32c (bytesAt b 0 60) then 0x12
  else if !formatOk b d then 0x13
  else
    let want := nextSeq j.lastSeq
    if d.seq ≠ want then (if let k := seqDist d.seq want; 1 ≤ k ∧ k ≤ 2 ^ 31 then 0x10 else 0x11)
    else if pageOk j d then 0 else 0x14

/-! ## Lines and bands -/

/-- Whether an offset is a register or a table of channel n's image path (R82, R85). -/
def imgOwn (n : Fin 16) (a : Nat) : Bool :=
  let o := a - (0x1000000 + n.val * 0x100000)
  decide (0x1000000 + n.val * 0x100000 ≤ a) && ((0x10000 ≤ o && decide (o < 0x20000)) || (0x80000 ≤ o && decide (o < 0xA0000)))

/-- The state as lines of page `pg` of channel n are screened: a page begun before settings applied keeps those that were in effect
for it, the contents of its tables with them (R21, R85). -/
def State.imgFor (s : State) (n : Fin 16) (pg : Nat) : State :=
  match (s.ch n).img.old.find? fun x => decide (pg < x.page) with
  | some x => { s with bar := x.regs ++ sparseDrop (imgOwn n) s.bar }.modImg n fun i => { i with mtx := x.mtx }
  | none => s

/-- The delays of the eight rows in effect, in a direction. -/
def State.rowDelays (s : State) (n : Fin 16) (back : Bool) : List Nat :=
  (List.range 8).map fun r => if back then s.get (F.CHn_FT_ROWDLYr_DLYB n r) else s.get (F.CHn_FT_ROWDLYr_DLYF n r)

/-- The row delays of a page: those in effect at its line 0, or before that those in effect now (R158). -/
def State.pageDelays (s : State) (n : Fin 16) (pg : Nat) (back : Bool) : List Nat :=
  match (s.ch n).ft.pageDly.find? (fun x => x.1 == pg) with
  | some x => x.2
  | none => s.rowDelays n back

/-- The largest row delay in use, over rows 0 to NROWS (R45). -/
def State.maxOf (s : State) (n : Fin 16) (l : List Nat) : Nat :=
  (l.take (s.get (F.CHn_IMG_GEOM_NROWS n) + 1)).foldl max 0
def State.maxDelay (s : State) (n : Fin 16) (pg : Nat) (back : Bool) : Nat := (s.imgFor n pg).maxOf n (s.pageDelays n pg back)

/-- The row delays in effect become those of a page that has none yet; pages with no band left are forgotten (R158). -/
def fixDelays (n : Fin 16) (pg : Nat) (back : Bool) (s : State) : State :=
  let kept := (s.ch n).ft.pageDly.filter fun x => (s.ch n).work.bands.any fun b => b.page == x.1
  let l := s.rowDelays n back
  s.modFt n fun f => { f with pageDly := if kept.any (fun x => x.1 == pg) then kept else (pg, l) :: kept }

/-- Direction of the current page: true for backward (CHn_FT_STAT.DIR). -/
def State.pageDir (s : State) (n : Fin 16) : Bool := s.flag (F.CHn_FT_STAT_DIR n)

/-- The direction and the arming kind of the current page, true for SOS. -/
def State.pageKind (s : State) (n : Fin 16) : Bool × Bool := (s.pageDir n, (s.ch n).ft.sosk)

/-- The page with which the lines behind a refired one go on has its direction and arming kind again (R157). -/
def toSkipKind (n : Fin 16) (s : State) : State :=
  match (s.ch n).work.skipKind with
  | some k => setKind n k s
  | none => s

/-- Fire lines a band gives: its LINES, and after a band with PEND the trailer lines (R45). -/
def Band.total (b : Band) (md : Nat) : Nat := b.desc.lines + (if b.desc.pend then md else 0)

/-- Change the bands of a channel. -/
def setBands (n : Fin 16) (f : List Band → List Band) (s : State) : State :=
  s.modWork n fun w => { w with bands := f w.bands }

/-- The band with a SEQ, if it is unretired. -/
def State.band? (s : State) (n : Fin 16) (seq : Nat) : Option Band :=
  (s.ch n).work.bands.find? (fun b => b.desc.seq == seq)

/-- The next line after page `pg` and `cnt` of its lines, over bands not yet DONE: band, line index, page and count L. `md` is
the largest row delay of a page. -/
def nextLineOf (md : Nat → Nat) (pg cnt : Nat) : List Band → Option (Band × Nat × Nat × Nat)
  | [] => none
  | b :: bs =>
    if b.state = .done ∨ b.state = .retired then nextLineOf md pg cnt bs
    else if b.page < pg then nextLineOf md pg cnt bs
    else
      let l := if b.page = pg then max cnt b.l0 else b.l0
      if l < b.l0 + b.total (md b.page) then some (b, l - b.l0, b.page, l) else nextLineOf md pg cnt bs

/-- The line to be decided next. -/
def State.pendingLine (s : State) (n : Fin 16) : Option (Band × Nat × Nat × Nat) :=
  let w := (s.ch n).work
  nextLineOf (fun p => s.maxDelay n p (s.pageDir n)) w.decPage w.decL w.bands

/-- The page and count of its lines that the channel goes on with after a line: behind a line that is refired, the lines skipped
meanwhile are passed over (R58). -/
def Work.afterLine (w : Work) (l : Line) : Nat × Nat :=
  if w.refire = some (l.seq, l.line) then w.skipTo.getD (l.page, l.l + 1) else (l.page, l.l + 1)

/-- Whether the page of the last decided line has all its lines, trailer lines included, decided: no line of it is left
and its last band has PEND; or no page has been begun. -/
def State.pageOver (s : State) (n : Fin 16) : Bool :=
  match s.pendingLine n with
  | some (_, _, p, _) => p != (s.ch n).work.decPage
  | none =>
    match (s.journal n).recs.getLast? with
    | some r => r.desc.pend || (s.journal n).closed
    | none => true

/-! ## Completion records -/

/-- Entries of a ring. -/
def ringSize (log2 : Nat) : Nat := 2 ^ log2

/-- Whether the completion ring is full (R49). -/
def State.cmpFull (s : State) (n : Fin 16) : Bool :=
  (s.get (F.WRK_CMPn_TAIL_TAIL n) + 1) % ringSize (s.ch n).work.cmpLog == s.get (F.WRK_CMPn_HEAD_HEAD n)

/-- The 32 bytes of a completion record (R48). NPART stops at its largest value (DESIGN CHOICE, log 135). -/
def recBytes (r : DueRec) (phase : Bool) : List Byte :=
  leBytes 4 r.seq ++ leBytes 1 r.status ++ leBytes 1 (b2n phase + 2 * b2n r.reject + 4 * b2n r.resumed) ++
  leBytes 2 (min r.npart 65535) ++ leBytes 4 r.nfired ++ leBytes 4 r.boot ++ leBytes 8 r.tag ++ leBytes 8 r.time

/-- Whether a record can be written: DMA possible, no earlier record waiting to be written again (R304), START given since
the last resume (R55) and a slot free. -/
def State.canPost (s : State) (n : Fin 16) : Bool :=
  s.dmaUp && (s.ch n).work.rewrite.isNone && !(s.ch n).work.awaitStart && !s.cmpFull n

/-- Write a record at the tail and advance it; PHASE inverts on the wrap (R48). -/
def postRecord (n : Fin 16) (r : DueRec) (s : State) : State :=
  let w := (s.ch n).work
  let t := s.get (F.WRK_CMPn_TAIL_TAIL n)
  let ph := s.flag (F.WRK_CMPn_TAIL_PHASE n)
  let t' := (t + 1) % ringSize w.cmpLog
  let s1 := s.emit (.hostWrite (w.cmpBase + 32 * t) (recBytes r ph))
  let s2 := (s1.put (F.WRK_CMPn_TAIL_TAIL n) t').put (F.WRK_CMPn_TAIL_PHASE n) (b2n (if t' = 0 then !ph else ph))
  s2.modWork n fun x =>
    { x with unread := x.unread ++ [(r.seq, r.reject)], lastRec := some (w.cmpBase + 32 * t, recBytes r ph) }

/-- Write the re-posted records at the head of the queue while slots are free (R55). `k` bounds their number. -/
def postReposts (n : Fin 16) : Nat → State → State
  | 0, s => s
  | k + 1, s =>
    match (s.ch n).work.due with
    | r :: rest =>
      if r.repost && s.canPost n then
        let s1 := postRecord n r (s.modWork n fun w => { w with due := rest })
        postReposts n k (if r.irq || r.status != 0 then s1.raiseCh n 0 else s1)
      else if r.repost && !(s.ch n).work.awaitStart && s.cmpFull n then s.raiseCh n 5
      else s
    | [] => s

/-- A record falls due: with the ring full, CMPFULL is raised (R49, R62). -/
def queueDue (n : Fin 16) (r : DueRec) (s : State) : State :=
  let s1 := s.modWork n fun w => { w with due := w.due ++ [r] }
  if s1.cmpFull n then s1.raiseCh n 5 else s1

/-! ## The end of a band -/

/-- STATUS of a band that is DONE (R42). -/
def Band.status (b : Band) : Nat := if b.abandoned then 2 else if b.hadPart then 1 else 0

/-- The completion record of a DONE band (R48, R436). -/
def Band.record (b : Band) : DueRec :=
  { seq := b.desc.seq, status := b.status, reject := false, repost := false, irq := b.desc.irq, resumed := b.reinst,
    npart := b.npart, nfired := b.fired, boot := b.lastBoot, tag := b.desc.tag, time := b.lastTime }

/-- Change the journal record of an unretired band; a retired one of the same SEQ, from before a SETSEQ, stays. -/
def modRec (n : Fin 16) (seq : Nat) (f : BandRec → BandRec) (s : State) : State :=
  s.modJnl n fun j => { j with recs := j.recs.map fun r => if r.desc.seq = seq ∧ r.state ≠ .retired then f r else r }

/-- Whether the condition of R45 holds of a band when `cnt` lines of page `pg` are fired or resolved. -/
def Band.met (b : Band) (md pg cnt : Nat) : Bool := b.page < pg || (b.page == pg && b.l0 + b.desc.lines + md ≤ cnt)

/-- Whether the ledger has an entry of a band when `cnt` lines of page `pg` are fired or resolved (R44). -/
def Band.hasEntry (b : Band) (pg cnt : Nat) : Bool := b.page < pg || (b.page == pg && decide (b.l0 < cnt)) || b.hadPart

/-- A RELEASED band that has a ledger entry is FIRING: one that was reinstated or whose lines were skipped has had its first entry
before (R44; DEDUCED, log 165). -/
def noteFiring (n : Fin 16) (s : State) : State :=
  s.modWork n fun w => { w with bands := w.bands.map fun b =>
    if b.state = .released ∧ b.hasEntry w.firedPage w.firedL then { b with state := .firing } else b }

/-- Every FIRING band whose lines and owed rows are all fired or resolved goes to DONE, in SEQ order, and its record falls due
(R44, R45). -/
def checkDone (n : Fin 16) (s0 : State) : State :=
  let s := noteFiring n s0
  let w := (s.ch n).work
  let ready := w.bands.filter fun b =>
    b.state == .firing && b.met (s.maxDelay n b.page (s.pageDir n)) w.firedPage w.firedL
  ready.foldl (fun s b =>
    queueDue n { b with state := .done }.record (modBand n b.desc.seq (fun b => { b with state := .done }) s)) s

/-- R45 judged outside a firing window: inside it the last line's entry may yet become PARTIAL (R52; DEDUCED, log 124). -/
def settleDone (n : Fin 16) (s : State) : State := if s.inWindow n then s else checkDone n s

/-- A band goes to DONE with status ABANDONED, journalled (R53, R58). -/
def abandonBand (n : Fin 16) (b : Band) (s : State) : State :=
  let b' := { b with state := .done, abandoned := true, lastTime := s.devTime, lastBoot := s.boot.bootCnt, img := [] }
  let s1 := modBand n b.desc.seq (fun _ => b') s
  queueDue n b'.record (modRec n b.desc.seq (fun r =>
    { r with state := .done, status := 2, npart := b.npart, nfired := b.fired, time := b'.lastTime, boot := b'.lastBoot })
    s1)

/-- With no band left whose image failed and that is not READY since, cause 4 is resolved (R56; DEDUCED, log 21). -/
def dropCause4 (n : Fin 16) (s : State) : State :=
  if (s.ch n).work.bands.any (fun b => b.state == .loading && b.failed) then s
  else s.modWork n fun w => { w with causes := w.causes.filter (· != 4) }

/-! ## Position, checkpoint, resume -/

/-- The position registers of the ledger (R435). -/
def State.ledPos (s : State) (n : Fin 16) : Posn :=
  { seq := s.get (F.CHn_LED_SEQ_SEQ n), line := s.get (F.CHn_LED_LINE_LINE n), state := s.get (F.CHn_LED_LINE_STATE n),
    dir := s.flag (F.CHn_LED_LINE_DIR n), sosk := s.flag (F.CHn_LED_LINE_SOSK n) }

/-- The entries of the ledger written since its last flush, at most 256, oldest first, each with SYS_BOOTCNT at its writing (DESIGN
CHOICE, log 11). -/
def State.ledSince (s : State) (n : Fin 16) : List (List Word) :=
  let c := s.get (F.CHn_LED_COUNT_COUNT n)
  let k := min 256 ((c + 2 ^ 32 - (s.ch n).work.flushedTo) % 2 ^ 32)
  (List.range k).map fun i => s.ledEntry n (c + 2 ^ 32 - k + i) (k - 1 - i)

/-- The 256 entries of the ledger, oldest first. -/
def State.ledAll (s : State) (n : Fin 16) : List (List Word) :=
  (List.range 256).map fun i => s.ledEntry n (s.get (F.CHn_LED_COUNT_COUNT n) + i) (255 - i)

/-- The flush writes each channel's position and entries and then its completion mark (R53); lines uncertain behind that position stay
so (R60; DEDUCED, log 166). -/
def completeFlush (s : State) : State :=
  let s1 := s.eachCh fun n s =>
    let img := (s.ledPos n, s.ledSince n)
    ((s.modJnl n fun j => { j with flush := some img, flushUnc := s.get (F.CHn_LED_UNC_COUNT n) }).modWork n fun w =>
      { w with flushedTo := s.get (F.CHn_LED_COUNT_COUNT n) }).put (F.CHn_LED_FLUSH_DONE n) 1
  { s1 with pwr := { s1.pwr with flush := none } }

/-- A checkpoint of the channel (R54). -/
def State.ckptNow (s : State) (n : Fin 16) : Ckpt :=
  { pos := s.ledPos n, ackSeq := (s.ch n).work.ackSeq, boot := s.boot.bootCnt, time := s.devTime,
    nrate := min 65535 (((s.ch n).work.fireTicks.filter fun t => s.tick < t + msTicks).length) }

/-- The four 64-bit words of a checkpoint slot, the word with the CRC last (R54). -/
def ckptWords (c : Ckpt) : List (BitVec 64) :=
  let b := leBytes 4 c.pos.seq ++ leBytes 3 c.pos.line ++
    leBytes 1 (c.pos.state % 4 + 4 * b2n c.pos.dir + 8 * b2n c.pos.sosk) ++ leBytes 4 c.ackSeq ++ leBytes 4 c.boot ++
    leBytes 8 c.time ++ leBytes 2 c.nrate ++ leBytes 2 0
  let all := b ++ leBytes 4 (crc32c b).toNat
  (List.range 4).map fun i => BitVec.ofNat 64 (fieldAt all (8 * i) 8)

/-- The checkpoint of a slot whose CRC passes (R54). -/
def ckptOf (ws : List (BitVec 64)) : Option Ckpt :=
  let b := ws.flatMap fun w => leBytes 8 w.toNat
  if b.length = 32 ∧ BitVec.ofNat 32 (fieldAt b 28 4) = crc32c (bytesAt b 0 28) then
    some { pos := { seq := fieldAt b 0 4, line := fieldAt b 4 3, state := fieldAt b 7 1 % 4, dir := bitAt (fieldAt b 7 1) 2,
                    sosk := bitAt (fieldAt b 7 1) 3 },
           ackSeq := fieldAt b 8 4, boot := fieldAt b 12 4, time := fieldAt b 16 8, nrate := fieldAt b 24 2 }
  else none

/-- The checkpoint: the newest slot whose CRC passes (R54). -/
def ChJnl.ckpt (j : ChJnl) : Option Ckpt := j.ckpts.reverse.findSome? ckptOf

/-- The bands that the unretired records of the journal describe, with page ordinals, oldest first. -/
def recBands (recs : List BandRec) : List (BandRec × Nat) :=
  (recs.foldl (fun (acc : List (BandRec × Nat) × Nat) r =>
    let p := if r.desc.pstart then acc.2 + 1 else acc.2
    ((r, p) :: acc.1, p)) ([], 0)).1.reverse

/-- The page ordinal and the count of lines at or before a position. -/
def posCount (rb : List (BandRec × Nat)) (pos : Posn) : Nat × Nat :=
  match rb.reverse.find? (fun x => x.1.desc.seq == pos.seq) with
  | some (r, p) => (p, r.l0 + pos.line + 1)
  | none => (0, 0)

/-- The time of a band's newest entry among ledger entries, oldest first, and SYS_BOOTCNT at its writing; free values if none is left
(R48; DESIGN CHOICE, log 11). -/
def entryTime (s : State) (i seq : Nat) (es : List (List Word)) : Nat × Nat :=
  let free (k : Nat) : Nat := (Config.freeWord (s.free + 3 * i + k)).toNat
  match es.reverse.find? (fun e => (e.getD 0 0).toNat == seq) with
  | some e => ((e.getD 2 0).toNat + 2 ^ 32 * (e.getD 3 0).toNat, (e.getD 4 0).toNat)
  | none => (free 0 + 2 ^ 32 * free 1, free 2)

/-- Whether a PARTIAL entry of a band stands among ledger entries (R50). -/
def hadPartial (seq : Nat) (es : List (List Word)) : Bool :=
  es.any fun e => (e.getD 0 0).toNat == seq && getBits (e.getD 1 0) 24 2 == 1

/-- A band rebuilt from its record (R59, R436): DONE if abandoned or if R45 is met at the resume position, an unresolved PARTIAL
line there being neither fired nor resolved; else ACCEPTED, to be fetched from its first unfired line less the largest row delay, where
an unresolved PARTIAL line is such a line (DEDUCED, log 15).
A PARTIAL line resolved before the reset shows in the status while the entries `es` hold it (DEDUCED, log 125). -/
def reinstate (md : Nat) (pc : Nat × Nat) (pos : Posn) (part : Bool) (es : List (List Word)) (rp : BandRec × Nat) : Band :=
  let r := rp.1
  let pg := rp.2
  let b : Band :=
    { desc := r.desc, state := .accepted, l0 := r.l0, page := pg, accTime := r.accTime, accBoot := r.accBoot,
      abandoned := false, reinst := true, fired := 0, npart := 0, hadPart := false, lastTime := r.accTime,
      lastBoot := r.accBoot, first := 0, img := [], fails := 0, failTick := none, needRefetch := false, failed := false }
  let past := if pg < pc.1 then r.desc.lines + (if r.desc.pend then md else 0)
    else if pg = pc.1 then min (pc.2 - r.l0) (b.total md) else 0
  let bad := part && r.desc.seq == pos.seq
  let b1 := { b with fired := past, npart := b2n bad, hadPart := bad || hadPartial r.desc.seq es }
  if r.state = .done then
    { b1 with state := .done, abandoned := true, fired := r.nfired, npart := r.npart, lastTime := r.time,
              lastBoot := r.boot }
  else if b.met md pc.1 (pc.2 - b2n part) then { b1 with state := .done }
  else { b1 with first := min (past - b2n bad) r.desc.lines - md }

/-- The record that is posted again for a retired band (R55). -/
def BandRec.again (r : BandRec) : DueRec :=
  { seq := r.desc.seq, status := r.status, reject := false, repost := true, irq := r.desc.irq, resumed := true,
    npart := r.npart, nfired := r.nfired, boot := r.boot, tag := r.desc.tag, time := r.time }

/-- Every field of Work that a reset of the channel clears, at its reset value; what the AON ledger keeps stays. A descriptor in
hand and rejection records that wait go with the rest (DESIGN CHOICE, log 126). -/
def Work.cleared (w : Work) : Work :=
  { Work.reset with ledgerValid := w.ledgerValid, flushedTo := w.flushedTo, boots := w.boots, cmpBase := w.cmpBase, cmpLog := w.cmpLog,
                    scrLog := w.scrLog, ackSeq := w.ackSeq, unread := w.unread }

/-- The resume of R59: the channel rebuilds its work from the journal and the best source of its position, and enters
RESUME_WAIT if it has an unretired band and IDLE otherwise. A PARTIAL line of an abandoned band needs nothing; one whose REFIRE
had not been fired is unresolved again (DEDUCED, log 127). Uncertain lines that no REFIRE or SKIP has settled stay uncertain through
a further reset, which finds their count with the position it takes (R60; DEDUCED, log 166). The page of the position has begun before the
reset, so settings that apply from here on are not its own (R85). A command that waits goes on waiting (R57). -/
def resumeCh (n : Fin 16) (s : State) : State :=
  let j := s.journal n
  let w := (s.ch n).work
  let src := if w.ledgerValid then 0 else if j.flush.isSome then 1 else 2
  let zero : Posn := { seq := 0, line := 0, state := 0, dir := false, sosk := false }
  let ck := j.ckpt.getD { pos := zero, ackSeq := 0, boot := 0, time := 0, nrate := 0 }
  let pos := if src = 0 then s.ledPos n else if src = 1 then (j.flush.map (·.1)).getD zero else ck.pos
  let rb := recBands j.recs
  let pc := posCount rb pos
  let md := s.maxOf n (s.rowDelays n pos.dir)
  let part := (pos.state == 1 || (src == 0 && s.flag (F.CHn_LED_PLINE_PEND n))) && j.recs.any fun r =>
    r.desc.seq == pos.seq && r.state != .retired && r.state != .done
  let es := if src = 0 then s.ledAll n else if src = 1 then (j.flush.map (·.2)).getD [] else []
  let unret := rb.filter fun x => x.1.state != .retired
  let bands : List Band := List.mapIdx (fun i b =>
    if b.abandoned then b else { b with lastTime := (entryTime s i b.desc.seq es).1, lastBoot := (entryTime s i b.desc.seq es).2 })
    (unret.map (reinstate md pc pos part es))
  let dones : List DueRec := List.map Band.record (List.filter (fun b : Band => b.state == BandState.done) bands)
  let lastPage := (rb.getLast?.map fun x : BandRec × Nat => x.2).getD 0
  let reposts := (rb.filter fun x => x.1.state == .retired && seqAfter x.1.desc.seq ck.ackSeq).map (·.1.again)
  let unc := if bands.isEmpty then 0 else if src = 2 then max (min 255 ((5 * ck.nrate + 3) / 4 + 1)) j.ckptUnc
    else if src = 0 then s.get (F.CHn_LED_UNC_COUNT n) else j.flushUnc
  let s1 := ({ s with free := s.free + 3 * bands.length }.modImg n fun i => { i with begun := pc.1 }).modWork n fun w =>
    { w.cleared with
      waitCmd := w.waitCmd,
      bands := bands, due := reposts ++ dones, ackSeq := ck.ackSeq,
      awaitStart := true, pageNo := lastPage, decPage := pc.1, decL := pc.2, firedPage := pc.1,
      firedL := pc.2 - b2n part, ledgerValid := true,
      causes := (if part then [3] else []) ++ (if unc = 0 then [] else [6]) }
  let s2 := (s1.put (F.CHn_LED_FLUSH_SRC n) src).put (F.CHn_LED_UNC_COUNT n) unc
  let s3 := if src = 0 then s2 else
    (s2.put (F.CHn_LED_SEQ_SEQ n) pos.seq).setWord (A.CHn_LED_LINE n)
      (BitVec.ofNat 32 (pos.line + 2 ^ 24 * (pos.state + 4 * b2n pos.dir + 8 * b2n pos.sosk)))
  let s4 := if part then
    ((s3.put (F.CHn_LED_PSEQ_SEQ n) pos.seq).put (F.CHn_LED_PLINE_LINE n) pos.line).put (F.CHn_LED_PLINE_PEND n) 1
    else s3.put (F.CHn_LED_PLINE_PEND n) 0
  let s5 := s4.put (F.WRK_SCRn_STAT_HCAUSE n) 0
  if bands.isEmpty then s5.put (F.WRK_SCRn_STAT_STATE n) 0
  else (s5.put (F.WRK_SCRn_STAT_STATE n) 3).raiseCh n 4

end Sys2Proof.Machine
end

