-- ==== Sys2Proof/Machine/FireOps.lean ====
section
/-! DEFINITION. Operations of fire timing (chapter 6) over the channel's own tracker (chapter 5): positions, the high-water
mark, arming and re-arming, underrun, and the loss of the line position. -/

namespace Sys2Proof.Machine

/-! ## Commit conditions -/

/-- Slot t of the capo engine, and the state with it changed. -/
def State.slot (s : State) (t : Fin 16) : CapoSlot := s.capo.get t
def State.modSlot (s : State) (t : Fin 16) (f : CapoSlot → CapoSlot) : State :=
  { s with capo := s.capo.set t (f (s.slot t)) }

/-- A commit condition occurs: it is met in each ARMED slot that names it, within its commit window, and remembered in no
other (R204). -/
def capoCond (cond arg : Nat) (s : State) : State :=
  (List.finRange 16).foldl (fun (s : State) (t : Fin 16) =>
    let tm := s.get (F.CAPO_TXt_TMO_CMTTMO t)
    if s.get (F.CAPO_TXt_STAT_STATE t) = 4 ∧ s.get (F.CAPO_TXt_CTRL_COND t) = cond ∧
       (cond = 0 ∨ s.get (F.CAPO_TXt_CTRL_ARG t) = arg) ∧ (s.slot t).cond = none ∧
       (tm = 0 ∨ s.tick < (s.slot t).startTick + tm * msTicks) then
      s.modSlot t fun c => { c with cond := some s.tick }
    else s) s

/-! ## Trackers -/

/-- Encoder e in front end i (16 is POS itself), and the state with it changed. -/
def State.fe (s : State) (i : Fin 17) (e : Fin 4) : EncFe := (s.pos.fes.get i).get e
def State.modFe (s : State) (i : Fin 17) (e : Fin 4) (f : EncFe → EncFe) : State :=
  { s with pos := { s.pos with fes := s.pos.fes.set i ((s.pos.fes.get i).set e (f (s.fe i e))) } }

/-- Encoder e is changed in every front end. -/
def everyFe (e : Fin 4) (f : EncFe → EncFe) (s : State) : State :=
  (List.finRange 17).foldl (fun (s : State) (i : Fin 17) => s.modFe i e f) s

/-- The pair as front end i keeps it, and the state with it changed. -/
def State.pairOf (s : State) (i : Fin 17) : PairSt := s.pos.pairs.get i
def State.modPair (s : State) (i : Fin 17) (f : PairSt → PairSt) : State :=
  { s with pos := { s.pos with pairs := s.pos.pairs.set i (f (s.pairOf i)) } }

/-- What POS keeps of encoder e, and the state with it changed. -/
def State.encOf (s : State) (e : Fin 4) : EncPos := s.pos.enc.get e
def State.modEnc (s : State) (e : Fin 4) (f : EncPos → EncPos) : State :=
  { s with pos := { s.pos with enc := s.pos.enc.set e (f (s.encOf e)) } }

/-- The front end of channel n, and POS's own. -/
def feCh (n : Fin 16) : Fin 17 := ⟨n.val, by omega⟩
def fePos : Fin 17 := 16

/-- Primary and secondary of the redundant pair (POS_PAIR_CTRL.PRI). -/
def State.pri (s : State) : Fin 4 := if s.flag F.POS_PAIR_CTRL_PRI then 1 else 0
def State.sec (s : State) : Fin 4 := if s.flag F.POS_PAIR_CTRL_PRI then 0 else 1
def State.pairEn (s : State) : Bool := s.flag F.POS_PAIR_CTRL_EN

/-- A count as a signed number. -/
def cntInt (c : BitVec 48) : Int := toSigned 48 c.toNat

/-- POS's count of encoder e: its own, or that of the channel tracker it has substituted (R126). -/
def State.posFe (s : State) (e : Fin 4) : Fin 17 :=
  match (s.encOf e).sub with
  | some n => feCh n
  | none => fePos
def State.posCnt (s : State) (e : Fin 4) : BitVec 48 := (s.fe (s.posFe e) e).cnt

/-- The count of encoder e that front end i works with. -/
def State.cntOf (s : State) (i : Fin 17) (e : Fin 4) : BitVec 48 := if i = fePos then s.posCnt e else (s.fe i e).cnt

/-- K × S in 48.24 for front end i. -/
def State.kS (s : State) (i : Fin 17) : Int := (s.get F.POS_PAIR_K_K : Int) * cntInt (s.cntOf i s.sec)

/-- P − K × S in 48.24, as every difference of counts modulo 2^48 (R116, R128). -/
def State.pairGap (s : State) (i : Fin 17) : Int :=
  toSigned 72 (ofSigned 72 (cntInt (s.cntOf i s.pri) * 2 ^ 24 - s.kS i))

/-- Whether OFS follows the mean: both fault counts 0 in the window, neither faulty, on the primary (R128, R130). -/
def State.ofsTracks (s : State) (i : Fin 17) : Bool :=
  !(s.pairOf i).onSec && (s.fe i s.pri).fc == 0 && (s.fe i s.sec).fc == 0 && !(s.fe i s.pri).faulty &&
  !(s.fe i s.sec).faulty

/-- The sum over the ticks of the last 1,024 samples up to `upto` of the value each sample saw, and the number of those
ticks; `hi` is where the segment of the newest entry ends. -/
def histSum (lo : Nat) : Nat → List (Nat × Int) → Int × Nat
  | _, [] => (0, 0)
  | hi, (t, v) :: r =>
    if t ≤ lo then ((hi - lo : Nat) * v, hi - lo)
    else
      let x := histSum lo t r
      ((hi - t : Nat) * v + x.1, (hi - t) + x.2)

/-- A history with nothing older than `lo` but the newest such entry. -/
def pruneHist {α : Type} (lo : Nat) : List (Nat × α) → List (Nat × α)
  | [] => []
  | x :: r => if x.1 < lo then [x] else x :: pruneHist lo r

/-- The mean of P − K × S over the last 1,024 samples of 5 ns, rounded to 48.16; the values are taken as they differ from the
newest modulo 2^48 (R116, R128). -/
def histMean (upto : Nat) (h : List (Nat × Int)) : Int :=
  let v0 := (h.head?.map (·.2)).getD 0
  let x := histSum (upto + 2 - 2048) (upto + 2) (h.map fun y => (y.1, v0 + toSigned 72 (ofSigned 72 (y.2 - v0))))
  if x.2 = 0 then 0 else toSigned 64 (ofSigned 64 (roundDiv x.1 (256 * x.2)))

/-- OFS in 48.16 (R128). -/
def State.pairOfs (s : State) (i : Fin 17) : Int :=
  if s.ofsTracks i then histMean s.tick (s.pairOf i).hist else (s.pairOf i).ofs

/-- The stand-in for the primary count, K × S + OFS in 48.16 (R128). -/
def State.standIn (s : State) (i : Fin 17) : Int := floorDiv (s.kS i) 256 + s.pairOfs i

/-- The pair position in 48.16: the primary count, or K × S + OFS on the secondary (R129). -/
def State.pairPos (s : State) (i : Fin 17) : BitVec 64 :=
  if (s.pairOf i).onSec then BitVec.ofInt 64 (s.standIn i) else BitVec.ofInt 64 (cntInt (s.cntOf i s.pri) * 65536)

/-- How far the primary count lies from its stand-in, in 48.16, modulo 2^48 (R116, R129, R130). -/
def State.pairDiff (s : State) (i : Fin 17) : Nat :=
  (BitVec.ofInt 64 (cntInt (s.cntOf i s.pri) * 65536 - s.standIn i)).toInt.natAbs

/-- A source as encoder index. -/
def encOfSrc (v : Nat) : Option (Fin 4) := if h : v < 4 then some ⟨v, h⟩ else none

/-- The line position of channel n from its own tracker, 48.16 in encoder coordinates. -/
def State.linePos (s : State) (n : Fin 16) : BitVec 64 :=
  match encOfSrc (s.get (F.CHn_FT_CTRL_SRC n)) with
  | some e => BitVec.ofInt 64 (cntInt (s.fe (feCh n) e).cnt * 65536)
  | none => s.pairPos (feCh n)

/-- Print coordinates: negated in a backward page. -/
def printPos (back : Bool) (p : BitVec 64) : BitVec 64 := if back then -p else p

/-- q of channel n: its line position in print coordinates. -/
def State.q (s : State) (n : Fin 16) : BitVec 64 := printPos (s.pageDir n) (s.linePos n)

/-- Whether the line position of channel n is unavailable: a tracker of its line source is failed, its one encoder is faulty, or
both of the pair are (R127; that one failed tracker of the pair is enough is DEDUCED, log 128). -/
def State.posUnavailable (s : State) (n : Fin 16) : Bool :=
  let i := feCh n
  match encOfSrc (s.get (F.CHn_FT_CTRL_SRC n)) with
  | some e => (s.fe i e).failed || (s.fe i e).faulty
  | none => (s.fe i s.pri).failed || (s.fe i s.sec).failed || ((s.fe i s.pri).faulty && (s.fe i s.sec).faulty)

/-- A channel with FIRE_EN = 1 whose line position is unavailable raises POS_LOST and halts with HCAUSE 2 (R127). -/
def posLost (n : Fin 16) (s : State) : State :=
  if s.chOn n && s.flag (F.CHn_FT_CTRL_FIRE_EN n) && s.posUnavailable n then (s.raiseCh n 17).hold n 2 else s

/-! ## Lines, released and pending -/

/-- The pitch, 32.32. -/
def State.pitch (s : State) (n : Fin 16) : BitVec 80 :=
  BitVec.ofNat 80 (s.pair (A.CHn_FT_PITCH_LO n) (A.CHn_FT_PITCH_HI n))

/-- The part of a position that comparisons use: 48.16 (R143). -/
def pos16 (x : BitVec 80) : BitVec 64 := (x >>> 16).truncate 64

/-- Whether h has reached x, with the difference taken as signed (R144). -/
def reached (h x : BitVec 64) : Bool := 0 ≤ (h - x).toInt

/-- A 48.16 position as 48.32. -/
def wide (p : BitVec 64) : BitVec 80 := p.zeroExtend 80 <<< 16

/-- The released lines of page `pg` at or after count `l` that wait for their decision, the duty limiter's line included. -/
def State.releasedLines (s : State) (n : Fin 16) (pg l : Nat) : List Line :=
  let c := s.ch n
  ((match c.dut.dec with
    | some d => [d.line]
    | none => []) ++ c.img.released).filter fun x => x.page == pg && l ≤ x.l

/-- Fire lines of page `pg`, trailer lines included, once its band with PEND has been accepted. -/
def State.pageEnd (s : State) (n : Fin 16) (pg : Nat) : Option Nat :=
  ((s.ch n).work.bands.find? fun b => b.page == pg && b.desc.pend).map fun b => b.l0 + b.total (s.maxDelay n pg (s.pageDir n))

/-- The underrun test: the next line not yet released stands 8 lines or less ahead of the position reached (R56). -/
def State.underrun (s : State) (n : Fin 16) : Bool :=
  let f := (s.ch n).ft
  let w := (s.ch n).work
  match s.pendingLine n with
  | none => f.armed && !s.pageOver n && reached f.h (pos16 (f.x - 8 * s.pitch n))
  | some (_, _, pg, l) =>
    let r := (s.releasedLines n pg l).length
    let ended := match s.pageEnd n pg with
      | some e => decide (e ≤ l + r)
      | none => false
    f.armed && pg == w.decPage && !ended && reached f.h (pos16 (f.x + BitVec.ofNat 80 r * s.pitch n - 8 * s.pitch n))

/-- Halt on underrun with HCAUSE 5 (R56). -/
def checkUnderrun (n : Fin 16) (s : State) : State :=
  if s.wstate n = 1 ∧ s.underrun n then s.hold n 5 else s

/-! ## Counts -/

/-- The recent positions of a channel with a new one at a tick; the one that held before the first recorded change stands at their
end (R153). -/
def addCnt (t : Nat) (old new : BitVec 64) (h : List (Nat × BitVec 64)) : List (Nat × BitVec 64) :=
  pruneHist (t - 520) ((t, new) :: if h.isEmpty then [(0, old)] else h)

/-- The line position of channel n, as it now stands, becomes the newest of its recent positions; before it was `old` (R153). -/
def noteCnt (n : Fin 16) (old : BitVec 64) (s : State) : State :=
  s.modFt n fun f => { f with cntHist := addCnt s.tick old (s.linePos n) f.cntHist }

/-- The same where the line position is not the one it had in s0. -/
def noteMoved (n : Fin 16) (s0 s : State) : State :=
  if s.linePos n = s0.linePos n then s else noteCnt n (s0.linePos n) s

/-- With a page armed, q at H − BKL or lower sets REVERSE, once for each excursion (R145). -/
def reverseAt (n : Fin 16) (q : BitVec 64) (s : State) : State :=
  let f := (s.ch n).ft
  if f.armed ∧ ¬ f.excursion ∧ reached (f.h - q) (BitVec.ofNat 64 (s.get (F.CHn_FT_CTRL_BKL n) * 65536)) then
    (((s.modFt n fun f => { f with excursion := true }).put (F.CHn_FT_STAT_REVERSE n) 1).bump
      (F.CHn_FT_CNT_REVCNT n) 1).raiseCh n 19
  else s

/-- A movement of the line position of channel n from `old` to `new` (encoder coordinates): the high-water mark, the
backlash window, the interpolator's periods and REVERSE (R144, R145, R146). Without a page armed only the periods and
the mark follow. -/
def ftCount (n : Fin 16) (old new : BitVec 64) (s : State) : State :=
  let back := s.pageDir n
  let qo := printPos back old
  let q := printPos back new
  let f := (s.ch n).ft
  let hist := addCnt s.tick old new f.cntHist
  if old = new then s
  else if (q - qo).toInt < 0 then reverseAt n q (s.modFt n fun f => { f with fwd := 0, cntHist := hist })
  else
    let s1 := s.modFt n fun f =>
      { f with t2 := f.t1, t1 := min (s.tick - f.tl) 0xFFFFFF, tl := s.tick, fwd := min (f.fwd + 1) 255,
               h := if reached q f.h then q else f.h, excursion := f.excursion && !reached q f.h, cntHist := hist }
    checkUnderrun n s1

/-- The move `d` that a REZERO step gives the line position of a channel is added to H and X, with the sign of the print
coordinates, and fwd becomes 0 (R150). -/
def ftStep (n : Fin 16) (d : BitVec 64) (s : State) : State :=
  let p := printPos (s.pageDir n) d
  noteCnt n (s.linePos n - d) (s.modFt n fun f => { f with h := f.h + p, x := f.x + ((p.signExtend 80) <<< 16), fwd := 0 })

/-! ## Arming -/

/-- The band with which the next page begins: the first band not DONE of a later page than the last one decided, once it
is accepted and has PSTART. -/
def State.nextPageBand (s : State) (n : Fin 16) : Option Band :=
  match (s.ch n).work.bands.find? fun b => (s.ch n).work.decPage < b.page && b.state != .done && b.state != .retired with
  | some b => if b.desc.pstart then some b else none
  | none => none

/-- Ready to arm: in RUN with FIRE_EN in effect, the previous page all decided, the next page's first band accepted. -/
def State.readyToArm (s : State) (n : Fin 16) : Bool :=
  s.wstate n == 1 && s.flag (F.CHn_FT_CTRL_FIRE_EN n) && !(s.ch n).ft.armed && !(s.ch n).ft.waitMark &&
  !(s.ch n).ft.waitArm && s.pageOver n && (s.nextPageBand n).isSome && !s.posUnavailable n

/-- The kind of arming event the next page needs: 0 FOLLOW, 1 PAGE, 2 SOS; FOLLOW acts as PAGE with no line decided since
START or a re-arm under MARK (R152), which can hold only where no page is in progress. -/
def State.armKind (s : State) (n : Fin 16) : Option Nat :=
  (s.nextPageBand n).map fun b =>
    if b.desc.arm = 0 ∧ s.pageOver n ∧ ¬ (s.ch n).ft.decidedSince then 1 else b.desc.arm

/-- A miss: MISSCNT, MISS, ARM_MISS (R154). -/
def armMiss (n : Fin 16) (s : State) : State :=
  ((s.bump (F.CHn_FT_CNT_MISSCNT n) 1).put (F.CHn_FT_STAT_MISS n) 1).raiseCh n 18

/-- A 32.32 offset register pair as a 48.32 position. -/
def State.ofs32 (s : State) (lo hi : Nat) : BitVec 80 := BitVec.ofNat 80 (s.pair lo hi)

/-- X of line 0 from a page mark at position p, in print coordinates (R152); a backward page that a FOLLOW continued is re-armed
by a mark in its own direction (R157; DEDUCED, log 129). -/
def State.markX (s : State) (n : Fin 16) (back : Bool) (p : BitVec 48) : BitVec 80 :=
  wide (printPos back (BitVec.ofInt 64 (cntInt p * 65536))) + s.ofs32 (A.CHn_FT_TOPOFS_LO n) (A.CHn_FT_TOPOFS_HI n)

/-- X of line 0 from an SOS capture, in print coordinates (R152). -/
def State.sosX (s : State) (n : Fin 16) (cap : BitVec 64) (back : Bool) : BitVec 80 :=
  if back then wide (-cap) + s.ofs32 (A.CHn_FT_SOSOFSB_LO n) (A.CHn_FT_SOSOFSB_HI n)
  else wide cap + s.ofs32 (A.CHn_FT_SOSOFSF_LO n) (A.CHn_FT_SOSOFSF_HI n)

/-- What has been screened of page `pg` and of later ones is discarded; screening begins again at line 0 of `pg`. -/
def dropAhead (n : Fin 16) (pg : Nat) (s : State) : State :=
  let i := (s.ch n).img
  let s1 := if i.started ∧ pg ≤ i.scrPage then s.modImg n fun i =>
      { i with released := i.released.filter (fun x => decide (x.page < pg)), job := none, scrPage := pg, scrL := 0 }
    else s
  match (s.ch n).dut.dec with
  | some d => if d.line.page < pg then s1 else
      (s1.modDut n fun d => { d with dec := none }).modBrg n fun b => { b with sent := false, acked := false, retxed := false }
  | none => s1

/-- The lines on their way through the path: in the pipes, released, and in the duty limiter. -/
def State.linesAhead (s : State) (n : Fin 16) : List Line :=
  let c := s.ch n
  (c.dut.dec.map (·.line)).toList ++ c.img.released ++ (c.img.job.map (·.line)).toList

/-- Lines of the page to be armed that were screened for the wrong direction are discarded, with those of later pages, and
screened again from line 0 (R437). -/
def rescreen (n : Fin 16) (back : Bool) (s : State) : State :=
  match s.nextPageBand n with
  | none => s
  | some b =>
    if (s.linesAhead n).any (fun x => x.page == b.page && x.back != back) then
      (dropAhead n b.page s).modImg n fun i => { i with scrDir := back }
    else s

/-- The page's arming: direction and row delays fixed, H set to q, X to line 0, the interpolator's history cleared when the
direction changes (R152, R158). -/
def armPage (n : Fin 16) (back sos : Bool) (x : BitVec 80) (s : State) : State :=
  let s0 := rescreen n back s
  let turn := s.pageDir n != back
  let q := printPos back (s.linePos n)
  let s1 := ((s0.put (F.CHn_FT_STAT_DIR n) (b2n back)).put (F.CHn_FT_STAT_STATE n) 2).put (F.CHn_FT_LINES_LINES n) 0
  let s2 := s1.modFt n fun f =>
    { f with h := q, x := x, armed := true, excursion := false, sosk := sos, waitMark := false, waitArm := false,
             armedSince := true, latchMark := none, latchSos := none,
             fwd := if turn then 0 else f.fwd, t1 := if turn then 0xFFFFFF else f.t1,
             t2 := if turn then 0xFFFFFF else f.t2, tl := if turn then s.tick else f.tl }
  let s3 := match s.nextPageBand n with
    | some b => fixDelays n b.page back (s2.modWork n fun w => { w with decPage := b.page, decL := 0 })
    | none => s2
  checkUnderrun n s3

/-- An arming event with line 0 at x in direction `back`: a miss if x is already reached, else the page is armed (R154). -/
def tryArm (n : Fin 16) (back sos : Bool) (x : BitVec 80) (s : State) : State :=
  if reached (printPos back (s.linePos n)) (pos16 x) then
    armMiss n (s.modFt n fun f => { f with latchMark := none, latchSos := none })
  else armPage n back sos x s

/-- The grid continues from x for a page whose firing was halted (R157, cases 2 and 3). -/
def rearmAt (n : Fin 16) (x : BitVec 80) (s : State) : State :=
  let s1 := (s.put (F.CHn_FT_STAT_STATE n) 2).put (F.CHn_FT_LINES_LINES n) 0
  let s2 := s1.modFt n fun f =>
    { f with h := s.q n, x := x, armed := true, excursion := false, waitMark := false, waitArm := false, armedSince := true }
  let s3 := match s.pendingLine n with
    | some (_, _, pg, l) => fixDelays n pg (s.pageDir n) (s2.modWork n fun w => { w with decPage := pg, decL := l })
    | none => s2
  checkUnderrun n s3

/-- The pending line waits for an arming event to continue the grid from (R157, case 3). -/
def waitMarkAt (n : Fin 16) (pg l : Nat) (s : State) : State :=
  (s.modFt n fun f => { f with waitMark := true, decidedSince := false }).modWork n fun w => { w with decPage := pg, decL := l }

/-- Re-arming of the pending line when RESUME or START takes effect (R157). With FIRE_EN = 0 in effect no page may be armed: the
line is re-armed once FIRE_EN = 1 applies (DEDUCED, log 130). A FOLLOW page has SOSK = 0 from its line 0 on (R435). The pending line
of an open page whose next band is not yet accepted is re-armed too (DEDUCED, log 30). A page to be armed anew follows the page of the
last ledger entry, from whose direction its own is expected (R437). -/
def rearm (n : Fin 16) (s0 : State) : State :=
  let s := settleDone n s0
  let wait := (s.modFt n fun f => { f with armed := false, waitMark := false, waitArm := false }).put (F.CHn_FT_STAT_STATE n) 1
  let x := wide (s.q n) + s.ofs32 (A.CHn_FT_RESOFS_LO n) (A.CHn_FT_RESOFS_HI n)
  if !s.flag (F.CHn_FT_CTRL_FIRE_EN n) then
    (wait.modFt n fun f => { f with waitArm := true }).put (F.CHn_FT_STAT_STATE n) 0
  else match s.pendingLine n with
  | none =>
    if s.pageOver n then wait
    else if s.flag (F.CHn_FT_CTRL_REARM n) then waitMarkAt n (s.ch n).work.decPage (s.ch n).work.decL wait
    else rearmAt n x s
  | some (b, i, pg, l) =>
    if i = 0 ∧ b.desc.pstart ∧ b.desc.arm ≠ 0 then
      if pg ≤ (s.ch n).work.decPage then
        setKind n (s.ledKind n) (wait.modWork n fun w => { w with decPage := pg - 1, decL := 0 })
      else wait
    else
      let fresh := i = 0 ∧ b.desc.pstart
      if s.flag (F.CHn_FT_CTRL_REARM n) then
        waitMarkAt n pg l (if fresh then wait.modFt n fun f => { f with sosk := false } else wait)
      else rearmAt n x (if fresh then s.modFt n fun f => { f with sosk := false } else s)

/-- An arming event for the re-arming under MARK: discarded as a miss if its X is reached, else the grid continues from
it (R157). -/
def rearmMark (n : Fin 16) (x : BitVec 80) (s : State) : State :=
  if reached (s.q n) (pos16 x) then armMiss n s else rearmAt n x s

/-- An arming event reaches a channel that is not ready to arm: it is latched, and one it replaces counts as a miss once
the kind is known (R154). `sos` names its kind. -/
def latchEvent (n : Fin 16) (sos : Bool) (mark : BitVec 48) (cap : BitVec 64) (back : Bool) (s : State) : State :=
  let f := (s.ch n).ft
  let kind := s.armKind n
  let wanted := match kind with
    | none => true
    | some k => if sos then k = 2 else k = 1
  if !wanted then s
  else
    let miss := kind.isSome && (if sos then f.latchSos.isSome else f.latchMark.isSome)
    let s1 := if sos then s.modFt n fun f => { f with latchSos := some (cap, back) }
      else s.modFt n fun f => { f with latchMark := some mark }
    if miss then armMiss n s1 else s1

/-- A page mark of fret f at its crossing of p reaches channel n (R133, R152 to R155). While the channel waits to re-arm by an
event of the other kind, the mark is one for the next page (R154). -/
def pageMark (f : Nat) (fwd : Bool) (p : BitVec 48) (n : Fin 16) (s : State) : State :=
  if !s.chOn n || !fwd || s.get (F.CHn_FT_PAGE_FRET n) ≠ f || s.wstate n ≠ 1 || !s.flag (F.CHn_FT_CTRL_FIRE_EN n) then s
  else if (s.ch n).ft.waitMark then
    if (s.ch n).ft.sosk then latchEvent n false p 0 false s else rearmMark n (s.markX n (s.pageDir n) p) s
  else if s.readyToArm n then
    if s.armKind n = some 1 then tryArm n false false (s.markX n false p) s else s
  else latchEvent n false p 0 false s

/-- An SOS event with its capture reaches channel n (R152 to R155). -/
def sosEvent (back : Bool) (cap : BitVec 64) (n : Fin 16) (s : State) : State :=
  if !s.chOn n || s.wstate n ≠ 1 || !s.flag (F.CHn_FT_CTRL_FIRE_EN n) then s
  else if (s.ch n).ft.waitMark then
    if !(s.ch n).ft.sosk then latchEvent n true 0 cap back s
    else if back = s.pageDir n then rearmMark n (s.sosX n cap back) s else s
  else if s.readyToArm n then
    if s.armKind n = some 2 then tryArm n back true (s.sosX n cap back) s else s
  else latchEvent n true 0 cap back s

/-- The kind of the next page's arming has become known: latches of the other kind go, without a miss (R154). -/
def dropLatches (n : Fin 16) (s : State) : State :=
  match s.armKind n with
  | some 0 => s.modFt n fun f => { f with latchMark := none, latchSos := none }
  | some 1 => s.modFt n fun f => { f with latchSos := none }
  | some 2 => s.modFt n fun f => { f with latchMark := none }
  | _ => s

end Sys2Proof.Machine
end

