-- ==== Sys2Proof/Machine/PcieCfg.lean ====
section
/-! DEFINITION. The configuration space of the two functions (R300) and what is logged in it (R302, R304). The facts are those of
R300, R301 and R308; where they stand in the space is the layout of the PCI Express base specification (PRESUMED, log 151). -/

namespace Sys2Proof.Machine

/-- A configuration word: its offset, its reset value in PF0 and in PF1, the bits that software writes in PF0 and in PF1, and the
bits that a 1 clears. -/
structure CfgReg where
  off : Nat
  reset0 : Nat
  reset1 : Nat
  rw0 : Nat
  rw1 : Nat
  w1c : Nat
deriving DecidableEq, Repr

/-- The header: identity, command and status, class and revision, the two BAR pairs, the pin that reads 0 (R300, R301). -/
def cfgHeader : List CfgReg :=
  [⟨0x00, 0x16401F5E, 0x16401F5E, 0, 0, 0⟩, ⟨0x04, 0x00100000, 0x00100000, 0x546, 0x546, 0xF9000000⟩,
   ⟨0x08, 0x118000B1, 0x088000B1, 0, 0, 0⟩, ⟨0x0C, 0x00800000, 0x00800000, 0xFF, 0xFF, 0⟩,
   ⟨0x10, 4, 4, 0xFE000000, 0xFFF00000, 0⟩, ⟨0x14, 0, 0, 0xFFFFFFFF, 0xFFFFFFFF, 0⟩,
   ⟨0x20, 4, 4, 0xFFFFC000, 0xFFFFF000, 0⟩, ⟨0x24, 0, 0, 0xFFFFFFFF, 0xFFFFFFFF, 0⟩,
   ⟨0x34, 0x40, 0x40, 0, 0, 0⟩, ⟨0x3C, 0, 0, 0xFF, 0xFF, 0⟩]

/-- The capabilities of power management, MSI-X and PCI Express (R300, R308). -/
def cfgCaps : List CfgReg :=
  [⟨0x40, 0x40035001, 0x40035001, 0, 0, 0⟩, ⟨0x44, 8, 8, 0x103, 0x103, 0x8000⟩,
   ⟨0x50, 0x01FF6011, 0x003F6011, 0xC0000000, 0xC0000000, 0⟩, ⟨0x54, 4, 4, 0, 0, 0⟩, ⟨0x58, 0x2004, 0x0404, 0, 0, 0⟩,
   ⟨0x60, 0x3C020010, 0x3E020010, 0, 0, 0⟩, ⟨0x64, 0x10008022, 0x10008022, 0, 0, 0⟩,
   ⟨0x68, 0x2810, 0x2810, 0x79FF, 0x79FF, 0xF0000⟩, ⟨0x6C, 0x84, 0x84, 0, 0, 0⟩, ⟨0x70, 0, 0, 0x48, 0x48, 0⟩,
   ⟨0x84, 3, 3, 0, 0, 0⟩, ⟨0x88, 0, 0, 0x1F, 0x1F, 0⟩]

/-- Advanced error reporting with ECRC generation and checking, and the header of the serial number (R300). -/
def cfgExt : List CfgReg :=
  [⟨0x100, 0x14820001, 0x14820001, 0, 0, 0⟩, ⟨0x104, 0, 0, 0, 0, 0x1FF030⟩, ⟨0x108, 0, 0, 0x1FF030, 0x1FF030, 0⟩,
   ⟨0x10C, 0x62030, 0x62030, 0x1FF030, 0x1FF030, 0⟩, ⟨0x110, 0, 0, 0, 0, 0x31C1⟩, ⟨0x114, 0x2000, 0x2000, 0x31C1, 0x31C1, 0⟩,
   ⟨0x118, 0xA0, 0xA0, 0x140, 0x140, 0⟩, ⟨0x148, 0x00010003, 0x00010003, 0, 0, 0⟩]

/-- The configuration word at an offset, if one stands there. -/
def cfgAt (a : Nat) : Option CfgReg := (cfgHeader ++ cfgCaps ++ cfgExt).find? fun r => r.off == a

/-- What a configuration word reads as when nothing is stored for it: its reset value, or the serial number from the fuses. -/
def cfgDefault (fn : Fin 2) (a : Nat) : Word :=
  match cfgAt a with
  | some r => BitVec.ofNat 32 (if fn = 0 then r.reset0 else r.reset1)
  | none => if a = 0x14C then Config.serialLo else if a = 0x150 then Config.serialHi else 0

/-- The Interrupt Message Number of the PCI Express and AER capabilities (R308). -/
def intMsgNum (fn : Fin 2) : Nat := if fn = 0 then 126 else 63

/-- The stored bits of a configuration word. -/
def State.cfgStored (s : State) (fn : Fin 2) (a : Nat) : Word := sparseGet (cfgDefault fn) (s.host.cfg.get fn) a
def cfgStore (fn : Fin 2) (a : Nat) (v : Word) (s : State) : State :=
  { s with host := { s.host with cfg := s.host.cfg.set fn (sparseSet (cfgDefault fn) (s.host.cfg.get fn) a v) } }

/-- A configuration word as it reads: Bus Master Enable of PF0, the power state, the MSI-X enables and the subsystem IDs of the
Ovain image (R2) have their home elsewhere. -/
def State.cfgWord (s : State) (fn : Fin 2) (a : Nat) : Word :=
  let w := s.cfgStored fn a
  if a = 0x04 then (if fn = 0 then setBits w 2 1 (b2n s.host.bme) else w)
  else if a = 0x2C then BitVec.ofNat 32 (s.boot.ssvid + 65536 * s.boot.ssid)
  else if a = 0x44 then setBits w 0 2 (if s.host.d3.get fn then 3 else 0)
  else if a = 0x50 then setBits (setBits w 30 1 (b2n (s.host.fnMasked.get fn))) 31 1 (b2n (s.host.msixEn.get fn))
  else w

/-- Max_Payload_Size and Max_Read_Request_Size in bytes (R300). -/
def State.maxPayload (s : State) (fn : Fin 2) : Nat := 128 * 2 ^ min 2 (getBits (s.cfgWord fn 0x68) 5 3)
def State.maxReadRequest (s : State) (fn : Fin 2) : Nat := 128 * 2 ^ min 5 (getBits (s.cfgWord fn 0x68) 12 3)

/-- An error enters the AER status of a function: a correctable one, or an uncorrectable one, the first of which the first error
pointer names; the device status shows its kind (R304). -/
def aerSet (fn : Fin 2) (cor : Bool) (bit : Nat) (s : State) : State :=
  if cor then
    cfgStore fn 0x68 (setBits (s.cfgStored fn 0x68) 16 1 1) (cfgStore fn 0x110 (setBits (s.cfgStored fn 0x110) bit 1 1) s)
  else
    let first := s.cfgStored fn 0x104 == 0
    let s1 := cfgStore fn 0x104 (setBits (s.cfgStored fn 0x104) bit 1 1) s
    let s2 := if first then cfgStore fn 0x118 (setBits (s1.cfgStored fn 0x118) 0 5 bit) s1 else s1
    let dev := setBits (s2.cfgStored fn 0x68) (if bitAt (s2.cfgStored fn 0x10C).toNat bit then 18 else 17) 1 1
    cfgStore fn 0x68 (if bit = 20 then setBits dev 19 1 1 else dev) s2

/-- An error is logged under AER in a function, and HOST_ERR is raised (R304, R308). -/
def aerLog (fn : Fin 2) (cor : Bool) (bit : Nat) (s : State) : State :=
  if s.domOn 0 then (aerSet fn cor bit s).raise 126 else s

/-- The AER bit of an error on a read of PF0. -/
def readErrBit : ReadErr → Nat
  | .poisoned => 12 | .timeout => 14 | .abort => 15 | .unsupported => 20

/-- The AER bit of a correctable error. -/
def corErrBit : CorErr → Nat
  | .receiver => 0 | .badTlp => 6 | .badDllp => 7 | .rollover => 8 | .replayTimeout => 12

end Sys2Proof.Machine
end

