-- ==== Sys2Proof/Machine/MbxOps.lean ====
section
/-! DEFINITION. Operations of the mailboxes (chapter 13): who receives and who sends, delivery, acknowledgement, the reset
of a receiver and the legacy locks. -/

namespace Sys2Proof.Machine

/-- Mailbox m, and the state with it changed. -/
def State.mb (s : State) (m : Fin 48) : Mbox := s.mbx.get m
def State.modMb (s : State) (m : Fin 48) (f : Mbox → Mbox) : State := { s with mbx := s.mbx.set m (f (s.mb m)) }

/-- The forty-eight mailboxes in index order. -/
def allMbx : List (Fin 48) := List.finRange 48

/-- A number as a mailbox index, if it is one. -/
def mbxOf (m : Nat) : Option (Fin 48) := if h : m < 48 then some ⟨m, h⟩ else none

/-- Port numbers (table before R313). -/
def portNo : Port → Nat
  | .pf0 => 1 | .pf1 => 2 | .sup => 3 | .seq n => 4 + n.val

/-- The register bank of a port (R314). -/
def portBank : Port → Nat
  | .pf0 => 1 | .pf1 => 2 | .sup => 3 | .seq n => 5 + n.val

/-- The view a port has of a mailbox's sender fields (R314). -/
def portView : Port → Fin 4
  | .pf0 => 0 | .pf1 => 1 | .sup => 2 | .seq _ => 3

/-- The port a master speaks for; the Safety port has none. -/
def portOfMaster : Master → Option Port
  | .pf0 => some .pf0 | .pf1 => some .pf1 | .sup => some .sup | .seq n => some (.seq n) | .sp => none

/-- Whether a port is a function of the host. -/
def isHostPort : Port → Bool
  | .pf0 => true | .pf1 => true | _ => false

/-- The receiver of mailbox m (R313). -/
def mbxReceiver (m : Fin 48) : Port :=
  if h : m.val < 16 then .seq ⟨m.val, h⟩
  else if m.val < 32 then .pf0
  else if m.val < 40 then .sup
  else if m.val < 44 then .pf0 else .pf1

/-- Whether port p may send to mailbox m (R313). -/
def mbxSender (m : Fin 48) (p : Port) : Bool :=
  if m.val < 16 then p == .pf0
  else if m.val < 32 then (match p with
    | .seq n => n.val + 16 == m.val
    | _ => false)
  else if m.val < 40 then p == .pf0 || p == .pf1
  else p == .sup

/-- The view of port p of mailbox m. -/
def State.view (s : State) (m : Fin 48) (p : Port) : MbxView := (s.mb m).views.get (portView p)
def modView (m : Fin 48) (p : Port) (f : MbxView → MbxView) (s : State) : State :=
  s.modMb m fun b => { b with views := b.views.set (portView p) (f (b.views.get (portView p))) }

/-- The mailbox into which the reply to a request of port p in mailbox q goes (R322). -/
def returnBox (q : Nat) (p : Port) : Nat :=
  if q < 16 then 16 + q else if p = .pf1 then 44 + (q - 32) % 4 else 40 + (q - 32) % 4

/-- The event of a delivery into mailbox m (R308). -/
def rxEvent (m : Nat) : Option Nat :=
  if 16 ≤ m ∧ m < 32 then some (88 + m)
  else if 40 ≤ m ∧ m < 44 then some (80 + m)
  else if 44 ≤ m then some 101 else none

/-- Whether the receiver of mailbox m counts as in reset (R315, R320, R321). -/
def State.rxReset (s : State) (m : Fin 48) : Bool :=
  match mbxReceiver m with
  | .sup => if s.domOn 3 then !s.boot.supUp else s.domState 3 == 3
  | .seq n => !s.chOn n || !(s.ch n).work.seqUp
  | _ => false

/-- What a send of port p to mailbox m meets: 0 ACCEPTED, 1 FULL, 2 ABORTED (R315). -/
def State.sendRes (s : State) (m : Fin 48) (p : Port) : Nat :=
  if !mbxSender m p || s.rxReset m then 2
  else if (s.mb m).full || (match (s.mb m).lock with
    | some q => q != p
    | none => false) then 1
  else 0

/-- A function in D3hot sends a power management event where PME is enabled, and PME_Status is set (R300, R320; PRESUMED, log 151). -/
def pmeOf (fn : Fin 2) (s : State) : State :=
  if s.host.d3.get fn then
    let w := s.cfgStored fn 0x44
    let s1 := cfgStore fn 0x44 (setBits w 15 1 1) s
    if bitAt w.toNat 8 then s1.emit (.pme fn.val) else s1
  else s

/-- A power management event of a receiving function in D3hot (R320). -/
def pmeFor (p : Port) (s : State) : State :=
  match p with
  | .pf0 => pmeOf 0 s
  | .pf1 => pmeOf 1 s
  | _ => s

/-- A message enters mailbox m and its receiver is told (R315). -/
def deliver (m : Fin 48) (p : Port) (msg : List Word) (s : State) : State :=
  let s1 := s.modMb m fun b => { b with full := true, src := some p, len := msg.length, msg := msg, waiting := false }
  let s2 := match rxEvent m.val with
    | some e => s1.raise e
    | none => s1
  pmeFor (mbxReceiver m) s2

/-- Fields of a message header (R322). -/
def hdrCode (h : Word) : Nat := getBits h 0 8
def hdrTag (h : Word) : Nat := getBits h 8 8
def hdrReply (h : Word) : Bool := getBits h 31 1 == 1

/-- An accepted request starts its acknowledgement window (R323). -/
def armAck (m : Fin 48) (p : Port) (h : Word) (s : State) : State :=
  if hdrReply h then s
  else
    let w := if m.val < 16 ∨ (32 ≤ m.val ∧ m.val < 40) then s.get ((F.MBX_m_ACKTMO_TMO m).bank (portBank p)) else 0
    modView m p (fun v => { v with ackWait := true, tag := hdrTag h, sendTick := s.tick, window := w * msTicks }) s

/-- The acknowledgement window of a port's request in mailbox m, if it has ended: ACKTMO is set and its event raised (R323). -/
def windowOver (m : Fin 48) (p : Port) (s : State) : State :=
  let v := s.view m p
  if s.domOn 0 && v.ackWait && v.window != 0 && decide (v.sendTick + v.window ≤ s.tick) then
    (modView m p (fun v => { v with ackTmo := true, window := 0 }) s).raise 103
  else s

/-- A reply delivered into return mailbox m ends the wait of the requests it can answer; in the cycle that ends a window or after it
it is late, and ACKTMO is set first (R323; DEDUCED, log 152). -/
def ackReply (m : Fin 48) (h : Word) (s : State) : State :=
  if !hdrReply h then s
  else
    let p := mbxReceiver m
    allMbx.foldl (fun (s : State) (q : Fin 48) =>
      if mbxSender q p && returnBox q.val p == m.val && (s.view q p).ackWait && (s.view q p).tag == hdrTag h then
        modView q p (fun v => { v with ackWait := false }) (windowOver q p s)
      else s) s

/-- The message in a port's bank of mailbox m: LEN values from 17 to 31 act as 16 (R314). -/
def State.bankMsg (s : State) (m : Fin 48) (p : Port) : List Word :=
  (List.range (min 16 (s.get ((F.MBX_m_CTRL_LEN m).bank (portBank p))))).map fun w =>
    s.word (bankOf (portBank p) (A.MBX_m_DATAw m w))

/-- ABORTED for a sender of mailbox m (R321). -/
def abortView (m : Fin 48) (p : Port) (s : State) : State :=
  (modView m p (fun v => { v with aborted := true, ackWait := false }) s).raise 102

/-- The receiver of mailbox m was reset: the mailbox is cleared, and every sender with a message or request there is told
(R321). -/
def clearInbound (m : Fin 48) (s : State) : State :=
  let b := s.mb m
  let s1 := s.modMb m fun b => { b with full := false, waiting := false }
  [Port.pf0, Port.pf1, Port.sup].foldl (fun (s : State) (p : Port) =>
    if (b.full && b.src == some p) || (b.views.get (portView p)).ackWait then abortView m p s else s) s1

/-- Messages that wait for SUP are aborted (R320). -/
def abortWaiting (s : State) : State :=
  allMbx.foldl (fun (s : State) (m : Fin 48) => if (s.mb m).waiting then clearInbound m s else s) s

/-- Every lock of a port is released (R319). -/
def releaseLocks (p : Port) (s : State) : State :=
  { s with mbx := s.mbx.map fun b => { b with lock := if b.lock = some p then none else b.lock } }

/-- Every reply a port holds back is lost with its restart. -/
def dropHeld (p : Port) (s : State) : State :=
  allMbx.foldl (fun (s : State) (m : Fin 48) => if mbxSender m p then s.modMb m fun b => { b with held := [] } else s) s

/-- The firmware posts a reply in mailbox m, or holds it while m is FULL (R324). -/
def postReply (m : Fin 48) (p : Port) (msg : List Word) (s : State) : State :=
  if (s.mb m).full then s.modMb m fun b => { b with held := b.held ++ [msg] }
  else ackReply m (msg.getD 0 0) (deliver m p msg s)

/-- Replies the firmware of port p holds for the receiver of mailbox m (R324). -/
def State.heldFor (s : State) (p : Port) (m : Fin 48) : Nat :=
  allMbx.foldl (fun (k : Nat) (q : Fin 48) =>
    if mbxSender q p && mbxReceiver q == mbxReceiver m then k + (s.mb q).held.length else k) 0

/-- A reply held for mailbox m is delivered once the mailbox is free (R324). -/
def postNext (m : Fin 48) (s : State) : State :=
  match (s.mb m).held, (s.mb m).src with
  | msg :: r, some p => if (s.mb m).full then s else postReply m p msg (s.modMb m fun b => { b with held := r })
  | _, _ => s

/-- The message of mailbox m is released (R317). -/
def releaseMsg (m : Fin 48) (s : State) : State := postNext m (s.modMb m fun b => { b with full := false })

end Sys2Proof.Machine
end

