-- ==== Sys2Proof/Machine/CapoOps.lean ====
section
/-! DEFINITION. Operations of the capo engine (chapter 8): staged entries, participants, aborts, application and the
digest; and which registers belong to the protection set-up (R350). -/

namespace Sys2Proof.Machine

/-! ## Registers and participants -/

/-- The mask of a field. -/
def FieldDef.mask (f : FieldDef) : Word := BitVec.ofNat 32 ((2 ^ f.width - 1) * 2 ^ f.lo)

/-- The bits of the register at `a` whose type satisfies `p`. -/
def typMask (p : FTyp → Bool) (a : Nat) : Word :=
  match regAt a with
  | some r => r.fields.foldl (fun m f => if p f.typ then m ||| f.mask else m) 0
  | none => 0

/-- The ST bits of the register at `a`. -/
def stMask (a : Nat) : Word := typMask (· == .st) a

/-- The participant that owns the register at `a`: a system block by its place in the region, or a sub-block of a channel
by its window offset (R203, CAPO_TXt_NOVOTE). -/
def partOf (a : Nat) : Option Part :=
  let b := blockOf a
  if h : b < 16 then some (.sys ⟨b, h⟩)
  else if hb : b - 16 < 7 then
    if hn : (a - 0x1000000) / 0x100000 < 16 then some (.ch ⟨(a - 0x1000000) / 0x100000, hn⟩ ⟨b - 16, hb⟩) else none
  else none

/-- The code of a participant in CAPO_TXt_NOVOTE. -/
def partCode : Part → Nat
  | .sys b => b.val
  | .ch n s => 16 + 8 * n.val + s.val

/-- Whether a participant's domain is ON. -/
def State.partOn (s : State) : Part → Bool
  | .sys b => match domainOfBlock b.val with
    | some d => s.domOn d
    | none => true
  | .ch n _ => s.chOn n

/-- A word with its ST bits replaced by a staged word's. -/
def mergeStaged (a : Nat) (cur w : Word) : Word := (cur &&& ~~~(stMask a)) ||| (w &&& stMask a)

/-- The state that would result from entries, registers alone. -/
def stagedView (es : List Entry) (s : State) : State :=
  es.foldl (fun s e => s.setWord e.addr (mergeStaged e.addr (s.word e.addr) e.word)) s

/-- Field states of slot t. -/
def State.txState (s : State) (t : Fin 16) : Nat := s.get (F.CAPO_TXt_STAT_STATE t)

/-- The sixteen slots in index order. -/
def allTx : List (Fin 16) := List.finRange 16

/-- The participants of slot t, without repeats (R203). -/
def State.txParts (s : State) (t : Fin 16) : List Part := ((s.slot t).entries.filterMap fun e => partOf e.addr).eraseDups

/-- Whether slot t holds address `a`: staged there and the slot neither APPLIED nor ABORTED nor FREE (R199). -/
def State.txHolds (s : State) (t : Fin 16) (a : Nat) : Bool :=
  1 ≤ s.txState t && s.txState t ≤ 5 && (s.slot t).entries.any fun e => e.addr == a

/-- Entries in use over all slots. Those of an APPLIED or ABORTED slot count until it is FREE (R201; DESIGN CHOICE, log 180). -/
def State.entriesUsed (s : State) : Nat := allTx.foldl (fun k t => k + (s.slot t).entries.length) 0

/-! ## The protection set-up -/

/-- A write to FLT_SEVw that would set a field to S3 or S4, or change a field that is (R331). -/
def sevProtected (a : Nat) (cur new : Word) : Bool :=
  let w := (a - 0x21000) / 4
  (List.range 8).any fun i =>
    let o := sevEffective (8 * w + i) (getBits cur (4 * i) 3)
    let v := sevEffective (8 * w + i) (getBits new (4 * i) 3)
    o != v && (3 ≤ o || 3 ≤ v)

/-- Whether a staged word for register `a` belongs to the protection set-up (R350); a severity by the value in effect (R331). -/
def State.protects (s : State) (a : Nat) (w : Word) : Bool :=
  let b := blockOf a
  if b = 21 then a % 0x10000 ≤ 0x14
  else if b = 20 then a % 0x10000 == A.CHn_BRG_HPWR 0 % 0x10000
  else if b = 13 then a == A.PROT_ROLE || a == A.PROT_CFG
  else if b = 2 then 0x21000 ≤ a && a < 0x21100 && sevProtected a (s.word a) (mergeStaged a (s.word a) w)
  else if b = 7 then (List.finRange 4).any fun x => a == A.MOT_AXa_SAFE x
  else if b = 6 then
    a == A.THM_DIELIM0 || a == A.THM_DIELIM1 || allCh.any fun n =>
      a == A.THM_CHn_LIM0 n || a == A.THM_CHn_LIM1 n ||
      a == A.THM_CHn_CFG n || a == A.THM_CHn_HTR n
  else false

/-! ## Leaving states -/

/-- Every binding to slot t is released (R197). -/
def unbind (t : Fin 16) (s : State) : State :=
  [1, 3, 4].foldl (fun s k =>
    if s.flag (F.CAPO_BIND_BOUND.bank k) ∧ s.get (F.CAPO_BIND_TX.bank k) = t.val then
      s.put (F.CAPO_BIND_BOUND.bank k) 0
    else s) s

/-- Slot t is FREE again. -/
def freeSlot (t : Fin 16) (s : State) : State :=
  let s1 := (s.setWord (A.CAPO_TXt_STAT t) 0).modSlot t fun _ => CapoSlot.reset
  (s1.setWord (A.CAPO_TXt_PART_CH t) 0).setWord (A.CAPO_TXt_PART_SYS t) 0

/-- A status field of INS, which keeps nothing while its domain is not ON. -/
def insPut (f : Fld) (v : Nat) (s : State) : State := if s.domOn 6 then s.put f v else s

/-- Channel n is reported as skipped in the last healing round (R234, INS_HEAL). -/
def skipChan (n : Nat) (s : State) : State :=
  if n < 15 then insPut (F.INS_HEAL_SKIPPED.bit n) 1 s else insPut F.INS_HEALCNT_SKIP15 1 s

/-- What an unlisted count of better results reads as (R233). -/
def betterDefault (_ : Nat) : BitVec 8 := 0

/-- A round leaves the list of those in flight; the supervisor releases its slot. -/
def closeRound (t : Fin 16) (s : State) : State :=
  let s1 := { s with ins := { s.ins with rounds := s.ins.rounds.filter fun r => r.slot != t.val } }
  freeSlot t (if s1.ins.rounds.isEmpty then insPut F.INS_HEAL_BUSY 0 s1 else s1)

/-- The nozzle test of channel n, and the state with it changed. -/
def State.nozTest (s : State) (n : Nat) : Option NozTest := (chOf n).bind fun k => (s.ch k).iso.nozTest
def modTest (n : Nat) (f : NozTest → Option NozTest) (s : State) : State :=
  match chOf n with
  | some k => s.modIso k fun i => { i with nozTest := i.nozTest.bind f }
  | none => s

/-- The nozzle test of channel n ends and its reply is posted, word 3 telling whether the map was restored (R378, R388). -/
def endTest (n : Nat) (restored : Bool) (s : State) : State :=
  match s.nozTest n with
  | some x =>
    let s1 := modTest n (fun _ => none) s
    match mbxOf (returnBox x.mbx .pf0) with
    | some m =>
      if x.silent || !s1.boot.supUp then s1
      else postReply m .sup [x.header ||| 0x80000000, BitVec.ofNat 32 (if restored then 0 else x.back),
        BitVec.ofNat 32 (if restored then 0 else x.newDead), BitVec.ofNat 32 (b2n restored)] s1
    | none => s1
  | none => s

/-- A switch or round of a nozzle test has aborted: with no test map applied the test is over, else the map from before is to be
switched back (R388). -/
def testAborted (n : Nat) (s : State) : State :=
  match s.nozTest n with
  | some x => if x.stage = 0 then endTest n true s else modTest n (fun x => some { x with stage := 4 }) s
  | none => s

/-- A switch or round of a nozzle test has applied (R388). A test that a restart of the supervisor cut off ends with the map from before
it (R386). -/
def testApplied (n : Nat) (s : State) : State :=
  match s.nozTest n with
  | some x =>
    if x.stage = 0 then
      modTest n (fun x => some { x with
        stage := if x.till ≤ s.tick then 4 else 1,
        since := [s.get (F.INS_Pp_STAT_FRAMECNT 0), s.get (F.INS_Pp_STAT_FRAMECNT 1)] }) s
    else if x.stage = 2 ∧ x.silent then modTest n (fun x => some { x with stage := 4 }) s
    else endTest n (x.stage == 3) s
  | none => s

/-- Whether a round in flight changes no status of its own: the switches of a nozzle test. -/
def State.isSwitch (s : State) (r : Round) : Bool :=
  r.test && r.chans.any fun n => match s.nozTest n with
    | some x => x.stage == 0 || x.stage == 3
    | none => false

/-- The slot of a healing round aborts: no channel changes, the round is discarded and HEAL_SKIP raised (R235). -/
def roundAbort (t : Fin 16) (s : State) : State :=
  match s.ins.rounds.find? (fun r => r.slot == t.val) with
  | some r =>
    let s1 := if s.isSwitch r then closeRound t s
      else
        let s1 := r.chans.foldl (fun (s : State) (n : Nat) => skipChan n s) s
        (closeRound t (if s1.domOn 6 then s1.bump F.INS_HEALCNT_ABORTS 1 else s1)).raise 77
    if r.test then r.chans.foldl (fun (s : State) (n : Nat) => testAborted n s) s1 else s1
  | none => s

/-- A healing round is applied in every channel it covers: its counts of better results are kept and HEAL_DONE raised
(R233, R239). -/
def roundApplied (t : Fin 16) (s : State) : State :=
  match s.ins.rounds.find? (fun r => r.slot == t.val) with
  | some r =>
    let s1 := { s with ins := { s.ins with better := r.counts.foldl (fun (b : Sparse 8) (x : Nat × Nat) =>
      sparseSet betterDefault b x.1 (BitVec.ofNat 8 x.2)) s.ins.better } }
    let s2 := if s.isSwitch r then closeRound t s1 else (closeRound t s1).raise 76
    if r.test then r.chans.foldl (fun (s : State) (n : Nat) => testApplied n s) s2 else s2
  | none => s

/-- Slot t aborts with a cause (R209): no entry is applied; an implicit transaction is freed at once (R200); a NOKEY abort
is reported by the two-key logic (R353). -/
def abortSlot (cause : Nat) (t : Fin 16) (s : State) : State :=
  let s1 := unbind t ((s.put (F.CAPO_TXt_STAT_STATE t) 7).put (F.CAPO_TXt_STAT_CAUSE t) cause)
  let s2 := if cause = 8 then (s1.put F.PROT_STAT_NOKEY 1).raise 23 else s1
  let s3 := s2.raise 65
  if s3.flag (F.CAPO_TXt_STAT_IMPL t) then freeSlot t (s3.put F.CAPO_FLAGS_IMPLAB 1) else roundAbort t s3

/-- Whether every entry of slot t is applied. -/
def State.allApplied (s : State) (t : Fin 16) : Bool :=
  (s.slot t).entries.all fun e => (s.slot t).applied.contains e.addr

/-- A COMMITTED slot whose last participant has applied reaches APPLIED (R195, R214, R355). -/
def finishSlot (t : Fin 16) (s : State) : State :=
  if s.txState t = 5 ∧ s.allApplied t then
    let s1 := s.put (F.CAPO_TXt_STAT_STATE t) 6
    let s2 := if s1.flag (F.CAPO_TXt_CTRL_IRQ t) then s1.raise 64 else s1
    let s3 := if s2.flag (F.CAPO_TXt_CTRL_CLASS t) then s2.raise 22 else s2
    if s3.flag (F.CAPO_TXt_STAT_IMPL t) then freeSlot t s3 else roundApplied t s3
  else s

/-- The entries of slot t at addresses that satisfy `q` and are not yet applied. -/
def State.dueEntries (s : State) (t : Fin 16) (q : Nat → Bool) : List Entry :=
  if s.txState t = 5 then
    (s.slot t).entries.filter fun e => q e.addr && !(s.slot t).applied.contains e.addr
  else []

/-- Local writes from the staging store at the addresses that satisfy `q`, in a COMMITTED slot (R207). -/
def applyWords (q : Nat → Bool) (t : Fin 16) (s : State) : State :=
  let es := s.dueEntries t q
  (stagedView es s).modSlot t fun c => { c with applied := c.applied ++ es.map (·.addr) }

/-- The channels of a round that have now applied are reported (INS_HEAL.APPLIED). -/
def noteRounds (s : State) : State :=
  s.ins.rounds.foldl (fun (s : State) (r : Round) =>
    let done := r.waiting.filter fun n => match chOf r.slot with
      | some t => (s.slot t).applied.contains (A.CHn_IMG_BANK n)
      | none => false
    let s1 := done.foldl (fun (s : State) (n : Nat) => insPut (F.INS_HEAL_APPLIED.bit n) 1 s) s
    { s1 with ins := { s1.ins with rounds := s1.ins.rounds.map fun x =>
      if x.slot = r.slot then { x with waiting := x.waiting.filter fun n => !done.contains n } else x } }) s

/-- The same over the slots of a list in index order, the slots then reaching APPLIED where all is applied (R206). `hook` is what
the block does on the change from the state before. -/
def applyIn (ts : List (Fin 16)) (q : Nat → Bool) (hook : State → State → State) (s : State) : State :=
  if ts.any fun t => !(s.dueEntries t q).isEmpty then
    let s1 := ts.foldl (fun s t => applyWords q t s) s
    ts.foldl (fun s t => finishSlot t s) (noteRounds (hook s s1))
  else s

/-- The same over every slot. -/
def applyAll (q : Nat → Bool) (hook : State → State → State) (s : State) : State := applyIn allTx q hook s

/-- The commit instant that follows a condition met at tick c: the first 5 ns sample that begins at least 40 ns after it (R205; samples
begin at even ticks, DESIGN CHOICE, log 57). -/
def instantOf (c : Nat) : Nat := 2 * ((c + 17) / 2)

/-- The commit instant of slot t, once its condition is met. -/
def State.instant (s : State) (t : Fin 16) : Option Nat := (s.slot t).cond.map instantOf

/-- Whether the commit instant of slot t has come, so that it counts as COMMITTED, whether or not that has been noted yet (R194, R205). -/
def State.pastInstant (s : State) (t : Fin 16) : Bool := (s.instant t).any fun i => decide (i ≤ s.tick)

/-- The addresses of a participant. -/
def isPart (p : Part) (a : Nat) : Bool := partOf a == some p

/-- Whether participant p of some slot has voted ready, without having applied or aborted, on an entry at `a`; the words it
will hold there (R83, R84). -/
def State.votedWords (s : State) (p : Part) (a : Nat) : List Word :=
  allTx.foldl (fun acc t =>
    let st := s.txState t
    if 3 ≤ st ∧ st ≤ 5 ∧ (s.slot t).voted.contains p ∧ ¬ (s.slot t).applied.contains a then
      acc ++ ((s.slot t).entries.filter (fun e => e.addr == a)).map (·.word)
    else acc) []

/-! ## The digest -/

/-- The string of R213. -/
def digestString (cls cond arg : Nat) (es : List Entry) : List Byte :=
  [BitVec.ofNat 8 cls, BitVec.ofNat 8 cond, BitVec.ofNat 8 arg, 0] ++
  es.flatMap fun e => leBytes 4 e.addr ++ leBytes 4 e.word.toNat

/-- The digest of slot t (R213). -/
def State.digest (s : State) (t : Fin 16) : Nat :=
  leNat ((sha256 (digestString (s.get (F.CAPO_TXt_CTRL_CLASS t)) (s.get (F.CAPO_TXt_CTRL_COND t))
    (s.get (F.CAPO_TXt_CTRL_ARG t)) (s.slot t).entries)).take 8)

/-- Participants whose domain has left ON: slots whose commit instant has not come abort with PARTRST, and in the others they count
as applied, with LOST (R208, R209). -/
def loseParts (gone : Part → Bool) (s : State) : State :=
  allTx.foldl (fun s t =>
    let st := s.txState t
    let mine := (s.txParts t).any gone
    if !mine then s
    else if 1 ≤ st ∧ st ≤ 4 ∧ !s.pastInstant t then abortSlot 10 t s
    else if (st = 4 ∨ st = 5) ∧ ((s.slot t).entries.any fun e =>
        (match partOf e.addr with
          | some p => gone p
          | none => false) && !(s.slot t).applied.contains e.addr) then
      let s1 := s.modSlot t fun c =>
        { c with applied := c.applied ++ (c.entries.filter fun e => match partOf e.addr with
            | some p => gone p
            | none => false).map (·.addr) }
      finishSlot t (s1.put (F.CAPO_TXt_STAT_LOST t) 1)
    else s) s

/-- Every slot a master owns whose commit instant has not come aborts with OWNERRST (R209). -/
def abortOwned (m : Master) (s : State) : State :=
  allTx.foldl (fun s t =>
    if s.ownsSlot m t ∧ 1 ≤ s.txState t ∧ s.txState t ≤ 4 ∧ !s.pastInstant t then abortSlot 9 t s else s) s

/-- Channel n has become ready to arm between s0 and s: the condition NEXTPAGE of R204. -/
def noteReady (n : Fin 16) (s0 s : State) : State :=
  if s.readyToArm n && !s0.readyToArm n then capoCond 2 n s else s

end Sys2Proof.Machine
end

