-- ==== Sys2Proof/Machine/WaveOps.lean ====
section
/-! DEFINITION. Operations of the waveform engine and the duty limiter (chapter 4): segment tables, samples, table
selection, the limiter's two stages and its charges. -/

namespace Sys2Proof.Machine

/-- The offset of channel n's window (R429). -/
def chBase (n : Fin 16) : Nat := 0x1000000 + n.val * 0x100000

/-! ## Segment tables -/

/-- The offset of the first word of a segment (R88). -/
def segAddr (n : Fin 16) (bank t sg : Nat) : Nat := chBase n + 0xA0000 + 0x1000 * bank + 0x100 * t + 8 * sg

/-- DUR of a segment, its SHAPE and LEVEL on a port (R88). -/
def State.segDur (s : State) (n : Fin 16) (bank t sg : Nat) : Nat := getBits (s.word (segAddr n bank t sg)) 0 12
def State.segShape (s : State) (n : Fin 16) (bank t sg p : Nat) : Nat :=
  getBits (s.word (segAddr n bank t sg)) (16 + 2 * p) 2
def State.segLevel (s : State) (n : Fin 16) (bank t sg p : Nat) : Int :=
  toSigned 16 (getBits (s.word (segAddr n bank t sg + 4)) (16 * p) 16)

/-- The durations of a table up to its first DUR = 0 (R89). -/
def State.segDurs (s : State) (n : Fin 16) (bank t : Nat) : List Nat :=
  ((List.range 32).map (s.segDur n bank t)).takeWhile (· != 0)

/-- Total samples of a list of durations. -/
def total (ds : List Nat) : Nat := ds.foldl (· + ·) 0

/-- The start ticks of the segments, against waveform time 0 (R90). -/
def startsFrom : Nat → List Nat → List Nat
  | _, [] => []
  | k, d :: ds => k :: startsFrom (k + 8 * d) ds

/-- The offset of the mask word of port p, table t and drop code c in a bank (R88). -/
def maskAddr (n : Fin 16) (bank p t c : Nat) : Nat :=
  chBase n + 0xA2000 + 0x100 * bank + 0x10 * (4 * p + t) + 4 * (c - 1)

/-! ## Samples -/

/-- The segment that holds tick tau: its index, start tick and duration. -/
def segAt (tau : Nat) : Nat → Nat → List Nat → Option (Nat × Nat × Nat)
  | _, _, [] => none
  | i, st, d :: ds => if tau < st + 8 * d then some (i, st, d) else segAt tau (i + 1) (st + 8 * d) ds

/-- Sample k of a frame, a table's bank and durations given (R90). -/
def State.sampleOf (s : State) (n : Fin 16) (p bank t phi : Nat) (durs : List Nat) (k : Nat) : Int :=
  let rest : Int := if p = 0 then s.getS (F.CHn_WAV_REST_REST0 n) else s.getS (F.CHn_WAV_REST_REST1 n)
  let scale : Int := if p = 0 then s.get (F.CHn_WAV_SCALE_SC0 n) else s.get (F.CHn_WAV_SCALE_SC1 n)
  let tau := 8 * k + phi
  match segAt tau 0 0 durs with
  | none => rest
  | some (i, st, d) =>
    let a := if i = 0 then rest else s.segLevel n bank t (i - 1) p
    let b := s.segLevel n bank t i p
    let u : Int := (((tau - st) * 65536 / (8 * d) : Nat) : Int)
    let u2 := floorDiv (u * u) 65536
    let u3 := floorDiv (u2 * u) 65536
    let shape := s.segShape n bank t i p
    let f : Int := if shape = 1 then u else if shape = 2 then 3 * u2 - 2 * u3 else 65536
    let y := a + floorDiv ((b - a) * f + 32768) 65536
    clampI (-32768) 32767 (rest + floorDiv ((y - rest) * scale + 8192) 16384)

/-- Even parity of 16 bits. -/
def parity16 (v : Nat) : Nat := (List.range 16).foldl (fun p i => (p + v / 2 ^ i) % 2) 0

/-- What D0, D1 and FRM carry for a sample, most significant bit first: FRM is 1, 1, 1, F, 0, P, 0, 0 (R94). -/
def laneBits (first : Bool) (v : Int) : Nat × Nat × Nat :=
  let c := ofSigned 16 v
  (c / 256, c % 256, 224 + 16 * b2n (!first) + 4 * parity16 c)

/-- The samples of a frame: one for each sample period from its first sample to the end of its last segment. -/
def State.frameOf (s : State) (n : Fin 16) (p bank t phi : Nat) (durs : List Nat) : List (Nat × Nat × Nat) :=
  ((List.range (total durs)).filter fun k => 8 * k + phi < 8 * total durs).map fun k =>
    laneBits (k == 0) (s.sampleOf n p bank t phi durs k)

/-! ## Selection and windows -/


/-- The table of a line of pass q (R91). -/
def State.tabOf (s : State) (n : Fin 16) (q : Nat) : Nat :=
  if s.flag (F.CHn_WAV_SEL_PASSSEL n) then getBits (s.word (A.CHn_WAV_PASSTAB n)) (2 * q) 2
  else s.get (F.CHn_WAV_SEL_TAB n)

/-- Whether port p is enabled. -/
def State.portEn (s : State) (n : Fin 16) (p : Nat) : Bool :=
  if p = 0 then s.flag (F.CHn_WAV_CTRL_WV0EN n) else s.flag (F.CHn_WAV_CTRL_WV1EN n)

/-- What D0, D1 and FRM of port p carry in the sample whose port time is t: the sample of a frame, else REST with F = 1; none for
a disabled port and for the ports of a channel that is isolated or not ON, whose lanes are at logic 0 with the clock stopped (R94, R95,
R380, R401). -/
def State.portSample (s : State) (n : Fin 16) (p t : Nat) : Option (Nat × Nat × Nat) :=
  if (s.ch n).iso.isolated || !s.chOn n then none
  else match (s.ch n).wav.frames.find? fun f => f.port == p && decide (f.start ≤ t) && decide (t < f.start + 8 * f.lanes.length) with
  | some f => f.lanes[(t - f.start) / 8]?
  | none =>
    if s.portEn n p then
      some (laneBits false (if p = 0 then s.getS (F.CHn_WAV_REST_REST0 n) else s.getS (F.CHn_WAV_REST_REST1 n)))
    else none

/-- The level of CHn_FIRE: high for 20 ns from the FIRE edge, low from an inhibit on and while the channel is not ON (R98, R148, R401). -/
def State.firePin (s : State) (n : Fin 16) : Bool :=
  s.chOn n && (s.ch n).wav.win.any fun w => decide (w.fireTick ≤ s.tick) && decide (s.tick < w.fireTick + 8)

/-- The level of CHn_SEG: high for 10 ns from each segment boundary, SEGDLY after its port time, low from an inhibit on and while the
channel is not ON (R93, R98, R401). -/
def State.segPin (s : State) (n : Fin 16) : Bool :=
  s.chOn n && (s.ch n).wav.win.any fun w =>
    w.startTicks.tail.any fun t => decide (t + w.segDly ≤ s.tick) && decide (s.tick < t + w.segDly + 4)

/-- The waveform end of a line fired at a tick, from the settings in effect (R97). -/
def State.waveEndOf (s : State) (n : Fin 16) (fire pass : Nat) : Nat :=
  fire + s.get (F.CHn_WAV_DLY_WDLY n) + s.get (F.CHn_WAV_DLY_SEGDLY n) +
  8 * total (s.segDurs n (s.get (F.CHn_WAV_BANK_BANK n)) (s.tabOf n pass))

/-- The earliest FIRE edge that the current line allows: its waveform end plus GAP (R97). A line decided whose FIRE is
still to come is the current line (R149). -/
def State.earliestFire (s : State) (n : Fin 16) : Nat :=
  let c := s.ch n
  let gap := 8 * s.get (F.CHn_WAV_CTRL_GAP n)
  match c.ft.decided, c.wav.waveEnd with
  | d :: _, _ => s.waveEndOf n d.fireTick d.duty.line.pass + gap
  | [], some e => e + gap
  | [], none => 0

/-! ## The duty limiter -/

/-- The offset of nozzle j's duty counter (R88). -/
def dutAddr (n : Fin 16) (j : Nat) : Nat := chBase n + 0xE0000 + 4 * j

/-- The weight of a drop code; code 0 weighs nothing (R103). -/
def State.weight (s : State) (n : Fin 16) (c : Nat) : Nat :=
  match c with
  | 1 => s.get (F.CHn_DUT_WEIGHT_CW1 n)
  | 2 => s.get (F.CHn_DUT_WEIGHT_CW2 n)
  | 3 => s.get (F.CHn_DUT_WEIGHT_CW3 n)
  | _ => 0

/-- The largest code not above c whose weight fits the budget (the nozzle stage under DEMOTE). -/
def demoteTo (w : Nat → Nat) (budget : Nat) : Nat → Nat
  | 0 => 0
  | c + 1 => if budget < w (c + 1) then demoteTo w budget c else c + 1

/-- The nozzle stage for one code. -/
def nozStage (w : Nat → Nat) (suppress : Bool) (budget c : Nat) : Nat :=
  if budget < w c then (if suppress then 0 else demoteTo w budget c) else c

/-- The head stage's map of a code at a level (R103). -/
def demoteLvl (c lvl : Nat) : Nat :=
  match lvl with
  | 0 => c
  | 1 => if c = 3 then 2 else c
  | 2 => if 2 ≤ c then 1 else c
  | _ => 0

/-- The weight of a line at a level. -/
def lineWeight (w : Nat → Nat) (codes : List Nat) (lvl : Nat) : Nat :=
  codes.foldl (fun k c => k + w (demoteLvl c lvl)) 0

/-- Nozzle j's weight in the current window, a parity error holding it at NLIM (R105). -/
def State.nozCnt (s : State) (n : Fin 16) (j : Nat) : Nat := (s.word (dutAddr n j)).toNat % 65536

/-- The limiter's decision on a line (R103). -/
def State.dutyOf (s : State) (n : Fin 16) (l : Line) : DutyDec :=
  if !s.flag (F.CHn_DUT_CTRL_EN n) then
    { line := l, out := l.codes, nDem := 0, nSup := 0, lvl := 0, t0 := 0, first := false }
  else
    let w := s.weight n
    let lim := s.get (F.CHn_DUT_NLIM_NLIM n)
    let sup := s.flag (F.CHn_DUT_CTRL_NPOL n)
    let ns := List.mapIdx (fun j c => nozStage w sup (lim - s.nozCnt n j) c) l.codes
    let both := List.zip l.codes ns
    let left := s.get (F.CHn_DUT_HLIM_HLIM n) - s.get (F.CHn_DUT_HCOUNT_HCNT n)
    let lvls := if s.flag (F.CHn_DUT_CTRL_HPOL n) then [0, 3] else [0, 1, 2, 3]
    let lvl := (lvls.find? fun v => lineWeight w ns v ≤ left).getD 3
    { line := l, out := ns.map (demoteLvl · lvl),
      nDem := (both.filter fun x => x.2 != x.1 && x.2 != 0).length,
      nSup := (both.filter fun x => x.2 != x.1 && x.2 == 0).length,
      lvl := lvl, t0 := lineWeight w ns 0, first := true }

/-- Window lengths of nozzle and head in lines. -/
def State.nozWin (s : State) (n : Fin 16) : Nat := s.get (F.CHn_DUT_NWIN_NWIN n) + 1
def State.headWin (s : State) (n : Fin 16) : Nat := s.get (F.CHn_DUT_HWIN_HWIN n) + 1

/-- Every nozzle counter of channel n reads 0. -/
def clearNozzles (n : Fin 16) (s : State) : State :=
  { s with bar := sparseDrop (fun k => dutAddr n 0 ≤ k && decide (k < dutAddr n 4096)) s.bar }

/-- Windows that end with the line just counted: their counters are cleared (R102). -/
def endWindows (n : Fin 16) (s : State) : State :=
  let c := (s.ch n).dut.count
  let s1 := if c % s.nozWin n = 0 then clearNozzles n s else s
  if c % s.headWin n = 0 then (s1.put (F.CHn_DUT_HCOUNT_HCNT n) 0).modDut n fun d => { d with raised := false } else s1

/-- Every nozzle's counter takes the weight of its code in the list. -/
def chargeNozzles (n : Fin 16) (w : Nat → Nat) : List Nat → Nat → State → State
  | [], _, s => s
  | c :: cs, j, s =>
    chargeNozzles n w cs (j + 1)
      (if w c = 0 then s else s.setWord (dutAddr n j) (BitVec.ofNat 32 (min 65535 (s.nozCnt n j + w c))))

/-- The counts of the head level's act on a line, by the level it took. -/
def countHead (n : Fin 16) (d : DutyDec) (s : State) : State :=
  if d.lvl = 0 then s else
    (if d.lvl = 3 then s.bump (F.CHn_DUT_HACT_HSUP n) (if 0 < d.t0 then 1 else 0)
     else s.bump (F.CHn_DUT_HACT_HDEM n) 1).put (F.CHn_DUT_STAT_HACT n) 1

/-- The counts of the nozzle level's acts on a line. -/
def countNozzles (n : Fin 16) (d : DutyDec) (s : State) : State :=
  let s1 := (s.bump (F.CHn_DUT_NACT_DEM n) d.nDem).bump (F.CHn_DUT_NACT_SUP n) d.nSup
  if 0 < d.nDem + d.nSup then s1.put (F.CHn_DUT_STAT_NACT n) 1 else s1

/-- The event of an act, once in a head window. -/
def raiseAct (n : Fin 16) (d : DutyDec) (s : State) : State :=
  if (0 < d.nDem + d.nSup ∨ 0 < d.lvl) ∧ ¬ (s.ch n).dut.raised then
    (s.modDut n fun x => { x with raised := true }).raiseCh n 13
  else s

/-- A fired line's weights and actions are charged and the line is counted (R102, R104, R109). -/
def chargeDuty (n : Fin 16) (d : DutyDec) (s : State) : State :=
  let w := s.weight n
  let s1 := if !s.flag (F.CHn_DUT_CTRL_EN n) || !d.first then s else
    raiseAct n d (countHead n d (countNozzles n d
      ((chargeNozzles n w d.out 0 s).bump (F.CHn_DUT_HCOUNT_HCNT n) (lineWeight w d.out 0))))
  endWindows n (s1.modDut n fun x => { x with count := x.count + 1 })

/-- The addresses of the DUT participant of channel n. -/
def isDut (n : Fin 16) (a : Nat) : Bool := isPart (.ch n 5) a

/-- Committed duty settings apply at the first line of a head window: base is set there and every counter cleared
(R106). -/
def applyDuty (n : Fin 16) (s : State) : State :=
  if (s.ch n).dut.count % s.headWin n = 0 then
    applyAll (isDut n) (fun _ s =>
      ((clearNozzles n s).put (F.CHn_DUT_HCOUNT_HCNT n) 0).modDut n fun d => { d with count := 0, raised := false }) s
  else s

/-! ## The vote of the waveform engine -/

/-- The tables that the settings can select. -/
def State.selectable (s : State) (n : Fin 16) : List Nat :=
  if s.flag (F.CHn_WAV_SEL_PASSSEL n) then ((List.range 16).map (s.tabOf n)).eraseDups else [s.tabOf n 0]

/-- Whether a table of the bank in effect can be used on the enabled ports (R108). -/
def State.tableOk (s : State) (n : Fin 16) (t : Nat) : Bool :=
  let b := s.get (F.CHn_WAV_BANK_BANK n)
  let ds := s.segDurs n b t
  !ds.isEmpty && total ds ≤ 8192 && [0, 1].all fun p =>
    !s.portEn n p || (s.segShape n b t 0 p == 0 && (List.range ds.length).all fun i => s.segShape n b t i p != 3)

/-- LSTATE UP. -/
def State.linkIsUp (s : State) (n : Fin 16) : Bool := s.get (F.CHn_BRG_STAT_LSTATE n) == 3

/-- MASKPEND for the masks of a bank: the link is not UP, or a CFG frame carrying masks of the bank since then is still to be
acknowledged (R171). -/
def State.maskPend (s : State) (n : Fin 16) (bank : Nat) : Bool :=
  !s.linkIsUp n || (s.ch n).wav.full.contains bank || ((s.ch n).wav.words.any fun x => x.1 == bank) ||
  match (s.ch n).brg.outst with
  | some f => f.masks.any fun x => x.1 == bank
  | none => false

/-- The scale of a port whose loop is off equals its AMP field (R100). -/
def settleScale (n : Fin 16) (s : State) : State :=
  let on (p : Nat) : Bool := s.flag (F.CHn_WAV_WFB_LOOP_EN n) && s.get (F.CHn_WAV_WFB_SRC n) == p
  let s1 := if on 0 then s else s.put (F.CHn_WAV_SCALE_SC0 n) (s.get (F.CHn_WAV_AMP_AMP0 n))
  if on 1 then s1 else s1.put (F.CHn_WAV_SCALE_SC1 n) (s1.get (F.CHn_WAV_AMP_AMP1 n))

/-- Committed waveform settings apply; a scale that waits for the next frame on SRC goes if the loop is off now or SRC is another
port (R100, R107). -/
def applyWav (n : Fin 16) (s : State) : State :=
  applyAll (isPart (.ch n 2)) (fun s0 s =>
    let stays := s.flag (F.CHn_WAV_WFB_LOOP_EN n) && s.get (F.CHn_WAV_WFB_SRC n) == s0.get (F.CHn_WAV_WFB_SRC n)
    settleScale n (if stays then s else s.modWav n fun w => { w with newScale := none })) s

/-- The rules of R108 on the settings of a resulting state t. -/
def wavRules (n : Fin 16) (t : State) : Bool :=
  ((t.selectable n).all fun k => t.tableOk n k) &&
  !(t.flag (F.CHn_WAV_WFB_LOOP_EN n) && decide (t.get (F.CHn_WAV_WFBWIN_WEND n) ≤ t.get (F.CHn_WAV_WFBWIN_WST n))) &&
  decide (t.get (F.CHn_WAV_WFBLIM_SCMIN n) ≤ t.get (F.CHn_WAV_WFBLIM_SCMAX n))

/-- The vote of channel n's waveform engine on the resulting state t (R108): MASKPEND is 0, the head board has the masks of the bank
to be active, and the settings are right. -/
def voteWav (n : Fin 16) (s t : State) : Bool :=
  !s.maskPend n (1 - s.get (F.CHn_WAV_BANK_BANK n)) && !s.maskPend n (t.get (F.CHn_WAV_BANK_BANK n)) && wavRules n t

end Sys2Proof.Machine
end

