-- ==== Sys2Proof/Machine/PosOps.lean ====
section
/-! DEFINITION. Operations of position feedback (chapter 5): the edge filter, counting, fault declaration, the index, the
redundant pair, frets and encoder emulation. -/

namespace Sys2Proof.Machine

/-! ## Sampling and counting -/

/-- Whether encoder e is enabled: EN = 1 in a mode that is not reserved (R113). -/
def State.encEn (s : State) (e : Fin 4) : Bool := s.flag (F.POS_ENCe_CFG_EN e) && s.get (F.POS_ENCe_CFG_MODE e) < 5

/-- Whether front end i counts encoder e: the encoder enabled and the front end's domain ON (R110, R125). -/
def State.feOn (s : State) (i : Fin 17) (e : Fin 4) : Bool :=
  s.encEn e && (if i = fePos then s.domOn 4 else s.domOn (8 + i.val) && (s.fe i e).en)

/-- A sample of one line under the edge filter: the line, and whether a pending change was discarded (R111). -/
def sigSample (filt now : Nat) (r : Bool) (g : EncSig) : EncSig × Bool :=
  if r = g.acc then ({ g with raw := r }, g.raw != g.acc)
  else if g.tick + 2 * filt ≤ now ∨ filt = 0 then ({ raw := r, acc := r, tick := now }, false)
  else ({ g with raw := r }, false)

/-- The place of (A, B) in the forward sequence 00, 10, 11, 01 (R113). -/
def quadIdx (a b : Bool) : Nat :=
  match a, b with
  | false, false => 0 | true, false => 1 | true, true => 2 | false, true => 3

/-- What a sample counts before DIRINV, and whether it is an illegal transition or a step/direction collision (R113 to
R115). The levels before are a, b and after are a', b'. -/
def countOf (mode : Nat) (a b a' b' : Bool) : Int × Bool :=
  let d := (quadIdx a' b' + 4 - quadIdx a b) % 4
  let dir : Int := if d = 1 then 1 else if d = 3 then -1 else 0
  match mode with
  | 0 => (if !a && !b && a' && !b' then 1 else if a && !b && !a' && !b' then -1 else 0, d == 2)
  | 1 => (if a != a' && b == b' then dir else 0, d == 2)
  | 2 => (dir, d == 2)
  | 3 => (if !a && a' then (if b then -1 else 1) else 0, !a && a' && b != b')
  | 4 => ((if !a && a' then 1 else 0) - (if !b && b' then 1 else 0), false)
  | _ => (0, false)

/-- The direction that a change of the accepted levels sets, true for backward: of a legal transition in the quadrature modes,
counted or not, and of a count in the others (R113). -/
def dirOf (mode : Nat) (a b a' b' : Bool) : Option Bool :=
  if mode ≤ 2 then
    match (quadIdx a' b' + 4 - quadIdx a b) % 4 with
    | 1 => some false
    | 3 => some true
    | _ => none
  else
    let d := (countOf mode a b a' b').1
    if d = 0 then none else some (decide (d < 0))

/-- The integer part of the pair position in POS. -/
def State.posPairCnt (s : State) : BitVec 48 := ((s.pairPos fePos) >>> 16).truncate 48

/-- Position of a fret or emulation source: 0 to 3 an encoder, 4 the pair. -/
def State.srcCnt (s : State) (src : Nat) : BitVec 48 :=
  match encOfSrc src with
  | some e => s.posCnt e
  | none => s.posPairCnt

/-- Whether encoder e is faulty for POS, and whether a source is. -/
def State.encFaulty (s : State) (e : Fin 4) : Bool := s.flag (F.POS_ENCe_STAT_FAULT e)
def State.srcFaulty (s : State) (src : Nat) : Bool :=
  match encOfSrc src with
  | some e => s.encFaulty e
  | none => 4 < src || (s.encFaulty 0 && s.encFaulty 1)

/-! ## Gear masters -/

def allAx : List (Fin 4) := List.finRange 4

/-- The axis is enabled and not stopped, its domain ON. -/
def State.axRuns (s : State) (a : Fin 4) : Bool :=
  s.domOn 5 && s.flag (F.MOT_AXa_CTRL_EN a) && !s.flag (F.MOT_AXa_STAT_STOPPED a)

def State.axMode (s : State) (a : Fin 4) : Nat := s.get (F.MOT_AXa_CTRL_MODE a)

/-- The master of the gear, and whether it is faulty (R282, R284). -/
def State.gearSrc (s : State) (a : Fin 4) : Nat := s.get (F.MOT_AXa_GDEN_GSRC a)
def State.gearBad (s : State) (a : Fin 4) : Bool := s.srcFaulty (s.gearSrc a)

/-- Every geared axis whose master is faulty has the fault GSRC (R284). -/
def gearFaults (s : State) : State :=
  allAx.foldl (fun (s : State) (a : Fin 4) =>
    if s.axRuns a && s.axMode a == 2 && s.gearBad a then axisFault a 4 s else s) s

/-! ## The pair -/

/-- Whether front end i has a tracker of the pair: POS itself, and a channel that prints from the pair with a tracker of each of
its encoders (R125, R129). -/
def State.hasPair (s : State) (i : Fin 17) : Bool :=
  s.pairEn && if h : i.val < 16 then
      let n : Fin 16 := ⟨i.val, h⟩
      s.chOn n && s.get (F.CHn_FT_CTRL_SRC n) == 4 && (s.fe i 0).en && (s.fe i 1).en
    else s.domOn 4

/-- Front end i changes its position source; PAIR_SWITCH is raised, and the interpolation of a channel that prints from the pair
disarms (R129, R150). -/
def switchPair (i : Fin 17) (toSec : Bool) (s : State) : State :=
  let s1 := s.modPair i fun p => { p with onSec := toSec, clean := 0 }
  let s2 := if h : i.val < 16 then
      let n : Fin 16 := ⟨i.val, h⟩
      if s.get (F.CHn_FT_CTRL_SRC n) = 4 then s1.modFt n fun f => { f with fwd := 0 } else s1
    else s1.put F.POS_PAIR_STAT_SWITCHED 1
  s2.raise 56

/-- The present gap of front end i joins the history of its pair (R128). -/
def pushGap (i : Fin 17) (s : State) : State :=
  s.modPair i fun x => { x with hist := pruneHist (s.tick - 2048) ((s.tick, s.pairGap i) :: x.hist) }

/-- OFS of front end i freezes at its value of the sample before where it no longer follows the mean, and the present gap joins
its history (R128). -/
def freezeOfs (i : Fin 17) (s0 s : State) : State :=
  pushGap i (s.modPair i fun x =>
    { x with ofs := if s0.ofsTracks i && !s.ofsTracks i then histMean (s.tick - 2) (s0.pairOf i).hist else x.ofs })

/-- The primary's run of clean counts over a sample from s0 to s: broken by a fault of the primary and by a distance of more than
2 counts from the stand-in, lengthened by a count (R129). -/
def cleanRun (i : Fin 17) (s0 s : State) : State :=
  let bad := (s0.fe i s.pri).fc < (s.fe i s.pri).fc || ((s.fe i s.pri).faulty && !(s0.fe i s.pri).faulty)
  let far := 2 * 65536 < s.pairDiff i
  let moved := s.cntOf i s.pri != s0.cntOf i s.pri
  s.modPair i fun x => { x with clean := if bad || far then 0 else if moved then x.clean + 1 else x.clean }

/-- The change of source of front end i: to the secondary as the primary's fault count first becomes nonzero or the primary is
faulty, and back after 1,024 clean counts or where the secondary is faulty (R129, R130). -/
def chooseSource (i : Fin 17) (s0 s : State) : State :=
  let pf := s.fe i s.pri
  let sf := s.fe i s.sec
  let x := s.pairOf i
  let first := (s0.fe i s.pri).fc == 0 && pf.fc != 0
  if !x.onSec && (first || pf.faulty) && !sf.faulty then switchPair i true s
  else if x.onSec && !pf.faulty && (1024 ≤ x.clean || sf.faulty) then switchPair i false s
  else s

/-- A difference beyond DIVLIM between the healthy encoders of the pair, as POS sees it (R130). -/
def checkDiv (s : State) : State :=
  if !s.encFaulty 0 && !s.encFaulty 1 && !s.flag F.POS_PAIR_STAT_DIV &&
      s.get F.POS_PAIR_DIV_DIVLIM * 65536 < s.pairDiff fePos then
    (s.put F.POS_PAIR_STAT_DIV 1).raise 57
  else s

/-- What follows for the pair in front end i, where it has a tracker of it, from a sample that led from s0 to s (R128 to R130). -/
def pairFollow (i : Fin 17) (s0 s : State) : State :=
  if !s.hasPair i then s
  else
    let s1 := chooseSource i s0 (cleanRun i s0 (freezeOfs i s0 s))
    if i = fePos then checkDiv s1 else s1

/-- Channel n's fire timing follows its line position from that of s0 to that of s: a count, or a change of source, which
is no count (R145, R150). -/
def lineFollow (n : Fin 16) (s0 s : State) : State :=
  let old := s0.linePos n
  let new := s.linePos n
  if (s0.pairOf (feCh n)).onSec != (s.pairOf (feCh n)).onSec && s.get (F.CHn_FT_CTRL_SRC n) == 4 then
    let q := printPos (s.pageDir n) new
    let s1 := noteCnt n old (s.modFt n fun f =>
      { f with fwd := 0, h := if reached q f.h then q else f.h, excursion := f.excursion && !reached q f.h })
    checkUnderrun n (reverseAt n q s1)
  else ftCount n old new s

/-- The pair in every front end follows a change of what is known of encoder e that led from s0 to s (R129, R130). -/
def pairsFollow (e : Fin 4) (s0 s : State) : State :=
  if e.val < 2 then (List.finRange 17).foldl (fun (s : State) (i : Fin 17) => pairFollow i s0 s) s else s

/-- Encoder e is declared faulty for the device: FAULT, the event, and the broadcast to every channel (R117) and to the axes geared to
it (R284). -/
def declareFaulty (e : Fin 4) (s : State) : State :=
  let s1 := if s.encFaulty e then s else gearFaults ((s.put (F.POS_ENCe_STAT_FAULT e) 1).raise (48 + e.val))
  (pairsFollow e s1 (everyFe e (fun f => { f with faulty := true }) s1)).eachCh fun n s =>
    if s.chOn n && !s1.posUnavailable n && (s.get (F.CHn_FT_CTRL_SRC n) = e.val || s.get (F.CHn_FT_CTRL_SRC n) = 4) then
      posLost n (lineFollow n s1 s)
    else s

/-! ## Frets and emulation -/

/-- The signed difference of two counts, modulo 2^48 (R116). -/
def cntDiff (a b : BitVec 48) : Int := (a - b).toInt

/-- Whether a move from p' to p crosses c forward or backward (R132). -/
def crosses (p' p c : BitVec 48) (dir : Nat) : Option Bool :=
  let m := cntDiff p p'
  let k := cntDiff c p'
  if 0 < m ∧ 0 < k ∧ k ≤ m ∧ (dir = 0 ∨ dir = 2) then some true
  else if m < 0 ∧ k ≤ 0 ∧ m < k ∧ (dir = 1 ∨ dir = 2) then some false
  else none

/-- CMP of fret f. -/
def State.fretCmp (s : State) (f : Nat) : BitVec 48 :=
  BitVec.ofNat 48 (s.pair (A.POS_FRETf_CMP_LO f) (A.POS_FRETf_CMP_HI f))

/-- The actions of a matching fret, then reload or disarming (R133). -/
def fretMatch (f : Nat) (fwd : Bool) (s : State) : State :=
  let c := s.fretCmp f
  let s1 := if s.flag (F.POS_FRETf_CTRL_EVT f) then
      (s.put (if f < 32 then F.POS_FRETHIT_LO_HIT_L.bit f else F.POS_FRETHIT_HI_HIT_H.bit (f - 32)) 1).raise 60
    else s
  let s2 := if s.flag (F.POS_FRETf_CTRL_CAPO f) then capoCond 3 f s1 else s1
  let s3 := if s.flag (F.POS_FRETf_CTRL_PAGE f) then s2.eachCh (pageMark f fwd c) else s2
  let step := s.get (F.POS_FRETf_STEP_STEP f)
  if s.flag (F.POS_FRETf_CTRL_RELOAD f) ∧ step ≠ 0 then
    let c' := (c + BitVec.ofInt 48 (toSigned 32 step)).toNat
    (s3.put (F.POS_FRETf_CMP_LO_CMP_L f) c').put (F.POS_FRETf_CMP_HI_CMP_H f) (c' / 2 ^ 32)
  else s3.put (F.POS_FRETf_CTRL_ARM f) 0

/-- Every armed fret whose source moved between s0 and s, in the order of fret index; `moves` leaves out the sources whose
coordinates a preset changed (R132, R135). With SRC = 4 and no pair enabled a fret never matches (DESIGN CHOICE, log 158). -/
def fretsFollow (moves : Nat → Bool) (s0 s : State) : State :=
  (List.range 64).foldl (fun s1 f =>
    let src := s1.get (F.POS_FRETf_CTRL_SRC f)
    if s1.flag (F.POS_FRETf_CTRL_ARM f) ∧ src < 5 ∧ (src = 4 → s.pairEn) ∧ moves src ∧ ¬ s1.srcFaulty src then
      match crosses (s0.srcCnt src) (s.srcCnt src) (s1.fretCmp f) (s1.get (F.POS_FRETf_CTRL_DIR f)) with
      | some fwd => fretMatch f fwd s1
      | none => s1
    else s1) s

/-- An emulation output and the state with it changed. -/
def State.emuOf (s : State) (m : Fin 4) : Emu := s.pos.emu.get m
def State.modEmu (s : State) (m : Fin 4) (f : Emu → Emu) : State :=
  { s with pos := { s.pos with emu := s.pos.emu.set m (f (s.emuOf m)) } }

/-- Whether output m holds its levels (R139). -/
def State.emuHold (s : State) (m : Fin 4) : Bool :=
  s.srcFaulty (s.get (F.POS_EMUm_CFG_SRC m)) || s.flag (F.POS_EMUm_STAT_OVF m) || s.flag F.FLT_SAFE_ACTIVE

/-- The source of output m moved by `d` counts: the accumulator, the backlog, LAG and OVF (R136, R137). -/
def emuCount (d : Int) (m : Fin 4) (s : State) : State :=
  if s.flag (F.POS_EMUm_STAT_OVF m) then s
  else
    let acc := (s.emuOf m).acc + d * (s.get (F.POS_EMUm_RATIO_RATIO m) : Int)
    let units := acc.tdiv (2 ^ 24)
    let back := toSigned 16 (s.get (F.POS_EMUm_STAT_BACKLOG m)) + units
    let s1 := s.modEmu m fun x => { x with acc := acc - units * 2 ^ 24 }
    if 32767 < back.natAbs then
      ((s1.put (F.POS_EMUm_STAT_BACKLOG m) 0).put (F.POS_EMUm_STAT_OVF m) 1).raise 61
    else
      let s2 := s1.put (F.POS_EMUm_STAT_BACKLOG m) (ofSigned 16 back)
      if 64 ≤ back.natAbs ∧ (toSigned 16 (s.get (F.POS_EMUm_STAT_BACKLOG m))).natAbs < 64 then
        (s2.put (F.POS_EMUm_STAT_LAG m) 1).raise 61
      else s2

/-- The counts that a source made between s0 and s: an encoder's own, or for the pair the move of the integer part of its
position, a change of its source being none (R136; DEDUCED, log 42). With no pair enabled SRC = 4 gives no counts (DESIGN CHOICE, log 158). -/
def State.srcMove (s0 s : State) (src : Nat) : Int :=
  match encOfSrc src with
  | some e => cntDiff (s.posCnt e) (s0.posCnt e)
  | none =>
    if src = 4 ∧ s.pairEn ∧ (s0.pairOf fePos).onSec = (s.pairOf fePos).onSec then cntDiff s.posPairCnt s0.posPairCnt else 0

/-- Every enabled emulation output whose source counted between s0 and s1 (R136). -/
def emuFollow (s0 s1 s : State) : State :=
  (List.finRange 4).foldl (fun (s : State) (m : Fin 4) =>
    let d := s0.srcMove s1 (s.get (F.POS_EMUm_CFG_SRC m))
    if s.flag (F.POS_EMUm_CFG_EN m) ∧ d ≠ 0 then emuCount d m s else s) s

/-! ## The index -/

/-- The last capture of encoder e. -/
def State.idxCap (s : State) (e : Fin 4) : BitVec 48 :=
  BitVec.ofNat 48 (s.pair (A.POS_ENCe_IDXCAP_LO e) (A.POS_ENCe_IDXCAP_HI e))
def setIdxCap (e : Fin 4) (c : BitVec 48) (s : State) : State :=
  ((s.put (F.POS_ENCe_IDXCAP_LO_CAP_L e) c.toNat).put (F.POS_ENCe_IDXCAP_HI_CAP_H e) (c.toNat / 2 ^ 32)).put
    (F.POS_ENCe_IDXCAP_HI_VALID e) 1

/-- A REZERO step: the count of POS and of every tracker of the encoder, the pair offset if it is the primary, and H and X
of the channels that print from it, by as much as it moves their line position (R122, R150). A step of the secondary changes P − K × S
from this sample on (R128). -/
def rezero (e : Fin 4) (step : Int) (s : State) : State :=
  let d : BitVec 48 := BitVec.ofInt 48 step
  let s1 := (List.finRange 17).foldl (fun (s : State) (i : Fin 17) =>
    if s.feOn i e then s.modFe i e fun f => { f with cnt := f.cnt + d } else s) s
  let s2 := if s.pairEn && e = s.pri then
      (List.finRange 17).foldl (fun (s : State) (i : Fin 17) => s.modPair i fun p =>
        { p with ofs := p.ofs + step * 65536, hist := p.hist.map fun x => (x.1, x.2 + step * 2 ^ 24) }) s1
    else if s.pairEn && e = s.sec then (List.finRange 17).foldl (fun (s : State) (i : Fin 17) => pushGap i s) s1
    else s1
  s2.eachCh fun n t =>
    let src := s.get (F.CHn_FT_CTRL_SRC n)
    if s.chOn n && (src = e.val || (src = 4 && s.pairEn && e.val < 2)) then ftStep n (s2.linePos n - s.linePos n) t else t

/-- An index mismatch: IDXMIS, the event, and under FAIL the declaration (R120, R121). -/
def idxMismatch (e : Fin 4) (s : State) : State :=
  let s1 := (s.put (F.POS_ENCe_STAT_IDXMIS e) 1).raise (52 + e.val)
  if s.get (F.POS_ENCe_IDXCFG_POLICY e) = 2 then declareFaulty e (s1.modEnc e fun x => { x with pending := true })
  else s1

/-- An index event of encoder e in POS: capture, check, policy (R119 to R122), and the Z of emulation (R138), where the index of the
pair as source is the primary's (DESIGN CHOICE, log 157). -/
def indexEvent (e : Fin 4) (s : State) : State :=
  let cnt := s.posCnt e
  let prev := s.idxCap e
  let nom : Int := s.get (F.POS_ENCe_IDXNOM_NOM e)
  let tol : Int := s.get (F.POS_ENCe_IDXCFG_TOL e)
  let d := cntDiff cnt prev
  let check := nom ≠ 0 ∧ (s.encOf e).idxChecked = true
  let pass := d.natAbs ≤ tol ∨ ((d.natAbs : Int) - nom).natAbs ≤ tol
  let s0 := (List.finRange 4).foldl (fun (s : State) (m : Fin 4) =>
    let src := s.get (F.POS_EMUm_CFG_SRC m)
    if src = e.val ∨ (src = 4 ∧ e = s.pri) then s.modEmu m fun x => { x with pend := true } else s) s
  let s1 := s0.modEnc e fun x => { x with idxChecked := true, missed := false }
  if check ∧ ¬ pass then
    let s2 := idxMismatch e s1
    if s.get (F.POS_ENCe_IDXCFG_POLICY e) = 1 then
      let target := prev + BitVec.ofInt 48 (nom * d.sign)
      setIdxCap e target (rezero e (cntDiff target cnt) s2)
    else setIdxCap e cnt s2
  else
    setIdxCap e cnt (if check then s1.modEnc e fun x => { x with pending := false } else s1)

/-- A missing index: the count has passed the previous capture by more than NOM + TOL with no index event (R120). None is looked for
after a preset, a new NOM or a clear of FAULT until the next index event (DESIGN CHOICE, log 160). -/
def missingIndex (e : Fin 4) (s : State) : State :=
  let nom : Int := s.get (F.POS_ENCe_IDXNOM_NOM e)
  if nom ≠ 0 ∧ (s.encOf e).idxChecked ∧ ¬ (s.encOf e).missed ∧
      nom + s.get (F.POS_ENCe_IDXCFG_TOL e) < (cntDiff (s.posCnt e) (s.idxCap e)).natAbs then
    idxMismatch e (s.modEnc e fun x => { x with missed := true })
  else s

/-! ## A sample in a front end -/

/-- The start of the window that holds tick `now`, with windows of `len` ticks from `t0` on. -/
def winStart (t0 len now : Nat) : Nat := t0 + (now - t0) / len * len

/-- A fault window of encoder e whose end has come is over: every front end counts faults from 0 again (R117). -/
def faultWindow (e : Fin 4) (s : State) : State :=
  let len := (s.get (F.POS_ENCe_FLT_FWIN e) + 1) * usTicks
  if (s.encOf e).winTick + len ≤ s.tick then
    (everyFe e (fun f => { f with fc := 0 }) (s.modEnc e fun x => { x with winTick := winStart x.winTick len s.tick })).put
      (F.POS_ENCe_STAT_FCOUNT e) 0
  else s

/-- A speed window of encoder e whose end has come is over: EDGES and DIR are reported. DIR of a window without a count is a free value
(R123). -/
def speedWindow (e : Fin 4) (s : State) : State :=
  let x := s.encOf e
  let len := (s.get (F.POS_ENCe_SPDCFG_SWIN e) + 1) * usTicks
  if x.spdTick + len ≤ s.tick then
    let dir := if x.edges = 0 then s.freeVal.toNat else b2n x.spdDir
    let s1 := if x.edges = 0 then s.takeFree else s
    let s2 := (s1.put (F.POS_ENCe_SPD_EDGES e) (min x.edges 0xFFFFFF)).put (F.POS_ENCe_SPD_DIR e) dir
    s2.modEnc e fun x => { x with edges := 0, spdTick := winStart x.spdTick len s.tick }
  else s

/-- What POS does with a count of encoder e between s0 and s: speed and period. A count in the sample that ends a window belongs to the
next one (R123). -/
def posTally (e : Fin 4) (s0 s : State) : State :=
  let d := cntDiff (s.posCnt e) (s0.posCnt e)
  if d = 0 then s
  else
    let last := (s0.fe (s0.posFe e) e).lastTick
    let s1 := (speedWindow e s).modEnc e fun x => { x with edges := x.edges + 1, spdDir := decide (d < 0) }
    if last = 0 then s1 else s1.put (F.POS_ENCe_PERIOD_PERIOD e) (min ((s.tick - last) / 2) 0xFFFFFFFF)

/-- Record `ill` illegal transitions or collisions and `rej` filter rejections of encoder e in front end i: the window's fault
count, and POS's status and totals. A fault exactly at the end of a window counts in the next one (R117). -/
def feFaults (i : Fin 17) (e : Fin 4) (ill rej : Nat) (s0 : State) : State :=
  if ill + rej = 0 then s0
  else
    let s := faultWindow e s0
    let fc := (s.fe i e).fc + ill + rej
    let s1 := s.modFe i e fun f => { f with fc := fc }
    if i ≠ fePos then s1 else
      let s2 := if ill = 0 then s1 else (s1.put (F.POS_ENCe_STAT_ILL e) 1).bump (F.POS_ENCe_FCNT_ILLCNT e) ill
      let s3 := if rej = 0 then s2 else (s2.put (F.POS_ENCe_STAT_FLTR e) 1).bump (F.POS_ENCe_FCNT_FLTCNT e) rej
      s3.put (F.POS_ENCe_STAT_FCOUNT e) (min fc 255)

/-- What a sample leads to for the pair in a front end, where encoder e belongs to it. -/
def pairSample (i : Fin 17) (e : Fin 4) (s0 s : State) : State := if e.val < 2 then pairFollow i s0 s else s

/-- The declaration at FLIM in the window: by POS for the device, by a channel for itself alone (R117). -/
def feDeclare (i : Fin 17) (e : Fin 4) (s0 s : State) : State :=
  let lim := s.get (F.POS_ENCe_FLT_FLIM e)
  if lim ≠ 0 ∧ lim ≤ (s.fe i e).fc ∧ (s0.fe i e).fc < lim then
    if i = fePos then declareFaulty e s else pairSample i e s (s.modFe i e fun f => { f with faulty := true })
  else s

/-- Front end i takes the accepted and pending levels a, b, z of encoder e: counting, faults, the pair, and the line position
of a channel (R113 to R118, R127 to R129). -/
def feTake (i : Fin 17) (e : Fin 4) (a b z : EncSig) (rej : Nat) (s0 : State) : State :=
  let f := s0.fe i e
  if !s0.feOn i e then
    s0.modFe i e fun f => { f with a := { a with acc := a.raw }, b := { b with acc := b.raw }, z := { z with acc := z.raw } }
  else
    let mode := s0.get (F.POS_ENCe_CFG_MODE e)
    let inv := s0.flag (F.POS_ENCe_CFG_DIRINV e)
    let c := countOf mode f.a.acc f.b.acc a.acc b.acc
    let d := if inv then -c.1 else c.1
    let back := match dirOf mode f.a.acc f.b.acc a.acc b.acc with
      | some v => v != inv
      | none => f.back
    let s1 := s0.modFe i e fun f =>
      { f with a := a, b := b, z := z, cnt := f.cnt + BitVec.ofInt 48 d, back := back,
               lastTick := if d = 0 then f.lastTick else s0.tick }
    let s2 := feDeclare i e s0 (pairSample i e s0 (feFaults i e (b2n c.2) rej s1))
    if h : i.val < 16 then
      let n : Fin 16 := ⟨i.val, h⟩
      let s3 := lineFollow n s0 s2
      if s3.posUnavailable n && !s0.posUnavailable n then posLost n s3 else s3
    else s2

/-- Whether the sample of POS's front end from s0 to s makes an index event of encoder e (R119). -/
def State.indexIn (s0 s : State) (e : Fin 4) : Bool :=
  let f := s0.fe fePos e
  let g := s.fe fePos e
  let at' := s0.get (F.POS_ENCe_CFG_IDXAB e)
  let rise := !f.z.acc && g.z.acc
  let here := 2 * b2n g.a.acc + b2n g.b.acc == at'
  let was := 2 * b2n f.a.acc + b2n f.b.acc == at'
  s0.feOn fePos e &&
  (if s0.flag (F.POS_ENCe_CFG_IDXGATE e) && s0.get (F.POS_ENCe_CFG_MODE e) ≤ 2 then
    (g.z.acc && here && !was) || (rise && here)
   else rise)

/-- The pair in POS follows a substituted count of encoder e, every front end having counted (R126, R129). -/
def subFollow (e : Fin 4) (s0 s : State) : State := if (s.encOf e).sub.isSome then pairSample fePos e s0 s else s

/-- What POS derives from a sample of encoder e that led from s0 to s, every front end having counted: the pair under a
substituted count, speed, the index, frets and emulation (R119 to R123, R126, R132 to R136). -/
def posFollow (e : Fin 4) (s0 s : State) : State :=
  let s1 := subFollow e s0 s
  let s2 := posTally e s0 s1
  let s3 := if s0.indexIn s e then indexEvent e s2 else s2
  let s4 := if s1.posCnt e = s0.posCnt e then s3 else missingIndex e s3
  emuFollow s0 s1 (fretsFollow (fun _ => true) s0 s4)

/-- Front end i samples the levels a, b, z at the balls of encoder e (R110, R111). -/
def feSample (i : Fin 17) (e : Fin 4) (a b z : Bool) (s : State) : State :=
  let f := s.fe i e
  let filt := s.get (F.POS_ENCe_CFG_FILT e)
  let ga := sigSample filt s.tick a f.a
  let gb := sigSample filt s.tick b f.b
  let gz := sigSample filt s.tick z f.z
  feTake i e ga.1 gb.1 gz.1 (b2n ga.2 + b2n gb.2 + b2n gz.2) s

/-- A line whose pending change has stood for FILT × 5 ns. -/
def sigAccept (filt now : Nat) (g : EncSig) : EncSig :=
  if g.raw != g.acc && decide (g.tick + 2 * filt ≤ now) then { g with acc := g.raw, tick := now } else g

/-! ## Trackers -/

/-- Channel n's tracker for encoder e is enabled: it loads the POS count in one sample (R125). -/
def loadTracker (n : Fin 16) (e : Fin 4) (s : State) : State :=
  let p := s.fe fePos e
  (s.modFe (feCh n) e fun _ =>
    { EncFe.reset with a := p.a, b := p.b, z := p.z, cnt := s.posCnt e, faulty := p.faulty, en := true }).modPair (feCh n)
    fun _ => s.pairOf fePos

/-- Whether channel n's fire timing selects encoder e, with POS and the channel able to count it (R125, R380). -/
def State.wantsTracker (s : State) (n : Fin 16) (e : Fin 4) : Bool :=
  let src := s.get (F.CHn_FT_CTRL_SRC n)
  s.chOn n && !(s.ch n).iso.isolated && s.domOn 4 && s.encEn e &&
  (src == e.val || (src == 4 && s.pairEn && e.val < 2))

/-- POS's count of encoder e is another front end's: P − K × S of its pair changes from this sample on (R126, R128). -/
def newPosCnt (e : Fin 4) (s : State) : State := if s.pairEn && decide (e.val < 2) then pushGap fePos s else s

/-- Channel n's tracker of encoder e stops. A count that POS had taken from it is taken from the lowest-numbered other valid
tracker, or goes on in POS's own front end (DESIGN CHOICE, log 131). -/
def dropTracker (n : Fin 16) (e : Fin 4) (s : State) : State :=
  let s1 := if (s.encOf e).sub = some n then
      match allCh.find? (fun k => k != n && (s.fe (feCh k) e).valid && !(s.fe (feCh k) e).failed) with
      | some k => newPosCnt e (s.modEnc e fun x => { x with sub := some k })
      | none =>
        ((s.modFe fePos e fun f => { f with cnt := s.posCnt e }).modEnc e fun x => { x with sub := none }).put
          (F.POS_XSTAT_POSSUB.bit e) 0
    else s
  s1.modFe (feCh n) e fun _ => EncFe.reset

/-- Trackers of channel n follow what its fire timing selects (R125). -/
def syncTrackers (n : Fin 16) (s : State) : State :=
  (List.finRange 4).foldl (fun (s : State) (e : Fin 4) =>
    let en := (s.fe (feCh n) e).en
    if s.wantsTracker n e && !en then loadTracker n e s
    else if en && !s.wantsTracker n e then dropTracker n e s
    else s) s

/-- Trackers of channel n are enabled and stopped by `f`; frets follow a count of POS that jumps with that (R125, R132). -/
def withFrets (f : State → State) (s : State) : State := fretsFollow (fun _ => true) s (f s)

end Sys2Proof.Machine
end

