-- ==== Sys2Proof/Machine/Work.lean ====
section
/-! DEFINITION. The meanings of the commands of the work path (chapter 2): the scroll and its descriptors, acceptance,
loading, release and retirement of bands, completion records, checkpoints and the commands of WRK_SCRn_CMD. -/

namespace Sys2Proof.Machine

/-! ## The scroll -/

/-- Band space taken by the bands of channel n, image bytes (R34). -/
def State.bandUse (s : State) (n : Fin 16) : Nat :=
  (s.ch n).work.bands.foldl (fun k b => k + b.desc.imageSize) 0

/-- Entries of the scroll of channel n, as taken at START (R32). -/
def State.scrSize (s : State) (n : Fin 16) : Nat := ringSize (s.ch n).work.scrLog

/-- Whether channel n fetches: in RUN with FETCH_EN, DMA possible, no fetch stopped or in hand, fewer than 16 rejection
records waiting and a slot before the producer index (R32, R33, R41, R56, R305, R347). -/
def State.mayFetch (s : State) (n : Fin 16) : Bool :=
  let w := (s.ch n).work
  s.chOn n && w.seqUp && !(s.ch n).iso.isolated && s.wstate n == 1 && s.flag F.WRK_CTRL_FETCH_EN && s.dmaOk &&
  !w.fetchStop && w.fetched.isNone && w.accepting.isNone &&
  decide ((w.due.filter (·.reject)).length < 16) &&
  s.get (F.WRK_SCRn_PIDX_PIDX n) % s.scrSize n != s.get (F.WRK_SCRn_CIDX_CIDX n) % s.scrSize n

/-- CIDX moves past a descriptor. -/
def advanceCidx (n : Fin 16) (s : State) : State :=
  s.put (F.WRK_SCRn_CIDX_CIDX n) ((s.get (F.WRK_SCRn_CIDX_CIDX n) + 1) % s.scrSize n)

/-- R33: software writes the producer index. -/
def execPidxWrite (m : Master) (n : Fin 16) (v : Word) (s : State) : Host.Outcome State Fault Refusal :=
  .next (s.wr m (A.WRK_SCRn_PIDX n) fun s => s.put (F.WRK_SCRn_PIDX_PIDX n) v.toNat)

/-- R33, R34: the 64 bytes at CIDX arrive, when the channel may fetch and the band limit and space allow it. -/
def execDescriptorFetch (n : Fin 16) (bs : List Byte) (s : State) : Host.Outcome State Fault Refusal :=
  nextIf (bs.length == 64)
    (if s.mayFetch n && decide ((s.ch n).work.bands.length < 64) &&
        decide (s.bandUse n + (descOf bs).imageSize ≤ bandSpace) then
      s.modWork n fun w => { w with fetched := some bs }
    else s)

/-- The record of a rejected descriptor (R41, R42, R48). -/
def State.rejectRec (s : State) (bs : List Byte) (code : Nat) : DueRec :=
  { seq := (descOf bs).seq, status := code, reject := true, repost := false, irq := false, resumed := false, npart := 0,
    nfired := 0, boot := s.boot.bootCnt, tag := if code = 0x12 then 0 else (descOf bs).tag, time := s.devTime }

/-- R38, R41: the fetched descriptor is checked; a failure advances CIDX and queues a rejection record, a pass goes on to
its acceptance record (R40). -/
def execDescriptorCheck (n : Fin 16) (s : State) : Host.Outcome State Fault Refusal :=
  .next (match (s.ch n).work.fetched with
    | none => s
    | some bs =>
      let code := checkDesc (s.journal n) bs
      let s1 := s.modWork n fun w => { w with fetched := none }
      if code = 0 then s1.modWork n fun w => { w with accepting := some (descOf bs) }
      else queueDue n (s.rejectRec bs code) (advanceCidx n s1))

/-- R41, R49: the rejection record at the head of the queue is written. -/
def execRejectionRecordWrite (n : Fin 16) (s : State) : Host.Outcome State Fault Refusal :=
  .next (match (s.ch n).work.due with
    | r :: rest =>
      if !r.reject then s
      else if s.canPost n then (postRecord n r (s.modWork n fun w => { w with due := rest })).raiseCh n 1
      else if s.dmaUp && s.cmpFull n then s.raiseCh n 5
      else s
    | [] => s)

/-! ## Acceptance -/

/-- Whether 500 µs have passed since the channel's last acceptance in this power-on period (R35). -/
def State.acceptGap (s : State) (n : Fin 16) : Bool :=
  match (s.journal n).recs.getLast? with
  | some r => r.accBoot != s.boot.bootCnt || decide (r.accTime + 500000 ≤ s.devTime)
  | none => true

/-- L0 of a band: the page line count at its line 0 (R53). -/
def nextL0 (j : ChJnl) (d : Desc) : Nat :=
  if d.pstart then 0 else match j.recs.getLast? with
    | some r => r.l0 + r.desc.lines
    | none => 0

/-- The band record of an acceptance, and the band it stands for. -/
def State.acceptRec (s : State) (n : Fin 16) (d : Desc) : BandRec :=
  { time := 0, boot := 0, desc := d, accTime := s.devTime, accBoot := s.boot.bootCnt, l0 := nextL0 (s.journal n) d,
    state := .accepted, status := 0, npart := 0, nfired := 0 }
def BandRec.toBand (r : BandRec) (page : Nat) : Band :=
  { desc := r.desc, state := .accepted, l0 := r.l0, page := page, accTime := r.accTime, accBoot := r.accBoot,
    abandoned := false, reinst := false, fired := 0, npart := 0, hadPart := false, lastTime := r.accTime,
    lastBoot := r.accBoot, first := 0, img := [], fails := 0, failTick := none, needRefetch := false, failed := false }

/-- The acceptance record is complete: journal, CIDX, LASTSEQ and the page flag, and the band is ACCEPTED (R39, R40). -/
def acceptBand (n : Fin 16) (d : Desc) (s : State) : State :=
  let r := s.acceptRec n d
  let pg := (s.ch n).work.pageNo + (if d.pstart then 1 else 0)
  let s1 := s.modJnl n fun j =>
    { j with recs := (j.recs ++ [r]).drop (j.recs.length + 1 - 512), setSeq := none, closed := false }
  let s2 := s1.modWork n fun w =>
    { w with accepting := none, pageNo := pg, bands := w.bands ++ [r.toBand pg] }
  dropLatches n (advanceCidx n s2)

/-- R40: the acceptance record of the checked descriptor is complete in the journal. -/
def execBandAccept (n : Fin 16) (s : State) : Host.Outcome State Fault Refusal :=
  .next (match (s.ch n).work.accepting with
    | some d => if s.nvOk && s.acceptGap n && (s.ch n).work.accFailTick.isNone then noteReady n s (acceptBand n d s) else s
    | none => s)

/-- R40: the acceptance record fails to write; FAB's line is raised and the write is to be tried again after 1 ms. -/
def execJnlWrfail (n : Fin 16) (s : State) : Host.Outcome State Fault Refusal :=
  .next (if (s.ch n).work.accepting.isSome && s.nvOk && (s.ch n).work.accFailTick.isNone then
      (s.modWork n fun w => { w with accFailTick := some s.tick }).raise 2
    else s)

/-- R40: 1 ms after a failed write the acceptance record starts again. -/
def execAcceptRetry (n : Fin 16) (s : State) : Host.Outcome State Fault Refusal :=
  .next (match (s.ch n).work.accFailTick with
    | some t => if t + msTicks ≤ s.tick then s.modWork n fun w => { w with accFailTick := none } else s
    | none => s)

/-- R62, R304: a descriptor fetch ends in a PCIe error; fetching stops and the channel holds with HCAUSE 7. -/
def execScrerr (n : Fin 16) (err : ReadErr) (s : State) : Host.Outcome State Fault Refusal :=
  .next (if s.mayFetch n then
      (((aerLog 0 false (readErrBit err) s).raiseCh n 6).modWork n fun w => { w with fetchStop := true }).hold n 7
    else s)

/-! ## Loading and release -/

/-- Whether a band is in a state no earlier than READY, or than RELEASED (R44). -/
def Band.isLoaded (b : Band) : Bool :=
  b.state == .ready || b.state == .released || b.state == .firing || b.state == .done || b.state == .retired
def Band.isOut (b : Band) : Bool :=
  b.state == .released || b.state == .firing || b.state == .done || b.state == .retired

/-- The first band that does not satisfy `p`, all bands before it satisfying it. -/
def firstNot (p : Band → Bool) (bs : List Band) : Option Band := bs.find? fun b => !p b

/-- Whether channel n's sequencer works on bands: domain ON, sequencer running, not isolated. -/
def State.seqWorks (s : State) (n : Fin 16) : Bool :=
  s.chOn n && (s.ch n).work.seqUp && !(s.ch n).iso.isolated

/-- R44: the first band not yet READY starts to load, with the channel in RUN. -/
def execBandLoadStart (n : Fin 16) (s : State) : Host.Outcome State Fault Refusal :=
  .next (match firstNot Band.isLoaded (s.ch n).work.bands with
    | some b =>
      if b.state = .accepted ∧ s.wstate n = 1 ∧ s.dmaOk ∧ s.seqWorks n then
        modBand n b.desc.seq (fun b => { b with state := .loading }) s
      else s
    | none => s)

/-- The band of channel n that is LOADING. -/
def State.loadingBand (s : State) (n : Fin 16) : Option Band :=
  (s.ch n).work.bands.find? fun b => b.state == .loading

/-- Lines of a band still missing from channel memory, and whether data are whole lines of it. -/
def Band.missing (b : Band) : Nat := b.desc.lines - b.first - b.img.length
def Band.wholeLines (b : Band) (got : List (List Byte)) : Bool :=
  got.all (fun l => l.length == b.desc.lineSize) && got.length ≤ b.missing

/-- Whether the image DMA of a loading band runs: no retry or REFETCH awaited, and the channel in RUN, or held with cause
4 after REFETCH (R56, R58). -/
def State.loads (s : State) (n : Fin 16) (b : Band) : Bool :=
  s.seqWorks n && s.dmaOk && !b.needRefetch && b.failTick.isNone &&
  (s.wstate n == 1 || (s.wstate n == 2 && (s.ch n).work.causes.contains 4))

/-- R56, R304: an image read fails; lines that arrived stay, and three failures without a new line hold the channel with
HCAUSE 4. -/
def execImageDmaError (n : Fin 16) (err : ReadErr) (got : List (List Byte)) (s : State) : Host.Outcome State Fault Refusal :=
  match s.loadingBand n with
  | none => .next s
  | some b =>
    nextIf (b.wholeLines got)
      (if s.loads n b then
        let fails := if got.isEmpty then b.fails + 1 else 0
        let s1 := modBand n b.desc.seq (fun b =>
          { b with img := b.img ++ got, fails := fails, failTick := some s.tick, needRefetch := decide (3 ≤ fails),
                   failed := b.failed || decide (3 ≤ fails) })
          (aerLog 0 false (readErrBit err) s)
        if 3 ≤ fails then s1.hold n 4 else s1
      else s)

/-- R304: a failed image read is tried again after 10 µs. -/
def execImageDmaRetry (n : Fin 16) (s : State) : Host.Outcome State Fault Refusal :=
  .next (match s.loadingBand n with
    | some b =>
      match b.failTick with
      | some t =>
        if t + 10 * usTicks ≤ s.tick ∧ ¬ b.needRefetch then
          modBand n b.desc.seq (fun b => { b with failTick := none }) s
        else s
      | none => s
    | none => s)

/-- R44, R66: the last image byte of the band is in channel memory; it is READY, and cause 4 is resolved. -/
def execBandLoadComplete (n : Fin 16) (got : List (List Byte)) (s : State) : Host.Outcome State Fault Refusal :=
  match s.loadingBand n with
  | none => .next s
  | some b =>
    nextIf (b.wholeLines got && got.length == b.missing)
      (if s.loads n b then
        refreshHoldWith (raiseN 6) n (dropCause4 n (modBand n b.desc.seq (fun b =>
          { b with img := b.img ++ got, state := .ready, fails := 0, failed := false }) s))
      else s)

/-- R44: the first band not yet RELEASED is handed to the hardware path; one whose ledger entries are all made is DONE with that. -/
def execBandRelease (n : Fin 16) (s : State) : Host.Outcome State Fault Refusal :=
  .next (match firstNot Band.isOut (s.ch n).work.bands with
    | some b =>
      if b.state = .ready ∧ s.wstate n = 1 ∧ s.seqWorks n then
        settleDone n (modBand n b.desc.seq (fun b => { b with state := .released }) s)
      else s
    | none => s)

/-! ## Retirement -/

/-- A DONE band is retired: its record's state is RETIRED in the journal, then the completion record is written, then
RETIRE is raised if the band asks for it or its status is not DONE (R44, R46, R62). -/
def retireBand (n : Fin 16) (r : DueRec) (rest : List DueRec) (s : State) : State :=
  let s1 := modRec n r.seq (fun x =>
    { x with state := .retired, status := r.status, npart := r.npart, nfired := r.nfired, time := r.time,
             boot := r.boot }) s
  let s2 := s1.modWork n fun w => { w with due := rest, bands := w.bands.filter fun b => b.desc.seq != r.seq }
  let s3 := postRecord n r s2
  if r.irq || r.status != 0 then s3.raiseCh n 0 else s3

/-- R46, R49: the band at the head of the queue of records is retired, or CMPFULL is raised for a full ring. -/
def execBandRetire (n : Fin 16) (s : State) : Host.Outcome State Fault Refusal :=
  .next (match (s.ch n).work.due with
    | r :: rest =>
      if r.reject || r.repost || !s.nvOk then s
      else if s.canPost n then retireBand n r rest s
      else if s.dmaUp && !(s.ch n).work.awaitStart && s.cmpFull n then s.raiseCh n 5
      else s
    | [] => s)

/-- What a new head index passes over: ACKSEQ becomes the SEQ of the last record with REJECT = 0 (R54). -/
def consume (k : Nat) (w : Work) : Work :=
  { w with unread := w.unread.drop k,
           ackSeq := ((w.unread.take k).filter (fun x => !x.2)).foldl (fun _ x => x.1) w.ackSeq }

/-- A write of the head index: the records passed are consumed and slots are free again (R48, R49). -/
def headWrite (n : Fin 16) (v : Word) (s : State) : State :=
  let sz := ringSize (s.ch n).work.cmpLog
  let old := s.get (F.WRK_CMPn_HEAD_HEAD n)
  let s1 := s.put (F.WRK_CMPn_HEAD_HEAD n) v.toNat
  let k := (s1.get (F.WRK_CMPn_HEAD_HEAD n) + sz - old % sz) % sz
  postReposts n (s.ch n).work.due.length (s1.modWork n (consume k))

/-- R48, R49: software writes the head index. -/
def execCmpHeadWrite (m : Master) (n : Fin 16) (v : Word) (s : State) : Host.Outcome State Fault Refusal :=
  .next (s.wr m (A.WRK_CMPn_HEAD n) (headWrite n v))

/-- A rail crosses VNVW while a slot of the journal is being written: it is what comes next, in this same tick (R348; DESIGN CHOICE, log
174). -/
def State.slotCut (s : State) : Bool :=
  match s.pending with
  | .nvw _ :: _ => true
  | _ => false

/-- What a slot of four words holds after a write that was cut off: some of the new words, then what stood there, free where nothing
is known of it (R348). -/
def cutSlot (s : State) (old new : List (BitVec 64)) : List (BitVec 64) :=
  let k := 1 + s.freeVal.toNat % 3
  new.take k ++ (List.range (4 - k)).map fun i =>
    old.getD (k + i) (Config.freeWord (s.free + 1 + 2 * i) ++ Config.freeWord (s.free + 2 + 2 * i))

/-- R53, R54, R348: the checkpoint of a channel in RUN or HELD, every 1 ms; lines uncertain behind its position stay so (R60; DEDUCED, log
166). -/
def execCheckpoint (n : Fin 16) (s : State) : Host.Outcome State Fault Refusal :=
  .next (if (s.wstate n = 1 ∨ s.wstate n = 2) ∧ s.nvOk ∧ s.seqWorks n ∧ (s.ch n).work.ckptTick + msTicks ≤ s.tick then
      let j := s.journal n
      let old := if j.ckpts.length < 1024 then [] else j.ckpts.headD []
      let new := ckptWords (s.ckptNow n)
      let s1 := if s.slotCut then { s with free := s.free + 7 } else s
      let slot := if s.slotCut then cutSlot s old new else new
      (s1.modJnl n fun j => { j with
          ckpts := (j.ckpts ++ [slot]).drop (j.ckpts.length + 1 - 1024),
          ckptUnc := if s.slotCut then j.ckptUnc else s.get (F.CHn_LED_UNC_COUNT n) }).modWork n fun w =>
        { w with ckptTick := s.tick, fireTicks := w.fireTicks.filter fun t => decide (s.tick < t + msTicks) }
    else s)

/-! ## Commands -/

/-- CMDRES of the last command: 0 OK, 1 STATE, 2 ARG, 3 BUSY. -/
def cmdRes (n : Fin 16) (v : Nat) (s : State) : State := s.put (F.WRK_SCRn_STAT_CMDRES n) v

/-- A command allowed in some states: its effect with CMDRES OK, else STATE (R58). -/
def cmdIf (n : Fin 16) (ok : Bool) (f : State → State) (s : State) : State :=
  if ok then cmdRes n 0 (f s) else cmdRes n 1 s

/-- Direction expected of a page armed by band `b` after a page of direction `prev` (R152, R437). -/
def State.expectDir (s : State) (n : Fin 16) (b : Band) (prev : Bool) : Bool :=
  if b.desc.arm = 0 then prev
  else if b.desc.arm = 1 then false
  else
    let f := s.flag (F.CHn_FT_SOS_FEN n)
    let k := s.flag (F.CHn_FT_SOS_BEN n)
    if f && !k then false else if k && !f then true else !prev

/-- What START takes over and sets before the causes of a hold are looked at: the rings, the descriptor in hand, the
state, and where the fire timing engine begins: H is taken from the tracker, and no page has been armed (R32, R55, R157, R437). A page
that a reset interrupted keeps the direction and arming kind of the resume position (R435). -/
def startTake (n : Fin 16) (sl cl : Nat) (s : State) : State :=
  let st := s.wstate n
  let goes := st == 3 || !s.pageOver n
  let base := s.pair (A.WRK_CMPn_BASE_LO n) (A.WRK_CMPn_BASE_HI n)
  let s1 := s.modWork n fun w =>
    { w with awaitStart := false, cmpBase := base, cmpLog := cl, scrLog := sl, fetchStop := false, fetched := none,
             accepting := none, accFailTick := none, ckptTick := s.tick, causes := [] }
  let s2 := (cmdRes n 0 (s1.put (F.WRK_SCRn_STAT_STATE n) 1)).put (F.WRK_SCRn_STAT_HCAUSE n) 0
  let s3 := if st = 0 then s2.put (F.WRK_SCRn_CIDX_CIDX n) 0 else s2
  let s4 := if goes then s3.put (F.CHn_FT_STAT_DIR n) (s.get (F.CHn_LED_LINE_DIR n)) else s3
  let s5 := s4.modFt n fun f =>
    { f with decidedSince := false, armed := false, waitMark := false, waitArm := false, armedSince := false, h := s4.q n,
             sosk := if goes then s.flag (F.CHn_LED_LINE_SOSK n) else false }
  s5.put (F.CHn_FT_STAT_STATE n) (if s.flag (F.CHn_FT_CTRL_FIRE_EN n) then 1 else 0)

/-- START (R32, R55, R56, R157): the causes of holds still there hold the channel again, and records due are posted. A page that is
open with every accepted band retired is re-armed from IDLE too (DEDUCED, log 30). -/
def runStart (n : Fin 16) (s : State) : State :=
  let st := s.wstate n
  let sl := s.get (F.WRK_SCRn_SIZE_SCR_LOG2 n)
  let cl := s.get (F.WRK_SCRn_SIZE_CMP_LOG2 n)
  if st = 1 ∨ st = 2 then cmdRes n 1 s
  else if sl < 4 ∨ 12 < sl ∨ cl < 4 ∨ 12 < cl then cmdRes n 2 s
  else
    let s6 := (s.ch n).work.causes.foldl (fun s c => s.hold n c) (startTake n sl cl s)
    let s7 := if s6.faultCleared n then s6 else s6.hold n 2
    postReposts n (s.ch n).work.due.length (if (st = 3 ∨ ¬ s7.pageOver n) ∧ s7.wstate n = 1 then rearm n s7 else s7)

/-- STOP (R58). -/
def runStop (n : Fin 16) (s : State) : State := cmdIf n (s.wstate n == 1) (fun s => s.hold n 1) s

/-- Whether no cause of a hold needs an action before RESUME (R56, R58). -/
def State.mayResume (s : State) (n : Fin 16) : Bool :=
  s.wstate n == 2 && ((s.ch n).work.causes.filter (s.unresolved n)).all fun c => c == 1 || c == 5 || c == 7

/-- RESUME (R58, R157). HCAUSE becomes 0 as the channel leaves HELD, and HELD tells of a change (R62). -/
def runResume (n : Fin 16) (s : State) : State :=
  cmdIf n (s.mayResume n) (fun s =>
    let s1 := s.modWork n fun w => { w with causes := [], fetchStop := false }
    let s2 := showCause (raiseN 6) n 0 (s1.put (F.WRK_SCRn_STAT_STATE n) 1)
    if s2.wstate n = 1 then rearm n s2 else s2) s

/-- The causes of a hold without one of them. -/
def dropCause (n : Fin 16) (c : Nat) (s : State) : State :=
  refreshHoldWith (raiseN 6) n (s.modWork n fun w => { w with causes := w.causes.filter (· != c) })

/-- The later of two places in the lines of a channel, as page and count of its lines. -/
def laterOf (a b : Nat × Nat) : Nat × Nat := if a.1 < b.1 ∨ (a.1 = b.1 ∧ a.2 < b.2) then b else a

/-- REFIRE of the PARTIAL line: it becomes the pending line and is fired first on RESUME; the lines behind it go on from where the
decisions had come (R52, R58). A line of a page before the current one has its own page's direction and arming kind, which the ledger
holds (R157, R435). -/
def refirePartial (n : Fin 16) (s : State) : State :=
  let seq := s.get (F.CHn_LED_PSEQ_SEQ n)
  let line := s.get (F.CHn_LED_PLINE_LINE n)
  let s1 := s.put (F.CHn_LED_PLINE_PEND n) 0
  let s2 := match s.band? n seq with
    | some b =>
      if b.state = .done ∨ b.state = .retired then s1
      else
        let back := b.page ≠ (s.ch n).work.decPage
        let s2 := s1.modWork n fun w =>
          { w with refire := some (seq, line), skipTo := some (laterOf (b.page, b.l0 + line + 1) (w.decPage, w.decL)),
                   skipKind := if back then some (s.pageKind n) else w.skipKind, decPage := b.page, decL := b.l0 + line }
        restartScreen n (if back then setKind n (s.ledKind n) s2 else s2)
    | none => s1
  dropCause n 3 s2

/-- REFIRE (R58). -/
def runRefire (n : Fin 16) (s : State) : State :=
  let h := s.get (F.WRK_SCRn_STAT_HCAUSE n)
  cmdIf n (s.wstate n == 2 && (h == 3 || h == 6)) (fun s =>
    if h = 3 then refirePartial n s else dropCause n 6 (s.put (F.CHn_LED_UNC_COUNT n) 0)) s

/-- A SKIPPED entry for a line at the time of the command (R50, R52). -/
def skipEntry (n : Fin 16) (seq line : Nat) (dir sosk : Bool) (s : State) : State :=
  modBand n seq (fun b => { b with lastTime := s.devTime, lastBoot := s.boot.bootCnt })
    (ledAppend n seq line 3 0 (s.chTimeAt n s.tick) dir sosk s)

/-- The PARTIAL line counts as resolved, and with it the lines behind it that are (R45). -/
def resolvePartial (n : Fin 16) (seq line : Nat) (s : State) : State :=
  match s.band? n seq with
  | some b => s.modWork n fun w =>
    let p := laterOf (b.page, b.l0 + line + 1) (w.decPage, w.decL)
    { w with firedPage := p.1, firedL := p.2 }
  | none => s

/-- SKIP of the PARTIAL line. -/
def skipPartial (n : Fin 16) (s : State) : State :=
  let seq := s.get (F.CHn_LED_PSEQ_SEQ n)
  let line := s.get (F.CHn_LED_PLINE_LINE n)
  let s1 := skipEntry n seq line (s.flag (F.CHn_LED_LINE_DIR n)) (s.flag (F.CHn_LED_LINE_SOSK n)) s
  dropCause n 3 (checkDone n (resolvePartial n seq line (s1.put (F.CHn_LED_PLINE_PEND n) 0)))

/-- SKIP of up to k uncertain lines in order; a line of a later page takes the direction expected of it, and the channel goes on in the
direction of the last one. The SKIPPED entries leave
the STATUS of their band at DONE, for R42 gives DONE_PARTIAL to a line that was PARTIAL (DESIGN CHOICE, log 133). -/
def skipUncertain (n : Fin 16) : Nat → State → State
  | 0, s => s
  | k + 1, s =>
    match s.pendingLine n with
    | none => s
    | some (b, i, pg, l) =>
      let same := pg = (s.ch n).work.decPage
      let prev := s.flag (F.CHn_LED_LINE_DIR n)
      let dir := if same then prev else s.expectDir n b prev
      let sosk := if same then s.flag (F.CHn_LED_LINE_SOSK n) else b.desc.arm == 2
      let s1 := setKind n (dir, sosk) (skipEntry n b.desc.seq i dir sosk s)
      skipUncertain n k (s1.modWork n fun w =>
        { w with decPage := pg, decL := l + 1, firedPage := pg, firedL := l + 1 })

/-- SKIP of the uncertain lines: they begin behind a line that REFIRE has made the pending one, which is still fired first, in the
direction of its own page (R58, R157). -/
def skipUncertainAll (n : Fin 16) (s : State) : State :=
  let k := s.get (F.CHn_LED_UNC_COUNT n)
  let w := (s.ch n).work
  if w.refire.isNone then skipUncertain n k s
  else
    let s1 := skipUncertain n k (s.modWork n fun x => { x with decL := x.decL + 1 })
    setKind n (s.pageKind n) (s1.modWork n fun x =>
      { x with skipTo := some (x.decPage, x.decL), skipKind := if x.decPage = w.decPage then none else some (s1.pageKind n),
               decPage := w.decPage, decL := w.decL, firedPage := w.firedPage, firedL := w.firedL })

/-- SKIP (R58). -/
def runSkip (n : Fin 16) (s : State) : State :=
  let h := s.get (F.WRK_SCRn_STAT_HCAUSE n)
  cmdIf n (s.wstate n == 2 && (h == 3 || h == 6)) (fun s =>
    if h = 3 then skipPartial n s
    else
      let s1 := checkDone n (skipUncertainAll n s)
      dropCause n 6 (s1.put (F.CHn_LED_UNC_COUNT n) 0)) s

/-- The oldest band of channel n not yet DONE. -/
def State.oldestOpen (s : State) (n : Fin 16) : Option Band :=
  (s.ch n).work.bands.find? fun b => b.state != .done && b.state != .retired

/-- A line that REFIRE made the pending one goes with its band; the lines behind it are pending. -/
def dropRefire (n : Fin 16) (seq : Nat) (s : State) : State :=
  let w := (s.ch n).work
  if (w.refire.map (·.1)) = some seq then
    let p := w.skipTo.getD (w.decPage, w.decL)
    (toSkipKind n s).modWork n fun w => { w with refire := none, skipTo := none, skipKind := none, decPage := p.1, decL := p.2 }
  else s

/-- How many of band b's lines lie at or behind a place in the lines of the channel, `md` being the largest row delay of its page. -/
def Band.linesFrom (b : Band) (md : Nat) (p : Nat × Nat) : Nat :=
  if b.page < p.1 then 0 else b.total md - (if b.page = p.1 then p.2 - b.l0 else 0)

/-- The uncertain lines of a band that is abandoned are uncertain no more; with none left, cause 6 is resolved (R58, R60; DEDUCED, log
166). -/
def dropUncertain (n : Fin 16) (b : Band) (s : State) : State :=
  let w := (s.ch n).work
  let p := if w.refire.isNone then (w.decPage, w.decL) else w.skipTo.getD (w.decPage, w.decL)
  let k := s.get (F.CHn_LED_UNC_COUNT n) - b.linesFrom (s.maxDelay n b.page (s.pageDir n)) p
  if !w.causes.contains 6 then s
  else (s.put (F.CHn_LED_UNC_COUNT n) k).modWork n fun w =>
    { w with causes := if k = 0 then w.causes.filter (· != 6) else w.causes }

/-- ABANDON (R58). -/
def runAbandon (n : Fin 16) (s : State) : State :=
  match s.wstate n == 2, s.oldestOpen n with
  | true, some b =>
    cmdRes n 0 (refreshHoldWith (raiseN 6) n (dropCause4 n (restartScreen n (dropRefire n b.desc.seq (abandonBand n b
      (dropUncertain n b s))))))
  | _, _ => cmdRes n 1 s

/-- ABANDON_ALL (R39, R58); HELD tells of an HCAUSE that changes (R62). -/
def runAbandonAll (n : Fin 16) (s : State) : State :=
  cmdIf n (s.wstate n == 2 || s.wstate n == 3) (fun s =>
    let open' := (s.ch n).work.bands.filter fun b => b.state != .done && b.state != .retired
    let s1 := open'.foldl (fun s b => abandonBand n b s) s
    let s2 := (s1.modJnl n fun j => { j with closed := true }).modWork n fun w =>
      { w with causes := [], fetched := none, accepting := none, accFailTick := none, fetchStop := false,
               refire := none, skipTo := none, skipKind := none }
    let s3 := (restartScreen n s2).modFt n fun f =>
      { f with armed := false, waitMark := false, latchMark := none, latchSos := none, decided := [] }
    showCause (raiseN 6) n 0 ((((s3.put (F.WRK_SCRn_STAT_STATE n) 0).put (F.CHn_LED_PLINE_PEND n) 0).put
      (F.CHn_LED_UNC_COUNT n) 0).put (F.CHn_FT_STAT_STATE n) 0)) s

/-- REFETCH (R58). -/
def runRefetch (n : Fin 16) (s : State) : State :=
  cmdIf n (s.wstate n == 2 && s.get (F.WRK_SCRn_STAT_HCAUSE n) == 4) (fun s =>
    setBands n (fun bs => bs.map fun b =>
      if b.state = .loading then { b with needRefetch := false, failTick := none, fails := 0 } else b) s) s

/-- Whether REBASE may move band `seq` to bus address `addr` (R58, R61). -/
def State.mayRebase (s : State) (n : Fin 16) (seq addr : Nat) : Bool :=
  match s.band? n seq with
  | some b => b.reinst && b.state == .accepted && addr % 64 == 0
  | none => false

/-- REBASE of band `seq` to bus address `addr` (R58, R61). -/
def runRebase (n : Fin 16) (seq addr : Nat) (s : State) : State :=
  if s.wstate n ≠ 3 then cmdRes n 1 s
  else if s.mayRebase n seq addr then
    cmdRes n 0 (modRec n seq (fun r => { r with desc := { r.desc with buf := addr } })
      (modBand n seq (fun b => { b with desc := { b.desc with buf := addr } }) s))
  else cmdRes n 2 s

/-- SETSEQ (R39, R58). -/
def runSetseq (n : Fin 16) (seq : Nat) (s : State) : State :=
  cmdIf n (s.wstate n == 0 && (s.ch n).work.bands.isEmpty) (fun s =>
    s.modJnl n fun j => { j with setSeq := some seq, closed := true }) s

/-- The command of a code with its arguments; codes 0 and 11 to 15 are refused with ARG (R58). -/
def runCmd (code seq addr : Nat) (n : Fin 16) (s : State) : State :=
  if (s.ch n).iso.isolated then cmdRes n 1 s
  else match code with
    | 1 => runStart n s
    | 2 => runStop n s
    | 3 => runResume n s
    | 4 => runRefire n s
    | 5 => runSkip n s
    | 6 => runAbandon n s
    | 7 => runAbandonAll n s
    | 8 => runRefetch n s
    | 9 => runRebase n seq addr s
    | 10 => runSetseq n seq s
    | _ => cmdRes n 2 s

/-- The argument registers of channel n. -/
def State.argSeq (s : State) (n : Fin 16) : Nat := s.get (F.WRK_SCRn_ARG_SEQ_SEQ n)
def State.argAddr (s : State) (n : Fin 16) : Nat := s.pair (A.WRK_SCRn_ARG_ADDR_LO n) (A.WRK_SCRn_ARG_ADDR_HI n)

/-- Whether a command would write the journal (R53): ABANDON, ABANDON_ALL, REBASE and SETSEQ where they are not refused. -/
def State.cmdJournals (s : State) (n : Fin 16) (code seq addr : Nat) : Bool :=
  !(s.ch n).iso.isolated && match code with
    | 6 => s.wstate n == 2 && (s.oldestOpen n).isSome
    | 7 => s.wstate n == 2 || s.wstate n == 3
    | 9 => s.wstate n == 3 && s.mayRebase n seq addr
    | 10 => s.wstate n == 0 && (s.ch n).work.bands.isEmpty
    | _ => false

/-- Whether a command must wait: for the sequencer's own restart (R15, R57), for READY (DESIGN CHOICE, log 134), or, to write the
journal, for non-volatile writes (R348). -/
def State.cmdWaits (s : State) (n : Fin 16) (code seq addr : Nat) : Bool :=
  !(s.ch n).work.seqUp || !s.booted || (!s.nvOk && s.cmdJournals n code seq addr)

/-- The sequencer executes a command, or keeps it while it must wait. -/
def takeCmd (n : Fin 16) (code seq addr : Nat) (s : State) : State :=
  if s.cmdWaits n code seq addr then
    (s.modWork n fun w => { w with waitCmd := some (code, seq, addr) }).put (F.WRK_SCRn_STAT_CMDBUSY n) 1
  else noteReady n s (runCmd code seq addr n s)

/-- A code is written to WRK_SCRn_CMD: the sequencer executes it, at once or when it need wait no longer; a command written
while one is still executing is ignored and CMDRES shows BUSY (R57). Every one to an isolated channel is refused with STATE (R380). A
channel whose domain is not ON has no sequencer. -/
def cmdTake (n : Fin 16) (code : Nat) (s : State) : State :=
  if (s.ch n).iso.isolated then cmdRes n 1 s
  else if !s.chOn n then s
  else if s.flag (F.WRK_SCRn_STAT_CMDBUSY n) then cmdRes n 3 s
  else takeCmd n code (s.argSeq n) (s.argAddr n) s

/-- The command that waits in channel n, if one does, is taken again. -/
def takeWaiting (n : Fin 16) (s : State) : State :=
  match (s.ch n).work.waitCmd with
  | some (c, q, a) =>
    takeCmd n c q a ((s.modWork n fun w => { w with waitCmd := none }).put (F.WRK_SCRn_STAT_CMDBUSY n) 0)
  | none => s

/-- A master writes a code to WRK_SCRn_CMD. -/
def cmdWrite (m : Master) (n : Fin 16) (code : Nat) (s : State) : State := s.wr m (A.WRK_SCRn_CMD n) (cmdTake n code)

/-- START, code 1 (R58). -/
def execCmdStart (m : Master) (n : Fin 16) (s : State) : Host.Outcome State Fault Refusal := .next (cmdWrite m n 1 s)

/-- STOP, code 2 (R58). -/
def execCmdStop (m : Master) (n : Fin 16) (s : State) : Host.Outcome State Fault Refusal := .next (cmdWrite m n 2 s)

/-- RESUME, code 3 (R58). -/
def execCmdResume (m : Master) (n : Fin 16) (s : State) : Host.Outcome State Fault Refusal := .next (cmdWrite m n 3 s)

/-- REFIRE, code 4 (R58). -/
def execCmdRefire (m : Master) (n : Fin 16) (s : State) : Host.Outcome State Fault Refusal := .next (cmdWrite m n 4 s)

/-- SKIP, code 5 (R58). -/
def execCmdSkip (m : Master) (n : Fin 16) (s : State) : Host.Outcome State Fault Refusal := .next (cmdWrite m n 5 s)

/-- ABANDON, code 6 (R58). -/
def execCmdAbandon (m : Master) (n : Fin 16) (s : State) : Host.Outcome State Fault Refusal := .next (cmdWrite m n 6 s)

/-- ABANDON_ALL, code 7 (R58). -/
def execCmdAbandonAll (m : Master) (n : Fin 16) (s : State) : Host.Outcome State Fault Refusal :=
  .next (cmdWrite m n 7 s)

/-- REFETCH, code 8 (R58). -/
def execCmdRefetch (m : Master) (n : Fin 16) (s : State) : Host.Outcome State Fault Refusal := .next (cmdWrite m n 8 s)

/-- REBASE, code 9 (R58). -/
def execCmdRebase (m : Master) (n : Fin 16) (s : State) : Host.Outcome State Fault Refusal := .next (cmdWrite m n 9 s)

/-- SETSEQ, code 0xA (R58). -/
def execCmdSetseq (m : Master) (n : Fin 16) (s : State) : Host.Outcome State Fault Refusal := .next (cmdWrite m n 10 s)

end Sys2Proof.Machine
end

