-- ==== Sys2Proof/Machine/Image.lean ====
section
/-! DEFINITION. The image path (chapter 3): screening of a line, the comparator, the pass mask, table windows and matrix
loads, and the path as a participant of capo transactions. -/

namespace Sys2Proof.Machine

/-! ## Tables -/

/-- Active banks of CHn_IMG_BANK. -/
def State.mapBank (s : State) (n : Fin 16) : Nat := s.get (F.CHn_IMG_BANK_MAPB n)
def State.mtxBank (s : State) (n : Fin 16) : Nat := s.get (F.CHn_IMG_BANK_MTXB n)

/-- Offsets of the table entries (R82). -/
def mapAddr (n : Fin 16) (bank j : Nat) : Nat := chBase n + 0x80000 + 0x4000 * bank + 4 * j
def lutAddr (n : Fin 16) (bank c : Nat) : Nat := chBase n + 0x88000 + 0x400 * bank + 4 * c
def sadAddr (n : Fin 16) (bank : Nat) (right : Bool) (k : Nat) : Nat :=
  chBase n + 0x88800 + 0x800 * bank + 0x400 * b2n right + 4 * k
def passAddr (n : Fin 16) (bank x y : Nat) : Nat := chBase n + 0x90000 + 0x8000 * bank + 4 * ((256 * y + x) / 8)

/-- The nozzle map entry of nozzle j in the active bank. -/
def State.mapWord (s : State) (n : Fin 16) (j : Nat) : Word := s.word (mapAddr n (s.mapBank n) j)

/-- R71: whether nozzle j is dead. -/
def State.dead (s : State) (n : Fin 16) (j : Nat) : Bool :=
  let w := s.mapWord n j
  let st := getBits w 0 2
  getBits w 2 1 == 1 || st == 3 || (st == 2 && s.flag (F.CHn_IMG_CTRL_DEVDEAD n))

/-- Whether nozzle j was live in the map that what was printed at a tick was screened under: an older one up to the first FIRE of a
page of the one after it (R71, R85, R233). -/
def State.liveAt (s : State) (n : Fin 16) (t j : Nat) : Bool :=
  match (s.ch n).img.deadWas.find? fun x => x.tick.all fun u => decide (t < u) with
  | some x => !x.dead.contains j
  | none => !s.dead n j

/-- The dead nozzles of a map that goes out of effect are kept; the pages begun are still printed by it (R85, R233). -/
def keepDead (n : Fin 16) (s0 s : State) : State :=
  if s0.mapBank n = s.mapBank n ∧ s0.get (F.CHn_IMG_CTRL_DEVDEAD n) = s.get (F.CHn_IMG_CTRL_DEVDEAD n) then s
  else s.modImg n fun i => { i with deadWas := i.deadWas ++
    [{ page := i.begun + 1, tick := none, dead := (List.range (s0.get (F.CHn_IMG_GEOM_NNOZ n))).filter (s0.dead n) }] }

/-- The settings in effect in s0 are kept for the pages begun under them, while one of these has an unretired band (R21, R85). -/
def keepOld (n : Fin 16) (s0 s : State) : State :=
  let begun := (s0.ch n).img.begun
  let needed (k : Nat) : Bool := (s0.ch n).work.bands.any fun b => decide (b.page < k)
  s.modImg n fun i => { i with old := i.old.filter (fun x => needed x.page) ++
    if (needed (begun + 1)) = true then
      [{ page := begun + 1, regs := sparseDrop (fun a => !imgOwn n a) s0.bar, mtx := (s0.ch n).img.mtx }]
    else [] }

/-- Image settings were applied, s0 being the state before. -/
def applyImg (n : Fin 16) (s0 s : State) : State := keepOld n s0 (keepDead n s0 s)

/-- The row of nozzle j; values at or above NROWS + 1 take row NROWS. -/
def State.rowOf (s : State) (n : Fin 16) (j : Nat) : Nat := min (getBits (s.mapWord n j) 3 3) (s.get (F.CHn_IMG_GEOM_NROWS n))

/-- The saddle weight of nozzle k (R70). A width above 256, which R70 bars and R86 does not refuse, reads on past its table
(DESIGN CHOICE, log 136). -/
def State.sadw (s : State) (n : Fin 16) (k : Nat) : Nat :=
  let l := s.get (F.CHn_IMG_SADDLE_SADL n)
  let r := s.get (F.CHn_IMG_SADDLE_SADR n)
  let nn := s.get (F.CHn_IMG_GEOM_NNOZ n)
  let b := s.get (F.CHn_IMG_BANK_SADB n)
  if k < l then getBits (s.word (sadAddr n b false k)) 0 9
  else if nn - r ≤ k then getBits (s.word (sadAddr n b true (k - (nn - r)))) 0 9
  else 256

/-- The key of cell (x, y) of a matrix in the matrix store (R73). -/
def mtxKey (bank m x y : Nat) : Nat := (4 * bank + m) * 262144 + y * 512 + x

/-- What an unlisted matrix word reads as: channel memory before its first load (DESIGN CHOICE, log 6). -/
def mtxDefault (_ : Nat) : Word := 0

/-- The three thresholds of a cell (R73). -/
def State.cell (s : State) (n : Fin 16) (m x y : Nat) : Nat × Nat × Nat :=
  let w := sparseGet mtxDefault (s.ch n).img.mtx (mtxKey (s.mtxBank n) m x y)
  (getBits w 0 10, getBits w 10 10, getBits w 20 10)

/-! ## Screening -/

/-- The image line that count `l` of page `pg` names: its band and bytes; none where it is blank (R67). -/
def imgLineAt (bands : List Band) (pg : Nat) (l : Int) : Option (Band × List Byte) :=
  match bands.find? fun b => b.page == pg && (b.l0 : Int) ≤ l && l < b.l0 + b.desc.lines with
  | some b =>
    let k := (l - b.l0).toNat
    if k < b.first then none else (b.img[k - b.first]?).map fun x => (b, x)
  | none => none

/-- The contone value, and the drop code of a pre-screened line (R65). -/
def contone (bs : List Byte) (k : Nat) : Nat := (bs.getD k 0).toNat
def preCode (bs : List Byte) (k : Nat) : Nat := (bs.getD (k / 4) 0).toNat / 4 ^ (k % 4) % 4

/-- value() of R69. -/
def State.corrected (s : State) (n : Fin 16) (bs : List Byte) (k : Nat) : Nat :=
  let lut := getBits (s.word (lutAddr n (s.get (F.CHn_IMG_BANK_LUTB n)) (contone bs k))) 0 10
  let v := min ((lut * getBits (s.mapWord n k) 8 12 + 512) / 1024) 1023
  (v * s.sadw n k + 128) / 256

/-- The shares a live nozzle takes from dead neighbours (R72). -/
def State.shares (s : State) (n : Fin 16) (b : Band) (bs : List Byte) (j : Nat) : Nat :=
  [(2 : Nat), 1].foldl (fun acc d =>
    let w := if d = 1 then s.get (F.CHn_IMG_CMPW_W1 n) else s.get (F.CHn_IMG_CMPW_W2 n)
    let share (k : Nat) : Nat :=
      if k < s.get (F.CHn_IMG_GEOM_NNOZ n) ∧ k < b.desc.width ∧ s.dead n k then (w * s.corrected n bs k + 64) / 128
      else 0
    acc + (if d ≤ j then share (j - d) else 0) + share (j + d)) 0

/-- The drop code of nozzle j at count `l` of page `pg`, and the PASS of its image line (R67, R68, R69, R73). The sum of R69 is
clamped by R72 as it stands, beyond 13 bits too (DESIGN CHOICE, log 137). -/
def State.screenNoz (s : State) (n : Fin 16) (back : Bool) (pg l j : Nat) : Nat × Nat :=
  let d := nth (s.pageDelays n pg back) (s.rowOf n j)
  match imgLineAt (s.ch n).work.bands pg ((l : Int) - d) with
  | none => (0, 0)
  | some (b, bs) =>
    let code :=
      if b.desc.width ≤ j ∨ s.dead n j then 0
      else if b.desc.fmt = 1 then preCode bs j
      else
        let v := min (s.corrected n bs j + s.shares n b bs j) 1023
        let m := b.desc.mtx
        let x := (j + s.get (F.CHn_IMG_MTXOFFm_XOFF n m)) % (s.get (F.CHn_IMG_MTXGEOMm_MW n m) + 1)
        let y := (l + s.get (F.CHn_IMG_MTXOFFm_YOFF n m)) % (s.get (F.CHn_IMG_MTXGEOMm_MH n m) + 1)
        let t := s.cell n m x y
        b2n (t.1 < v) + b2n (t.2.1 < v) + b2n (t.2.2 < v)
    (code, b.desc.pass)

/-- The drop codes of a line before the pass mask, with the pass of each nozzle's image line. -/
def State.screenLine (s : State) (n : Fin 16) (back : Bool) (pg l : Nat) : List (Nat × Nat) :=
  (List.range (s.get (F.CHn_IMG_GEOM_NNOZ n))).map (s.screenNoz n back pg l)

/-- The mask offset of a pass (R74). -/
def State.pxoff (s : State) (n : Fin 16) (p : Nat) : Nat := getBits (s.word (A.CHn_IMG_PXOFFq n (p / 4))) (8 * (p % 4)) 8

/-- The pass mask on one code (R74). -/
def State.maskCode (s : State) (n : Fin 16) (l j p c : Nat) : Nat :=
  if !s.flag (F.CHn_IMG_PASSCFG_MASK_EN n) then c
  else
    let x := (j + s.pxoff n p) % 256
    let y := (l + s.get (F.CHn_IMG_PASSCFG_MYOFF n)) % 256
    if getBits (s.word (passAddr n (s.get (F.CHn_IMG_BANK_MASKB n)) x y)) (4 * (x % 8)) 4 = p then c else 0

/-! ## What is screened next -/

/-- The direction a page's first lines are screened for when screening comes to it (R437): that of the page in progress; forward
for a page that is the first since START under SOS with both inputs enabled, and for a FOLLOW page that acts as PAGE. -/
def State.screenDir (s : State) (n : Fin 16) (b : Band) : Bool :=
  let i := (s.ch n).img
  let f := (s.ch n).ft
  let next := (s.nextPageBand n).any fun x => x.page == b.page
  if b.page = (s.ch n).work.decPage ∧ (f.armed ∨ f.waitMark ∨ f.waitArm) then s.pageDir n
  else if b.desc.arm = 2 ∧ next ∧ !f.armedSince ∧ s.flag (F.CHn_FT_SOS_FEN n) ∧ s.flag (F.CHn_FT_SOS_BEN n) then false
  else if b.desc.arm = 0 ∧ next ∧ s.armKind n = some 1 then false
  else s.expectDir n b (if i.started ∧ i.scrPage ≠ (s.ch n).work.decPage then i.scrDir else s.pageDir n)

/-- The next line to screen: its band, index, page and count. -/
def State.screenNext (s : State) (n : Fin 16) : Option (Band × Nat × Nat × Nat) :=
  let i := (s.ch n).img
  if i.started then nextLineOf (fun p => s.maxDelay n p i.scrDir) i.scrPage i.scrL (s.ch n).work.bands else s.pendingLine n

/-- Whether a line is line 0 of a page whose screening has not begun (R85). -/
def State.opensPage (s : State) (n : Fin 16) (x : Band × Nat × Nat × Nat) : Bool :=
  x.2.1 == 0 && x.1.desc.pstart && decide ((s.ch n).img.begun < x.2.2.1)

/-- Whether the next line to screen begins a page, or no page is begun: staged image settings can apply (R85). -/
def State.imgFree (s : State) (n : Fin 16) : Bool :=
  s.wstate n == 0 || match s.screenNext n with
  | some x => s.opensPage n x
  | none =>
    match (s.journal n).recs.getLast? with
    | some r => r.desc.pend || (s.journal n).closed
    | none => true

/-- Released lines waiting for their FIRE, a decided one included (R75, CHn_IMG_STAT.LEADNOW). -/
def State.leadNow (s : State) (n : Fin 16) : Nat :=
  (s.ch n).img.released.length + (if (s.ch n).dut.dec.isSome then 1 else 0) + (s.ch n).ft.decided.length

/-- Fences and residue counts of the pipes. -/
def fenceFld (n : Fin 16) (p : Pipe) : Fld :=
  match p with
  | .a => F.CHn_IMG_PIPESTAT_FENCEA n
  | .b => F.CHn_IMG_PIPESTAT_FENCEB n
def rescntFld (n : Fin 16) (p : Pipe) : Fld :=
  match p with
  | .a => F.CHn_IMG_PIPESTAT_RESCNTA n
  | .b => F.CHn_IMG_PIPESTAT_RESCNTB n
def readmFld (n : Fin 16) (p : Pipe) : Fld :=
  match p with
  | .a => F.CHn_IMG_PIPESTAT_READMA n
  | .b => F.CHn_IMG_PIPESTAT_READMB n

/-- Whether a fenced pipe waits for readmission (R80). -/
def State.readmits (s : State) (n : Fin 16) (p : Pipe) : Bool := s.flag (fenceFld n p) && s.flag (readmFld n p)

/-- Screening of line 0 of a page begins (R85); with `kat` a test of R80 is due there. -/
def beginPage (n : Fin 16) (pg : Nat) (kat : Bool) (s : State) : State :=
  s.modImg n fun i => { i with begun := max i.begun pg, katPage := if kat then some pg else i.katPage }

/-- The stage of a line that goes on; the test of a fenced pipe that begins with it counts (CHn_IMG_RECOMP.KAT). -/
def countKat (n : Fin 16) (st : Stage) (s : State) : State := if st = .readmit then s.bump (F.CHn_IMG_RECOMP_KAT n) 1 else s

/-- The line that screening begins with: the job in the pipes at a stage. It is screened with the settings of its page (R85). -/
def startJob (n : Fin 16) (x : Band × Nat × Nat × Nat) (back : Bool) (st after : Stage) (s : State) : State :=
  let b := x.1
  let sc := (s.imgFor n x.2.2.1).screenLine n back x.2.2.1 x.2.2.2
  let line : Line :=
    { seq := b.desc.seq, line := x.2.1, l := x.2.2.2, page := x.2.2.1, pass := b.desc.pass, codes := sc.map (·.1),
      passes := sc.map (·.2), single := false, back := back }
  s.modImg n fun i =>
    { i with started := true, scrPage := x.2.2.1, scrL := x.2.2.2, scrDir := back,
             job := some { line := line, stage := st, outA := [], outB := [], resA := true, resB := true, after := after } }

/-- An image word that was read could not be corrected; it is fetched again from the host (R81). -/
def imageUe (n : Fin 16) (s : State) : State := (s.put (F.CHn_IMG_STAT_IMGUE n) 1).bump (F.CHn_IMG_ECC_UE n) 1

/-- A word of matrix m of a bank could not be corrected: the channel halts with HCAUSE 2 and raises TBL_UE (R81, R87). -/
def matrixUe (n : Fin 16) (bank m : Nat) (s : State) : State :=
  (((s.put (F.CHn_IMG_STAT_MTXUE n) 1).modImg n fun i => { i with ueTables := (bank, m) :: i.ueTables }).raiseCh n 10).hold n 2

/-- What a computation of a line of page `pg` cannot read (R81): an image word counts and is fetched again, and a word of matrix m
counts and halts the channel. -/
def unreadable (n : Fin 16) (pg : Nat) (imgUe : Bool) (mtxUe : Option (Fin 4)) (s : State) : State :=
  let s1 := if imgUe then imageUe n s else s
  match mtxUe with
  | some m => matrixUe n ((s1.imgFor n pg).mtxBank n) m.val (s1.bump (F.CHn_IMG_ECC_UE n) 1)
  | none => s1

/-- R75, R80, R81, R85: the pipes begin the next line while fewer than LEAD released lines wait. `ce` words needed
correction, `imgUe` an image word could not be corrected and is fetched again, `mtxUe` a word of that matrix could not: the line is
then screened once the matrix is loaded again. It needs no sequencer (R15). While the channel is HELD the pipes begin no line (DESIGN
CHOICE, log 139). -/
def execLineScreen (n : Fin 16) (ce : Nat) (imgUe : Bool) (mtxUe : Option (Fin 4)) (s : State) :
    Host.Outcome State Fault Refusal :=
  .next (match s.screenNext n, (s.ch n).img.job with
    | some x, none =>
      if s.booted ∧ s.chOn n ∧ ¬ (s.ch n).iso.isolated ∧ s.wstate n = 1 ∧ (x.1.state = .released ∨ x.1.state = .firing) ∧
          s.leadNow n < s.get (F.CHn_IMG_CTRL_LEAD n) then
        let first := s.opensPage n x
        let s1 := if first then applyAll (isPart (.ch n 1)) (applyImg n) s else s
        let s2 := s1.bump (F.CHn_IMG_ECC_CE n) ce
        let page0 := x.2.1 == 0 && x.1.desc.pstart && decide (x.2.2.1 != (s.ch n).img.scrPage)
        let back := if first || page0 || !(s.ch n).img.started then s2.screenDir n x.1 else (s.ch n).img.scrDir
        let line0 := x.2.1 == 0 && x.1.desc.pstart
        let re := (first || (line0 && (s.ch n).img.katPage == some x.2.2.1)) && (s2.readmits n .a || s2.readmits n .b)
        let st : Stage := if re then .readmit else .screened
        let s3 := unreadable n x.2.2.1 imgUe mtxUe (if first then beginPage n x.2.2.1 re s2 else s2)
        if mtxUe.isSome then s3
        else if imgUe then startJob n x back .refetch st s3
        else startJob n x back st st (countKat n st s3)
      else s
    | _, _ => s)

/-- Change the job in the pipes. -/
def setJob (n : Fin 16) (j : Job) (s : State) : State := s.modImg n fun i => { i with job := some j }

/-- The line in the pipes reads its data: with a matrix word that could not be corrected it is given up and screened again after
RESUME, with an image word it waits for that to be fetched again and then goes on with stage `after`, else `done` follows (R81). -/
def readsWith (n : Fin 16) (j : Job) (after : Stage) (bad : ReadBack) (done : State → State) (s : State) : State :=
  let s1 := unreadable n j.line.page bad.img bad.mtx s
  if bad.mtx.isSome then s1.modImg n fun i => { i with job := none }
  else if bad.img then setJob n { j with stage := .refetch, after := after } s1
  else done s1

/-- R81: the 64-byte range with the bad word has been fetched again and the word is read again; the line goes on, unless `bad`
says that a word is bad once more, which is treated like the first. -/
def execImageRefetchDone (n : Fin 16) (bad : ReadBack) (s : State) : Host.Outcome State Fault Refusal :=
  .next (match (s.ch n).img.job with
    | some j =>
      if j.stage = .refetch ∧ s.dmaOk then
        readsWith n j j.after bad (fun s => setJob n { j with stage := j.after } (countKat n j.after s)) s
      else s
    | none => s)

/-! ## The comparator -/

/-- Codes with some nozzles' codes replaced. -/
def overlay (codes : List Nat) (f : List (Nat × Nat)) : List Nat :=
  f.foldl (fun cs x => cs.set x.1 (x.2 % 4)) codes

/-- A pipe is fenced (R76, R87). The last pipe is never fenced (R78). -/
def fence (n : Fin 16) (p : Pipe) (s : State) : State :=
  let other : Pipe := if p = .a then .b else .a
  if s.flag (fenceFld n other) ∨ s.flag (fenceFld n p) then s else (s.put (fenceFld n p) 1).raiseCh n 7

/-- A residue failure with matching outputs counts, and fences the pipe at FENCE_LIM (R76). -/
def residueFail (n : Fin 16) (p : Pipe) (s : State) : State :=
  let s1 := s.bump (rescntFld n p) 1
  if max 1 (s.get (F.CHn_IMG_CTRL_FENCE_LIM n)) ≤ s1.get (rescntFld n p) then fence n p s1 else s1

/-- A line is withheld: it is not released, the channel halts with HCAUSE 2 and raises PIPE_UNRES; after RESUME the line
is screened again (R79). -/
def withhold (n : Fin 16) (s : State) : State :=
  ((s.modImg n fun i => { i with job := none }).raiseCh n 9).hold n 2

/-- A line's codes leave the comparator through the pass mask: `mis` is how often the two lookups disagreed (R74). -/
def release (n : Fin 16) (j : Job) (codes : List Nat) (single : Bool) (mis : Nat) (s : State) : State :=
  let s1 := if mis = 0 then s else s.put (F.CHn_IMG_STAT_MASKMIS n) 1
  if 2 ≤ mis then withhold n s1
  else
    let l := j.line
    let out := List.mapIdx (fun k c => (s.imgFor n l.page).maskCode n l.l k (nth l.passes k) c) codes
    let next := (s.ch n).work.afterLine l
    s1.modImg n fun i =>
      { i with job := none, scrPage := next.1, scrL := next.2,
               released := i.released ++ [{ l with codes := out, single := single }] }

/-- The line is computed again and counted, each time it is (R76, R87; DESIGN CHOICE, log 175). -/
def recompute (n : Fin 16) (j : Job) (st : Stage) (s : State) : State :=
  (setJob n { j with stage := st } (s.bump (F.CHn_IMG_RECOMP_RECOMP n) 1)).raiseCh n 8

/-- The outcome of R76 with both pipes screening. `again` is what a line with two failing residues comes to. -/
def compareTwo (n : Fin 16) (j : Job) (mis : Nat) (again : State → State) (s : State) : State :=
  let alike := j.outA == j.outB
  match j.resA, j.resB with
  | true, true => if alike then release n j j.outA false mis s else recompute n j .recompute s
  | false, true =>
    if alike then residueFail n .a (release n j j.outB true mis s) else release n j j.outB true mis (fence n .a s)
  | true, false =>
    if alike then residueFail n .b (release n j j.outA true mis s) else release n j j.outA true mis (fence n .b s)
  | false, false => again s

/-- The outcome of R78 with one pipe fenced. -/
def compareOne (n : Fin 16) (j : Job) (out : List Nat) (pass : Bool) (mis : Nat) (again : State → State) (s : State) :
    State :=
  if pass then release n j out true mis s else again s

/-- The outcome of a line both pipes, or the sole pipe, have finished. -/
def compareLine (n : Fin 16) (j : Job) (mis : Nat) (again : State → State) (s : State) : State :=
  if s.flag (fenceFld n .a) then compareOne n j j.outB j.resB mis again s
  else if s.flag (fenceFld n .b) then compareOne n j j.outA j.resA mis again s
  else compareTwo n j mis again s

/-- The outputs of the two pipes: the right codes but where a fault changes them. -/
def Job.outputs (j : Job) (fa fb : List (Nat × Nat)) (ra rb : Bool) : Job :=
  { j with outA := overlay j.line.codes fa, outB := overlay j.line.codes fb, resA := ra, resB := rb }

/-- R76, R78: both pipes finish a line. `fa` and `fb` are nozzles at which a fault changes a pipe's code, `ra` and `rb`
whether the residue checks pass, `mis` how often the mask lookups disagree. -/
def execPipeCompare (n : Fin 16) (fa fb : List (Nat × Nat)) (ra rb : Bool) (mis : Nat) (s : State) :
    Host.Outcome State Fault Refusal :=
  .next (match (s.ch n).img.job with
    | some j =>
      if j.stage = .screened then
        let j' := j.outputs fa fb ra rb
        compareLine n j' mis (recompute n j' .freshRead) s
      else s
    | none => s)

/-- A recompute is finished: on data read afresh it is compared, else it stands for the line where both pipes agree, or leads to the
known-answer test (R76, R78). -/
def recomputed (n : Fin 16) (j j' : Job) (mis : Nat) (s : State) : State :=
  if j.stage = .freshRead then compareLine n j' mis (withhold n) s
  else if j'.outA = j'.outB ∧ j'.resA ∧ j'.resB then release n j' j'.outA false mis s
  else setJob n { j' with stage := .kat } (s.bump (F.CHn_IMG_RECOMP_KAT n) 1)

/-- R76, R77, R78: the recomputed line is finished; `imgUe` and `mtxUe` say what it could not read (R81). -/
def execPipeRecompDone (n : Fin 16) (fa fb : List (Nat × Nat)) (ra rb : Bool) (mis : Nat) (imgUe : Bool)
    (mtxUe : Option (Fin 4)) (s : State) : Host.Outcome State Fault Refusal :=
  .next (match (s.ch n).img.job with
    | some j =>
      if j.stage = .freshRead ∨ j.stage = .recompute then
        readsWith n j j.stage ⟨imgUe, mtxUe⟩ (recomputed n j (j.outputs fa fb ra rb) mis) s
      else s
    | none => s)

/-- The readmission test of a fenced pipe: it rejoins with both residue counts cleared, or stays fenced; the request
clears (R80). -/
def readmit (n : Fin 16) (p : Pipe) (ok : Bool) (s : State) : State :=
  if !s.readmits n p then s.put (readmFld n p) 0
  else
    let s1 := s.put (readmFld n p) 0
    if ok then
      (((s1.put (fenceFld n p) 0).put (rescntFld n .a) 0).put (rescntFld n .b) 0).raiseCh n 12
    else s1

/-- R77, R80: the known-answer test ends; `okA` and `okB` say which pipe gave the stored answer. -/
def execKatDone (n : Fin 16) (okA okB : Bool) (mis : Nat) (s : State) : Host.Outcome State Fault Refusal :=
  .next (match (s.ch n).img.job with
    | some j =>
      if j.stage = .readmit then
        (setJob n { j with stage := .screened } (readmit n .b okB (readmit n .a okA s))).modImg n fun i => { i with katPage := none }
      else if j.stage = .kat then
        if okA && !okB then release n j j.outA true mis (fence n .b s)
        else if okB && !okA then release n j j.outB true mis (fence n .a s)
        else setJob n { j with stage := .arbitrate } (s.bump (F.CHn_IMG_RECOMP_KAT n) 1)
      else s
    | none => s)

/-- Whether a pipe's output equals the arbiter's at every nozzle the arbiter computes (R77). -/
def kept (j : Job) (out arb : List Nat) : Bool :=
  (List.range arb.length).all fun k =>
    (j.outA != j.outB && nth j.outA k == nth j.outB k) || nth out k == nth arb k

/-- The verdict of the arbiter, whose output is `arb` (R77). Where both pipes differ from it the line is withheld and neither is
fenced, for the last pipe never is (R78; DESIGN CHOICE, log 154). -/
def arbitrated (n : Fin 16) (j : Job) (arb : List Nat) (ok : Bool) (mis : Nat) (s : State) : State :=
  let ka := kept j j.outA arb
  let kb := kept j j.outB arb
  if !ok then withhold n s
  else if ka && kb then
    let s1 := release n j j.outA (!(j.resA && j.resB)) mis s
    let s2 := if j.resA then s1 else residueFail n .a s1
    if j.resB then s2 else residueFail n .b s2
  else if ka then release n j j.outA true mis (fence n .b s)
  else if kb then release n j j.outB true mis (fence n .a s)
  else withhold n s

/-- R77: the arbiter has recomputed the line; `f` is where a fault changes its codes, `ok` its residue check, `imgUe` and `mtxUe`
what it could not read (R81). -/
def execArbitrationDone (n : Fin 16) (f : List (Nat × Nat)) (ok : Bool) (mis : Nat) (imgUe : Bool) (mtxUe : Option (Fin 4))
    (s : State) : Host.Outcome State Fault Refusal :=
  .next (match (s.ch n).img.job with
    | some j =>
      if j.stage = .arbitrate then readsWith n j j.stage ⟨imgUe, mtxUe⟩ (arbitrated n j (overlay j.line.codes f) ok mis) s else s
    | none => s)

/-! ## Scrubbing and pipe registers -/

/-- R66, R81: a scrub of channel memory: `ce` words corrected, `ue` the (bank, matrix) of each word it could not correct,
a matrix of 4 or more standing for the band space, where the error shows when the word is read for a line. -/
def execMemScrub (n : Fin 16) (ce : Nat) (ue : List (Nat × Nat)) (s : State) : Host.Outcome State Fault Refusal :=
  .next (if s.chOn n then
      (ue.filter fun x => decide (x.1 < 2 ∧ x.2 < 4)).foldl (fun (s : State) (x : Nat × Nat) => matrixUe n x.1 x.2 s)
        ((s.bump (F.CHn_IMG_ECC_CE n) ce).bump (F.CHn_IMG_ECC_UE n) ue.length)
    else s)

/-- Requests for readmission; one for a pipe that is not fenced has no effect (R80). -/
def requestReadmit (n : Fin 16) (a b : Bool) (s : State) : State :=
  let s1 := if a && s.flag (fenceFld n .a) then s.put (readmFld n .a) 1 else s
  if b && s1.flag (fenceFld n .b) then s1.put (readmFld n .b) 1 else s1

/-- R80: a write of 1 to READMA or READMB. -/
def execReadmitRequest (m : Master) (n : Fin 16) (a b : Bool) (s : State) : Host.Outcome State Fault Refusal :=
  .next (s.wr m (A.CHn_IMG_PIPESTAT n) (requestReadmit n a b))

/-- A write of 1 to CNTCLR. -/
def clearRescnt (n : Fin 16) (s : State) : State := (s.put (rescntFld n .a) 0).put (rescntFld n .b) 0

/-- R76: a write of 1 to CHn_IMG_PIPESTAT.CNTCLR. -/
def execRescntClear (m : Master) (n : Fin 16) (s : State) : Host.Outcome State Fault Refusal :=
  .next (s.wr m (A.CHn_IMG_PIPESTAT n) (clearRescnt n))

/-! ## Table windows -/

/-- A table of the windows: which, and the bits its entries hold. -/
inductive Tab where
  | map | lut | sad | pass | seg | mask
deriving DecidableEq, Repr

/-- The table, bank and entry mask at an offset within a channel window (R82, R88). -/
def tabAt (o : Nat) : Option (Tab × Nat × Word) :=
  if 0x80000 ≤ o ∧ o < 0x88000 then some (.map, (o - 0x80000) / 0x4000, 0x000FFF3F)
  else if 0x88000 ≤ o ∧ o < 0x88800 then some (.lut, (o - 0x88000) / 0x400, 0x3FF)
  else if 0x88800 ≤ o ∧ o < 0x89800 then some (.sad, (o - 0x88800) / 0x800, 0x1FF)
  else if 0x90000 ≤ o ∧ o < 0xA0000 then some (.pass, (o - 0x90000) / 0x8000, 0xFFFFFFFF)
  else if 0xA0000 ≤ o ∧ o < 0xA2000 ∧ o % 0x1000 < 0x400 then
    some (.seg, (o - 0xA0000) / 0x1000, if o % 8 < 4 then 0x000F0FFF else 0xFFFFFFFF)
  else if 0xA2000 ≤ o ∧ o < 0xA2200 ∧ o % 0x100 < 0x80 then
    some (.mask, (o - 0xA2000) / 0x100, if o % 16 < 12 then 0xFFFFFFFF else 0)
  else none

/-- The register and bit that name a table's active bank, and the sub-block that votes on it. -/
def tabBank (n : Fin 16) (t : Tab) : Fld × Fin 7 :=
  match t with
  | .map => (F.CHn_IMG_BANK_MAPB n, 1)
  | .lut => (F.CHn_IMG_BANK_LUTB n, 1)
  | .sad => (F.CHn_IMG_BANK_SADB n, 1)
  | .pass => (F.CHn_IMG_BANK_MASKB n, 1)
  | .seg => (F.CHn_WAV_BANK_BANK n, 2)
  | .mask => (F.CHn_WAV_BANK_BANK n, 2)

/-- Whether a bank is active, or becomes active in a capo that has voted ready (R83, R84, R107). Before READY no
bank counts as active (R363). -/
def State.bankHeld (s : State) (n : Fin 16) (f : Fld) (sub : Fin 7) (bank : Nat) : Bool :=
  s.boot.phase == .ready && (s.get f == bank || (s.votedWords (.ch n sub) f.addr).any fun w => getBits w f.lo f.width == bank)

/-- A write to a table window: discarded in a held bank, else stored; a mask word then waits for its CFG frame
(R83, R107, R171). -/
def tableWrite (n : Fin 16) (o : Nat) (v : Word) (s : State) : State :=
  match tabAt o with
  | none => s
  | some (t, bank, m) =>
    let f := tabBank n t
    if s.bankHeld n f.1 f.2 bank then
      s.put (if f.2 = 1 then F.CHn_IMG_STAT_ACTWR n else F.CHn_WAV_STAT_ACTWR n) 1
    else
      let s1 := s.setWord (chBase n + o) (v &&& m)
      if t = .mask ∧ o % 16 < 12 then
        s1.modWav n fun w =>
          { w with words := if w.words.contains (bank, o % 0x80 / 4) then w.words
              else w.words ++ [(bank, o % 0x80 / 4)] }
      else s1

/-- R82, R83, R107: a master writes a word of a table window. -/
def execTableWindowWrite (m : Master) (a : Nat) (v : Word) (s : State) : Host.Outcome State Fault Refusal :=
  .next (match chOf ((a - 0x1000000) / 0x100000) with
    | some n =>
      if isTable a ∧ a % 4 = 0 then s.wr m a fun s => tableWrite n (a % 0x100000) v s else s
    | none => s)

/-! ## Matrix loads -/

/-- GO of CHn_IMG_TLD_CTRL (R84). A load that is refused on both grounds shows ERR = 1 (DESIGN CHOICE, log 138). -/
def tableGo (n : Fin 16) (s : State) : State :=
  let bank := s.get (F.CHn_IMG_TLD_CTRL_BANK n)
  let rows := s.get (F.CHn_IMG_TLD_CTRL_ROWS n)
  let mtx := s.get (F.CHn_IMG_TLD_CTRL_MTX n)
  if s.bankHeld n (F.CHn_IMG_BANK_MTXB n) 1 bank then s.put (F.CHn_IMG_TLD_STAT_ERR n) 1
  else if (s.ch n).img.load.isSome ∨ rows = 0 ∨ 512 < rows then s.put (F.CHn_IMG_TLD_STAT_ERR n) 2
  else
    let s1 := s.modImg n fun i =>
      { i with load := some { mtx := mtx, bank := bank, rows := rows, fails := 0, failTick := none } }
    ((s1.put (F.CHn_IMG_TLD_STAT_BUSY n) 1).put (F.CHn_IMG_TLD_STAT_ERR n) 0).put (F.CHn_IMG_TLD_STAT_DONE n) 0

/-- A word written to CHn_IMG_TLD_CTRL. -/
def tldWrite (n : Fin 16) (v : Word) (s : State) : State :=
  let s1 := ((s.put (F.CHn_IMG_TLD_CTRL_ROWS n) v.toNat).put (F.CHn_IMG_TLD_CTRL_MTX n) (v.toNat / 1024)).put
    (F.CHn_IMG_TLD_CTRL_BANK n) (v.toNat / 4096)
  if v.getLsbD 31 then tableGo n s1 else s1

/-- R84: a write of CHn_IMG_TLD_CTRL. -/
def execTableLoadGo (m : Master) (n : Fin 16) (v : Word) (s : State) : Host.Outcome State Fault Refusal :=
  .next (s.wr m (A.CHn_IMG_TLD_CTRL n) (tldWrite n v))

/-- Rows of 512 words stored in a matrix from row `r` on. -/
def storeRows (bank mtx : Nat) : Nat → List (List Word) → Sparse 32 → Sparse 32
  | _, [], m => m
  | r, row :: rows, m =>
    storeRows bank mtx (r + 1) rows
      ((row.foldl (fun (x : Sparse 32 × Nat) (w : Word) =>
        (sparseSet mtxDefault x.1 (mtxKey bank mtx x.2 r) (w &&& 0x3FFFFFFF), x.2 + 1)) (m, 0)).1)

/-- Whether data are whole matrix rows. -/
def wholeRows (rows : List (List Word)) : Bool := rows.all fun r => r.length == 512

/-- Rows that arrived go into the matrix and count as done. -/
def loadRows (n : Fin 16) (l : TableLoad) (rows : List (List Word)) (s : State) : State :=
  let done := s.get (F.CHn_IMG_TLD_STAT_DONE n)
  (s.modImg n fun i => { i with mtx := storeRows l.bank l.mtx done rows i.mtx }).put (F.CHn_IMG_TLD_STAT_DONE n)
    (done + rows.length)

/-- Rows of a load still missing. -/
def State.rowsLeft (s : State) (n : Fin 16) (l : TableLoad) : Nat := l.rows - s.get (F.CHn_IMG_TLD_STAT_DONE n)

/-- R84, R304: a read of the load ends in a PCIe error; the third in succession without a new row ends it. -/
def execTableLoadError (n : Fin 16) (err : ReadErr) (rows : List (List Word)) (s : State) : Host.Outcome State Fault Refusal :=
  match (s.ch n).img.load with
  | none => .next s
  | some l =>
    nextIf (wholeRows rows && decide (rows.length ≤ s.rowsLeft n l))
      (if s.dmaOk ∧ l.failTick = none then
        let fails := if rows.isEmpty then l.fails + 1 else 0
        let s1 := loadRows n l rows (aerLog 0 false (readErrBit err) s)
        if 3 ≤ fails then
          ((((s1.modImg n fun i => { i with load := none, badMtx := (l.bank, l.mtx) :: i.badMtx }).put
            (F.CHn_IMG_TLD_STAT_BUSY n) 0).put (F.CHn_IMG_TLD_STAT_ERR n) 3)).raiseCh n 11
        else s1.modImg n fun i => { i with load := some { l with fails := fails, failTick := some s.tick } }
      else s)

/-- R304: the failed read of a load is tried again after 10 µs. -/
def execTableLoadRetry (n : Fin 16) (s : State) : Host.Outcome State Fault Refusal :=
  .next (match (s.ch n).img.load with
    | some l =>
      match l.failTick with
      | some t =>
        if t + 10 * usTicks ≤ s.tick then s.modImg n fun i => { i with load := some { l with failTick := none } } else s
      | none => s
    | none => s)

/-- R84, R87: the last rows of the load arrive; the bank is usable again and TLOAD is raised. An uncorrectable error of a matrix ends
with a completed load of that matrix, whatever its ROWS (R86; DESIGN CHOICE, log 155). -/
def execTload (n : Fin 16) (rows : List (List Word)) (s : State) : Host.Outcome State Fault Refusal :=
  match (s.ch n).img.load with
  | none => .next s
  | some l =>
    nextIf (wholeRows rows && rows.length == s.rowsLeft n l)
      (if s.dmaOk ∧ l.failTick = none then
        let s1 := (loadRows n l rows s).modImg n fun i =>
          { i with load := none, badMtx := i.badMtx.filter (·.1 != l.bank),
                   ueTables := i.ueTables.filter (· != (l.bank, l.mtx)) }
        ((s1.put (F.CHn_IMG_TLD_STAT_BUSY n) 0).put (F.CHn_IMG_TLD_STAT_ERR n) 0).raiseCh n 11
      else s)

/-! ## The vote -/

/-- The vote of channel n's image path on the resulting state t (R86). -/
def voteImg (n : Fin 16) (s t : State) : Bool :=
  let nn := t.get (F.CHn_IMG_GEOM_NNOZ n)
  let sb := t.get (F.CHn_IMG_BANK_SADB n)
  let mb := t.mtxBank n
  let i := (s.ch n).img
  1 ≤ nn && nn ≤ 4096 && t.get (F.CHn_IMG_SADDLE_SADL n) + t.get (F.CHn_IMG_SADDLE_SADR n) ≤ nn &&
  8 ≤ t.get (F.CHn_IMG_CTRL_LEAD n) &&
  (sb == s.get (F.CHn_IMG_BANK_SADB n) || (List.range 256).all fun k =>
    getBits (s.word (sadAddr n sb false k)) 0 9 ≤ 256 && getBits (s.word (sadAddr n sb true k)) 0 9 ≤ 256) &&
  (mb == s.mtxBank n || (!(i.badMtx.any fun x => x.1 == mb) && !(i.ueTables.any fun x => x.1 == mb) &&
    match i.load with
    | some l => l.bank != mb
    | none => true))

end Sys2Proof.Machine
end

