-- ==== Sys2Proof/Machine/TunOps.lean ====
section
/-! DEFINITION. Operations of the Tuner (chapter 10): instances, index temperatures, sets and their interpolation, results
and values in effect, and the Tuner as a participant of capo transactions. -/

namespace Sys2Proof.Machine

/-! ## Instances and formats -/

/-- Instances of a class, and the width of its value format (R240). -/
def tunInsts (c : Nat) : Nat :=
  match c with
  | 0 => 48 | 1 => 17 | 2 => 18 | 3 => 32 | 4 => 65536 | _ => 0
def tunBits (c : Nat) : Nat :=
  match c with
  | 0 => 16 | 1 => 12 | 2 => 10 | 3 => 16 | _ => 12

/-- Key of a value in effect, and of a set entry. An unlisted key holds nothing. -/
def tunKey (c i : Nat) : Nat := c * 65536 + i
def setKey (c i k : Nat) : Nat := (c * 65536 + i) * 8 + k
def tunDefault (_ : Nat) : Word := 0

/-- A word of TUN_SETDATA's layout holding a value, and its value: class 0 is signed (R240). -/
def tunWord (v : Int) : Word := BitVec.ofNat 32 (2 ^ 31 + ofSigned 24 v)
def tunVal (c : Nat) (w : Word) : Int := if c = 0 then toSigned 24 (getBits w 0 24) else getBits w 0 24

/-- Entry k of an instance, VALID in bit 31 (R242). -/
def State.tunEntry (s : State) (c i k : Nat) : Word := sparseGet tunDefault s.tun.sets (setKey c i k)
def setEntry (c i k : Nat) (w : Word) (s : State) : State :=
  { s with tun := { s.tun with sets := sparseSet tunDefault s.tun.sets (setKey c i k) w } }

/-- The value in effect of an instance, bit 31 set if it has one. -/
def State.tunEff (s : State) (c i : Nat) : Word := sparseGet tunDefault s.tun.eff (tunKey c i)
def setEff (c i : Nat) (v : Int) (s : State) : State :=
  { s with tun := { s.tun with eff := sparseSet tunDefault s.tun.eff (tunKey c i) (tunWord v) } }

/-- Whether the supervisor runs, and with it the Tuner (R254). -/
def State.supRuns (s : State) : Bool := s.domOn 3 && s.boot.supUp

/-- Whether a class is active. -/
def State.tunOn (s : State) (c : Nat) : Bool := s.supRuns && s.flag (F.TUN_CFGc_EN c)

/-! ## Index temperatures -/

/-- The value THM reports for sensor k, none before its first value or in fallback (R241, R262). -/
def State.sensVal (s : State) (k : Nat) : Option Int :=
  if h : k < 48 then
    if (s.thm.sens.get ⟨k, h⟩).has && !s.flag (F.THM_TSs_STAT_FALLBK k) then some (s.getS (F.THM_TSs_VAL_VALUE k))
    else none
  else none

/-- The mean of the healthy on-die sensors, truncated (R241). -/
def State.dieMean (s : State) : Option Int :=
  let vs := (List.range 8).filterMap fun d => if s.flag (F.THM_TSs_STAT_FAIL (40 + d)) then none else s.sensVal (40 + d)
  if vs.isEmpty then none else some (Int.tdiv (vs.foldl (· + ·) 0) vs.length)

/-- The head temperature THM reports for channel n. -/
def State.inkTemp (s : State) (n : Nat) : Option Int :=
  if s.flag (F.THM_CHn_TEMP_VALID n) && s.get (F.THM_CHn_TEMP_TEMP n) != 0x7FFF then
    some (s.getS (F.THM_CHn_TEMP_TEMP n)) else none

/-- The index temperature of an instance (R241). -/
def State.tunTemp (s : State) (c i : Nat) : Option Int :=
  match c with
  | 1 => if i < 16 then s.sensVal (40 + i / 2) else s.dieMean
  | 2 => if 2 ≤ i then s.sensVal (40 + (i - 2) / 2) else s.dieMean
  | 3 => s.inkTemp (i / 2)
  | 4 => s.inkTemp (i / 4096)
  | _ => s.dieMean

/-! ## Axes, clamp and interpolation -/

/-- Points in use on the axis of a class, and point k of it (R242). -/
def State.axisLen (s : State) (c : Nat) : Nat := if c < 3 then s.get F.TUN_NPT_DNPT else s.get F.TUN_NPT_INPT
def State.axisPt (s : State) (c k : Nat) : Int :=
  toSigned 16 (getBits (s.word (if c < 3 then A.TUN_DAXw (k / 2) else A.TUN_IAXw (k / 2))) (16 * (k % 2)) 16)

/-- The range of a class (R246). -/
def State.tunRange (s : State) (c i : Nat) : Int × Int :=
  if c = 3 then
    ((s.get (F.CHn_WAV_WFBLIM_SCMIN (i / 2)) : Int), (s.get (F.CHn_WAV_WFBLIM_SCMAX (i / 2)) : Int))
  else if c = 0 then (s.getS (F.TUN_LIMc_MIN 0), s.getS (F.TUN_LIMc_MAX 0))
  else ((s.get (F.TUN_LIMc_MIN c) % 2 ^ tunBits c : Nat), (s.get (F.TUN_LIMc_MAX c) % 2 ^ tunBits c : Nat))

/-- A value under the clamp of its class, and the state that has noted a clamp that changed it (R246). -/
def tunClamp (c i : Nat) (v : Int) (s : State) : Int × State :=
  let r := s.tunRange c i
  let v' := clampI r.1 r.2 v
  (v', if v' = v then s else (s.put (F.TUN_STAT_CLAMP.bit c) 1).raise 80)

/-- The interpolated value of an instance at T, none for HOLD (R243). -/
def State.interpolate (s : State) (c i : Nat) (t : Int) : Option Int :=
  let ks := (List.range (s.axisLen c)).filter fun k => bitAt (s.tunEntry c i k).toNat 31
  let e (k : Nat) : Int := tunVal c (s.tunEntry c i k)
  let ax (k : Nat) : Int := s.axisPt c k
  match ks, ks.getLast? with
  | lo :: _, some hi =>
    if t ≤ ax lo then some (e lo)
    else if ax hi ≤ t then some (e hi)
    else
      match (ks.filter fun k => ax k ≤ t).getLast?, ks.find? fun k => t < ax k with
      | some a, some b =>
        let d := ax b - ax a
        let num := (e b - e a) * (t - ax a)
        some (e a + Int.tdiv (num + (if 0 ≤ num then Int.tdiv d 2 else -(Int.tdiv d 2))) d)
      | _, _ => none
  | _, _ => none

/-! ## Values -/

/-- The reference temperature of an instance becomes that of the value applied, where it has one (R245). -/
def setRef (c i : Nat) (t : Option Int) (s : State) : State :=
  match t with
  | some t => { s with tun := { s.tun with ref := (tunKey c i, t) :: s.tun.ref.filter fun x => x.1 != tunKey c i } }
  | none => s

/-- A value is in effect, with the temperature it was applied at (R245). -/
def putEff (c i : Nat) (v : Int) (t : Option Int) (s : State) : State := setEff c i v (setRef c i t s)

/-- No value of an instance waits. -/
def unpend (c i : Nat) (s : State) : State :=
  { s with tun := { s.tun with pend := s.tun.pend.filter fun x => ¬ (x.1 = c ∧ x.2.1 = i) } }

/-- A value is to be applied at its application point (R245, R247): a gain goes with the next healing round, the others wait
for TUNER_APPLY. -/
def tunSet (c i : Nat) (v : Int) (t : Option Int) (s : State) : State :=
  if c = 4 then putEff c i v t s
  else
    let s1 := unpend c i s
    { s1 with tun := { s1.tun with pend := (c, i, tunWord v, t) :: s1.tun.pend } }

/-- The axis point nearest T within WIN, the lower of two equally near (R244). -/
def State.nearest (s : State) (c : Nat) (t : Int) : Option Nat :=
  let d (k : Nat) : Nat := (t - s.axisPt c k).natAbs
  let best := (List.range (s.axisLen c)).foldl (fun (m : Option Nat) (k : Nat) =>
    match m with
    | none => some k
    | some j => if d k < d j then some k else some j) none
  match best with
  | some k => if d k ≤ s.get (F.TUN_CFGc_WIN c) then some k else none
  | none => none

/-- An entry is stored in this tick, by a result or by a write. -/
def touch (key : Nat) (result : Bool) (s : State) : State :=
  { s with tun := { s.tun with touched := (s.tick, key, result) :: s.tun.touched.filter fun x => x.1 == s.tick } }

/-- Whether a result, or a write, has stored an entry in this tick. -/
def State.wasTouched (s : State) (key : Nat) (result : Bool) : Bool := s.tun.touched.contains (s.tick, key, result)

/-- A result is filed and counted: entry, count, time (R244, R255). With no valid temperature, or far from every point, it is in no
entry. A write of the same entry in the same cycle is lost (R253). -/
def tunFile (c i : Nat) (r : Int) (t : Option Int) (s : State) : State :=
  let s1 := match t.bind (s.nearest c) with
    | some k =>
      let s' := touch (setKey c i k) true (setEntry c i k (tunWord r) s)
      if s.wasTouched (setKey c i k) false then s'.put F.TUN_STAT_WRLOST 1 else s'
    | none => s
  let s2 := (s1.bump (F.TUN_COUNTc_COUNT c) 1).setPair (A.TUN_LASTc_LO c) (A.TUN_LASTc_HI c) s.devTime
  s2.put (F.TUN_LBOOTc_BOOT c) s.boot.bootCnt

/-- A result for an instance, taken at an index temperature (R244, R245, R246). With no valid temperature it becomes the value in
effect and is counted, and is stored in no entry (DEDUCED, log 75). -/
def tunResultAt (c i : Nat) (r : Int) (temp : Option Int) (s : State) : State :=
  let x := tunClamp c i r s
  tunSet c i x.1 temp (tunFile c i x.1 temp x.2)

/-- A result at the present index temperature. -/
def tunResult (c i : Nat) (r : Int) (s : State) : State := tunResultAt c i r (s.tunTemp c i) s

/-- A gate of an oscillator of q that runs is given up (R249). -/
def dropGate (q : Nat → Bool) (s : State) : State :=
  if (s.tun.meas.get 1).any q then { s with tun := { s.tun with meas := s.tun.meas.set 1 none } } else s

/-- The trim code that brings the count of oscillator i over the gate nearest its nominal count, from the code in effect in steps of
0.005 % (R249, R406; log 52). -/
def State.oscCode (s : State) (i cnt : Nat) : Int :=
  let nom : Int := (Config.oscNominal i : Nat)
  let k := roundDiv ((nom - cnt) * 20000) nom
  let e := s.tunEff 1 i
  let cur : Int := if bitAt e.toNat 31 then tunVal 1 e else (Config.oscFactory i : Nat)
  clampI 0 4095 (if Config.oscRises i then cur + k else cur - k)

/-- The value in effect of an instance becomes the interpolated value at the present temperature (R245). -/
def tunInterp (c i : Nat) (t : Int) (s : State) : State :=
  match s.interpolate c i t with
  | some v => let x := tunClamp c i v s; tunSet c i x.1 (some t) x.2
  | none => s

/-- The temperature that a move of the index temperature is measured from: that of a value that is about to be applied, else that of
the last value applied (R245; DEDUCED, log 172). -/
def State.tunRef (s : State) (c i : Nat) : Option Int :=
  ((s.tun.pend.find? fun x => x.1 == c && x.2.1 == i).bind (·.2.2.2)).or
    ((s.tun.ref.find? fun x => x.1 == tunKey c i).map (·.2))

/-- Whether a temperature has moved by HYST or more from the reference (R245). -/
def State.tunMoved (s : State) (c i : Nat) (t : Int) : Bool :=
  match s.tunRef c i with
  | some r => let h := s.get (F.TUN_CFGc_HYST c); if h = 0 then t != r else h ≤ (t - r).natAbs
  | none => true

/-- The index temperature of an instance may have moved. -/
def tunTrack (c i : Nat) (s : State) : State :=
  if s.tunOn c then
    match s.tunTemp c i with
    | some t => if s.tunMoved c i t then tunInterp c i t s else s
    | none => s
  else s

/-- Sensor k has a new value: the instances that take their temperature from it follow (R241, R245). -/
def tunSensor (k : Nat) (s : State) : State :=
  let die := if 40 ≤ k then
      (List.range 48).map (0, ·) ++ (List.range 17).map (1, ·) ++ (List.range 18).map (2, ·) else []
  let chans := (List.range 16).filter fun n => s.get (F.THM_CHn_CFG_HSEN n) == k
  let ink := chans.flatMap fun n =>
    [(3, 2 * n), (3, 2 * n + 1)] ++ (List.range (s.get (F.CHn_IMG_GEOM_NNOZ n))).map fun j => (4, 4096 * n + j)
  (die ++ ink).foldl (fun (s : State) (x : Nat × Nat) => tunTrack x.1 x.2 s) s

/-! ## Capo -/

/-- Entries of the classes that satisfy q lose their VALID bit. -/
def invalidate (q : Nat → Bool) (s : State) : State :=
  s.tun.sets.foldl (fun (s : State) (x : Nat × Word) =>
    if q (x.1 / 8 / 65536) then
      { s with tun := { s.tun with sets := sparseSet tunDefault s.tun.sets x.1 (x.2 &&& 0x7FFFFFFF) } }
    else s) s

/-- Tuner settings were applied, s0 being the state before: an axis change makes the entries on that axis invalid (R242). -/
def applyTun (s0 s : State) : State :=
  let diff (c : Nat) : Bool := s0.axisLen c != s.axisLen c || (List.range 8).any fun k => s0.axisPt c k != s.axisPt c k
  let s1 := if diff 0 then invalidate (· < 3) s else s
  if diff 3 then invalidate (3 ≤ ·) s1 else s1

/-- The vote of the Tuner on the resulting state (R242, TUN_NPT). -/
def voteTun (t : State) : Bool :=
  [0, 3].all fun c =>
    decide (1 ≤ t.axisLen c) && decide (t.axisLen c ≤ 8) &&
    (List.range (t.axisLen c - 1)).all fun k => decide (t.axisPt c k < t.axisPt c (k + 1))

/-! ## Densities -/

/-- The lower median of a list. -/
def lowerMedian (l : List Nat) : Nat := nth (l.insertionSort (· ≤ ·)) ((l.length - 1) / 2)

/-- The results of a density profile of channel n: for each nozzle measured, its density, at the ink temperature of the profile's TIME
(R250); none is filed for an isolated channel (R380). -/
def densResults (n : Fin 16) (ds : List (Nat × Nat)) (temp : Option Int) (s : State) : State :=
  let live := ds.filter fun x => !s.dead n x.1
  let dref := if live.isEmpty then 0 else lowerMedian (live.map (·.2))
  if dref = 0 || !s.tunOn 4 || (s.ch n).iso.isolated then s
  else
    let step := s.get (F.TUN_CFGc_PER 4)
    live.foldl (fun (st : State) (x : Nat × Nat) =>
      let g := getBits (s.mapWord n x.1) 8 12
      let new := if x.2 = 0 then s.get (F.TUN_LIMc_MAX 4) % 4096 else (g * dref + x.2 / 2) / x.2
      tunResultAt 4 (4096 * n.val + x.1) (clampI (g - step : Int) (g + step) new) temp st) s

end Sys2Proof.Machine
end

