-- ==== Sys2Proof/Machine/InsOps.lean ====
section
/-! DEFINITION. Operations of the inspection block (chapter 9): ports, frames, the pipeline's arithmetic, taps, ladders and
densities, and the block as a participant of capo transactions. -/

namespace Sys2Proof.Machine

/-! ## Ports and frames -/

/-- A camera port, and the state with it changed. -/
def State.cam (s : State) (p : Fin 2) : CamPort := s.ins.ports.get p
def State.modCam (s : State) (p : Fin 2) (f : CamPort → CamPort) : State :=
  { s with ins := { s.ins with ports := s.ins.ports.set p (f (s.cam p)) } }

/-- Whether port p can capture: the receivers and the pipeline are ON (chapter 9, Camera ports). -/
def State.camOn (s : State) : Bool := s.domOn 6 && s.domOn 7

/-- The settings of a frame: CFG, FRAME, ALIGN, DENS, TAPCFG in effect at its start (R221). -/
def CamFrame.word (f : CamFrame) (k : Nat) : Word := f.set.getD k 0
def CamFrame.width (f : CamFrame) : Nat := getBits (f.word 0) 16 14 + 1
def CamFrame.height (f : CamFrame) : Nat := getBits (f.word 1) 0 16 + 1
def CamFrame.ftmo (f : CamFrame) : Nat := getBits (f.word 1) 16 8
def CamFrame.bank (f : CamFrame) : Nat := getBits (f.word 0) 2 1
def CamFrame.bypass (f : CamFrame) : Bool := getBits (f.word 0) 1 1 == 1
def alignD (w : Word) (k : Nat) : Nat := getBits w (4 * k) 4
def alignMax (w : Word) : Nat := max (alignD w 0) (max (alignD w 1) (alignD w 2))
def CamFrame.dy0 (f : CamFrame) : Nat := getBits (f.word 3) 0 16
def CamFrame.dlines (f : CamFrame) : Nat := getBits (f.word 3) 16 12

/-- The frame of a port with a number, and the port with it changed. -/
def CamPort.frameOf (c : CamPort) (k : Nat) : Option CamFrame := c.frames.find? fun f => f.frame == k
def CamPort.modFrame (c : CamPort) (k : Nat) (g : CamFrame → CamFrame) : CamPort :=
  { c with frames := c.frames.map fun f => if f.frame = k then g f else f }

/-- The frame a port is inside: the newest. -/
def CamPort.now (c : CamPort) : Option CamFrame := c.frames.getLast?

/-- Raise an event at most once per frame and port (R239). -/
def camEvent (p : Fin 2) (e frame : Nat) (s : State) : State :=
  if (s.cam p).raised.contains (e, frame) then s
  else (s.modCam p fun c => { c with raised := (e, frame) :: c.raised }).raise e

/-- Flag a frame SHORT (1), LONG (2) or TMO (4), in its flags and in the port's status (R217). -/
def flagFrame (p : Fin 2) (k bit : Nat) (s : State) : State :=
  let s1 := s.modCam p fun c => c.modFrame k fun f => { f with flags := f.flags ||| bit }
  let f := if bit = 1 then F.INS_Pp_STAT_SHORT p else if bit = 2 then F.INS_Pp_STAT_LONG p else F.INS_Pp_STAT_TMO p
  camEvent p 72 k (s1.put f 1)

/-- Whether port p is inside a frame. -/
def State.inFrame (s : State) (p : Fin 2) : Bool := s.flag (F.INS_Pp_STAT_INFRAME p)

/-- INFRAME of port p, in both places. -/
def putInFrame (p : Fin 2) (v : Nat) (s : State) : State :=
  (s.put (F.INS_Pp_STAT_INFRAME p) v).put (F.INS_STAT_INFRAME.bit p) v

/-- A runt is discarded and counted (R217, R239). -/
def runt (p : Fin 2) (frame : Nat) (s : State) : State := camEvent p 72 frame (s.bump (F.INS_Pp_CNT1_RUNT p) 1)

/-- The frame of a port is closed: a line cut off is a runt, and a frame short of lines is flagged SHORT (R217). -/
def closeFrame (p : Fin 2) (f : CamFrame) (s : State) : State :=
  let c := s.cam p
  let s1 := if c.cur.isSome then runt p f.frame s else s
  let s2 := if c.next < f.height then flagFrame p f.frame 1 s1 else s1
  s2.modCam p fun c => { c.modFrame f.frame fun f => { f with ended := true } with cur := none }

/-- CAM goes off: a port inside a frame receives no more of it; the frame is closed, and input is discarded until FVAL is seen low
(R217; DESIGN CHOICE, log 149). -/
def camLost (p : Fin 2) (s : State) : State :=
  let c := s.cam p
  let s1 := match c.now with
    | some f => if s.inFrame p && !c.waitLow then closeFrame p f s else s
    | none => s
  s1.modCam p fun c => { c with startTick := 0, waitLow := s.inFrame p, cur := none, fifo := [] }

/-! ## Pipeline arithmetic (R222) -/

/-- Key of a table entry, and the entry; an entry never written reads 0 (DESIGN CHOICE, log 53). -/
def tblKey (p b t i : Nat) : Nat := ((2 * p + b) * 4 + t) * 65536 + i
def tblDefault (_ : Nat) : BitVec 16 := 0
def State.tbl (s : State) (p b t i : Nat) : Nat := (sparseGet tblDefault s.ins.tables (tblKey p b t i)).toNat

/-- Entries of a table (R224). -/
def tblLen (t : Nat) : Nat :=
  match t with
  | 0 => 49152 | 1 => 12288 | 2 => 50 | _ => 0

/-- Component k of a pixel. -/
def comp (c : Nat × Nat × Nat) (k : Nat) : Nat := if k = 0 then c.1 else if k = 1 then c.2.1 else c.2.2

/-- A pixel from its three components. -/
def triple (f : Nat → Nat) : Nat × Nat × Nat := (f 0, f 1, f 2)

/-- Black level and flat field of the pixel in column x. -/
def State.flatPx (s : State) (p b x : Nat) (c : Nat × Nat × Nat) : Nat × Nat × Nat :=
  triple fun k => min (((comp c k - s.tbl p b 2 k % 4096) * s.tbl p b 0 (3 * x + k) + 8192) / 16384) 4095

/-- A rounded sum of three products of s2.13 coefficients, with an offset in 14 bits. -/
def State.mix (s : State) (p b i o : Nat) (w : Nat × Nat × Nat) : Nat :=
  let m (k : Nat) : Int := toSigned 16 (s.tbl p b 2 (i + k)) * (comp w k : Int)
  (clampI 0 4095 (floorDiv (m 0 + m 1 + m 2 + 4096) 8192 + toSigned 14 (s.tbl p b 2 o % 16384))).toNat

/-- White balance, colour matrix and tone curves of an aligned pixel. -/
def State.tonePx (s : State) (p b : Nat) (g : Nat × Nat × Nat) : Nat × Nat × Nat :=
  let w := triple fun k => min ((comp g k * s.tbl p b 2 (3 + k) + 8192) / 16384) 4095
  triple fun r => s.tbl p b 1 (4096 * r + s.mix p b (6 + 3 * r) (15 + r) w) % 4096

/-- The ink projection of a toned pixel. -/
def State.inkPx (s : State) (p b : Nat) (t : Nat × Nat × Nat) : List Nat :=
  (List.range 8).map fun q => s.mix p b (18 + 4 * q) (18 + 4 * q + 3) t

/-! ## Taps -/

/-- Pixels as bytes: three 16-bit words each, or one (R226). -/
def px6 (l : List (Nat × Nat × Nat)) : List Byte := l.flatMap fun c => leBytes 2 c.1 ++ leBytes 2 c.2.1 ++ leBytes 2 c.2.2
def px2 (l : List Nat) : List Byte := l.flatMap fun v => leBytes 2 v

/-- The port writes one record of a tapped line, if its turn has come (R225, R226). A record that finds the ring full or no
DMA possible is not written and counts in TAPDROP. -/
def tapLine (p : Fin 2) (f : CamFrame) (line point time : Nat) (data : List Byte) (s : State) : State :=
  let lg := s.get (F.INS_Pp_TAPSIZE_LOG2 p)
  if line % (getBits (f.word 4) 8 8 + 1) ≠ 0 ∨ lg < 4 ∨ 12 < lg then s
  else
    let t := s.get (F.INS_Pp_TAPTAIL_TAIL p)
    let ph := s.flag (F.INS_Pp_TAPTAIL_PHASE p)
    let t' := (t + 1) % 2 ^ lg
    if t' = s.get (F.INS_Pp_TAPHEAD_HEAD p) then
      camEvent p 75 f.frame (s.bump (F.INS_Pp_CNT2_TAPDROP p) 1)
    else if !s.dmaUp then s.bump (F.INS_Pp_CNT2_TAPDROP p) 1
    else
      let a := s.pair (A.INS_Pp_TAPBASE_LO p) (A.INS_Pp_TAPBASE_HI p) + t * s.get (F.INS_Pp_TAPSIZE_STRIDE p) * 64
      let first := (s.cam p).tapFrame != some f.frame
      let head := leBytes 4 f.frame ++ leBytes 2 line ++ leBytes 1 point ++ leBytes 1 (b2n first + 128 * b2n ph) ++
        leBytes 2 f.width ++ leBytes 6 0 ++ leBytes 8 time ++ leBytes 40 0
      let s1 := (s.emit (.hostWrite (a + 64) data)).emit (.hostWrite a head)
      ((s1.put (F.INS_Pp_TAPTAIL_TAIL p) t').put (F.INS_Pp_TAPTAIL_PHASE p) (b2n (if t' = 0 then !ph else ph))).modCam p
        fun c => { c with tapFrame := some f.frame }

/-- The tap point of a frame. -/
def CamFrame.point (f : CamFrame) : Nat := getBits (f.word 4) 0 3

/-! ## Processing a line -/

/-- The pixels of an input line that has been processed. -/
def CamFrame.line (f : CamFrame) (k : Nat) : Option (List (Nat × Nat × Nat)) :=
  (f.seen.find? fun x => x.1 == k).map fun x => x.2.2

/-- The aligned line i, if none of its three source lines is missing (R223). -/
def CamFrame.aligned (f : CamFrame) (i : Nat) : Option (List (Nat × Nat × Nat)) :=
  match f.line (i + alignD (f.word 2) 0), f.line (i + alignD (f.word 2) 1), f.line (i + alignD (f.word 2) 2) with
  | some a, some b, some c =>
    some ((List.range f.width).map fun x => ((a.getD x (0, 0, 0)).1, (b.getD x (0, 0, 0)).2.1, (c.getD x (0, 0, 0)).2.2))
  | _, _, _ => none

/-- The pipeline processes one line of a frame (R222, R223, R225). -/
def processLine (p : Fin 2) (l : CamLine) (f : CamFrame) (s : State) : State :=
  let fl := List.mapIdx (fun x c => s.flatPx p f.bank x c) l.px
  let f1 := { f with seen := f.seen ++ [(l.num, l.time, fl)] }
  let s1 := if f.point = 1 then tapLine p f l.num 1 l.time (px6 l.px) s
    else if f.point = 2 then tapLine p f l.num 2 l.time (px6 fl) s else s
  let dm := alignMax (f.word 2)
  match (if dm ≤ l.num then f1.aligned (l.num - dm) else none) with
  | some g =>
    let i := l.num - dm
    let t := g.map (s.tonePx p f.bank)
    let ink := t.map (s.inkPx p f.bank)
    let s2 := if f.point = 3 then tapLine p f i 3 l.time (px6 t) s1
      else if f.point = 4 then
        tapLine p f i 4 l.time (px2 (ink.map fun q => nth q (getBits (f.word 4) 3 3))) s1
      else s1
    let planes := (List.range 8).map fun q => ink.map fun v => nth v q
    s2.modCam p fun c => c.modFrame l.frame fun _ => { f1 with ink := f.ink ++ [(i, planes)] }
  | none => s1.modCam p fun c => c.modFrame l.frame fun _ => f1

/-! ## Ladders -/

/-- The settings of a ladder group (R228, R230). -/
def LadSet.word (l : LadSet) (k : Nat) : Word := l.words.getD k 0
def LadSet.heal (l : LadSet) : Bool := getBits (l.word 0) 2 1 == 1
def LadSet.plane (l : LadSet) : Nat := getBits (l.word 0) 4 3
def LadSet.rungs (l : LadSet) : Nat := getBits (l.word 0) 8 5 + 1
def LadSet.mlines (l : LadSet) : Nat := max 1 (getBits (l.word 0) 16 8)
def LadSet.upcnt (l : LadSet) : Nat := max 1 (getBits (l.word 0) 24 4)
def LadSet.y0 (l : LadSet) : Nat := getBits (l.word 3) 0 16
def LadSet.rstep (l : LadSet) : Nat := getBits (l.word 3) 16 16
def LadSet.halfw (l : LadSet) : Nat := getBits (l.word 4) 24 8
def LadSet.anom (l : LadSet) : Nat := getBits (l.word 5) 16 16

/-- Lines of rung r. -/
def LadSet.rungLines (l : LadSet) (r : Nat) : List Nat := (List.range l.mlines).map (l.y0 + r * l.rstep + ·)

/-- The first aligned line beyond the ladder's region. -/
def LadSet.fin (l : LadSet) : Nat := l.y0 + (l.rungs - 1) * l.rstep + l.mlines

/-- The centre of nozzle j's mark, u20.16, and its window lo to hi (R228). -/
def LadSet.xc (l : LadSet) (j : Nat) : Int := getBits (l.word 1) 0 24 * 256 + j * getBits (l.word 2) 0 24
def LadSet.lo (l : LadSet) (j : Nat) : Int := -(floorDiv ((l.halfw * 4096 : Nat) - l.xc j) 65536)
def LadSet.hi (l : LadSet) (j : Nat) : Int := floorDiv (l.xc j + (l.halfw * 4096 : Nat)) 65536

/-- Ink of an aligned line in a plane, none if the line is missing. -/
def CamFrame.inkLine (f : CamFrame) (plane i : Nat) : Option (List Nat) :=
  (f.ink.find? fun x => x.1 == i).map fun x => x.2.getD plane []

/-- Whether nozzle j is measured over the given lines (R229). -/
def CamFrame.measured (f : CamFrame) (l : LadSet) (ls : List Nat) (j : Nat) : Bool :=
  !f.bypass && decide (0 ≤ l.lo j) && decide (l.hi j < f.width) && ls.all fun i => (f.inkLine l.plane i).isSome

/-- The column sums of nozzle j's window over the given lines. -/
def CamFrame.cols (f : CamFrame) (l : LadSet) (ls : List Nat) (j : Nat) : List Nat :=
  let lo := (l.lo j).toNat
  (List.range (l.hi j + 1 - l.lo j).toNat).map fun k =>
    ls.foldl (fun a i => a + nth ((f.inkLine l.plane i).getD []) (lo + k)) 0

/-- Area A and first moment m over a window's column sums, less their minimum (R228). -/
def markArea (cs : List Nat) : Nat × Nat :=
  let b := cs.foldl min (cs.headD 0)
  (cs.foldl (fun a c => a + (c - b)) 0,
    (List.mapIdx (fun k c => k * (c - b)) cs).foldl (· + ·) 0)

/-- The class of a measured nozzle from its area and its offset (R230). -/
def ladClass (l : LadSet) (aref a : Nat) (off : Int) : Nat :=
  if a * 256 < getBits (l.word 4) 0 8 * aref then 3
  else if getBits (l.word 4) 16 8 * 4096 < off.natAbs then 2
  else if a * 256 < getBits (l.word 4) 8 8 * aref then 1
  else 0

/-- An offset in u.16 as s8.8, rounded with ties away from zero and saturated (R232). -/
def offsetWord (off : Int) : Nat :=
  let r : Int := ((off.natAbs + 128) / 256 : Nat)
  ofSigned 16 (clampI (-32768) 32767 (if off < 0 then -r else r))

/-- A result word of a measured nozzle (R232). -/
def ladWord (cls aref a : Nat) (off : Int) : Nat := cls + 16 * min 0xFFF (a * 256 / aref) + 65536 * offsetWord off

/-! ## Results -/

/-- Results of a kind for channel n, and one more (R232). -/
def countDefault (_ : Nat) : Word := 0
def State.resCount (s : State) (kind n : Nat) : Nat := (sparseGet countDefault s.ins.counts (16 * kind + n)).toNat

/-- A result block goes to host memory, COUNT last, and INS_RESULT is raised (R232, R239). Without DMA it is not written at all, and it
counts all the same (R305; DESIGN CHOICE, log 186). -/
def writeResult (kind n : Nat) (p flags nn nm aref frame time : Nat) (data : List Byte) (s : State) : State :=
  let c := s.resCount kind n + 1
  let s1 := { s with ins := { s.ins with
    counts := sparseSet countDefault s.ins.counts (16 * kind + n) (BitVec.ofNat 32 c) } }
  if s1.flag F.INS_RESBASE_LO_EN ∧ s1.dmaUp then
    let a := (s1.pair A.INS_RESBASE_LO A.INS_RESBASE_HI) / 4096 * 4096 + n * 0x10000 + kind * 0x8000
    let body := leBytes 1 kind ++ leBytes 1 p ++ leBytes 2 flags ++ leBytes 2 nn ++ leBytes 2 nm ++ leBytes 4 aref ++
      leBytes 4 frame ++ leBytes 4 s1.boot.bootCnt ++ leBytes 8 time ++ leBytes 32 0 ++ data
    ((s1.emit (.hostWrite (a + 4) body)).emit (.hostWrite a (leBytes 4 c))).raise 74
  else s1

/-- Whether no further input line up to number k can join a frame's analysis: a later one has been processed, or the frame is
closed and the FIFO holds none of its lines. -/
def CamPort.past (c : CamPort) (f : CamFrame) (k : Nat) : Bool :=
  (f.seen.any fun x => k ≤ x.1) || (f.ended && !(c.fifo.any fun l => l.frame == f.frame))

/-- The rise of LVAL of input line k: its DEV_TIME, and the ink temperature of channel n then. -/
def CamFrame.rise (f : CamFrame) (k : Nat) : Option (Nat × List (Option Int)) := (f.starts.find? fun x => x.1 == k).map (·.2)

/-- The time of input line k; a free value if LVAL never rose for it (log 55). -/
def State.lineTime (s : State) (f : CamFrame) (k i : Nat) : Nat :=
  match f.rise k with
  | some x => x.1
  | none => (Config.freeWord (s.free + i)).toNat + 2 ^ 32 * (Config.freeWord (s.free + i + 1)).toNat

/-! ## Capo -/

/-- The addresses of port p's group, and of a ladder group that applies with it: PORT names p and EN = 1 in effect (R221). -/
def State.insPort (s : State) (p : Fin 2) (a : Nat) : Bool :=
  (0x80100 + 0x80 * p.val ≤ a && decide (a < 0x80180 + 0x80 * p.val)) ||
  (List.range 16).any fun n =>
    0x80400 + 0x20 * n ≤ a && decide (a < 0x80420 + 0x20 * n) && s.flag (F.INS_LADn_CFG_EN n) &&
    s.get (F.INS_LADn_CFG_PORT n) == p.val

/-- Settings that apply at the commit instant: PRIO, and a ladder group with EN = 0 in effect (R221). -/
def State.insNow (s : State) (a : Nat) : Bool :=
  a == A.INS_CTRL || (0x80400 ≤ a && decide (a < 0x80600) && !s.flag (F.INS_LADn_CFG_EN ((a - 0x80400) / 0x20)))

/-- The vote of INS on the resulting state t (R238). -/
def voteIns (t : State) : Bool :=
  let al (p : Nat) : Word := t.word (A.INS_Pp_ALIGN p)
  let hgt (p : Nat) : Nat := t.get (F.INS_Pp_FRAME_HEIGHT p) + 1
  let lad (n : Nat) : LadSet :=
    { n := n, words := [A.INS_LADn_CFG n, A.INS_LADn_X0 n, A.INS_LADn_PXN n, A.INS_LADn_Y n, A.INS_LADn_THR n,
        A.INS_LADn_HEALMAX n].map t.word }
  let ports := (List.range 2).all fun p =>
    decide (alignMax (al p) < hgt p) && decide (t.get (F.INS_Pp_TAPCFG_POINT p) < 5) &&
    (!((List.range 16).any fun n => t.flag (F.INS_LADn_CFG_EN n) && t.get (F.INS_LADn_CFG_PORT n) == p) ||
      decide (t.get (F.INS_Pp_DENS_DY0 p) + t.get (F.INS_Pp_DENS_DLINES p) ≤ hgt p - alignMax (al p)))
  ports && (List.range 16).all fun n =>
    let l := lad n
    let p := t.get (F.INS_LADn_CFG_PORT n)
    !t.flag (F.INS_LADn_CFG_EN n) ||
      (decide (2 * l.halfw * 4096 < l.rungs * getBits (l.word 2) 0 24) && decide (l.mlines ≤ l.rstep) &&
       decide (l.fin ≤ hgt p - alignMax (al p)))

end Sys2Proof.Machine
end

