-- ==== Sys2Proof/Machine/HostPort.lean ====
section
/-! DEFINITION. The host port (chapter 13): events and MSI-X, the express page and its merge, link and errors. -/

namespace Sys2Proof.Machine

/-! ## Events and MSI-X -/

/-- A write of EVT_PENDw clears the bits written 1 (R307). -/
def pendWrite (w : Fin 16) (v : Word) (s : State) : State :=
  s.setWord (A.EVT_PENDw w) (s.word (A.EVT_PENDw w) &&& ~~~v)

/-- R307: software clears pending bits. -/
def execEvtPendClear (m : Master) (w : Fin 16) (v : Word) (s : State) : Host.Outcome State Fault Refusal :=
  .next (s.wr m (A.EVT_PENDw w) (pendWrite w v))

/-- The messages a function holds in its PBA are sent, as far as neither function, vector nor DMA holds them back (R306). -/
def flushPba (fn : Fin 2) (s : State) : State :=
  (List.range 512).foldl (fun (s : State) (v : Nat) =>
    if bit512 (s.host.pba.get fn) v then
      { s with host := { s.host with pba := s.host.pba.set fn (setBit512 (s.host.pba.get fn) v false) } }.msix fn v
    else s) s

/-- R306: a function enables MSI-X, or a vector of it is unmasked. PF1 has 64 vectors. -/
def execMsixUnmask (fn : Fin 2) (vec : Option (Fin 512)) (s : State) : Host.Outcome State Fault Refusal :=
  .next (if !s.domOn 0 then s
    else match vec with
      | none =>
        let h := s.host
        flushPba fn { s with host := { h with msixEn := h.msixEn.set fn true, fnMasked := h.fnMasked.set fn false } }
      | some v =>
        if fn = 1 ∧ 64 ≤ v.val then s
        else flushPba fn { s with host := { s.host with
          vecMasked := s.host.vecMasked.set fn (setBit512 (s.host.vecMasked.get fn) v.val false) } })

/-! ## The express page -/

/-- One write is taken from the express queue (WRK_EXP_CNT). -/
def expTaken (s : State) : State := s.bump F.WRK_EXP_CNT_NEXP 1

/-- An action on each channel that a mask names and whose domain is ON (R312). -/
def expEach (v : Nat) (f : Fin 16 → State → State) (s : State) : State :=
  s.eachCh fun n s => if bitAt v n.val && s.chOn n then f n s else s

/-- The stop and inhibit doorbells (R312). -/
def expStop (v : Nat) (s : State) : State :=
  expEach v (fun n s => (s.put (F.WRK_EXP_LATCH_STOPL.bit n) 1).hold n 2) s
def expInh (v : Nat) (s : State) : State :=
  expEach v (fun n s => (s.put (F.WRK_EXP_LATCH_INHL.bit n) 1).inhibit n) s

/-- The clears of WRK_EXP_LATCH. -/
def expClear (v : Nat) (s : State) : State :=
  (s.setWord A.WRK_EXP_LATCH (s.word A.WRK_EXP_LATCH &&& ~~~(BitVec.ofNat 32 v))).refreshHolds

/-- The keyed safe request. -/
def expSafe (v : Nat) (s : State) : State := if v % 65536 = 0x5AFE then s.enterSafe F.FLT_SAFE_KEY else s

/-- The fetch stop. -/
def expFetch (v : Nat) (s : State) : State := if v % 2 = 1 then s.put F.WRK_CTRL_FETCH_EN 0 else s

/-- The effect of an express write. -/
def expDo (r : ExpReg) (v : Nat) (s : State) : State :=
  match r with
  | .stop => expStop v s
  | .inh => expInh v s
  | .fetch => expFetch v s
  | .safe => expSafe v s
  | .latch => expClear v s
  | .other => s

/-- What a write adds to the merged effects (R310). -/
def mergeWrite (r : ExpReg) (v : Nat) (e : Merge) : Merge :=
  match r with
  | .stop => { e with stop := e.stop ||| v % 65536 }
  | .inh => { e with inh := e.inh ||| v % 65536 }
  | .fetch => { e with fetch := e.fetch || v % 2 == 1 }
  | .safe => { e with safe := e.safe || v % 65536 == 0x5AFE }
  | .latch => { e with clr := e.clr ||| v }
  | .other => e

/-- No merged effect. -/
def noMerge : Merge := { clr := 0, stop := 0, inh := 0, fetch := false, safe := false }

/-- The merged effects: clears, fetch stop, stops and inhibits, safe request (R310). -/
def mergedDo (e : Merge) (s : State) : State :=
  let s1 := expInh e.inh (expStop e.stop (expFetch (b2n e.fetch) (expClear e.clr s)))
  if e.safe then s1.enterSafe F.FLT_SAFE_KEY else s1

/-- An express write arrives: it enters the queue, or, with 16 entries in it, is merged and counted (R309, R310). -/
def expArrive (r : ExpReg) (v : Word) (s : State) : State :=
  if s.host.expQ.length < 16 then { s with host := { s.host with expQ := s.host.expQ ++ [.write r v] } }
  else
    let s1 := s.bump F.WRK_EXP_CNT_NMRG 1
    let e := mergeWrite r v.toNat (s.host.merge.getD noMerge)
    { s1 with host := { s1.host with merge := if e = noMerge then none else some e } }

/-- The merged effects that wait, as the entry that takes the first slot to free. -/
def mergeSlot (m : Option Merge) : List ExpEntry :=
  match m with
  | some e => [.merged e]
  | none => []

/-- The oldest entry of the express queue leaves it and takes effect; merged effects that wait take the slot it frees (R310). -/
def expServe (s : State) : State :=
  match s.host.expQ with
  | [] => s
  | x :: q =>
    let s1 := expTaken { s with host := { s.host with expQ := q ++ mergeSlot s.host.merge, merge := none } }
    match x with
    | .write r v => expDo r v.toNat s1
    | .merged e => mergedDo e s1

/-- Up to k entries of the express queue are served, oldest first. -/
def expServeN : Nat → State → State
  | 0, s => s
  | k + 1, s => expServeN k (expServe s)

/-- Whether an entry is one of merged effects. -/
def ExpEntry.isMerged : ExpEntry → Bool
  | .merged _ => true
  | .write .. => false

/-- Up to k entries are served, the last one the first with merged effects. -/
def serveMerged : Nat → State → State
  | 0, s => s
  | k + 1, s => match s.host.expQ with
    | [] => s
    | x :: _ => if x.isMerged then expServe s else serveMerged k (expServe s)

/-- An express write arrives, and the queue is served up to it; it never holds more than 16 entries and merged ones. -/
def expWrite (r : ExpReg) (v : Word) (s : State) : State := if s.domOn 0 then expServeN 17 (expArrive r v s) else s

/-- R312: the stop doorbell. -/
def execExpStop (v : Word) (s : State) : Host.Outcome State Fault Refusal := .next (expWrite .stop v s)

/-- R312: the inhibit doorbell. -/
def execExpInh (v : Word) (s : State) : Host.Outcome State Fault Refusal := .next (expWrite .inh v s)

/-- R312: the fetch stop doorbell. -/
def execExpFetch (v : Word) (s : State) : Host.Outcome State Fault Refusal := .next (expWrite .fetch v s)

/-- R312: the safe-state doorbell. -/
def execExpSafe (v : Word) (s : State) : Host.Outcome State Fault Refusal := .next (expWrite .safe v s)

/-- R312: software clears latched bits. -/
def execExpLatchClear (v : Word) (s : State) : Host.Outcome State Fault Refusal := .next (expWrite .latch v s)

/-- Whether merged effects wait to be applied. -/
def State.hasMerged (s : State) : Bool := s.host.merge.isSome || s.host.expQ.any ExpEntry.isMerged

/-- Whether a command is one for the express queue itself: a write that enters it, or the turn of merged effects that wait (R309,
R310). -/
def State.isExpress (s : State) (c : Instr) : Bool :=
  match c with
  | .registerWrite m a _ => m == .pf0 && blockOf a == 14 && s.mayWrite m a && s.powered a
  | .expressMerge .. => s.domOn 0
  | .expressMergedApply => s.hasMerged
  | _ => false

/-- The express queue goes ahead of the register path: it is served whole, unless another command for it comes next (R309; DESIGN
CHOICE, log 93). -/
def expAhead (s : State) : State :=
  match s.pending with
  | c :: _ => if s.isExpress c then s else expServeN 17 s
  | [] => expServeN 17 s

/-- R310: an express write arrives while the queue holds 16 entries: it is merged and counted. -/
def execExpressMerge (r : ExpReg) (v : Word) (s : State) : Host.Outcome State Fault Refusal :=
  .next (if s.domOn 0 then expAhead (expArrive r v s) else s)

/-- R310: the merged entry, if there is one, is applied in its turn. -/
def execExpressMergedApply (s : State) : Host.Outcome State Fault Refusal :=
  .next (if s.hasMerged then expAhead (serveMerged 18 s) else s)

/-! ## Link and errors -/

/-- DMA may have become possible: the messages that wait are sent, and the re-posted records of every channel written (R55, R305). -/
def dmaBack (s : State) : State :=
  (flushPba 1 (flushPba 0 s)).eachCh fun n s => postReposts n (s.ch n).work.due.length s

/-- R305: the link goes down; no DMA from here on. -/
def execPcieLinkDown (s : State) : Host.Outcome State Fault Refusal :=
  .next { s with host := { s.host with linkUp := false } }

/-- R305: the link comes up; where it had been up before, HOST_ERR is raised. -/
def execPcieLinkUp (s : State) : Host.Outcome State Fault Refusal :=
  .next (if s.domOn 0 && !s.host.linkUp then
      let s1 := { s with host := { s.host with linkUp := true, wasUp := true } }
      dmaBack (if s.host.wasUp then s1.raise 126 else s1)
    else s)

/-- Bus Master Enable of PF0 is set or cleared (R305). -/
def setBme (on : Bool) (s : State) : State :=
  let s1 := { s with host := { s.host with bme := on } }
  if on then dmaBack s1 else s1

/-- R305: the host sets or clears Bus Master Enable of PF0. -/
def execBusMasterEnable (on : Bool) (s : State) : Host.Outcome State Fault Refusal :=
  .next (if s.domOn 0 then setBme on s else s)

/-- R302: a request to BAR0 of a function that is not one aligned DW: Completer Abort, logged as an advisory non-fatal error. -/
def execBar0BadRequest (m : Master) (s : State) : Host.Outcome State Fault Refusal :=
  .next (if s.domOn 0 && (m == .pf0 || m == .pf1) then aerLog (if m == .pf0 then 0 else 1) true 13 (aerSet (if m == .pf0 then 0 else 1) false 15 (s.emit .completerAbort)) else s)

/-- R304: a poisoned or malformed request to a function is discarded, with an error status where a completion is due. -/
def execHostRequestMalformed (fn : Fin 2) (poisoned reply : Bool) (s : State) : Host.Outcome State Fault Refusal :=
  .next (if s.domOn 0 then aerLog fn false (if poisoned then 12 else 18) (if reply then s.emit .unsupported else s) else s)

/-- R304, R308: a correctable error is logged under AER, and HOST_ERR is raised. -/
def execCorrectableError (fn : Fin 2) (err : CorErr) (s : State) : Host.Outcome State Fault Refusal :=
  .next (aerLog fn true (corErrBit err) s)

/-- The root complex rejected the last tap record of port p: it is dropped and counted as with the ring full, which leaves TAIL (R225,
R304). -/
def tapRejected (p : Fin 2) (s : State) : State :=
  match s.domOn 6, (s.cam p).tapFrame with
  | true, some f =>
    let t := s.get (F.INS_Pp_TAPTAIL_TAIL p)
    let ph := s.flag (F.INS_Pp_TAPTAIL_PHASE p)
    let s1 := (s.put (F.INS_Pp_TAPTAIL_TAIL p) ((t + 4095) % 2 ^ s.get (F.INS_Pp_TAPSIZE_LOG2 p))).put
      (F.INS_Pp_TAPTAIL_PHASE p) (b2n (if t = 0 then !ph else ph))
    camEvent p 75 f (s1.bump (F.INS_Pp_CNT2_TAPDROP p) 1)
  | _, _ => s

/-- R304: the root complex rejects a write: the last completion record of channel t, a tap record of port t - 16, or (18) a
result record. -/
def execRingWriteRejected (t : Fin 19) (s : State) : Host.Outcome State Fault Refusal :=
  .next (let s1 := aerLog 0 false 20 s
    match chOf t.val with
    | some n => match (s.ch n).work.lastRec, (s.ch n).work.rewrite with
      | some (a, bs), none => s1.modWork n fun w => { w with rewrite := some (a, bs, s.tick) }
      | _, _ => s1
    | none =>
      if t.val = 16 then tapRejected 0 s1
      else if t.val = 17 then tapRejected 1 s1
      else s1)

/-- R304: 10 µs after its last writing a rejected completion record is written again; `ok` says that it is accepted. -/
def execCompletionRewrite (n : Fin 16) (ok : Bool) (s : State) : Host.Outcome State Fault Refusal :=
  .next (match (s.ch n).work.rewrite with
    | some (a, bs, t) =>
      if s.dmaUp ∧ t + 10 * usTicks ≤ s.tick then
        let s1 := s.emit (.hostWrite a bs)
        if ok then postReposts n (s.ch n).work.due.length (s1.modWork n fun w => { w with rewrite := none })
        else aerLog 0 false 20 (s1.modWork n fun w => { w with rewrite := some (a, bs, s.tick) })
      else s
    | none => s)

end Sys2Proof.Machine
end

