-- ==== Sys2Proof/Machine/Motion.lean ====
section
/-! DEFINITION. The meanings of the commands of MOT (chapter 12): profile, gear, step input, microstep table, chopper, step
output, standstill and faults, and how a commit applies. -/

namespace Sys2Proof.Machine

/-! ## Settings -/

/-- TGT as a signed number. -/
def State.axTgt (s : State) (a : Fin 4) : Int :=
  toSigned 48 (s.get (F.MOT_AXa_TGT_LO_TGT_L a) + 2 ^ 32 * s.get (F.MOT_AXa_TGT_HI_TGT_H a))

/-- Filter length NS (R280). -/
def State.axNs (s : State) (a : Fin 4) : Nat := s.get (F.MOT_AXa_SFILT_NS a) + 1

/-- The count of the gear's master (R282). -/
def State.gearCount (s : State) (a : Fin 4) : BitVec 48 := s.srcCnt (s.gearSrc a)

/-! ## Coil targets -/

/-- Entry k of the microstep table. -/
def State.wtab (s : State) (k : Nat) : Int := (s.word (0x70800 + 4 * k)).toNat % 512

/-- The sine of a phase of 0 to 1,023 (R287). -/
def State.sineOf (s : State) (phi : Nat) : Int :=
  let q := phi / 256
  let r := phi % 256
  if q = 0 then s.wtab r else if q = 1 then s.wtab (256 - r) else if q = 2 then -(s.wtab r) else -(s.wtab (256 - r))

/-- The phase: XACT mod 1,024 with its low 8 − MRES bits cleared. -/
def State.phase (s : State) (a : Fin 4) : Nat :=
  let k := 2 ^ (8 - s.get (F.MOT_AXa_CTRL_MRES a))
  ((s.axis a).xact % 1024).toNat / k * k

/-- The mode axis a is in: 0 running or HOLD, 1 SHORT, 2 OFF (R294, R295, R297). -/
def State.axState (s : State) (a : Fin 4) : Nat :=
  if !s.domOn 5 || !s.flag (F.MOT_AXa_CTRL_EN a) || (s.axis a).off then 2
  else if s.flag (F.MOT_AXa_STAT_STOPPED a) then s.get (F.MOT_AXa_SAFE_SAFEMODE a)
  else if s.flag (F.MOT_AXa_STAT_STAND a) then s.get (F.MOT_AXa_STAND_STMODE a) else 0

/-- The mode its coils are in: 0 chopping, 1 SLOW, 2 OFF, where a step output has no coils. -/
def State.coilMode (s : State) (a : Fin 4) : Nat := if s.flag (F.MOT_AXa_CTRL_DRV a) then 2 else s.axState a

/-- The current scale: IHOLD in HOLD standstill and while stopped, else IRUN. -/
def State.coilScale (s : State) (a : Fin 4) : Nat :=
  if s.flag (F.MOT_AXa_STAT_STOPPED a) || s.flag (F.MOT_AXa_STAT_STAND a) then s.get (F.MOT_AXa_CUR_IHOLD a)
  else s.get (F.MOT_AXa_CUR_IRUN a)

/-- A coil's target: whether it is negative, and its magnitude (R287). Coil A leads by a quarter turn. -/
def State.coilTarget (s : State) (a : Fin 4) (c : Coil) : Bool × Nat :=
  let w := s.sineOf ((s.phase a + (match c with
    | .a => 256
    | .b => 0)) % 1024)
  (decide (w < 0), (w.natAbs * s.coilScale a + 128) / 256)

def Axis.coil (x : Axis) : Coil → CoilSt
  | .a => x.coilA
  | .b => x.coilB
def modCoil (a : Fin 4) (c : Coil) (f : CoilSt → CoilSt) (s : State) : State :=
  s.modAxis a fun x => match c with
    | .a => { x with coilA := f x.coilA }
    | .b => { x with coilB := f x.coilB }

/-- A DRIVE that is cut short has neither lasted TDRVMAX nor been found above its reference: it ends the runs of R295. -/
def CoilSt.cut (k : CoilSt) : CoilSt := if k.drive then k.afresh else k

/-- A coil follows its target: a change of sign, or the first current after none, enters DRIVE at once; with no current it
stays in SLOW (R291). -/
def coilFollow (a : Fin 4) (c : Coil) (s : State) : State :=
  let t := s.coilTarget a c
  if s.coilMode a ≠ 0 ∨ t.2 = 0 then modCoil a c (fun k => { k.cut with idle := true, drive := false }) s
  else
    let k := (s.axis a).coil c
    if k.idle || k.neg != t.1 then
      modCoil a c (fun k => { k.cut with idle := false, drive := true, neg := t.1, since := s.tick, probed := false }) s
    else s

def coilsFollow (a : Fin 4) (s : State) : State := coilFollow a .b (coilFollow a .a s)

/-! ## What a change of XACT does -/

/-- The output unit: XACT in pulses of the step output (R293). -/
def State.outUnitNow (s : State) (a : Fin 4) : Int :=
  floorDiv (s.axis a).xact (2 ^ (8 - s.get (F.MOT_AXa_SOUT_OUTRES a)))

/-- Every change of the output unit by one queues a pulse; opposite ones cancel; a queue of 256 faults (R293). -/
def queuePulses (a : Fin 4) (s : State) : State :=
  let u := s.outUnitNow a
  let w := 40 + s.get (F.MOT_AXa_SOUT_OUTRES a)
  let d := toSigned w (ofSigned w (u - (s.axis a).outUnit))
  let s1 := s.modAxis a fun x => { x with outUnit := u }
  if s.axRuns a && s.flag (F.MOT_AXa_CTRL_DRV a) then
    let q := (s.axis a).outQ + d
    let s2 := (s1.modAxis a fun x => { x with outQ := q }).put (F.MOT_AXa_STAT_OBACK a) q.natAbs
    if 256 ≤ q.natAbs then axisFault a 6 s2 else s2
  else s1

/-- XACT of axis a may have changed since s0: standstill ends, pulses are queued, the coils follow (R293, R294). -/
def axisMoved (a : Fin 4) (s0 s : State) : State :=
  if (s0.axis a).xact = (s.axis a).xact then s
  else
    let s1 := (s.modAxis a fun x => { x with moveTick := s.tick }).put (F.MOT_AXa_STAT_STAND a) 0
    coilsFollow a (queuePulses a s1)

/-! ## Profile -/

/-- One tick of the profile of an axis in POSITION, VELOCITY or GEAR: x, v, and whether it snapped to TGT (R279). -/
def profileTick (mode : Nat) (tgt vt0 vmax amax dmax x v : Int) : Int × Int × Bool :=
  let lim := vmax * 65536
  let go (vt : Int) : Int × Int × Bool :=
    let slowing : Bool := v ≠ 0 ∧ (vt.sign ≠ v.sign ∨ vt.natAbs < v.natAbs)
    let acc := if slowing then dmax else amax
    let v' := if v < vt then min (v + acc) vt else max (v - acc) vt
    (x + v', v', false)
  if mode = 1 then go (clampI (-lim) lim (vt0 * 65536))
  else
    let d := tgt * 2 ^ 32 - x
    let ad : Int := d.natAbs
    let av : Int := v.natAbs
    if ad ≤ 2 * dmax ∧ av ≤ 2 * dmax then (tgt * 2 ^ 32, 0, true)
    else if v ≠ 0 ∧ v.sign ≠ d.sign then go 0
    else if 2 * dmax * ad ≤ v * v + dmax * av then go 0
    else go (d.sign * lim)

/-- The profile of axis a advances by one tick and its filter takes the new position (R279, R280). A position that leaves
s48.32 wraps together with its history. -/
def axisProfile (a : Fin 4) (s : State) : State :=
  let ax := s.axis a
  let mode := s.axMode a
  let r := if mode < 3 then
      profileTick mode (s.axTgt a) (s.getS (F.MOT_AXa_VT_VT a)) (s.get (F.MOT_AXa_VMAX_VMAX a))
        (s.get (F.MOT_AXa_AMAX_AMAX a)) (s.get (F.MOT_AXa_DMAX_DMAX a)) ax.x ax.v
    else (ax.x, ax.v, false)
  let wrapped := toSigned 80 (ofSigned 80 r.1)
  let sh := wrapped - r.1
  let hist := (wrapped :: ax.hist.map (· + sh)).take (s.axNs a)
  let moved : Bool := r.2.2 && (ax.x != r.1 || ax.v != 0)
  let snapped := r.2.2 && (ax.snapped || moved)
  let arrived := snapped && hist.all (· == wrapped)
  let s1 := s.modAxis a fun x => { x with x := wrapped, v := r.2.1, hist := hist, snapped := snapped && !arrived }
  let s2 := if arrived then
      let s2 := s1.put (F.MOT_AXa_STAT_ARRIVED a) 1
      if s2.flag (F.MOT_AXa_CTRL_IRQ a) then s2.raise 100 else s2
    else s1
  axisMoved a s s2

/-- The gear part of axis a has moved by more than ⌊VMAX⌋ + 1 microsteps in this tick: the fault GEARV (R284). The movement is the
distance from where it stood at the tick's beginning (DEDUCED, log 183). -/
def gearFast (a : Fin 4) (s : State) : State :=
  if s.get (F.MOT_AXa_VMAX_VMAX a) / 65536 + 1 < ((s.axis a).xg - (s.axis a).gearTick).natAbs then axisFault a 3 s else s

/-- The gear of axis a has a fault: its master is faulty, or it moved too far in this tick (R284). -/
def gearCheck (a : Fin 4) (s : State) : State :=
  if s.axRuns a && s.axMode a == 2 then
    if s.gearBad a then axisFault a 4 s else gearFast a s
  else s

/-- One tick of axis a: profile, gear check, MOVING; coils that a stop has set chopping start. -/
def axisTick (a : Fin 4) (s : State) : State :=
  let s1 := if s.axRuns a then axisProfile a s else s
  let s2 := gearCheck a s1
  let x := (s2.axis a).xact
  coilsFollow a ((s2.put (F.MOT_AXa_STAT_MOVING a) (b2n (x != (s2.axis a).lastX))).modAxis a fun y =>
    { y with lastX := x, gearTick := y.xg })

/-! ## Gear and step input -/

/-- The gear position takes what the master has counted since it was last seen (R282). -/
def gearTake (a : Fin 4) (s : State) : State :=
  let ax := s.axis a
  let cnt := s.gearCount a
  let den : Int := s.get (F.MOT_AXa_GDEN_DEN a)
  let n := cntDiff cnt ax.gearCnt * s.getS (F.MOT_AXa_GNUM_NUM a) + ax.r
  let q := floorDiv n den
  s.modAxis a fun x => { x with gearCnt := cnt, xg := x.xg + q, r := n - q * den }

/-- R282, R284: a change of the master's count reaches MOT. -/
def execGearMasterCount (x : Fin 4) (s : State) : Host.Outcome State Fault Refusal :=
  .next (if s.domOn 5 && s.axMode x == 2 && s.flag (F.MOT_AXa_CTRL_EN x) then
      if s.axRuns x then
        (if s.gearBad x then axisFault x 4 s else gearFast x (axisMoved x s (gearTake x s)))
      else s.modAxis x fun y => { y with gearCnt := s.gearCount x }
    else s)

/-- R285, R286: an accepted rising edge of AXa_SI, AXa_DI standing at `dir`. -/
def execStepInput (x : Fin 4) (dir : Bool) (s : State) : Host.Outcome State Fault Refusal :=
  .next (if s.axRuns x && s.axMode x == 3 then
      let ax := s.axis x
      let fast : Bool := match ax.siLast with
        | some t => s.tick < t + 80
        | none => false
      if fast then axisFault x 5 (s.modAxis x fun y => { y with siLast := some s.tick })
      else
        let n : Nat := 2 ^ (8 - s.get (F.MOT_AXa_SIN_SIRES x))
        let t := match ax.siLast with
          | some l => min 0xFFFFFF ((s.tick - l) / 4)
          | none => 0xFFFFFF
        let b : Int := if dir != s.flag (F.MOT_AXa_SIN_SIDIRINV x) then n else -n
        let whole := !s.flag (F.MOT_AXa_SIN_INTERP x) || t == 0xFFFFFF
        axisMoved x s (s.modAxis x fun y =>
          { y with xs := y.xs + y.siB + (if whole then b else 0), siB := if whole then 0 else b, siT := t, siN := n,
                   siLast := some s.tick })
    else s)

/-- R286: the next microstep of the backlog falls due, N microsteps being spread evenly over the interval T. -/
def execStepinInterpolate (x : Fin 4) (s : State) : Host.Outcome State Fault Refusal :=
  .next (
    let ax := s.axis x
    let cyc := match ax.siLast with
      | some l => (s.tick - l) / 4
      | none => 0
    if s.axRuns x && s.axMode x == 3 && ax.siB != 0 && decide (ax.siN - ax.siB.natAbs < cyc * ax.siN / ax.siT) then
      axisMoved x s (s.modAxis x fun y => { y with xs := y.xs + y.siB.sign, siB := y.siB - y.siB.sign })
    else s)

/-! ## Chopper -/

/-- Motion cycles since the coil's phase began. -/
def State.coilCycles (s : State) (a : Fin 4) (c : Coil) : Nat := (s.tick - ((s.axis a).coil c).since) / 4

/-- A coil makes current: its axis chops and its magnitude is not 0. -/
def State.chopping (s : State) (a : Fin 4) (c : Coil) : Bool :=
  s.coilMode a == 0 && !((s.axis a).coil c).idle

/-- Where the probe of this DECAY falls: half the previous DECAY, if long enough (R292). -/
def State.probeAt (s : State) (a : Fin 4) (c : Coil) : Option Nat :=
  match ((s.axis a).coil c).prevDecay with
  | some l => if s.flag (F.MOT_AXa_CHOP_ADAPT a) ∧ 2 * s.get (F.MOT_AXa_CHOP_TBLANK a) ≤ l / 2 then some (l / 2) else none
  | none => none

/-- The coil leaves DRIVE for DECAY, or DECAY for DRIVE with the length of a complete DECAY kept. -/
def toDecay (a : Fin 4) (c : Coil) (s : State) : State :=
  modCoil a c (fun k => { k with drive := false, since := s.tick, probed := false }) s
def toDrive (a : Fin 4) (c : Coil) (s : State) : State :=
  modCoil a c (fun k => { k with drive := true, since := s.tick, prevDecay := some (s.coilCycles a c) }) s

/-- R291, R295: the comparator crosses the reference from cycle TBLANK on. A DRIVE that finds it above at cycle TBLANK counts
towards SHORT. From cycle P − TBLANK to P of a probed DECAY the end test is not made (R292). -/
def execChopperComparator (x : Fin 4) (c : Coil) (s : State) : Host.Outcome State Fault Refusal :=
  .next (
    let k := (s.axis x).coil c
    let cyc := s.coilCycles x c
    let tb := s.get (F.MOT_AXa_CHOP_TBLANK x)
    if !s.chopping x c || decide (cyc < tb) then s
    else if k.drive then
      let run := if cyc = tb then k.shortRun + 1 else 0
      let s1 := modCoil x c (fun k => { k with shortRun := if run = 8 then 0 else run, openRun := 0 }) (toDecay x c s)
      if run = 8 then axisFault x 2 s1 else s1
    else
      let probing : Bool := match s.probeAt x c with
        | some p => decide (p - tb ≤ cyc) && decide (cyc ≤ p)
        | none => false
      if probing then s else toDrive x c s)

/-- R291, R295: a DRIVE has lasted TDRVMAX cycles, which counts towards OPEN, or a DECAY TDMAX cycles. -/
def execChopperPhaseTimeout (x : Fin 4) (c : Coil) (s : State) : Host.Outcome State Fault Refusal :=
  .next (
    let k := (s.axis x).coil c
    let cyc := s.coilCycles x c
    if !s.chopping x c then s
    else if k.drive then
      if s.get (F.MOT_AXa_CHOP3_TDRVMAX x) ≤ cyc then
        let run := k.openRun + 1
        let s1 := modCoil x c (fun k => { k with openRun := if run = 8 then 0 else run, shortRun := 0 }) (toDecay x c s)
        if run = 8 then axisFault x 1 s1 else s1
      else s
    else if s.get (F.MOT_AXa_CHOP2_TDMAX x) ≤ cyc then toDrive x c s else s)

/-- The offset field of a coil. -/
def ofsFld (a : Fin 4) : Coil → Fld
  | .a => F.MOT_AXa_OFS_OFSA a
  | .b => F.MOT_AXa_OFS_OFSB a

/-- R292: at cycle P of a DECAY the probe reads the comparator, above or not, and OFS moves by 1. -/
def execChopperProbe (x : Fin 4) (c : Coil) (high : Bool) (s : State) : Host.Outcome State Fault Refusal :=
  .next (
    let k := (s.axis x).coil c
    match s.probeAt x c with
    | some p =>
      if s.chopping x c && !k.drive && !k.probed && decide (p ≤ s.coilCycles x c) then
        let m : Int := s.get (F.MOT_AXa_CHOP_OFSMAX x)
        let o := clampI (-m) m (s.getS (ofsFld x c) + (if high then -1 else 1))
        (modCoil x c (fun k => { k with probed := true }) s).put (ofsFld x c) (ofSigned 8 o)
      else s
    | none => s)

/-- The reference code of a coil now (R291, R292). -/
def State.chopRef (s : State) (a : Fin 4) (c : Coil) : Nat :=
  let k := (s.axis a).coil c
  let m : Int := (s.coilTarget a c).2
  let ofs := s.getS (ofsFld a c)
  let hyst : Int := s.get (F.MOT_AXa_CHOP_HYST a)
  let sg : Int := if k.neg then -1 else 1
  let tb := s.get (F.MOT_AXa_CHOP_TBLANK a)
  let probing : Bool := match s.probeAt a c with
    | some p => !k.drive && !k.probed && decide (p - tb ≤ s.coilCycles a c)
    | none => false
  let d := if k.drive then m + ofs + hyst else if probing then m else max (m + ofs - hyst) 0
  (clampI 0 1023 (s.get (F.MOT_AXa_CHOP2_CMID a) + sg * d)).toNat

/-- The gates that the state of a coil's bridge turns on, leg 1 high and low side, then leg 2 (R289). -/
def State.bridgeGates (s : State) (a : Fin 4) (c : Coil) : List Bool :=
  let k := (s.axis a).coil c
  let bridge (neg : Bool) : List Bool := if neg then [false, true, true, false] else [true, false, false, true]
  match s.coilMode a with
  | 0 =>
    if k.idle then [false, true, false, true]
    else if k.drive then bridge k.neg
    else if s.flag (F.MOT_AXa_CHOP_DECAY a) then bridge (!k.neg) else [false, true, false, true]
  | 1 => [false, true, false, true]
  | _ => [false, false, false, false]

/-- The gate levels of a coil: a gate turns off with the change of state, and on DT motion cycles after it (R290). -/
def State.coilGates (s : State) (a : Fin 4) (c : Coil) : List Bool :=
  let k := (s.axis a).coil c
  let late := decide (k.gateTick + 4 * s.get (F.MOT_AXa_CHOP_DT a) ≤ s.tick)
  let now := List.zipWith (fun (g w : Bool) => g && (w || late)) k.gates k.was
  if s.bridgeGates a c = k.gates then now else List.zipWith (· && ·) (s.bridgeGates a c) now

/-- The coils of every axis note a change of state of their bridges; it is made as time passes on, what a tick's commands lead to being
one change. -/
def noteGates (s : State) : State :=
  allAx.foldl (fun (s : State) (a : Fin 4) =>
    [Coil.a, Coil.b].foldl (fun (s : State) (c : Coil) =>
      let g := s.bridgeGates a c
      if ((s.axis a).coil c).gates = g then s
      else
        let w := s.coilGates a c
        modCoil a c (fun k => { k with gates := g, was := w, gateTick := s.tick }) s) s) s

/-- The levels of AXa_G0 to AXa_G7: the two coils, or STEP, DIR and ENABLE (R275, R293, R294). STEP is high for SPW cycles from the start
of a pulse. With the domain not ON nothing drives them and the board holds them low (R297). -/
def State.axGates (s : State) (a : Fin 4) : List Bool :=
  if !s.domOn 5 then List.replicate 8 false
  else if s.flag (F.MOT_AXa_CTRL_DRV a) then
    let x := s.axis a
    let high := match x.outTick with
      | some t => decide (s.tick < t + 4 * max 1 (s.get (F.MOT_AXa_SOUT_SPW a)))
      | none => false
    [high, x.outDir != s.flag (F.MOT_AXa_SOUT_OUTDIRINV a), decide (s.axState a < 2)] ++ List.replicate 5 false
  else s.coilGates a .a ++ s.coilGates a .b

/-! ## Step output and standstill -/

/-- R293: the direction is set DIRSU cycles ahead, and a queued pulse starts 2 × SPW cycles or more after the one before. -/
def execStepOutputPulse (x : Fin 4) (s : State) : Host.Outcome State Fault Refusal :=
  .next (
    let ax := s.axis x
    let fwd : Bool := 0 < ax.outQ
    let spw := max 1 (s.get (F.MOT_AXa_SOUT_SPW x))
    let free : Bool := match ax.outTick with
      | some t => t + 8 * spw ≤ s.tick
      | none => true
    let asleep : Bool := s.flag (F.MOT_AXa_STAT_STAND x) && 2 ≤ s.get (F.MOT_AXa_STAND_STMODE x)
    if !s.axRuns x || !s.flag (F.MOT_AXa_CTRL_DRV x) || asleep || ax.outQ == 0 || !free then s
    else if ax.outDir != fwd ∧ ax.dirTick ≤ s.tick ∧ s.get (F.MOT_AXa_SOUT_DIRSU x) ≠ 0 then
      s.modAxis x fun y => { y with outDir := fwd, dirTick := s.tick }
    else if ax.outDir = fwd ∧ s.tick < ax.dirTick + 4 * s.get (F.MOT_AXa_SOUT_DIRSU x) then s
    else
      let q := ax.outQ - ax.outQ.sign
      let s1 := (s.modAxis x fun y => { y with outQ := q, outDir := fwd, outTick := some s.tick }).put
        (F.MOT_AXa_STAT_OBACK x) q.natAbs
      s1.emit (.step x.val (fwd != s.flag (F.MOT_AXa_SOUT_OUTDIRINV x))))

/-- R294: XACT has not changed for TSTAND ms. -/
def execStandstill (x : Fin 4) (s : State) : Host.Outcome State Fault Refusal :=
  .next (
    let t := s.get (F.MOT_AXa_STAND_TSTAND x)
    if s.domOn 5 && s.flag (F.MOT_AXa_CTRL_EN x) && t != 0 && decide ((s.axis x).moveTick + t * msTicks ≤ s.tick) then
      coilsFollow x (s.put (F.MOT_AXa_STAT_STAND x) 1)
    else s)

/-! ## Fault and table writes -/

/-- A write of 1 to FAULT of axis x clears it, unless the fault is GSRC and the master is still faulty; OPEN and SHORT are then detected
afresh (R296). -/
def axFaultClear (x : Fin 4) (s : State) : State :=
  if s.get (F.MOT_AXa_STAT_FCAUSE x) = 4 ∧ s.gearBad x then s
  else (s.put (F.MOT_AXa_STAT_FAULT x) 0).modAxis x fun y => { y with coilA := y.coilA.afresh, coilB := y.coilB.afresh }

/-- A write of MOT_AXa_STAT. -/
def axStatWrite (x : Fin 4) (v : Word) (s : State) : State :=
  let s1 := if bitAt v.toNat 2 then s.put (F.MOT_AXa_STAT_ARRIVED x) 0 else s
  if bitAt v.toNat 3 then axFaultClear x s1 else s1

/-- R296: a write of 1 to FAULT. -/
def execAxisFaultClear (m : Master) (x : Fin 4) (s : State) : Host.Outcome State Fault Refusal :=
  .next (s.wr m (A.MOT_AXa_STAT x) (axFaultClear x))

/-- Whether the microstep table is in use: a chopper axis is outside OFF standstill (R288). -/
def State.wtabUsed (s : State) : Bool :=
  allAx.any fun a => s.flag (F.MOT_AXa_CTRL_EN a) && !s.flag (F.MOT_AXa_CTRL_DRV a) &&
    !(s.flag (F.MOT_AXa_STAT_STAND a) && decide (2 ≤ s.get (F.MOT_AXa_STAND_STMODE a)))

/-- A word written to entry k of the microstep table; before READY a table in use takes it too (R288, R363). -/
def wtabWrite (k : Nat) (v : Word) (s : State) : State :=
  if s.boot.phase = .ready ∧ s.wtabUsed then s.put F.MOT_STAT_ACTWR 1 else s.setWord (0x70800 + 4 * k) (v &&& 0x1FF)

/-- R288: a write to entry k of the microstep table. -/
def execWtabWrite (m : Master) (k : Nat) (v : Word) (s : State) : Host.Outcome State Fault Refusal :=
  nextIf (k ≤ 256) (s.wr m (0x70800 + 4 * k) (wtabWrite k v))

/-! ## Commits -/

/-- Whether a slot has applied a word at `a` between s0 and s. -/
def State.tookAt (s0 s : State) (a : Nat) : Bool :=
  allTx.any fun t => (s.slot t).applied.contains a && !(s0.slot t).applied.contains a

/-- The position of a gear or step input goes into the profile and its history (R278). -/
def intoProfile (d : Int) (x : Axis) : Axis :=
  let f (v : Int) := v + d * 2 ^ 32
  { x with x := f x.x, hist := x.hist.map f }

/-- A list of history entries of length k: the newest kept, the oldest repeated. -/
def fitHist (k : Nat) (l : List Int) (x : Int) : List Int :=
  let l' := l.take k
  l' ++ List.replicate (k - l'.length) (l'.getLast?.getD x)

/-- The mode changes from m0 to m: what a gear or a step input had given goes into the profile (R278). -/
def leaveMode (a : Fin 4) (m0 m : Nat) (s : State) : State :=
  let s1 := if m0 = 2 ∧ m ≠ 2 then s.modAxis a fun x => { intoProfile x.xg x with xg := 0, r := 0 } else s
  if m0 = 3 ∧ m ≠ 3 then s1.modAxis a fun x => { intoProfile x.xs x with xs := 0, siB := 0 } else s1

/-- A gear begins, or goes on with the ratio of `s` in place of that of `s0` (R282, R283). -/
def regear (a : Fin 4) (m0 : Nat) (s0 s : State) : State :=
  let ratio := s0.word (A.MOT_AXa_GNUM a) != s.word (A.MOT_AXa_GNUM a) || s0.word (A.MOT_AXa_GDEN a) != s.word (A.MOT_AXa_GDEN a)
  let d0 : Int := s0.get (F.MOT_AXa_GDEN_DEN a)
  let d1 : Int := s.get (F.MOT_AXa_GDEN_DEN a)
  let cnt := s.gearCount a
  if m0 ≠ 2 ∧ s.axMode a = 2 then s.modAxis a fun x => { x with xg := 0, r := 0, gearTick := 0, gearCnt := cnt }
  else if s.axMode a = 2 ∧ ratio then s.modAxis a fun x => { x with r := floorDiv (x.r * d1) d0, gearCnt := cnt }
  else s

/-- The filter's history, filled with the present position as an axis is switched on, and the offsets 0 there (R280,
R292). -/
def fillHist (a : Fin 4) (on : Bool) (s : State) : State :=
  let ns := s.axNs a
  let s1 := s.modAxis a fun x => { x with hist := if on then List.replicate ns x.x else fitHist ns x.hist x.x }
  let cnt := s1.gearCount a
  let now := s.tick
  if on then
    (s1.setWord (A.MOT_AXa_OFS a) 0).modAxis a fun x => { x with moveTick := now, gearCnt := cnt, gearTick := x.xg }
  else s1

/-- An axis at a stop is released by a write that was applied between s0 and s (R296). -/
def releaseAxis (a : Fin 4) (s0 s : State) : State :=
  let named := [A.MOT_AXa_CTRL a, A.MOT_AXa_TGT_LO a, A.MOT_AXa_TGT_HI a, A.MOT_AXa_VT a].any (State.tookAt s0 s)
  let cnt := s.gearCount a
  if named && s.flag (F.MOT_AXa_STAT_STOPPED a) && !s.flag F.FLT_SAFE_ACTIVE then
    (s.put (F.MOT_AXa_STAT_STOPPED a) 0).modAxis a fun x =>
      { x with off := false, gearCnt := cnt, gearTick := x.xg, coilA := { x.coilA.afresh with idle := true },
               coilB := { x.coilB.afresh with idle := true } }
  else s

/-- Axis a takes the staged fields committed between s0 and s: mode (R278), gear (R282, R283), filter and enable (R280,
R292), and its release after a stop (R296). -/
def applyAxis (a : Fin 4) (s0 s : State) : State :=
  let m0 := s0.axMode a
  let on := s.flag (F.MOT_AXa_CTRL_EN a) && !s0.flag (F.MOT_AXa_CTRL_EN a)
  let live := s0.flag (F.MOT_AXa_CTRL_EN a) && !s0.flag (F.MOT_AXa_STAT_STOPPED a)
  let was := (if live && m0 == 2 && !s0.gearBad a then gearTake a s0 else s0).axis a
  let s6 := fillHist a on (regear a m0 s0 (leaveMode a m0 (s.axMode a) (s.modAxis a fun _ => was)))
  let s7 := releaseAxis a s0 s6
  let s8 := if on && s7.flag F.FLT_SAFE_ACTIVE then stopAxis a s7 else s7
  let unit := s8.outUnitNow a
  let same := s0.get (F.MOT_AXa_SOUT_OUTRES a) == s.get (F.MOT_AXa_SOUT_OUTRES a)
  let s9 := axisMoved a s0 (s8.modAxis a fun x => { x with outUnit := if same then x.outUnit else unit })
  coilsFollow a (if s9.flag (F.MOT_AXa_CTRL_EN a) then s9 else s9.put (F.MOT_AXa_STAT_STAND a) 0)

/-- MOT applies what was committed between s0 and s (R298); a gear may begin on a faulty master (R284). -/
def applyMot (s0 s : State) : State :=
  if s.domOn 5 then gearFaults (allAx.foldl (fun (s : State) (a : Fin 4) => applyAxis a s0 s) s) else s

/-- The COMMITTED slots whose entries for MOT have reached their point, the first cycle of the motion clock that begins after the commit
instant, apply them (R207, R298; cycles begin at every fourth tick, DESIGN CHOICE, log 57). -/
def applyMotDue (s : State) : State :=
  let due := allTx.filter fun t => match s.instant t with
    | some i => decide (4 * (i / 4 + 1) ≤ s.tick)
    | none => false
  applyIn due (fun a => blockOf a == 7) applyMot s

/-- R279: a tick of 1 µs. -/
def execProfileTick (s : State) : Host.Outcome State Fault Refusal :=
  .next (if s.domOn 5 then allAx.foldl (fun (s : State) (a : Fin 4) => axisTick a s) (applyMotDue s) else s)

/-- The vote of MOT on the state t that would result from s (R298). -/
def voteMot (s t : State) : Bool :=
  allAx.all fun a =>
    let m := t.axMode a
    decide (m < 4) && decide (t.get (F.MOT_AXa_CTRL_MRES a) ≤ 8) && decide (t.get (F.MOT_AXa_SIN_SIRES a) ≤ 8) &&
    decide (t.get (F.MOT_AXa_SOUT_OUTRES a) ≤ 8) &&
    !(m == 2 && (t.get (F.MOT_AXa_GDEN_DEN a) == 0 || decide (5 ≤ t.gearSrc a))) &&
    !(decide (m < 3) && (!t.flag (F.MOT_AXa_AMAX_AMAX a) || !t.flag (F.MOT_AXa_DMAX_DMAX a) ||
      !t.flag (F.MOT_AXa_VMAX_VMAX a))) &&
    decide (2 ≤ t.get (F.MOT_AXa_CHOP_DT a)) && decide (5 ≤ t.get (F.MOT_AXa_CHOP_TBLANK a)) &&
    !(s.get (F.MOT_AXa_CTRL_DRV a) != t.get (F.MOT_AXa_CTRL_DRV a) && s.flag (F.MOT_AXa_CTRL_EN a) &&
      !s.flag (F.MOT_AXa_STAT_STAND a))

end Sys2Proof.Machine
end

