-- ==== Sys2Proof/Machine/Position.lean ====
section
/-! DEFINITION. The meanings of the commands of position feedback (chapter 5), and POS as a participant of capo
transactions (R131, R140). -/

namespace Sys2Proof.Machine

/-! ## Samples -/

/-- An action on the front ends named by a mask, POS first: bit 16 is POS, bits 0 to 15 the channels. -/
def onFrontEnds (mask : BitVec 17) (f : Fin 17 → State → State) (s : State) : State :=
  let s1 := if mask.getLsbD 16 then f fePos s else s
  s1.eachCh fun n s => if mask.getLsbD n.val then f (feCh n) s else s

/-- Z of output m as its settings have it outside a pulse (R138). -/
def State.emuZBase (s : State) (m : Fin 4) : Bool :=
  let div : Int := s.get (F.POS_EMUm_ZDIV_ZDIV m)
  s.flag (F.POS_EMUm_CFG_ZMODE m) && decide (div ≠ 0 ∧ (s.emuOf m).out % div = 0)

/-- EN of an output applied as 1 starts its count and backlog from 0 with the levels 00 and Z low; an output that holds its levels
keeps Z (R139). Other settings give Z the level of R138: with ZMODE = 1 that of its count, with ZMODE = 0 low but for a pulse, which
goes on to its end. -/
def applyEmu (s0 : State) (m : Fin 4) (s : State) : State :=
  if !s.flag (F.POS_EMUm_CFG_EN m) then s
  else if !s0.flag (F.POS_EMUm_CFG_EN m) then
    (s.put (F.POS_EMUm_STAT_BACKLOG m) 0).modEmu m fun _ => Emu.reset
  else if s.emuHold m then s
  else if s.flag (F.POS_EMUm_CFG_ZMODE m) then s.modEmu m fun x => { x with z := s.emuZBase m }
  else s.modEmu m fun x => { x with z := x.z && !s0.flag (F.POS_EMUm_CFG_ZMODE m) }

/-- The addresses of output m's staged registers. -/
def isEmu (m : Fin 4) (a : Nat) : Bool := a == A.POS_EMUm_CFG m || a == A.POS_EMUm_RATIO m || a == A.POS_EMUm_ZDIV m

/-- The SRC that output m will have once its committed settings apply, and whose count they wait for (R140; DESIGN CHOICE, log 177). -/
def State.emuNextSrc (s : State) (m : Fin 4) : Nat :=
  (stagedView (allTx.flatMap fun t => s.dueEntries t (isEmu m)) s).get (F.POS_EMUm_CFG_SRC m)

/-- A sample of encoder e: the front ends count, then POS derives the rest from its count. -/
def sampled (e : Fin 4) (f : State → State) (s : State) : State := posFollow e s (f s)

/-- A sample of encoder e in which the front ends count by `f`; committed emulation settings apply in it where it is the first in
which their source counts, before an index can move the count (R136, R140). -/
def withEmu (e : Fin 4) (f : State → State) (s : State) : State :=
  let u := subFollow e s (f s)
  let due := (List.finRange 4).filter fun m =>
    (allTx.any fun x => !(s.dueEntries x (isEmu m)).isEmpty) && s.srcMove u (s.emuNextSrc m) != 0
  sampled e f (due.foldl (fun (s : State) (m : Fin 4) => applyAll (isEmu m) (fun s0 s => applyEmu s0 m s) s) s)

/-- R110 to R117: the front ends in `seen` sample the levels a, b and z of encoder e. -/
def execEncoderTransition (e : Fin 4) (a b z : Bool) (seen : BitVec 17) (s : State) :
    Host.Outcome State Fault Refusal :=
  .next (withEmu e (onFrontEnds seen fun i s => feSample i e a b z s) s)

/-- The front end an operand names. -/
def feIdx (f : FrontEnd) : Fin 17 :=
  match f with
  | .pos => fePos
  | .ch n => feCh n

/-- R111: a pending change of one line is accepted once FILT × 5 ns have passed since its last accepted change. -/
def execFilterAccept (e : Fin 4) (l : EncLine) (fe : FrontEnd) (s : State) : Host.Outcome State Fault Refusal :=
  let i := feIdx fe
  let f := s.fe i e
  let filt := s.get (F.POS_ENCe_CFG_FILT e)
  let a := if l = .a then sigAccept filt s.tick f.a else f.a
  let b := if l = .b then sigAccept filt s.tick f.b else f.b
  let z := if l = .z then sigAccept filt s.tick f.z else f.z
  .next (if a = f.a ∧ b = f.b ∧ z = f.z then s else withEmu e (feTake i e a b z 0) s)

/-- R119: Z of encoder e rises in every front end, with A and B as they stand. -/
def execIndexEvent (e : Fin 4) (s : State) : Host.Outcome State Fault Refusal :=
  .next (withEmu e (onFrontEnds (BitVec.allOnes 17) fun i s =>
    feSample i e (s.fe i e).a.raw (s.fe i e).b.raw true s) s)

/-! ## Windows -/

/-- R117: a fault window of encoder e ends; every front end counts faults from 0 again. -/
def execFaultWindowEnd (e : Fin 4) (s : State) : Host.Outcome State Fault Refusal := .next (faultWindow e s)

/-- R123: a speed window of encoder e ends; EDGES and DIR are reported. DIR of a window without a count is a free value. -/
def execSpeedWindowEnd (e : Fin 4) (s : State) : Host.Outcome State Fault Refusal := .next (speedWindow e s)

/-! ## The cross-check -/

/-- Channel n has a tracker of encoder e that works. -/
def State.trkLive (s : State) (e : Fin 4) (n : Fin 16) : Bool := s.feOn (feCh n) e && !(s.fe (feCh n) e).failed

/-- Whether channel n's tracker of encoder e differs from POS by more than XTOL. -/
def State.trkOff (s : State) (e : Fin 4) (n : Fin 16) : Bool :=
  decide (s.get F.POS_XCFG_XTOL < (cntDiff (s.fe (feCh n) e).cnt (s.posCnt e)).natAbs)

/-- One tracker is compared: its run of disagreements, and its validity after a first pass (R125, R126). -/
def trkCompare (e : Fin 4) (n : Fin 16) (s : State) : State :=
  if !s.trkLive e n then s
  else if s.trkOff e n then
    s.modFe (feCh n) e fun f => { f with disagree := if f.valid then f.disagree + 1 else 0 }
  else s.modFe (feCh n) e fun f => { f with disagree := 0, valid := true }

/-- A tracker fails: TRKFAIL, TRK_FAIL, and POS_LOST where the channel prints from it (R126, R127). -/
def failTracker (e : Fin 4) (n : Fin 16) (s : State) : State :=
  let s1 := s.modFe (feCh n) e fun f => { f with failed := true, valid := false, disagree := 0 }
  posLost n ((s1.put (F.POS_XSTAT_TRKFAIL.bit n) 1).raise 58)

/-- POS takes its count of encoder e from channel n's tracker (R126). -/
def substitute (e : Fin 4) (n : Fin 16) (s : State) : State :=
  (newPosCnt e ((s.modEnc e fun x => { x with sub := some n }).put (F.POS_XSTAT_POSSUB.bit e) 1)).raise 59

/-- The cross-check of encoder e at one snapshot: the comparison, and the outcome of a finding (R126). -/
def xcheckEnc (e : Fin 4) (s0 : State) : State :=
  let s := s0.eachCh fun n s => trkCompare e n s
  let valid := allCh.filter fun n => s.trkLive e n && (s.fe (feCh n) e).valid
  let off := valid.filter fun n => s.trkOff e n
  let found := off.any fun n => max 1 (s.get F.POS_XCFG_XPERS) ≤ (s.fe (feCh n) e).disagree
  let tol := s.get F.POS_XCFG_XTOL
  let alike := off.all fun n => off.all fun k =>
    decide ((cntDiff (s.fe (feCh n) e).cnt (s.fe (feCh k) e).cnt).natAbs ≤ tol)
  if !found then (if off.isEmpty then s.modEnc e fun x => { x with xpend := false } else s)
  else match off with
    | [n] => if 2 ≤ valid.length ∨ valid = [n] then failTracker e n s else s
    | n :: _ =>
      if off.length = valid.length ∧ alike then substitute e n s
      else declareFaulty e ((s.put (F.POS_ENCe_STAT_XCHK e) 1).modEnc e fun x => { x with xpend := true })
    | [] => s

/-- R126, R132: POS compares its counts with every tracker; frets follow a position that jumps. POS must be ON to do so. -/
def execXcheckSnapshot (s : State) : Host.Outcome State Fault Refusal :=
  .next (if s.domOn 4 then
      fretsFollow (fun _ => true) s
        ((List.finRange 4).foldl (fun (s : State) (e : Fin 4) => if s.feOn fePos e then xcheckEnc e s else s) s)
    else s)

/-- FAULT of encoder e clears if the window's fault count is below FLIM or FLIM is 0, and no index mismatch or
cross-check finding is pending (R118). The next index event is unchecked where FAULT was set (R120). A pair whose other encoder is
faulty goes over to this one at once, and frets and lines follow its position (R129, R130, R132). -/
def encFaultClear (e : Fin 4) (s : State) : State :=
  let lim := s.get (F.POS_ENCe_FLT_FLIM e)
  let x := s.encOf e
  if (lim = 0 ∨ (s.fe fePos e).fc < lim) ∧ ¬ x.pending ∧ ¬ x.xpend then
    let s1 := if s.encFaulty e then (s.put (F.POS_ENCe_STAT_FAULT e) 0).modEnc e fun x => { x with idxChecked := false }
      else s
    let s2 := pairsFollow e s (everyFe e (fun f => { f with faulty := false }) s1)
    fretsFollow (fun _ => true) s (s2.eachCh fun n t => if s2.hasPair (feCh n) then lineFollow n s t else t)
  else s

/-- R118: a write of 1 to POS_ENCe_STAT.FAULT. -/
def execEncFaultClear (m : Master) (e : Fin 4) (s : State) : Host.Outcome State Fault Refusal :=
  .next (s.wr m (A.POS_ENCe_STAT e) (encFaultClear e))

/-! ## Frets -/

/-- The low word of CMP is staged, and both words take effect with the high one (R134). -/
def fretCmpLo (f : Fin 64) (v : Word) (s : State) : State :=
  { s with pos := { s.pos with fretStage := s.pos.fretStage.set f v } }
def fretCmpHi (f : Fin 64) (v : Word) (s : State) : State :=
  (s.setWord (A.POS_FRETf_CMP_LO f) (s.pos.fretStage.get f)).put (F.POS_FRETf_CMP_HI_CMP_H f) v.toNat

/-- A write of POS_ENCe_STAT: FAULT under R118, the causes as W1C. -/
def encStatWrite (e : Fin 4) (v : Word) (s : State) : State :=
  let s1 := s.setWord (A.POS_ENCe_STAT e) (s.word (A.POS_ENCe_STAT e) &&& ~~~(v &&& 0x1E))
  if bitAt v.toNat 0 then encFaultClear e s1 else s1

/-- A write of POS_FRETf_CTRL: the settings, then ARM and DISARM, which wins (R134). -/
def fretCtrlWrite (f : Fin 64) (v : Word) (s : State) : State :=
  let a := A.POS_FRETf_CTRL f
  let s1 := s.setWord a ((s.word a &&& ~~~(0x1FF#32)) ||| (v &&& 0x1FF))
  let s2 := if bitAt v.toNat 16 then s1.put (F.POS_FRETf_CTRL_ARM f) 1 else s1
  if bitAt v.toNat 17 then s2.put (F.POS_FRETf_CTRL_ARM f) 0 else s2

/-- R134: a write of POS_FRETf_CMP_LO. -/
def execFretCmpLoWrite (m : Master) (f : Fin 64) (v : Word) (s : State) : Host.Outcome State Fault Refusal :=
  .next (s.wr m (A.POS_FRETf_CMP_LO f) (fretCmpLo f v))

/-- R134: a write of POS_FRETf_CMP_HI. -/
def execFretCmpHiWrite (m : Master) (f : Fin 64) (v : Word) (s : State) : Host.Outcome State Fault Refusal :=
  .next (s.wr m (A.POS_FRETf_CMP_HI f) (fretCmpHi f v))

/-- R134: a write of 1 to POS_FRETf_CTRL.ARM. -/
def execFretArm (m : Master) (f : Fin 64) (s : State) : Host.Outcome State Fault Refusal :=
  .next (s.wr m (A.POS_FRETf_CTRL f) fun s => s.put (F.POS_FRETf_CTRL_ARM f) 1)

/-- R134: a write of 1 to POS_FRETf_CTRL.DISARM. -/
def execFretDisarm (m : Master) (f : Fin 64) (s : State) : Host.Outcome State Fault Refusal :=
  .next (s.wr m (A.POS_FRETf_CTRL f) fun s => s.put (F.POS_FRETf_CTRL_ARM f) 0)

/-! ## Emulation -/

/-- MINSP of output k in ticks; values below 8 act as 8 (R137). -/
def State.emuGap (s : State) (k : Fin 4) : Nat := 2 * max 8 (s.get (F.POS_EMUm_CFG_MINSP k))

/-- Z of output k after a count: for MINSP × 5 ns after an index of the source, or at every multiple of ZDIV (R138). A pulse still
running goes on to its end. -/
def emuZ (k : Fin 4) (s : State) : State :=
  let x := s.emuOf k
  let s1 := if s.flag (F.POS_EMUm_CFG_ZMODE k) then s.modEmu k fun x => { x with z := s.emuZBase k, pend := false }
    else if x.pend then s.modEmu k fun x => { x with z := true, zTick := s.tick + s.emuGap k, pend := false }
    else s.modEmu k fun x => { x with z := x.z && decide (s.tick < x.zTick) }
  if (s1.emuOf k).z then s1.emit (.emuZ k.val) else s1

/-- R136: output k makes one count from its backlog. -/
def execEmuOutputCount (k : Fin 4) (s : State) : Host.Outcome State Fault Refusal :=
  let back := toSigned 16 (s.get (F.POS_EMUm_STAT_BACKLOG k))
  .next (if s.domOn 4 ∧ s.flag (F.POS_EMUm_CFG_EN k) ∧ ¬ s.emuHold k ∧ back ≠ 0 ∧
      (s.emuOf k).lastTick + s.emuGap k ≤ s.tick then
      let up := decide (0 < back) != s.flag (F.POS_EMUm_CFG_DIRINV k)
      let s1 := s.put (F.POS_EMUm_STAT_BACKLOG k) (ofSigned 16 (back - back.sign))
      let s2 := s1.modEmu k fun x => { x with out := x.out + (if up then 1 else -1), lastTick := s.tick }
      emuZ k (s2.emit (.emu k.val up))
    else s)

/-- Unless the output holds its levels, a pulse of Z ends after its MINSP × 5 ns, and with ZMODE = 1 Z has the level of an output
count once there has been one (R138, R139). -/
def emuTick (s : State) : State :=
  (List.finRange 4).foldl (fun (s : State) (m : Fin 4) =>
    let x := s.emuOf m
    if !s.flag (F.POS_EMUm_CFG_EN m) || s.emuHold m then s
    else if s.flag (F.POS_EMUm_CFG_ZMODE m) then
      if x.out ≠ 0 ∧ x.z ≠ s.emuZBase m then s.modEmu m fun x => { x with z := s.emuZBase m } else s
    else if x.z && decide (x.zTick ≤ s.tick) then s.modEmu m fun x => { x with z := false }
    else s) s

/-! ## POS as a participant -/

/-- Whether a channel with firing enabled uses encoder e as line source, active or standby (R140). -/
def State.encInUse (s : State) (e : Fin 4) : Bool :=
  allCh.any fun n =>
    s.chOn n && s.flag (F.CHn_FT_CTRL_FIRE_EN n) &&
    (s.get (F.CHn_FT_CTRL_SRC n) == e.val || (s.get (F.CHn_FT_CTRL_SRC n) == 4 && e.val < 2))

/-- Whether a channel with firing enabled uses an encoder of the pair as line source (R140). -/
def State.pairInUse (s : State) : Bool := s.encInUse 0 || s.encInUse 1

/-- The vote of POS on going from s to t, where only registers differ (R131, R140). -/
def votePos (s t : State) : Bool :=
  ((List.finRange 4).all fun e => !s.encInUse e ||
    (s.get (F.POS_ENCe_CFG_EN e) == t.get (F.POS_ENCe_CFG_EN e) &&
     s.get (F.POS_ENCe_CFG_MODE e) == t.get (F.POS_ENCe_CFG_MODE e) &&
     s.get (F.POS_ENCe_CFG_DIRINV e) == t.get (F.POS_ENCe_CFG_DIRINV e) &&
     s.get (F.POS_ENCe_CFG_FILT e) == t.get (F.POS_ENCe_CFG_FILT e) && !t.flag (F.POS_ENCe_PRESET_HI_LOAD e))) &&
  (!s.pairInUse || (s.get F.POS_PAIR_CTRL_EN == t.get F.POS_PAIR_CTRL_EN &&
    s.get F.POS_PAIR_CTRL_PRI == t.get F.POS_PAIR_CTRL_PRI && s.get F.POS_PAIR_K_K == t.get F.POS_PAIR_K_K)) &&
  (!t.flag F.POS_PAIR_CTRL_RESYNC || (s.pairOf fePos).onSec)

/-- The history behind OFS starts afresh from the counts as they stand in every front end; the source and a frozen OFS stay. -/
def pairAfresh (s : State) : State :=
  (List.finRange 17).foldl (fun (s : State) (i : Fin 17) =>
    s.modPair i fun x => { x with hist := [(s.tick, s.pairGap i)], clean := 0 }) s

/-- A pair of new encoders or a new ratio starts on the primary, OFS afresh; a front end that was on the secondary thereby changes
its source (R128, R129). -/
def pairAnew (s : State) : State :=
  (List.finRange 17).foldl (fun (s : State) (i : Fin 17) =>
    if (s.pairOf i).onSec && s.hasPair i then switchPair i false s else s.modPair i fun x => { x with onSec := false, clean := 0 })
    (pairAfresh s)

/-- Encoder e is newly enabled (R117, R120, R123); its speed windows begin here (DESIGN CHOICE, log 159). -/
def encEnabled (e : Fin 4) (s : State) : State :=
  let s1 := (s.put (F.POS_ENCe_IDXCAP_HI_VALID e) 0).put (F.POS_XSTAT_POSSUB.bit e) 0
  (s1.modEnc e fun x =>
    { x with idxChecked := false, missed := false, sub := none, winTick := s.tick, spdTick := s.tick, edges := 0 }).modFe
    fePos e fun f => { f with fc := 0, lastTick := 0 }

/-- PRESET of encoder e takes effect in every front end (R120, R132). -/
def encPreset (e : Fin 4) (s : State) : State :=
  let v := BitVec.ofNat 48 (s.pair (A.POS_ENCe_PRESET_LO e) (A.POS_ENCe_PRESET_HI e))
  let s1 := (everyFe e (fun f => { f with cnt := v }) s).put (F.POS_ENCe_PRESET_HI_LOAD e) 0
  let s2 := s1.modEnc e fun x => { x with idxChecked := false, missed := false }
  if e.val < 2 then pairAfresh s2 else s2

/-- What encoder e's settings bring with them in the sample that applies them: enabling, preset, a new NOM, new windows
(R117, R119, R120, R123, R132). A changed SPDCFG begins the speed windows anew (DESIGN CHOICE, log 159). -/
def applyEnc (s0 : State) (e : Fin 4) (s : State) : State :=
  let s1 := if s.encEn e && !s0.encEn e then encEnabled e s else s
  let s2 := if s.flag (F.POS_ENCe_PRESET_HI_LOAD e) then encPreset e s1 else s1
  let s3 := if s.get (F.POS_ENCe_IDXNOM_NOM e) = s0.get (F.POS_ENCe_IDXNOM_NOM e) then s2
    else s2.modEnc e fun x => { x with idxChecked := false, missed := false }
  let s4 := if s.word (A.POS_ENCe_FLT e) = s0.word (A.POS_ENCe_FLT e) then s3
    else ((everyFe e (fun f => { f with fc := 0 }) s3).modEnc e fun x => { x with winTick := s.tick }).put
      (F.POS_ENCe_STAT_FCOUNT e) 0
  if s.word (A.POS_ENCe_SPDCFG e) = s0.word (A.POS_ENCe_SPDCFG e) then s4
  else s4.modEnc e fun x => { x with spdTick := s.tick, edges := 0 }

/-- RESYNC: the primary count becomes the integer part of K × S + OFS in every front end (R131). One without a tracker of the pair
has no S and OFS of its own and takes those of POS (DEDUCED, log 168). -/
def resync (s : State) : State :=
  let w := floorDiv (s.standIn fePos) 65536
  (List.finRange 17).foldl (fun (s : State) (i : Fin 17) =>
    let v := if s.hasPair i ∧ i ≠ fePos then floorDiv (s.standIn i) 65536 else w
    (s.modFe (if i = fePos then s.posFe s.pri else i) s.pri fun f => { f with cnt := BitVec.ofInt 48 v }).modPair i fun p => { p with clean := 0 }) s

/-- The pair's settings and RESYNC in the sample that applies them. -/
def applyPair (s0 s : State) : State :=
  let changed := s.get F.POS_PAIR_CTRL_EN ≠ s0.get F.POS_PAIR_CTRL_EN ∨
    s.get F.POS_PAIR_CTRL_PRI ≠ s0.get F.POS_PAIR_CTRL_PRI ∨ s.get F.POS_PAIR_K_K ≠ s0.get F.POS_PAIR_K_K
  let s1 := if changed then pairAnew s else s
  if s.flag F.POS_PAIR_CTRL_RESYNC then (resync s1).put F.POS_PAIR_CTRL_RESYNC 0 else s1

/-- Sources whose coordinates the staged presets of s do not change (R132). -/
def State.noPreset (s : State) (src : Nat) : Bool :=
  (List.finRange 4).all fun e => !s.flag (F.POS_ENCe_PRESET_HI_LOAD e) || (src != e.val && !(src == 4 && decide (e.val < 2)))

/-- POS after its staged fields were written, s0 being the state before: frets follow a position that RESYNC or a change of the
pair's source moves (R125, R131, R132, R140). -/
def applyPos (s0 s : State) : State :=
  let s1 := (List.finRange 4).foldl (fun (s : State) (e : Fin 4) => applyEnc s0 e s) s
  fretsFollow s.noPreset s0 (((applyPair s0 s1).eachCh syncTrackers).eachCh fun n s => noteMoved n s0 s)

end Sys2Proof.Machine
end

