-- ==== Sys2Proof/Machine/PowerOps.lean ====
section
/-! DEFINITION. Power domains (chapters 1 and 17): what a domain loses with its power, the requests to switch one and their
queue, and the restart of the supervisor. -/

namespace Sys2Proof.Machine

/-! ## What a domain holds -/

/-- The sequencer of a channel starts anew: what it keeps of the work path outside the journal and the ledger goes. -/
def clearWork (n : Fin 16) (s : State) : State :=
  (((s.modWork n Work.cleared).put (F.WRK_SCRn_STAT_STATE n) 0).put (F.WRK_SCRn_STAT_HCAUSE n) 0).put
    (F.WRK_SCRn_STAT_CMDBUSY n) 0

/-- The front ends and pair of front end i at reset. -/
def resetFe (i : Fin 17) (s : State) : State :=
  { s with pos := { s.pos with fes := s.pos.fes.set i (Vector.replicate 4 EncFe.reset),
                               pairs := s.pos.pairs.set i PairSt.reset } }

/-- The protection values kept of channel n: CHn_DUT_CTRL to CHn_DUT_HLIM and CHn_BRG_HPWR (R381). -/
def keptRegs (n : Fin 16) : List Nat := (List.range 6).map (fun i => A.CHn_DUT_CTRL n + 4 * i) ++ [A.CHn_BRG_HPWR n]

/-- The protection values that are kept of channel n: those in effect while it is ON, else those from when it went off (R381; DEDUCED,
log 170). -/
def State.protNow (s : State) (n : Fin 16) : List (Nat × Word) :=
  if s.chOn n && !(s.ch n).iso.isolated then (keptRegs n).map fun a => (a, s.word a) else (s.ch n).iso.kept

/-- Channel n loses its contents except its ledger (R29): its blocks, its memory, its trackers, its mailbox. Its protection values
are kept (R381). Slots it takes part in lose a participant (R208, R209). Its oscillator goes on being due to switch back (R405). -/
def chanGone (n : Fin 16) (s : State) : State :=
  let s0 := withFrets (fun s => (List.finRange 4).foldl (fun (s : State) (e : Fin 4) => dropTracker n e s) s) s
  let s1 := if s.inWindow n then s0.emit (.cut n.val (s0.tick + s0.phaseAt n s0.tick)) else s0
  let s2 := resetFe (feCh n) (clearWork n (s1.dropDomain (8 + n.val)))
  let s3 := s2.modCh n fun c =>
    { c with img := Img.reset, wav := Wav.reset, dut := Dut.reset, ft := Ft.reset, brg := Brg.reset,
             iso := { c.iso with loaded := false, memLost := true, offSince := true, kept := s.protNow n } }
  let s4 := { s3 with boot := { s3.boot with trainMask := if bitAt s3.boot.trainMask n.val then
    s3.boot.trainMask - 2 ^ n.val else s3.boot.trainMask } }
  let s5 := s4.put (F.SYS_RSTCAUSE_CHRST.bit n) 1
  let s6 := match mbxOf n.val with
    | some m => releaseLocks (.seq n) (dropHeld (.seq n) (clearInbound m s5))
    | none => s5
  loseParts (fun p => match p with
    | .ch k _ => k == n
    | .sys _ => false) s6

/-- The participant of system block b is lost. -/
def loseSys (b : Nat) (s : State) : State :=
  loseParts (fun p => match p with
    | .ch _ _ => false
    | .sys k => k.val == b) s

/-- The supervisor's firmware stops; a restart that waited for a reply is no longer due (R325). -/
def supDown (s : State) : State := { s with boot := { s.boot with supUp := false, rstDue := none } }

/-- The supervisor stops: its domain's registers are reset, its mailboxes cleared, its locks released, the slots it owns abort, and
with them the healing round that was pending; its counts of better results and the Tuner's skips go with its domain, the Tuner pauses,
its values staying in effect (R29, R209, R233, R235, R254, R319, R321). -/
def supGone (s : State) : State :=
  let s1 := supDown s
  let s2 := allMbx.foldl (fun (s : State) (m : Fin 48) =>
    if 32 ≤ m.val ∧ m.val < 40 ∧ !(s.mb m).waiting then clearInbound m s else s) s1
  let s3 := dropHeld .sup (releaseLocks .sup s2)
  let s4 := (abortOwned .sup s3).dropDomain 3
  { s4 with ins := { s4.ins with pend := [], better := [] },
            tun := { s4.tun with meas := Vector.replicate 3 none, pend := [], next := Vector.replicate 3 0,
                                 last := Vector.replicate 3 none, skipTick := Tun.reset.skipTick } }

/-- A supervisor restart begins (R29): SUPRST is set, and with `lock` LOCKSTEP. -/
def supReset (lock : Bool) (s : State) : State :=
  let s1 := s.put F.SYS_RSTCAUSE_SUPRST 1
  supGone (if lock then s1.put F.SYS_RSTCAUSE_LOCKSTEP 1 else s1)

/-- What is kept of a channel as FAB loses its contents: that its clock is due to switch back, and the rate of its memory (R405,
R407). -/
def Iso.clockOnly (i : Iso) : Iso := { Iso.reset with switchBack := i.switchBack, memSlow := i.memSlow }

/-- Domain d loses its contents (R400). -/
def domGone (d : Nat) (s : State) : State :=
  match chOf (d - 8) with
  | some n => if 8 ≤ d then chanGone n s else match d with
    | 0 => { s.dropDomain 0 with mbx := State.reset.mbx, host := Endpoint.reset }
    | 1 =>
      let s1 := s.dropDomain 1
      { s1 with capo := State.reset.capo, flt := Flt.reset, sp := SpPort.reset,
                chans := s1.chans.map fun (c : Chan) => { c with iso := c.iso.clockOnly } }
    | 2 =>
      let s1 := s.dropDomain 2
      { s1 with boot := { s1.boot with cmd := none } }
    | 3 => loseSys 9 (supGone s)
    | 4 =>
      let s1 := resetFe fePos ((loseSys 4 s).dropDomain 4)
      { s1 with pos := { s1.pos with enc := Pos.reset.enc, fretStage := Pos.reset.fretStage, emu := Pos.reset.emu } }.eachCh
        syncTrackers
    | 5 => { (loseSys 7 s).dropDomain 5 with mot := Mot.reset }
    | 6 =>
      let s1 := (loseSys 8 s).dropDomain 6
      { s1 with ins := { s1.ins with
          ports := s1.ins.ports.map fun (p : CamPort) => { p with frames := [], raised := [], tapFrame := none },
          pipeTill := 0, lastB := true, tables := [] } }
    | 7 => camLost 1 (camLost 0 s)
    | _ => s
  | none => s

/-! ## Requests -/

/-- Domains that THM switched off refuse to come on while SHUT or TRIP is set (R270, R271). -/
def State.heldOff (s : State) (d : Nat) : Bool := 6 ≤ d && (s.flag F.THM_STAT_SHUT || s.flag F.THM_STAT_TRIP)

/-- The cause for which a request is refused, 0 for none (R399). `byPf0` says that PF0 makes it. -/
def State.domRefusal (s : State) (byPf0 : Bool) (d : Nat) (on : Bool) : Nat :=
  if on && s.heldOff d then 5
  else if !on && d == 0 then 1
  else if !on && d == 1 && (List.range 24).any (fun k => k != 1 && s.domOn k) then 2
  else if !on && d == 4 && allCh.any (fun n => s.chOn n && s.flag (F.CHn_FT_CTRL_FIRE_EN n)) then 3
  else if !on && d == 2 && s.flag F.NVM_CMDSTAT_BUSY then 4
  else if byPf0 && 8 ≤ d then 6
  else 0

/-- What has been asked of domain d last and not yet done. -/
def State.domAsked (s : State) (d : Nat) : Option Bool :=
  match (s.pwr.queue.filter fun r => r.1 == d).getLast?, s.pwr.ramp with
  | some r, _ => some r.2
  | none, some r => if r.1 = d then some r.2 else none
  | none, none => none

/-- Insert a request in ascending domain index, behind those of the same domain (R400). -/
def insertReq (r : Nat × Bool) : List (Nat × Bool) → List (Nat × Bool)
  | [] => [r]
  | q :: qs => if q.1 ≤ r.1 then q :: insertReq r qs else r :: q :: qs

/-- A channel in RUN whose domain is d is halted at its line boundary (R29, R400). -/
def haltDom (d : Nat) (s : State) : State :=
  match chOf (d - 8) with
  | some n => if 8 ≤ d ∧ s.wstate n = 1 then s.hold n 2 else s
  | none => s

/-- Whether the blocks of domain d have halted: a channel at its line boundary (R29, R400). -/
def State.domHalted (s : State) (d : Nat) : Bool :=
  match chOf (d - 8) with
  | some n => d < 8 || s.atBoundary n
  | none => true

/-- Domain d begins to ramp; one going off loses its contents (R400). -/
def beginRamp (d : Nat) (on : Bool) (s : State) : State :=
  let s1 := { s with pwr := { s.pwr with ramp := some (d, on), rampTick := s.tick } }
  (if on then s1 else domGone d s1).setDom d 1

/-- The next queued request starts if no domain ramps. A switch-off first halts the domain's blocks, and its ramp begins once they
have halted (R400). -/
def startRamp (s : State) : State :=
  match s.pwr.ramp, s.pwr.queue with
  | none, (d, on) :: q =>
    let s1 := if on then s else haltDom d s
    if on || s1.domHalted d then beginRamp d on { s1 with pwr := { s1.pwr with queue := q } } else s1
  | _, _ => s

/-- A request that is not refused: without effect if the domain is already in the requested state or on its way there; a
switch-off behind a queued switch-on cancels both (R398, R400). -/
def acceptDom (d : Nat) (on : Bool) (s : State) : State :=
  match s.domAsked d with
  | some b =>
    if b = on then s
    else if !on && s.pwr.queue.contains (d, true) then
      { s with pwr := { s.pwr with queue := s.pwr.queue.filter fun r => r != (d, true) } }
    else { s with pwr := { s.pwr with queue := insertReq (d, on) s.pwr.queue } }
  | none =>
    if (if on then s.domOn d else !s.domOn d) then s
    else { s with pwr := { s.pwr with queue := insertReq (d, on) s.pwr.queue } }

/-- A request to switch domain d: refused and recorded, or accepted (R399). -/
def requestDom (byPf0 : Bool) (d : Nat) (on : Bool) (s : State) : State :=
  if (s.domAsked d).isNone && (if on then s.domOn d else s.domState d == 0 || s.domState d == 3) then s
  else
    let c := s.domRefusal byPf0 d on
    if c = 0 then acceptDom d on s
    else
      let s1 := (s.put (F.PWR_DOMREF_REF.bit d) 1).put F.PWR_DOMREF_CAUSE c
      if d = 3 ∧ on then abortWaiting s1 else s1

/-- Whether the target of an instance's value lies in AON: a sensor, the shared oscillator, the references of THM and of the supply
monitors (R247, R401; DEDUCED, log 169). -/
def tunInAon (key : Nat) : Bool := key < 65536 || key == 65552 || key == 131072 || key == 131073

/-- What is left of the Tuner when every switched domain is reset: the sets, which the journal holds, and the values that stay in
targets of AON, with the temperatures they were applied at (R242, R254). -/
def Tun.aonOnly (t : Tun) : Tun :=
  { Tun.reset with sets := t.sets, eff := sparseDrop (fun k => !tunInAon k) t.eff, ref := t.ref.filter fun x => tunInAon x.1 }

/-- Every switched domain back to its reset state, the AON blocks and the journal keeping theirs (R29). -/
def dropSwitched (s : State) : State :=
  { s with
    bar := sparseDrop (fun k => (domainOf (k % 0x2000000)).isSome && !journalReg (k % 0x2000000)) s.bar,
    latch := [],
    chans := s.chans.map (fun (c : Chan) =>
      { Chan.reset with
        work := { c.work.cleared with unread := [], cmpBase := 0, cmpLog := 4, scrLog := 4 },
        iso := c.iso.clockOnly }),
    capo := State.reset.capo, mbx := State.reset.mbx, host := Endpoint.reset, flt := Flt.reset, sp := SpPort.reset,
    pos := Pos.reset, ins := { Ins.reset with counts := s.ins.counts }, tun := s.tun.aonOnly, mot := Mot.reset,
    pwr := { s.pwr with ramp := none, queue := [], waits := [], wakeDue := false },
    boot := { s.boot with cmd := none, supUp := true } }

/-- The domains as at reset release: HOST, FAB, NVM and SUP ON, all others OFF (headings of SYS_DOMSTAT). -/
def domsAtReset (s : State) : State := (s.setWord A.SYS_DOMSTAT_LO 0xAA).setWord A.SYS_DOMSTAT_HI 0

/-- Start-up begins at its first step, T0 being now (R371). -/
def startBoot (s : State) : State :=
  { s with pwr := { s.pwr with flush := none },
           boot := { s.boot with phase := .rom, t0 := s.tick, slot := .a, fellBack := false, chMask := 0, trainMask := 0,
                                 ssvid := 0, ssid := 0, fwSup := [], fwSeq := [], mode := .sdr1, supUp := true, resetN := false } }

/-- A supervisor that has run its first instruction serves its mailboxes; a nozzle test that its restart interrupted is to be
ended without a reply (R320, R321, R386). -/
def supRunsAgain (s : State) : State :=
  let s1 := { s with boot := { s.boot with supUp := true }, mbx := s.mbx.map fun (b : Mbox) => { b with waiting := false } }
  { s1 with chans := s1.chans.map fun (c : Chan) =>
      { c with iso := { c.iso with nozTest := c.iso.nozTest.map fun x => { x with silent := true, till := 0 } } } }

end Sys2Proof.Machine
end

