-- ==== Sys2Proof/Machine/Clock.lean ====
section
/-! DEFINITION. What the passing of a tick does, no command being given. -/

namespace Sys2Proof.Machine

/-- A tick of 2.5 ns passes: bridges have changed state (R290), the pulses that end with it end (R138), the express queue takes
effect by one entry (R309; DESIGN CHOICE, log 93), and a switch-off whose channel has come to its line boundary begins (R400). -/
def State.passTick (s : State) : State := startRamp (expServe (emuTick { noteGates s with tick := s.tick + 1 }))

end Sys2Proof.Machine
end

