-- ==== Sys2Proof/Machine/LinkOps.lean ====
section
/-! DEFINITION. Operations of the Bridge link (chapter 7): frames and their sending, the flags of a message, and what the
link's states bring with them. -/

namespace Sys2Proof.Machine

/-! ## Frames -/

/-- A frame as it goes over the lanes: header, payload, CRC (R168, R169, R170). -/
def frameBytes (f : Frame) (retx : Bool) : List Byte :=
  let body := [BitVec.ofNat 8 (f.typ + 16), BitVec.ofNat 8 f.fsn] ++ leBytes 2 f.payload.length ++
    [BitVec.ofNat 8 (f.tab % 4 + 4 * (f.mbank % 2) + 8 * b2n retx), 0, 0, 0] ++ f.payload
  body ++ leBytes 4 (crc32 body).toNat

/-- Drop codes packed four to a byte (R65). -/
def packCodes (k : Nat) (codes : List Nat) : List Byte :=
  (List.range k).map fun i =>
    BitVec.ofNat 8 (nth codes (4 * i) + 4 * nth codes (4 * i + 1) + 16 * nth codes (4 * i + 2) +
      64 * nth codes (4 * i + 3))

/-- A frame starts as soon as the lanes are free: its (12 + LEN) × 1.25 ns follow, and 8 bit times before the next frame (R166). One
that is answered is outstanding from here on. -/
def sendFrame (n : Fin 16) (f : Frame) (retx : Bool) (s : State) : State :=
  let t := max s.tick (s.ch n).brg.busyTill
  let fin := t + (13 + f.payload.length) / 2
  (s.modBrg n fun b =>
    { b with outst := if f.typ = 0 then b.outst else some { f with endTick := fin },
             lastStart := t, busyTill := fin + 4,
             onLanes := (t, frameBytes f retx) :: b.onLanes.take 1 }).emit (.frame n.val t (frameBytes f retx))

/-- A new frame takes the next FSN (chapter 7, Acknowledgement and retransmission). -/
def newFrame (n : Fin 16) (typ tab mbank : Nat) (payload : List Byte) (masks : List (Nat × Nat))
    (soft : Option (Nat × Word)) (s : State) : State :=
  let f : Frame := { typ := typ, fsn := (s.ch n).brg.nextFsn, tab := tab, mbank := mbank, payload := payload, retx := 0,
                     endTick := 0, masks := masks, soft := soft }
  sendFrame n f false (s.modBrg n fun b => { b with nextFsn := (b.nextFsn + 1) % 256 })

/-- Whether a DATA frame is ready: the limiter has decided a line whose frame has not been sent, and the full mask transfer
is complete (R177, R183). -/
def State.dataReady (s : State) (n : Fin 16) : Bool :=
  (s.ch n).dut.dec.isSome && !(s.ch n).brg.sent && (s.ch n).wav.full.isEmpty

/-- The lanes are free for a frame: the one before it is over and its 8 bit times of idle have passed. -/
def State.lanesFree (s : State) (n : Fin 16) : Bool := decide ((s.ch n).brg.busyTill ≤ s.tick)

/-! ## Head power and link states -/

/-- The level of CHn_HPEN follows its conditions; a committed EN = 0 waits for the line boundary (R185). -/
def settleHpen (n : Fin 16) (s : State) : State :=
  s.put (F.CHn_BRG_STAT_HPEN n) (b2n ((s.flag (F.CHn_BRG_HPWR_EN n) || (s.ch n).brg.hpenHold) && s.flag (F.CHn_BRG_STAT_PRES n) &&
    s.flag (F.CHn_BRG_IDSTAT_IDVALID n) && s.linkIsUp n))

/-- LSTATE takes a value. -/
def setLink (n : Fin 16) (v : Nat) (s : State) : State := settleHpen n (s.put (F.CHn_BRG_STAT_LSTATE n) v)

/-- The link has left UP, or its training has ended: nothing is outstanding, the head board's masks and buffers are gone,
a software CFG write ends with RES 1, and a line whose frame had been sent will carry RETX (R171, R178, R183). A page asked for with
STATREQ is asked for anew once the link is UP (DESIGN CHOICE, log 162). -/
def dropFrames (n : Fin 16) (s : State) : State :=
  let b := (s.ch n).brg
  let s1 := if b.soft.isSome || (match b.outst with
      | some f => f.soft.isSome
      | none => false) then
    (s.put (F.CHn_BRG_HCFG_STAT_BUSY n) 0).put (F.CHn_BRG_HCFG_STAT_RES n) 1 else s
  (s1.modBrg n fun b =>
    { b with outst := none, soft := none, retxed := b.retxed || b.sent, sent := false, acked := false }).modWav n fun w =>
    { w with words := [], full := [] }

/-- The link leaves its state for state v with cause c: one in UP halts the channel under R178. -/
def leaveLink (n : Fin 16) (v c : Nat) (s : State) : State :=
  let up := s.linkIsUp n
  let s1 := (setLink n v s).put (F.CHn_BRG_STAT_DCAUSE n) c
  let s2 := if v = 4 then (s1.bump (F.CHn_BRG_CNT2_DOWNCNT n) 1).modBrg n fun b => { b with downTick := s.tick } else s1
  if up then ((dropFrames n s2).raiseCh n 21).hold n 2
  else s2.modBrg n fun b => { b with outst := none }

/-- IDENT begins: the identity record is read anew (R183). The link of an isolated channel stays OFF (R380). -/
def startIdent (n : Fin 16) (s : State) : State :=
  if (s.ch n).iso.isolated then s else
  (setLink n 1 s).modBrg n fun b => { b with i2cTries := 0, trimPend := false, offPend := false }

/-- The link goes OFF from any state; with LINK_EN = 1 and a head board present it starts again (R181, R183). -/
def linkOff (n : Fin 16) (c : Nat) (s : State) : State :=
  let s1 := if s.get (F.CHn_BRG_STAT_LSTATE n) = 0 then s else leaveLink n 0 c s
  let s2 := s1.modBrg n fun b => { b with offPend := false, trimPend := false }
  if s2.flag (F.CHn_BRG_CTRL_LINK_EN n) && s2.flag (F.CHn_BRG_STAT_PRES n) then startIdent n s2 else s2

/-- A LINK_EN = 0 that waits takes effect at the line boundary: no line is decided and unfired and no firing window runs
(R187). -/
def settleOff (n : Fin 16) (s : State) : State :=
  if (s.ch n).brg.offPend && (s.ch n).ft.decided.isEmpty && !s.inWindow n then linkOff n 5 s else s

/-- The cause of BRG_HALT persists (R178, R185). -/
def State.brgCause (s : State) (n : Fin 16) : Bool :=
  !s.linkIsUp n || !s.flag (F.CHn_BRG_STAT_HVOK n) || (s.ch n).brg.hpwrHalt

/-- CHn_BRG_HPWR was applied: EN = 0 halts the channel at its line boundary, raises BRG_HALT and lets CHn_HPEN fall there; EN = 1
ends that cause (R185). -/
def applyBrg (n : Fin 16) (s0 s : State) : State :=
  let was := s0.flag (F.CHn_BRG_HPWR_EN n)
  let now := s.flag (F.CHn_BRG_HPWR_EN n)
  let s1 := if now then s.modBrg n fun b => { b with hpwrHalt := false, hpenHold := false }
    else if was then ((s.modBrg n fun b => { b with hpwrHalt := true, hpenHold := !s.atBoundary n }).raiseCh n 21).hold n 2
    else s
  settleHpen n s1

/-! ## The forward lanes -/

/-- The word every lane carries in the first phase of training (R183). -/
def trainWord : Nat := 0x7A0C

/-- What the forward lanes do in a bit time: whether CHn_BCLK runs, CHn_BFRM, and the byte on the data lanes. -/
structure LaneBits where
  clk : Bool
  frm : Bool
  byte : Nat
deriving DecidableEq, Repr

/-- The forward lanes of channel n in bit time k of 1.25 ns, two to a tick: at 0 with the clock stopped while the link is neither in
training nor UP (R166; outside OFF DEDUCED, log 148), the training word most significant bit first from the start of TRAIN on (R183),
then the bytes of a frame with CHn_BFRM at 1, and 0 between frames (R166). -/
def State.lanesAt (s : State) (n : Fin 16) (k : Nat) : LaneBits :=
  let b := (s.ch n).brg
  let st := s.get (F.CHn_BRG_STAT_LSTATE n)
  if !s.chOn n || (st != 2 && st != 3) then { clk := false, frm := false, byte := 0 }
  else if st == 2 && b.phase == 1 then
    let one := bitAt trainWord (15 - (k - 2 * b.trainTick) % 16)
    { clk := true, frm := one, byte := if one then 255 else 0 }
  else match b.onLanes.find? fun x => decide (2 * x.1 ≤ k) && decide (k < 2 * x.1 + x.2.length) with
    | some x => { clk := true, frm := true, byte := (x.2.getD (k - 2 * x.1) 0).toNat }
    | none => { clk := true, frm := false, byte := 0 }

/-! ## Messages and retransmissions -/

/-- The FLAGS of a recognised message: bits 1 to 6 that rise raise HEAD_ALERT, at the first message against the reset value 0 (DESIGN
CHOICE, log 163), HVOK = 0 inhibits inside a firing window
and halts outside one (R173, R186, R193). -/
def noteFlags (n : Fin 16) (flags : Byte) (s : State) : State :=
  let old := s.get (F.CHn_BRG_STAT_FLAGS n)
  let v := flags.toNat
  let s1 := (s.put (F.CHn_BRG_STAT_FLAGS n) v).put (F.CHn_BRG_STAT_HVOK n) (v % 2)
  let s2 := if (List.range 6).any fun i => bitAt v (i + 1) && !bitAt old (i + 1) then s1.raiseCh n 23 else s1
  if v % 2 = 1 then s2
  else if s2.inWindow n then ((s2.put (F.CHn_BRG_STAT_PARTH n) 1).raiseCh n 21).inhibit n
  else (s2.raiseCh n 21).hold n 2

/-- Whether messages of the return lane are recognised: the link is in TRAIN or UP (DEDUCED, log 50). -/
def State.hears (s : State) (n : Fin 16) : Bool :=
  s.chOn n && (s.get (F.CHn_BRG_STAT_LSTATE n) == 2 || s.get (F.CHn_BRG_STAT_LSTATE n) == 3)

/-- What a message of the return lane does: `k` takes the bytes after K27.7 of one whose CRC-8 is good. Another one is discarded
and breaks the row of TRDY messages (R172, R183; DEDUCED, log 47). -/
def heard (n : Fin 16) (rd : Bool) (syms : List (BitVec 10)) (k : List Byte → State → State) (s : State) : State :=
  if !s.hears n then s
  else match retMsg rd syms with
    | some bs => k bs s
    | none => s.modBrg n fun b => { b with trdy := 0 }

/-- Whether a command brings the answer to frame f of channel n: an ACK with its FSN, or for a STAT frame a STATUS (R172). -/
def bringsAnswer (n : Fin 16) (f : Frame) : Instr → Bool
  | .ack k rd syms => k == n && f.typ != 3 && match retMsg rd syms with
    | some [1, fsn, _] => fsn.toNat == f.fsn
    | _ => false
  | .statusMessage k rd syms => k == n && f.typ == 3 && match retMsg rd syms with
    | some (3 :: fsn :: _ :: pg) => fsn.toNat == f.fsn && pg.length == 16
    | _ => false
  | _ => false

/-- Whether the answer to frame f is recognised in this same cycle: a tick passes only on an empty queue, so what waits there happens in
this one (R176). -/
def State.ackHere (s : State) (n : Fin 16) (f : Frame) : Bool := s.hears n && s.pending.any (bringsAnswer n f)

/-- Whether the DATA frame of the line the limiter has decided is acknowledged, in this cycle or before it (R178). -/
def State.frameAcked (s : State) (n : Fin 16) : Bool :=
  (s.ch n).brg.acked || ((s.ch n).brg.sent && (s.ch n).brg.outst.any fun f => f.typ == 1 && s.ackHere n f)

/-- The flags of a message that is no TRDY, which breaks a row of TRDY messages. -/
def noteOther (n : Fin 16) (flags : Byte) (s : State) : State := noteFlags n flags (s.modBrg n fun b => { b with trdy := 0 })

/-- The outstanding frame is sent again with its FSN, or the link goes to DOWN after RETXMAX times (R176). -/
def retransmit (n : Fin 16) (f : Frame) (s : State) : State :=
  if max 1 (s.get (F.CHn_BRG_CTRL_RETXMAX n)) ≤ f.retx then leaveLink n 4 1 s
  else
    let s1 := sendFrame n { f with retx := f.retx + 1 } true s
    let s2 := if f.typ = 1 then s1.modBrg n fun b => { b with retxed := b.retxed || b.sent } else s1
    (s2.bump (F.CHn_BRG_CNT1_RETX n) 1).raiseLimited (chEvt n 20) msTicks

/-- A CFG frame that a NAK ended while a DATA frame is ready counts as not applied: the DATA frame takes its FSN, and its
words wait to be sent as a new frame (R177). -/
def requeueCfg (n : Fin 16) (f : Frame) (s : State) : State :=
  (s.modBrg n fun b =>
    { b with outst := none, nextFsn := f.fsn, soft := if f.soft.isSome then f.soft else b.soft }).modWav n fun w =>
    { w with words := f.masks ++ w.words.filter fun x => !f.masks.contains x }

/-- The outstanding DATA or CFG frame is acknowledged. -/
def frameDone (n : Fin 16) (f : Frame) (s : State) : State :=
  let s1 := s.modBrg n fun b => { b with outst := none, acked := b.acked || (f.typ == 1 && b.sent) }
  let s2 := if f.soft.isSome then
    (s1.put (F.CHn_BRG_HCFG_STAT_BUSY n) 0).put (F.CHn_BRG_HCFG_STAT_RES n) 0 else s1
  if f.masks.length = 32 then s2.modWav n fun w =>
    { w with full := w.full.filter fun b => !(f.masks.any fun x => x.1 == b) } else s2

end Sys2Proof.Machine
end

