-- ==== Sys2Proof/Machine/FaultOps.lean ====
section
/-! DEFINITION. Clearing of the fault collector and of the stop paths (chapter 14): which sources are active, the writes of
FLT_STAT, FLT_SAFE and PROT_STAT, and the actions of STOP_N and the watchdog. -/

namespace Sys2Proof.Machine

/-! ## Active sources -/

/-- Whether a mailbox of an index range holds a message. -/
def State.anyFull (s : State) (lo hi : Nat) : Bool := allMbx.any fun m => lo ≤ m.val && decide (m.val < hi) && (s.mb m).full

/-- Whether a view of a mailbox satisfies a condition. -/
def State.anyView (s : State) (q : MbxView → Bool) : Bool :=
  allMbx.any fun m => (List.finRange 4).any fun p => q ((s.mb m).views.get p)

/-- Whether the cause of a system source persists: the status bit that the same happening sets is set (R332, log 60). -/
def State.sysActive (s : State) (e : Nat) : Bool :=
  if e = 4 then s.flag F.SYS_RSTCAUSE_LOCKSTEP
  else if e = 5 then s.flag F.SYS_RSTCAUSE_SUPRST
  else if e = 27 then (List.range 24).any fun d => s.domState d == 3
  else if e = 77 then s.flag F.INS_HEAL_SKIPPED || s.flag F.INS_HEALCNT_SKIP15
  else if e = 9 then s.flag F.NVM_BOOTSTAT_FALLBACK
  else if e = 10 then s.flag F.NVM_CMDSTAT_DONE && !s.flag F.NVM_CMDSTAT_ERR
  else if e = 11 then (s.flag F.NVM_CMDSTAT_DONE && s.flag F.NVM_CMDSTAT_ERR) || s.flag F.NVM_CHBOOT_FAIL
  else if e = 17 then s.flag F.PROT_STAT_STOPN
  else if e = 18 then s.flag F.PROT_STAT_SPWD || s.flag F.PROT_STAT_SPRST
  else if e = 19 then s.flag F.PWR_MON_STAT_WARN || s.flag F.PWR_MON_STAT_PFAIL
  else if e = 20 then s.flag F.PWR_MON_STAT_NVWB
  else if e = 21 then allTx.any fun t => s.txState t == 2
  else if e = 23 then s.flag F.PROT_STAT_NOKEY
  else if e = 24 ∨ e = 26 then s.flag F.SYS_CLKSTAT_SHFB || s.flag F.SYS_CLKSTAT_CHFB
  else if 48 ≤ e ∧ e < 52 then s.flag (F.POS_ENCe_STAT_FAULT (e - 48))
  else if 52 ≤ e ∧ e < 56 then s.flag (F.POS_ENCe_STAT_IDXMIS (e - 52))
  else if e = 56 then s.flag F.POS_PAIR_STAT_SWITCHED
  else if e = 57 then s.flag F.POS_PAIR_STAT_DIV
  else if e = 58 then s.flag F.POS_XSTAT_TRKFAIL
  else if e = 59 then s.flag F.POS_XSTAT_POSSUB
  else if e = 60 then s.flag F.POS_FRETHIT_LO_HIT_L || s.flag F.POS_FRETHIT_HI_HIT_H
  else if e = 61 then (List.range 4).any fun m => s.flag (F.POS_EMUm_STAT_LAG m) || s.flag (F.POS_EMUm_STAT_OVF m)
  else if e = 65 then s.flag F.CAPO_FLAGS_IMPLAB
  else if e = 66 then s.flag F.CAPO_FLAGS_DROP
  else if e = 72 then (List.range 2).any fun p =>
    s.flag (F.INS_Pp_STAT_SHORT p) || s.flag (F.INS_Pp_STAT_LONG p) || s.flag (F.INS_Pp_STAT_TMO p)
  else if e = 80 then s.flag F.TUN_STAT_CLAMP
  else if e = 81 then s.flag F.TUN_STAT_SKIP
  else if e = 88 then s.flag F.THM_WARNSTAT_WARN
  else if e = 89 then s.flag F.THM_CHSTAT_LIM
  else if e = 90 then s.flag F.THM_CHSTAT_CRIT
  else if e = 91 then (List.range 48).any fun k =>
    s.flag (F.THM_TSs_STAT_FAIL k) || s.flag (F.THM_TSs_STAT_SUBST k) || s.flag (F.THM_TSs_STAT_FALLBK k)
  else if e = 92 then s.flag F.THM_STAT_DIEFB
  else if e = 93 then s.flag F.THM_STAT_SHUT || s.flag F.THM_STAT_TRIP
  else if e = 94 then (List.range 16).any fun n => s.flag (F.THM_CHn_HTRSTAT_HTRSAT n)
  else if 96 ≤ e ∧ e < 100 then s.flag (F.MOT_AXa_STAT_FAULT (e - 96))
  else if e = 100 then (List.range 4).any fun a => s.flag (F.MOT_AXa_CTRL_IRQ a) && s.flag (F.MOT_AXa_STAT_ARRIVED a)
  else if e = 101 then s.anyFull 44 48
  else if e = 102 then s.anyView fun v => v.aborted
  else if e = 103 then s.anyView fun v => v.ackTmo
  else if 104 ≤ e ∧ e < 120 then s.anyFull (e - 88) (e - 87)
  else if 120 ≤ e ∧ e < 124 then s.anyFull (e - 80) (e - 79)
  else if e = 124 then allMbx.any fun m => (s.mb m).waiting
  else if e = 126 then (List.finRange 2).any fun fn => s.cfgStored fn 0x104 != 0 || s.cfgStored fn 0x110 != 0
  else false

/-- Whether the cause of event k of channel n persists (R332); BRG_HALT by the rule of R178. -/
def State.chActive (s : State) (n : Fin 16) (k : Nat) : Bool :=
  if k = 3 then s.flag (F.CHn_LED_PLINE_PEND n)
  else if k = 7 then s.flag (F.CHn_IMG_PIPESTAT_FENCEA n) || s.flag (F.CHn_IMG_PIPESTAT_FENCEB n)
  else if k = 10 then s.flag (F.CHn_IMG_STAT_MTXUE n)
  else if k = 11 then s.get (F.CHn_IMG_TLD_STAT_ERR n) == 3
  else if k = 13 then s.flag (F.CHn_DUT_STAT_NACT n) || s.flag (F.CHn_DUT_STAT_HACT n)
  else if k = 14 then s.flag (F.CHn_WAV_STAT_CLAMP n) || s.flag (F.CHn_WAV_STAT_WFBSAT n)
  else if k = 15 then s.flag (F.CHn_WAV_STAT_OVERLAP n)
  else if k = 16 then s.flag (F.CHn_DUT_STAT_PERR n)
  else if k = 17 then s.flag (F.CHn_FT_CTRL_FIRE_EN n) && s.posUnavailable n
  else if k = 18 then s.flag (F.CHn_FT_STAT_MISS n)
  else if k = 19 then s.flag (F.CHn_FT_STAT_REVERSE n)
  else if k = 21 then s.flt.brgHalt.getLsbD n.val && s.brgCause n
  else if k = 23 then s.get (F.CHn_BRG_STAT_FLAGS n) / 2 % 64 != 0
  else false

/-- Whether a source is active (R332). -/
def State.sourceActive (s : State) (e : Nat) : Bool :=
  match chOf ((e - 128) / 24) with
  | some n => if e < 128 then s.sysActive e else s.chActive n ((e - 128) % 24)
  | none => false

/-- Whether an active source of severity S1 or above drives line i. -/
def State.lineActive (s : State) (i : Nat) : Bool :=
  (List.range 512).any fun e => lineOf e == some i && s.sevOf e != 0 && s.sourceActive e

/-! ## Clearing -/

/-- A 64-bit mask with bit i clear. -/
def clearLine (m : BitVec 64) (i : Nat) : BitVec 64 := m &&& ~~~(1#64 <<< i)

/-- A write of 1 to the FLT_STAT bit of line i: cleared, and its reactions released, if no source on it is active (R333). -/
def clearStat (i : Nat) (s : State) : State :=
  if s.flag (lineFld i) && !s.lineActive i then
    { s.put (lineFld i) 0 with flt := { s.flt with
      s2 := clearLine s.flt.s2 i, s3 := clearLine s.flt.s3 i, s4 := clearLine s.flt.s4 i } }
  else s

/-- A write of FLT_STAT_LO or FLT_STAT_HI (R333); holds follow what is resolved (R334). -/
def fltStatWrite (hi : Bool) (v : Word) (s : State) : State :=
  ((List.range 32).foldl (fun (s : State) (b : Nat) =>
    if bitAt v.toNat b then clearStat (b + 32 * b2n hi) s else s) s).refreshHolds

/-- Whether the safe state may end (R338). -/
def State.safeMayEnd (s : State) : Bool :=
  !((List.range 64).any fun i => s.flag (lineFld i) && s.flt.s4.getLsbD i) && !s.flag F.FLT_PAR_PARERR &&
  !(s.flag F.PROT_STAT_STOPN && decide (2 ≤ s.get F.PROT_CFG_STOPNACT)) &&
  !(s.flag F.PROT_STAT_SPWD && decide (2 ≤ s.get F.PROT_CFG_SPTOACT)) &&
  !s.flag F.THM_STAT_SHUT && !s.flag F.THM_STAT_TRIP && !s.flag F.FLT_SAFE_BSCAN

/-- A write of FLT_SAFE: 1 to ACTIVE ends the safe state if it may end, and its causes clear (R338). -/
def fltSafeWrite (v : Word) (s : State) : State :=
  if bitAt v.toNat 0 && s.flag F.FLT_SAFE_ACTIVE && s.safeMayEnd then (s.setWord A.FLT_SAFE 0).refreshHolds else s

/-- A write of PROT_STAT: STOPN clears once STOP_N is accepted high, SPWD once a command has been executed since the expiry
(R339, R344). -/
def protStatWrite (v : Word) (s : State) : State :=
  let s1 := if bitAt v.toNat 8 && !s.pwr.stopN then s.put F.PROT_STAT_STOPN 0 else s
  let s2 := if bitAt v.toNat 9 && s1.sp.sinceExpiry then s1.put F.PROT_STAT_SPWD 0 else s1
  let s3 := if bitAt v.toNat 10 then s2.put F.PROT_STAT_SPRST 0 else s2
  (if bitAt v.toNat 11 then s3.put F.PROT_STAT_NOKEY 0 else s3).refreshHolds

/-- A write of PROT_SAFEREQ by PF0 or the Safety port (R337). -/
def safeReq (m : Master) (v : Word) (s : State) : State :=
  if (m == .pf0 || m == .sp) && getBits v 0 16 == 0x5AFE then s.enterSafe F.FLT_SAFE_KEY else s

/-! ## Stop actions -/

/-- The action of STOP_N or of the watchdog: 0 halts, 1 inhibits every channel, 2 and 3 enter the safe state with a cause
(R339, R344). -/
def stopAction (act : Nat) (cause : Fld) (s : State) : State :=
  match act with
  | 0 => s.eachCh fun n s => s.hold n 2
  | 1 => s.eachCh fun n s => s.inhibit n
  | _ => s.enterSafe cause

end Sys2Proof.Machine
end

