-- ==== Sys2Proof/Machine/Bridge.lean ====
section
/-! DEFINITION. The meanings of the commands of the Bridge link and the head interface (chapter 7). -/

namespace Sys2Proof.Machine

/-! ## Forward frames -/

/-- Whether a CFG frame, and whether a STAT frame, is due when no DATA frame is ready (R177). -/
def State.cfgDue (s : State) (n : Fin 16) : Bool := !(s.ch n).wav.words.isEmpty || (s.ch n).brg.soft.isSome
def State.statDue (s : State) (n : Fin 16) : Bool :=
  (s.ch n).brg.stat.isSome && s.get (F.CHn_FT_STAT_STATE n) != 2

/-- The link is UP, nothing is outstanding and the lanes are free. -/
def State.mayStart (s : State) (n : Fin 16) : Bool :=
  s.chOn n && s.linkIsUp n && (s.ch n).brg.outst.isNone && s.lanesFree n

/-- R107, R169, R177: the DATA frame of the line the limiter has decided starts; committed waveform settings apply from this
line on. -/
def execDataFrameSend (n : Fin 16) (s : State) : Host.Outcome State Fault Refusal :=
  .next (match (s.ch n).dut.dec with
    | some d =>
      if s.mayStart n && s.dataReady n then
        let s1 := applyWav n s
        let k := (s1.get (F.CHn_IMG_GEOM_NNOZ n) + 3) / 4
        (newFrame n 1 (s1.tabOf n d.line.pass) (s1.get (F.CHn_WAV_BANK_BANK n)) (packCodes k d.out) [] none s1).modBrg n
          fun b => { b with sent := true }
      else s
    | none => s)

/-- Word i of the masks of a bank (R88). -/
def State.maskWord (s : State) (n : Fin 16) (x : Nat × Nat) : Word := s.word (chBase n + 0xA2000 + 0x100 * x.1 + 4 * x.2)

/-- The payload of a CFG frame (R169). -/
def cfgPayload (addr : Nat) (ws : List Word) : List Byte :=
  leBytes 2 addr ++ [0, 0] ++ ws.flatMap fun w => leBytes 4 w.toNat

/-- A CFG frame carrying masks: one bank in full during its full transfer, else the oldest word that waits (R171). -/
def sendMasks (n : Fin 16) (x : Nat × Nat) (s : State) : State :=
  let ws := if (s.ch n).wav.full.contains x.1 then (List.range 32).map fun i => (x.1, i) else [x]
  let a := 0x80 * x.1 + 4 * (ws.headD x).2
  newFrame n 2 0 0 (cfgPayload a (ws.map (s.maskWord n))) ws none
    (s.modWav n fun w => { w with words := w.words.filter fun y => !ws.contains y })

/-- R171, R177: a CFG frame starts, masks before software writes. -/
def execCfgFrameSend (n : Fin 16) (s : State) : Host.Outcome State Fault Refusal :=
  .next (if s.mayStart n && !s.dataReady n then
      match (s.ch n).wav.words, (s.ch n).brg.soft with
      | x :: _, _ => sendMasks n x s
      | [], some (a, w) =>
        newFrame n 2 0 0 (cfgPayload a [w]) [] (some (a, w)) (s.modBrg n fun b => { b with soft := none })
      | [], none => s
    else s)

/-- R169, R177: the STAT frame of a requested page starts. -/
def execStatFrameSend (n : Fin 16) (s : State) : Host.Outcome State Fault Refusal :=
  .next (match (s.ch n).brg.stat with
    | some p =>
      if s.mayStart n && !s.dataReady n && !s.cfgDue n && s.statDue n then
        newFrame n 3 0 0 [BitVec.ofNat 8 (p % 16), 0, 0, 0] [] none s
      else s
    | none => s)

/-- R177, R183: an IDLE frame starts when no frame has started for 1 µs and no other frame can start, or in the second phase
of training. It takes no FSN and carries that of the frame before it (DEDUCED, log 51). None goes
between the STAT frame that ends the training and its answer (DESIGN CHOICE, log 178). -/
def execIdleFrameSend (n : Fin 16) (s : State) : Host.Outcome State Fault Refusal :=
  let s1 := settleOff n s
  let b := (s1.ch n).brg
  let dataOut := match b.outst with
    | some f => f.typ == 1
    | none => false
  let other := b.outst.isNone && (s1.dataReady n || s1.cfgDue n || s1.statDue n)
  let up := s1.linkIsUp n && !dataOut && !other
  let train := s1.get (F.CHn_BRG_STAT_LSTATE n) == 2 && b.phase == 2
  .next (if s1.chOn n && s1.lanesFree n && decide (b.lastStart + usTicks ≤ s1.tick) && (up || train) then
      sendFrame n { typ := 0, fsn := (b.nextFsn + 255) % 256, tab := 0, mbank := 0, payload := [], retx := 0, endTick := 0,
                    masks := [], soft := none } false s1
    else s1)

/-! ## Return lane -/

/-- R176: an ACK for the outstanding DATA or CFG frame completes it. -/
def ackMsg (n : Fin 16) (fsn flags : Byte) (s : State) : State :=
  let s1 := noteOther n flags s
  match (s1.ch n).brg.outst with
  | some f => if f.fsn = fsn.toNat ∧ f.typ ≠ 3 then frameDone n f s1 else s1
  | none => s1

/-- R172, R176: an ACK message ends on the return lane. -/
def execAck (n : Fin 16) (rd : Bool) (syms : List (BitVec 10)) (s : State) : Host.Outcome State Fault Refusal :=
  .next (heard n rd syms (fun bs s => match bs with
    | [1, fsn, flags] => ackMsg n fsn flags s
    | _ => s) s)

/-- R176, R177: a NAK answers the outstanding frame, whatever its reason and FSN. -/
def nakMsg (n : Fin 16) (flags : Byte) (s : State) : State :=
  let s1 := noteOther n flags (s.bump (F.CHn_BRG_CNT1_NAK n) 1)
  match (s1.ch n).brg.outst with
  | some f => if f.typ = 2 ∧ s1.dataReady n then requeueCfg n f s1 else retransmit n f s1
  | none => s1

/-- The TYPE byte of a NAK: 0x02 + 16 × reason, the reason from 1 to 3 (R172). -/
def isNak (t : Byte) : Bool := t == 0x12 || t == 0x22 || t == 0x32

/-- R172, R176: a NAK message ends on the return lane. -/
def execNak (n : Fin 16) (rd : Bool) (syms : List (BitVec 10)) (s : State) : Host.Outcome State Fault Refusal :=
  .next (heard n rd syms (fun bs s => match bs with
    | [t, _, flags] => if isNak t then nakMsg n flags s else s
    | _ => s) s)

/-- The four words of a status page. -/
def storePage (n : Fin 16) (pg : List Byte) (s : State) : State :=
  (List.range 4).foldl (fun (s : State) (w : Nat) =>
    s.setWord (A.CHn_BRG_STATPGw n w) (BitVec.ofNat 32 (fieldAt pg (4 * w) 4))) s

/-- The link enters UP: both mask banks are to be sent in full (R171, R183). -/
def linkUp (n : Fin 16) (s : State) : State :=
  setLink n 3 (s.modWav n fun w =>
    { w with full := [0, 1], words := (List.range 64).map fun i => (i / 32, i % 32) })

/-- R172, R183: a STATUS message answers the outstanding STAT frame: training reaches UP, or a page is delivered. -/
def statusMsg (n : Fin 16) (fsn flags : Byte) (pg : List Byte) (s : State) : State :=
  let s1 := noteOther n flags s
  match (s1.ch n).brg.outst with
  | some f =>
    if f.fsn = fsn.toNat ∧ f.typ = 3 then
      let s2 := storePage n pg (s1.modBrg n fun b => { b with outst := none })
      if s2.linkIsUp n then
        ((s2.put (F.CHn_BRG_STATREQ_DONE n) 1).put (F.CHn_BRG_STATREQ_BUSY n) 0).modBrg n fun b => { b with stat := none }
      else linkUp n s2
    else s1
  | none => s1

/-- R172, R183: a STATUS message ends on the return lane. -/
def execStatusMessage (n : Fin 16) (rd : Bool) (syms : List (BitVec 10)) (s : State) : Host.Outcome State Fault Refusal :=
  .next (heard n rd syms (fun bs s => match bs with
    | 3 :: fsn :: flags :: pg => if pg.length = 16 then statusMsg n fsn flags pg s else s
    | _ => s) s)

/-- R183: a TRDY message; the fourth in succession ends the first phase of training. -/
def trdyMsg (n : Fin 16) (flags : Byte) (s : State) : State :=
  let s1 := noteFlags n flags s
  let b := (s1.ch n).brg
  if s1.get (F.CHn_BRG_STAT_LSTATE n) = 2 ∧ b.phase = 1 then
    s1.modBrg n fun b =>
      { b with trdy := b.trdy + 1, phase := if 4 ≤ b.trdy + 1 then 2 else 1, phaseTick := s.tick }
  else s1

/-- R172, R183: a TRDY message ends on the return lane. -/
def execTrdy (n : Fin 16) (rd : Bool) (syms : List (BitVec 10)) (s : State) : Host.Outcome State Fault Refusal :=
  .next (heard n rd syms (fun bs s => match bs with
    | [5, 0xFF, flags] => trdyMsg n flags s
    | _ => s) s)

/-- R176: no answer within 1.0 µs of the frame's last bit time; an ACK recognised in the same cycle wins, for a STAT frame a STATUS (R172). -/
def execAnswerTimeout (n : Fin 16) (s : State) : Host.Outcome State Fault Refusal :=
  .next (match (s.ch n).brg.outst with
    | some f =>
      if s.chOn n && decide (f.endTick + usTicks ≤ s.tick) && !s.ackHere n f then
        retransmit n f (s.bump (F.CHn_BRG_CNT2_TMO n) 1)
      else s
    | none => s)

/-- R184: CHn_BRET has carried no valid symbol for 5 µs. -/
def execReturnLaneLoss (n : Fin 16) (s : State) : Host.Outcome State Fault Refusal :=
  .next (if s.chOn n && s.linkIsUp n then leaveLink n 4 2 s else s)

/-! ## Presence and training -/

/-- R182: CHn_PRES_N has been low for 10 ms. -/
def execHeadPresent (n : Fin 16) (s : State) : Host.Outcome State Fault Refusal :=
  .next (if s.chOn n && !s.flag (F.CHn_BRG_STAT_PRES n) then
      let s1 := (s.put (F.CHn_BRG_STAT_PRES n) 1).raiseCh n 22
      if s1.flag (F.CHn_BRG_CTRL_LINK_EN n) then startIdent n s1 else s1
    else s)

/-- R182: CHn_PRES_N has been high for 1 µs. -/
def execHeadRemoved (n : Fin 16) (s : State) : Host.Outcome State Fault Refusal :=
  .next (if s.chOn n && s.flag (F.CHn_BRG_STAT_PRES n) then
      let cut := s.inWindow n
      let s1 := (s.put (F.CHn_BRG_STAT_PRES n) 0).raiseCh n 22
      let s2 := if s1.linkIsUp n || s1.wstate n != 1 then s1 else s1.raiseCh n 21
      let s3 := (linkOff n 4 s2).inhibit n
      if cut then s3.put (F.CHn_BRG_STAT_PARTH n) 1 else s3
    else s)

/-- Bytes stored as words from an offset on. -/
def storeBytes (a : Nat) (bs : List Byte) (s : State) : State :=
  (List.range ((bs.length + 3) / 4)).foldl (fun (s : State) (i : Nat) =>
    s.setWord (a + 4 * i) (BitVec.ofNat 32 (fieldAt bs (4 * i) 4))) s

/-- Training begins: CHn_BCLK starts and every lane carries the training word (R183). -/
def startTrain (n : Fin 16) (s : State) : State :=
  ((setLink n 2 s).modBrg n fun b =>
    { b with phase := 1, trdy := 0, trainTick := s.tick, nextFsn := 0, outst := none, onLanes := [] }).emit (.train n.val trainWord)

/-- The identity check is refused: STOP, with HEAD_PLUG (R183). -/
def refuseHead (n : Fin 16) (s : State) : State := (setLink n 5 s).raiseCh n 22

/-- R188, R190: the identity record has been read and is checked. -/
def execIdentityReadDone (n : Fin 16) (rec : List Byte) (s : State) : Host.Outcome State Fault Refusal :=
  nextIf (rec.length == 256) <|
    if s.chOn n ∧ s.get (F.CHn_BRG_STAT_LSTATE n) = 1 then
      let magic := fieldAt rec 0 4 == 0x44494855 && fieldAt rec 4 1 == 1
      let crc := fieldAt rec 252 4 == (crc32 (bytesAt rec 0 252)).toNat
      let nn := fieldAt rec 58 2 == s.get (F.CHn_IMG_GEOM_NNOZ n)
      let typ := !s.flag (F.CHn_BRG_HEXP_TYPECHK n) || fieldAt rec 56 2 == s.get (F.CHn_BRG_HEXP_TYPE n)
      let good := magic && crc && nn && typ
      let s1 := (storeBytes (chBase n + 0x41000) rec s).setWord (A.CHn_BRG_IDSTAT n)
        (BitVec.ofNat 32 (b2n good + 2 * b2n (!magic) + 4 * b2n (!crc) + 16 * b2n (!nn) + 32 * b2n (!typ)))
      if good then startTrain n (s1.modBrg n fun b => { b with trimPend := fieldAt rec 116 1 == 1, i2cTries := 0 })
      else refuseHead n s1
    else s

/-- R191: a NACK or a stretch beyond 1 ms: the read is repeated, up to three times; then it fails. -/
def execI2cRetry (n : Fin 16) (s : State) : Host.Outcome State Fault Refusal :=
  .next (
    let b := (s.ch n).brg
    let ident := s.get (F.CHn_BRG_STAT_LSTATE n) == 1
    if s.chOn n && (ident || b.trimPend) then
      if b.i2cTries < 3 then s.modBrg n fun b => { b with i2cTries := b.i2cTries + 1 }
      else if ident then refuseHead n (s.setWord (A.CHn_BRG_IDSTAT n) 8)
      else (s.put (F.CHn_BRG_IDSTAT_I2CERR n) 1).modBrg n fun b => { b with trimPend := false }
    else s)

/-- R189, R190: the trim area has been read; its pages fill the trim window, and TRIMCRC is checked. -/
def execTrimReadDone (n : Fin 16) (trim : List Byte) (s : State) : Host.Outcome State Fault Refusal :=
  nextIf (trim.length == 8192) <|
    if s.chOn n && (s.ch n).brg.trimPend then
      let id := fun i => s.word (chBase n + 0x41000 + 4 * i)
      let pages := min 32 (getBits (id 28) 16 16)
      let nn := getBits (id 14) 16 16
      let ok := (crc32 (bytesAt trim 0 (2 * nn))).toNat == (id 31).toNat
      ((storeBytes (chBase n + 0x42000) (trim.take (256 * pages)) s).put (F.CHn_BRG_IDSTAT_TRIMVALID n) (b2n ok)).modBrg n
        fun b => { b with trimPend := false }
    else s

/-- R183: after 10 µs of IDLE frames the STAT frame for page 0 is sent with FSN 0. -/
def execTrainIdleDone (n : Fin 16) (s : State) : Host.Outcome State Fault Refusal :=
  .next (
    let b := (s.ch n).brg
    if s.chOn n && s.get (F.CHn_BRG_STAT_LSTATE n) == 2 && b.phase == 2 && decide (b.phaseTick + 10 * usTicks ≤ s.tick) &&
        s.lanesFree n then
      newFrame n 3 0 0 [0, 0, 0, 0] [] none (s.modBrg n fun b => { b with phase := 3 })
    else s)

/-- R183: TRAIN has not reached UP within 5 ms of its start. -/
def execTrainTimeout (n : Fin 16) (s : State) : Host.Outcome State Fault Refusal :=
  .next (if s.chOn n && s.get (F.CHn_BRG_STAT_LSTATE n) == 2 && decide ((s.ch n).brg.trainTick + 5 * msTicks ≤ s.tick) then
      leaveLink n 4 3 s
    else s)

/-- R181: 1 ms after DOWN, with AUTORT = 1, the link starts again at IDENT. -/
def execAutoRetrain (n : Fin 16) (s : State) : Host.Outcome State Fault Refusal :=
  .next (if s.chOn n && s.get (F.CHn_BRG_STAT_LSTATE n) == 4 && s.flag (F.CHn_BRG_CTRL_AUTORT n) &&
      s.flag (F.CHn_BRG_CTRL_LINK_EN n) && decide ((s.ch n).brg.downTick + msTicks ≤ s.tick) then
      startIdent n s
    else s)

/-! ## Register writes -/

/-- A write of CHn_BRG_CTRL: LINK_EN = 0 halts a channel whose link is UP and takes the link OFF at the line boundary, LINK_EN = 1
starts it from OFF (R183, R187). LINK_EN = 1 written while a 0 still waits for that boundary leaves the wait as it is; the link then goes
OFF and starts again (DESIGN CHOICE, log 179). -/
def linkEn (n : Fin 16) (v : Word) (s : State) : State :=
  let s1 := s.setWord (A.CHn_BRG_CTRL n) (v &&& 0x73)
  let l := s1.get (F.CHn_BRG_STAT_LSTATE n)
  if getBits v 0 1 = 1 then
    if l = 0 ∧ s1.flag (F.CHn_BRG_STAT_PRES n) then startIdent n s1 else s1
  else if l = 0 then s1
  else settleOff n ((if l = 3 then s1.hold n 2 else s1).modBrg n fun b => { b with offPend := true })

/-- R187: software writes CHn_BRG_CTRL. -/
def execLinkEnWrite (m : Master) (n : Fin 16) (v : Word) (s : State) : Host.Outcome State Fault Refusal :=
  .next (s.wr m (A.CHn_BRG_CTRL n) (linkEn n v))

/-- R177 and CHn_BRG_STATREQ: software requests a status page. -/
def statReq (n : Fin 16) (v : Word) (s : State) : State :=
  let s1 := s.put (F.CHn_BRG_STATREQ_PAGE n) (getBits v 0 4)
  let s2 := if getBits v 29 1 = 1 then s1.put (F.CHn_BRG_STATREQ_DONE n) 0 else s1
  if getBits v 31 1 = 1 ∧ ¬ s2.flag (F.CHn_BRG_STATREQ_BUSY n) then
    (s2.put (F.CHn_BRG_STATREQ_BUSY n) 1).modBrg n fun b => { b with stat := some (getBits v 0 4) }
  else s2

def execStatreqGo (m : Master) (n : Fin 16) (v : Word) (s : State) : Host.Outcome State Fault Refusal :=
  .next (s.wr m (A.CHn_BRG_STATREQ n) (statReq n v))

/-- CHn_BRG_HCFG_DATA: a one-word CFG frame to the head space, refused below 0x1000 (R171). While the link is not UP the word waits with
BUSY set (DESIGN CHOICE, log 161). -/
def hcfgData (n : Fin 16) (v : Word) (s : State) : State :=
  let a := 4 * s.get (F.CHn_BRG_HCFG_ADDR_ADDR n)
  if s.flag (F.CHn_BRG_HCFG_STAT_BUSY n) then s.put (F.CHn_BRG_HCFG_STAT_RES n) 3
  else if a < 0x1000 then s.put (F.CHn_BRG_HCFG_STAT_RES n) 2
  else (s.put (F.CHn_BRG_HCFG_STAT_BUSY n) 1).modBrg n fun b => { b with soft := some (a, v) }

def execHcfgDataWrite (m : Master) (n : Fin 16) (v : Word) (s : State) : Host.Outcome State Fault Refusal :=
  .next (s.wr m (A.CHn_BRG_HCFG_DATA n) (hcfgData n v))

end Sys2Proof.Machine
end

