-- ==== Sys2Proof/Machine/FireTiming.lean ====
section
/-! DEFINITION. The meanings of the commands of fire timing (chapter 6), and the fire timing engine as a participant of
capo transactions (R161, R162). -/

namespace Sys2Proof.Machine

/-! ## Settings -/

/-- Whether channel n's staged fire timing settings can apply: IDLE, FIRE_EN = 0 in effect, ready to arm, or reinstated
and not yet started (R161). -/
def State.ftFree (s : State) (n : Fin 16) : Bool :=
  s.wstate n == 0 || s.wstate n == 3 || !s.flag (F.CHn_FT_CTRL_FIRE_EN n) || s.readyToArm n

/-- The vote of channel n's fire timing on the resulting state t (R162). -/
def voteFt (n : Fin 16) (s t : State) : Bool :=
  let src := t.get (F.CHn_FT_CTRL_SRC n)
  let failed (e : Fin 4) : Bool := (s.fe (feCh n) e).failed
  let up (e : Fin 4) : Bool := t.domOn 4 && t.encEn e
  let track := match encOfSrc src with
    | some e => up e && !failed e
    | none => up 0 && up 1 && !failed 0 && !failed 1
  1 ≤ t.get (F.CHn_FT_PITCH_HI_INT n) && 2 ≤ t.get (F.CHn_FT_CTRL_BKL n) && src ≤ 4 &&
  !(src == 4 && !t.pairEn) &&
  !(t.flag (F.CHn_FT_SOS_FEN n) && t.flag (F.CHn_FT_SOS_BEN n) &&
    t.get (F.CHn_FT_SOS_SOSF n) == t.get (F.CHn_FT_SOS_SOSB n)) &&
  (!t.flag (F.CHn_FT_CTRL_FIRE_EN n) || track)

/-- Whether a row delay of channel n differs between s0 and s. -/
def State.delaysMoved (s0 s : State) (n : Fin 16) : Bool :=
  s.rowDelays n false != s0.rowDelays n false || s.rowDelays n true != s0.rowDelays n true

/-- New row delays: what was screened ahead of a page that has not begun is screened again under them (R67, R158). -/
def dropUndelayed (n : Fin 16) (s0 s : State) : State :=
  if !s0.delaysMoved s n then s
  else match (s.ch n).work.bands.find? fun b =>
      b.state != .done && b.state != .retired && !(s.ch n).ft.pageDly.any (fun x => x.1 == b.page) with
    | some b => dropAhead n b.page s
    | none => s

/-- The fire timing engine after its staged fields were written, s0 being the state before: the position of a FOLLOW page
keeps its distance of one PITCH from the last line decided (R152), the trackers follow SRC (R125), row delays act from the next
page on, FIRE_EN = 1 re-arms a line that waits for it, and a line position that is unavailable under FIRE_EN = 1, where it was
not before, raises POS_LOST (R127). -/
def applyFt (n : Fin 16) (s0 s : State) : State :=
  let en := s.flag (F.CHn_FT_CTRL_FIRE_EN n)
  let s1 := s.modFt n fun f =>
    { f with x := f.x - s0.pitch n + s.pitch n,
             fwd := if s.get (F.CHn_FT_CTRL_SRC n) = s0.get (F.CHn_FT_CTRL_SRC n) then f.fwd else 0,
             latchMark := if en then f.latchMark else none, latchSos := if en then f.latchSos else none }
  let s2 := dropUndelayed n s0 (noteMoved n s0 (withFrets (syncTrackers n) s1))
  let s3 := if s2.wstate n = 1 ∧ ¬ (s2.ch n).ft.armed then s2.put (F.CHn_FT_STAT_STATE n) (b2n en) else s2
  let lost := en && s3.posUnavailable n && !(s0.flag (F.CHn_FT_CTRL_FIRE_EN n) && s0.posUnavailable n)
  let s4 := if lost then posLost n s3 else s3
  noteReady n s0 (if s4.wstate n = 1 ∧ (s4.ch n).ft.waitArm ∧ en then rearm n s4 else s4)

/-- Committed settings of channel n's fire timing apply if they can (R161). -/
def settleFt (n : Fin 16) (s : State) : State :=
  if s.ftFree n then applyAll (isPart (.ch n 3)) (applyFt n) s else s

/-! ## Arming -/

/-- The capture of an SOS event: the tracker's position in the first of the SOSMIN samples (R153). -/
def State.sosCapture (s : State) (n : Fin 16) : BitVec 64 :=
  let t0 := s.tick - 2 * (max 1 (s.get (F.CHn_FT_SOS_SOSMIN n)) - 1)
  match (s.ch n).ft.cntHist.find? fun x => x.1 ≤ t0 with
  | some x => x.2
  | none => s.linePos n

/-- Whether input i is enabled in channel n, for forward or for backward pages (R153). -/
def State.sosFwd (s : State) (n : Fin 16) (i : Fin 8) : Bool :=
  s.flag (F.CHn_FT_SOS_FEN n) && s.get (F.CHn_FT_SOS_SOSF n) == i.val
def State.sosBwd (s : State) (n : Fin 16) (i : Fin 8) : Bool :=
  s.flag (F.CHn_FT_SOS_BEN n) && s.get (F.CHn_FT_SOS_SOSB n) == i.val

/-- Whether a lower-numbered enabled input of channel n gives an event in the same sample: a tick passes only on an empty queue, so
what waits there happens in this one (R153). -/
def State.lowerSos (s : State) (n : Fin 16) (i : Fin 8) : Bool :=
  s.pending.any fun c => match c with
    | .sosEvent k m => m == n && decide (k.val < i.val) && (s.sosFwd n k || s.sosBwd n k)
    | _ => false

/-- R153: input i has been high for SOSMIN samples in channel n's front end. Of two events in one sample of 5 ns the
lower-numbered input arms and the other is ignored. -/
def execSosEvent (i : Fin 8) (n : Fin 16) (s : State) : Host.Outcome State Fault Refusal :=
  let fwd := s.sosFwd n i
  let bwd := s.sosBwd n i
  .next (if s.chOn n && (fwd || bwd) && !s.lowerSos n i && (s.ch n).ft.sosTick.map (· / 2) != some (s.tick / 2) then
      sosEvent bwd (s.sosCapture n) n (s.modFt n fun f => { f with sosTick := some s.tick })
    else s)

/-- R152, R154, R161: a channel ready to arm takes its committed settings, and arms under FOLLOW or from a latched
event. -/
def execPageArm (n : Fin 16) (s : State) : Host.Outcome State Fault Refusal :=
  .next (if s.readyToArm n then
      let s := settleFt n s
      match s.readyToArm n, s.armKind n, (s.ch n).ft.latchMark, (s.ch n).ft.latchSos with
      | true, some 0, _, _ => armPage n (s.pageDir n) false (s.ch n).ft.x s
      | true, some 1, some p, _ => tryArm n false false (s.markX n false p) s
      | true, some 2, _, some (cap, back) => tryArm n back true (s.sosX n cap back) s
      | _, _, _, _ => s
    else s)

/-- R155, R156: a halt request reaches the fire timing engine. It is taken as a fault reaction's (DESIGN CHOICE, log 41). -/
def execHaltRequest (n : Fin 16) (s : State) : Host.Outcome State Fault Refusal :=
  .next (if s.chOn n then s.hold n 2 else s)

/-! ## Decision -/

/-- Whether the pending line is reached by count (R146, R147). -/
def Ft.byCount (f : Ft) : Bool := reached f.h (pos16 f.x)

/-- The expected duration of the current count interval (R146). -/
def State.expectT (s : State) (n : Fin 16) : Nat :=
  let f := (s.ch n).ft
  if s.flag (F.CHn_FT_CTRL_INTMODE n) then
    (clampI (f.t1 / 2 : Nat) (2 * f.t1 : Nat) (2 * (f.t1 : Int) - f.t2)).toNat
  else f.t1

/-- XF, or on the secondary (X − H) / K in u0.16, rounded down and saturated; none where H and X lie in different counts (R146,
R147; that H == XI compares integer parts there is DEDUCED, log 132). -/
def State.fracAhead (s : State) (n : Fin 16) : Option Nat :=
  let f := (s.ch n).ft
  let x := pos16 f.x
  let d := (x - f.h).toInt
  if x >>> 16 ≠ f.h >>> 16 ∨ d < 0 then none
  else if s.get (F.CHn_FT_CTRL_SRC n) = 4 ∧ (s.pairOf (feCh n)).onSec then
    some (min 65535 (d * 2 ^ 24 / (s.get F.POS_PAIR_K_K : Int)).toNat)
  else some d.toNat

/-- Whether the pending line is reached by interpolation (R146). -/
def State.byTime (s : State) (n : Fin 16) : Bool :=
  let f := (s.ch n).ft
  s.get (F.CHn_FT_CTRL_BKL n) ≤ f.fwd && f.t1 != 0xFFFFFF && s.q n == f.h &&
  match s.fracAhead n with
  | some xf => (xf * s.expectT n + 32768) / 65536 ≤ s.tick - f.tl
  | none => false

/-- The fine delay of the page's direction (R148). -/
def State.fdly (s : State) (n : Fin 16) : Nat :=
  if s.pageDir n then s.get (F.CHn_FT_FDLY_FDLYB n) else s.get (F.CHn_FT_FDLY_FDLYF n)

/-- The page's last line, trailer lines included, has been decided: no page is armed until the next (R152). -/
def endPage (n : Fin 16) (s : State) : State :=
  if s.pageOver n then
    (s.modFt n fun f => { f with armed := false, excursion := false }).put (F.CHn_FT_STAT_STATE n) 1
  else s

/-- Lines of its page from a line to the next one to be decided: 1 but for lines skipped, which keep their place in the grid. -/
def linesOn (l : Line) (p : Nat × Nat) : Nat := if p.1 = l.page then p.2 - l.l else 1

/-- The line in the duty limiter is decided (R143, R146, R148). Where the next one lies in the middle of a later page, that page is
re-armed as on RESUME, with its own direction and arming kind (R157; DESIGN CHOICE, log 167). -/
def decide' (n : Fin 16) (d : DutyDec) (s : State) : State :=
  let l := d.line
  let next := (s.ch n).work.afterLine l
  let dec : Decided :=
    { duty := d, fireTick := s.tick + 14 + s.fdly n,
      refired := (s.ch n).work.refire == some (l.seq, l.line), retx := (s.ch n).brg.retxed,
      altEnc := s.get (F.CHn_FT_CTRL_SRC n) == 4 && (s.pairOf (feCh n)).onSec,
      dir := s.pageDir n, sosk := (s.ch n).ft.sosk }
  let s1 := s.modFt n fun f => { f with x := f.x + BitVec.ofNat 80 (linesOn l next) * s.pitch n, decided := [dec], decidedSince := true }
  let s2 := (s1.modDut n fun x => { x with dec := none }).modBrg n fun b =>
    { b with sent := false, acked := false, retxed := false }
  let s3 := s2.modWork n fun w => { w with decPage := next.1, decL := next.2, refire := none }
  let s4 := capoCond 1 n (s3.wrapAdd (F.CHn_FT_LINES_LINES n) 1)
  if next.1 = l.page then endPage n s4 else rearm n (toSkipKind n s4)

/-- The halt of R97. -/
def overlapHalt (n : Fin 16) (s : State) : State :=
  ((s.put (F.CHn_WAV_STAT_OVERLAP n) 1).raiseCh n 15).hold n 2

/-- The halt of R178 for a line whose frame is not acknowledged at its decision tick. -/
def lateHalt (n : Fin 16) (s : State) : State :=
  (((s.put (F.CHn_BRG_STAT_LATE n) 1).bump (F.CHn_BRG_CNT2_LATECNT n) 1).raiseCh n 21).hold n 2

/-- R29, R146, R178: in this tick the pending line is reached. With the checks of R97 and R178 passed it is decided; else the channel
halts at the line boundary. -/
def execLineDecide (n : Fin 16) (s : State) : Host.Outcome State Fault Refusal :=
  .next (match s.pendingLine n with
    | none => s
    | some (_, _, pg, l) =>
      let f := (s.ch n).ft
      let ready := (s.releasedLines n pg l).any fun x => x.l == l
      if s.booted && s.chOn n && s.wstate n == 1 && f.armed && pg == (s.ch n).work.decPage && ready && (f.byCount || s.byTime n) then
        if s.tick + 14 + s.fdly n < s.earliestFire n then overlapHalt n s
        else match (s.ch n).dut.dec with
          | some d =>
            if d.line.page = pg ∧ d.line.l = l ∧ s.frameAcked n ∧ f.decided.isEmpty then
              noteReady n s (decide' n d s)
            else lateHalt n s
          | none => lateHalt n s
      else s)

/-! ## Fire -/

/-- The ledger flags of a fired line: SINGLE, RETX, ALTENC in bits 2 to 4 of byte 7 (R50). -/
def Decided.flags (d : Decided) : Nat := 4 * b2n d.duty.line.single + 8 * b2n d.retx + 16 * b2n d.altEnc

/-- The band of a fired line counts it; with a refired line, the lines skipped behind it count as resolved (R44, R48, R58). -/
def bandFired (n : Fin 16) (d : Decided) (s : State) : State :=
  let l := d.duty.line
  let s1 := modBand n l.seq (fun b =>
    { b with fired := b.fired + 1, lastTime := s.chTimeAt n d.fireTick, lastBoot := s.boot.bootCnt,
             state := if b.state = .done ∨ b.state = .retired then b.state else .firing }) s
  s1.modWork n fun w =>
    let p := if d.refired then (w.decPage, w.decL) else (l.page, l.l + 1)
    { w with firedPage := p.1, firedL := p.2, skipTo := if d.refired then none else w.skipTo,
             skipKind := if d.refired then none else w.skipKind, fireTicks := d.fireTick :: w.fireTicks }

/-- The frames of a FIRE: one on each enabled port, its first sample at port time t (R96). -/
def State.framesAt (s : State) (n : Fin 16) (bank tab phi t : Nat) (ds : List Nat) : List PortFrame :=
  ([0, 1].filter (s.portEn n)).map fun p => { port := p, start := t, lanes := s.frameOf n p bank tab phi ds }

/-- The frames to be measured after one starts at port time t on port SRC: those before it end there, and it joins them if its
table is to be measured (R99). `prev` is the end of the frame before it. -/
def State.measAt (s : State) (n : Fin 16) (tab t : Nat) (prev : Option Nat) : List Meas :=
  let ms := (s.ch n).wav.meas
  if !s.portEn n (s.get (F.CHn_WAV_WFB_SRC n)) then ms
  else
    ms.map (fun (x : Meas) => { x with stop := x.stop.or (some t) }) ++
      if tab = s.get (F.CHn_WAV_WFB_TAB n) then
        [{ start := t, stop := none, clean := prev.all fun e => decide (e + 320 ≤ t),
           wfb := s.word (A.CHn_WAV_WFB n), win := s.word (A.CHn_WAV_WFBWIN n), tgt := s.word (A.CHn_WAV_WFBTGT n),
           lim := s.word (A.CHn_WAV_WFBLIM n) }]
      else []

/-- A frame starts on each enabled port and the firing window opens (R91, R93, R96, R97). -/
def startWave (n : Fin 16) (d : Decided) (s : State) : State :=
  let l := d.duty.line
  let tab := s.tabOf n l.pass
  let bank := s.get (F.CHn_WAV_BANK_BANK n)
  let ds := s.segDurs n bank tab
  let t0 := d.fireTick + s.get (F.CHn_WAV_DLY_WDLY n)
  let phi := s.phaseAt n t0
  let src := s.get (F.CHn_WAV_WFB_SRC n)
  let s1 := match (s.ch n).wav.newScale with
    | some v =>
      if s.portEn n src then
        (s.put (if src = 0 then F.CHn_WAV_SCALE_SC0 n else F.CHn_WAV_SCALE_SC1 n) v).modWav n fun x =>
          { x with newScale := none }
      else s
    | none => s
  let fin := s1.waveEndOf n d.fireTick l.pass
  let prev := match (s.ch n).wav.win with
    | some w => some (w.endTick - w.segDly)
    | none => (s.ch n).wav.lastFrameEnd
  let slot := (s.get (F.CHn_LED_COUNT_COUNT n) + 255) % 256
  let frames := s1.framesAt n bank tab phi (t0 + phi) ds
  let s2 := s1.modWav n fun x =>
    { x with win := some { seq := l.seq, line := l.line, slot := slot, fireTick := d.fireTick,
                           segDly := s.get (F.CHn_WAV_DLY_SEGDLY n), endTick := fin, tab := tab,
                           bank := bank, segDone := 0, startTicks := startsFrom t0 ds },
             lastFrameEnd := prev, waveEnd := some fin,
             frames := (x.frames.filter fun f => decide (s.tick < f.start + 8 * f.lanes.length)) ++ frames,
             meas := s1.measAt n tab (t0 + phi) prev }
  let s3 := s2.put (F.CHn_WAV_STAT_FLEN n) (total ds)
  frames.foldl (fun (s : State) (f : PortFrame) => s.emit (.wave n.val f.port tab phi f.lanes)) s3

/-- A line of page `pg` is fired at tick t: the maps out of effect from that page on print no more (R85, R233). -/
def passMaps (n : Fin 16) (pg t : Nat) (s : State) : State :=
  s.modImg n fun i => { i with deadWas := i.deadWas.map fun x =>
    if x.tick.isNone ∧ x.page ≤ pg then { x with tick := some t } else x }

/-- The effects of a FIRE edge (R48, R50, R51, R96, R104). Bands whose last line's window is over by then are DONE first (R45). Settings of
the duty limiter that were committed after the decision apply before the line is charged (R106; DESIGN CHOICE, log 176). -/
def fire (n : Fin 16) (d : Decided) (s0 : State) : State :=
  let l := d.duty.line
  let s := settleDone n s0
  let s1 := (s.modFt n fun f => { f with decided := [] }).emit (.fire n.val)
  let s2 := ledAppend n l.seq l.line (if d.refired then 2 else 0) d.flags (s.chTimeAt n d.fireTick) d.dir d.sosk s1
  let s3 := startWave n d (bandFired n d (passMaps n l.page d.fireTick s2))
  chargeDuty n d.duty (applyDuty n s3)

/-- R148: the FIRE edge of the decided line appears at the balls. -/
def execLineFire (n : Fin 16) (s : State) : Host.Outcome State Fault Refusal :=
  .next (match (s.ch n).ft.decided with
    | d :: _ => if s.booted ∧ d.fireTick ≤ s.tick then fire n d s else s
    | [] => s)

end Sys2Proof.Machine
end

