-- ==== Sys2Proof/Machine/Inspection.lean ====
section
/-! DEFINITION. The meanings of the commands of the inspection cameras (chapter 9), but for the healing round. -/

namespace Sys2Proof.Machine

/-! ## Frames and lines -/

/-- The ladder groups in effect that name port p with EN = 1. -/
def State.ladsOf (s : State) (p : Fin 2) : List LadSet :=
  ((List.range 16).filter fun n => s.flag (F.INS_LADn_CFG_EN n) && s.get (F.INS_LADn_CFG_PORT n) == p.val).map fun n =>
    { n := n, words := [A.INS_LADn_CFG n, A.INS_LADn_X0 n, A.INS_LADn_PXN n, A.INS_LADn_Y n, A.INS_LADn_THR n,
        A.INS_LADn_HEALMAX n].map s.word }

/-- Whether a frame still owes lines or analyses; a frame that owes nothing is forgotten. -/
def CamPort.owes (c : CamPort) (f : CamFrame) : Bool :=
  (c.fifo.any fun l => l.frame == f.frame) || (f.lad && f.lads.any fun l => !f.ladDone.contains l.n) ||
  (f.dens && decide (0 < f.dlines) && f.lads.any fun l => !f.densDone.contains l.n)

/-- R217, R221: FVAL rises: a frame begins with the settings in effect, and takes what was armed. Its number is FRAMECNT as it counts the
frame (R226; DESIGN CHOICE, log 185). -/
def execFrameStart (p : Fin 2) (s : State) : Host.Outcome State Fault Refusal :=
  .next (if s.camOn && s.flag (F.INS_Pp_CFG_EN p) && !s.inFrame p then
      let s1 := s.wrapAdd (F.INS_Pp_STAT_FRAMECNT p) 1
      let set := [A.INS_Pp_CFG p, A.INS_Pp_FRAME p, A.INS_Pp_ALIGN p, A.INS_Pp_DENS p, A.INS_Pp_TAPCFG p].map s.word
      let byp := s.flag (F.INS_Pp_CFG_BYPASS p)
      let mode := s.get (F.INS_Pp_CFG_LADMODE p)
      let f : CamFrame :=
        { frame := s1.get (F.INS_Pp_STAT_FRAMECNT p), set := set, lads := s.ladsOf p,
          lad := !byp && (mode == 2 || (mode == 1 && s.flag (F.INS_Pp_ARM_LAD p))),
          dens := !byp && s.flag (F.INS_Pp_ARM_DENS p), starts := [], seen := [], ink := [], flags := 0, ended := false,
          ladDone := [], densDone := [] }
      (putInFrame p 1 (s1.setWord (A.INS_Pp_ARM p) 0)).modCam p fun c =>
        { c with startTick := s.tick, waitLow := false, next := 0, cur := none, frames := c.frames.filter c.owes ++ [f],
                 raised := c.raised.filter fun x => c.frames.any fun g => c.owes g && g.frame == x.2 }
    else s)

/-- R217, R220: LVAL rises: the next line begins, unless it lies beyond the frame or finds the FIFO full. -/
def execLineStart (p : Fin 2) (s : State) : Host.Outcome State Fault Refusal :=
  .next (
    let c := s.cam p
    match c.now with
    | some f =>
      if s.camOn && s.inFrame p && !c.waitLow && c.cur.isNone then
        let s1 := s.modCam p fun c =>
          { c.modFrame f.frame fun f =>
              { f with starts := (c.next, s.devTime, (List.range 16).map s.inkTemp) :: f.starts } with next := c.next + 1 }
        if f.height ≤ c.next then flagFrame p f.frame 2 s1
        else if 4 ≤ c.fifo.length then camEvent p 73 f.frame (s1.bump (F.INS_Pp_CNT1_DROP p) 1)
        else s1.modCam p fun c' => { c' with cur := some (c.next, s.devTime) }
      else s
    | none => s)

/-- A complete line of a bypassed port goes to the tap as POINT 1 (R227); any other waits in the FIFO. -/
def takeLine (p : Fin 2) (f : CamFrame) (l : CamLine) (s : State) : State :=
  if f.bypass then (if f.point = 0 then s else tapLine p f l.num 1 l.time (px6 l.px) s)
  else s.modCam p fun c => { c with fifo := c.fifo ++ [l] }

/-- The pixels of a line: the samples on the PCLK edge that EDGE chooses in which FVAL, LVAL and DVAL are all 1, each sliced into its
three components (R215). -/
def pixelsOf (falling : Bool) (cycles : List (CamSample × CamSample)) : List (Nat × Nat × Nat) :=
  ((cycles.map fun c => if falling then c.2 else c.1).filter fun x => x.fval && x.lval && x.dval).map fun x =>
    triple fun k => x.d.toNat / 2 ^ (12 * k) % 4096

/-- R215, R217: LVAL falls: the line is taken, cut to WIDTH, or a runt. -/
def execLineEnd (p : Fin 2) (cycles : List (CamSample × CamSample)) (s : State) : Host.Outcome State Fault Refusal :=
  .next (
    let c := s.cam p
    match c.now, c.cur with
    | some f, some (k, t) =>
      if s.camOn && s.inFrame p && !c.waitLow then
        let px := pixelsOf (getBits (f.word 0) 3 1 == 1) cycles
        let s1 := s.modCam p fun c => { c with cur := none }
        if px.length < f.width then runt p f.frame s1
        else
          let s2 := if f.width < px.length then s1.bump (F.INS_Pp_CNT2_LONGLINE p) 1 else s1
          takeLine p f { frame := f.frame, num := k, time := t, px := px.take f.width } s2
      else s
    | _, _ => s)

/-- The port's staged settings apply (R221). -/
def applyPort (p : Fin 2) (s : State) : State := applyAll (fun a => s.insPort p a) (fun _ s => s) s

/-- R217, R218, R221: FVAL is seen low: the frame ends, the commit condition of the port is met, and its staged settings apply.
A port with EN = 0 captures nothing, yet sees the boundary (DEDUCED, log 54). -/
def execFrameEnd (p : Fin 2) (s : State) : Host.Outcome State Fault Refusal :=
  .next (if s.camOn then
      let c := s.cam p
      let s1 := match c.now with
        | some f => if s.inFrame p then putInFrame p 0 (if c.waitLow then s else closeFrame p f s) else s
        | none => s
      applyPort p (capoCond 4 p (s1.modCam p fun c => { c with waitLow := false, cur := none }))
    else s)

/-- R217: FVAL is still 1 FTMO ms after its rise: the frame is closed for analysis, SHORT and TMO. A line being received then is missing
and counts as no runt (DESIGN CHOICE, log 181). -/
def execFrameTimeout (p : Fin 2) (s : State) : Host.Outcome State Fault Refusal :=
  .next (
    let c := s.cam p
    match c.now with
    | some f =>
      if s.camOn && s.inFrame p && !c.waitLow && f.ftmo != 0 && decide (c.startTick + f.ftmo * msTicks ≤ s.tick) then
        (flagFrame p f.frame 4 (flagFrame p f.frame 1 s)).modCam p fun c =>
          { c.modFrame f.frame fun f => { f with ended := true } with waitLow := true, cur := none }
      else s
    | none => s)

/-! ## The pipeline -/

/-- The port whose line the free pipeline takes (R219). -/
def State.arbiter (s : State) : Option (Fin 2) :=
  let prio : Fin 2 := if s.flag F.INS_CTRL_PRIO then 1 else 0
  let other : Fin 2 := if s.ins.lastB then 0 else 1
  let last : Fin 2 := if s.ins.lastB then 1 else 0
  if 2 ≤ (s.cam prio).fifo.length then some prio
  else if !(s.cam other).fifo.isEmpty then some other
  else if !(s.cam last).fifo.isEmpty then some last
  else none

/-- R219, R222: the free pipeline takes one complete line and processes it; it is busy (WIDTH + 16) × 2.5 ns, and from throttle step
2 on, where it skips every second cycle, twice as long (R269). -/
def execPipelineTake (s : State) : Host.Outcome State Fault Refusal :=
  .next (if s.camOn && decide (s.ins.pipeTill ≤ s.tick) then
      match s.arbiter with
      | some p =>
        match (s.cam p).fifo with
        | l :: rest =>
          match (s.cam p).frameOf l.frame with
          | some f =>
            let s1 := s.modCam p fun c => { c with fifo := rest }
            processLine p l f
              { s1 with ins := { s1.ins with lastB := p == 1, pipeTill := s.tick + (f.width + 16) * (if 2 ≤ s.get F.THM_STAT_STEP then 2 else 1) } }
          | none => s.modCam p fun c => { c with fifo := rest }
        | [] => s
      | none => s
    else s)

/-! ## Analysis -/

/-- The first frame of a port in which channel n's ladder is due, its region past; the group with it. -/
def CamPort.ladDue (c : CamPort) (n : Nat) : Option (CamFrame × LadSet) :=
  c.frames.findSome? fun f =>
    match f.lads.find? fun l => l.n == n with
    | some l =>
      if f.lad && !f.ladDone.contains n && c.past f (l.fin - 1 + alignMax (f.word 2)) then some (f, l) else none
    | none => none

/-- Region flags of a result: a line of the region missing, a window clipped, AREF = 0 (R232). -/
def regionFlags (f : CamFrame) (l : LadSet) (ls : List Nat) (nn aref : Nat) : Nat :=
  f.flags % 8 + 8 * b2n (ls.any fun i => (f.inkLine l.plane i).isNone) +
  16 * b2n ((List.range nn).any fun j => decide (l.lo j < 0) || decide ((f.width : Int) ≤ l.hi j)) + 32 * b2n (aref == 0)

/-- Nozzle j's offset C − xc in u.16: computed, or a free value where A is 0 and R228 computes no C (log 55). -/
def State.offsetOf (s : State) (l : LadSet) (j a m : Nat) : Int :=
  if 0 < a then l.lo j * 65536 + (m * 65536 / a : Nat) - l.xc j
  else ((Config.freeWord (s.free + 2 * j)).toNat + 2 ^ 32 * ((Config.freeWord (s.free + 2 * j + 1)).toNat % 16) : Nat) - l.xc j

/-- A result word's bits for a nozzle that is not measured: NOTMEAS, the other fields free (log 55). -/
def State.notMeas (s : State) (j : Nat) : Nat :=
  ((Config.freeWord (s.free + 2 * j) &&& 0xFFFFFFF3) ||| 4).toNat

/-- Whether frame k of a port began after its count stood at c. -/
def frameAfter (k c : Nat) : Bool :=
  let w := 2 ^ (F.INS_Pp_STAT_FRAMECNT 0).width
  let d := (k + w - c % w) % w
  0 < d && decide (2 * d < w)

/-- Results of a frame join those of the same frame, the frames of a port in their order (R235). -/
def putSet (h : HealSet) : List HealSet → List HealSet
  | [] => [h]
  | x :: r =>
    if x.port = h.port ∧ x.frame = h.frame then { x with chans := x.chans ++ h.chans } :: r
    else if x.port = h.port ∧ frameAfter x.frame h.frame then h :: x :: r
    else x :: putSet h r

/-- The analysis of channel n's ladder in a frame (R228 to R232); its results, with the nozzles live when their marks were
printed, wait for the healing round (R233, R235). -/
def analyseLadder (n : Fin 16) (p : Fin 2) (f : CamFrame) (l : LadSet) (printed : List Nat) (s : State) : State :=
  let nn := s.get (F.CHn_IMG_GEOM_NNOZ n)
  let meas (j : Nat) : Bool := f.measured l (l.rungLines (j % l.rungs)) j
  let am := (List.range nn).map fun j => if meas j then markArea (f.cols l (l.rungLines (j % l.rungs)) j) else (0, 0)
  let ms := (List.range nn).filter meas
  let med := if ms.isEmpty then 0 else lowerMedian (ms.map fun j => (am.getD j (0, 0)).1)
  let aref := if med = 0 then 0 else max med (l.anom * 64)
  let res : List (NozRes × Nat) := (List.range nn).map fun j =>
    let x := am.getD j (0, 0)
    if aref = 0 ∨ ¬ meas j then ({ meas := false, cls := 0 }, s.notMeas j)
    else
      let off := s.offsetOf l j x.1 x.2
      let c := ladClass l aref x.1 off
      ({ meas := true, cls := c }, ladWord c aref x.1 off)
  let cnt (c : Nat) : Nat := (res.filter fun x => x.1.meas && x.1.cls == c).length
  let ls := (List.range l.rungs).flatMap l.rungLines
  let time := s.lineTime f (l.fin - 1 + alignMax (f.word 2)) (2 * nn)
  let s1 := { s with free := s.free + 2 * nn + 2 }
  let s2 := (((s1.put (F.INS_LADn_RES0_OK n) (cnt 0)).put (F.INS_LADn_RES0_WEAK n) (cnt 1)).put
    (F.INS_LADn_RES1_DEV n) (cnt 2)).put (F.INS_LADn_RES1_MISS n) (cnt 3)
  let s3 := writeResult 0 n p (regionFlags f l ls nn aref) nn (res.filter fun x => x.1.meas).length aref f.frame time
    (res.flatMap fun x => leBytes 4 x.2) s2
  let s4 := s3.modCam p fun c => c.modFrame f.frame fun f => { f with ladDone := n.val :: f.ladDone }
  if !l.heal then s4
  else
    let h : HealRes := { n := n.val, res := res.map (·.1), live := (List.range nn).map fun j => s.liveAt n (printed.getD (j % l.rungs) s.tick) j }
    { s4 with ins := { s4.ins with pend := putSet { port := p.val, frame := f.frame, chans := [h] } s4.ins.pend } }

/-- R228 to R230, R232: a ladder region of channel n completes, and its nozzles are measured and classified. -/
def execLadderAnalysis (n : Fin 16) (printed : List Nat) (s : State) : Host.Outcome State Fault Refusal :=
  .next (if s.domOn 6 then
      match (s.cam 0).ladDue n, (s.cam 1).ladDue n with
      | some (f, l), _ => analyseLadder n 0 f l printed s
      | none, some (f, l) => analyseLadder n 1 f l printed s
      | none, none => s
    else s)

/-- The first frame of a port in which channel n's density profile is due. -/
def CamPort.densDue (c : CamPort) (n : Nat) : Option (CamFrame × LadSet) :=
  c.frames.findSome? fun f =>
    match f.lads.find? fun l => l.n == n with
    | some l =>
      if f.dens && decide (0 < f.dlines) && !f.densDone.contains n && c.past f (f.dy0 + f.dlines - 1 + alignMax (f.word 2)) then
        some (f, l) else none
    | none => none

/-- The density profile of channel n in a frame (R231, R232), and the gains the Tuner derives from it (R250). -/
def profile (n : Fin 16) (p : Fin 2) (f : CamFrame) (l : LadSet) (s : State) : State :=
  let nn := s.get (F.CHn_IMG_GEOM_NNOZ n)
  let ls := (List.range f.dlines).map (f.dy0 + ·)
  let dens (j : Nat) : Option Nat :=
    if f.measured l ls j then
      let cs := f.cols l ls j
      some (if cs.isEmpty then (Config.freeWord (s.free + 2 * j)).toNat % 4096
        else cs.foldl (· + ·) 0 / (ls.length * cs.length))
    else none
  let ds := (List.range nn).map dens
  let data := List.mapIdx (fun j d => match d with
    | some v => v
    | none => (Config.freeWord (s.free + 2 * j)).toNat % 4096 + 32768) ds
  let got := (List.range nn).filterMap fun j => (ds.getD j none).map fun v => (j, v)
  let time := s.lineTime f (f.dy0 + f.dlines - 1 + alignMax (f.word 2)) (2 * nn)
  let s1 := { s with free := s.free + 2 * nn + 2 }
  let s2 := writeResult 1 n p (regionFlags f l ls nn 0) nn got.length 0 f.frame time
    (data.flatMap fun v => leBytes 2 v) s1
  let s3 := s2.modCam p fun c => c.modFrame f.frame fun f => { f with densDone := n.val :: f.densDone }
  let temp := match f.rise (f.dy0 + f.dlines - 1 + alignMax (f.word 2)) with
    | some x => x.2.getD n.val none
    | none => s.inkTemp n.val
  densResults n got temp s3

/-- R231, R232, R250: the density region of channel n completes, and each nozzle's density is measured. -/
def execDensityProfile (n : Fin 16) (s : State) : Host.Outcome State Fault Refusal :=
  .next (if s.domOn 6 then
      match (s.cam 0).densDue n, (s.cam 1).densDue n with
      | some (f, l), _ => profile n 0 f l s
      | none, some (f, l) => profile n 1 f l s
      | none, none => s
    else s)

/-! ## Register accesses -/

/-- R228: a write of 1 to INS_Pp_ARM.LAD. -/
def execLadArm (m : Master) (p : Fin 2) (s : State) : Host.Outcome State Fault Refusal :=
  .next (s.wr m (A.INS_Pp_ARM p) fun s => s.put (F.INS_Pp_ARM_LAD p) 1)

/-- R231: a write of 1 to INS_Pp_ARM.DENS. -/
def execDensArm (m : Master) (p : Fin 2) (s : State) : Host.Outcome State Fault Refusal :=
  .next (s.wr m (A.INS_Pp_ARM p) fun s => s.put (F.INS_Pp_ARM_DENS p) 1)

/-- Whether the bank of a port is in effect, or becomes active in a capo that INS has voted ready (R224); none counts before
READY (R363). -/
def State.insBankHeld (s : State) (p b : Nat) : Bool :=
  s.boot.phase == .ready && (s.get (F.INS_Pp_CFG_BANK p) == b ||
    (s.votedWords (.sys 8) (A.INS_Pp_CFG p)).any fun w => getBits w 2 1 == b)

/-- A write of INS_TBLDATA: the addressed entry is written, or the write discarded; INDEX advances (R224). -/
def tblWrite (v : Word) (s : State) : State :=
  let p := s.get F.INS_TBLADDR_PORT
  let b := s.get F.INS_TBLADDR_BANK
  let t := s.get F.INS_TBLADDR_TABLE
  let i := s.get F.INS_TBLADDR_INDEX
  let s1 := if tblLen t ≤ i ∨ s.insBankHeld p b then s.put F.INS_STAT_ACTWR 1
    else { s with ins := { s.ins with tables := sparseSet tblDefault s.ins.tables (tblKey p b t i) (v.truncate 16) } }
  s1.wrapAdd F.INS_TBLADDR_INDEX 1

/-- R224: a master writes INS_TBLDATA. -/
def execInsTbldataWrite (m : Master) (v : Word) (s : State) : Host.Outcome State Fault Refusal :=
  .next (s.wr m A.INS_TBLDATA (tblWrite v))

/-- The word a read of INS_TBLDATA returns; a free value at an index beyond the table, for which R224 states none (log 55). -/
def State.tblRead (s : State) : Word :=
  let t := s.get F.INS_TBLADDR_TABLE
  let i := s.get F.INS_TBLADDR_INDEX
  if tblLen t ≤ i then s.freeVal &&& 0xFFFF
  else BitVec.ofNat 32 (s.tbl (s.get F.INS_TBLADDR_PORT) (s.get F.INS_TBLADDR_BANK) t i)

/-- R224: a master reads INS_TBLDATA. -/
def execInsTbldataRead (m : Master) (s : State) : Host.Outcome State Fault Refusal :=
  .next (s.rd m A.INS_TBLDATA s.tblRead fun s => s.takeFree.wrapAdd F.INS_TBLADDR_INDEX 1)

end Sys2Proof.Machine
end

