-- ==== Sys2Proof/Machine/Thermal.lean ====
section
/-! DEFINITION. The meanings of the commands of THM (chapter 11): conversions and the neighbour cross-check, head levels,
heaters, throttling and the orderly shutdown. -/

namespace Sys2Proof.Machine

/-! ## Sensors -/

/-- Sensor k, and the state with it changed. -/
def State.sens (s : State) (k : Fin 48) : Sens := s.thm.sens.get k
def modSens (k : Fin 48) (f : Sens → Sens) (s : State) : State :=
  { s with thm := { s.thm with sens := s.thm.sens.set k (f (s.sens k)) } }

/-- Entry i of the thermistor tables in the numbering of THM_TBLADDR. -/
def thmTabDefault (_ : Nat) : BitVec 16 := 0
def State.thmEntry (s : State) (i : Nat) : Int := (sparseGet thmTabDefault s.thm.tables i).toInt

/-- The temperature of a code, in 0.1 °C; none for a code of 0 or 65,535 (R258). -/
def State.thmTemp (s : State) (k : Fin 48) (code : Nat) : Option Int :=
  if code = 0 ∨ code = 65535 then none
  else
    let c := clampI 0 0xFFFFF ((code * 16 : Nat) - s.getS (F.THM_TSs_OFS_SOFS k))
    let tofs := s.getS (F.THM_TSs_OFS_TOFS k)
    let t := if s.flag (F.THM_TSs_CFG_KIND k) ∧ k.val < 40 then
        let b := 33 * s.get (F.THM_TSs_CFG_TBL k) + (c / 32768).toNat
        let f := c % 32768
        s.thmEntry b + floorDiv ((s.thmEntry (b + 1) - s.thmEntry b) * f + 16384) 32768 + tofs
      else floorDiv (c * s.get (F.THM_TSs_CFG_DGAIN k)) (2 ^ 20) - 2731 + tofs
    some (clampI (-2731) 32766 t)

/-- Whether sensor j counts as a healthy neighbour (before R260). -/
def State.thmHealthy (s : State) (j : Fin 48) : Bool :=
  (40 ≤ j.val || s.flag (F.THM_TSs_CFG_EN j)) && !s.flag (F.THM_TSs_STAT_FAIL j) && !s.flag (F.THM_TSs_STAT_FALLBK j) &&
  (s.sens j).has && (s.sens j).own

/-- The values of the healthy neighbours of sensor k. -/
def State.neighbours (s : State) (k : Fin 48) : List Int :=
  let ns := [s.get (F.THM_TSs_NBR_NB0 k), s.get (F.THM_TSs_NBR_NB1 k), s.get (F.THM_TSs_NBR_NB2 k),
    s.get (F.THM_TSs_NBR_NB3 k)].eraseDups
  ns.filterMap fun j => if h : j < 48 then
      (if s.thmHealthy ⟨j, h⟩ then some (s.getS (F.THM_TSs_VAL_VALUE j)) else none)
    else none

/-- Mean of a list of values, truncated. -/
def meanT (vs : List Int) : Int := Int.tdiv (vs.foldl (· + ·) 0) vs.length

/-- Conversions in a row that fail or clear a sensor (THM_XCFG). -/
def State.xcnt (s : State) : Nat := max 1 (s.get F.THM_XCFG_XCNT)

/-- The cross-check of a conversion that yields T: agreement, the learned offset, the suspect state and failure (R260). -/
def crossCheck (k : Fin 48) (t : Int) (s : State) : State :=
  let vs := s.neighbours k
  let d := t - meanT vs
  let bad := s.flag (F.THM_TSs_STAT_LVALID k) && decide (2 ≤ vs.length) &&
    decide (s.get F.THM_XCFG_XTOL < (d - s.getS (F.THM_TSs_STAT_LOFS k)).natAbs)
  if bad then
    let r := (s.sens k).disagree + 1
    let s1 := (modSens k (fun x => { x with disagree := r, agree := 0 }) s).put (F.THM_TSs_STAT_SUSP k) 1
    if s.xcnt ≤ r then s1.put (F.THM_TSs_STAT_FAIL k) 1 else s1
  else
    let s1 := (modSens k (fun x => { x with disagree := 0, agree := x.agree + 1 }) s).put (F.THM_TSs_STAT_SUSP k) 0
    if vs.isEmpty ∨ s.flag (F.THM_TSs_STAT_FAIL k) then s1
    else
      let ds := ((d :: (s.sens k).deltas).take 64)
      let s2 := modSens k (fun x => { x with deltas := ds }) s1
      if ds.length = 64 then
        (s2.put (F.THM_TSs_STAT_LOFS k) (ofSigned 16 (meanT ds))).put (F.THM_TSs_STAT_LVALID k) 1
      else s2

/-- Whether crossings by the value of sensor k are held (R263). -/
def State.crossHeld (s : State) (k : Fin 48) : Bool :=
  s.flag (F.THM_TSs_STAT_SUSP k) && !s.flag (F.THM_TSs_STAT_FAIL k)

/-- The value in effect: its own, substituted from its neighbours, or fallback (R261, R262). While crossings by it are held, the last
one before it stays the one that levels are judged by (R263). -/
def thmValue (k : Fin 48) (s : State) : State :=
  let vs := s.neighbours k
  let put (sub fb v : Nat) (own : Bool) : State :=
    modSens k (fun x => { x with has := true, own := own, sure := if s.crossHeld k then x.sure else some (toSigned 16 v) }) (((s.put (F.THM_TSs_STAT_SUBST k) sub).put
      (F.THM_TSs_STAT_FALLBK k) fb).put (F.THM_TSs_VAL_VALUE k) v)
  if !s.flag (F.THM_TSs_STAT_FAIL k) then
    match (s.sens k).conv with
    | some t => put 0 0 (ofSigned 16 t) true
    | none => s
  else if 2 ≤ vs.length then
    put 1 0 (ofSigned 16 (clampI (-2731) 32766 (meanT vs + s.getS (F.THM_TSs_STAT_LOFS k)))) false
  else put 0 1 0x7FFF false

/-- Whether the value of sensor k calls for the raised rate, each threshold lowered if `low` (R257). -/
def State.wantsRaised (s : State) (k : Fin 48) (low : Bool) : Bool :=
  let v := s.getS (F.THM_TSs_VAL_VALUE k)
  s.flag (F.THM_TSs_STAT_SUSP k) ||
  (40 ≤ k.val && decide (s.getS F.THM_DIELIM0_THR1 - s.get F.THM_CTRL_DMARGIN - (if low then 30 else 0) ≤ v)) ||
  allCh.any fun n => s.get (F.THM_CHn_CFG_HSEN n) == k.val &&
    decide (s.getS (F.THM_CHn_LIM0_WARN n) - s.get (F.THM_CHn_LIM1_MARGIN n) -
      (if low then (s.get (F.THM_CHn_LIM1_HYS n) : Int) else 0) ≤ v)

/-! ## Head levels -/

/-- Channel n's head temperature follows its sensor. -/
def headTemp (n : Fin 16) (s : State) : State :=
  let k := s.get (F.THM_CHn_CFG_HSEN n)
  if h : k < 48 then
    (((s.put (F.THM_CHn_TEMP_TEMP n) (s.get (F.THM_TSs_VAL_VALUE k))).put (F.THM_CHn_TEMP_VALID n)
      (b2n (s.sens ⟨k, h⟩).has)).put (F.THM_CHn_TEMP_SUBST n) (s.get (F.THM_TSs_STAT_SUBST k)))
  else s.setWord (A.THM_CHn_TEMP n) 0

/-- Channel n's head temperature, as a number. -/
def State.headT (s : State) (n : Fin 16) : Int := s.getS (F.THM_CHn_TEMP_TEMP n)

/-- The head temperature of channel n is from a sensor in fallback. -/
def State.headFb (s : State) (n : Fin 16) : Bool := s.get (F.THM_CHn_TEMP_TEMP n) == 0x7FFF

/-- A level that is reached sets its bit and takes its action, once (R264). -/
def levelHit (bit : Fld) (hit : Bool) (f : State → State) (s : State) : State :=
  if hit && !s.flag bit then f (s.put bit 1) else s

/-- The levels of channel n act on a new head temperature; fallback acts at the limit level only (R262, R264). -/
def headLevels (n : Fin 16) (s : State) : State :=
  if !s.flag (F.THM_CHn_TEMP_VALID n) then s
  else
    let t := s.headT n
    let w := s.getS (F.THM_CHn_LIM0_WARN n)
    let s1 := if t < w - s.get (F.THM_CHn_LIM1_HYS n) then s.put (F.THM_WARNSTAT_WARN.bit n) 0 else s
    let s2 := levelHit (F.THM_WARNSTAT_WARN.bit n) (decide (w ≤ t)) (fun s => s.raise 88) s1
    let s3 := levelHit (F.THM_CHSTAT_LIM.bit n) (decide (s.getS (F.THM_CHn_LIM0_LIMIT n) ≤ t))
      (fun s => ((heaterOff n s).raise 89).hold n 2) s2
    levelHit (F.THM_CHSTAT_CRIT.bit n) (decide (s.getS (F.THM_CHn_LIM1_CRIT n) ≤ t) && !s.headFb n)
      (fun s => (s.raise 90).inhibit n) s3

/-! ## The die -/

/-- The on-die sensors that are healthy or substituted (R268). A sensor that has not yet converted counts as healthy. -/
def State.dieUsable (s : State) : List (Fin 48) :=
  (List.finRange 48).filter fun k => 40 ≤ k.val && !s.flag (F.THM_TSs_STAT_FALLBK k) &&
    (!s.flag (F.THM_TSs_STAT_FAIL k) || s.flag (F.THM_TSs_STAT_SUBST k))

/-- The largest value of a list of sensors, none of which is left out but those without a value. -/
def State.hottest (s : State) (ks : List (Fin 48)) : Option Int :=
  (ks.filter fun k => (s.sens k).has).foldl (fun (m : Option Int) (k : Fin 48) =>
    let v := s.getS (F.THM_TSs_VAL_VALUE k)
    match m with
    | some x => some (max x v)
    | none => some v) none

/-- The value by which sensor k crosses levels: the present one, or while crossings by that are held the last one before it (R263). -/
def State.crossT (s : State) (k : Fin 48) : Option Int :=
  if s.crossHeld k then (s.sens k).sure else some (s.getS (F.THM_TSs_VAL_VALUE k))

/-- The largest such value of a list of sensors. -/
def State.crossMax (s : State) (ks : List (Fin 48)) : Option Int :=
  ((ks.filter fun k => (s.sens k).has).filterMap s.crossT).foldl (fun (m : Option Int) (v : Int) => some (match m with
    | some x => max x v
    | none => v)) none

/-- The number of throttle thresholds at or below t when each is lowered by d. -/
def State.stepsAt (s : State) (t d : Int) : Nat :=
  ([s.getS F.THM_DIELIM0_THR1, s.getS F.THM_DIELIM0_THR2, s.getS F.THM_DIELIM1_THR3].filter fun x => x - d ≤ t).length

/-- The throttle step becomes n: THM_THROTTLE (R268). -/
def setStep (n : Nat) (s : State) : State :=
  if s.get F.THM_STAT_STEP = n then s
  else
    let s1 := s.put F.THM_STAT_STEP n
    { s1 with thm := { s1.thm with stepTick := some s.tick } }.raise 92

/-- The orderly shutdown begins: every channel halts (R270). -/
def startShut (s : State) : State :=
  let s1 := s.put F.THM_STAT_SHUT 1
  { s1 with thm := { s1.thm with shutTick := some s.tick } }.eachCh fun n s => s.hold n 2

/-- The die temperature and what follows from it: DIE, DIEFB, STEP and the shutdown level (R268, R270). A crossing by a suspect value is
held, up or down, and those of the other sensors act (R263; DEDUCED, log 83). -/
def dieFollow (s : State) : State :=
  let us := s.dieUsable
  let s1 := match s.hottest us with
    | some t => s.put F.THM_STAT_DIE (ofSigned 16 t)
    | none => s
  let free : Bool := match s.thm.stepTick with
    | some t => t + 10 * msTicks ≤ s.tick
    | none => true
  let s2 := if us.length < 2 then
      let s2 := if s1.flag F.THM_STAT_DIEFB then s1 else s1.put F.THM_STAT_DIEFB 1
      if s2.get F.THM_STAT_STEP = 3 then (if s1.flag F.THM_STAT_DIEFB then s2 else s2.raise 92) else setStep 3 s2
    else
      let s2 := s1.put F.THM_STAT_DIEFB 0
      let cur := s2.get F.THM_STAT_STEP
      let up : Nat := match s.crossMax us with
        | some t => s.stepsAt t 0
        | none => 0
      let down : Nat := match s.crossMax us with
        | some t => s.stepsAt t 29
        | none => cur
      if !free then s2 else if cur < up then setStep up s2 else if down < cur then setStep down s2 else s2
  match s.crossMax us with
  | some t => if s2.getS F.THM_DIELIM1_DSHUT ≤ t ∧ !s2.flag F.THM_STAT_SHUT then startShut s2 else s2
  | none => s2

/-! ## Heaters -/

/-- The duty of heater n is forced to 0 (R267). -/
def State.heaterForced (s : State) (n : Fin 16) : Bool :=
  !s.flag (F.THM_CHn_CFG_HTREN n) || !s.flag (F.THM_CHn_TEMP_VALID n) || s.headFb n || s.flag (F.THM_CHSTAT_LIM.bit n) ||
  s.flag F.FLT_SAFE_ACTIVE || !s.pwr.mainUp

/-- A heater whose duty is forced to 0 takes that duty (R267). -/
def forceHeater (n : Fin 16) (s : State) : State := if s.heaterForced n then heaterOff n s else s

/-! ## Conversions -/

/-- Sensor k has a new value: its rate, the heads and the die that take it, and the Tuner (R257, R264, R268, R241). -/
def sensFollow (k : Fin 48) (s : State) : State :=
  let s1 := s.put (F.THM_TSs_STAT_RAISED k) (b2n (s.wantsRaised k (s.flag (F.THM_TSs_STAT_RAISED k))))
  let s2 := s1.eachCh fun n s => if s.get (F.THM_CHn_CFG_HSEN n) = k.val then
      forceHeater n (if s.crossHeld k then headTemp n s else headLevels n (headTemp n s)) else s
  tunSensor k (if 40 ≤ k.val then dieFollow s2 else s2)

/-- R257 to R264, R268: the slot of an enabled sensor ends with a code. -/
def execSensorConversion (k : Fin 48) (code : Nat) (s : State) : Host.Outcome State Fault Refusal :=
  nextIf (code < 65536)
    (if s.pwr.mainUp && (40 ≤ k.val || s.flag (F.THM_TSs_CFG_EN k)) then
      let s1 := match s.thmTemp k code with
        | some t => crossCheck k t (modSens k (fun x => { x with conv := some t }) s)
        | none => (modSens k (fun x => { x with agree := 0 }) s).put (F.THM_TSs_STAT_FAIL k) 1
      let s2 := thmValue k s1
      let diff (f : Fld) : Bool := s.get f != s2.get f
      let s3 := if (s2.flag (F.THM_TSs_STAT_FAIL k) && !s.flag (F.THM_TSs_STAT_FAIL k)) || diff (F.THM_TSs_STAT_FALLBK k) ||
          (s2.flag (F.THM_TSs_STAT_SUBST k) && !s.flag (F.THM_TSs_STAT_SUBST k)) then s2.raise 91 else s2
      sensFollow k s3
    else s)

/-- A write of 1 to FAIL of sensor k (R261, R262). -/
def sensFailClear (k : Fin 48) (s : State) : State :=
  if s.flag (F.THM_TSs_STAT_FAIL k) && decide (s.xcnt ≤ (s.sens k).agree) then
    let s1 := thmValue k (s.put (F.THM_TSs_STAT_FAIL k) 0)
    sensFollow k (if s.flag (F.THM_TSs_STAT_FALLBK k) then s1.raise 91 else s1)
  else s

/-- R261, R262: a write of 1 to FAIL clears it after XCNT conversions that agreed; fallback ends with it. -/
def execSensorFailClear (m : Master) (k : Fin 48) (s : State) : Host.Outcome State Fault Refusal :=
  .next (s.wr m (A.THM_TSs_STAT k) (sensFailClear k))

/-! ## Heater updates -/

/-- The level of HTRn: in each PWM period of 1,024 converter clocks, high for as many clocks as the duty in effect (R192, R266; the phase
of the periods is a DESIGN CHOICE, log 143). -/
def State.htr (s : State) (n : Fin 16) : Bool :=
  s.pwr.mainUp && !s.flag F.FLT_SAFE_ACTIVE && decide (4 * s.tick % 390625 * 1024 / 390625 < s.dutyNow n)

/-- One heater update of channel n (R266, R267). -/
def heaterUpdate (n : Fin 16) (s : State) : State :=
  if s.heaterForced n then heaterOff n s
  else
    let t := s.headT n
    let set := s.getS (F.THM_CHn_HTR_SET n)
    let dmax := s.get (F.THM_CHn_HTR_DMAX n)
    let e := set - t
    let i := clampI 0 (dmax * 65536) (s.thm.integ.get n + s.get (F.THM_CHn_HTRPI_KI n) * e)
    let u := floorDiv (s.get (F.THM_CHn_HTRPI_KP n) * e + 128) 256 + floorDiv i 65536
    let duty := (clampI 0 dmax u).toNat
    let since : Option Nat := if duty = dmax ∧ t < set - 20 then
        (match s.thm.satTick.get n with
          | some x => some x
          | none => some s.tick)
      else none
    let s1 := (s.put (F.THM_CHn_HTRSTAT_DUTY n) duty).put (F.THM_CHn_HTRSTAT_FORCED0 n) 0
    let s2 := { s1 with thm := { s1.thm with integ := s1.thm.integ.set n i, satTick := s1.thm.satTick.set n since,
                                             pwm := s1.thm.pwm.set n (s.dutyNow n, s.tick) } }
    let sat : Bool := match since with
      | some x => x + 60000 * msTicks ≤ s.tick
      | none => false
    levelHit (F.THM_CHn_HTRSTAT_HTRSAT n) sat (fun s => s.raise 94) s2

/-- R266: every heater is updated from the latest head temperature. -/
def execHeaterUpdate (s : State) : Host.Outcome State Fault Refusal := .next (s.eachCh heaterUpdate)

/-! ## Shutdown and trip -/

/-- Step 3 of R270: the domains CH0 to CH15, INS and CAM are switched off. -/
def shutOff (s : State) : State :=
  let s1 := { s with thm := { s.thm with shutTick := none } }
  startRamp (([6, 7] ++ (List.range 16).map (8 + ·)).foldl (fun (s : State) (d : Nat) => acceptDom d false s) s1)

/-- R270 steps 2 and 3: every channel has halted, or 200 µs have passed since the request. -/
def execThmShut (s : State) : Host.Outcome State Fault Refusal :=
  .next (match s.thm.shutTick with
    | some t =>
      let halted := allCh.all fun n => s.wstate n != 1 && (s.ch n).ft.decided.isEmpty && !s.inWindow n
      if halted ∨ t + 200 * usTicks ≤ s.tick then shutOff ((s.raise 93).enterSafe F.FLT_SAFE_THERMAL) else s
    | none => s)

/-- R271: an on-die comparator has stayed at 125 °C for 100 µs. -/
def execDieTrip (s : State) : Host.Outcome State Fault Refusal :=
  .next (if s.pwr.mainUp then
      shutOff (((s.put F.THM_STAT_TRIP 1).raise 93).enterSafe F.FLT_SAFE_THERMAL)
    else s)

/-- A write of THM_STAT: SHUT and TRIP clear only when Td is below DSHUT − 10.0 °C (R270, R271); ACTWR as W1C does. -/
def thmStatWrite (v : Word) (s : State) : State :=
  let cool : Bool := s.getS F.THM_STAT_DIE < s.getS F.THM_DIELIM1_DSHUT - 100
  let s1 := if getBits v 19 1 = 1 ∧ cool then
      let s1 := s.put F.THM_STAT_SHUT 0
      { s1 with thm := { s1.thm with shutTick := none } }
    else s
  let s2 := if getBits v 20 1 = 1 ∧ cool then s1.put F.THM_STAT_TRIP 0 else s1
  if getBits v 21 1 = 1 then s2.put F.THM_STAT_ACTWR 0 else s2

/-- R270, R271: a write of THM_STAT. -/
def execThmShutClear (m : Master) (v : Word) (s : State) : Host.Outcome State Fault Refusal :=
  .next (s.wr m A.THM_STAT (thmStatWrite v))

/-- A write of THM_CHSTAT: LIM and CRIT clear only below the level less HYS and out of fallback (R265). -/
def chstatWrite (v : Word) (s : State) : State :=
  (s.eachCh fun n s =>
    let hys : Int := s.get (F.THM_CHn_LIM1_HYS n)
    let hot (level : Int) : Bool := s.flag (F.THM_CHn_TEMP_VALID n) && (s.headFb n || decide (level - hys ≤ s.headT n))
    let s1 := if bitAt v.toNat n.val && !hot (s.getS (F.THM_CHn_LIM0_LIMIT n)) then s.put (F.THM_CHSTAT_LIM.bit n) 0 else s
    if bitAt v.toNat (16 + n.val) && !hot (s.getS (F.THM_CHn_LIM1_CRIT n)) then s1.put (F.THM_CHSTAT_CRIT.bit n) 0
    else s1).refreshHolds

/-- R265: a write of THM_CHSTAT. -/
def execThmChstatClear (m : Master) (v : Word) (s : State) : Host.Outcome State Fault Refusal :=
  .next (s.wr m A.THM_CHSTAT (chstatWrite v))

/-! ## Tables and capo -/

/-- Whether an enabled thermistor uses table t (R259). -/
def State.thmTabUsed (s : State) (t : Nat) : Bool :=
  (List.range 40).any fun k => s.flag (F.THM_TSs_CFG_EN k) && s.flag (F.THM_TSs_CFG_KIND k) && s.get (F.THM_TSs_CFG_TBL k) == t

/-- A word written to THM_TBLDATA. Before READY a table in use takes it too (R363). -/
def thmTblWrite (v : Word) (s : State) : State :=
  let i := s.get F.THM_TBLADDR_INDEX
  let s1 := if 131 < i then s
    else if s.boot.phase = .ready ∧ s.thmTabUsed (i / 33) then s.put F.THM_STAT_ACTWR 1
    else { s with thm := { s.thm with tables := sparseSet thmTabDefault s.thm.tables i (v.truncate 16) } }
  s1.wrapAdd F.THM_TBLADDR_INDEX 1

/-- R259: a write of THM_TBLDATA writes a table entry unless the table is in use, and advances INDEX. -/
def execThmTbldataWrite (m : Master) (v : Word) (s : State) : Host.Outcome State Fault Refusal :=
  .next (s.wr m A.THM_TBLDATA (thmTblWrite v))

/-- What a read of THM_TBLDATA returns: 0 above index 131. -/
def State.thmTblRead (s : State) : Word :=
  let i := s.get F.THM_TBLADDR_INDEX
  if 131 < i then 0 else (sparseGet thmTabDefault s.thm.tables i).zeroExtend 32

/-- THM applies a committed change at once: a head temperature follows a new HSEN, and a heater without one goes off (R267, R272). -/
def applyThm (s0 s : State) : State :=
  s.eachCh fun n s =>
    if s0.get (F.THM_CHn_CFG_HSEN n) = s.get (F.THM_CHn_CFG_HSEN n) then s else forceHeater n (headTemp n s)

/-- The vote of THM on the resulting state t (R273). -/
def voteThm (t : State) : Bool :=
  (allCh.all fun n =>
    let k := t.get (F.THM_CHn_CFG_HSEN n)
    decide (t.getS (F.THM_CHn_LIM0_WARN n) ≤ t.getS (F.THM_CHn_LIM0_LIMIT n)) &&
    decide (t.getS (F.THM_CHn_LIM0_LIMIT n) ≤ t.getS (F.THM_CHn_LIM1_CRIT n)) && t.flag (F.THM_CHn_LIM1_HYS n) &&
    (k == 63 || (decide (k < 48) && (decide (40 ≤ k) || t.flag (F.THM_TSs_CFG_EN k))))) &&
  decide (t.getS F.THM_DIELIM0_THR1 ≤ t.getS F.THM_DIELIM0_THR2) &&
  decide (t.getS F.THM_DIELIM0_THR2 ≤ t.getS F.THM_DIELIM1_THR3) &&
  decide (t.getS F.THM_DIELIM1_THR3 ≤ t.getS F.THM_DIELIM1_DSHUT) && decide (t.getS F.THM_DIELIM1_DSHUT ≤ 1150)

end Sys2Proof.Machine
end

