-- ==== Sys2Proof/Machine/Tuner.lean ====
section
/-! DEFINITION. The meanings of the commands of the Tuner (chapter 10), and of the amplitude measurement whose results it
files (R99 to R101). -/

namespace Sys2Proof.Machine

/-! ## Schedule -/

/-- The circuit of an instance is in a powered-off domain (R248). -/
def State.tunOff (s : State) (c i : Nat) : Bool :=
  (c == 1 && decide (i < 16) && !s.domOn (8 + i)) || (c == 2 && decide (2 ≤ i) && !s.domOn (8 + (i - 2)))

/-- Whether an instance is skipped and the skip counted: R248. -/
def State.tunSkip (s : State) (c i : Nat) : Bool :=
  s.tunOff c i || (c == 0 && s.flag (F.THM_TSs_STAT_RAISED i)) || (c == 1 && !s.flag F.SYS_CLKSTAT_REFOK)

/-- Whether an oscillator is in use and so not measured (R249). -/
def State.oscInUse (s : State) (i : Nat) : Bool :=
  match chOf i with
  | some n => s.flag (F.SYS_CLKSTAT_CHFB.bit n)
  | none => s.flag F.SYS_CLKSTAT_SHFB

/-- A skip is noted and TUN_SKIP raised, at most once per second and class (R256). -/
def noteSkip (c : Fin 5) (s : State) : State :=
  let s1 := s.put (F.TUN_STAT_SKIP.bit c) 1
  let due : Bool := match s.tun.skipTick.get c with
    | some t => t + 1000 * msTicks ≤ s.tick
    | none => true
  if due then { s1 with tun := { s1.tun with skipTick := s1.tun.skipTick.set c (some s.tick) } }.raise 81 else s1

/-- R248: every PER × 10 ms the next instance of classes 0 to 2 is measured, or skipped. Classes 3 and 4 have no schedule. -/
def execTunerSchedule (c : Fin 5) (s : State) : Host.Outcome State Fault Refusal :=
  .next (if h : c.val < 3 then
      let k : Fin 3 := ⟨c.val, h⟩
      let per := 10 * msTicks * max 1 (s.get (F.TUN_CFGc_PER c))
      let due : Bool := match s.tun.last.get k with
        | some t => t + per ≤ s.tick
        | none => true
      if s.tunOn c && decide (s.get F.THM_STAT_STEP < 2) && (s.tun.meas.get k).isNone && due then
        let i := s.tun.next.get k
        let s1 := { s with tun := { s.tun with
          next := s.tun.next.set k ((i + 1) % tunInsts c), last := s.tun.last.set k (some s.tick) } }
        if s1.tunSkip c i then noteSkip c s1
        else if c.val = 1 ∧ s1.oscInUse i then s1
        else { s1 with tun := { s1.tun with meas := s1.tun.meas.set k (some i) } }
      else s
    else s)

/-- The measurement of a class ends: with the Tuner running its result is filed. -/
def measDone (c : Fin 3) (r : Option Int) (s : State) : State :=
  match s.tun.meas.get c with
  | some i =>
    let s1 := { s with tun := { s.tun with meas := s.tun.meas.set c none } }
    match r with
    | some v => if s1.tunOn c then tunResult c i v s1 else s1
    | none => s1
  | none => s

/-- R244, R248: a SENS or VREF measurement ends; `raw` is the calibrated value, in the class's format. -/
def execTunerMeasureDone (c : Fin 5) (raw : Int) (ok : Bool) (s : State) : Host.Outcome State Fault Refusal :=
  .next (if c.val = 0 then measDone 0 (if ok then some (toSigned 16 (ofSigned 16 raw)) else none) s
    else if c.val = 2 then measDone 2 (if ok then some (ofSigned 10 raw : Nat) else none) s
    else s)

/-- R249: the gate of an OSC measurement ends with a count of the oscillator's cycles. A gate in which the reference failed or the
oscillator came into use has been given up. -/
def execOscGateDone (cnt : Nat) (s : State) : Host.Outcome State Fault Refusal :=
  .next (measDone 1 ((s.tun.meas.get 1).map fun i => s.oscCode i cnt) s)

/-! ## Application -/

/-- Whether a pending value of an instance can be applied now (R247). -/
def State.tunReady (s : State) (c i : Nat) : Bool :=
  match c with
  | 1 => (match chOf i with
    | some n => s.atBoundary n
    | none => true)
  | 2 => if i < 2 then true else (match chOf (i - 2) with
    | some n => s.atBoundary n && (s.ch n).wav.meas.isEmpty
    | none => true)
  | _ => true

/-- A value is written to its target: SOFS of a sensor, the scale of the next frame on a port whose loop is on; a trim is
its value in effect. -/
def tunTarget (c i : Nat) (w : Word) (s : State) : State :=
  match c with
  | 0 => s.put (F.THM_TSs_OFS_SOFS i) (getBits w 0 16)
  | 3 => match chOf (i / 2) with
    | some n =>
      if s.flag (F.CHn_WAV_WFB_LOOP_EN n) && s.get (F.CHn_WAV_WFB_SRC n) == i % 2 then
        s.modWav n fun v => { v with newScale := some (getBits w 0 16) }
      else s
    | none => s
  | _ => s

/-- R247: a new value in effect is written to its target at its application point. -/
def execTunerApply (c : Fin 5) (i : Nat) (s : State) : Host.Outcome State Fault Refusal :=
  .next (match s.tun.pend.find? fun x => x.1 == c.val && x.2.1 == i with
    | some (_, _, w, t) =>
      if s.supRuns && s.tunReady c i then tunTarget c i w (putEff c i (tunVal c w) t (unpend c i s))
      else s
    | none => s)

/-! ## Set access -/

/-- The entry that TUN_SETADDR names: class, instance and point, none where there is no such instance (R252). -/
def State.setAddr (s : State) : Option (Nat × Nat × Nat) :=
  let c := s.get F.TUN_SETADDR_CLASS
  let i := s.get F.TUN_SETADDR_INST
  if i < tunInsts c then some (c, i, s.get F.TUN_SETADDR_POINT) else none

/-- An access with AUTOINC = 1 advances INST, which wraps past the last instance of the class (R252). -/
def setAdvance (s : State) : State :=
  if s.flag F.TUN_SETADDR_AUTOINC then
    let i := s.get F.TUN_SETADDR_INST + 1
    let k := tunInsts (s.get F.TUN_SETADDR_CLASS)
    s.put F.TUN_SETADDR_INST (if k ≤ i ∧ 0 < k then 0 else i)
  else s

/-- A write of TUN_SETDATA: the entry is stored and R245 applies to its instance, unless a result has been stored there in the same
cycle (R253). -/
def setData (v : Word) (s : State) : State :=
  setAdvance (match s.setAddr with
    | some (c, i, k) =>
      let s1 := touch (setKey c i k) false (setEntry c i k (v &&& 0x80FFFFFF) s)
      if s.wasTouched (setKey c i k) true then s.put F.TUN_STAT_WRLOST 1
      else if s1.tunOn c then
        match s1.tunTemp c i with
        | some t => tunInterp c i t s1
        | none => s1
      else s1
    | none => s)

/-- R252, R253: a master writes TUN_SETDATA. -/
def execTunSetdataWrite (m : Master) (v : Word) (s : State) : Host.Outcome State Fault Refusal :=
  .next (s.wr m A.TUN_SETDATA (setData v))

/-- The word a read of TUN_SETDATA returns (R252). -/
def State.setWordAt (s : State) : Word :=
  match s.setAddr with
  | some (c, i, k) => s.tunEntry c i k
  | none => 0

/-- R252: a master reads TUN_SETDATA. -/
def execTunSetdataRead (m : Master) (s : State) : Host.Outcome State Fault Refusal :=
  .next (s.rd m A.TUN_SETDATA s.setWordAt setAdvance)

/-! ## Closed-loop amplitude -/

/-- The frame peak in u12.4 from the 16 samples before the frame and the samples taken (R99). -/
def framePeak (before taken : List Nat) : Nat := 16 * taken.foldl max 0 - before.foldl (· + ·) 0

/-- The new scale from the mean peak, and whether the range limit acted (R100). -/
def newScaleOf (pk target sc step lo hi : Nat) : Nat × Bool :=
  let new : Int := if pk = 0 then hi else (sc * (target * 16) + pk / 2) / pk
  let new1 := clampI ((sc : Int) - step) (sc + step) new
  ((clampI lo hi new1).toNat, decide (new1 < lo ∨ hi < new1))

/-- The new scale as a result of the Tuner: clamped to the class, filed, and in effect from the next frame on (R244 to R246). With the
class off it is the loop's own. -/
def fileScale (i new : Nat) (s : State) : Nat × State :=
  if s.flag (F.TUN_CFGc_EN 3) then
    let x := tunClamp 3 i new s
    let t := s.tunTemp 3 i
    (x.1.toNat, unpend 3 i (putEff 3 i x.1 t (tunFile 3 i x.1 t x.2)))
  else (new, s)

/-- The loop's update: the scale waits for the next frame on the port, and the Tuner files it (R100, R244). A result that
arrives while the Tuner does not run is discarded (R254). -/
def scaleUpdate (n : Fin 16) (x : Meas) (pk : Nat) (s : State) : State :=
  if !s.supRuns then s
  else
    let p := getBits x.wfb 1 1
    let sc := if p = 0 then s.get (F.CHn_WAV_SCALE_SC0 n) else s.get (F.CHn_WAV_SCALE_SC1 n)
    let r := newScaleOf pk (getBits x.tgt 0 12) sc (getBits x.tgt 16 12) (getBits x.lim 0 16) (getBits x.lim 16 16)
    let s1 := s.bump (F.CHn_WAV_WFBPK_UPD n) 1
    let s2 := if r.2 then (s1.put (F.CHn_WAV_STAT_CLAMP n) 1).raiseCh n 14 else s1
    let y := fileScale (2 * n.val + p) r.1 s2
    if s.flag (F.CHn_WAV_WFB_LOOP_EN n) && s.get (F.CHn_WAV_WFB_SRC n) == p then
      y.2.modWav n fun v => { v with newScale := some y.1 }
    else y.2

/-- A measured frame's peak joins the mean; 2^NAVG of them make PEAK and, with the loop on, a new scale (R99, R100), under the
settings of the frame (R107). The mean is cut off to 1/16 code (DESIGN CHOICE, log 156). A frame under another CHn_WAV_WFB starts a
new mean (DESIGN CHOICE, log 145). -/
def peakDone (n : Fin 16) (x : Meas) (pk : Nat) (s : State) : State :=
  let ps := pk :: if (s.ch n).wav.peakCfg = x.wfb then (s.ch n).wav.peaks else []
  let need := 2 ^ min 8 (getBits x.wfb 4 4)
  if ps.length < need then s.modWav n fun w => { w with peaks := ps, peakCfg := x.wfb }
  else
    let mean := ps.foldl (· + ·) 0 / ps.length
    let s1 := (s.modWav n fun w => { w with peaks := [] }).put (F.CHn_WAV_WFBPK_PEAK n) mean
    if getBits x.wfb 0 1 = 1 then scaleUpdate n x mean s1 else s1

/-- ADC samples of a frame in its window: 50 ns apart from its first sample on, as long as they fall before the next frame's first
sample (R99). -/
def Meas.taken (x : Meas) (adc : List Nat) : List Nat :=
  let k := match x.stop with
    | some t => (t - x.start + 19) / 20
    | none => adc.length
  (adc.take (min k (getBits x.win 16 12))).drop (getBits x.win 0 12)

/-- The window of a frame is over: its last sample has been taken, or the next frame has begun (R99). -/
def Meas.over (x : Meas) (tick : Nat) : Bool :=
  decide (x.start + 20 * (getBits x.win 16 12 - 1) ≤ tick) || x.stop.any fun t => decide (t ≤ tick)

/-- R99 to R101: the measurement of the oldest frame that waits ends. An empty window gives no largest sample: the frame is not
measured (DESIGN CHOICE, log 144); the saturation test is made on the samples of the window (DEDUCED, log 146). `before` are the 16 ADC samples before its first sample, `adc` those from
it on, up to the next frame's first sample. -/
def execWfbFrameMeasure (n : Fin 16) (before adc : List Nat) (s : State) : Host.Outcome State Fault Refusal :=
  nextIf (before.length == 16 && (before ++ adc).all (· < 4096)) <|
    match (s.ch n).wav.meas with
    | x :: rest =>
      if !s.chOn n || !x.over s.tick then s
      else
        let s1 := s.modWav n fun w => { w with meas := rest }
        let taken := x.taken adc
        if !x.clean || taken.isEmpty then s1
        else if taken.contains 4095 then (s1.put (F.CHn_WAV_STAT_WFBSAT n) 1).raiseCh n 14
        else peakDone n x (framePeak before taken) s1
    | [] => s

end Sys2Proof.Machine
end

