-- ==== Sys2Proof/Machine/Capo.lean ====
section
/-! DEFINITION. The meanings of the commands of the capo engine (chapter 8) and of the two-key confirmation (R352 to R354). -/

namespace Sys2Proof.Machine

/-! ## Slots and staging -/

/-- The master index and state of slot t. -/
def State.txOwner (s : State) (t : Fin 16) : Nat := s.get (F.CAPO_TXt_STAT_OWNER t)

/-- The lowest FREE slot. -/
def State.freeTx (s : State) : Option (Fin 16) := allTx.find? fun t => s.txState t == 0

/-- Slot t is OPEN, owned by a master, with the reset values of CTRL and TMO (R196, R200). -/
def openSlot (m : Master) (impl : Bool) (t : Fin 16) (s : State) : State :=
  let s1 := (s.modSlot t fun _ => CapoSlot.reset).setWord (A.CAPO_TXt_STAT t) 0
  let s2 := ((s1.put (F.CAPO_TXt_STAT_STATE t) 1).put (F.CAPO_TXt_STAT_OWNER t) (masterIndex m)).put
    (F.CAPO_TXt_STAT_IMPL t) (b2n impl)
  ((s2.setWord (A.CAPO_TXt_CTRL t) 0).setWord (A.CAPO_TXt_TMO t) (regReset (A.CAPO_TXt_TMO t))).setWord
    (A.CAPO_TXt_NOVOTE t) 0

/-- A read of CAPO_ALLOC: the word returned and the state with the slot allocated (R196). -/
def allocTx (m : Master) (s : State) : Word × State :=
  match s.freeTx with
  | some t => (BitVec.ofNat 32 (t.val + 2 ^ 31), openSlot m false t s)
  | none => (0, s)

/-- Insert an entry in ascending address order, replacing one at the same address. -/
def insertEntry (e : Entry) : List Entry → List Entry
  | [] => [e]
  | x :: xs => if e.addr < x.addr then e :: x :: xs else if e.addr = x.addr then e :: xs else x :: insertEntry e xs

/-- The entry count and the participants of slot t as its registers show them. -/
def noteParts (t : Fin 16) (s : State) : State :=
  let s1 := s.put (F.CAPO_TXt_STAT_NENT t) (s.slot t).entries.length
  (s.txParts t).foldl (fun (s : State) (p : Part) => match p with
    | .sys b => s.put ((F.CAPO_TXt_PART_SYS_SYS t).bit b) 1
    | .ch n _ => s.put ((F.CAPO_TXt_PART_CH_CH t).bit n) 1) s1

/-- A write discarded for want of a slot or entry (R200, R201). -/
def capoDrop (s : State) : State := (s.put F.CAPO_FLAGS_DROP 1).raise 66

/-- The ST part of a write to `a` is staged in slot t (R198, R199, R201, R211). -/
def stageEntry (t : Fin 16) (a : Nat) (v : Word) (s : State) : State :=
  let w := v &&& stMask a
  let es := (s.slot t).entries
  if !s.flag (F.CAPO_TXt_CTRL_CLASS t) && s.protects a w then s.put F.CAPO_FLAGS_PROTWR 1
  else if allTx.any fun u => u != t && s.txHolds u a then s.put (F.CAPO_TXt_STAT_CONFLICT t) 1
  else if !(es.any fun e => e.addr == a) && decide (4096 ≤ s.entriesUsed) then
    capoDrop (s.put (F.CAPO_TXt_STAT_FULL t) 1)
  else noteParts t (s.modSlot t fun c => { c with entries := insertEntry { addr := a, word := w } c.entries })

/-- The fields of a register with staged fields that are not staged take effect at once (R198), if its domain is ON (R303). A
heater switched off goes to duty 0 (R267). -/
def directPart (a : Nat) (v : Word) (s : State) : State :=
  let k := typMask (· == .rw) a
  let s1 := if s.powered a then s.setWord a ((s.word a &&& ~~~k) ||| (v &&& k)) else s
  s1.eachCh fun n s => if a = A.THM_CHn_CFG n ∧ !s.flag (F.THM_CHn_CFG_HTREN n) then heaterOff n s else s

/-- R198: a bound master writes a register with a staged field. The Safety port's other fields are discarded (R343). -/
def stagedWrite (m : Master) (t : Fin 16) (a : Nat) (v : Word) (s : State) : State :=
  stageEntry t a v (if m = .sp then s else directPart a v s)

/-! ## Commands of a slot -/

/-- The last command of slot t was refused, or was not. -/
def cmdRef (t : Fin 16) (s : State) : State := s.put (F.CAPO_TXt_STAT_CMDREF t) 1
def cmdTaken (t : Fin 16) (s : State) : State := s.put (F.CAPO_TXt_STAT_CMDREF t) 0

/-- COND reserved, ARG out of range for COND, or no entries (R204, R209). -/
def State.txFormat (s : State) (t : Fin 16) : Bool :=
  let c := s.get (F.CAPO_TXt_CTRL_COND t)
  let a := s.get (F.CAPO_TXt_CTRL_ARG t)
  decide (5 ≤ c) || ((c == 1 || c == 2) && decide (16 ≤ a)) || (c == 4 && decide (2 ≤ a)) || (s.slot t).entries.isEmpty

/-- A slot of class NORMAL that holds an entry of the protection set-up (R211). -/
def State.txMisclass (s : State) (t : Fin 16) : Bool :=
  !s.flag (F.CAPO_TXt_CTRL_CLASS t) && (s.slot t).entries.any fun e => s.protects e.addr e.word

/-- Whether a master is a party of the two-key rule, and whether it may propose (R352). -/
def State.isParty (s : State) (m : Master) : Bool :=
  match m with
  | .pf0 => s.flag F.PROT_ROLE_ADMIN
  | .sp => s.flag F.PROT_ROLE_SPEN
  | _ => false
def State.mayPropose (s : State) (m : Master) : Bool :=
  s.isParty m && match m with
    | .pf0 => s.flag F.PROT_ROLE_PROPA
    | .sp => s.flag F.PROT_ROLE_PROPS
    | _ => false

/-- A slot's state is entered now: its window starts. -/
def enterTx (t : Fin 16) (v : Nat) (s : State) : State :=
  (s.put (F.CAPO_TXt_STAT_STATE t) v).modSlot t fun c => { c with startTick := s.tick }

/-- Slot t is committed by its owner in OPEN (R195, R209, R211, R212, R352). -/
def commitTx (m : Master) (t : Fin 16) (s : State) : State :=
  let prot := s.flag (F.CAPO_TXt_CTRL_CLASS t)
  if prot && allTx.any fun u => s.txState u == 2 then cmdRef t s
  else
    let s0 := cmdTaken t s
    if s0.txMisclass t then abortSlot 11 t (s0.put F.CAPO_FLAGS_PROTWR 1)
    else if s0.txFormat t then abortSlot 11 t s0
    else if s0.flag (F.CAPO_TXt_STAT_CONFLICT t) then abortSlot 5 t s0
    else if s0.flag (F.CAPO_TXt_STAT_FULL t) then abortSlot 6 t s0
    else if prot then
      if !s0.mayPropose m then abortSlot 8 t s0
      else
        let s1 := s0.setPair (A.CAPO_TXt_DIGEST_LO t) (A.CAPO_TXt_DIGEST_HI t) (s0.digest t)
        (unbind t (enterTx t 2 s1)).raise 21
    else unbind t (enterTx t 3 s0)

/-- R196: a read of CAPO_ALLOC. -/
def execCapoAlloc (m : Master) (s : State) : Host.Outcome State Fault Refusal :=
  .next (s.rd m A.CAPO_ALLOC (allocTx m s).1 fun s => (allocTx m s).2)

/-- A write of CAPO_BIND in the bank of a master (R197). -/
def bindWrite (m : Master) (v : Word) (s : State) : State :=
  let k := masterBank m
  let ok : Bool := match chOf (getBits v 0 4) with
    | some t => getBits v 4 1 == 1 && s.txState t == 1 && s.ownsSlot m t
    | none => false
  (s.put (F.CAPO_BIND_TX.bank k) (getBits v 0 4)).put (F.CAPO_BIND_BOUND.bank k) (b2n ok)

/-- R197: a write of CAPO_BIND. -/
def execCapoBind (m : Master) (v : Word) (s : State) : Host.Outcome State Fault Refusal :=
  .next (s.wr m A.CAPO_BIND (bindWrite m v))

/-- An unbound write to a register with staged fields: its own transaction, committed at once (R200, R211). -/
def implicitTx (m : Master) (a : Nat) (v : Word) (s : State) : State :=
  let s1 := directPart a v s
  if s1.protects a (v &&& stMask a) then s1.put F.CAPO_FLAGS_PROTWR 1
  else match s1.freeTx with
    | some t =>
      if 4096 ≤ s1.entriesUsed then capoDrop s1 else commitTx m t (stageEntry t a v (openSlot m true t s1))
    | none => capoDrop s1

/-- A write to a register with staged fields, for which its domain need not be ON: staged in the slot the master is bound to, or its
own transaction, also of a master whose binding a COMMIT has released (R198, R200, R203, R210, R303, R343). -/
def stagedBusWrite (m : Master) (a : Nat) (v : Word) (s : State) : State :=
  if !s.domOn 1 || !s.mayWrite m a then s
  else match s.boundTo m with
    | some t => stagedWrite m t a v s
    | none => if m = .sp then s else implicitTx m a v s

/-- R198, R210: a write to a register with staged fields by a master that has bound itself to a slot. -/
def execStagedWrite (m : Master) (a : Nat) (v : Word) (s : State) : Host.Outcome State Fault Refusal :=
  .next (if hasStaged a then stagedBusWrite m a v s else s)

/-- R200: an unbound write to a register with staged fields. -/
def execImplicitTransaction (m : Master) (a : Nat) (v : Word) (s : State) : Host.Outcome State Fault Refusal :=
  .next (if s.domOn 1 && m != .sp && s.mayWrite m a && hasStaged a && (s.boundTo m).isNone then implicitTx m a v s else s)

/-- A command word written to CAPO_TXt_CMD: 1 COMMIT, 2 ABORT, 3 RELEASE. A command from another master, or in a state not
named, is refused with CMDREF, as is an ABORT in the cycle in which the commit condition is met (R210) or from the commit instant on
(R194), and CODE 0 (DESIGN CHOICE, log 164). -/
def txCmd (m : Master) (t : Fin 16) (c : Nat) (s : State) : State :=
  let st := s.txState t
  if !s.ownsSlot m t then cmdRef t s
  else if c = 1 ∧ st = 1 then commitTx m t s
  else if c = 2 ∧ 1 ≤ st ∧ st ≤ 4 ∧ (s.slot t).cond ≠ some s.tick ∧ !s.pastInstant t then abortSlot 1 t (cmdTaken t s)
  else if c = 3 ∧ 6 ≤ st then freeSlot t s
  else cmdRef t s

/-- R195: COMMIT of slot t. -/
def execCapoCommit (m : Master) (t : Fin 16) (s : State) : Host.Outcome State Fault Refusal :=
  .next (s.wr m (A.CAPO_TXt_CMD t) (txCmd m t 1))

/-- R209: ABORT of slot t. -/
def execCapoAbort (m : Master) (t : Fin 16) (s : State) : Host.Outcome State Fault Refusal :=
  .next (s.wr m (A.CAPO_TXt_CMD t) (txCmd m t 2))

/-- R195: RELEASE of slot t. -/
def execCapoRelease (m : Master) (t : Fin 16) (s : State) : Host.Outcome State Fault Refusal :=
  .next (s.wr m (A.CAPO_TXt_CMD t) (txCmd m t 3))

/-! ## Voting -/

/-- The rules of a participant's chapter on the state that would result (R86, R108, R140, R162, R238, R273, R298); every
participant of an isolated channel votes no (R380). -/
def State.rulesOk (s : State) (p : Part) (t : State) : Bool :=
  match p with
  | .ch n k => !(s.ch n).iso.isolated && match k.val with
    | 1 => voteImg n s t
    | 2 => voteWav n s t
    | 3 => voteFt n s t
    | _ => true
  | .sys b => match b.val with
    | 4 => votePos s t
    | 6 => voteThm t
    | 7 => voteMot s t
    | 8 => voteIns t
    | 9 => voteTun t
    | _ => true

/-- Whether a participant's channel is isolated (R380). -/
def State.partIsolated (s : State) : Part → Bool
  | .ch n _ => (s.ch n).iso.isolated
  | .sys _ => false

/-- The reason for which participant p votes no on slot t, 0 for a ready vote (R203, R380, CAPO_TXt_NOVOTE). -/
def State.voteReason (s : State) (t : Fin 16) (p : Part) (eccUe : Bool) : Nat :=
  if s.partIsolated p then 1
  else if !s.partOn p then 3
  else if eccUe then 2
  else if s.rulesOk p (stagedView (s.slot t).entries s) then 0 else 1

/-- The first participant to vote no or withdraw, and why. -/
def noVote (t : Fin 16) (p : Part) (r : Nat) (s : State) : State :=
  (s.put (F.CAPO_TXt_NOVOTE_PART t) (partCode p)).put (F.CAPO_TXt_NOVOTE_REASON t) r

/-- Ticks of the vote window of slot t. -/
def State.voteTicks (s : State) (t : Fin 16) : Nat := usTicks * max 1 (s.get (F.CAPO_TXt_TMO_VOTETMO t))

/-- R203, R204: a participant votes within the vote window; the last ready vote arms the slot, an IMMEDIATE condition being
met on entry to ARMED. -/
def execCapoVote (t : Fin 16) (p : Part) (eccUe : Bool) (s : State) : Host.Outcome State Fault Refusal :=
  .next (if s.domOn 1 && s.txState t == 3 && (s.txParts t).contains p && !(s.slot t).voted.contains p &&
      decide (s.tick < (s.slot t).startTick + s.voteTicks t) then
      let r := s.voteReason t p eccUe
      if r = 0 then
        let s1 := s.modSlot t fun c => { c with voted := p :: c.voted }
        if (s1.txParts t).all fun q => (s1.slot t).voted.contains q then
          let s2 := enterTx t 4 s1
          if s2.get (F.CAPO_TXt_CTRL_COND t) = 0 then s2.modSlot t fun c => { c with cond := some s.tick } else s2
        else s1
      else abortSlot 2 t (noVote t p r s)
    else s)

/-- R203, R210: a participant whose check ceases to hold before the commit instant, or whose staging store has had an uncorrectable
error, withdraws its ready vote; a commit condition met in the same cycle commits, and from the commit instant on its vote is final. -/
def execVoteWithdraw (t : Fin 16) (p : Part) (eccUe : Bool) (s : State) : Host.Outcome State Fault Refusal :=
  .next (if s.domOn 1 && (s.txState t == 3 || s.txState t == 4) && (s.slot t).voted.contains p &&
      (s.slot t).cond != some s.tick && !s.pastInstant t && s.voteReason t p eccUe != 0 then abortSlot 7 t (noVote t p 4 s)
    else s)

/-- R203, R209: the vote window ends with a vote missing. -/
def execVotetmo (t : Fin 16) (s : State) : Host.Outcome State Fault Refusal :=
  .next (if s.domOn 1 && s.txState t == 3 && decide ((s.slot t).startTick + s.voteTicks t ≤ s.tick) then abortSlot 3 t s else s)

/-- R204, R209: the commit window ends without the condition. -/
def execCmttmo (t : Fin 16) (s : State) : Host.Outcome State Fault Refusal :=
  .next (
    let w := s.get (F.CAPO_TXt_TMO_CMTTMO t)
    if s.domOn 1 && s.txState t == 4 && w != 0 && (s.slot t).cond.isNone &&
        decide ((s.slot t).startTick + w * msTicks ≤ s.tick) then abortSlot 4 t s else s)

/-! ## Commit and application -/

/-- Addresses of system block b. -/
def inBlock (b : Nat) (a : Nat) : Bool := blockOf a == b

/-- Addresses of blocks that have no application point of their own: they apply at the commit instant (R207). -/
def atCommit (a : Nat) : Bool := blockOf a < 16 && !([4, 6, 7, 8, 9].contains (blockOf a))

/-- Everything that applies at the commit instant (R207): POS but for emulation settings, THM, the Tuner, the pipeline
settings of INS named so, the Bridge links, fire timing with no page armed, an image path about to start a page, and every
block without a point of its own. -/
def applyNow (s : State) : State :=
  let s1 := applyAll (fun a => inBlock 4 a && !(List.finRange 4).any fun (m : Fin 4) => isEmu m a) applyPos s
  let s3 := applyAll (inBlock 6) applyThm s1
  let s4 := applyAll (inBlock 9) applyTun s3
  let s5 := applyAll s4.insNow (fun _ s => s) s4
  let s6 := applyAll atCommit (fun _ s => s.refreshHolds) s5
  s6.eachCh fun n s =>
    let s1 := applyAll (isPart (.ch n 4)) (applyBrg n) s
    let s2 := if s1.ftFree n then applyAll (isPart (.ch n 3)) (applyFt n) s1 else s1
    if s2.imgFree n then applyAll (isPart (.ch n 1)) (applyImg n) s2 else s2

/-- A slot whose condition is the end of a frame applies the port's registers at that same end (R207). -/
def applyFrame (t : Fin 16) (s : State) : State :=
  if s.txState t = 5 ∧ s.get (F.CAPO_TXt_CTRL_COND t) = 4 then
    let p : Fin 2 := if s.get (F.CAPO_TXt_CTRL_ARG t) = 0 then 0 else 1
    finishSlot t (applyWords (fun a => s.insPort p a) t s)
  else s

/-- The ARMED slots whose commit instant has come, and the earliest such instant. -/
def State.dueTx (s : State) (i : Nat) : List (Fin 16) := allTx.filter fun t => s.txState t == 4 && s.instant t == some i
def State.nextInstant (s : State) : Option Nat :=
  ((allTx.filter fun t => s.txState t == 4).filterMap s.instant).foldl (fun (m : Option Nat) (i : Nat) =>
    if i ≤ s.tick then (match m with
      | some j => some (min i j)
      | none => some i) else m) none

/-- R205, R206: a commit instant: every ARMED slot that has it commits, stamped with its time, and they apply in order of slot
index. One whose participants have all been lost since is APPLIED with that (R208). -/
def execCommitInstant (s : State) : Host.Outcome State Fault Refusal :=
  .next (match s.domOn 1, s.nextInstant with
    | true, some i =>
      let due := s.dueTx i
      let s1 := due.foldl (fun (s : State) (t : Fin 16) =>
        ((s.put (F.CAPO_TXt_STAT_STATE t) 5).setPair (A.CAPO_TXt_TIME_LO t) (A.CAPO_TXt_TIME_HI t) (s.devTimeAt i)).emit
          (.commit t.val)) s
      due.foldl (fun (s : State) (t : Fin 16) => finishSlot t s)
        (applyNow (due.foldl (fun (s : State) (t : Fin 16) => applyFrame t s) s1))
    | _, _ => s)

/-- R207: participant p of COMMITTED slot t reaches its application point where that is a state of its block: fire timing that
becomes ready to arm, an image path about to start a page, a cycle of the motion clock. The others apply within the happening that is
their point. -/
def execParticipantApply (t : Fin 16) (p : Part) (s : State) : Host.Outcome State Fault Refusal :=
  .next (if (s.dueEntries t (isPart p)).isEmpty then s
    else match p with
      | .ch n k =>
        if k.val = 3 ∧ s.ftFree n then applyAll (isPart p) (applyFt n) s
        else if k.val = 1 ∧ s.imgFree n then applyAll (isPart p) (applyImg n) s
        else s
      | .sys b => if b.val = 7 then applyMotDue s else s)

/-! ## The two-key confirmation -/

/-- The result of a confirmation in the bank of a master. -/
def cfmRes (m : Master) (r : Nat) (s : State) : State := s.put (F.PROT_CFMRES_RES.bank (masterBank m)) r

/-- A confirmation by a master, its bank holding slot and digest (R353, R354). A late one finds the window ended. -/
def confirm (m : Master) (s : State) : State :=
  let k := masterBank m
  match chOf (s.get (F.PROT_CFMTX_TX.bank k)) with
  | none => s
  | some t =>
    if !s.isParty m || s.ownsSlot m t || s.txState t != 2 then cfmRes m 3 s
    else if (s.slot t).startTick + 1000 * msTicks ≤ s.tick then cfmRes m 3 (abortSlot 8 t s)
    else if s.pair (bankOf k A.PROT_CFM_LO) (bankOf k A.PROT_CFM_HI) =
        s.pair (A.CAPO_TXt_DIGEST_LO t) (A.CAPO_TXt_DIGEST_HI t) then enterTx t 3 (cfmRes m 1 s)
    else abortSlot 8 t (cfmRes m 2 s)

/-- A write of PROT_CFM_HI in the bank of a master confirms (R353). -/
def cfmHiWrite (m : Master) (v : Word) (s : State) : State :=
  confirm m (s.setWord (bankOf (masterBank m) A.PROT_CFM_HI) v)

/-- R353: a write of PROT_CFM_HI. -/
def execProtCfmHiWrite (m : Master) (v : Word) (s : State) : Host.Outcome State Fault Refusal :=
  .next (s.wr m A.PROT_CFM_HI (cfmHiWrite m v))

/-- R353: a slot still PROPOSED when its window of 1 s ends aborts with NOKEY. -/
def execConfirmTimeout (s : State) : Host.Outcome State Fault Refusal :=
  .next (allTx.foldl (fun (s : State) (t : Fin 16) =>
    if s.txState t = 2 ∧ (s.slot t).startTick + 1000 * msTicks ≤ s.tick then abortSlot 8 t s else s) s)

end Sys2Proof.Machine
end

