-- ==== Sys2Proof/Machine/Mailbox.lean ====
section
/-! DEFINITION. The mailboxes (chapter 13): sends, releases, the legacy lock and the acknowledgement window. -/

namespace Sys2Proof.Machine

/-- A port delivers its bank into mailbox m. A message for SUP while that domain is not ON waits, and asks for its switch-on
(R315, R320). -/
def sendBank (m : Fin 48) (p : Port) (s : State) : State :=
  let msg := s.bankMsg m p
  let s1 := deliver m p msg s
  if mbxReceiver m == .sup && !s.domOn 3 then
    let s2 := (s1.modMb m fun b => { b with waiting := true }).raise 124
    startRamp (requestDom false 3 true s2)
  else s1

/-- A host function sends: an ACCEPTED request is delivered and waits for its reply (R315, R323). -/
def hostSend (p : Port) (m : Fin 48) (s : State) : State :=
  if s.sendRes m p = 0 then sendBank m p (armAck m p ((s.bankMsg m p).getD 0 0) s) else s

/-- R315: PF0 or PF1 reads MBX_m_SEND; the read sends and returns the result. Reads by internal masters return 0 and have no effect (R316). -/
def execMbxSend (p : Port) (m : Fin 48) (s : State) : Host.Outcome State Fault Refusal :=
  .next (if isHostPort p && s.domOn 0 then
      hostSend p m (s.emit (.mbxRead p m.val (BitVec.ofNat 32 (s.sendRes m p))))
    else s.emit (.mbxRead p m.val 0))

/-- Whether the firmware of an internal port runs. -/
def State.portRuns (s : State) : Port → Bool
  | .sup => s.domOn 3 && s.boot.supUp
  | .seq n => s.chOn n && (s.ch n).work.seqUp
  | _ => true

/-- An internal master writes SEND = 1: its bank is delivered, or the write ends in a bus error (R316). -/
def internalSend (p : Port) (m : Fin 48) (s : State) : State :=
  if s.sendRes m p = 0 ∧ s.domOn 0 then
    let h := (s.bankMsg m p).getD 0 0
    ackReply m h (sendBank m p s)
  else s.emit (.busError p)

/-- R316: an internal master sends. Writes of SEND by the host's functions have no effect. -/
def execMbxSendInternal (p : Port) (m : Fin 48) (s : State) : Host.Outcome State Fault Refusal :=
  .next (if isHostPort p || !s.portRuns p then s else internalSend p m s)

/-- A reply held for mailbox m has been posted: once that of SUPRST is, the supervisor restarts (R325). -/
def restartDue (m : Fin 48) (s : State) : State :=
  match s.boot.rstDue with
  | some (q, k) =>
    if q ≠ m.val then s
    else if k ≤ 1 then supReset false { s with boot := { s.boot with rstDue := none } }
    else { s with boot := { s.boot with rstDue := some (q, k - 1) } }
  | none => s

/-- A write of 1 to FULL by a port: the receiver's releases the message (R317). -/
def mbxRelease (p : Port) (m : Fin 48) (s : State) : State :=
  if p = mbxReceiver m ∧ (s.mb m).full then restartDue m (releaseMsg m s) else s

/-- R317: the receiver releases the message. -/
def execMbxRelease (p : Port) (m : Fin 48) (s : State) : Host.Outcome State Fault Refusal :=
  .next (if s.domOn 0 then mbxRelease p m s else s)

/-- The legacy lock exists for the mailboxes with more than one possible sender. -/
def hasLock (m : Fin 48) : Bool := 32 ≤ m.val && decide (m.val < 40)

/-- What a read of MBX_m_LOCK returns to a port, and the state after it (R319). -/
def lockRead (p : Port) (m : Fin 48) (s : State) : Word × State :=
  if !hasLock m then (0, s)
  else match (s.mb m).lock with
    | some q => if q = p then (0, s) else (BitVec.ofNat 32 (portNo q), s)
    | none => (0, if mbxSender m p then s.modMb m fun b => { b with lock := some p } else s)

/-- R319: a read of LOCK takes the free lock or returns its owner. -/
def execMbxLockRead (p : Port) (m : Fin 48) (s : State) : Host.Outcome State Fault Refusal :=
  .next (if s.domOn 0 then
      let (w, s1) := lockRead p m s
      s1.emit (.mbxRead p m.val w)
    else s.emit (.mbxRead p m.val 0))

/-- A write of 0 to LOCK by the owner releases it (R319). -/
def lockRelease (p : Port) (m : Fin 48) (s : State) : State :=
  if (s.mb m).lock = some p then s.modMb m fun b => { b with lock := none } else s

/-- R319: the owner releases the lock. -/
def execMbxLockRelease (p : Port) (m : Fin 48) (s : State) : Host.Outcome State Fault Refusal :=
  .next (if s.domOn 0 then lockRelease p m s else s)

/-- GO by the lock's owner delivers its bank and releases the lock; on a FULL mailbox OVR is set and the lock kept (R319). With
the receiver in reset nothing is delivered. -/
def mbxGo (p : Port) (m : Fin 48) (s : State) : State :=
  if (s.mb m).lock ≠ some p then s
  else if (s.mb m).full then modView m p (fun v => { v with ovr := true }) s
  else
    let s1 := s.modMb m fun b => { b with lock := none }
    if s.rxReset m then s1 else sendBank m p (armAck m p ((s.bankMsg m p).getD 0 0) s1)

/-- R319: GO. -/
def execMbxGo (p : Port) (m : Fin 48) (s : State) : Host.Outcome State Fault Refusal :=
  .next (if s.domOn 0 then mbxGo p m s else s)

/-- R323: the acknowledgement window of a port's request in mailbox m ends without its reply. -/
def execMbxAcktmo (p : Port) (m : Fin 48) (s : State) : Host.Outcome State Fault Refusal :=
  .next (windowOver m p s)

/-- A write of MBX_m_STAT by a port: FULL by the receiver, and the W1C bits of its own view (R314, R317). -/
def mbxStatWrite (p : Port) (m : Fin 48) (v : Word) (s : State) : State :=
  let s1 := if bitAt v.toNat 0 then mbxRelease p m s else s
  modView m p (fun x =>
    { x with aborted := x.aborted && !bitAt v.toNat 2, ackTmo := x.ackTmo && !bitAt v.toNat 3,
             ovr := x.ovr && !bitAt v.toNat 4 }) s1

/-- A write of MBX_m_CTRL by a port: LEN of its bank, then GO. -/
def mbxCtrlWrite (p : Port) (m : Fin 48) (v : Word) (s : State) : State :=
  let s1 := s.put ((F.MBX_m_CTRL_LEN m).bank (portBank p)) v.toNat
  if bitAt v.toNat 8 then mbxGo p m s1 else s1

end Sys2Proof.Machine
end

