-- ==== Sys2Proof/Machine/P256.lean ====
section
/-! DEFINITION. ECDSA over the curve P-256 with SHA-256, as FIPS 186-4 gives it (R360): what the boot ROM checks of a signed
image. -/

namespace Sys2Proof.Machine

/-- The field prime, the group order and the coefficient b of P-256. -/
def p256P : Nat := 0xffffffff00000001000000000000000000000000ffffffffffffffffffffffff
def p256N : Nat := 0xffffffff00000000ffffffffffffffffbce6faada7179e84f3b9cac2fc632551
def p256B : Nat := 0x5ac635d8aa3a93e7b3ebbd55769886bc651d06b0cc53b0f63bce3c3e27d2604b

/-- The base point. -/
def p256G : Option (Nat × Nat) :=
  some (0x6b17d1f2e12c4247f8bce6e563a440f277037d812deb33a0f4a13945d898c296,
        0x4fe342e2fe1a7f9b8ee7eb4a7c0f9e162bce33576b315ececbb6406837bf51f5)

/-- x to the power e modulo m, over the 256 bits of e. -/
def powMod (m x e : Nat) : Nat :=
  (List.range 256).reverse.foldl (fun (acc i : Nat) =>
    let sq := acc * acc % m
    if e.testBit i then sq * x % m else sq) 1

/-- The inverse of x modulo a prime. -/
def invMod (m x : Nat) : Nat := powMod m x (m - 2)

/-- Subtraction in the field. -/
def subP (a b : Nat) : Nat := (a + p256P - b % p256P) % p256P

/-- The third point on the line of slope k through (x1, _) and (x2, _), mirrored. -/
def chord (k x1 y1 x2 : Nat) : Option (Nat × Nat) :=
  let x := subP (subP (k * k) x1) x2
  some (x, subP (k * subP x1 x) y1)

/-- Addition of points; none is the point at infinity. -/
def addPt : Option (Nat × Nat) → Option (Nat × Nat) → Option (Nat × Nat)
  | none, q => q
  | p, none => p
  | some (x1, y1), some (x2, y2) =>
    if x1 = x2 then
      if (y1 + y2) % p256P = 0 then none
      else chord (subP (3 * x1 * x1) 3 * invMod p256P (2 * y1 % p256P)) x1 y1 x2
    else chord (subP y2 y1 * invMod p256P (subP x2 x1)) x1 y1 x2

/-- k times a point. -/
def mulPt (k : Nat) (q : Option (Nat × Nat)) : Option (Nat × Nat) :=
  (List.range 256).reverse.foldl (fun (acc : Option (Nat × Nat)) (i : Nat) =>
    let d := addPt acc acc
    if k.testBit i then addPt d q else d) none

/-- Whether (x, y) is a point of the curve. -/
def onCurve (x y : Nat) : Bool :=
  x < p256P && y < p256P && y * y % p256P == (subP (x * x * x) (3 * x) + p256B) % p256P

/-- Big-endian value of a byte string. -/
def beNat (bs : List Byte) : Nat := leNat bs.reverse

/-- Verification of a signature (r, s) over a message under a public key. -/
def ecdsaOk (pubx puby sigr sigs : Nat) (msg : List Byte) : Bool :=
  let e := beNat (sha256 msg)
  let w := invMod p256N sigs
  onCurve pubx puby && 1 ≤ sigr && sigr < p256N && 1 ≤ sigs && sigs < p256N &&
  match addPt (mulPt (e * w % p256N) p256G) (mulPt (sigr * w % p256N) (some (pubx, puby))) with
  | some (x, _) => x % p256N == sigr
  | none => false

end Sys2Proof.Machine
end

