-- ==== Sys2Proof/Machine/NvmOps.lean ====
section
/-! DEFINITION. The configuration flash (chapter 15): slots, headers and their checks, and the end of a flash command. -/

namespace Sys2Proof.Machine

/-! ## The device -/

/-- The log2 of the capacity used, a larger device being used as 1 Gbit, and of the erase size (R356, NVM_DEVINFO). -/
def State.capL2 (s : State) : Nat := 25 + min 2 s.boot.flashSize
def State.eraseL2 (s : State) : Nat := s.boot.flashErase % 32

/-- A byte of the flash that nothing has programmed is erased. -/
def flashDefault (_ : Nat) : Byte := 0xFF

/-- A byte of the flash, and a run of bytes. -/
def State.flashByte (s : State) (a : Nat) : Byte := sparseGet flashDefault s.boot.flash a
def State.flashBytes (s : State) (a len : Nat) : List Byte := (List.range len).map fun i => s.flashByte (a + i)

/-- The first flash address of a slot and the bytes it holds at most (R358). -/
def State.slotBase (s : State) : Slot → Nat
  | .a => 0
  | .b => 2 ^ s.capL2 / 2
def State.slotSize (s : State) : Nat := min (48 * 2 ^ 20) (2 ^ s.capL2 / 2)

/-- Bytes of the image in a slot. -/
def State.imgBytes (s : State) (sl : Slot) (off len : Nat) : List Byte := s.flashBytes (s.slotBase sl + off) len

def otherSlot : Slot → Slot
  | .a => .b
  | .b => .a

/-! ## Headers -/

/-- The fixed header of a slot and its fields (R359). -/
def State.hdr (s : State) (sl : Slot) : List Byte := s.imgBytes sl 0 256
def hdrSigned (h : List Byte) : Bool := bitAt (fieldAt h 5 1) 0
def hdrNsec (h : List Byte) : Nat := fieldAt h 6 2
def hdrIlen (h : List Byte) : Nat := fieldAt h 8 4
def hdrHlen (h : List Byte) : Nat := fieldAt h 12 4
def hdrVersion (h : List Byte) : Nat := fieldAt h 16 4
def hdrGen (h : List Byte) : Nat := fieldAt h 20 4
def hdrChmask (h : List Byte) : Nat := fieldAt h 28 2
def hdrTunseed (h : List Byte) : Nat := fieldAt h 32 8
def hdrCrc (h : List Byte) : Nat := fieldAt h 252 4

/-- A section table entry (R361). -/
structure Sect where
  typ : Nat
  res : Nat
  chsel : Nat
  off : Nat
  len : Nat
  crc : Nat
deriving DecidableEq, Repr

/-- Entry i of a slot's section table. -/
def State.sect (s : State) (sl : Slot) (i : Nat) : Sect :=
  let b := s.imgBytes sl (256 + 16 * i) 16
  { typ := fieldAt b 0 1, res := fieldAt b 1 1, chsel := fieldAt b 2 2, off := fieldAt b 4 4, len := fieldAt b 8 4,
    crc := fieldAt b 12 4 }

/-- The section table of a slot. -/
def State.sects (s : State) (sl : Slot) : List Sect := (List.range (hdrNsec (s.hdr sl))).map (s.sect sl)

/-- The section types for which CHSEL names channels (R361, R362). -/
def chType (t : Nat) : Bool := t == 0x12 || t == 0x13 || t == 0x14

/-- The entry rules of R361 for one section. -/
def sectOk (ilen hlen chmask : Nat) (e : Sect) : Bool :=
  e.res == 0 && (!chType e.typ || e.chsel &&& chmask == e.chsel) && e.off % 64 == 0 && hlen ≤ e.off && e.len % 4 == 0 && e.len != 0 &&
  decide (e.off + e.len ≤ ilen)

/-- Sections in ascending order without overlap. -/
def sectsApart : List Sect → Bool
  | a :: b :: r => decide (a.off + a.len ≤ b.off) && sectsApart (b :: r)
  | _ => true

/-- ILEN, HLEN, NSEC and the section entries meet R359 and R361. -/
def State.layoutOk (s : State) (sl : Slot) : Bool :=
  let h := s.hdr sl
  let n := hdrNsec h
  1 ≤ n && n ≤ 1024 && hdrIlen h % 64 == 0 && hdrIlen h ≤ s.slotSize &&
  hdrHlen h == 4096 * ((256 + 16 * n + 4095) / 4096) && decide (hdrHlen h ≤ hdrIlen h) &&
  (s.sects sl).all (sectOk (hdrIlen h) (hdrHlen h) (hdrChmask h)) && sectsApart (s.sects sl)

/-- The checks on the header block: 0, or the cause of the first that fails (R365). -/
def State.hdrCause (s : State) (sl : Slot) : Nat :=
  let h := s.hdr sl
  if bytesAt h 0 4 ≠ [0x4F, 0x56, 0x49, 0x4D] ∨ fieldAt h 4 1 ≠ 1 then 1
  else if BitVec.ofNat 32 (hdrCrc h) ≠ crc32c (bytesAt h 0 252) then 2
  else if !s.layoutOk sl then 3
  else if bytesAt h 144 32 ≠ sha256 (s.imgBytes sl 256 (16 * hdrNsec h)) then 4
  else 0

/-- The slot's image is authenticated: signed, under the fused key, with a valid signature (R360, R365). -/
def State.authentic (s : State) (sl : Slot) : Bool :=
  let h := s.hdr sl
  hdrSigned h && s.boot.keyHash == some (sha256 (bytesAt h 80 64)) &&
  ecdsaOk (beNat (bytesAt h 80 32)) (beNat (bytesAt h 112 32)) (beNat (bytesAt h 176 32)) (beNat (bytesAt h 208 32))
    (bytesAt h 0 176)

/-- The body failure recorded against a slot's header (R368). -/
def State.failRec (s : State) : Slot → Option Nat
  | .a => s.boot.failA
  | .b => s.boot.failB
def State.bodyBad (s : State) (sl : Slot) : Bool := s.failRec sl == some (hdrCrc (s.hdr sl))
def setFailRec (sl : Slot) (v : Option Nat) (s : State) : State :=
  match sl with
  | .a => { s with boot := { s.boot with failA := v } }
  | .b => { s with boot := { s.boot with failB := v } }

/-- A recorded body failure ends as its slot's header changes, s0 being the state before (R368). -/
def endRec (s0 : State) (sl : Slot) (s : State) : State := if s0.hdr sl = s.hdr sl then s else setFailRec sl none s

/-- The flash with a run of bytes replaced. -/
def setFlash (a : Nat) (bs : List Byte) (s : State) : State :=
  endRec s .b (endRec s .a { s with boot := { s.boot with flash := ((List.range bs.length).foldl
    (fun (f : Sparse 8) (i : Nat) => sparseSet flashDefault f (a + i) (bs.getD i 0)) s.boot.flash) } })

/-- Why a slot is no candidate, 0 if it is one (R365). -/
def State.slotCause (s : State) (sl : Slot) : Nat :=
  let c := s.hdrCause sl
  if c ≠ 0 then c
  else if s.bodyBad sl then 11
  else if s.boot.keyHash.isSome && !s.authentic sl then 5
  else 0

/-- NVM_SLOTSTATx and NVM_SLOTGENx. -/
def slotStat : Slot → Nat
  | .a => A.NVM_SLOTSTATA
  | .b => A.NVM_SLOTSTATB
def slotGen : Slot → Nat
  | .a => A.NVM_SLOTGENA
  | .b => A.NVM_SLOTGENB

/-- The slot's registers show how its header was found, with a cause. Whether it is a candidate R365 says. -/
def noteSlot (sl : Slot) (cause : Nat) (s : State) : State :=
  let ok := s.hdrCause sl == 0
  (s.setWord (slotStat sl) (BitVec.ofNat 32 (b2n ok + 2 * b2n (ok && s.authentic sl) + 4 * b2n (s.slotCause sl == 0) +
    8 * b2n (ok && s.bodyBad sl) + 256 * cause))).setWord (slotGen sl)
    (BitVec.ofNat 32 (if ok then hdrGen (s.hdr sl) else 0))

/-- The integrity check of R367 on a slot without loading it: 0, or the cause of its failure. -/
def State.bodyCause (s : State) (sl : Slot) : Nat :=
  let h := s.hdr sl
  if !((s.sects sl).all fun e => BitVec.ofNat 32 e.crc == crc32c (s.imgBytes sl e.off e.len)) then 6
  else if bytesAt h 48 32 ≠ sha256 (s.imgBytes sl (hdrHlen h) (hdrIlen h - hdrHlen h)) then 7
  else 0

/-! ## Commands -/

/-- The bytes of the unit in which the device programs or erases (R376). -/
def State.nvmUnit (s : State) (code : Nat) : Nat := if code = 3 then 2 ^ s.eraseL2 else 256

/-- What a program or erase that ends early leaves of its range: its first k units are done, the data of a program being free, and the
rest is untouched (R374); of a unit in which the device failed nothing is known. -/
def leftOf (c : NvmCmd) (err k : Nat) (s : State) : List Byte :=
  (List.range c.len).map fun i =>
    let u := i / s.nvmUnit c.code
    let open' : Byte := (Config.freeWord (s.free + 1 + i)).truncate 8
    if u < k then (if c.code = 3 then 0xFF else open')
    else if u = k ∧ err = 7 then open'
    else s.flashByte (c.addr + i)

/-- A flash command ends with an error: NVM_ERR is raised (R376, R377). How far a program or erase came is free. -/
def failNvm (err : Nat) (s : State) : State :=
  match s.boot.cmd with
  | none => s
  | some c =>
    let unit := s.nvmUnit c.code
    let k := s.freeVal.toNat % (c.len / unit + 1)
    let s0 := { s with free := s.free + 1 + c.len }
    let s1 := if c.code = 2 ∨ c.code = 3 then setFlash c.addr (leftOf c err k s) s0 else s0
    let s2 := { s1 with boot := { s1.boot with cmd := none } }
    let s3 := if c.code = 4 then s2 else s2.put F.NVM_CMDSTAT_PROG (k * unit / 256)
    (((s3.put F.NVM_CMDSTAT_BUSY 0).put F.NVM_CMDSTAT_DONE 1).put F.NVM_CMDSTAT_ERR err).raise 11

/-- Whether a flash range reaches into a slot, and whether that slot was loaded at the last boot (R376). -/
def State.inSlot (s : State) (a len : Nat) (sl : Slot) : Bool :=
  decide (a < s.slotBase sl + s.slotSize) && decide (s.slotBase sl < a + len)
def State.slotLoaded (s : State) : Bool :=
  match s.boot.phase with
  | .held => false
  | .rom => false
  | .noImage => false
  | _ => true

/-- The alignment and range rules of a command (R376). -/
def State.nvmRangeOk (s : State) (code a len : Nat) : Bool :=
  let unit := if code = 1 then 4 else if code = 2 then 256 else 2 ^ s.eraseL2
  a % unit == 0 && len % unit == 0 && len != 0 && decide (a + len ≤ 2 ^ s.capL2)

/-- The code with which a command is refused, 0 if it is accepted (R376); the lowest where several apply (log 61). -/
def State.nvmRefusal (s : State) (code a len : Nat) : Nat :=
  if s.flag F.NVM_CMDSTAT_BUSY then 1
  else if (code = 2 ∨ code = 3) ∧ ¬ s.flag F.PROT_CFG_FLASHWE ∧ s.boot.phase ≠ .noImage then 2
  else if 1 ≤ code ∧ code ≤ 3 ∧ s.slotLoaded ∧ s.inSlot a len s.boot.slot then 3
  else if code = 0 ∨ 4 < code ∨ (code ≤ 3 ∧ ¬ s.nvmRangeOk code a len) then 4
  else 0

/-- GO of NVM_CMD. A program or erase under a supply warning, and any command while non-volatile writes are blocked, ends at
once with ERR 5, the flash untouched (R347, R348, log 61). -/
def nvmGo (s : State) : State :=
  let code := s.get F.NVM_CMD_CODE
  let a := s.get F.NVM_FADDR_FADDR
  let len := s.get F.NVM_LEN_LEN
  let r := s.nvmRefusal code a len
  if r ≠ 0 then s.put F.NVM_CMDSTAT_ERR r
  else
    let s1 := ((s.put F.NVM_CMDSTAT_DONE 0).put F.NVM_CMDSTAT_ERR 0).put F.NVM_CMDSTAT_PROG 0
    if !s1.pwr.nvwBelow.isEmpty || (s1.flag F.PWR_MON_STAT_WARN && (code == 2 || code == 3)) then
      ((s1.put F.NVM_CMDSTAT_DONE 1).put F.NVM_CMDSTAT_ERR 5).raise 11
    else
      let c : NvmCmd := { code := code, addr := a, len := len, host := s1.pair A.NVM_HADDR_LO A.NVM_HADDR_HI,
                          slot := if s1.flag F.NVM_CMD_SLOT then .b else .a }
      { s1.put F.NVM_CMDSTAT_BUSY 1 with boot := { s1.boot with cmd := some c } }

/-- A write of NVM_CMD: the code and slot, then GO (R376). -/
def nvmCmdWrite (v : Word) (s : State) : State :=
  let s1 := (s.put F.NVM_CMD_CODE v.toNat).put F.NVM_CMD_SLOT (v.toNat / 8)
  if bitAt v.toNat 31 then nvmGo s1 else s1

/-- The slot preference of NVM_BOOTSEL, kept in the journal (R366). -/
def setPref (pref : Nat) (once : Bool) (s : State) : State := { s with boot := { s.boot with pref := pref, once := once } }

/-- What writes the journal waits until non-volatile writes resume (R348). -/
def nvWait (w : NvWait) (s : State) : State := { s with pwr := { s.pwr with waits := s.pwr.waits ++ [w] } }

/-- The slot preference changes as the journal takes it (R348, R366). -/
def writePref (p : Nat) (o : Bool) (s : State) : State := if s.nvOk then setPref p o s else nvWait (.slotPref p o) s

/-- A write of NVM_BOOTSEL (R366). -/
def bootselWrite (v : Word) (s : State) : State := writePref (getBits v 0 2) (bitAt v.toNat 2) s

/-- A running command is ended from outside (R347, R374). -/
def abortNvm (err : Nat) (s : State) : State := if s.boot.cmd.isSome then failNvm err s else s

/-! ## A channel that does not come up -/

/-- A channel that start-up trains is left OFF and reported (R369). -/
def trainFailed (n : Fin 16) (s : State) : State :=
  if bitAt s.boot.trainMask n.val then
    let s1 := { s with boot := { s.boot with trainMask := s.boot.trainMask - 2 ^ n.val } }
    if bitAt s1.boot.chMask n.val then (s1.put (F.NVM_CHBOOT_FAIL.bit n) 1).raise 11 else s1
  else s

end Sys2Proof.Machine
end

