-- ==== Sys2Proof/Machine/Power.lean ====
section
/-! DEFINITION. Resets, power domains, supplies, standby and clocks (chapters 1, 14 and 17), and the events of the fabric. -/

namespace Sys2Proof.Machine

/-! ## Resets -/

/-- A bit of SYS_RSTCAUSE is set (R30). -/
def rstCause (f : Fld) (s : State) : State := s.put f 1

/-- The journal as it stands when its writes become blocked: what changes later is not yet written (R348). -/
def State.jnlNow (s : State) : JnlWas :=
  { sets := s.tun.sets, regs := sparseDrop (fun k => !journalReg k) s.bar, seed := s.boot.seed, failA := s.boot.failA, failB := s.boot.failB }
def noteJnl (s : State) : State := { s with pwr := { s.pwr with jnlWas := s.pwr.jnlWas.or (some s.jnlNow) } }

/-- What the journal had not yet taken while its writes were blocked is lost with the supplies (R348). -/
def loseUnwritten (s : State) : State :=
  match s.pwr.jnlWas with
  | some j =>
    let s1 := { s with bar := sparseDrop (fun k => journalReg k) s.bar }
    let s2 := j.regs.foldl (fun (s : State) (x : Nat × Word) => s.setWord x.1 x.2) s1
    { s2 with tun := { s2.tun with sets := j.sets }, pwr := { s2.pwr with jnlWas := none },
              boot := { s2.boot with seed := j.seed, failA := j.failA, failB := j.failB } }
  | none => s

/-- The internal power-on reset is to be released at tick t: T0, unless RESET_N rises later, with DEV_TIME 0 (R371, R395). -/
def releaseAt (t : Nat) (s : State) : State :=
  { s with devBase := t, boot := { s.boot with t0 := t }, pwr := { s.pwr with relTick := some t, mainUp := true } }

/-- What a power-on and a brown-out reset have in common: every switched domain is reset, DEV_TIME and the epoch start anew
and SYS_BOOTCNT counts (R24, R26, R28, R29). A staged low word of the epoch goes with it, and stays through every other reset
(DESIGN CHOICE, log 140). -/
def powerUp (cause : Fld) (s0 : State) : State :=
  let s := loseUnwritten s0
  let s1 := rstCause cause (domsAtReset (dropSwitched s))
  let s2 := ([A.SYS_EPOCH_LO, A.SYS_EPOCH_HI, A.SYS_EPOCHBASE_LO, A.SYS_EPOCHBASE_HI].foldl
    (fun (s : State) (a : Nat) => s.setWord a 0) s1).setWord (bankOf 21 A.SYS_EPOCH_LO) 0
  startBoot { s2 with devBase := s.tick, ins := { s2.ins with counts := [] }, boot := { s2.boot with bootCnt := min (s2.boot.bootCnt + 1) (2 ^ 32 - 1) } }

/-- The device wakes from a source (R403). -/
def wake (src : Fld) (s : State) : State :=
  if s.pwr.standby && !s.pwr.supen then
    let s1 := s.put src 1
    { s1 with pwr := { s1.pwr with supen := true } }
  else s

/-- R29, R395, R403: the main supplies rise through the power-on level, and 2 ms later the internal reset is released. Out of standby
WAKE is set too, and where nothing has woken the device yet the rising rails have. -/
def execPowerOnReset (s : State) : Host.Outcome State Fault Refusal :=
  .next (let s1 := wake F.PWR_WAKESRC_SUPPLY s
    let s2 := if s.pwr.standby then rstCause F.SYS_RSTCAUSE_WAKE s1 else s1
    releaseAt (s.tick + 2 * msTicks)
      (powerUp F.SYS_RSTCAUSE_POR { s2 with pwr := { s2.pwr with standby := false, broken := [], supen := true } }))

/-- The BELOW bit of a rail. -/
def belowFld (r : Rail) : Fld := F.PWR_MON_STAT_BELOW.bit (match r with
  | .vdd => 0 | .vdd18 => 1 | .vdd33 => 2)

/-- The main supplies are gone: only VKEEP is present, and no heater conducts (R267). -/
def mainGone (s : State) : State := { s.eachCh heaterOff with pwr := { s.pwr with mainUp := false } }

/-- R29, R349, R395: a rail falls to its brown-out level; a channel that has not been halted leaves its line PARTIAL. The internal reset
stays until the rails are good again. In standby every switched domain is off already, and the device is in deep standby from then on
(R402; DEDUCED, log 141). -/
def execBrownOutReset (r : Rail) (s : State) : Host.Outcome State Fault Refusal :=
  .next (if s.pwr.standby then mainGone s else
    let s1 := s.eachCh fun n s => if s.chOn n then inhibitWith (fun _ s => s) 2 n s else s
    let s2 := ((s1.put (belowFld r) 1).put F.PWR_MON_STAT_NVWB 1)
    let low := if s2.pwr.nvwBelow.contains r then s2.pwr.nvwBelow else r :: s2.pwr.nvwBelow
    let broken := if s2.pwr.broken.contains r then s2.pwr.broken else r :: s2.pwr.broken
    noteJnl (powerUp F.SYS_RSTCAUSE_BOR (mainGone { s2 with pwr :=
      { s2.pwr with supen := true, nvwBelow := low, broken := broken, relTick := none } })))

/-- Channel n has come to its line boundary: a line decided is fired and its window is over (R45, R56, R155). -/
def drain (n : Fin 16) (s : State) : State :=
  checkDone n (((s.ch n).ft.decided.foldl (fun (s : State) (d : Decided) => fire n d s) s).modWav n fun w =>
    { w with win := none })

/-- Every channel halts at a line boundary and the ledger is flushed whole (R53, R374, R402). -/
def haltAndFlush (s : State) : State := completeFlush (startFlush false (s.eachCh fun n s => drain n (s.hold n 2)))

/-- The device reset: channels halted and the ledger flushed, every switched domain is reset and start-up runs (R29, R374). -/
def deviceReset (s : State) : State :=
  let s1 := startBoot (rstCause F.SYS_RSTCAUSE_DEVRST (domsAtReset (dropSwitched (abortNvm 5 (haltAndFlush s)))))
  { s1 with boot := { s1.boot with resetN := true } }

/-- Every channel is halted and the flush begun for what waits for non-volatile writes to complete it (R348; DEDUCED, log 142). -/
def haltAndWait (w : NvWait) (s : State) : State := nvWait w (startFlush false (s.eachCh fun n s => s.hold n 2))

/-- A write of SYS_DEVRST: the key asks for a device reset (R374). Its flush waits while non-volatile writes are blocked
(R348). -/
def devrstWrite (v : Word) (s : State) : State :=
  if getBits v 0 16 ≠ 0xDE57 then s
  else if s.nvOk then deviceReset s
  else haltAndWait .deviceReset s

/-- R374: a device reset that PF0 asks for. -/
def execDeviceReset (m : Master) (v : Word) (s : State) : Host.Outcome State Fault Refusal :=
  .next (s.wr m A.SYS_DEVRST (devrstWrite v))

/-- The endpoint and the functions' configuration start anew (R29). -/
def resetEndpoint (s : State) : State := { s with host := { Endpoint.reset with wasUp := s.host.wasUp } }

/-- R29: PERST_N. -/
def execPcieFundamentalReset (s : State) : Host.Outcome State Fault Refusal :=
  .next (rstCause F.SYS_RSTCAUSE_PERST (if s.domOn 0 then resetEndpoint s else s))

/-- R29: a PCIe hot reset or link disable. -/
def execHotReset (s : State) : Host.Outcome State Fault Refusal :=
  .next (rstCause F.SYS_RSTCAUSE_HOTRST (if s.domOn 0 then resetEndpoint s else s))

/-- The configuration space and the MSI-X state of a function at reset. -/
def resetFunction (fn : Fin 2) (s : State) : State :=
  let h := s.host
  { s with host := { h with d3 := h.d3.set fn false, msixEn := h.msixEn.set fn false,
                            fnMasked := h.fnMasked.set fn false, cfg := h.cfg.set fn [], msixTab := h.msixTab.set fn [],
                            vecMasked := h.vecMasked.set fn (BitVec.allOnes 512), pba := h.pba.set fn 0 } }

/-- R29, R209: function-level reset of PF0; its bus mastering is off until it is enabled again. -/
def flrPf0 (s : State) : State :=
  if s.domOn 0 then
    let s1 := resetFunction 0 (rstCause F.SYS_RSTCAUSE_FLR0 s)
    abortOwned .pf0 { s1 with host := { s1.host with bme := false } }
  else s
def execFlrPf0 (s : State) : Host.Outcome State Fault Refusal := .next (flrPf0 s)

/-- R29, R319, R321: function-level reset of PF1: its mailboxes, banks and views are cleared and its locks released. -/
def flrPf1 (s : State) : State :=
  if s.domOn 0 then
    let s1 := releaseLocks .pf1 (resetFunction 1 (rstCause F.SYS_RSTCAUSE_FLR1 s))
    let s2 := { s1 with
      bar := sparseDrop (fun k => k / 0x2000000 == portBank .pf1 && blockOf (k % 0x2000000) == 3) s1.bar,
      mbx := s1.mbx.map fun (b : Mbox) => { b with views := b.views.set (portView .pf1) MbxView.reset } }
    allMbx.foldl (fun (s : State) (m : Fin 48) => if 44 ≤ m.val then postNext m (clearInbound m s) else s) s2
  else s
def execFlrPf1 (s : State) : Host.Outcome State Fault Refusal := .next (flrPf1 s)

/-! ## The supervisor -/

/-- R29, R433: the two cores disagree, and the supervisor restarts. -/
def execSupLockstep (s : State) : Host.Outcome State Fault Refusal :=
  .next (if s.supRuns then supReset true (s.raise 4) else s)

/-- R29, R433: the supervisor's watchdog expires, and it restarts. -/
def execSupWdog (s : State) : Host.Outcome State Fault Refusal :=
  .next (if s.supRuns then supReset false (s.raise 5) else s)

/-- R29, R386, R433: the restart of the supervisor completes. -/
def execSupRestart (s : State) : Host.Outcome State Fault Refusal :=
  .next (if s.domOn 3 && !s.boot.supUp then (supRunsAgain s).raise 6 else s)

/-- R15, R57: a restarted channel sequencer runs again; a command that waited for it is executed. -/
def execSequencerRestartDone (n : Fin 16) (s : State) : Host.Outcome State Fault Refusal :=
  .next (if s.chOn n && !(s.ch n).work.seqUp then takeWaiting n (s.modWork n fun w => { w with seqUp := true }) else s)

/-! ## Power domains -/

/-- Requests for the domains named in a word, in ascending order (R398 to R400). -/
def requestDoms (m : Master) (v : Word) (on : Bool) (s : State) : State :=
  startRamp ((List.range 24).foldl (fun (s : State) (d : Nat) =>
    if bitAt v.toNat d then requestDom (m == .pf0) d on s else s) s)

/-- R398: switch-on requests. -/
def execPwrDomon (m : Master) (v : Word) (s : State) : Host.Outcome State Fault Refusal :=
  .next (s.wr m A.PWR_DOMON (requestDoms m v true))

/-- R398: switch-off requests. -/
def execPwrDomoff (m : Master) (v : Word) (s : State) : Host.Outcome State Fault Refusal :=
  .next (s.wr m A.PWR_DOMOFF (requestDoms m v false))

/-- A channel that has come ON after READY without having been isolated rebuilds its work (R59); an isolated one does as it rejoins
(R385), and start-up does it for all at its step 9. -/
def resumeOn (n : Fin 16) (s : State) : State :=
  if s.boot.phase = .ready ∧ !(s.ch n).iso.isolated then
    (resumeCh n s).modIso n fun i => { i with memLost := false }
  else s

/-- What coming ON starts in domain d: the supervisor boots (R320); a channel's tick count starts at a phase that is not fixed
(R96), its memory at the rate of its clock (R407), the trackers that its fire timing selects (R125), and its resume (R59). -/
def domCameOn (d : Nat) (s : State) : State :=
  if d = 3 then { s with boot := { s.boot with supUp := false } }
  else match chOf (d - 8) with
    | some n => if 8 ≤ d then
        let slow := s.flag (F.SYS_CLKSTAT_CHFB.bit n)
        let g := s.freeVal.toNat % 8
        let s1 := (s.takeFree.modWav n fun w => { w with gridBase := g }).modIso n fun i => { i with memSlow := slow }
        withFrets (syncTrackers n) (resumeOn n s1)
      else s
    | none => s

/-- The ramp of domain d ends: it is ON or OFF, or with `up` false it is in FAIL, which is reported (R31, R400). -/
def endRamp (d : Nat) (on up : Bool) (s : State) : State :=
  let s1 := { s with pwr := { s.pwr with ramp := none } }
  if !on then s1.setDom d 0
  else if up then domCameOn d (s1.setDom d 2)
  else
    let s2 := (s1.setDom d 3).raise 27
    { s2 with pwr := { s2.pwr with queue := s2.pwr.queue.filter fun r => r != (d, false) } }

/-- R400: the domain that ramps reaches ON or OFF, and the next queued request starts. -/
def execDomainRampDone (s : State) : Host.Outcome State Fault Refusal :=
  .next (match s.pwr.ramp with
    | some (d, on) => startRamp (endRamp d on true s)
    | none => s)

/-- R31, R320, R369, R398: a domain has not reached ON within 1 ms. It accepts only a switch-on, so a switch-off queued behind goes. -/
def execPwrDomfail (s : State) : Host.Outcome State Fault Refusal :=
  .next (match s.pwr.ramp with
    | some (d, true) =>
      if s.pwr.rampTick + msTicks ≤ s.tick then
        let s1 := endRamp d true false s
        let s2 := if d = 3 then abortWaiting s1 else s1
        startRamp (match chOf (d - 8) with
          | some n => if 8 ≤ d then trainFailed n s2 else s2
          | none => s2)
      else s
    | _ => s)

/-! ## Standby and wake -/

/-- The channels whose domains were ON have been power-cycled (SYS_RSTCAUSE.CHRST). -/
def markCycled (s0 : State) (s : State) : State :=
  s.eachCh fun n s => if s0.chOn n then s.put (F.SYS_RSTCAUSE_CHRST.bit n) 1 else s

/-- The entry to standby: the ledger flushed, every switched domain goes off, then SUPEN falls (R402). A wake that came while it
waited takes effect now (R403). -/
def enterStandby (s : State) : State :=
  let s1 := markCycled s (dropSwitched (abortNvm 5 (haltAndFlush s)))
  let s2 := (s1.setWord A.SYS_DOMSTAT_LO 0).setWord A.SYS_DOMSTAT_HI 0
  let s3 := { s2 with pwr := { s2.pwr with standby := true, supen := false, stbyTick := s.tick, flush := none },
                      boot := { s2.boot with phase := .held, supUp := false } }
  if s.pwr.wakeDue then wake F.PWR_WAKESRC_WAKEN s3 else s3

/-- A write of PWR_STBY: the key puts the device into standby, unless a channel is in RUN (R402). Its flush waits while
non-volatile writes are blocked (R348). -/
def stbyWrite (v : Word) (s : State) : State :=
  if getBits v 0 16 ≠ 0x57DB then s
  else if allCh.any fun n => s.wstate n == 1 then s.put F.PWR_DOMREF_CAUSE 7
  else if s.nvOk then enterStandby s
  else haltAndWait .standby s

/-- R402: PF0 puts the device into standby. -/
def execPwrStby (m : Master) (v : Word) (s : State) : Host.Outcome State Fault Refusal :=
  .next (s.wr m A.PWR_STBY (stbyWrite v))

/-- R403: WAKE_N has been low for 1 ms. While the entry to standby waits (R348) the wake waits for its end. -/
def execWakeNWake (s : State) : Host.Outcome State Fault Refusal :=
  .next (if !s.flag F.PWR_WAKECFG_WAKEN then s
    else if s.pwr.waits.contains .standby then { s with pwr := { s.pwr with wakeDue := true } }
    else wake F.PWR_WAKESRC_WAKEN s)

/-- R403: the wake timer expires. A tick is 2.5 ns, so 32,768 of its units are 400,000,000 ticks. -/
def execWakeTimer (s : State) : Host.Outcome State Fault Refusal :=
  .next (if s.flag F.PWR_WAKECFG_TMR ∧ s.get F.PWR_WAKETMR_TICKS * 400000000 ≤ (s.tick - s.pwr.stbyTick) * 32768 then
      wake F.PWR_WAKESRC_TMR s
    else s)

/-- R403: the main rails rise while SUPEN is low. -/
def execMainRailsRise (s : State) : Host.Outcome State Fault Refusal :=
  .next (let s1 := wake F.PWR_WAKESRC_SUPPLY s
    { s1 with pwr := { s1.pwr with mainUp := true } })

/-- R30: VKEEP is lost while the main supplies are absent: the contents of AON are lost, the trims of its references among them.
SUPEN is high from the next application of VKEEP on, and no standby is remembered (R403). -/
def execVkeepLoss (s : State) : Host.Outcome State Fault Refusal :=
  .next (if !s.pwr.mainUp || (s.pwr.standby && !s.pwr.supen) then
      let bar := sparseDrop (fun k => (domainOf (k % 0x2000000)).isNone) s.bar
      let s1 := { s with
        bar := bar, thm := Thm.reset, tun := { s.tun with eff := [], ref := [] },
        pwr := { s.pwr with mainUp := false, nvwBelow := [], standby := false, supen := true } }
      let s2 := s1.eachCh fun n s => s.modWork n fun w => { w with ledgerValid := false, flushedTo := 0, boots := [] }
      let s3 := s2.setWord A.SYS_RSTCAUSE 1
      if s.pwr.standby then (s3.setWord A.SYS_DOMSTAT_LO 0).setWord A.SYS_DOMSTAT_HI 0 else s3
    else s)

/-- R371, R395: RESET_N rises after the internal release: T0 is now, and DEV_TIME starts with the start-up. -/
def execResetNRelease (s : State) : Host.Outcome State Fault Refusal :=
  .next (if s.boot.phase = .rom ∧ s.released ∧ ¬ s.boot.resetN then
      { s with devBase := s.tick, boot := { s.boot with t0 := s.tick, resetN := true } }
    else s)

/-! ## Supplies -/

/-- A warning sequence begins (R347): DMA and table loads stop, a flash command ends, every channel halts, the ledger is
flushed. -/
def supplyWarn (s : State) : State :=
  let s1 := (((s.put F.PWR_MON_STAT_WARN 1).put F.PWR_MON_STAT_FLUSHDONE 0).put F.PWR_MON_FLUSH_HALTT 0).put
    F.PWR_MON_FLUSH_FLUSHT 0
  let s2 := (abortNvm 5 { s1 with pwr := { s1.pwr with warnTick := s.tick } }).raise 19
  startFlush true (s2.eachCh fun n s => s.hold n 2)

/-- R346, R347: a rail falls below its warning level, or PFAIL_N is asserted. -/
def execSupplyWarning (r : Option Rail) (s : State) : Host.Outcome State Fault Refusal :=
  .next (match r with
    | some r => if s.flag (belowFld r) then s else supplyWarn ((s.put (belowFld r) 1).bump F.PWR_MON_CNT_WARNCNT 1)
    | none => if s.flag F.PWR_MON_STAT_PFAIL then s
      else supplyWarn ((s.put F.PWR_MON_STAT_PFAIL 1).bump F.PWR_MON_CNT_PFAILCNT 1))

/-- R53, R347: the flush under way writes its completion mark, once every channel stands at a line boundary (R6). -/
def execLedgerFlushComplete (s : State) : Host.Outcome State Fault Refusal :=
  .next (match s.pwr.flush with
    | some (_, warn) =>
      if s.nvOk && allCh.all s.atBoundary then
        let s1 := completeFlush s
        if warn then (s1.put F.PWR_MON_STAT_FLUSHDONE 1).put F.PWR_MON_FLUSH_FLUSHT
          (min 65535 ((s.tick - s.pwr.warnTick) / usTicks)) else s1
      else s
    | none => s)

/-- R348, R355: a rail falls below VNVW. -/
def execNvw (r : Rail) (s : State) : Host.Outcome State Fault Refusal :=
  .next (if s.pwr.nvwBelow.contains r then s
    else
      let s1 := (noteJnl { s with pwr := { s.pwr with nvwBelow := r :: s.pwr.nvwBelow } }).put F.PWR_MON_STAT_NVWB 1
      if s.pwr.nvwBelow.isEmpty then s1.raise 20 else s1)

/-- What waited for non-volatile writes happens, oldest first; a device reset and standby leave nothing to follow (R348). -/
def runWaits : List NvWait → State → State
  | [], s => s
  | .slotPref p o :: r, s => runWaits r (setPref p o s)
  | .deviceReset :: _, s => deviceReset s
  | .standby :: _, s => enterStandby s

/-- The rails that had been at their brown-out level and satisfy p are above it again; with the last one the internal reset is released
2 ms later (R395; DESIGN CHOICE, log 171). -/
def railsBack (p : Rail → Bool) (s : State) : State :=
  let left := s.pwr.broken.filter fun r => !p r
  let s1 := { s with pwr := { s.pwr with broken := left } }
  if !s.pwr.broken.isEmpty && left.isEmpty then releaseAt (s.tick + 2 * msTicks) s1 else s1

/-- R348, R395: every rail is above VNVW again, and so above its brown-out level; what waited for a journal write goes on. -/
def execNvWriteResume (s : State) : Host.Outcome State Fault Refusal :=
  .next (let s1 := { s with pwr := { s.pwr with nvwBelow := [], waits := [], jnlWas := none } }.put F.PWR_MON_STAT_NVWB 0
    railsBack (fun _ => true) (runWaits s.pwr.waits ((clearMarks s1).eachCh takeWaiting)))

/-- R346, R349, R395: a rail rises above its warning level again, or PFAIL_N is released. With none left, no reset occurs. -/
def execSupplyRecover (r : Option Rail) (s : State) : Host.Outcome State Fault Refusal :=
  .next (match r with
    | some r => railsBack (· == r) (s.put (belowFld r) 0)
    | none => s.put F.PWR_MON_STAT_PFAIL 0)

/-- A write of PWR_MON_STAT: 1 to WARN clears it with the supplies back, and DMA goes on (R349). -/
def warnWrite (v : Word) (s : State) : State :=
  if bitAt v.toNat 0 && s.get F.PWR_MON_STAT_BELOW == 0 && !s.flag F.PWR_MON_STAT_PFAIL then
    (s.put F.PWR_MON_STAT_WARN 0).refreshHolds
  else s

/-- R349: software clears WARN. -/
def execSupplyWarnClear (m : Master) (v : Word) (s : State) : Host.Outcome State Fault Refusal :=
  .next (s.wr m A.PWR_MON_STAT (warnWrite v))

/-! ## Clocks -/

/-- R18, R249, R405: the reference is lost; every channel and the shared PLL go to their fallback oscillators, and a gate that runs
gives no result. -/
def execClkRefloss (s : State) : Host.Outcome State Fault Refusal :=
  .next (if s.flag F.SYS_CLKSTAT_REFOK then
      let s1 := ((s.put F.SYS_CLKSTAT_REFOK 0).put F.SYS_CLKSTAT_SHFB 1).put F.SYS_CLKSTAT_CHFB 0xFFFF
      let s2 := s1.eachCh fun n s => s.modIso n fun i => { i with switchBack := false }
      (dropGate (fun _ => true) (s2.bump F.SYS_CLKCNT_REFLOSS 1)).raise 24
    else s)

/-- R405: the reference has been present for 10 ms and the PLLs have relocked: the shared consumers switch back, each channel
at its next line boundary. -/
def execClkRefback (s : State) : Host.Outcome State Fault Refusal :=
  .next (if !s.flag F.SYS_CLKSTAT_REFOK || s.flag F.SYS_CLKSTAT_SHFB || s.get F.SYS_CLKSTAT_CHFB != 0 then
      let s1 := (s.put F.SYS_CLKSTAT_REFOK 1).put F.SYS_CLKSTAT_SHFB 0
      let s2 := s1.eachCh fun n s => if s.flag (F.SYS_CLKSTAT_CHFB.bit n) then
          s.modIso n fun i => { i with switchBack := true } else s
      s2.raise 25
    else s)

/-- R405: a PLL loses lock with the reference present; its consumers alone go to their fallback. -/
def execClkPllfail (p : Pll) (s : State) : Host.Outcome State Fault Refusal :=
  .next (if s.flag F.SYS_CLKSTAT_REFOK then
      let f : Fld := match p with
        | .shared => F.SYS_CLKSTAT_SHFB
        | .ch n => F.SYS_CLKSTAT_CHFB.bit n
      let s1 := match p with
        | .shared => s
        | .ch n => s.modIso n fun i => { i with switchBack := false }
      let i := match p with
        | .shared => 16
        | .ch n => n.val
      (dropGate (· == i) ((s1.put f 1).bump F.SYS_CLKCNT_PLLFAIL 1)).raise 26
    else s)

/-- R405: channel n, at a line boundary, returns to the reference. -/
def execChannelClockSwitchback (n : Fin 16) (s : State) : Host.Outcome State Fault Refusal :=
  .next (if (s.ch n).iso.switchBack && s.atBoundary n then
      (s.put (F.SYS_CLKSTAT_CHFB.bit n) 0).modIso n fun i => { i with switchBack := false }
    else s)

/-- R407: at a refresh the memory of channel n takes the rate that goes with its clock. -/
def execMemoryRateChange (n : Fin 16) (s : State) : Host.Outcome State Fault Refusal :=
  .next (if s.chOn n then
      let slow := s.flag (F.SYS_CLKSTAT_CHFB.bit n)
      s.modIso n fun i => { i with memSlow := slow }
    else s)

/-- R27: each channel's copy of DEV_TIME is realigned: it lies within 8 ns of it, how far exactly is free, and steps back in no
case. -/
def execDevtimeBroadcast (s : State) : Host.Outcome State Fault Refusal :=
  .next (s.eachCh fun n s => if s.chOn n then
      let o : Int := (s.freeVal.toNat % 17 : Nat) - 8
      let t := s.chTimeAt n s.tick
      s.takeFree.modFt n fun f => { f with timeOfs := o, timeFloor := t }
    else s)

/-! ## The epoch -/

/-- The staged low word of the epoch. -/
def epochStage : Nat := bankOf 21 A.SYS_EPOCH_LO

/-- A write of SYS_EPOCH_HI: both words take effect and the base is captured (R25). -/
def epochHi (v : Word) (s : State) : State :=
  ((s.setWord A.SYS_EPOCH_LO (s.word epochStage)).setWord A.SYS_EPOCH_HI v).setPair
    A.SYS_EPOCHBASE_LO A.SYS_EPOCHBASE_HI s.devTime

/-- R25: the low word is staged. -/
def execSysEpochLoWrite (m : Master) (v : Word) (s : State) : Host.Outcome State Fault Refusal :=
  .next (s.wr m A.SYS_EPOCH_LO fun s => s.setWord epochStage v)

/-- R25: the high word makes both take effect. -/
def execSysEpochHiWrite (m : Master) (v : Word) (s : State) : Host.Outcome State Fault Refusal :=
  .next (s.wr m A.SYS_EPOCH_HI (epochHi v))

/-! ## The fabric and the journal -/

/-- R433: the fabric makes a link-level retry; the event is raised at most once per 1 ms. -/
def execFabRetry (s : State) : Host.Outcome State Fault Refusal := .next (s.raiseLimited 0 msTicks)

/-- R433: an uncorrectable error in the fabric or the firmware store. -/
def execFabUe (s : State) : Host.Outcome State Fault Refusal := .next (s.raise 1)

/-- R433: a correctable MRAM error; the event is raised at most once per 1 ms. -/
def execJnlCe (s : State) : Host.Outcome State Fault Refusal := .next (s.raiseLimited 3 msTicks)

end Sys2Proof.Machine
end

