-- ==== Sys2Proof/Machine/Operands.lean ====
section
/-! DEFINITION. What a read of a register returns and does (R10 to R13): the registers that show other state, the copies a
master or port has of its own, the high-word latches, and the effects of a read. -/

namespace Sys2Proof.Machine

/-! ## Addressing -/

/-- The index of an offset in a group of `cnt` registers. -/
def regIdx (base stride cnt a : Nat) : Option (Fin cnt) :=
  if h : base ≤ a ∧ (a - base) % stride = 0 ∧ (a - base) / stride < cnt then some ⟨(a - base) / stride, h.2.2⟩ else none

/-- The group of `cnt` windows of `stride` bytes an offset lies in: its index and the offset within. -/
def regWin (base stride cnt a : Nat) : Option (Fin cnt × Nat) :=
  if h : base ≤ a ∧ (a - base) / stride < cnt then some (⟨(a - base) / stride, h.2⟩, (a - base) % stride) else none

/-- A number as a word. -/
def numWord (v : Nat) : Word := BitVec.ofNat 32 v

/-- A word with one bit for each index. -/
def maskOf {k : Nat} (f : Fin k → Bool) : Nat :=
  (List.finRange k).foldl (fun (acc : Nat) (i : Fin k) => acc + b2n (f i) * 2 ^ i.val) 0

/-- The low and the high word of a number held as two's complement. -/
def lowWord (v : Int) : Word := numWord (ofSigned 64 v)
def highWord (v : Int) : Word := numWord (ofSigned 64 v / 2 ^ 32)

/-- A stored word with a field replaced. -/
def shownAs (s : State) (f : Fld) (v : Nat) : Word := setBits (s.word f.addr) f.lo f.width v

/-! ## Registers that show other state -/

/-- SYS: the boot count of the journal and DEV_TIME (R28). -/
def sysView (a : Nat) (s : State) : Option Word :=
  if a = A.SYS_BOOTCNT then some (numWord s.boot.bootCnt)
  else if a = A.SYS_TIME_LO then some (numWord s.devTime)
  else if a = A.SYS_TIME_HI then some (numWord (s.devTime / 2 ^ 32))
  else none

/-- FLT: the reactions held, and severities as they act (R327, R330). -/
def fltView (a : Nat) (s : State) : Option Word :=
  if a = A.FLT_CHREACT then some (numWord (maskOf s.holdsS2 + 65536 * maskOf s.holdsS3))
  else if 0x21000 ≤ a ∧ a < 0x21100 then some (sevWord ((a - 0x21000) / 4) (s.word a))
  else none

/-- MBX_m_STAT as port p sees it (R314); a master without a port sees no sender fields. -/
def mbxStat (m : Fin 48) (p : Option Port) (s : State) : Nat :=
  let b := s.mb m
  let v := match p with
    | some q => s.view m q
    | none => MbxView.reset
  let src := match b.src with
    | some q => portNo q
    | none => 0
  b2n b.full + 2 * b2n v.ackWait + 4 * b2n v.aborted + 8 * b2n v.ackTmo + 16 * b2n v.ovr + 256 * src + 65536 * b.len

/-- Whether a port has a bank of its own in mailbox m: a sender has (R314). -/
def hasBank (m : Fin 48) (p : Option Port) : Bool :=
  match p with
  | some q => mbxSender m q
  | none => false

/-- A word of a port's bank, 0 without a bank. -/
def bankWord (m : Fin 48) (p : Option Port) (a : Nat) (s : State) : Word :=
  match p with
  | some q => if mbxSender m q then s.word (bankOf (portBank q) a) else 0
  | none => 0

/-- Who owns the lock as a read of MBX_m_LOCK by a port shows it (R319). -/
def lockShown (m : Fin 48) (p : Option Port) (s : State) : Word :=
  match p with
  | some q => (lockRead q m s).1
  | none => match (s.mb m).lock with
    | some o => numWord (portNo o)
    | none => 0

/-- MBX: the mailboxes as a master sees them. -/
def mbxRegView (m : Master) (a : Nat) (s : State) : Option Word :=
  let p := portOfMaster m
  if a = A.MBX_FULL_LO then some (numWord (maskOf fun k : Fin 48 => (s.mb k).full))
  else if a = A.MBX_FULL_HI then some (numWord (maskOf (fun k : Fin 48 => (s.mb k).full) / 2 ^ 32))
  else match regWin 0x31000 0x100 48 a with
    | none => none
    | some (k, o) =>
      if o = 0 then some (bankWord k p (A.MBX_m_CTRL k) s &&& 0x1F)
      else if o = 4 then some (match p with
        | some q => if isHostPort q then numWord (s.sendRes k q) else 0
        | none => 0)
      else if o = 8 then some (lockShown k p s)
      else if o = 0xC then some (numWord (mbxStat k p s))
      else if o = 0x10 then some (if k.val < 16 ∨ (32 ≤ k.val ∧ k.val < 40) then bankWord k p a s else 0)
      else if 0x40 ≤ o ∧ o < 0x80 then some (bankWord k p a s)
      else if 0x80 ≤ o ∧ o < 0xC0 then
        some (if (o - 0x80) / 4 < (s.mb k).len then (s.mb k).msg.getD ((o - 0x80) / 4) 0 else 0)
      else none

/-- POS_PAIR_STAT.SRC: 3 where both encoders are faulty, else the primary, or the secondary with the primary faulty or only
suspect. -/
def State.pairSrc (s : State) : Nat :=
  if !s.pairEn then 0
  else if s.encFaulty s.pri && s.encFaulty s.sec then 3
  else if !(s.pairOf fePos).onSec then 0
  else if s.encFaulty s.pri then 2 else 1

/-- POS: counts, the pair, and the summary of faults. -/
def posView (a : Nat) (s : State) : Option Word :=
  if a = A.POS_STAT then
    let lost := s.pairEn && s.encFaulty s.pri && s.encFaulty s.sec
    some (numWord (maskOf s.encFaulty + 16 * maskOf (fun e : Fin 4 => s.encEn e && !s.encFaulty e) +
      256 * b2n (s.pairEn && (s.pairOf fePos).onSec) + 512 * b2n lost))
  else if a = A.POS_PAIR_STAT then some (shownAs s F.POS_PAIR_STAT_SRC s.pairSrc)
  else if a = A.POS_PAIR_OFS_LO then some (lowWord (s.pairOfs fePos))
  else if a = A.POS_PAIR_OFS_HI then some (highWord (s.pairOfs fePos))
  else match regIdx (A.POS_ENCe_CNT_LO 0) 0x40 4 a, regIdx (A.POS_ENCe_CNT_HI 0) 0x40 4 a,
      regIdx (A.POS_EMUm_STAT 0) 0x20 4 a with
    | some e, _, _ => some (lowWord (cntInt (s.posCnt e)))
    | _, some e, _ => some (highWord (cntInt (s.posCnt e)))
    | _, _, some k => some (shownAs s (F.POS_EMUm_STAT_HOLD k) (b2n (s.emuHold k)))
    | _, _, _ => none

/-- CAPO: what is free, what is used, and the binding of the reading master. -/
def capoView (m : Master) (a : Nat) (s : State) : Option Word :=
  if a = A.CAPO_STAT then some (numWord (maskOf (fun t : Fin 16 => s.txState t != 0) + 65536 * s.entriesUsed))
  else if a = A.CAPO_BIND then some (s.word (bankOf (masterBank m) a))
  else if a = A.CAPO_ALLOC then some (allocTx m s).1
  else none

/-- THM: the duty in effect of a heater (R266), the failed sensors and the thermistor table. -/
def thmView (a : Nat) (s : State) : Option Word :=
  let fails := maskOf fun k : Fin 48 => s.flag (F.THM_TSs_STAT_FAIL k)
  if let some n := allCh.find? fun (n : Fin 16) => a == A.THM_CHn_HTRSTAT n then
    some (setBits (s.word a) (F.THM_CHn_HTRSTAT_DUTY n).lo (F.THM_CHn_HTRSTAT_DUTY n).width (s.dutyNow n))
  else if a = A.THM_SFAIL_LO then some (numWord fails)
  else if a = A.THM_SFAIL_HI then some (numWord (fails / 2 ^ 32))
  else if a = A.THM_TBLDATA then some s.thmTblRead
  else none

/-- MOT: summaries, actual positions and velocities. -/
def motView (a : Nat) (s : State) : Option Word :=
  if a = A.MOT_STAT then
    some (setBits (setBits (s.word a) 0 4 (maskOf fun x : Fin 4 => s.flag (F.MOT_AXa_STAT_MOVING x))) 4 4
      (maskOf fun x : Fin 4 => s.flag (F.MOT_AXa_STAT_FAULT x)))
  else match regIdx (A.MOT_AXa_XACT_LO 0) 0x80 4 a, regIdx (A.MOT_AXa_XACT_HI 0) 0x80 4 a,
      regIdx (A.MOT_AXa_VACT 0) 0x80 4 a with
    | some x, _, _ => some (lowWord (s.axis x).xact)
    | _, some x, _ => some (highWord (s.axis x).xact)
    | _, _, some x => some (numWord (ofSigned 32 (floorDiv (s.axis x).v 65536)))
    | _, _, _ => none

/-- WRK: the work states, the bands held and LASTSEQ of the journal. -/
def wrkView (a : Nat) (s : State) : Option Word :=
  if a = A.WRK_STAT then
    some (numWord (maskOf (fun n : Fin 16 => s.wstate n == 1) + 65536 * maskOf (fun n : Fin 16 => decide (2 ≤ s.wstate n))))
  else match regIdx (A.WRK_SCRn_STAT 0) 0x40 16 a, regIdx (A.WRK_SCRn_LASTSEQ 0) 0x40 16 a with
    | some n, _ => some (shownAs s (F.WRK_SCRn_STAT_NBANDS n) (s.ch n).work.bands.length)
    | _, some n => some (numWord (s.journal n).lastSeq)
    | _, _ => none

/-- PROT: the slot PROPOSED, the level of STOP_N, and the confirmation bank of the reading master (R353). -/
def protView (m : Master) (a : Nat) (s : State) : Option Word :=
  if a = A.PROT_STAT then
    let w := setBits (s.word a) 12 1 (b2n s.pwr.stopN)
    some (match allTx.find? fun t => s.txState t == 2 with
      | some t => setBits w 0 7 (1 + 2 * t.val + 32 * s.txOwner t)
      | none => setBits w 0 7 0)
  else if a = A.PROT_CFMTX ∨ a = A.PROT_CFM_LO ∨ a = A.PROT_CFM_HI ∨ a = A.PROT_CFMRES then
    some (s.word (bankOf (masterBank m) a))
  else none

/-- CHn_IMG, CHn_WAV and CHn_FT: the lines released, the masks pending, and the position of the engine in encoder
coordinates. -/
def chanView (a : Nat) (s : State) : Option Word :=
  match regWin 0x1000000 0x100000 16 a with
  | none => none
  | some (n, o) =>
    let f := (s.ch n).ft
    let back := s.pageDir n
    let x : BitVec 80 := if back then -f.x else f.x
    let h := printPos back f.h
    if o = 0x10068 then some (shownAs s (F.CHn_IMG_STAT_LEADNOW n) (s.leadNow n))
    else if o = 0x20034 then
      some (shownAs s (F.CHn_WAV_STAT_MASKPEND n) (b2n (s.maskPend n (1 - s.get (F.CHn_WAV_BANK_BANK n)))))
    else if o = 0x30060 then
      some (setBits (setBits (s.word a) 3 1 (b2n (decide (s.get (F.CHn_FT_CTRL_BKL n) ≤ f.fwd)))) 4 1 (b2n (f.latchMark.isSome || f.latchSos.isSome)))
    else if o = 0x30064 then some (numWord (pos16 x).toNat)
    else if o = 0x30068 then some (numWord ((pos16 x).toNat / 2 ^ 32))
    else if o = 0x3006C then some (lowWord (floorDiv h.toInt 65536))
    else if o = 0x30070 then some (highWord (floorDiv h.toInt 65536))
    else if o = 0x30074 then some (numWord f.t1)
    else none

/-- The word a master sees at an offset where a register shows other state, and at the data registers of the table windows. -/
def viewOf (m : Master) (a : Nat) (s : State) : Option Word :=
  match blockOf a with
  | 0 => sysView a s
  | 2 => fltView a s
  | 3 => mbxRegView m a s
  | 4 => posView a s
  | 5 => capoView m a s
  | 6 => thmView a s
  | 7 => motView a s
  | 8 => if a = A.INS_TBLDATA then some s.tblRead else none
  | 9 => if a = A.TUN_SETDATA then some s.setWordAt
    else if a = A.TUN_STAT then some (shownAs s F.TUN_STAT_RUN (b2n s.supRuns)) else none
  | 10 => if a = A.NVM_BOOTSEL then some (numWord (s.boot.pref + 4 * b2n s.boot.once)) else none
  | 12 => wrkView a s
  | 13 => protView m a s
  | 17 => chanView a s
  | 18 => chanView a s
  | 19 => chanView a s
  | _ => none

/-- What a master sees at an offset now: write-only and reserved fields read 0 (R10, R12), staged fields as they are in
effect (R11). -/
def liveWord (m : Master) (a : Nat) (s : State) : Word :=
  match viewOf m a s, regAt a with
  | some w, _ => w
  | none, some _ => s.word a &&& typMask (· != .wo) a
  | none, none => s.word a

/-! ## Reads -/

/-- The high word of the 64-bit register whose low word lies at an offset (R13; every pair of _LO and _HI, log 62). -/
def highOf (a : Nat) : Option Nat :=
  match regAt a with
  | some r => r.hi.map (a + ·)
  | none => none

/-- Whether an offset is the high word of a 64-bit register. -/
def isHigh (a : Nat) : Bool := 4 ≤ a && highOf (a - 4) == some a

/-- The latch of a master for the high word at an offset. -/
def latchKey (m : Master) (a : Nat) : Nat := masterBank m * 2 ^ 32 + a
def State.latched (s : State) (m : Master) (a : Nat) : Word := sparseGet latchDefault s.latch (latchKey m a)
def setLatch (m : Master) (a : Nat) (w : Word) (s : State) : State :=
  { s with latch := sparseSet latchDefault s.latch (latchKey m a) w }

/-- The word a read returns: a high word comes from the reading master's latch (R13). -/
def readWord (m : Master) (a : Nat) (s : State) : Word := if isHigh a then s.latched m a else liveWord m a s

/-- What a read of a mailbox register does (R315, R319). -/
def mbxReadEffect (m : Master) (a : Nat) (s : State) : State :=
  match portOfMaster m, regWin 0x31000 0x100 48 a with
  | some p, some (k, o) =>
    if o = 4 ∧ isHostPort p then hostSend p k s
    else if o = 8 then (lockRead p k s).2
    else s
  | _, _ => s

/-- What a read does beside returning its word: RC fields are cleared (R10), the high word is latched (R13), a data register
advances its index, CAPO_ALLOC allocates, a mailbox read sends or locks. -/
def readEffect (m : Master) (a : Nat) (s : State) : State :=
  let s1 := match highOf a with
    | some h => setLatch m h (liveWord m h s) s
    | none => s
  let s2 := s1.setWord a (s1.word a &&& ~~~(typMask (· == .rc) a))
  if a = A.CAPO_ALLOC then (allocTx m s2).2
  else if a = A.INS_TBLDATA then s2.takeFree.wrapAdd F.INS_TBLADDR_INDEX 1
  else if a = A.TUN_SETDATA then setAdvance s2
  else if a = A.THM_TBLDATA then s2.wrapAdd F.THM_TBLADDR_INDEX 1
  else mbxReadEffect m a s2

/-- The function of a host master. -/
def fnOf : Master → Option (Fin 2)
  | .pf0 => some 0 | .pf1 => some 1 | _ => none

/-- Where a host function's configuration space and its BAR4 begin in the addresses of register reads and writes (the model's own
numbering, log 151). -/
def cfgBase : Nat := 0x80000000
def bar4Base : Nat := 0x40000000

/-- The vectors of a function, and where its PBA lies in BAR4 (R301). -/
def vectors (fn : Fin 2) : Nat := if fn = 0 then 512 else 64
def pbaBase (fn : Fin 2) : Nat := if fn = 0 then 0x2000 else 0x400

/-- A word of the MSI-X table: 4v + i for message address low and high, data and vector control of vector v. -/
def State.msixWord (s : State) (fn : Fin 2) (k : Nat) : Word :=
  if k % 4 = 3 then numWord (b2n (bit512 (s.host.vecMasked.get fn) (k / 4)))
  else sparseGet latchDefault (s.host.msixTab.get fn) k

/-- The address and the data of the message a function sends on a vector. -/
def State.msixMessage (s : State) (fn : Fin 2) (v : Nat) : Nat × Word :=
  ((s.msixWord fn (4 * v)).toNat + 2 ^ 32 * (s.msixWord fn (4 * v + 1)).toNat, s.msixWord fn (4 * v + 2))

/-- A word of a function's BAR4 (R301). -/
def State.bar4Word (s : State) (fn : Fin 2) (a : Nat) : Word :=
  if a % 4 ≠ 0 then 0
  else if a < 16 * vectors fn then s.msixWord fn (a / 4)
  else if pbaBase fn ≤ a ∧ a < pbaBase fn + vectors fn / 8 then (s.host.pba.get fn).extractLsb' (8 * (a - pbaBase fn)) 32
  else 0

/-- Whether configuration requests are answered with Configuration Request Retry Status: until start-up has chosen the identity (R372). -/
def State.cfgRetries (s : State) : Bool := s.boot.phase == .rom || s.boot.phase == .held

/-- A read of a function's configuration space or BAR4. -/
def hostRead (m : Master) (a : Nat) (s : State) : State :=
  match fnOf m with
  | some fn => if s.domOn 0 && decide (cfgBase ≤ a) && s.cfgRetries then s.emit .configRetry else s.emit (.read m a (if !s.domOn 0 then 0
      else if cfgBase ≤ a then (if a % 4 = 0 ∧ a - cfgBase < 4096 then s.cfgWord fn (a - cfgBase) else 0)
      else s.bar4Word fn (a - bar4Base)))
  | none => s.emit (.read m a 0)

/-- A read of a register by a master (R13, R301, R303). -/
def busRead (m : Master) (a : Nat) (s : State) : State :=
  if bar4Base ≤ a then hostRead m a s else s.rd m a (readWord m a s) (readEffect m a)

end Sys2Proof.Machine
end

