-- ==== Sys2Proof/Machine/RegWrite.lean ====
section
/-! DEFINITION. What a write of a register does: the fields act by their type codes (R10), and where a chapter gives a
register or a bit an effect of its own, that effect. -/

namespace Sys2Proof.Machine

/-- A write by the type codes: RW takes the value, W1C clears, W1S sets; RO, WO and RC fields keep theirs (R10). -/
def plainWrite (a : Nat) (v : Word) (s : State) : State :=
  let rw := typMask (· == .rw) a
  let w := (s.word a &&& ~~~rw) ||| (v &&& rw)
  s.setWord a ((w &&& ~~~(v &&& typMask (· == .w1c) a)) ||| (v &&& typMask (· == .w1s) a))

/-! ## By block -/

/-- SYS: the epoch and the device reset. -/
def sysWrite (a : Nat) (v : Word) (s : State) : State :=
  if a = A.SYS_EPOCH_LO then s.setWord epochStage v
  else if a = A.SYS_EPOCH_HI then epochHi v s
  else if a = A.SYS_DEVRST then devrstWrite v s
  else plainWrite a v s

/-- FLT: the lines and the safe state. -/
def fltWrite (a : Nat) (v : Word) (s : State) : State :=
  if a = A.FLT_STAT_LO then fltStatWrite false v s
  else if a = A.FLT_STAT_HI then fltStatWrite true v s
  else if a = A.FLT_SAFE then fltSafeWrite v s
  else plainWrite a v s

/-- MBX, by a port. PF1 reaches only the mailboxes that R313 lets it use; only a sender has a bank (R314). -/
def mbxWrite (p : Port) (a : Nat) (v : Word) (s : State) : State :=
  match regWin 0x31000 0x100 48 a with
  | none => s
  | some (m, o) =>
    if p = .pf1 ∧ ¬ (mbxSender m p ∨ mbxReceiver m = p) then s
    else if o = 0xC then mbxStatWrite p m v s
    else if o = 8 then (if getBits v 0 5 = 0 then lockRelease p m s else s)
    else if o = 4 then (if bitAt v.toNat 31 && !isHostPort p && s.portRuns p then internalSend p m s else s)
    else if !mbxSender m p then s
    else if o = 0 then mbxCtrlWrite p m v s
    else if o = 0x10 then (if m.val < 16 ∨ (32 ≤ m.val ∧ m.val < 40) then s.put ((F.MBX_m_ACKTMO_TMO m).bank (portBank p)) v.toNat else s)
    else if 0x40 ≤ o ∧ o < 0x80 ∧ o % 4 = 0 then s.setWord (bankOf (portBank p) a) v
    else s

/-- POS: encoder faults and frets. -/
def posWrite (a : Nat) (v : Word) (s : State) : State :=
  match regIdx (A.POS_ENCe_STAT 0) 0x40 4 a, regWin 0x41000 0x10 64 a with
  | some e, _ => encStatWrite e v s
  | none, some (f, o) =>
    if o = 0 then fretCmpLo f v s else if o = 4 then fretCmpHi f v s
    else if o = 0xC then fretCtrlWrite f v s else plainWrite a v s
  | none, none => plainWrite a v s

/-- CAPO: the binding, and a slot's set-up and commands; CTRL and TMO only by the owner of an OPEN slot. -/
def capoWrite (m : Master) (a : Nat) (v : Word) (s : State) : State :=
  if a = A.CAPO_BIND then bindWrite m v s
  else match regWin 0x50100 0x40 16 a with
    | some (t, o) =>
      if o = 0 ∨ o = 4 then (if s.txState t = 1 ∧ s.ownsSlot m t then plainWrite a v s else s)
      else if o = 8 then txCmd m t (getBits v 0 2) s
      else s
    | none => plainWrite a v s

/-- THM: shutdown, levels, failed sensors, the thermistor tables, and the on-die sensors' fixed settings. -/
def thmWrite (a : Nat) (v : Word) (s : State) : State :=
  if a = A.THM_STAT then thmStatWrite v s
  else if a = A.THM_CHSTAT then chstatWrite v s
  else if a = A.THM_TBLDATA then thmTblWrite v s
  else match regIdx (A.THM_TSs_STAT 0) 0x20 48 a, regIdx (A.THM_TSs_CFG 40) 0x20 8 a with
    | some k, _ => if bitAt v.toNat 0 then sensFailClear k s else s
    | none, some k => s.put (F.THM_TSs_CFG_TBL (40 + k.val)) (v.toNat / 4)
    | none, none => plainWrite a v s

/-- MOT: axis faults and the microstep table. -/
def motWrite (a : Nat) (v : Word) (s : State) : State :=
  match regIdx (A.MOT_AXa_STAT 0) 0x80 4 a, regIdx 0x70800 4 257 a with
  | some x, _ => axStatWrite x v s
  | none, some k => wtabWrite k.val v s
  | none, none => plainWrite a v s

/-- PWR: the monitors, the domains, standby. -/
def pwrWrite (m : Master) (a : Nat) (v : Word) (s : State) : State :=
  if a = A.PWR_MON_STAT then warnWrite v s
  else if a = A.PWR_MON_WARN0 then
    (s.put F.PWR_MON_WARN0_WVDD (clampN 690 730 (getBits v 0 12))).put F.PWR_MON_WARN0_WVDD18 (clampN 1680 1740 (getBits v 16 12))
  else if a = A.PWR_MON_WARN1 then s.put F.PWR_MON_WARN1_WVDD33 (clampN 3050 3200 (getBits v 0 12))
  else if a = A.PWR_DOMON then requestDoms m v true s
  else if a = A.PWR_DOMOFF then requestDoms m v false s
  else if a = A.PWR_STBY then stbyWrite v s
  else plainWrite a v s

/-- WRK: bases and sizes are kept in RUN and HELD (R32); indices and commands act. -/
def wrkWrite (a : Nat) (v : Word) (s : State) : State :=
  match regWin 0xC0100 0x40 16 a with
  | some (n, o) =>
    if o = 0 ∨ o = 4 ∨ o = 8 ∨ o = 0x14 ∨ o = 0x18 then
      (if s.wstate n = 1 ∨ s.wstate n = 2 then s else plainWrite a v s)
    else if o = 0x1C then headWrite n v s
    else if o = 0x24 then cmdTake n (getBits v 0 4) s
    else plainWrite a v s
  | none => plainWrite a v s

/-- PROT: status, the confirmation bank of the writing master, the safe request. -/
def protWrite (m : Master) (a : Nat) (v : Word) (s : State) : State :=
  let k := masterBank m
  if a = A.PROT_STAT then protStatWrite v s
  else if a = A.PROT_CFMTX then s.put (F.PROT_CFMTX_TX.bank k) v.toNat
  else if a = A.PROT_CFM_LO then s.setWord (bankOf k a) v
  else if a = A.PROT_CFM_HI then cfmHiWrite m v s
  else if a = A.PROT_SAFEREQ then safeReq m v s
  else plainWrite a v s

/-- The register of the express page at an offset. -/
def expRegAt (a : Nat) : ExpReg :=
  if a = A.WRK_EXP_STOP then .stop
  else if a = A.WRK_EXP_INH then .inh
  else if a = A.WRK_EXP_FETCH then .fetch
  else if a = A.WRK_EXP_SAFE then .safe
  else if a = A.WRK_EXP_LATCH then .latch
  else .other

/-- The express page: a posted write of PF0 enters the express queue, which goes ahead of the writes that wait (R309); a write from inside
takes effect at once. -/
def expPage (m : Master) (a : Nat) (v : Word) (s : State) : State :=
  if m = .pf0 then expAhead (expArrive (expRegAt a) v s) else expDo (expRegAt a) v.toNat (expTaken s)

/-- A channel window: readmission, matrix loads, the link, and the table windows. -/
def chanWrite (a : Nat) (v : Word) (s : State) : State :=
  match regWin 0x1000000 0x100000 16 a with
  | none => s
  | some (n, o) =>
    if 0x80000 ≤ o then (if o % 4 = 0 then tableWrite n o v s else s)
    else if o = 0x10060 then
      let s1 := requestReadmit n (bitAt v.toNat 4) (bitAt v.toNat 5) s
      if bitAt v.toNat 16 then clearRescnt n s1 else s1
    else if o = 0x10078 then tldWrite n v s
    else if o = 0x40000 then linkEn n v s
    else if o = 0x40020 then statReq n v s
    else if o = 0x40044 then hcfgData n v s
    else plainWrite a v s

/-! ## Writes -/

/-- A write of a register without staged fields by a master that may write it. -/
def writeReg (m : Master) (a : Nat) (v : Word) (s : State) : State :=
  match blockOf a with
  | 0 => sysWrite a v s
  | 2 => fltWrite a v s
  | 3 => match portOfMaster m with
    | some p => mbxWrite p a v s
    | none => s
  | 4 => posWrite a v s
  | 5 => capoWrite m a v s
  | 6 => thmWrite a v s
  | 7 => motWrite a v s
  | 8 => if a = A.INS_TBLDATA then tblWrite v s else plainWrite a v s
  | 9 => if a = A.TUN_SETDATA then setData v s else plainWrite a v s
  | 10 => if a = A.NVM_CMD then nvmCmdWrite v s else if a = A.NVM_BOOTSEL then bootselWrite v s else plainWrite a v s
  | 11 => pwrWrite m a v s
  | 12 => wrkWrite a v s
  | 13 => protWrite m a v s
  | 14 => expPage m a v s
  | 1 => plainWrite a v s
  | _ => chanWrite a v s

/-- What a write of a configuration word does beside: Bus Master Enable, the power state (only D0 and D3hot exist), the enables of
MSI-X, a function-level reset (R29, R300, R305, R306). -/
def cfgEffect (fn : Fin 2) (a : Nat) (v : Word) (s : State) : State :=
  let h := s.host
  if a = 0x04 ∧ fn = 0 then setBme (bitAt v.toNat 2) s
  else if a = 0x44 ∧ (getBits v 0 2 = 0 ∨ getBits v 0 2 = 3) then
    dmaBack { s with host := { h with d3 := h.d3.set fn (bitAt v.toNat 1) } }
  else if a = 0x50 then
    flushPba fn { s with host := { h with msixEn := h.msixEn.set fn (bitAt v.toNat 31), fnMasked := h.fnMasked.set fn (bitAt v.toNat 30) } }
  else if a = 0x68 ∧ bitAt v.toNat 15 then (if fn = 0 then flrPf0 s else flrPf1 s)
  else s

/-- A write of a configuration word (R300). -/
def cfgWrite (fn : Fin 2) (a : Nat) (v : Word) (s : State) : State :=
  match cfgAt a with
  | some r =>
    let rw := numWord (if fn = 0 then r.rw0 else r.rw1)
    cfgEffect fn a v (cfgStore fn a (((s.cfgStored fn a &&& ~~~rw) ||| (v &&& rw)) &&& ~~~(v &&& numWord r.w1c)) s)
  | none => s

/-- A write of a word of BAR4: the MSI-X table; the PBA is read only (R301, R306). -/
def bar4Write (fn : Fin 2) (a : Nat) (v : Word) (s : State) : State :=
  if a % 4 = 0 ∧ a < 16 * vectors fn then
    let h := s.host
    if a % 16 = 12 then
      flushPba fn { s with host := { h with
        vecMasked := h.vecMasked.set fn (setBit512 (h.vecMasked.get fn) (a / 16) (bitAt v.toNat 0)) } }
    else
      let w := if a % 16 = 0 then v &&& 0xFFFFFFFC else v
      { s with host := { h with msixTab := h.msixTab.set fn (sparseSet latchDefault (h.msixTab.get fn) (a / 4) w) } }
  else s

/-- A write of a function's configuration space or BAR4. -/
def hostWrite (m : Master) (a : Nat) (v : Word) (s : State) : State :=
  match fnOf m with
  | some fn =>
    if !s.domOn 0 then s
    else if cfgBase ≤ a ∧ s.cfgRetries then s.emit .configRetry
    else if cfgBase ≤ a then cfgWrite fn (a - cfgBase) v s
    else bar4Write fn (a - bar4Base) v s
  | none => s

/-- A write of a word by a master (R10, R198, R301, R303). -/
def busWrite (m : Master) (a : Nat) (v : Word) (s : State) : State :=
  if bar4Base ≤ a then hostWrite m a v s
  else if hasStaged a then stagedBusWrite m a v s else s.wr m a (writeReg m a v)

end Sys2Proof.Machine
end

