-- ==== Sys2Proof/Machine/ImageLoad.lean ====
section
/-! DEFINITION. The sections of an Ovain image (R362, R363): the rules on their content, the writes a load makes, and the
checks on the state that results. -/

namespace Sys2Proof.Machine

/-! ## Content -/

/-- The content of a section, and word k of it. -/
def State.content (s : State) (sl : Slot) (e : Sect) : List Byte := s.imgBytes sl e.off e.len
def wordAt (b : List Byte) (k : Nat) : Word := BitVec.ofNat 32 (fieldAt b (4 * k) 4)

/-- A register list: offset and value of each entry. -/
def regList (b : List Byte) : List (Nat × Word) :=
  (List.range (b.length / 8)).map fun i => ((wordAt b (2 * i)).toNat, wordAt b (2 * i + 1))

/-- Whether an offset names a register of the protection set-up (R350). -/
def isProtReg (a : Nat) : Bool :=
  let b := blockOf a
  if b = 21 then a % 0x10000 ≤ 0x14 && a % 4 == 0
  else if b = 20 then a % 0x10000 == A.CHn_BRG_HPWR 0 % 0x10000
  else if b = 13 then a == A.PROT_ROLE || a == A.PROT_CFG
  else if b = 2 then 0x21000 ≤ a && decide (a < 0x21100) && a % 4 == 0
  else if b = 7 then (List.finRange 4).any fun x => a == A.MOT_AXa_SAFE x
  else if b = 6 then
    a == A.THM_DIELIM0 || a == A.THM_DIELIM1 || allCh.any fun n =>
      a == A.THM_CHn_CFG n || a == A.THM_CHn_LIM0 n || a == A.THM_CHn_LIM1 n || a == A.THM_CHn_HTR n
  else false

/-- The Tuner's axes, which a register list never writes (R364). -/
def isTunAxis (a : Nat) : Bool := A.TUN_DAXw 0 ≤ a && a ≤ A.TUN_NPT

/-- Whether a list holds no number twice. -/
def distinct (l : List Nat) : Bool := l.eraseDups.length == l.length

/-- The rules of R362 on section i of a slot's image. -/
def State.sectFormatOk (s : State) (sl : Slot) (i : Nat) : Bool :=
  let es := s.sects sl
  match es[i]? with
  | none => false
  | some e =>
    let b := s.content sl e
    let offs (x : Sect) : List Nat := (regList (s.content sl x)).map (·.1)
    (i == 0) == (e.typ == 1) &&
    (if e.typ = 0x01 then decide (e.len ≤ 2 ^ 20)
    else if e.typ = 0x02 then decide (e.len ≤ 2 ^ 18) &&
      (hdrChmask (s.hdr sl) == 0 || !((es.take i).any fun x => x.typ == 2))
    else if e.typ = 0x10 then
      e.len % 8 == 0 && (offs e).all isProtReg &&
      distinct (((es.take (i + 1)).filter fun x => x.typ == 0x10).flatMap offs)
    else if e.typ = 0x11 then
      e.len % 8 == 0 && (offs e).all fun a =>
        a % 4 == 0 && decide (a < 0x100000) && !([5, 10, 14].contains (blockOf a)) && !isProtReg a
    else if e.typ = 0x12 then e.len % 8 == 0 && (offs e).all fun a => a % 4 == 0 && decide (a ≤ 0x7FFFC)
    else if e.typ = 0x13 then
      let o := (wordAt b 0).toNat
      o % 4 == 0 && decide (0x80000 ≤ o) && decide (o ≤ 0xFFFFC) && decide (o + e.len ≤ 0x100004)
    else if e.typ = 0x14 then
      let rows := getBits (wordAt b 0) 6 10
      decide (1 ≤ rows) && decide (rows ≤ 512) && e.len == 4 + 2048 * rows
    else if e.typ = 0x15 then true
    else if e.typ = 0x16 then
      decide (36 ≤ e.len) && (e.len - 36) % 8 == 0
    else decide (0x80 ≤ e.typ))

/-! ## Writes -/

/-- The effect a block gives to settings that a load has just put into effect, s0 being the state before (R363). -/
def loadHook (a : Nat) (s0 s : State) : State :=
  match blockOf a with
  | 4 => (List.finRange 4).foldl (fun (s : State) (m : Fin 4) => applyEmu s0 m s) (applyPos s0 s)
  | 6 => (applyThm s0 s).eachCh fun n s =>
    if a = A.THM_CHn_CFG n ∧ !s.flag (F.THM_CHn_CFG_HTREN n) then heaterOff n s else s
  | 7 => applyMot s0 s
  | 9 => applyTun s0 s
  | 18 => match chOf ((a - 0x1000000) / 0x100000) with
    | some n => settleScale n s
    | none => s
  | 19 => match chOf ((a - 0x1000000) / 0x100000) with
    | some n => applyFt n s0 s
    | none => s
  | 20 => match chOf ((a - 0x1000000) / 0x100000) with
    | some n => applyBrg n s0 s
    | none => s
  | _ => s.refreshHolds

/-- A write made by the load: at once, the staged fields included, where the domain is ON and the offset is not one that only
PF0 writes (R362, R363). The WRK block is reached: R362 leaves out only its express page (assumption 67). -/
def loadWrite (a : Nat) (v : Word) (s : State) : State :=
  if !inMap a || pf0Only a || !s.powered a then s
  else if hasStaged a then
    let k := typMask (fun t => t == .rw || t == .st) a
    loadHook a s (s.setWord a ((s.word a &&& ~~~k) ||| (v &&& k)))
  else writeReg .sup a v s

/-- A register list is written in its order, where `q` allows. -/
def loadList (q : Nat → Bool) (base : Nat) (l : List (Nat × Word)) (s : State) : State :=
  l.foldl (fun (s : State) (x : Nat × Word) => if q x.1 then loadWrite (base + x.1) x.2 s else s) s

/-- A matrix section into channel n (R84, R362). -/
def loadMatrix (n : Fin 16) (b : List Byte) (s : State) : State :=
  let w := wordAt b 0
  let bank := getBits w 2 1
  let mtx := getBits w 0 2
  let rows : List (List Word) := (List.range (getBits w 6 10)).map fun r =>
    (List.range 512).map fun x => wordAt b (1 + 512 * r + x)
  s.modImg n fun i =>
    { i with mtx := storeRows bank mtx 0 rows i.mtx, badMtx := i.badMtx.filter (· != (bank, mtx)),
             ueTables := i.ueTables.filter (· != (bank, mtx)) }

/-- The sequencer firmware, a section of words for a channel window, or a matrix, into channel n if its domain is ON (R362). -/
def loadChan (e : Sect) (b : List Byte) (n : Fin 16) (s : State) : State :=
  if !s.chOn n then s
  else if e.typ = 0x02 then s.modIso n fun i => { i with fw := b }
  else if !bitAt e.chsel n.val then s
  else if e.typ = 0x12 then loadList (fun o => !isProtReg (chBase n + o)) (chBase n) (regList b) s
  else if e.typ = 0x13 then
    (List.range (e.len / 4 - 1)).foldl (fun (s : State) (k : Nat) =>
      loadWrite (chBase n + (wordAt b 0).toNat + 4 * k) (wordAt b (k + 1)) s) s
  else if e.typ = 0x14 then loadMatrix n b s
  else s

/-- A section of port table entries; entries beyond a table are discarded (R224). -/
def loadInsTable (b : List Byte) (s : State) : State :=
  let w := wordAt b 0
  let p := getBits w 0 1
  let k := getBits w 1 1
  let t := getBits w 2 2
  if !s.domOn 6 then s
  else (List.range ((b.length - 4) / 2)).foldl (fun (s : State) (j : Nat) =>
    let i := getBits w 16 16 + j
    let v : BitVec 16 := BitVec.ofNat 16 (fieldAt b (4 + 2 * j) 2)
    if tblLen t ≤ i then s
    else { s with ins := { s.ins with tables := sparseSet tblDefault s.ins.tables (tblKey p k t i) v } }) s

/-- A section takes effect (R362, R363); the Tuner's set waits for the end of the load (R364). -/
def loadSect (e : Sect) (b : List Byte) (s : State) : State :=
  if e.typ = 0x01 then { s with boot := { s.boot with fwSup := b } }
  else if e.typ = 0x02 then
    { s with boot := { s.boot with fwSeq := b } }.eachCh fun n s => if bitAt s.boot.chMask n.val then loadChan e b n s else s
  else if e.typ = 0x10 then loadList (fun _ => true) 0 (regList b) s
  else if e.typ = 0x11 then loadList (fun a => !isTunAxis a) 0 (regList b) s
  else if e.typ = 0x15 then loadInsTable b s
  else s.eachCh (loadChan e b)

/-! ## Checks -/

/-- Channel n as loaded meets the rules of R86, R108 and R162 on settings; both banks named count as made active. What R108 asks
of the head board a load cannot meet and is not checked (log 63). -/
def chanLoadOk (n : Fin 16) (t : State) : Bool :=
  let other := (t.put (F.CHn_IMG_BANK_SADB n) (1 - t.get (F.CHn_IMG_BANK_SADB n))).put (F.CHn_IMG_BANK_MTXB n)
    (1 - t.get (F.CHn_IMG_BANK_MTXB n))
  voteImg n other t && wavRules n t && voteFt n t t

end Sys2Proof.Machine
end

