-- ==== Sys2Proof/Machine/Boot.lean ====
section
/-! DEFINITION. Start-up (R357 to R373): the choice of a slot, the load of its sections, the training of channel memory, and
the declaration of READY; and the flash commands of NVM_CMD (R376). -/

namespace Sys2Proof.Machine

/-! ## The slot -/

/-- A slot is a candidate (R365). -/
def State.candidate (s : State) (sl : Slot) : Bool := s.slotCause sl == 0

/-- The slot chosen among the candidates (R366). -/
def State.chooseSlot (s : State) : Option Slot :=
  let a := s.candidate .a
  let b := s.candidate .b
  let d := (hdrGen (s.hdr .b) + 2 ^ 32 - hdrGen (s.hdr .a)) % 2 ^ 32
  if s.boot.pref = 1 ∧ a then some .a
  else if s.boot.pref = 2 ∧ b then some .b
  else if a && b then (if 1 ≤ d ∧ d < 2 ^ 31 then some .b else some .a)
  else if a then some .a
  else if b then some .b
  else none

/-- The switched domains that start-up itself switches on: POS, MOT, INS and CAM, and the channels the image configures
(DEDUCED, log 65). -/
def bootDoms (mask : Nat) : List Nat := [4, 5, 6, 7] ++ (List.range 16).filterMap fun n => if bitAt mask n then some (8 + n) else none

/-- Every switched domain but HOST, FAB, NVM and SUP is switched off (R368, R373). -/
def bootOff (s : State) : State :=
  startRamp ((List.range 20).foldl (fun (s : State) (k : Nat) => acceptDom (4 + k) false s) s)

/-- NOIMAGE is entered (R372, R373). -/
def enterNoImage (s : State) : State :=
  let b := { s.boot with phase := .noImage, ssvid := 0x1F5E, ssid := 0xFFFF, trainMask := 0, chMask := 0 }
  ((bootOff { s with boot := b }).put F.NVM_BOOTSTAT_STATE 5).raise 11

/-- The firmware in the store of FAB is given up for that of another image (R370). -/
def dropFw (s : State) : State :=
  { s with boot := { s.boot with fwSup := [], fwSeq := [] }, chans := s.chans.map fun (c : Chan) => { c with iso := { c.iso with fw := [] } } }

/-- The channels whose memory is trained as a boot begins: those of both slots whose headers pass their checks (R369). -/
def State.bothMasks (s : State) : Nat :=
  let mask (sl : Slot) : Nat := if s.hdrCause sl = 0 then hdrChmask (s.hdr sl) else 0
  mask .a ||| mask .b

/-- A channel outside the chosen mask is on its way ON, and is switched off again (R369; log 104). -/
def onAndOff (n : Fin 16) (s : State) : State :=
  let d := 8 + n.val
  let s1 := requestDom false d true s
  if s1.domAsked d = some true then { s1 with pwr := { s1.pwr with queue := insertReq (d, false) s1.pwr.queue } } else s1

/-- A slot begins to be loaded, `fall` under R368: its identity goes to the endpoint, its channels are switched on and their
memory is trained; at first those of the other slot are too, and then switched off (R369, R372). -/
def beginLoad (sl : Slot) (fall : Bool) (s : State) : State :=
  let h := s.hdr sl
  let mask := hdrChmask h
  let train := if fall then mask else mask ||| s.bothMasks
  let s0 := dropFw s
  let b := { s0.boot with phase := .load 0 0, slot := sl, fellBack := fall, chMask := mask, trainMask := train, trainTick := s.tick,
                          ssvid := fieldAt h 24 2, ssid := fieldAt h 26 2 }
  let s1 := (((({ s0 with boot := b }.put F.NVM_BOOTSTAT_STATE 2).put F.NVM_BOOTSTAT_SLOT (b2n (sl == Slot.b))).put
    F.NVM_BOOTSTAT_FALLBACK (b2n fall)).put F.NVM_BOOTSTAT_AUTH (b2n (s.authentic sl)))
  let s2 := (bootDoms mask).foldl (fun (s : State) (d : Nat) => requestDom false d true s) s1
  startRamp (s2.eachCh fun n s => if bitAt train n.val && !bitAt mask n.val then onAndOff n s else s)

/-- R357, R365, R366, R395: with ONCE the preference goes, ONCE itself stays (DEDUCED, log 184). The internal reset released, the flash is found and its read mode taken, both headers are checked and a
slot is chosen. -/
def execSlotSelect (s : State) : Host.Outcome State Fault Refusal :=
  .next (if s.boot.phase = .rom ∧ s.released then
      let s1 := { s with boot := { s.boot with resetN := true, mode := if s.boot.flashSlow then .sdr8 else .ddr8 } }
      let s2 := (s1.setWord A.NVM_DEVINFO (BitVec.ofNat 32 (s1.capL2 + 256 * s1.eraseL2 + 65536 * b2n s1.boot.flashSlow))).setWord
        A.NVM_CHBOOT 0
      let s3 := noteSlot .b (s2.slotCause .b) (noteSlot .a (s2.slotCause .a) s2)
      let pick := s3.chooseSlot
      let s4 := if s3.boot.once then writePref 0 true s3 else s3
      match pick with
      | some sl => beginLoad sl false s4
      | none => enterNoImage (s4.put F.NVM_BOOTSTAT_FCAUSE (s4.slotCause .b))
    else s)

/-! ## Loading -/

/-- The registers of HOST, FAB, NVM and SUP that the register lists of a slot's first i sections have written: not the Tuner's axes,
nor what only PF0 writes (R362, R364, R368). -/
def State.loadedRegs (s : State) (sl : Slot) (i : Nat) : List Nat :=
  let lists := ((s.sects sl).take i).filter fun e => e.typ == 0x10 || e.typ == 0x11
  (lists.flatMap fun e => (regList (s.content sl e)).map (·.1)).filter fun a =>
    inMap a && !pf0Only a && !isTunAxis a && match domainOf a with
      | some d => d < 4
      | none => false

/-- A register that the load wrote returns to its reset value, the copy of the supervisor's bank with it, in whose name the load writes
(R314, R353, R368). -/
def unload (a : Nat) (s : State) : State :=
  (s.setWord a (regReset a)).setWord (bankOf (masterBank .sup) a) (regReset a)

/-- The slot being loaded fails in section i with a cause (R368, R373). -/
def slotFails (cause i : Nat) (s : State) : State :=
  let sl := s.boot.slot
  let s1 := setFailRec sl (some (hdrCrc (s.hdr sl))) (s.put F.NVM_BOOTSTAT_FCAUSE cause)
  let s2 := (noteSlot sl cause s1).raise 9
  let s3 := bootOff ((s2.loadedRegs sl i).foldl (fun (s : State) (a : Nat) => unload a s) s2)
  if !s3.boot.fellBack && s3.candidate (otherSlot sl) then beginLoad (otherSlot sl) true s3
  else enterNoImage (dropFw s3)

/-- Whether domains still ramp. -/
def State.ramping (s : State) : Bool := s.pwr.ramp.isSome || !s.pwr.queue.isEmpty

/-- Whether a section waits: for domains that ramp, and for the memory of a channel it is for (R369). -/
def State.sectWaits (s : State) (e : Sect) : Bool :=
  e.typ != 0x01 && (s.ramping ||
    (e.typ == 0x02 && s.boot.trainMask &&& s.boot.chMask != 0) ||
    (e.typ == 0x14 && s.boot.trainMask &&& e.chsel != 0))

/-- R362, R367: the next section has been read; `ok` is false where the flash did not give its bytes right. -/
def execSectionLoaded (ok : Bool) (s : State) : Host.Outcome State Fault Refusal :=
  .next (match s.boot.phase with
    | .load i t =>
      let sl := s.boot.slot
      match (s.sects sl)[i]? with
      | none => s
      | some e =>
        let b := s.content sl e
        if s.sectWaits e then s
        else if !ok || BitVec.ofNat 32 e.crc != crc32c b then
          (if t < 2 then { s with boot := { s.boot with phase := .load i (t + 1) } } else slotFails 6 i s)
        else if !s.sectFormatOk sl i then slotFails 8 i s
        else
          let s1 := loadSect e b s
          { s1 with boot := { s1.boot with phase := .load (i + 1) 0 } }
    | _ => s)

/-- The channels the image configures whose domains are ON. -/
def State.bootedChans (s : State) : List (Fin 16) := allCh.filter fun n => bitAt s.boot.chMask n.val && s.chOn n

/-- The first block whose rules the loaded state breaks, as VBLK and VCH name it (R367). -/
def State.badBlock (s : State) : Option (Nat × Nat) :=
  match (List.finRange 16).find? fun b => b.val < 15 && s.partOn (.sys b) && !s.rulesOk (.sys b) s with
  | some b => some (b.val, 0)
  | none => (s.bootedChans.find? fun n => !chanLoadOk n s).map fun n => (15, n.val)

/-- The Tuner's sets are replaced by a TUNSET section and its identifier recorded (R364). -/
def seedTuner (b : List Byte) (seed : Nat) (s : State) : State :=
  let s1 := (List.range 9).foldl (fun (s : State) (k : Nat) => s.setWord (A.TUN_DAXw 0 + 4 * k) (wordAt b k)) s
  let entries := (List.range ((b.length - 36) / 8)).map fun k => (wordAt b (9 + 2 * k), wordAt b (10 + 2 * k))
  let s2 := { s1 with tun := { s1.tun with sets := [] }, boot := { s1.boot with seed := seed } }
  let s3 := entries.foldl (fun (s : State) (x : Word × Word) =>
    let c := getBits x.1 F.TUN_SETADDR_CLASS.lo 3
    let i := getBits x.1 F.TUN_SETADDR_INST.lo 16
    if i < tunInsts c then
      setEntry c i (getBits x.1 F.TUN_SETADDR_POINT.lo 3) ((x.2 &&& 0xFFFFFF) ||| (x.1 &&& 0x80000000)) s
    else s) s2
  (List.range 5).foldl (fun (s : State) (c : Nat) =>
    (s.put (F.TUN_COUNTc_COUNT c) 0 |>.setPair (A.TUN_LASTc_LO c) (A.TUN_LASTc_HI c) 0).put (F.TUN_LBOOTc_BOOT c) 0) s3

/-- R364, R367: the last section has been read: BODYDIG and the blocks' rules are checked and the Tuner's sets seeded or kept. -/
def execBootLoadComplete (s : State) : Host.Outcome State Fault Refusal :=
  .next (match s.boot.phase with
    | .load i _ =>
      let sl := s.boot.slot
      let h := s.hdr sl
      let es := s.sects sl
      if i < es.length || s.ramping || s.boot.trainMask &&& s.boot.chMask != 0 then s
      else
        let sets := es.filter fun e => e.typ == 0x16
        if bytesAt h 48 32 ≠ sha256 (s.imgBytes sl (hdrHlen h) (hdrIlen h - hdrHlen h)) then slotFails 7 i s
        else if (hdrChmask h ≠ 0 ∧ ¬ (es.any fun e => e.typ == 2)) ∨ (hdrTunseed h ≠ 0 ∧ sets.isEmpty) then slotFails 8 i s
        else match s.badBlock with
          | some (b, n) => slotFails 9 i ((s.put F.NVM_BOOTSTAT_VBLK b).put F.NVM_BOOTSTAT_VCH n)
          | none =>
            let s1 := match sets.getLast? with
              | some e => if hdrTunseed h ≠ 0 ∧ hdrTunseed h ≠ s.boot.seed then
                  seedTuner (s.content sl e) (hdrTunseed h) s else s
              | none => s
            { s1 with boot := { s1.boot with phase := .resume } }.put F.NVM_BOOTSTAT_STATE 3
    | _ => s)

/-- R369: channel n's memory has been trained. -/
def execMemoryTrained (n : Fin 16) (s : State) : Host.Outcome State Fault Refusal :=
  .next (if bitAt s.boot.trainMask n.val && s.chOn n then
      { s with boot := { s.boot with trainMask := s.boot.trainMask - 2 ^ n.val } }
    else s)

/-- R369: channel n's memory has not trained within 40 ms: the channel is left OFF. -/
def execMemoryTrainTimeout (n : Fin 16) (s : State) : Host.Outcome State Fault Refusal :=
  .next (if bitAt s.boot.trainMask n.val && decide (s.boot.trainTick + 40 * msTicks ≤ s.tick) then
      let s1 := trainFailed n s
      if s1.domState (8 + n.val) = 3 then s1 else startRamp (acceptDom (8 + n.val) false s1)
    else s)

/-- R59, R370: the resume completes in every configured channel and READY is declared; a command that came before is taken now. -/
def execBootReady (s : State) : Host.Outcome State Fault Refusal :=
  .next (if s.boot.phase = .resume then
      let ns := s.bootedChans
      let s1 := ns.foldl (fun (s : State) (n : Fin 16) =>
        (resumeCh n s).modIso n fun i => { i with loaded := true, memLost := false, offSince := false }) s
      let ms := min 4095 ((s.tick - s.boot.t0) / msTicks)
      let s2 := ((s1.put F.NVM_BOOTSTAT_STATE 4).put F.NVM_BOOTSTAT_BOOTMS ms).put F.NVM_CHBOOT_CFG
        (ns.foldl (fun (k : Nat) (n : Fin 16) => k + 2 ^ n.val) 0)
      ({ s2 with boot := { s2.boot with phase := .ready } }.raise 8).eachCh takeWaiting
    else s)

/-! ## Flash commands -/

/-- A command with its code and slot is given to NVM_CMD (R376). -/
def giveNvm (m : Master) (code : Nat) (sl : Slot) (s : State) : Host.Outcome State Fault Refusal :=
  .next (s.wr m A.NVM_CMD (nvmCmdWrite (BitVec.ofNat 32 (code + 8 * b2n (sl == Slot.b) + 2 ^ 31))))

/-- R376: READ. -/
def execNvmRead (m : Master) (s : State) : Host.Outcome State Fault Refusal := giveNvm m 1 .a s

/-- R376: PROGRAM. -/
def execNvmProgram (m : Master) (s : State) : Host.Outcome State Fault Refusal := giveNvm m 2 .a s

/-- R376: ERASE. -/
def execNvmErase (m : Master) (s : State) : Host.Outcome State Fault Refusal := giveNvm m 3 .a s

/-- R376: VERIFY of a slot. -/
def execNvmVerify (m : Master) (sl : Slot) (s : State) : Host.Outcome State Fault Refusal := giveNvm m 4 sl s

/-- A program clears bits only where a byte is not erased; what such a byte becomes is free (log 66). -/
def programFlash (a : Nat) (bs : List Byte) (s : State) : State :=
  let new := List.mapIdx (fun i (b : Byte) =>
    if s.flashByte (a + i) = 0xFF then b else (Config.freeWord (s.free + i)).truncate 8) bs
  setFlash a new { s with free := s.free + bs.length }

/-- The check of a VERIFY command: 0, or the cause of its failure (R376). -/
def State.verifyCause (s : State) (sl : Slot) : Nat :=
  let c := s.hdrCause sl
  if c ≠ 0 then c
  else if s.boot.keyHash.isSome && !s.authentic sl then 5
  else s.bodyCause sl

/-- A VERIFY has run: a pass clears a recorded body failure (R376). -/
def verifyDone (sl : Slot) (s : State) : State :=
  let c := s.verifyCause sl
  let s1 := if c = 0 then setFailRec sl none s else s
  noteSlot sl c (s1.put F.NVM_CMDSTAT_VPASS (b2n (c == 0)))

/-- What a command does when it ends without error; `data` are the bytes a PROGRAM read from host memory. -/
def nvmEffect (c : NvmCmd) (data : List Byte) (s : State) : State :=
  if c.code = 1 then s.emit (.hostWrite c.host (s.flashBytes c.addr c.len))
  else if c.code = 2 then programFlash c.addr data s
  else if c.code = 3 then setFlash c.addr (List.replicate c.len 0xFF) s
  else verifyDone c.slot s

/-- R376, R377: the flash command in progress ends: without error, with a PCIe error (1) or with a device error (2). READ and
PROGRAM use DMA and cannot end well without it. -/
def execNvmDone (err : Fin 3) (data : List Byte) (s : State) : Host.Outcome State Fault Refusal :=
  match s.boot.cmd with
  | none => .next s
  | some c =>
    nextIf (!(c.code == 2 && err == 0) || data.length == c.len)
      (if err.val = 1 then (if c.code < 3 then failNvm 6 s else s)
      else if err.val = 2 then failNvm 7 s
      else if c.code < 3 ∧ ¬ s.dmaUp then s
      else
        let s1 := nvmEffect c data { s with boot := { s.boot with cmd := none } }
        let s2 := if c.code = 4 then s1 else s1.put F.NVM_CMDSTAT_PROG (min (c.len / 256) (2 ^ 24 - 1))
        (((s2.put F.NVM_CMDSTAT_BUSY 0).put F.NVM_CMDSTAT_DONE 1).put F.NVM_CMDSTAT_ERR 0).raise 10)

end Sys2Proof.Machine
end

