-- ==== Sys2Proof/Machine/Faults.lean ====
section
/-! DEFINITION. The meanings of the commands of the fault collector, STOP_N and the safe state (chapter 14). -/

namespace Sys2Proof.Machine

/-- R333: a write of FLT_STAT_LO or FLT_STAT_HI. -/
def execFltStatClear (m : Master) (hi : Bool) (v : Word) (s : State) : Host.Outcome State Fault Refusal :=
  .next (s.wr m (if hi then A.FLT_STAT_HI else A.FLT_STAT_LO) (fltStatWrite hi v))

/-- R335: the background scan finds no error, or one in a word: the safe state is entered directly. -/
def execParityScan (bad : Option (Fin 67)) (s : State) : Host.Outcome State Fault Refusal :=
  .next (match bad with
    | some w => if s.domOn 1 then ((s.put F.FLT_PAR_PARERR 1).put F.FLT_PAR_WORD w.val).enterSafe F.FLT_SAFE_PAR else s
    | none => s)

/-- R338: a write of FLT_SAFE. -/
def execFltSafeClear (m : Master) (v : Word) (s : State) : Host.Outcome State Fault Refusal :=
  .next (s.wr m A.FLT_SAFE (fltSafeWrite v))

/-- R339: STOP_N is accepted low. The level is held in AON; PROT and the collector lie in FAB. -/
def execStopn (s : State) : Host.Outcome State Fault Refusal :=
  .next (if s.pwr.stopN then s
    else
      let s1 := { s with pwr := { s.pwr with stopN := true } }
      if s1.domOn 1 then
        stopAction (s1.get F.PROT_CFG_STOPNACT) F.FLT_SAFE_STOPN ((s1.put F.PROT_STAT_STOPN 1).raise 17)
      else s1)

/-- R339: STOP_N is accepted high. -/
def execStopNRelease (s : State) : Host.Outcome State Fault Refusal :=
  .next { s with pwr := { s.pwr with stopN := false } }

/-- R339, R344: a write of PROT_STAT. -/
def execProtStatClear (m : Master) (v : Word) (s : State) : Host.Outcome State Fault Refusal :=
  .next (s.wr m A.PROT_STAT (protStatWrite v))

/-- R337: a write of PROT_SAFEREQ. -/
def execProtSafereq (m : Master) (v : Word) (s : State) : Host.Outcome State Fault Refusal :=
  .next (s.wr m A.PROT_SAFEREQ (safeReq m v))

end Sys2Proof.Machine
end

