-- ==== Sys2Proof/Machine/Heal.lean ====
section
/-! DEFINITION. The healing loop of the supervisor (R233 to R237) and the steps of a nozzle test (R388). -/

namespace Sys2Proof.Machine

/-! ## Updates of one channel -/

/-- Key of a nozzle's count of better results, and the count (R233). -/
def betterKey (n j : Nat) : Nat := 4096 * n + j
def State.better (s : State) (n j : Nat) : Nat := (sparseGet betterDefault s.ins.better (betterKey n j)).toNat

/-- Whether a map word's nozzle is dead when its status is st (R71). -/
def deadWith (devdead : Bool) (w : Word) (st : Nat) : Bool := getBits w 2 1 == 1 || st == 3 || (st == 2 && devdead)

/-- The new status and count of a nozzle with a result (R233). -/
def healNozzle (upcnt cur cnt : Nat) (r : NozRes) (live : Bool) : Nat × Nat :=
  if !r.meas || !live then (cur, cnt)
  else if cur < r.cls then (r.cls, 0)
  else if r.cls < cur then (if upcnt ≤ cnt + 1 then (r.cls, 0) else (cur, cnt + 1))
  else (cur, 0)

/-- What a round would make of one channel: statuses, counts and gains by nozzle. -/
structure HealPlan where
  chan : Fin 16
  sts : List Nat
  counts : List (Nat × Nat)
  gains : List Nat
  changed : Bool
  skipped : Bool
deriving DecidableEq, Repr

/-- Whether the nozzles newly dead exceed MAXNEW (R234). -/
def State.tooMany (s : State) (n : Fin 16) (k : Nat) : Bool :=
  let m := s.get (F.INS_LADn_HEALMAX_MAXNEW n)
  m != 0 && decide (m < k)

/-- The GAIN a nozzle is to have: the Tuner's value in effect, else that of its map word (R251). -/
def State.gainOf (s : State) (n : Fin 16) (j : Nat) (w : Word) : Nat :=
  let e := s.tunEff 4 (4096 * n.val + j)
  if bitAt e.toNat 31 then getBits e 0 12 else getBits w 8 12

/-- The plan of a healing round for one channel's results (R233, R234), UPCNT, MAXNEW and DEVDEAD being those in effect as the round runs
(DESIGN CHOICE, log 182). -/
def healPlan (s : State) (n : Fin 16) (h : HealRes) : HealPlan :=
  let up := max 1 (s.get (F.INS_LADn_CFG_UPCNT n))
  let dd := s.flag (F.CHn_IMG_CTRL_DEVDEAD n)
  let js := List.range (s.get (F.CHn_IMG_GEOM_NNOZ n))
  let upd := js.map fun j =>
    healNozzle up (getBits (s.mapWord n j) 0 2) (s.better n j) (h.res.getD j { meas := false, cls := 0 }) (h.live.getD j false)
  let gains := js.map fun j => s.gainOf n j (s.mapWord n j)
  let sts := upd.map (·.1)
  { chan := n, sts := sts, counts := List.zip (js.map (betterKey n)) (upd.map (·.2)), gains := gains,
    changed := js.any fun j => nth sts j != getBits (s.mapWord n j) 0 2 || nth gains j != getBits (s.mapWord n j) 8 12,
    skipped := s.tooMany n (js.filter fun j => deadWith dd (s.mapWord n j) (nth sts j) && !s.dead n j).length }

/-- Channel n's map bank `bank` takes the words given for the nozzles in use, and the rest of the map in effect; the LUT bank
not in effect takes a copy of the one in effect (R235). -/
def writeBanks (n : Fin 16) (bank : Nat) (ws : List Word) (s : State) : State :=
  let s1 := (List.range 4096).foldl (fun (s : State) (j : Nat) =>
    s.setWord (mapAddr n bank j) (ws.getD j (s.mapWord n j))) s
  let b := s.get (F.CHn_IMG_BANK_LUTB n)
  (List.range 256).foldl (fun (s : State) (c : Nat) => s.setWord (lutAddr n (1 - b) c) (s.word (lutAddr n b c))) s1

/-- The word that toggles MAPB and LUTB of channel n (R235). -/
def State.bankToggle (s : State) (n : Fin 16) : Word :=
  s.word (A.CHn_IMG_BANK n) ^^^ setBits (setBits 0 (F.CHn_IMG_BANK_MAPB n).lo 1 1) (F.CHn_IMG_BANK_LUTB n).lo 1 1

/-- The supervisor stages the bank switches of some channels in slot t and commits it; the round is in flight from here on. -/
def launch (t : Fin 16) (r : Round) (s : State) : State :=
  let s1 := openSlot .sup false t s
  let s2 := r.chans.foldl (fun (s : State) (n : Nat) => match chOf n with
    | some k => stageEntry t (A.CHn_IMG_BANK k) (s.bankToggle k) s
    | none => s) s1
  let s3 := insPut F.INS_HEAL_BUSY 1 { s2 with ins := { s2.ins with rounds := s2.ins.rounds ++ [r] } }
  commitTx .sup t s3

/-- Whether the supervisor can run capo transactions now. -/
def State.supCapo (s : State) : Bool := s.supRuns && s.domOn 1 && s.boot.phase == .ready

/-- Whether a switch or round of channel n is in flight (R235). -/
def State.inRound (s : State) (n : Nat) : Bool := s.ins.rounds.any fun r => r.chans.contains n

/-! ## The nozzle test -/

/-- Map words with the STATUS fields replaced. -/
def withStatus (ws : List Word) (sts : List Nat) : List Word :=
  List.mapIdx (fun j (w : Word) => setBits w 0 2 (nth sts j)) ws

/-- The map words in effect of channel n. -/
def State.mapWords (s : State) (n : Fin 16) : List Word := (List.range 4096).map (s.mapWord n)

/-- Step 1 of R388: the test map goes into the inactive bank and its switch is committed. -/
def startTest (n : Fin 16) (t : Fin 16) (x : NozTest) (s : State) : State :=
  let ws := s.mapWords n
  let test := ws.map fun w => if getBits w 2 1 = 1 then w else setBits w 0 2 0
  let s1 := writeBanks n (1 - s.mapBank n) test
    (s.modIso n fun i => { i with nozTest := some { x with saved := ws, bank := s.mapBank n, stage := 0 } })
  launch t { slot := t.val, chans := [n.val], waiting := [n.val], counts := [], test := true } s1

/-- The supervisor switches back to the map from before the test (R388). -/
def restoreTest (n : Fin 16) (s : State) : State :=
  match (s.ch n).iso.nozTest, s.freeTx with
  | some x, some t =>
    if s.inRound n then s
    else
      let s1 := writeBanks n (1 - s.mapBank n) x.saved (modTest n (fun x => some { x with stage := 3 }) s)
      launch t { slot := t.val, chans := [n.val], waiting := [n.val], counts := [], test := true } s1
  | _, _ => s

/-- Steps 2 and 3 of R388: the first ladder after the test map applied gives each measured nozzle its class and the others their
status from before; the result is committed as a round, or the test is to be restored. -/
def takeTest (n : Fin 16) (x : NozTest) (h : HealRes) (t : Fin 16) (s : State) : State :=
  let dd := s.flag (F.CHn_IMG_CTRL_DEVDEAD n)
  let js := List.range (s.get (F.CHn_IMG_GEOM_NNOZ n))
  let old (j : Nat) : Word := x.saved.getD j 0
  let sts := (List.range 4096).map fun j =>
    let r := h.res.getD j { meas := false, cls := 0 }
    if r.meas then r.cls else getBits (old j) 0 2
  let was (j : Nat) : Bool := deadWith dd (old j) (getBits (old j) 0 2)
  let now (j : Nat) : Bool := deadWith dd (old j) (nth sts j)
  let back := (js.filter fun j => was j && !now j).length
  let gone := (js.filter fun j => now j && !was j).length
  if s.tooMany n gone then
    let s1 := skipChan n (if s.domOn 6 then s.bump F.INS_HEALCNT_ABORTS 1 else s)
    (modTest n (fun x => some { x with stage := 4 }) s1).raise 77
  else
    let counts := (js.filter fun j => (h.res.getD j { meas := false, cls := 0 }).meas).map fun j => (betterKey n j, 0)
    let s1 := writeBanks n (1 - s.mapBank n) (withStatus x.saved sts)
      (modTest n (fun x => some { x with stage := 2, back := back, newDead := gone }) s)
    let s2 := if s1.domOn 6 then s1.bump F.INS_HEALCNT_ROUNDS 1 else s1
    launch t { slot := t.val, chans := [n.val], waiting := [n.val], counts := counts, test := true } s2

/-- R388: the time limit of channel n's nozzle test ends before its ladder came, or its switch back is due. A test map that has not yet
applied is switched back once it has (R85), and the reply follows (R378). -/
def execNoztestTimeout (n : Fin 16) (s : State) : Host.Outcome State Fault Refusal :=
  .next (match (s.ch n).iso.nozTest with
    | some x =>
      if s.supCapo && (x.stage == 4 || (x.stage == 1 && decide (x.till ≤ s.tick))) then restoreTest n s else s
    | none => s)

/-! ## Rounds -/

/-- Whether the results of a frame are complete: every healing ladder of it has been analysed (R235). -/
def State.setReady (s : State) (h : HealSet) : Bool :=
  match (if h.port = 0 then s.cam 0 else s.cam 1).frameOf h.frame with
  | some f => !f.lad || f.lads.all fun l => !l.heal || f.ladDone.contains l.n
  | none => true

/-- A round over the channels of one frame's results, from slot t (R233 to R235). -/
def runRound (h : HealSet) (t : Fin 16) (s : State) : State :=
  let plans := h.chans.filterMap fun x => (chOf x.n).bind fun n =>
    if s.flag (F.INS_LADn_CFG_HEAL n) && !(s.ch n).iso.isolated && (s.ch n).iso.nozTest.isNone && s.chOn n then
      some (healPlan s n x) else none
  let bad := plans.filter fun p => p.skipped
  let good := plans.filter fun p => !p.skipped
  let still := good.filter fun p => !p.changed
  let go := good.filter fun p => p.changed
  let s1 := if go.isEmpty && bad.isEmpty then s else
    insPut F.INS_HEAL_APPLIED 0 (insPut F.INS_HEAL_SKIPPED 0 (insPut F.INS_HEALCNT_SKIP15 0 s))
  let s2 := bad.foldl (fun (s : State) (p : HealPlan) =>
    (skipChan p.chan (if s.domOn 6 then s.bump F.INS_HEALCNT_ABORTS 1 else s)).raise 77) s1
  let keep (b : Sparse 8) (xs : List (Nat × Nat)) : Sparse 8 :=
    xs.foldl (fun (b : Sparse 8) (x : Nat × Nat) => sparseSet betterDefault b x.1 (BitVec.ofNat 8 x.2)) b
  let s3 := { s2 with ins := { s2.ins with better := still.foldl (fun (b : Sparse 8) (p : HealPlan) => keep b p.counts) s2.ins.better } }
  if go.isEmpty then s3
  else
    let s4 := go.foldl (fun (s : State) (p : HealPlan) =>
      let ws := (List.range p.sts.length).map fun j => setBits (setBits (s.mapWord p.chan j) 0 2 (nth p.sts j)) 8 12 (nth p.gains j)
      writeBanks p.chan (1 - s.mapBank p.chan) ws s) s3
    let s5 := if s4.domOn 6 then s4.bump F.INS_HEALCNT_ROUNDS 1 else s4
    let chans := go.map fun p => p.chan.val
    launch t { slot := t.val, chans := chans, waiting := chans, counts := go.flatMap (·.counts), test := false } s5

/-- The first results that can go, those of a channel waiting for earlier ones of it (R235). -/
def firstSet (ok : HealSet → Bool) : List Nat → List HealSet → Option HealSet
  | _, [] => none
  | seen, h :: r =>
    let ns := h.chans.map (·.n)
    if ok h && !(ns.any fun n => seen.contains n) then some h else firstSet ok (ns ++ seen) r

/-- R233 to R235, R388: the supervisor runs its healing loop once: a due switch back of a nozzle test, or the oldest complete
results of a frame none of whose channels has a round in flight, as nozzle test or as round. -/
def execHealRound (s : State) : Host.Outcome State Fault Refusal :=
  .next (if s.supCapo then
      match allCh.find? fun n => match (s.ch n).iso.nozTest with
          | some x => x.stage == 4 && !s.inRound n
          | none => false with
      | some n => restoreTest n s
      | none =>
        match firstSet (fun h => s.setReady h && h.chans.all fun x => !s.inRound x.n) [] s.ins.pend, s.freeTx with
        | some h, some t =>
          let s1 := { s with ins := { s.ins with pend := s.ins.pend.filter (· != h) } }
          let tested := h.chans.find? fun x => match s.nozTest x.n with
            | some y => y.stage == 1 && decide (s.tick < y.till) && frameAfter h.frame (nth y.since h.port)
            | none => false
          match tested with
          | some x => match chOf x.n, s.nozTest x.n with
            | some n, some y =>
              let rest := { h with chans := h.chans.filter (fun z => z.n != x.n) }
              let s2 := if rest.chans.isEmpty then s1 else { s1 with ins := { s1.ins with pend := rest :: s1.ins.pend } }
              takeTest n y x t s2
            | _, _ => s1
          | none => runRound h t s1
        | _, _ => s
    else s)

end Sys2Proof.Machine
end

