-- ==== Sys2Proof/Machine/Registers.lean ====
section
/-! DEFINITION. The meanings of the register accesses that have no row of their own (chapters 0 and 13). -/

namespace Sys2Proof.Machine

/-- R10: a master writes a register. -/
def execRegisterWrite (m : Master) (a : Nat) (v : Word) (s : State) : Host.Outcome State Fault Refusal :=
  .next (busWrite m a v s)

/-- R13: a master reads the low word of a 64-bit register, which latches the high word for it. -/
def execLowWordRead (m : Master) (a : Nat) (s : State) : Host.Outcome State Fault Refusal := .next (busRead m a s)

/-- R10: a master reads a register with RC fields, which clears them. -/
def execRcRead (m : Master) (a : Nat) (s : State) : Host.Outcome State Fault Refusal := .next (busRead m a s)

end Sys2Proof.Machine
end

