-- ==== Sys2Proof/Machine/SpFrame.lean ====
section
/-! DEFINITION. The transactions of the Safety port as bytes: their kinds and their replies (R341, R342). -/

namespace Sys2Proof.Machine

/-- What the port makes of the bytes received on SP_MOSI (R341, R342). -/
inductive SpKind where
  | read | write | status | badCommand | crcError | early
deriving DecidableEq, Repr

/-- The kind of a transaction: cut before byte 15 is complete, a wrong CRC over bytes 0 to 11, or its CMD. -/
def spKind (bs : List Byte) : SpKind :=
  if bs.length < 16 then .early
  else if crc32c (bs.take 12) ≠ BitVec.ofNat 32 (fieldAt bs 12 4) then .crcError
  else if fieldAt bs 0 1 = 1 then .read
  else if fieldAt bs 0 1 = 2 then .write
  else if fieldAt bs 0 1 = 3 then .status
  else .badCommand

/-- Whether the bytes are a transaction of a kind, of at most 36 bytes (R341). -/
def spWf (k : SpKind) (bs : List Byte) : Bool := spKind bs == k && decide (bs.length ≤ 36)

/-- Bytes 20 to 35 of a transaction: STATUS, SEQ, 0, 0, ADDR, DATA and the CRC over them (R341). -/
def spReply (st : Nat) (bs : List Byte) (data : Word) : List Byte :=
  let b := leBytes 1 st ++ bytesAt bs 1 1 ++ [0, 0] ++ bytesAt bs 4 4 ++ leBytes 4 data.toNat
  b ++ leBytes 4 (crc32c b).toNat

/-- An earlier reply with bit 7 of STATUS set (R342). -/
def spRepeat (r : List Byte) : List Byte :=
  let b := leBytes 1 (fieldAt r 0 1 ||| 0x80) ++ bytesAt r 1 11
  b ++ leBytes 4 (crc32c b).toNat

end Sys2Proof.Machine
end

