-- ==== Sys2Proof/Machine/SafetyPort.lean ====
section
/-! DEFINITION. The Safety port (R341 to R345): its rights, what its commands do, its watchdog and its reset. -/

namespace Sys2Proof.Machine

/-- The reply leaves on SP_MISO as far as SP_CS_N stays low (R342). -/
def spSend (bs r : List Byte) (s : State) : State :=
  if 20 < bs.length then s.emit (.spReply (r.take (bs.length - 20))) else s

/-! ## Execution -/

/-- Whether the port may read an offset of BAR0 (R343). -/
def spMayRead (a : Nat) : Bool := a % 4 == 0 && decide (a < 0x2000000) && !isTable a && blockOf a ≠ 14

/-- Whether the offset is a register that the port reads in a powered domain. -/
def State.spReads (s : State) (a : Nat) : Bool := spMayRead a && inMap a && s.powered a

/-- Whether the port may write the offset. -/
def State.spWrites (s : State) (a : Nat) : Bool := a % 4 == 0 && s.mayWrite .sp a

/-- STATUS and DATA of the reply to a command (R341, R343). -/
def State.spAnswer (s : State) (k : SpKind) (a : Nat) (v : Word) : Nat × Word :=
  match k with
  | .read => (if spMayRead a then 0 else 2, if s.spReads a then readWord .sp a s else 0)
  | .write => if s.spWrites a then (0, v) else (2, 0)
  | .status => (0, liveWord .sp A.PROT_STAT s)
  | _ => (3, 0)

/-- What a command does to the registers (R343). -/
def spEffect (k : SpKind) (a : Nat) (v : Word) (s : State) : State :=
  match k with
  | .read => if s.spReads a then readEffect .sp a s else s
  | .write => if s.spWrites a then busWrite .sp a v s else s
  | _ => s

/-- A command is executed: it is counted, the watchdog window starts again, and the reply is kept for a repeat (R342, R344). -/
def spExecute (k : SpKind) (bs : List Byte) (s : State) : State :=
  let s1 := s.bump F.PROT_SPCNT_FRAMES 1
  let s2 := { s1 with sp := { s1.sp with lastTick := s1.tick, running := true, sinceExpiry := true, crcRun := 0 } }
  let a := fieldAt bs 4 4
  let v := BitVec.ofNat 32 (fieldAt bs 8 4)
  let r := s2.spAnswer k a v
  let rep := spReply r.1 bs r.2
  let s3 := spEffect k a v s2
  spSend bs rep { s3 with sp := { s3.sp with last := some (bs.take 12, rep) } }

/-- A command with a correct CRC and a valid CMD: executed, or a repeat answered as before (R342). -/
def spCommand (k : SpKind) (bs : List Byte) (s : State) : State :=
  if !s.domOn 1 then s
  else match s.sp.last with
    | some (b, r) =>
      if b = bs.take 12 then spSend bs (spRepeat r) { s with sp := { s.sp with crcRun := 0 } } else spExecute k bs s
    | none => spExecute k bs s

/-- The port resets (R345). -/
def spReset (s : State) : State :=
  let s1 := abortOwned .sp s
  let s2 := [A.CAPO_BIND, A.PROT_CFMTX, A.PROT_CFM_LO, A.PROT_CFM_HI, A.PROT_CFMRES].foldl
    (fun (s : State) (a : Nat) => s.setWord (bankOf (masterBank .sp) a) 0) s1
  let s3 := { s2 with sp := { s2.sp with last := none, crcRun := 0 } }
  (s3.put F.PROT_STAT_SPRST 1).raise 18

/-! ## Meanings -/

/-- R343: a READ command. -/
def execSpRead (bs : List Byte) (s : State) : Host.Outcome State Fault Refusal :=
  nextIf (spWf .read bs) (spCommand .read bs s)

/-- R343: a WRITE command. -/
def execSpWrite (bs : List Byte) (s : State) : Host.Outcome State Fault Refusal :=
  nextIf (spWf .write bs) (spCommand .write bs s)

/-- SP_IRQ_N is low while a PROTECTED slot that the port does not own is PROPOSED; a port without power releases it (R341, R416). -/
def State.spIrqN (s : State) : Bool :=
  !s.domOn 1 || !s.released || !(allTx.any fun t => s.txState t == 2 && !s.ownsSlot .sp t)

/-- R341: a STATUS command. -/
def execSpStatus (bs : List Byte) (s : State) : Host.Outcome State Fault Refusal :=
  nextIf (spWf .status bs) (spCommand .status bs s)

/-- R341: a CMD that names no command is answered BADCMD and not executed. -/
def execSpBadCommand (bs : List Byte) (s : State) : Host.Outcome State Fault Refusal :=
  nextIf (spWf .badCommand bs)
    (if s.domOn 1 then spSend bs (spReply 3 bs 0) { s with sp := { s.sp with crcRun := 0 } } else s)

/-- R342, R345: a command with a wrong CRC is counted and not executed; the sixteenth in succession resets the port. -/
def execSpCrcError (bs : List Byte) (s : State) : Host.Outcome State Fault Refusal :=
  nextIf (spWf .crcError bs)
    (if s.domOn 1 then
      let s1 := s.bump F.PROT_SPCNT_CRCERR 1
      let s2 := spSend bs (spReply 1 bs 0) { s1 with sp := { s1.sp with crcRun := s1.sp.crcRun + 1 } }
      if 16 ≤ s2.sp.crcRun then spReset s2 else s2
    else s)

/-- R342: SP_CS_N rises before byte 15 is complete: nothing is executed. -/
def execSpCsEarly (bs : List Byte) (s : State) : Host.Outcome State Fault Refusal := nextIf (spWf .early bs) s

/-- R344: the watchdog window ends. -/
def execSafetyPortWatchdog (s : State) : Host.Outcome State Fault Refusal :=
  .next (
    let w := s.get F.PROT_CFG_SPWDOG
    if s.domOn 1 && s.sp.running && w != 0 && decide (s.sp.lastTick + w * msTicks ≤ s.tick) then
      let s1 := { s with sp := { s.sp with running := false, sinceExpiry := false } }
      stopAction (s1.get F.PROT_CFG_SPTOACT) F.FLT_SAFE_SPWD ((s1.put F.PROT_STAT_SPWD 1).raise 18)
    else s)

/-- R345: SP_CS_N stays low for more than 1 ms. -/
def execSafetyPortReset (s : State) : Host.Outcome State Fault Refusal := .next (if s.domOn 1 then spReset s else s)

end Sys2Proof.Machine
end

