-- ==== Sys2Proof/Machine/Pins.lean ====
section
/-! DEFINITION. The signal pins (R412, R413): their domains, what stands on them while their domain is not ON (R401, R416), and
those that the boundary register reaches (R425). -/

namespace Sys2Proof.Machine

/-- The signals of an LVDS pair or a pin of a channel (R412). -/
inductive ChPin where
  | bd (k : Fin 8) | bfrm | bclk | fire | seg | bret
  /-- Lane D0, D1, FRM or CLK of a waveform port. -/
  | wv (p : Fin 2) (k : Fin 4)
  | wfb | presN | hpen | scl | sda
deriving DecidableEq, Repr

/-- The signals of the package (R412, R413); a pair counts once. -/
inductive Pin where
  | clk25 | resetN | pfailN | stopN | wakeN | safeOk | supen
  | xspi (k : Fin 12)
  | spSck | spCsN | spMosi | spMiso | spIrqN
  | ch (n : Fin 16) (p : ChPin)
  /-- D0 to D35, PCLK, LVAL, FVAL, DVAL of a camera port. -/
  | cam (p : Fin 2) (k : Fin 40)
  /-- A, B and Z of an encoder; an SOS input; A, B and Z of an emulation output. -/
  | enc (e : Fin 4) (k : Fin 3) | sos (i : Fin 8) | emu (m : Fin 4) (k : Fin 3)
  /-- G0 to G7 of an axis, its current senses, SI and DI. -/
  | axG (a : Fin 4) (k : Fin 8) | axCs (a : Fin 4) (c : Fin 2) | axSi (a : Fin 4) | axDi (a : Fin 4)
  | ts (k : Fin 40) | tref | htr (n : Fin 16)
  | pcieTx (k : Fin 8) | pcieRx (k : Fin 8)
deriving DecidableEq, Repr

/-- What stands on a pin whose domain is not ON (R401, R416). -/
inductive OffState where
  | low | undriven | released | highZ | ignored | pulledUp
  /-- Sampled by the channels that are ON. -/
  | sampled
  /-- A sensor's current source or TREF, off. -/
  | sourceOff
deriving DecidableEq, Repr

/-- The switched domain of a pin, none for AON and for CLK25 (R416). -/
def Pin.domain : Pin → Option Nat
  | .xspi _ => some 2
  | .spSck => some 1 | .spCsN => some 1 | .spMosi => some 1 | .spMiso => some 1 | .spIrqN => some 1
  | .ch n _ => some (8 + n.val)
  | .cam _ _ => some 7
  | .enc _ _ => some 4 | .sos _ => some 4 | .emu _ _ => some 4
  | .axG _ _ => some 5 | .axCs _ _ => some 5 | .axSi _ => some 5 | .axDi _ => some 5
  | .pcieTx _ => some 0 | .pcieRx _ => some 0
  | _ => none

/-- The state of a channel's pin while its domain is not ON (R165, R401). -/
def ChPin.off : ChPin → OffState
  | .bret => .ignored
  | .wfb => .highZ
  | .presN => .pulledUp
  | .hpen => .undriven
  | .scl => .released
  | .sda => .released
  | _ => .low

/-- The state of a pin while its domain is not ON, or, for the pins of AON, while only VKEEP is present (R401, R402, R416). -/
def Pin.off : Pin → OffState
  | .ch _ p => p.off
  | .emu _ _ => .low
  | .enc _ _ => .sampled
  | .sos _ => .sampled
  | .axG _ _ => .undriven
  | .xspi _ => .highZ
  | .spMiso => .released
  | .spIrqN => .released
  | .pcieTx _ => .highZ
  | .ts _ => .sourceOff
  | .tref => .sourceOff
  | .htr _ => .low
  | .safeOk => .low
  | _ => .ignored

/-- Whether a pin lives: its domain is ON and the internal reset released, and for the sensors, heaters and SAFE_OK the main supplies are
present; the other pins of AON and CLK25 always do (R395, R401, R402, R416). -/
def State.pinLive (s : State) (p : Pin) : Bool :=
  match p.domain, p with
  | some d, _ => s.domOn d && s.released
  | none, .ts _ => s.pwr.mainUp
  | none, .tref => s.pwr.mainUp
  | none, .htr _ => s.pwr.mainUp
  | none, .safeOk => s.pwr.mainUp
  | none, _ => true

/-- What stands on a pin that does not live (R401, R416). -/
def State.pinOff (s : State) (p : Pin) : Option OffState := if s.pinLive p then none else some p.off

/-- The level of CHn_HPEN, none while it is undriven (R165, R401). -/
def State.hpenPin (s : State) (n : Fin 16) : Option Bool := if s.chOn n then some (s.flag (F.CHn_BRG_STAT_HPEN n)) else none

/-- Whether CHn_SCL and CHn_SDA are released whatever else happens: the channel is not ON, or isolated (R380, R401). -/
def State.i2cReleased (s : State) (n : Fin 16) : Bool := !s.chOn n || (s.ch n).iso.isolated

/-- The level of XSPI_RST_N, none while the pins are at high impedance: low for 10 µs at the start of every boot (R357, R401). -/
def State.xspiRstN (s : State) : Option Bool :=
  if !s.domOn 2 || !s.released then none
  else some (!(s.boot.phase == .rom && decide (s.tick < s.boot.t0 + 10 * usTicks)))

/-! ## The boundary register -/

/-- The pins of a channel that have a cell, in the order of R412. -/
def chCells : List ChPin :=
  (List.finRange 8).map .bd ++ [.bfrm, .bclk, .fire, .seg, .bret] ++
  (List.finRange 2).flatMap (fun p => (List.finRange 4).map (.wv p)) ++ [.presN, .hpen, .scl, .sda]

/-- A group of cells, its control cell first where it has one (R425). -/
def cellGroup (ctl : Bool) (ps : List Pin) : List (Option Pin) := (if ctl then [none] else []) ++ ps.map some

/-- The cells of the boundary register from TDI to TDO, none standing for a control cell; within a group the pins follow in the order of
R413, or of R412 for a channel (R425). -/
def tapChain : List (List (Option Pin)) :=
  [cellGroup true [.clk25, .resetN, .pfailN, .stopN, .wakeN, .safeOk, .supen],
    cellGroup true [.spSck, .spCsN, .spMosi, .spMiso, .spIrqN]] ++
  (List.finRange 16).map (fun n => cellGroup true (chCells.map (.ch n))) ++
  [cellGroup false ((List.finRange 2).flatMap fun p => (List.finRange 40).map (.cam p)),
    cellGroup false ((List.finRange 4).flatMap (fun e => (List.finRange 3).map (.enc e)) ++ (List.finRange 8).map .sos),
    cellGroup true ((List.finRange 4).flatMap fun m => (List.finRange 3).map (.emu m))] ++
  (List.finRange 4).map (fun a => cellGroup true ((List.finRange 8).map (.axG a) ++ [.axSi a, .axDi a])) ++
  [cellGroup true ((List.finRange 16).map .htr)]

/-- The pin of cell c, none for a control cell and beyond the register. -/
def cellPin (c : Nat) : Option Pin := (tapChain.flatten[c]?).join

/-- Whether a pin is an output, so that its control cell governs it (R416, R425). -/
def Pin.isOut : Pin → Bool
  | .safeOk => true | .supen => true | .spMiso => true | .spIrqN => true | .emu _ _ => true | .axG _ _ => true | .htr _ => true
  | .ch _ .bret => false
  | .ch _ .presN => false
  | .ch _ .wfb => false
  | .ch _ _ => true
  | .pcieTx _ => true
  | _ => false

end Sys2Proof.Machine
end

