-- ==== Sys2Proof/Machine/Tap.lean ====
section
/-! DEFINITION. The test access port (R390, R425): IDCODE and the boundary register. -/

namespace Sys2Proof.Machine

/-- IDCODE: version 1, part 0x1640, manufacturer 0x2B5 (R425). -/
def idcode : Word := 0x1164056B

/-- Where each group of the boundary register begins, with its cells. -/
def groupsFrom : Nat → List (List (Option Pin)) → List (Nat × List (Option Pin))
  | _, [] => []
  | c, g :: r => (c, g) :: groupsFrom (c + g.length) r

/-- The groups of the boundary register from TDI on (R425): first cell and cells. -/
def tapGroups : List (Nat × List (Option Pin)) := groupsFrom 0 tapChain

/-- The control cells, each 1 for high impedance (DESIGN CHOICE, log 110). -/
def hiZCells : BitVec 604 :=
  tapGroups.foldl (fun (acc : BitVec 604) (g : Nat × List (Option Pin)) =>
    if g.2.head? = some none then acc ||| (1#604 <<< g.1) else acc) 0

/-- The TAP leaves test-logic reset for the first time: every control cell is at high impedance (R390, R425). -/
def releaseTap (s : State) : State :=
  { s with flt := { s.flt with tap := { instr := .idcode, cells := hiZCells, extest := false } } }

/-- What the selected data register captures, the bit that leaves at TDO first at the head. -/
def tapCapture (i : TapInstr) (pins : BitVec 604) : List Bool :=
  match i with
  | .bypass => [false]
  | .idcode => (List.range 32).map fun k => idcode.getLsbD k
  | .sample => (List.range 604).map fun k => pins.getLsbD (603 - k)
  | .extest => (List.range 604).map fun k => pins.getLsbD (603 - k)

/-- The cells as a number, the head of the list being the cell next to TDO. -/
def tapCells (q : List Bool) : BitVec 604 := BitVec.ofNat 604 (q.foldl (fun (acc : Nat) (b : Bool) => 2 * acc + b2n b) 0)

/-- What the tester does at the TAP, which is held in test-logic reset until BSCAN is accepted (R390). -/
def tapOp (s : State) (o : TapOp) : State :=
  let t := s.flt.tap
  if !s.flag F.FLT_SAFE_BSCAN then s
  else match o with
    | .reset => { s with flt := { s.flt with tap := { t with instr := .idcode } } }
    | .load i => { s with flt := { s.flt with tap := { t with instr := i, extest := t.extest || i == .extest } } }
    | .scan pins tdi =>
      let q := tapCapture t.instr pins ++ tdi
      let s1 := s.emit (.tdo (q.take tdi.length))
      if t.instr = .sample ∨ t.instr = .extest then
        { s1 with flt := { s1.flt with tap := { t with cells := tapCells (q.drop tdi.length) } } }
      else s1

/-- What cell c drives onto its pin in boundary-scan mode: nothing for an input, and nothing while its group is at high impedance, as it
is until EXTEST loads the cells (R425). -/
def State.tapDrives (s : State) (c : Nat) : Option Bool :=
  match tapGroups.find? fun g => g.1 ≤ c && decide (c < g.1 + g.2.length), cellPin c with
  | some g, some p =>
    if p.isOut && s.flt.tap.extest && !s.flt.tap.cells.getLsbD g.1 then some (s.flt.tap.cells.getLsbD c) else none
  | _, _ => none

end Sys2Proof.Machine
end

