-- ==== Sys2Proof/Machine/Services.lean ====
section
/-! DEFINITION. The service messages that the firmware answers: those of R325, and the test and repair services of
chapter 16 (R378 to R390). -/

namespace Sys2Proof.Machine

/-! ## Requests and replies -/

/-- The codes listed for mailbox m: of the boot ROM in NOIMAGE (R373), of the supervisor, of a sequencer (R325, R378). -/
def State.codes (s : State) (m : Fin 48) : List Nat :=
  if m.val < 16 then [0x01, 0x60, 0x61]
  else if s.boot.phase = .noImage then [0x01, 0x50]
  else [0x01, 0x10, 0x11, 0x20, 0x40, 0x50, 0x90, 0x91, 0x92, 0x93, 0x94, 0x95, 0x96, 0x98, 0x9F]

/-- The codes that only PF0 may send. -/
def pf0Code (c : Nat) : Bool := [0x20, 0x40, 0x60, 0x61, 0x90, 0x91, 0x92, 0x93, 0x94, 0x95, 0x96, 0x98].contains c

/-- Whether the firmware behind mailbox m takes the request held there now: it serves requests from READY on, or in NOIMAGE
(R373), and holds at most eight replies for a port (R324). -/
def State.serves (s : State) (m : Fin 48) : Bool :=
  let p := mbxReceiver m
  s.domOn 0 && !isHostPort p && s.portRuns p && (s.mb m).full && !(s.mb m).waiting &&
  (s.boot.phase == .ready || s.boot.phase == .noImage) &&
  match (s.mb m).src with
  | some q => (match mbxOf (returnBox m.val q) with
    | some r => decide (s.heldFor p r < 8)
    | none => false)
  | none => false

/-- Word w of the message held in mailbox m; words beyond its length read 0. -/
def State.reqWord (s : State) (m : Fin 48) (w : Nat) : Nat :=
  if w < (s.mb m).len then ((s.mb m).msg.getD w 0).toNat else 0

/-- The answer to a request: a status of R325 and, where it is OK, the words after the header. -/
structure Answer where
  status : Nat
  words : List Word
  state : State
deriving DecidableEq, Repr

/-- An answer that changes nothing beside. -/
def answerOf (st : Nat) (ws : List Word) (s : State) : Answer := { status := st, words := ws, state := s }

/-- The header of the reply to a request (R322). -/
def replyHeader (h : Word) (st : Nat) : Word := setBits (setBits (h &&& 0xFFFF) 16 8 st) 31 1 1

/-- The reply to a request of port q in mailbox m is posted; one with a status other than OK carries only word 0 (R325). -/
def sendReply (m : Fin 48) (q : Port) (h : Word) (x : Answer) : State :=
  match mbxOf (returnBox m.val q) with
  | some r => postReply r (mbxReceiver m) (replyHeader h x.status :: if x.status = 0 then x.words else []) x.state
  | none => x.state

/-- The request with code c in mailbox m is taken: DENIED for a port its From column does not name (R325), or what `f` makes of
it; none leaves it waiting. `f` meets the state with the message released. -/
def serveWith (c : Nat) (m : Fin 48) (f : Port → Word → State → Option Answer) (after : State → State) (s : State) : State :=
  match (s.mb m).src with
  | none => s
  | some q =>
    let h := BitVec.ofNat 32 (s.reqWord m 0)
    if !s.serves m || hdrCode h != c || !(s.codes m).contains c then s
    else
      let s1 := releaseMsg m s
      if pf0Code c && q != .pf0 then sendReply m q h (answerOf 2 [] s1)
      else match f q h s1 with
        | none => s
        | some x => let s2 := sendReply m q h x
          if x.status = 0 then after s2 else s2

/-- A request with a plain answer. -/
def serve (c : Nat) (m : Fin 48) (f : State → Answer) (s : State) : State :=
  serveWith c m (fun _ _ s => some (f s)) id s

/-- A request whose word 1 names a channel; a number above 15 gives BADARG (R378). -/
def serveCh (c : Nat) (m : Fin 48) (f : Fin 16 → State → Answer) (s : State) : State :=
  serve c m (fun s1 => match chOf (s.reqWord m 1) with
    | some n => f n s1
    | none => answerOf 3 [] s1) s

/-- A 64-bit number as two words, low first. -/
def words64 (v : Nat) : List Word := [numWord v, numWord (v / 2 ^ 32)]

/-! ## R325 -/

/-- The code of a band state: 0 ACCEPTED to 6 RETIRED (R325). -/
def bandCode : BandState → Nat
  | .accepted => 0 | .loading => 1 | .ready => 2 | .released => 3 | .firing => 4 | .done => 5 | .retired => 6

/-- R325: PING. -/
def execPing (m : Fin 48) (s : State) : Host.Outcome State Fault Refusal :=
  .next (serve 0x01 m (fun s1 => answerOf 0 (Config.fwVersion ::
    match mbxReceiver m with
    | .seq n => [liveWord .sup (A.WRK_SCRn_STAT n) s1]
    | _ => [numWord s1.boot.bootCnt, if s1.boot.phase = .noImage then 2 else if s1.boot.slot = .b then 1 else 0]) s1) s)

/-- The state that BANDREC and BANDSTATE report of a band record: that of the unretired band, else that of the record. -/
def State.recCode (s : State) (n : Fin 16) (r : BandRec) : Nat :=
  match s.band? n r.desc.seq with
  | some b => bandCode b.state
  | none => bandCode r.state

/-- R325: BANDREC. What is counted of an unretired band comes from the band, of a retired one from its record. -/
def execBandrec (m : Fin 48) (s : State) : Host.Outcome State Fault Refusal :=
  .next (serveCh 0x10 m (fun n s1 =>
    match (s1.journal n).recs.reverse.find? fun r => r.desc.seq == s.reqWord m 2 with
    | none => answerOf 4 [] s1
    | some r =>
      let c : Nat × Nat × Nat := match s1.band? n r.desc.seq with
        | some b => (b.status, b.npart, b.fired)
        | none => (r.status, r.npart, r.nfired)
      answerOf 0 ([numWord r.desc.seq, numWord (s1.recCode n r), numWord (c.1 + 65536 * min c.2.1 65535), numWord c.2.2] ++
        words64 r.accTime ++ [numWord r.accBoot] ++ words64 r.desc.buf ++ words64 r.desc.tag) s1) s)

/-- R325: CHKPT. Of a channel that has never written a checkpoint the words are free. -/
def execChkpt (m : Fin 48) (s : State) : Host.Outcome State Fault Refusal :=
  .next (serveCh 0x11 m (fun n s1 =>
    match (s1.journal n).ckpt with
    | some c => answerOf 0 ([numWord c.pos.seq, numWord c.pos.line, numWord c.ackSeq] ++ words64 c.time ++
        [numWord c.boot, numWord c.nrate]) s1
    | none => answerOf 0 ((List.range 7).map fun i => Config.freeWord (s1.free + i)) { s1 with free := s1.free + 7 }) s)

/-- R325: TUNNOW. `raw` is the calibrated result in the class's format, `ok` false a measurement that failed. -/
def execTunnow (m : Fin 48) (raw : Int) (ok : Bool) (s : State) : Host.Outcome State Fault Refusal :=
  .next (serve 0x20 m (fun s1 =>
    let c := s.reqWord m 1
    let i := s.reqWord m 2
    if 2 < c ∨ tunInsts c ≤ i then answerOf 3 [] s1
    else if s1.tunSkip c i || (c == 1 && s1.oscInUse i) || !ok then answerOf 5 [] s1
    else
      let r : Int := if c = 0 then toSigned 16 (ofSigned 16 raw) else (ofSigned (if c = 1 then 12 else 10) raw : Nat)
      let t : Word × State := match s1.tunTemp c i with
        | some t => (numWord (ofSigned 32 t), s1)
        | none => (s1.freeVal, s1.takeFree)
      answerOf 0 [numWord (ofSigned 32 r), t.1] (tunResult c i r t.2)) s)

/-- The supervisor restarts once the reply to SUPRST is posted: at once, or when the replies held before it have been (R324, R325). -/
def restartAfter (m : Fin 48) (s : State) : State :=
  match mbxOf (returnBox m.val .pf0) with
  | some r => if (s.mb r).held.isEmpty then supReset false s
    else { s with boot := { s.boot with rstDue := some (r.val, (s.mb r).held.length) } }
  | none => s

/-- R325: SUPRST. -/
def execSuprst (m : Fin 48) (s : State) : Host.Outcome State Fault Refusal :=
  .next (serveWith 0x40 m (fun _ _ s1 => some (answerOf (if s.reqWord m 1 = 0x5E57 then 0 else 3) [] s1)) (restartAfter m) s)

/-- R325: SLOTINFO. The digest is BODYDIG (DEDUCED, log 64). -/
def execSlotinfo (m : Fin 48) (s : State) : Host.Outcome State Fault Refusal :=
  .next (serve 0x50 m (fun s1 =>
    if 1 < s.reqWord m 1 then answerOf 3 [] s1
    else
      let sl : Slot := if s.reqWord m 1 = 1 then .b else .a
      let h := s1.hdr sl
      let ok := s1.hdrCause sl == 0
      answerOf 0 [numWord (b2n ok + 2 * b2n (ok && s1.bodyCause sl == 0) + 4 * b2n (ok && s1.authentic sl)),
        numWord (hdrVersion h), numWord (hdrIlen h), numWord (fieldAt h 48 4), numWord (fieldAt h 52 4)] s1) s)

/-- The channel behind a sequencer's mailbox. -/
def seqOf (m : Fin 48) : Option (Fin 16) := chOf m.val

/-- R325: BANDSTATE. -/
def execBandstate (m : Fin 48) (s : State) : Host.Outcome State Fault Refusal :=
  .next (serve 0x60 m (fun s1 =>
    match (seqOf m).bind fun n => s1.band? n (s.reqWord m 1) with
    | some b => answerOf 0 [numWord (bandCode b.state), numWord b.fired] s1
    | none => answerOf 4 [] s1) s)

/-- R325: BANDLIST. -/
def execBandlist (m : Fin 48) (s : State) : Host.Outcome State Fault Refusal :=
  .next (serve 0x61 m (fun s1 =>
    match seqOf m with
    | some n =>
      let bs := (s1.ch n).work.bands
      answerOf 0 (numWord bs.length :: (bs.take 14).map fun b => numWord b.desc.seq) s1
    | none => answerOf 1 [] s1) s)

/-- R325, R378: a request whose code the mailbox does not list is answered with UNKNOWN. -/
def execUnknownCode (m : Fin 48) (s : State) : Host.Outcome State Fault Refusal :=
  .next (match (s.mb m).src with
    | some q =>
      let h := BitVec.ofNat 32 (s.reqWord m 0)
      if s.serves m && !(s.codes m).contains (hdrCode h) then sendReply m q h (answerOf 1 [] (releaseMsg m s)) else s
    | none => s)

/-! ## Isolation and power -/

/-- A capo slot with a participant in channel n is in VOTING, ARMED or COMMITTED (R379). -/
def State.capoBusy (s : State) (n : Fin 16) : Bool :=
  allTx.any fun t => 3 ≤ s.txState t && s.txState t ≤ 5 && (s.txParts t).any fun p => match p with
    | .ch k _ => k == n
    | .sys _ => false

/-- Channel n is isolated: link OFF, trackers disabled, protection values and its work state kept (R378, R380, R381). A channel that
is OFF counts as powered off since (DEDUCED, log 170). DCAUSE names no such cause: its value is free. -/
def isolate (n : Fin 16) (s : State) : State :=
  let s1 := s.modIso n fun i =>
    { i with isolated := true, stateWas := s.wstate n, offSince := !s.chOn n, kept := s.protNow n }
  withFrets (syncTrackers n) (linkOff n (s1.freeVal.toNat % 6) s1.takeFree)

/-- The kept protection values are in effect again (R381). -/
def reinstateProt (n : Fin 16) (s : State) : State :=
  applyBrg n s ((s.ch n).iso.kept.foldl (fun (s : State) (x : Nat × Word) => s.setWord x.1 x.2) s)

/-- Ticks for which CHISOL waits for capo slots (R379). -/
def State.isolWaited (s : State) (m : Fin 48) : Bool := decide ((s.view m .pf0).sendTick + 100 * msTicks ≤ s.tick)

/-- R379 to R381: CHISOL. It waits for capo slots, for 100 ms at most. A line decided fires before the channel leaves (R156), which is
within this step (DESIGN CHOICE, log 107). -/
def execChisol (m : Fin 48) (s : State) : Host.Outcome State Fault Refusal :=
  .next (serveWith 0x90 m (fun _ _ s1 => match chOf (s.reqWord m 1) with
    | none => some (answerOf 3 [] s1)
    | some n =>
      if (s1.ch n).iso.isolated then some (answerOf 0 [numWord (s1.ch n).iso.stateWas] s1)
      else if s1.wstate n = 1 then some (answerOf 6 [] s1)
      else if s1.capoBusy n then (if s1.isolWaited m then some (answerOf 6 [] s1) else none)
      else some (answerOf 0 [numWord (s1.wstate n)] (isolate n (drain n s1)))) id s)

/-- A restart of the supervisor is what comes next, in this same tick: it interrupts what the supervisor is doing (R386; DESIGN CHOICE,
log 108). -/
def State.cutShort (s : State) : Bool :=
  s.supRuns && match s.pending with
    | .supLockstep :: _ => true
    | .supWdog :: _ => true
    | _ => false

/-- An interrupted service on an isolated channel whose domain is ON: it leaves what `f` says, and its message waits for the restart to
abort it (R321, R386). -/
def serveCut (c : Nat) (m : Fin 48) (f : Fin 16 → State → State) (s : State) : State :=
  match chOf (s.reqWord m 1) with
  | some n =>
    if s.serves m && hdrCode (BitVec.ofNat 32 (s.reqWord m 0)) == c && (s.codes m).contains c && (s.mb m).src == some .pf0 &&
        (s.ch n).iso.isolated && s.chOn n then f n s
    else s
  | none => s

/-- Self-tests whose contents the test destroys lose them: channel memory (bit 1), the duty counters (bit 5), whose values
afterwards are free (R383). -/
def bistDamage (n : Fin 16) (mask : Nat) (s : State) : State :=
  let s1 := if bitAt mask 1 then
      s.modCh n fun c => { c with img := Img.reset, iso := { c.iso with memLost := true, loaded := false, offSince := true } }
    else s
  if bitAt mask 5 then
    let s2 := (List.range 4096).foldl (fun (s : State) (j : Nat) =>
      s.setWord (dutAddr n j) (setBits 0 0 16 (Config.freeWord (s1.free + j)).toNat)) s1
    { s2.setWord (A.CHn_DUT_HCOUNT n) (Config.freeWord (s1.free + 4096)) with free := s1.free + 4097 }
  else s1

/-- R383, R386: CHBIST. `res` has a bit for each test that would pass, MEM failing where the memory has not been trained (DEDUCED, log
173); how long the tests take is free. An interrupted one counts as a MEM test if bit 1 is set. -/
def execChbist (m : Fin 48) (res : Nat) (s : State) : Host.Outcome State Fault Refusal :=
  .next (if s.cutShort then serveCut 0x91 m (fun n s => bistDamage n (s.reqWord m 2 % 64) s) s
  else serveCh 0x91 m (fun n s1 =>
    if !(s1.ch n).iso.isolated || !s1.chOn n then answerOf 6 [] s1
    else
      let mask := s.reqWord m 2 % 64
      let pass := mask &&& res &&& (if (s1.ch n).iso.untrained then 0b111101 else 0b111111)
      let s2 := (bistDamage n mask s1).modIso n fun i =>
        { i with bistPass := pass, bistFail := mask - pass, bistBoot := s1.boot.bootCnt, bistTime := s1.devTime }
      answerOf 0 [numWord pass, numWord (mask - pass), s2.freeVal] s2.takeFree) s)

/-- Channel n's memory is trained, or does not train within 40 ms (R382). -/
def trainMem (n : Fin 16) (ok : Bool) (s : State) : Answer :=
  let s1 := s.modIso n fun i => { i with untrained := !ok }
  if ok then answerOf 0 [2] s1 else answerOf 5 [] s1

/-- The domain of an isolated channel n is switched on through RAMP, or only its memory trained where that failed before (R31, R382). -/
def powerUpCh (n : Fin 16) (up trained : Bool) (s : State) : Answer :=
  let d := 8 + n.val
  if s.domOn d then (if (s.ch n).iso.untrained then trainMem n trained s else answerOf 0 [2] s)
  else if s.heldOff d then answerOf 5 [] (requestDom false d true s)
  else
    let s1 := endRamp d true up (beginRamp d true s)
    if up then trainMem n trained (reinstateProt n s1) else answerOf 5 [] s1

/-- The domain of an isolated channel n is switched off through RAMP; one in FAIL accepts only a switch-on (R31, R382, R398). -/
def powerDownCh (n : Fin 16) (s : State) : Answer :=
  let d := 8 + n.val
  if s.domOn d then answerOf 0 [0] (endRamp d false true (beginRamp d false s)) else answerOf 0 [numWord (s.domState d)] s

/-- R382: CHPOWER. `up` says whether the domain reaches ON and `trained` whether its memory trains. The switching is one step of the
model, RAMP within it; it waits while another domain ramps (R400; DESIGN CHOICE, log 108). -/
def execChpower (m : Fin 48) (up trained : Bool) (s : State) : Host.Outcome State Fault Refusal :=
  .next (serveWith 0x92 m (fun _ _ s1 => match chOf (s.reqWord m 1) with
    | none => some (answerOf 3 [] s1)
    | some n =>
      if 1 < s.reqWord m 2 then some (answerOf 3 [] s1)
      else if !(s1.ch n).iso.isolated then some (answerOf 6 [] s1)
      else if s1.pwr.ramp.isSome || !s1.pwr.queue.isEmpty then none
      else some (if s.reqWord m 2 = 0 then powerDownCh n s1 else powerUpCh n up trained s1)) id s)

/-! ## Loading and joining -/

/-- The SCRC of the SUPFW section of a slot (R384). -/
def State.supCrc (s : State) (sl : Slot) : Nat := (s.sect sl 0).crc

/-- The sections of a slot that CHLOAD applies to channel n, in table order. -/
def State.chanSects (s : State) (sl : Slot) (n : Fin 16) : List (Nat × Sect) :=
  (List.mapIdx (fun i (e : Sect) => (i, e)) (s.sects sl)).filter fun x =>
    x.2.typ == 2 || ([0x12, 0x13, 0x14].contains x.2.typ && bitAt x.2.chsel n.val)

/-- The sections are applied to channel n as a load before READY applies them (R363, R384). -/
def loadChannel (n : Fin 16) (sl : Slot) (s : State) : State :=
  let es := s.chanSects sl n
  let s1 := es.foldl (fun (s : State) (x : Nat × Sect) => loadChan x.2 (s.content sl x.2) n s)
    { s with boot := { s.boot with phase := .load 0 0 } }
  reinstateProt n { s1 with boot := { s1.boot with phase := s.boot.phase } }

/-- R384, R386: CHLOAD. Without trained memory nothing can be loaded into it (DEDUCED, log 173). An interrupted one leaves the channel
not loaded. -/
def execChload (m : Fin 48) (s : State) : Host.Outcome State Fault Refusal :=
  .next (if s.cutShort then serveCut 0x93 m (fun n s => s.modIso n fun i => { i with loaded := false }) s
  else serveCh 0x93 m (fun n s1 =>
    if 1 < s.reqWord m 2 then answerOf 3 [] s1
    else if !(s1.ch n).iso.isolated || !s1.chOn n then answerOf 6 [] s1
    else
      let sl : Slot := if s.reqWord m 2 = 1 then .b else .a
      let es := s1.chanSects sl n
      let fails (s : State) : Answer := answerOf 5 [] (s.modIso n fun i => { i with loaded := false })
      if (s1.ch n).iso.untrained ∨ s1.slotCause sl ≠ 0 ∨ (sl ≠ s1.boot.slot ∧ s1.supCrc sl ≠ s1.supCrc s1.boot.slot) then fails s1
      else if !(es.all fun x => BitVec.ofNat 32 x.2.crc == crc32c (s1.content sl x.2) && s1.sectFormatOk sl x.1) then fails s1
      else
        let s2 := loadChannel n sl s1
        if chanLoadOk n s2 then
          answerOf 0 [numWord es.length, numWord (es.foldl (fun (k : Nat) (x : Nat × Sect) => k + x.2.len) 0)]
            (s2.modIso n fun i => { i with loaded := true })
        else fails s2) s)

/-- Channel n rejoins: the resume of R59 if its memory was lost, its trackers, its link (R385). What it knows of recent positions begins
anew with its trackers (R153). -/
def join (n : Fin 16) (s : State) : State :=
  let lost := (s.ch n).iso.memLost
  let s1 := s.modIso n fun i => { i with isolated := false, memLost := false, offSince := false, kept := [] }
  let s2 := (withFrets (syncTrackers n) (if lost then resumeCh n s1 else s1)).modFt n fun f => { f with cntHist := [] }
  if s2.flag (F.CHn_BRG_CTRL_LINK_EN n) && s2.flag (F.CHn_BRG_STAT_PRES n) && s2.get (F.CHn_BRG_STAT_LSTATE n) == 0 then
    startIdent n s2
  else s2

/-- R385: CHJOIN. -/
def execChjoin (m : Fin 48) (s : State) : Host.Outcome State Fault Refusal :=
  .next (serveCh 0x94 m (fun n s1 =>
    let i := (s1.ch n).iso
    if i.isolated && ((s1.chOn n && i.loaded) || !i.offSince) then
      let s2 := join n s1
      answerOf 0 [numWord (s2.wstate n)] s2
    else answerOf 3 [] s1) s)

/-! ## Other services -/

/-- A round for channel n is pending: its results wait for one, or its switch is in flight (R388). -/
def State.roundPending (s : State) (n : Fin 16) : Bool :=
  s.inRound n.val || s.ins.pend.any fun h => h.chans.any fun x => x.n == n.val

/-- R388: NOZTEST. Its reply comes when the test ends; with no free capo slot it waits. -/
def execNoztest (m : Fin 48) (s : State) : Host.Outcome State Fault Refusal :=
  .next (match (s.mb m).src with
    | none => s
    | some q =>
      let h := BitVec.ofNat 32 (s.reqWord m 0)
      if !s.serves m || hdrCode h != 0x95 || !(s.codes m).contains 0x95 then s
      else
        let s1 := releaseMsg m s
        let time := s.reqWord m 2
        let say (st : Nat) : State := sendReply m q h (answerOf st [] s1)
        if q ≠ .pf0 then say 2
        else match chOf (s.reqWord m 1) with
          | none => say 3
          | some n =>
            if time < 1 ∨ 600 < time ∨ ¬ s1.flag (F.INS_LADn_CFG_EN n) ∨ ¬ s1.flag (F.INS_LADn_CFG_HEAL n) then say 3
            else if s1.roundPending n || (s1.ch n).iso.nozTest.isSome then say 6
            else if !s1.supCapo then s
            else match s1.freeTx with
              | none => s
              | some t => startTest n t
                { mbx := m.val, header := h &&& 0xFFFF, till := s1.tick + 1000 * msTicks * time, saved := [], bank := 0, since := [],
                  back := 0, newDead := 0, stage := 0, silent := false } s1)

/-- The sequencer of channel n restarts: its mailbox is cleared, its locks and held replies are lost (R321, R387). -/
def seqRestart (n : Fin 16) (s : State) : State :=
  let s1 := match mbxOf n.val with
    | some m => clearInbound m s
    | none => s
  (dropHeld (.seq n) (releaseLocks (.seq n) s1)).modWork n fun w => { w with seqUp := false }

/-- R387: SEQRST. A channel whose domain is not ON has no sequencer to restart. -/
def execSeqrst (m : Fin 48) (s : State) : Host.Outcome State Fault Refusal :=
  .next (serveCh 0x96 m (fun n s1 => answerOf 0 [] (if s1.chOn n then seqRestart n s1 else s1)) s)

/-- Boundary-scan mode is entered: the safe state with cause BSCAN, then the TAP is released, if it is not already (R337, R390). -/
def enterBscan (s : State) : State :=
  let s1 := s.enterSafe F.FLT_SAFE_BSCAN
  if s.flag F.FLT_SAFE_BSCAN then s1 else releaseTap s1

/-- R390: BSCAN, and what the tester does once the TAP is released. -/
def execBscan (m : Fin 48) (tck : List TapOp) (s : State) : Host.Outcome State Fault Refusal :=
  .next (tck.foldl tapOp (serve 0x98 m (fun s1 =>
    if s.reqWord m 1 ≠ 0xB5CA then answerOf 3 [] s1
    else if (allCh.any fun n => s1.domState (8 + n.val) != 0 && !(s1.ch n).iso.isolated) ||
        (List.finRange 4).any fun a => s1.flag (F.MOT_AXa_CTRL_EN a) then answerOf 6 [] s1
    else answerOf 0 [] (enterBscan s1)) s))

/-- R378: TESTSTAT. -/
def execTeststat (m : Fin 48) (s : State) : Host.Outcome State Fault Refusal :=
  .next (serveCh 0x9F m (fun n s1 =>
    let i := (s1.ch n).iso
    answerOf 0 ([numWord (b2n i.isolated + 2 * b2n i.loaded + 4 * b2n i.nozTest.isSome + 8 * b2n i.memLost), numWord i.bistPass,
      numWord i.bistFail, numWord i.bistBoot] ++ words64 i.bistTime) s1) s)

end Sys2Proof.Machine
end

