-- ==== Sys2Proof/Machine/Waveform.lean ====
section
/-! DEFINITION. The meanings of the commands of drop waveforms and the duty limiter (chapter 4) but for the amplitude
measurement, which the Tuner files. -/

namespace Sys2Proof.Machine

/-- Nozzle counters with a parity error are held at NLIM, PERR is set and DUT_PERR raised (R105). -/
def dutyParity (n : Fin 16) (perr : List Nat) (s : State) : State :=
  if perr.isEmpty then s
  else
    let lim := BitVec.ofNat 32 (s.get (F.CHn_DUT_NLIM_NLIM n))
    ((perr.foldl (fun (s : State) (j : Nat) => s.setWord (dutAddr n (j % 4096)) lim) s).put
      (F.CHn_DUT_STAT_PERR n) 1).raiseCh n 16

/-- R103, R105, R106: the limiter takes the oldest released line, once the line before it has fired, and decides it. -/
def execDutyDecide (n : Fin 16) (perr : List Nat) (s : State) : Host.Outcome State Fault Refusal :=
  .next (match (s.ch n).img.released, (s.ch n).dut.dec, (s.ch n).ft.decided with
    | l :: rest, none, [] =>
      if s.chOn n then
        let s1 := dutyParity n perr (applyDuty n s)
        ((s1.modImg n fun i => { i with released := rest }).modDut n fun d =>
          { d with dec := some (s1.dutyOf n l) }).modBrg n fun b =>
          { b with sent := false, acked := false, retxed := false }
      else s
    | _, _, _ => s)

/-- R93: SEG rises at the next segment boundary of the line in its firing window, SEGDLY after its port time. -/
def execSegStrobe (n : Fin 16) (s : State) : Host.Outcome State Fault Refusal :=
  .next (match (s.ch n).wav.win with
    | some w =>
      match w.startTicks[w.segDone + 1]? with
      | some t =>
        if t + w.segDly ≤ s.tick then
          (s.modWav n fun v => { v with win := some { w with segDone := w.segDone + 1 } }).emit (.seg n.val)
        else s
      | none => s
    | none => s)

/-- R52, R95: the firing window of the last fired line ends; its ports stream REST. A LINK_EN = 0 that waits takes effect (R187). -/
def execFiringWindowEnd (n : Fin 16) (s : State) : Host.Outcome State Fault Refusal :=
  .next (match (s.ch n).wav.win with
    | some w =>
      if w.endTick ≤ s.tick then
        settleOff n (noteHalted n (checkDone n (s.modWav n fun v => { v with win := none, lastFrameEnd := some (w.endTick - w.segDly) })))
      else s
    | none => s)

end Sys2Proof.Machine
end

