-- ==== Sys2Proof/Machine/Dispatch.lean ====
section
/-! DEFINITION. The meaning of each command: one call per constructor. -/

namespace Sys2Proof.Machine

/-- What a command does to the machine, the queue of waiting commands apart. -/
def exec (i : Instr) (s : State) : Host.Outcome State Fault Refusal :=
  match i with
  | .powerOnReset => Sys2Proof.Machine.execPowerOnReset s
  | .brownOutReset x_r => Sys2Proof.Machine.execBrownOutReset x_r s
  | .deviceReset x_m x_v => Sys2Proof.Machine.execDeviceReset x_m x_v s
  | .pcieFundamentalReset => Sys2Proof.Machine.execPcieFundamentalReset s
  | .hotReset => Sys2Proof.Machine.execHotReset s
  | .flrPf0 => Sys2Proof.Machine.execFlrPf0 s
  | .flrPf1 => Sys2Proof.Machine.execFlrPf1 s
  | .supLockstep => Sys2Proof.Machine.execSupLockstep s
  | .supWdog => Sys2Proof.Machine.execSupWdog s
  | .supRestart => Sys2Proof.Machine.execSupRestart s
  | .pwrDomon x_m x_v => Sys2Proof.Machine.execPwrDomon x_m x_v s
  | .pwrDomoff x_m x_v => Sys2Proof.Machine.execPwrDomoff x_m x_v s
  | .domainRampDone => Sys2Proof.Machine.execDomainRampDone s
  | .pwrDomfail => Sys2Proof.Machine.execPwrDomfail s
  | .pwrStby x_m x_v => Sys2Proof.Machine.execPwrStby x_m x_v s
  | .wakeNWake => Sys2Proof.Machine.execWakeNWake s
  | .wakeTimer => Sys2Proof.Machine.execWakeTimer s
  | .mainRailsRise => Sys2Proof.Machine.execMainRailsRise s
  | .supplyWarning x_r => Sys2Proof.Machine.execSupplyWarning x_r s
  | .ledgerFlushComplete => Sys2Proof.Machine.execLedgerFlushComplete s
  | .nvw x_r => Sys2Proof.Machine.execNvw x_r s
  | .nvWriteResume => Sys2Proof.Machine.execNvWriteResume s
  | .supplyRecover x_r => Sys2Proof.Machine.execSupplyRecover x_r s
  | .supplyWarnClear x_m x_v => Sys2Proof.Machine.execSupplyWarnClear x_m x_v s
  | .clkRefloss => Sys2Proof.Machine.execClkRefloss s
  | .clkRefback => Sys2Proof.Machine.execClkRefback s
  | .clkPllfail x_p => Sys2Proof.Machine.execClkPllfail x_p s
  | .channelClockSwitchback x_n => Sys2Proof.Machine.execChannelClockSwitchback x_n s
  | .memoryRateChange x_n => Sys2Proof.Machine.execMemoryRateChange x_n s
  | .devtimeBroadcast => Sys2Proof.Machine.execDevtimeBroadcast s
  | .sysEpochLoWrite x_m x_v => Sys2Proof.Machine.execSysEpochLoWrite x_m x_v s
  | .sysEpochHiWrite x_m x_v => Sys2Proof.Machine.execSysEpochHiWrite x_m x_v s
  | .lowWordRead x_m x_a => Sys2Proof.Machine.execLowWordRead x_m x_a s
  | .rcRead x_m x_a => Sys2Proof.Machine.execRcRead x_m x_a s
  | .registerWrite x_m x_a x_v => Sys2Proof.Machine.execRegisterWrite x_m x_a x_v s
  | .fabRetry => Sys2Proof.Machine.execFabRetry s
  | .fabUe => Sys2Proof.Machine.execFabUe s
  | .jnlCe => Sys2Proof.Machine.execJnlCe s
  | .pidxWrite x_m x_n x_v => Sys2Proof.Machine.execPidxWrite x_m x_n x_v s
  | .descriptorFetch x_n x_bs => Sys2Proof.Machine.execDescriptorFetch x_n x_bs s
  | .descriptorCheck x_n => Sys2Proof.Machine.execDescriptorCheck x_n s
  | .rejectionRecordWrite x_n => Sys2Proof.Machine.execRejectionRecordWrite x_n s
  | .bandAccept x_n => Sys2Proof.Machine.execBandAccept x_n s
  | .jnlWrfail x_n => Sys2Proof.Machine.execJnlWrfail x_n s
  | .acceptRetry x_n => Sys2Proof.Machine.execAcceptRetry x_n s
  | .screrr x_n x_err => Sys2Proof.Machine.execScrerr x_n x_err s
  | .bandLoadStart x_n => Sys2Proof.Machine.execBandLoadStart x_n s
  | .imageDmaError x_n x_err x_got => Sys2Proof.Machine.execImageDmaError x_n x_err x_got s
  | .imageDmaRetry x_n => Sys2Proof.Machine.execImageDmaRetry x_n s
  | .bandLoadComplete x_n x_got => Sys2Proof.Machine.execBandLoadComplete x_n x_got s
  | .bandRelease x_n => Sys2Proof.Machine.execBandRelease x_n s
  | .bandRetire x_n => Sys2Proof.Machine.execBandRetire x_n s
  | .cmpHeadWrite x_m x_n x_v => Sys2Proof.Machine.execCmpHeadWrite x_m x_n x_v s
  | .checkpoint x_n => Sys2Proof.Machine.execCheckpoint x_n s
  | .cmdStart x_m x_n => Sys2Proof.Machine.execCmdStart x_m x_n s
  | .cmdStop x_m x_n => Sys2Proof.Machine.execCmdStop x_m x_n s
  | .cmdResume x_m x_n => Sys2Proof.Machine.execCmdResume x_m x_n s
  | .cmdRefire x_m x_n => Sys2Proof.Machine.execCmdRefire x_m x_n s
  | .cmdSkip x_m x_n => Sys2Proof.Machine.execCmdSkip x_m x_n s
  | .cmdAbandon x_m x_n => Sys2Proof.Machine.execCmdAbandon x_m x_n s
  | .cmdAbandonAll x_m x_n => Sys2Proof.Machine.execCmdAbandonAll x_m x_n s
  | .cmdRefetch x_m x_n => Sys2Proof.Machine.execCmdRefetch x_m x_n s
  | .cmdRebase x_m x_n => Sys2Proof.Machine.execCmdRebase x_m x_n s
  | .cmdSetseq x_m x_n => Sys2Proof.Machine.execCmdSetseq x_m x_n s
  | .lineScreen x_n x_ce x_imgUe x_mtxUe => Sys2Proof.Machine.execLineScreen x_n x_ce x_imgUe x_mtxUe s
  | .imageRefetchDone x_n x_imgUe => Sys2Proof.Machine.execImageRefetchDone x_n x_imgUe s
  | .pipeCompare x_n x_fa x_fb x_ra x_rb x_maskMis => Sys2Proof.Machine.execPipeCompare x_n x_fa x_fb x_ra x_rb x_maskMis s
  | .pipeRecompDone x_n x_fa x_fb x_ra x_rb x_maskMis x_imgUe x_mtxUe => Sys2Proof.Machine.execPipeRecompDone x_n x_fa x_fb x_ra x_rb x_maskMis x_imgUe x_mtxUe s
  | .katDone x_n x_okA x_okB x_maskMis => Sys2Proof.Machine.execKatDone x_n x_okA x_okB x_maskMis s
  | .arbitrationDone x_n x_f x_ok x_maskMis x_imgUe x_mtxUe => Sys2Proof.Machine.execArbitrationDone x_n x_f x_ok x_maskMis x_imgUe x_mtxUe s
  | .memScrub x_n x_ce x_ue => Sys2Proof.Machine.execMemScrub x_n x_ce x_ue s
  | .readmitRequest x_m x_n x_a x_b => Sys2Proof.Machine.execReadmitRequest x_m x_n x_a x_b s
  | .rescntClear x_m x_n => Sys2Proof.Machine.execRescntClear x_m x_n s
  | .tableWindowWrite x_m x_a x_v => Sys2Proof.Machine.execTableWindowWrite x_m x_a x_v s
  | .tableLoadGo x_m x_n x_v => Sys2Proof.Machine.execTableLoadGo x_m x_n x_v s
  | .tableLoadError x_n x_err x_rows => Sys2Proof.Machine.execTableLoadError x_n x_err x_rows s
  | .tableLoadRetry x_n => Sys2Proof.Machine.execTableLoadRetry x_n s
  | .tload x_n x_rows => Sys2Proof.Machine.execTload x_n x_rows s
  | .dutyDecide x_n x_perr => Sys2Proof.Machine.execDutyDecide x_n x_perr s
  | .lineDecide x_n => Sys2Proof.Machine.execLineDecide x_n s
  | .lineFire x_n => Sys2Proof.Machine.execLineFire x_n s
  | .segStrobe x_n => Sys2Proof.Machine.execSegStrobe x_n s
  | .firingWindowEnd x_n => Sys2Proof.Machine.execFiringWindowEnd x_n s
  | .wfbFrameMeasure x_n x_before x_adc => Sys2Proof.Machine.execWfbFrameMeasure x_n x_before x_adc s
  | .encoderTransition x_e x_a x_b x_z x_seen => Sys2Proof.Machine.execEncoderTransition x_e x_a x_b x_z x_seen s
  | .filterAccept x_e x_l x_fe => Sys2Proof.Machine.execFilterAccept x_e x_l x_fe s
  | .faultWindowEnd x_e => Sys2Proof.Machine.execFaultWindowEnd x_e s
  | .indexEvent x_e => Sys2Proof.Machine.execIndexEvent x_e s
  | .speedWindowEnd x_e => Sys2Proof.Machine.execSpeedWindowEnd x_e s
  | .xcheckSnapshot => Sys2Proof.Machine.execXcheckSnapshot s
  | .encFaultClear x_m x_e => Sys2Proof.Machine.execEncFaultClear x_m x_e s
  | .fretCmpLoWrite x_m x_f x_v => Sys2Proof.Machine.execFretCmpLoWrite x_m x_f x_v s
  | .fretCmpHiWrite x_m x_f x_v => Sys2Proof.Machine.execFretCmpHiWrite x_m x_f x_v s
  | .fretArm x_m x_f => Sys2Proof.Machine.execFretArm x_m x_f s
  | .fretDisarm x_m x_f => Sys2Proof.Machine.execFretDisarm x_m x_f s
  | .emuOutputCount x_k => Sys2Proof.Machine.execEmuOutputCount x_k s
  | .sosEvent x_i x_n => Sys2Proof.Machine.execSosEvent x_i x_n s
  | .pageArm x_n => Sys2Proof.Machine.execPageArm x_n s
  | .haltRequest x_n => Sys2Proof.Machine.execHaltRequest x_n s
  | .dataFrameSend x_n => Sys2Proof.Machine.execDataFrameSend x_n s
  | .cfgFrameSend x_n => Sys2Proof.Machine.execCfgFrameSend x_n s
  | .statFrameSend x_n => Sys2Proof.Machine.execStatFrameSend x_n s
  | .idleFrameSend x_n => Sys2Proof.Machine.execIdleFrameSend x_n s
  | .ack x_n x_rd x_syms => Sys2Proof.Machine.execAck x_n x_rd x_syms s
  | .nak x_n x_rd x_syms => Sys2Proof.Machine.execNak x_n x_rd x_syms s
  | .statusMessage x_n x_rd x_syms => Sys2Proof.Machine.execStatusMessage x_n x_rd x_syms s
  | .trdy x_n x_rd x_syms => Sys2Proof.Machine.execTrdy x_n x_rd x_syms s
  | .answerTimeout x_n => Sys2Proof.Machine.execAnswerTimeout x_n s
  | .returnLaneLoss x_n => Sys2Proof.Machine.execReturnLaneLoss x_n s
  | .headPresent x_n => Sys2Proof.Machine.execHeadPresent x_n s
  | .headRemoved x_n => Sys2Proof.Machine.execHeadRemoved x_n s
  | .identityReadDone x_n x_rec => Sys2Proof.Machine.execIdentityReadDone x_n x_rec s
  | .i2cRetry x_n => Sys2Proof.Machine.execI2cRetry x_n s
  | .trimReadDone x_n x_trim => Sys2Proof.Machine.execTrimReadDone x_n x_trim s
  | .trainIdleDone x_n => Sys2Proof.Machine.execTrainIdleDone x_n s
  | .trainTimeout x_n => Sys2Proof.Machine.execTrainTimeout x_n s
  | .autoRetrain x_n => Sys2Proof.Machine.execAutoRetrain x_n s
  | .linkEnWrite x_m x_n x_v => Sys2Proof.Machine.execLinkEnWrite x_m x_n x_v s
  | .statreqGo x_m x_n x_v => Sys2Proof.Machine.execStatreqGo x_m x_n x_v s
  | .hcfgDataWrite x_m x_n x_v => Sys2Proof.Machine.execHcfgDataWrite x_m x_n x_v s
  | .capoAlloc x_m => Sys2Proof.Machine.execCapoAlloc x_m s
  | .capoBind x_m x_v => Sys2Proof.Machine.execCapoBind x_m x_v s
  | .stagedWrite x_m x_a x_v => Sys2Proof.Machine.execStagedWrite x_m x_a x_v s
  | .implicitTransaction x_m x_a x_v => Sys2Proof.Machine.execImplicitTransaction x_m x_a x_v s
  | .capoCommit x_m x_t => Sys2Proof.Machine.execCapoCommit x_m x_t s
  | .capoAbort x_m x_t => Sys2Proof.Machine.execCapoAbort x_m x_t s
  | .capoRelease x_m x_t => Sys2Proof.Machine.execCapoRelease x_m x_t s
  | .capoVote x_t x_p x_eccUe => Sys2Proof.Machine.execCapoVote x_t x_p x_eccUe s
  | .voteWithdraw x_t x_p x_eccUe => Sys2Proof.Machine.execVoteWithdraw x_t x_p x_eccUe s
  | .votetmo x_t => Sys2Proof.Machine.execVotetmo x_t s
  | .cmttmo x_t => Sys2Proof.Machine.execCmttmo x_t s
  | .commitInstant => Sys2Proof.Machine.execCommitInstant s
  | .participantApply x_t x_p => Sys2Proof.Machine.execParticipantApply x_t x_p s
  | .protCfmHiWrite x_m x_v => Sys2Proof.Machine.execProtCfmHiWrite x_m x_v s
  | .confirmTimeout => Sys2Proof.Machine.execConfirmTimeout s
  | .frameStart x_p => Sys2Proof.Machine.execFrameStart x_p s
  | .lineStart x_p => Sys2Proof.Machine.execLineStart x_p s
  | .lineEnd x_p x_cycles => Sys2Proof.Machine.execLineEnd x_p x_cycles s
  | .frameEnd x_p => Sys2Proof.Machine.execFrameEnd x_p s
  | .frameTimeout x_p => Sys2Proof.Machine.execFrameTimeout x_p s
  | .pipelineTake => Sys2Proof.Machine.execPipelineTake s
  | .ladderAnalysis x_n x_printed => Sys2Proof.Machine.execLadderAnalysis x_n x_printed s
  | .densityProfile x_n => Sys2Proof.Machine.execDensityProfile x_n s
  | .healRound => Sys2Proof.Machine.execHealRound s
  | .ladArm x_m x_p => Sys2Proof.Machine.execLadArm x_m x_p s
  | .densArm x_m x_p => Sys2Proof.Machine.execDensArm x_m x_p s
  | .insTbldataWrite x_m x_v => Sys2Proof.Machine.execInsTbldataWrite x_m x_v s
  | .insTbldataRead x_m => Sys2Proof.Machine.execInsTbldataRead x_m s
  | .tunerSchedule x_c => Sys2Proof.Machine.execTunerSchedule x_c s
  | .tunerMeasureDone x_c x_raw x_ok => Sys2Proof.Machine.execTunerMeasureDone x_c x_raw x_ok s
  | .oscGateDone x_cnt => Sys2Proof.Machine.execOscGateDone x_cnt s
  | .tunerApply x_c x_i => Sys2Proof.Machine.execTunerApply x_c x_i s
  | .tunSetdataWrite x_m x_v => Sys2Proof.Machine.execTunSetdataWrite x_m x_v s
  | .tunSetdataRead x_m => Sys2Proof.Machine.execTunSetdataRead x_m s
  | .sensorConversion x_k x_code => Sys2Proof.Machine.execSensorConversion x_k x_code s
  | .thmShut => Sys2Proof.Machine.execThmShut s
  | .dieTrip => Sys2Proof.Machine.execDieTrip s
  | .heaterUpdate => Sys2Proof.Machine.execHeaterUpdate s
  | .thmTbldataWrite x_m x_v => Sys2Proof.Machine.execThmTbldataWrite x_m x_v s
  | .thmChstatClear x_m x_v => Sys2Proof.Machine.execThmChstatClear x_m x_v s
  | .sensorFailClear x_m x_k => Sys2Proof.Machine.execSensorFailClear x_m x_k s
  | .thmShutClear x_m x_v => Sys2Proof.Machine.execThmShutClear x_m x_v s
  | .profileTick => Sys2Proof.Machine.execProfileTick s
  | .gearMasterCount x_x => Sys2Proof.Machine.execGearMasterCount x_x s
  | .stepInput x_x x_dir => Sys2Proof.Machine.execStepInput x_x x_dir s
  | .stepinInterpolate x_x => Sys2Proof.Machine.execStepinInterpolate x_x s
  | .chopperComparator x_x x_c => Sys2Proof.Machine.execChopperComparator x_x x_c s
  | .chopperPhaseTimeout x_x x_c => Sys2Proof.Machine.execChopperPhaseTimeout x_x x_c s
  | .chopperProbe x_x x_c x_high => Sys2Proof.Machine.execChopperProbe x_x x_c x_high s
  | .stepOutputPulse x_x => Sys2Proof.Machine.execStepOutputPulse x_x s
  | .standstill x_x => Sys2Proof.Machine.execStandstill x_x s
  | .axisFaultClear x_m x_x => Sys2Proof.Machine.execAxisFaultClear x_m x_x s
  | .wtabWrite x_m x_k x_v => Sys2Proof.Machine.execWtabWrite x_m x_k x_v s
  | .evtPendClear x_m x_w x_v => Sys2Proof.Machine.execEvtPendClear x_m x_w x_v s
  | .msixUnmask x_fn x_vec => Sys2Proof.Machine.execMsixUnmask x_fn x_vec s
  | .expStop x_v => Sys2Proof.Machine.execExpStop x_v s
  | .expInh x_v => Sys2Proof.Machine.execExpInh x_v s
  | .expFetch x_v => Sys2Proof.Machine.execExpFetch x_v s
  | .expSafe x_v => Sys2Proof.Machine.execExpSafe x_v s
  | .expLatchClear x_v => Sys2Proof.Machine.execExpLatchClear x_v s
  | .expressMerge x_r x_v => Sys2Proof.Machine.execExpressMerge x_r x_v s
  | .expressMergedApply => Sys2Proof.Machine.execExpressMergedApply s
  | .pcieLinkDown => Sys2Proof.Machine.execPcieLinkDown s
  | .pcieLinkUp => Sys2Proof.Machine.execPcieLinkUp s
  | .bar0BadRequest x_m => Sys2Proof.Machine.execBar0BadRequest x_m s
  | .hostRequestMalformed x_fn x_poisoned x_reply => Sys2Proof.Machine.execHostRequestMalformed x_fn x_poisoned x_reply s
  | .ringWriteRejected x_t => Sys2Proof.Machine.execRingWriteRejected x_t s
  | .completionRewrite x_n x_ok => Sys2Proof.Machine.execCompletionRewrite x_n x_ok s
  | .mbxSend x_p x_m => Sys2Proof.Machine.execMbxSend x_p x_m s
  | .mbxSendInternal x_p x_m => Sys2Proof.Machine.execMbxSendInternal x_p x_m s
  | .mbxRelease x_p x_m => Sys2Proof.Machine.execMbxRelease x_p x_m s
  | .mbxLockRead x_p x_m => Sys2Proof.Machine.execMbxLockRead x_p x_m s
  | .mbxLockRelease x_p x_m => Sys2Proof.Machine.execMbxLockRelease x_p x_m s
  | .mbxGo x_p x_m => Sys2Proof.Machine.execMbxGo x_p x_m s
  | .mbxAcktmo x_p x_m => Sys2Proof.Machine.execMbxAcktmo x_p x_m s
  | .ping x_m => Sys2Proof.Machine.execPing x_m s
  | .bandrec x_m => Sys2Proof.Machine.execBandrec x_m s
  | .chkpt x_m => Sys2Proof.Machine.execChkpt x_m s
  | .tunnow x_m x_raw x_ok => Sys2Proof.Machine.execTunnow x_m x_raw x_ok s
  | .suprst x_m => Sys2Proof.Machine.execSuprst x_m s
  | .slotinfo x_m => Sys2Proof.Machine.execSlotinfo x_m s
  | .bandstate x_m => Sys2Proof.Machine.execBandstate x_m s
  | .bandlist x_m => Sys2Proof.Machine.execBandlist x_m s
  | .unknownCode x_m => Sys2Proof.Machine.execUnknownCode x_m s
  | .chisol x_m => Sys2Proof.Machine.execChisol x_m s
  | .chbist x_m x_res => Sys2Proof.Machine.execChbist x_m x_res s
  | .chpower x_m x_up x_trained => Sys2Proof.Machine.execChpower x_m x_up x_trained s
  | .chload x_m => Sys2Proof.Machine.execChload x_m s
  | .chjoin x_m => Sys2Proof.Machine.execChjoin x_m s
  | .noztest x_m => Sys2Proof.Machine.execNoztest x_m s
  | .noztestTimeout x_n => Sys2Proof.Machine.execNoztestTimeout x_n s
  | .seqrst x_m => Sys2Proof.Machine.execSeqrst x_m s
  | .bscan x_m x_tck => Sys2Proof.Machine.execBscan x_m x_tck s
  | .teststat x_m => Sys2Proof.Machine.execTeststat x_m s
  | .fltStatClear x_m x_hi x_v => Sys2Proof.Machine.execFltStatClear x_m x_hi x_v s
  | .parityScan x_bad => Sys2Proof.Machine.execParityScan x_bad s
  | .fltSafeClear x_m x_v => Sys2Proof.Machine.execFltSafeClear x_m x_v s
  | .stopn => Sys2Proof.Machine.execStopn s
  | .stopNRelease => Sys2Proof.Machine.execStopNRelease s
  | .protStatClear x_m x_v => Sys2Proof.Machine.execProtStatClear x_m x_v s
  | .protSafereq x_m x_v => Sys2Proof.Machine.execProtSafereq x_m x_v s
  | .spRead x_bs => Sys2Proof.Machine.execSpRead x_bs s
  | .spWrite x_bs => Sys2Proof.Machine.execSpWrite x_bs s
  | .spStatus x_bs => Sys2Proof.Machine.execSpStatus x_bs s
  | .spCrcError x_bs => Sys2Proof.Machine.execSpCrcError x_bs s
  | .spCsEarly x_bs => Sys2Proof.Machine.execSpCsEarly x_bs s
  | .safetyPortWatchdog => Sys2Proof.Machine.execSafetyPortWatchdog s
  | .safetyPortReset => Sys2Proof.Machine.execSafetyPortReset s
  | .slotSelect => Sys2Proof.Machine.execSlotSelect s
  | .sectionLoaded x_ok => Sys2Proof.Machine.execSectionLoaded x_ok s
  | .bootLoadComplete => Sys2Proof.Machine.execBootLoadComplete s
  | .memoryTrained x_n => Sys2Proof.Machine.execMemoryTrained x_n s
  | .memoryTrainTimeout x_n => Sys2Proof.Machine.execMemoryTrainTimeout x_n s
  | .bootReady => Sys2Proof.Machine.execBootReady s
  | .nvmRead x_m => Sys2Proof.Machine.execNvmRead x_m s
  | .nvmProgram x_m => Sys2Proof.Machine.execNvmProgram x_m s
  | .nvmErase x_m => Sys2Proof.Machine.execNvmErase x_m s
  | .nvmVerify x_m x_sl => Sys2Proof.Machine.execNvmVerify x_m x_sl s
  | .nvmDone x_err x_data => Sys2Proof.Machine.execNvmDone x_err x_data s
  | .busMasterEnable x_on => Sys2Proof.Machine.execBusMasterEnable x_on s
  | .correctableError x_fn x_err => Sys2Proof.Machine.execCorrectableError x_fn x_err s
  | .spBadCommand x_bs => Sys2Proof.Machine.execSpBadCommand x_bs s
  | .sequencerRestartDone x_n => Sys2Proof.Machine.execSequencerRestartDone x_n s
  | .vkeepLoss => Sys2Proof.Machine.execVkeepLoss s
  | .resetNRelease => Sys2Proof.Machine.execResetNRelease s

end Sys2Proof.Machine
end

