-- ==== Sys2Proof/WellFormed.lean ====
section
/-! DEFINITION. The form of a command's data that the spec fixes whatever the state: lengths of records, widths of codes, the
kinds of Safety port transactions. What must fit the state as well (whole lines of the band that loads, whole rows of a
matrix) is in Safety.lean. -/

namespace Sys2Proof

/-- Whether a command's data has the form the spec gives it: a descriptor of 64 bytes (R36), rows of 2,048 bytes (R84), an identity record of 256 and a trim area of 8,192 bytes (R188, R189), 12-bit
samples (R99), the 257 entries of WTAB (R287), a 16-bit code (R258) and the
transactions of the Safety port (R341). -/
def Instr.wf : Instr → Bool
  | .descriptorFetch _ bs => bs.length == 64
  | .tableLoadError _ _ rows => rows.all fun r => r.length == 512
  | .tload _ rows => rows.all fun r => r.length == 512
  | .wfbFrameMeasure _ before adc => before.length == 16 && (before ++ adc).all (· < 4096)
  | .identityReadDone _ rec => rec.length == 256
  | .trimReadDone _ trim => trim.length == 8192
  | .sensorConversion _ code => decide (code < 65536)
  | .wtabWrite _ k _ => decide (k ≤ 256)
  | .spRead bs => Machine.spWf .read bs
  | .spWrite bs => Machine.spWf .write bs
  | .spStatus bs => Machine.spWf .status bs
  | .spCrcError bs => Machine.spWf .crcError bs
  | .spCsEarly bs => Machine.spWf .early bs
  | .spBadCommand bs => Machine.spWf .badCommand bs
  | .powerOnReset | .brownOutReset .. | .deviceReset .. | .pcieFundamentalReset | .hotReset | .flrPf0 | .flrPf1
  | .supLockstep | .supWdog | .supRestart | .pwrDomon .. | .pwrDomoff .. | .domainRampDone | .pwrDomfail
  | .pwrStby .. | .wakeNWake | .wakeTimer | .mainRailsRise | .supplyWarning .. | .ledgerFlushComplete | .nvw ..
  | .nvWriteResume | .supplyRecover .. | .supplyWarnClear .. | .clkRefloss | .clkRefback | .clkPllfail ..
  | .channelClockSwitchback .. | .memoryRateChange .. | .devtimeBroadcast | .sysEpochLoWrite .. | .sysEpochHiWrite ..
  | .lowWordRead .. | .rcRead .. | .registerWrite .. | .fabRetry | .fabUe | .jnlCe | .pidxWrite ..
  | .descriptorCheck .. | .rejectionRecordWrite .. | .bandAccept .. | .jnlWrfail .. | .acceptRetry .. | .screrr ..
  | .bandLoadStart .. | .imageDmaError .. | .imageDmaRetry .. | .bandLoadComplete .. | .bandRelease ..
  | .bandRetire .. | .cmpHeadWrite .. | .checkpoint .. | .cmdStart .. | .cmdStop .. | .cmdResume .. | .cmdRefire ..
  | .cmdSkip .. | .cmdAbandon .. | .cmdAbandonAll .. | .cmdRefetch .. | .cmdRebase .. | .cmdSetseq ..
  | .lineScreen .. | .imageRefetchDone .. | .pipeCompare .. | .pipeRecompDone .. | .katDone .. | .arbitrationDone ..
  | .memScrub .. | .readmitRequest .. | .rescntClear .. | .tableWindowWrite .. | .tableLoadGo .. | .tableLoadRetry ..
  | .dutyDecide .. | .lineDecide .. | .lineFire .. | .segStrobe .. | .firingWindowEnd .. | .encoderTransition ..
  | .filterAccept .. | .faultWindowEnd .. | .indexEvent .. | .speedWindowEnd .. | .xcheckSnapshot | .encFaultClear ..
  | .fretCmpLoWrite .. | .fretCmpHiWrite .. | .fretArm .. | .fretDisarm .. | .emuOutputCount .. | .sosEvent ..
  | .pageArm .. | .haltRequest .. | .dataFrameSend .. | .cfgFrameSend .. | .statFrameSend .. | .idleFrameSend ..
  | .ack .. | .nak .. | .statusMessage .. | .trdy .. | .answerTimeout .. | .returnLaneLoss .. | .headPresent .. | .headRemoved .. | .i2cRetry ..
  | .trainIdleDone .. | .trainTimeout .. | .autoRetrain .. | .linkEnWrite .. | .statreqGo .. | .hcfgDataWrite ..
  | .capoAlloc .. | .capoBind .. | .stagedWrite .. | .implicitTransaction .. | .capoCommit .. | .capoAbort ..
  | .capoRelease .. | .capoVote .. | .voteWithdraw .. | .votetmo .. | .cmttmo .. | .commitInstant
  | .participantApply .. | .protCfmHiWrite .. | .confirmTimeout | .frameStart .. | .lineStart .. | .lineEnd .. | .frameEnd ..
  | .frameTimeout .. | .pipelineTake | .ladderAnalysis .. | .densityProfile .. | .healRound | .ladArm ..
  | .densArm .. | .insTbldataWrite .. | .insTbldataRead .. | .tunerSchedule .. | .tunerMeasureDone ..
  | .oscGateDone .. | .tunerApply .. | .tunSetdataWrite .. | .tunSetdataRead .. | .thmShut | .dieTrip | .heaterUpdate
  | .thmTbldataWrite .. | .thmChstatClear .. | .sensorFailClear .. | .thmShutClear .. | .profileTick
  | .gearMasterCount .. | .stepInput .. | .stepinInterpolate .. | .chopperComparator .. | .chopperPhaseTimeout ..
  | .chopperProbe .. | .stepOutputPulse .. | .standstill .. | .axisFaultClear .. | .evtPendClear .. | .msixUnmask ..
  | .expStop .. | .expInh .. | .expFetch .. | .expSafe .. | .expLatchClear .. | .expressMerge ..
  | .expressMergedApply | .pcieLinkDown | .pcieLinkUp | .bar0BadRequest .. | .hostRequestMalformed ..
  | .ringWriteRejected .. | .completionRewrite .. | .mbxSend .. | .mbxSendInternal .. | .mbxRelease ..
  | .mbxLockRead .. | .mbxLockRelease .. | .mbxGo .. | .mbxAcktmo .. | .ping .. | .bandrec .. | .chkpt ..
  | .tunnow .. | .suprst .. | .slotinfo .. | .bandstate .. | .bandlist .. | .unknownCode .. | .chisol .. | .chbist ..
  | .chpower .. | .chload .. | .chjoin .. | .noztest .. | .noztestTimeout .. | .seqrst .. | .bscan .. | .teststat ..
  | .fltStatClear .. | .parityScan .. | .fltSafeClear .. | .stopn | .stopNRelease | .protStatClear ..
  | .protSafereq .. | .safetyPortWatchdog | .safetyPortReset | .slotSelect | .sectionLoaded .. | .bootLoadComplete
  | .memoryTrained .. | .memoryTrainTimeout .. | .bootReady | .nvmRead .. | .nvmProgram .. | .nvmErase ..
  | .nvmVerify .. | .nvmDone .. | .busMasterEnable .. | .correctableError .. | .sequencerRestartDone .. | .vkeepLoss
  | .resetNRelease => true

end Sys2Proof
end

