-- ==== Sys2Proof/Safety.lean ====
section
/-! DEFINITION. What counts as a safe run, in the terms the statements use. -/

namespace Sys2Proof.Machine

/-- The register space keeps its canonical form: addresses strictly rising, no entry equal to its reset value. -/
def State.barWf (s : State) : Bool := sparseWf barDefault s.bar

/-- The latches of R13 keep theirs: keys strictly rising, no entry 0. -/
def State.latchWf (s : State) : Bool := sparseWf latchDefault s.latch

/-- A command completes: it answers a next state, and of that state P holds. -/
def does (c : Instr) (s : State) (P : State → Prop) : Prop := ∃ t, exec c s = .next t ∧ P t

/-- Whether a write of a master to an offset takes effect: its rights and the power of the domain (R301, R303, R343). -/
def State.reaches (s : State) (m : Master) (a : Nat) : Bool := s.mayWrite m a && s.powered a

/-- The pending bit of an event (R306). -/
def pendFld (e : Nat) : Fld := ⟨A.EVT_PENDw (e / 32), e % 32, 1⟩

/-- The registers of FLT that an event writes: the lines, the safe state, the first fault and the log (R328, R337). -/
def fltReg (a : Nat) : Bool :=
  [A.FLT_STAT_LO, A.FLT_STAT_HI, A.FLT_SAFE, A.FLT_FIRST, A.FLT_FIRSTTIME_LO, A.FLT_FIRSTTIME_HI, A.FLT_LOGCNT].contains a ||
  (decide (0x20800 ≤ a) && decide (a < 0x20C00))

/-- The registers beside EVT, FLT and the ledgers that the reactions to an event write: work and fire timing states, FETCH_EN,
the heaters' duty, the targets and states of the axes, HPEN at a line boundary and HALTT (R56, R185, R267, R297, R337, R347). -/
def reactRegs : List Nat :=
  A.WRK_CTRL :: A.PWR_MON_FLUSH ::
    (allCh.flatMap fun (n : Fin 16) => [A.WRK_SCRn_STAT n, A.CHn_FT_STAT n, A.THM_CHn_HTRSTAT n, A.CHn_BRG_STAT n]) ++
  (List.finRange 4).flatMap fun (a : Fin 4) => [A.MOT_AXa_TGT_LO a, A.MOT_AXa_TGT_HI a, A.MOT_AXa_STAT a]

/-- The registers that no event and no reaction to one writes. -/
def quiet (a : Nat) : Bool := !([1, 22].contains (blockOf a) || fltReg a || reactRegs.contains a)

/-- What a command leaves as it was that, beside its own effect, only raises events whose reactions halt or inhibit channels
or enter the safe state (R56, R328, R337): the registers that `keep` names, the queue and the clock, and of the rest of the state
all but what these reactions change (the holds of a channel, its bands' PARTIAL lines, the line it has decided with those screened
behind it, the window it is in, heaters and axes, the ledger flush). -/
structure Calm (keep : Nat → Bool) (s t : State) : Prop where
  word : ∀ a, keep a = true → t.word a = s.word a
  pending : t.pending = s.pending
  tick : t.tick = s.tick
  devBase : t.devBase = s.devBase
  latch : t.latch = s.latch
  capo : t.capo = s.capo
  mbx : t.mbx = s.mbx
  sp : t.sp = s.sp
  boot : t.boot = s.boot
  pos : t.pos = s.pos
  ins : t.ins = s.ins
  tun : t.tun = s.tun
  host : { t.host with pba := s.host.pba } = s.host
  pwr : { t.pwr with flush := s.pwr.flush } = s.pwr
  jnl : ∀ n, { t.journal n with flush := (s.journal n).flush } = s.journal n
  thm : { t.thm with integ := s.thm.integ, satTick := s.thm.satTick, pwm := s.thm.pwm } = s.thm
  tap : t.flt.tap = s.flt.tap
  img : ∀ n, { (t.ch n).img with
    job := (s.ch n).img.job, released := (s.ch n).img.released, started := (s.ch n).img.started } = (s.ch n).img
  dut : ∀ n, { (t.ch n).dut with dec := (s.ch n).dut.dec } = (s.ch n).dut
  brg : ∀ n, { (t.ch n).brg with
    sent := (s.ch n).brg.sent, acked := (s.ch n).brg.acked, retxed := (s.ch n).brg.retxed,
    hpenHold := (s.ch n).brg.hpenHold } = (s.ch n).brg
  iso : ∀ n, (t.ch n).iso = (s.ch n).iso

/-- Whether channel n's sequencer takes a command at once: the device is READY, its domain is ON, it runs, it executes no other, and
the channel is not isolated (R15, R29, R57, R380). -/
def State.takes (s : State) (n : Fin 16) : Bool :=
  s.booted && s.chOn n && (s.ch n).work.seqUp && !s.flag (F.WRK_SCRn_STAT_CMDBUSY n) && !(s.ch n).iso.isolated

/-- Whether the data of a command fits what the state waits for: whole lines of the band that loads (R44, R304), whole rows of
the matrix that loads (R84), the bytes of the PROGRAM in progress (R376). Of every other command it asks nothing. -/
def State.fits (s : State) (c : Instr) : Bool :=
  match c with
  | .imageDmaError n _ got => match s.loadingBand n with
    | some b => b.wholeLines got
    | none => true
  | .bandLoadComplete n got => match s.loadingBand n with
    | some b => b.wholeLines got && got.length == b.missing
    | none => true
  | .tableLoadError n _ rows => match (s.ch n).img.load with
    | some l => decide (rows.length ≤ s.rowsLeft n l)
    | none => true
  | .tload n rows => match (s.ch n).img.load with
    | some l => rows.length == s.rowsLeft n l
    | none => true
  | .nvmDone err data => match s.boot.cmd with
    | some k => !(k.code == 2 && err == 0) || data.length == k.len
    | none => true
  | _ => true

/-- An encoder that POS counts itself, with the pair off. -/
def State.singleEnc (s : State) (e : Fin 4) : Bool := s.feOn fePos e && (s.encOf e).sub.isNone && !s.pairEn

/-- A plain encoder: no emulation output that is enabled takes it as source, and no emulation setting waits for a count. -/
def State.plainEnc (s : State) (e : Fin 4) : Bool :=
  s.singleEnc e && (List.finRange 4).all fun m => !(s.flag (F.POS_EMUm_CFG_EN m) && s.get (F.POS_EMUm_CFG_SRC m) == e.val) &&
    allTx.all fun x => (s.dueEntries x (isEmu m)).isEmpty

/-- No armed fret takes encoder e as source, but for those that p names. -/
def State.noFret (s : State) (e : Fin 4) (p : Nat → Bool) : Bool :=
  (List.range 64).all fun f => p f || !s.flag (F.POS_FRETf_CTRL_ARM f) || s.get (F.POS_FRETf_CTRL_SRC f) != e.val

/-- The lines of encoder e in a front end stand as accepted. -/
def EncFe.settled (f : EncFe) : Bool := f.a.raw == f.a.acc && f.b.raw == f.b.acc && f.z.raw == f.z.acc

/-- A request of port q with code c lies in mailbox m and is served now, no reply being held there, and its reply finds mailbox r
released with none held for it (R324, R325). -/
def State.asked (s : State) (m : Fin 48) (q : Port) (c : Nat) (r : Fin 48) : Bool :=
  s.serves m && (s.mb m).src == some q && hdrCode (BitVec.ofNat 32 (s.reqWord m 0)) == c && (s.codes m).contains c &&
  (s.mb m).held.isEmpty && mbxOf (returnBox m.val q) == some r && !(s.mb r).full && (s.mb r).held.isEmpty

/-- The request that lay in mailbox m is released, and mailbox r holds its reply with a status and words after the header (R322,
R325). -/
def State.replied (s t : State) (m r : Fin 48) (st : Nat) (ws : List Word) : Prop :=
  (t.mb m).full = false ∧ (t.mb r).full = true ∧ (t.mb r).src = some (mbxReceiver m) ∧
  (t.mb r).msg = replyHeader (BitVec.ofNat 32 (s.reqWord m 0)) st :: ws

/-- The line released from a job with some codes: they leave through the pass mask (R74), with SINGLE where one pipe alone stands
for it. -/
def releasedLine (s : State) (n : Fin 16) (j : Job) (codes : List Nat) (single : Bool) : Line :=
  { j.line with codes := List.mapIdx (fun k c => (s.imgFor n j.line.page).maskCode n j.line.l k (nth j.line.passes k) c) codes, single := single }

/-! ## Frames -/

/-- Every register but those listed reads as before. -/
def regsBut (as : List Nat) (s t : State) : Prop := ∀ a, a ∉ as → t.word a = s.word a

/-- Every register that no event writes, but those listed, reads as before. -/
def quietBut (as : List Nat) (s t : State) : Prop := ∀ a, quiet a → a ∉ as → t.word a = s.word a

/-- Every other channel, and its part of the journal, is as before. -/
def chBut (n : Fin 16) (s t : State) : Prop := ∀ k, k ≠ n → t.ch k = s.ch k
def jnlBut (n : Fin 16) (s t : State) : Prop := ∀ k, k ≠ n → t.journal k = s.journal k

/-- Only channel n changes; only the registers listed; both; both and the channel's part of the journal. -/
def onlyCh (n : Fin 16) (s t : State) : Prop := t = { s with chans := t.chans } ∧ chBut n s t
def onlyAt (as : List Nat) (s t : State) : Prop := t = { s with bar := t.bar } ∧ regsBut as s t
def onlyChAt (n : Fin 16) (as : List Nat) (s t : State) : Prop :=
  t = { s with bar := t.bar, chans := t.chans } ∧ chBut n s t ∧ regsBut as s t
def onlyChJnlAt (n : Fin 16) (as : List Nat) (s t : State) : Prop :=
  t = { s with bar := t.bar, chans := t.chans, jnl := t.jnl } ∧ chBut n s t ∧ jnlBut n s t ∧ regsBut as s t

/-- Calm; calm but for the registers listed. -/
abbrev calm (s t : State) : Prop := Calm quiet s t
def calmBut (as : List Nat) (s t : State) : Prop := Calm (fun a => quiet a && !as.contains a) s t

/-! ## What commands answer and what events do -/

/-- A command answers the state it was given. -/
def idles (c : Instr) (s : State) : Prop := exec c s = .next s

/-- Event e is pending, where HOST is ON. -/
def raises (e : Nat) (s t : State) : Prop := s.domOn 0 → t.flag (pendFld e)

/-- A count field has gone up by 1, up to a limit. -/
def bumps (f : Fld) (lim : Nat) (s t : State) : Prop := t.get f = min (s.get f + 1) lim

/-- Channel n is HELD with cause c among its causes. -/
def held (n : Fin 16) (c : Nat) (t : State) : Prop := t.wstate n = 2 ∧ c ∈ (t.ch n).work.causes

/-- The safe state is active with a cause. -/
def safeBy (f : Fld) (t : State) : Prop := t.flag F.FLT_SAFE_ACTIVE ∧ t.flag f

/-- An event e of a channel brings no inhibit that gives up a line the channel has decided. -/
def State.spares (s : State) (n : Fin 16) (e : Nat) : Bool := decide (s.sevOf e ≤ 1) || (s.ch n).ft.decided.isEmpty

/-! ## Work -/

/-- A command that a master writes to WRK_SCRn_CMD is taken at once; its result is OK. -/
def State.commands (s : State) (m : Master) (n : Fin 16) : Bool := s.reaches m (A.WRK_SCRn_CMD n) && s.takes n
def State.cmdDone (t : State) (n : Fin 16) : Prop := t.get (F.WRK_SCRn_STAT_CMDRES n) = 0

/-- No band not yet DONE has all its lines and owed rows among the lines of page pg up to count l and those before (R45); none has
at the lines fired so far. -/
def State.noneMetAt (s : State) (n : Fin 16) (pg l : Nat) : Bool :=
  (s.ch n).work.bands.all fun b => b.state == .done || b.state == .retired || !b.met (s.maxDelay n b.page (s.pageDir n)) pg l
def State.noneMet (s : State) (n : Fin 16) : Bool := s.noneMetAt n (s.ch n).work.firedPage (s.ch n).work.firedL

/-- Whether the ledger has an entry of a band, with the lines fired or resolved so far (R44). -/
def State.begun (s : State) (n : Fin 16) (b : Band) : Bool := b.hasEntry (s.ch n).work.firedPage (s.ch n).work.firedL

/-- Where the lines fired or resolved stand once the PARTIAL line has been skipped. -/
def State.skipTo (s : State) (n : Fin 16) : Nat × Nat :=
  match s.band? n (s.get (F.CHn_LED_PSEQ_SEQ n)) with
  | some b => laterOf (b.page, b.l0 + s.get (F.CHn_LED_PLINE_LINE n) + 1) ((s.ch n).work.decPage, (s.ch n).work.decL)
  | none => ((s.ch n).work.firedPage, (s.ch n).work.firedL)

/-- CIDX has moved past one descriptor; TAIL past one record. -/
def State.cidxMoved (s t : State) (n : Fin 16) : Prop :=
  t.get (F.WRK_SCRn_CIDX_CIDX n) = (s.get (F.WRK_SCRn_CIDX_CIDX n) + 1) % s.scrSize n % 2 ^ 12
def State.recWritten (s t : State) (n : Fin 16) (r : DueRec) : Prop :=
  .hostWrite ((s.ch n).work.cmpBase + 32 * s.get (F.WRK_CMPn_TAIL_TAIL n)) (recBytes r (s.flag (F.WRK_CMPn_TAIL_PHASE n))) ∈ t.out ∧
  t.get (F.WRK_CMPn_TAIL_TAIL n) = (s.get (F.WRK_CMPn_TAIL_TAIL n) + 1) % ringSize (s.ch n).work.cmpLog % 2 ^ 12

/-! ## Image, fire timing, encoders, the link -/

/-- A write into a held bank is discarded, and its flag says so (R83, R107). -/
def discards (f : Fld) (s t : State) : Prop := t.flag f ∧ onlyAt [f.addr] s t

/-- The line of job j stays in the pipes, now at stage x, and none is released. -/
def goesOn (n : Fin 16) (j : Job) (x : Stage) (s t : State) : Prop :=
  (∃ j', (t.ch n).img.job = some j' ∧ j'.stage = x ∧ j'.line = j.line) ∧ (t.ch n).img.released = (s.ch n).img.released

/-- The pipes may begin the line x: READY, channel n ON, in RUN and not isolated, the line's band handed over, fewer than LEAD lines
released, none in the pipes (R15, R29, R75). -/
def State.mayScreen (s : State) (n : Fin 16) (x : Band × Nat × Nat × Nat) : Bool :=
  s.booted && s.chOn n && !(s.ch n).iso.isolated && s.wstate n == 1 && (x.1.state == .released || x.1.state == .firing) &&
  decide (s.leadNow n < s.get (F.CHn_IMG_CTRL_LEAD n)) && (s.ch n).img.job.isNone

/-- A line joins the released lines, and the pipes are free. -/
def released (n : Fin 16) (l : Line) (s t : State) : Prop :=
  (t.ch n).img.released = (s.ch n).img.released ++ [l] ∧ (t.ch n).img.job = none

/-- A matrix word that could not be corrected was met: the channel is halted (R81, R87). -/
def matrixBad (n : Fin 16) (s t : State) : Prop :=
  (t.ch n).img.job = none ∧ held n 2 t ∧ t.flag (F.CHn_IMG_STAT_MTXUE n) ∧ raises (chEvt n 10) s t ∧
  quietBut [A.CHn_IMG_ECC n, A.CHn_IMG_STAT n] s t

/-- A reading for a line of page pg met a bad word of matrix m of the bank that page uses, and a bad image word with it where iu says
so (R81). -/
def readFails (n : Fin 16) (pg : Nat) (iu : Bool) (m : Fin 4) (s t : State) : Prop :=
  matrixBad n s t ∧ ((s.imgFor n pg).mtxBank n, m.val) ∈ (t.ch n).img.ueTables ∧ (iu → t.flag (F.CHn_IMG_STAT_IMGUE n))

/-- The test of a fenced pipe that waits for readmission has ended: passed, it rejoins with both residue counts cleared; its request
is gone (R80). -/
def readmitted (n : Fin 16) (p : Pipe) (ok : Bool) (s t : State) : Prop :=
  t.flag (readmFld n p) = false ∧ t.flag (fenceFld n p) = (s.flag (fenceFld n p) && !(s.readmits n p && ok)) ∧
  (s.readmits n p → ok → t.get (rescntFld n .a) = 0 ∧ t.get (rescntFld n .b) = 0 ∧ raises (chEvt n 12) s t)

/-- The words of the tables of the image path in bank c of channel n, each with the field that names the bank in use and the bits an
entry has: the nozzle map, the density LUT, the saddle weights and the pass mask (R82). -/
def imgTableWord (n : Fin 16) (c : Nat) : List (Nat × Fld × Word) :=
  ((List.range 4096).map fun k => (chBase n + 0x80000 + 0x4000 * c + 4 * k, F.CHn_IMG_BANK_MAPB n, 0x000FFF3F)) ++
  ((List.range 256).map fun k => (chBase n + 0x88000 + 0x400 * c + 4 * k, F.CHn_IMG_BANK_LUTB n, 0x3FF)) ++
  ((List.range 512).map fun k => (chBase n + 0x88800 + 0x800 * c + 4 * k, F.CHn_IMG_BANK_SADB n, 0x1FF)) ++
  ((List.range 8192).map fun k => (chBase n + 0x90000 + 0x8000 * c + 4 * k, F.CHn_IMG_BANK_MASKB n, 0xFFFFFFFF))

/-- The words of the segment tables in bank c of channel n, with the bits an entry has (R88). -/
def segTableWord (n : Fin 16) (c : Nat) : List (Nat × Word) :=
  (List.range 128).flatMap fun k =>
    [(chBase n + 0xA0000 + 0x1000 * c + 8 * k, 0x000F0FFF), (chBase n + 0xA0000 + 0x1000 * c + 8 * k + 4, 0xFFFFFFFF)]

/-- An image word that could not be corrected was met: the line waits for the range to be fetched again, then goes on (R81). -/
def imageBad (n : Fin 16) (after : Stage) (s t : State) : Prop :=
  (∃ j, (t.ch n).img.job = some j ∧ j.stage = .refetch ∧ j.after = after) ∧ t.flag (F.CHn_IMG_STAT_IMGUE n) ∧
  onlyChAt n [A.CHn_IMG_ECC n, A.CHn_IMG_STAT n] s t

/-- The line d has fired: FIRE, its ledger entry, its window with the segment times of its table, a frame on every enabled port at the next
sample of its grid, a scale that waited, the lines fired so far; no record falls due (R45, R48, R50, R93, R96, R97, R100, R104). -/
def lineFired (n : Fin 16) (d : Decided) (s t : State) : Prop :=
  (t.ch n).ft = { (s.ch n).ft with decided := [] } ∧
  .fire n.val ∈ t.out ∧ t.get (F.CHn_LED_COUNT_COUNT n) = (s.get (F.CHn_LED_COUNT_COUNT n) + 1) % 2 ^ 32 ∧
  t.get (F.CHn_LED_SEQ_SEQ n) = d.duty.line.seq % 2 ^ 32 ∧ t.get (F.CHn_LED_LINE_LINE n) = d.duty.line.line % 2 ^ 24 ∧
  t.get (F.CHn_LED_LINE_STATE n) = (if d.refired then 2 else 0) ∧
  t.word (ledSlot n (s.get (F.CHn_LED_COUNT_COUNT n))) = BitVec.ofNat 32 d.duty.line.seq ∧
  (∃ w, (t.ch n).wav.win = some w ∧ w.fireTick = d.fireTick ∧ w.seq = d.duty.line.seq ∧ w.line = d.duty.line.line ∧
    w.tab = s.tabOf n d.duty.line.pass ∧ w.endTick = s.waveEndOf n d.fireTick d.duty.line.pass ∧ w.segDone = 0 ∧
    w.startTicks = startsFrom (d.fireTick + s.get (F.CHn_WAV_DLY_WDLY n))
      (s.segDurs n (s.get (F.CHn_WAV_BANK_BANK n)) w.tab)) ∧
  (∀ p, p < 2 → s.portEn n p → ∃ f ∈ (t.ch n).wav.frames, f.port = p ∧ f.start = d.fireTick +
    s.get (F.CHn_WAV_DLY_WDLY n) + s.phaseAt n (d.fireTick + s.get (F.CHn_WAV_DLY_WDLY n))) ∧
  (∀ v, (s.ch n).wav.newScale = some v → s.portEn n (s.get (F.CHn_WAV_WFB_SRC n)) → (t.ch n).wav.newScale = none ∧
    t.get (if s.get (F.CHn_WAV_WFB_SRC n) = 0 then F.CHn_WAV_SCALE_SC0 n else F.CHn_WAV_SCALE_SC1 n) = v % 65536) ∧
  ((t.ch n).work.firedPage, (t.ch n).work.firedL) = (if d.refired then ((s.ch n).work.decPage, (s.ch n).work.decL)
    else (d.duty.line.page, d.duty.line.l + 1)) ∧
  (t.ch n).work.due = (s.ch n).work.due ∧ (t.ch n).dut.count = (s.ch n).dut.count + 1 ∧
  t = { s with bar := t.bar, chans := t.chans, out := t.out } ∧ chBut n s t

/-- The line of duty d has been decided: its FIRE edge, the line position one pitch on for each line up to q, LINES (R97, R143, R146). -/
def lineDecided (n : Fin 16) (l : Nat) (pg : Nat) (d : DutyDec) (q : Nat × Nat) (s t : State) : Prop :=
  (∃ e, (t.ch n).ft.decided = [e] ∧ e.duty = d ∧ e.fireTick = s.tick + 14 + s.fdly n ∧
  e.retx = (s.ch n).brg.retxed) ∧ (t.ch n).ft.x = (s.ch n).ft.x + BitVec.ofNat 80 (q.2 - l) * s.pitch n ∧
  (t.ch n).dut.dec = none ∧ (t.ch n).work = { (s.ch n).work with decPage := pg, decL := q.2, refire := none } ∧
  t.get (F.CHn_FT_LINES_LINES n) = (s.get (F.CHn_FT_LINES_LINES n) + 1) % 2 ^ 32 ∧
  onlyChAt n [A.CHn_FT_LINES n, A.CHn_FT_STAT n] { s with capo := t.capo } t

/-- An SOS event of input i counts for a forward page of channel n: in RUN, enabled for forward pages alone, with no other event in
the sample (R153). -/
def State.sosHeard (s : State) (n : Fin 16) (i : Fin 8) : Bool :=
  s.chOn n && s.wstate n == 1 && s.sosFwd n i && !s.sosBwd n i && !s.lowerSos n i &&
  (s.ch n).ft.sosTick.map (· / 2) != some (s.tick / 2)

/-- A plain encoder in mode ×4 with no index check and no armed fret but those that p names. -/
def State.bareEnc (s : State) (e : Fin 4) (p : Nat → Bool) : Bool :=
  s.plainEnc e && s.get (F.POS_ENCe_IDXNOM_NOM e) == 0 && s.noFret e p && s.get (F.POS_ENCe_CFG_MODE e) == 2 &&
  !s.flag (F.POS_ENCe_CFG_IDXGATE e)

/-- The state of channel n's link (CHn_BRG_STAT.LSTATE). -/
def State.lstate (s : State) (n : Fin 16) : Nat := s.get (F.CHn_BRG_STAT_LSTATE n)

/-- The identity record is good: it shows in its window, and training starts with its word on the lanes (R178, R180). -/
def identified (n : Fin 16) (rec : List Byte) (s t : State) : Prop :=
  t.flag (F.CHn_BRG_IDSTAT_IDVALID n) ∧ t.lstate n = 2 ∧
  (t.ch n).brg.phase = 1 ∧ (t.ch n).brg.trdy = 0 ∧ (t.ch n).brg.nextFsn = 0 ∧
  (∀ i, i < 64 → t.word (chBase n + 0x41000 + 4 * i) = BitVec.ofNat 32 (fieldAt rec (4 * i) 4)) ∧
  t.out = .train n.val 0x7A0C :: s.out ∧ t = { s with bar := t.bar, chans := t.chans, out := t.out } ∧ chBut n s t

/-- A frame starts on channel n's lanes now. -/
def frameOut (n : Fin 16) (f : Frame) (s t : State) : Prop := t.out = .frame n.val s.tick (frameBytes f false) :: s.out

/-- A new frame is outstanding: its type, its FSN, the payload and the masks and software write it carries. -/
def frameSent (n : Fin 16) (typ : Nat) (payload : List Byte) (masks : List (Nat × Nat)) (soft : Option (Nat × Word)) (s t : State) :
    Prop :=
  ∃ f, (t.ch n).brg.outst = some f ∧ f.typ = typ ∧ f.fsn = (s.ch n).brg.nextFsn ∧ f.payload = payload ∧ f.masks = masks ∧
    f.soft = soft ∧ f.endTick = s.tick + (13 + payload.length) / 2 ∧ frameOut n f s t ∧
    (t.ch n).brg.nextFsn = ((s.ch n).brg.nextFsn + 1) % 256 ∧ onlyCh n { s with out := t.out } t

/-- The masks of the CFG frame for word x: one bank in full during its full transfer (R171). -/
def State.cfgMasks (s : State) (n : Fin 16) (x : Nat × Nat) : List (Nat × Nat) :=
  if (s.ch n).wav.full.contains x.1 then (List.range 32).map fun i => (x.1, i) else [x]

/-- The outstanding frame f has been sent again with its FSN as soon as the lanes are free (R166, R176). -/
def sentAgain (n : Fin 16) (f : Frame) (s t : State) : Prop :=
  let k := max s.tick (s.ch n).brg.busyTill
  (t.ch n).brg.outst = some { f with retx := f.retx + 1, endTick := k + (13 + f.payload.length) / 2 } ∧
  .frame n.val k (frameBytes f true) ∈ t.out ∧ bumps (F.CHn_BRG_CNT1_RETX n) 65535 s t

/-- The link has gone DOWN with a cause: nothing is outstanding, the masks are gone and the channel is held (R176, R178, R183). -/
def linkLost (n : Fin 16) (cause : Nat) (s t : State) : Prop :=
  t.lstate n = 4 ∧ t.get (F.CHn_BRG_STAT_DCAUSE n) = cause ∧ bumps (F.CHn_BRG_CNT2_DOWNCNT n) 255 s t ∧
  (t.ch n).brg.outst = none ∧ (t.ch n).wav.words = [] ∧ t.flag (F.CHn_BRG_STAT_HPEN n) = false ∧ held n 2 t ∧ raises (chEvt n 21) s t

/-! ## Transactions -/

/-- A read of a master reaches a register that it may read (R301, R303). -/
def State.reads (s : State) (m : Master) (a : Nat) : Bool := mayRead m a && s.powered a

/-- A slot of a master's own, no implicit transaction's and no healing round's. -/
def State.plainTx (s : State) (k : Fin 16) : Bool := !s.flag (F.CAPO_TXt_STAT_IMPL k) && s.ins.rounds.all fun r => r.slot != k.val

/-- Slot k is ABORTED with a cause; for want of a second key. -/
def aborted (k : Fin 16) (c : Nat) (t : State) : Prop := t.txState k = 7 ∧ t.get (F.CAPO_TXt_STAT_CAUSE k) = c
def keyRefused (k : Fin 16) (s t : State) : Prop := aborted k 8 t ∧ t.flag F.PROT_STAT_NOKEY ∧ raises 23 s t

/-- Every other slot is as before. -/
def slotsBut (k : Fin 16) (s t : State) : Prop := ∀ j, j ≠ k → t.slot j = s.slot j

/-- A master may write a register with staged fields alone that switches no heater off. -/
def State.stages (s : State) (m : Master) (a : Nat) : Bool :=
  s.domOn 1 && s.mayWrite m a && hasStaged a && typMask (· == .rw) a == 0 && allCh.all fun n => a != A.THM_CHn_CFG n

/-- Whether a committed entry at a applies at the commit instant: that of PROT and of every other block without a point of its own, of POS but
for the emulation outputs, THM, the Tuner, what INS names so, a Bridge link, and fire timing or an image path at its point (R207). -/
def State.appliesNow (s : State) (a : Nat) : Bool :=
  (atCommit a && blockOf a != 5) || (blockOf a == 4 && (List.finRange 4).all fun m => !isEmu m a) || blockOf a == 6 ||
  blockOf a == 9 || s.insNow a ||
  allCh.any fun n => isPart (.ch n 4) a || (isPart (.ch n 3) a && s.ftFree n) || (isPart (.ch n 1) a && s.imgFree n)

/-- Slot k has gone to VOTING, and nothing outside its registers has changed (R195, R202). -/
def voting (k : Fin 16) (s t : State) : Prop :=
  t.txState k = 3 ∧
    !t.flag (F.CAPO_TXt_STAT_CMDREF k) ∧ t.slot k = { s.slot k with startTick := s.tick } ∧
    t = { s with bar := t.bar, capo := t.capo } ∧ (∀ a, a < 0x2000000 → blockOf a ≠ 5 → t.word a = s.word a) ∧
    slotsBut k s t

/-- The last vote has armed slot k, its condition met at once with COND 0 (R204, R205). -/
def armedNow (k : Fin 16) (s t : State) : Prop :=
  t.txState k = 4 ∧ (t.slot k).startTick = s.tick ∧ (t.slot k).entries = (s.slot k).entries ∧ (t.slot k).cond =
      (if s.get (F.CAPO_TXt_CTRL_COND k) = 0 then some s.tick else (s.slot k).cond) ∧
    onlyAt [A.CAPO_TXt_STAT k] { s with capo := t.capo } t

/-- No slot but those that p names holds the register, and an entry is left. -/
def State.capoRoom (s : State) (a : Nat) (p : Fin 16 → Bool) : Bool :=
  (allTx.all fun u => p u || !s.txHolds u a) && decide (s.entriesUsed < 4096)

/-- The bank of a master names slot k, and its confirmation reaches the two-key logic (R353). -/
def State.confirms (s : State) (m : Master) (k : Fin 16) : Bool :=
  s.reaches m A.PROT_CFM_HI && s.get (F.PROT_CFMTX_TX.bank (masterBank m)) == k.val

/-! ## Cameras and the Tuner -/

/-- Port p is inside a frame whose lines it takes. -/
def State.capturing (s : State) (p : Fin 2) : Bool := s.camOn && s.inFrame p && !(s.cam p).waitLow

/-- Port p after a rise of LVAL: the line's number, time and ink temperatures are noted in the frame (R217, R232, R250). -/
def State.camRisen (s : State) (p : Fin 2) (f : CamFrame) : CamPort :=
  { (s.cam p).modFrame f.frame fun g => { g with
      starts := ((s.cam p).next, s.devTime, (List.range 16).map s.inkTemp) :: g.starts } with next := (s.cam p).next + 1 }

/-- A frame of port p has begun with the settings in effect and what was armed (R217, R218, R224). -/
def frameBegun (p : Fin 2) (s t : State) : Prop :=
  t.word (A.INS_Pp_ARM p) = 0 ∧ (t.cam p).startTick = s.tick ∧ (t.cam p).next = 0 ∧ (∃ f, (t.cam p).now = some f ∧
    f.frame = t.get (F.INS_Pp_STAT_FRAMECNT p) ∧ f.word 0 = s.word (A.INS_Pp_CFG p) ∧ f.word 1 = s.word (A.INS_Pp_FRAME p) ∧
    f.lads = s.ladsOf p ∧ f.seen = [] ∧ (!s.flag (F.INS_Pp_CFG_BYPASS p) → s.get (F.INS_Pp_CFG_LADMODE p) = 1 →
      f.lad = s.flag (F.INS_Pp_ARM_LAD p))) ∧
  onlyAt [A.INS_Pp_STAT p, A.INS_STAT, A.INS_Pp_ARM p] { s with ins := t.ins } t

/-- A completed ladder has been analysed once: its measured nozzles classified and counted, its results kept for healing with the nozzles
live when their marks were printed, its block written (R228 to R233, R239). -/
def ladderAnalysed (n : Fin 16) (f : CamFrame) (l : LadSet) (pr : List Nat) (s t : State) : Prop :=
  (∃ res : List NozRes, res.length = s.get (F.CHn_IMG_GEOM_NNOZ n) ∧
    (∀ (j : Nat) (h : j < res.length), res[j].meas → f.measured l (l.rungLines (j % l.rungs)) j) ∧
    (∀ x ∈ [(F.INS_LADn_RES0_OK n, 0), (F.INS_LADn_RES0_WEAK n, 1), (F.INS_LADn_RES1_DEV n, 2), (F.INS_LADn_RES1_MISS n, 3)],
      t.get x.1 = (res.filter fun r => r.meas && r.cls == x.2).length % 8192) ∧
    (l.heal → ∃ set ∈ t.ins.pend, ∃ x ∈ set.chans, set.frame = f.frame ∧ x.n = n.val ∧ x.res = res ∧
      x.live = (List.range res.length).map fun j => s.liveAt n (pr.getD (j % l.rungs) s.tick) j)) ∧
  (∀ g ∈ (t.cam 0).frames, g.frame = f.frame → n.val ∈ g.ladDone) ∧ t.resCount 0 n = (s.resCount 0 n + 1) % 2 ^ 32 ∧
  (s.flag F.INS_RESBASE_LO_EN → s.dmaUp → .hostWrite ((s.pair A.INS_RESBASE_LO A.INS_RESBASE_HI) / 4096 * 4096 +
    n.val * 0x10000) (leBytes 4 (s.resCount 0 n + 1)) ∈ t.out ∧ t.flag (pendFld 74)) ∧
  quietBut [A.INS_LADn_RES0 n, A.INS_LADn_RES1 n] s t

/-- A complete line waits in the FIFO of port p, cut to WIDTH and counted where longer (R218, R219). -/
def lineTaken (p : Fin 2) (f : CamFrame) (k time : Nat) (px : List (Nat × Nat × Nat)) (s t : State) : Prop :=
  t.cam p = { s.cam p with
      cur := none, fifo := (s.cam p).fifo ++ [{ frame := f.frame, num := k, time := time, px := px.take f.width }] } ∧
    t.get (F.INS_Pp_CNT2_LONGLINE p) = min (s.get (F.INS_Pp_CNT2_LONGLINE p) + b2n (f.width < px.length)) 65535 ∧
    onlyAt [A.INS_Pp_CNT2 p] { s with ins := t.ins } t

/-- An entry of the capo that switches the map of channel n could be made now: the supervisor and INS run, no round is in flight. -/
def State.mapSwitch (s : State) (n : Fin 16) : Bool :=
  s.supCapo && s.ins.rounds.isEmpty && s.capoRoom (A.CHn_IMG_BANK n) fun _ => false

/-- A healing round of channel n goes to vote in slot k with the new statuses in the inactive map bank (R233, R235). -/
def roundLaunched (n : Fin 16) (k : Fin 16) (x : HealRes) (s t : State) : Prop :=
  t.txState k = 3 ∧
  (t.slot k).entries.map (·.addr) = [A.CHn_IMG_BANK n] ∧ t.ins.pend = [] ∧ (∃ r, t.ins.rounds = [r] ∧ r.slot = k.val ∧
    r.chans = [n.val] ∧ !r.test) ∧ t.flag F.INS_HEAL_BUSY ∧ bumps F.INS_HEALCNT_ROUNDS 32767 s t ∧
  (∀ j, j < 4096 → t.word (mapAddr n (s.mapBank n) j) = s.word (mapAddr n (s.mapBank n) j)) ∧
  ∀ j, j < 4096 → j < s.get (F.CHn_IMG_GEOM_NNOZ n) → getBits (t.word (mapAddr n (1 - s.mapBank n) j)) 0 2 =
    (healNozzle (max 1 (s.get (F.INS_LADn_CFG_UPCNT n))) (getBits (s.mapWord n j) 0 2) (s.better n j)
      (x.res.getD j { meas := false, cls := 0 }) (x.live.getD j false)).1 % 4

/-- A result of a class has been filed and waits to be applied (R244, R246, R247, R255). -/
def filed (c i : Nat) (temp : Int) (w : Word) (s t : State) : Prop :=
  (c, i, w, some temp) ∈ t.tun.pend ∧ (∀ k, s.nearest c temp = some k → t.tunEntry c i k = w) ∧
  bumps (F.TUN_COUNTc_COUNT c) (2 ^ 32 - 1) s t ∧ t.pair (A.TUN_LASTc_LO c) (A.TUN_LASTc_HI c) = s.devTime % 2 ^ 64 ∧
  t.get (F.TUN_LBOOTc_BOOT c) = s.boot.bootCnt % 2 ^ 32

/-- A pending value has been applied: it is the value in effect, its temperature the reference, its target has it (R244, R245, R254). -/
def tunApplied (c : Fin 5) (i : Nat) (w : Word) (x : Option Int) (s t : State) : Prop :=
  t.tunEff c i = tunWord (tunVal c w) ∧ (x.isSome → t.tunRef c i = x) ∧
    t.tun.pend = (s.tun.pend.filter fun y => ¬ (y.1 = c.val ∧ y.2.1 = i)) ∧
    (c.val = 0 → t.get (F.THM_TSs_OFS_SOFS i) = w.toNat % 65536) ∧
    (∀ n : Fin 16, c.val = 3 → i / 2 = n.val → s.flag (F.CHn_WAV_WFB_LOOP_EN n) → s.get (F.CHn_WAV_WFB_SRC n) = i % 2 →
      (t.ch n).wav.newScale = some (w.toNat % 65536)) ∧ regsBut [A.THM_TSs_OFS i] s t ∧
    t = { s with bar := t.bar, tun := t.tun, chans := t.chans }

/-- The next instance of class c is measured from now (R244). -/
def tunStarted (c : Fin 5) (k : Fin 3) (s t : State) : Prop :=
  t.tun.meas.get k = some (s.tun.next.get k) ∧
    t.tun.next.get k = (s.tun.next.get k + 1) % tunInsts c ∧ t.tun.last.get k = some s.tick ∧ t = { s with tun := t.tun }

/-! ## Thermal control and motion -/

/-- A thermistor's sensor without neighbours, which serves exactly the channels that p names. -/
def State.lone (s : State) (k : Fin 48) (p : Fin 16 → Bool) : Bool :=
  decide (k.val < 40) && (s.neighbours k).isEmpty && allCh.all fun n => p n == (s.get (F.THM_CHn_CFG_HSEN n) == k.val)

/-- Sensor k converts and counts as good: enabled, not failed and not in fallback (R257, R261). -/
def State.measures (s : State) (k : Fin 48) : Bool :=
  s.pwr.mainUp && s.flag (F.THM_TSs_CFG_EN k) && !s.flag (F.THM_TSs_STAT_FAIL k) && !s.flag (F.THM_TSs_STAT_FALLBK k)

/-- The safe state is active by the thermal shutdown, and THM_SHUT is raised (R270, R271). -/
def shutSafe (s t : State) : Prop := safeBy F.FLT_SAFE_THERMAL t ∧ raises 93 s t

/-- A velocity after one tick: towards vt without passing it, by dmax where it falls or turns and else by amax (R279). -/
def velTo (v vt amax dmax : Int) : Int :=
  if v = 0 then clampI (-amax) amax vt
  else if 0 < v ∧ v ≤ vt then min (v + amax) vt
  else if 0 < v then max (v - dmax) vt
  else if v < vt then min (v + dmax) vt
  else max (v - amax) vt

/-- Axis x has stopped with a fault (R295). -/
def axFaulted (x : Fin 4) (cause : Nat) (t : State) : Prop :=
  t.flag (F.MOT_AXa_STAT_FAULT x) ∧ t.get (F.MOT_AXa_STAT_FCAUSE x) = cause ∧ t.flag (F.MOT_AXa_STAT_STOPPED x)

/-- Only axis x changes, beside registers. -/
def onlyAxis (x : Fin 4) (s t : State) : Prop := t = { s with bar := t.bar, mot := t.mot } ∧ ∀ b, b ≠ x → t.axis b = s.axis b

/-- No entry for MOT waits in a COMMITTED slot. -/
def State.motIdle (s : State) : Bool := allTx.all fun k => (s.dueEntries k fun a => blockOf a == 7).isEmpty

/-! ## The host and the mailboxes -/

/-- HOST_ERR is pending, and t is calm after u. -/
def hostErr (u t : State) : Prop := t.flag (pendFld 126) ∧ calm u t

/-- What function fn keeps in its PBA for vectors that are not masked has been sent (R306). -/
def keptSent (fn : Fin 2) (s t : State) : Prop :=
  ∀ v, v < 512 → bit512 (s.host.vecMasked.get fn) v = false →
    bit512 (t.host.pba.get fn) v = false ∧ (bit512 (s.host.pba.get fn) v → .msix fn v ∈ t.out)

/-- The express queue is empty and no effects wait to enter it. -/
def State.expIdle (s : State) : Bool := s.host.expQ.isEmpty && s.host.merge.isNone

/-- Calm but for the mailboxes, and for PME_Status of a function in D3hot. -/
def calmMbx (s t : State) : Prop :=
  Calm quiet { s with mbx := t.mbx, host := { s.host with cfg := t.host.cfg } } t ∧
  ((∀ fn, s.host.d3.get fn = false) → t.host.cfg = s.host.cfg)

/-- Every other mailbox is as before; nothing but mailbox m changes. -/
def mbxBut (m : Fin 48) (s t : State) : Prop := ∀ k, k ≠ m → t.mb k = s.mb k
def onlyMb (m : Fin 48) (s t : State) : Prop := t = { s with mbx := t.mbx } ∧ mbxBut m s t

/-- Mailbox m holds the message of port p's bank (R315). -/
def delivered (m : Fin 48) (p : Port) (s t : State) : Prop :=
  (t.mb m).full ∧ (t.mb m).src = some p ∧ (t.mb m).msg = s.bankMsg m p

/-- A host function's message has been sent: delivered, the read gives 0, and one that is no reply waits to be acknowledged (R315,
R316, R319). -/
def hostSent (p : Port) (m : Fin 48) (s t : State) : Prop :=
  delivered m p s t ∧ (t.mb m).waiting = false ∧ .mbxRead p m.val 0 ∈ t.out ∧
  (hdrReply ((s.bankMsg m p).getD 0 0) = false → (t.view m p).ackWait ∧
    (t.view m p).tag = hdrTag ((s.bankMsg m p).getD 0 0) ∧ (t.view m p).sendTick = s.tick) ∧
  onlyMb m { s with out := t.out } t

/-- A message with header h has been sent from inside: delivered, its receiver told, a host in D3hot by PME where that is enabled; as
a reply it ends the wait for it (R315 to R317, R319). -/
def sentInside (p : Port) (m : Fin 48) (h : Word) (s t : State) : Prop :=
  delivered m p s t ∧ (∀ e, rxEvent m.val = some e → t.flag (pendFld e)) ∧ calmMbx s t ∧
  (∀ q, hdrReply h → mbxSender q (mbxReceiver m) → returnBox q.val (mbxReceiver m) = m.val →
    (s.view q (mbxReceiver m)).tag = hdrTag h → (t.view q (mbxReceiver m)).ackWait = false) ∧
  (mbxReceiver m = .pf0 → s.host.d3.get 0 → bitAt (s.cfgStored 0 0x44).toNat 8 → .pme 0 ∈ t.out)

/-- Whether a send of port p to mailbox m is accepted by a receiver that is not asleep (R315, R320). -/
def State.accepts (s : State) (p : Port) (m : Fin 48) : Bool := s.sendRes m p == 0 && (mbxReceiver m != .sup || s.domOn 3)

/-- The request in mailbox m is answered in mailbox r with a status and words, and only mailboxes change. -/
def answers (c : Instr) (s : State) (m r : Fin 48) (st : Nat) (ws : List Word) : Prop :=
  does c s fun t => s.replied t m r st ws ∧ calmMbx s t

/-- The TAP is released: its instruction is IDCODE, no cell drives a pin, and the 32 bits of the IDCODE shift out (R425). -/
def tapFreed (t : State) : Prop :=
  t.flt.tap.instr = .idcode ∧ (∀ c, t.tapDrives c = none) ∧
  .tdo ((List.range 32).map fun k => (0x1164056B#32).getLsbD k) ∈ t.out

/-- A nozzle test of channel n could begin now (R388). -/
def State.mayTest (s : State) (n : Fin 16) : Bool :=
  !s.roundPending n && (s.ch n).iso.nozTest.isNone && s.supCapo && s.capoRoom (A.CHn_IMG_BANK n) fun _ => false

/-! ## Faults and the Safety port -/

/-- Every channel in RUN or HELD is held with HCAUSE 2. -/
def allHeld (s t : State) : Prop := ∀ n, s.wstate n = 1 ∨ s.wstate n = 2 → held n 2 t

/-- A command of the Safety port has been executed: counted, its watchdog started again, its reply kept for a repeat (R342, R344). -/
def State.spTaken (s : State) (bs reply : List Byte) : State :=
  { s.bump F.PROT_SPCNT_FRAMES 1 with sp := { s.sp with
      lastTick := s.tick, running := true, sinceExpiry := true, crcRun := 0, last := some (bs.take 12, reply) } }

/-- With the whole of a command's frame, the reply has left in its last 16 bytes. -/
def spSays (bs reply : List Byte) (s t : State) : Prop := bs.length = 36 → t.out = .spReply (reply.take 16) :: s.out

/-! ## Start-up, power and resets -/

/-- No request to switch a domain waits unless one ramps. -/
def State.atRest (s : State) : Bool := s.pwr.ramp.isSome || s.pwr.queue.isEmpty

/-- The flash command has ended with an error code, 0 for none (R376). -/
def nvmEnds (err : Nat) (t : State) : Prop :=
  t.boot.cmd = none ∧ t.flag F.NVM_CMDSTAT_BUSY = false ∧ t.flag F.NVM_CMDSTAT_DONE ∧ t.get F.NVM_CMDSTAT_ERR = err

/-- The flash outside a command's range is as before. -/
def flashBut (k : NvmCmd) (s t : State) : Prop := ∀ a, a < k.addr ∨ k.addr + k.len ≤ a → t.flashByte a = s.flashByte a

/-- Start-up has begun with HOST, FAB, NVM and SUP ON, SYS_BOOTCNT counted and DEV_TIME at 0 (R24, R28, R29). -/
def startsUp (s t : State) : Prop :=
  t.boot.phase = .rom ∧ t.boot.bootCnt = min (s.boot.bootCnt + 1) (2 ^ 32 - 1) ∧ t.devTime = 0 ∧
  t.word A.SYS_DOMSTAT_LO = 0xAA ∧ t.word A.SYS_DOMSTAT_HI = 0 ∧ t.pending = s.pending ∧ t.tick = s.tick

/-- Every channel is halted and the flush has begun for what waits until the journal can be written again (R348). -/
def haltsFor (w : NvWait) (s t : State) : Prop :=
  t.pwr.waits = s.pwr.waits ++ [w] ∧ t.pwr.flush.isSome ∧ allHeld s t ∧ t.boot = s.boot ∧ t.pwr.standby = s.pwr.standby

/-- A function is as after a function-level reset (R29). -/
def fnReset (fn : Fin 2) (t : State) : Prop :=
  t.host.fnMasked.get fn = false ∧ t.host.msixEn.get fn = false ∧ t.host.d3.get fn = false ∧ t.host.cfg.get fn = [] ∧
  t.host.vecMasked.get fn = BitVec.allOnes 512

/-- The reference is lost: every consumer is on its fallback, and a gate that ran gives no result (R18, R249, R405). -/
def refLost (s t : State) : Prop :=
  !t.flag F.SYS_CLKSTAT_REFOK ∧ t.flag F.SYS_CLKSTAT_SHFB ∧
    t.get F.SYS_CLKSTAT_CHFB = 0xFFFF ∧ t.tun.meas.get 1 = none ∧ bumps F.SYS_CLKCNT_REFLOSS 65535 s t ∧ raises 24 s t

/-- The reference is back: the shared consumers return, and each channel waits for its line boundary (R405). -/
def refBack (s t : State) : Prop :=
  t.flag F.SYS_CLKSTAT_REFOK ∧
    !t.flag F.SYS_CLKSTAT_SHFB ∧ t.get F.SYS_CLKSTAT_CHFB = s.get F.SYS_CLKSTAT_CHFB ∧
    (∀ n : Fin 16, s.flag (F.SYS_CLKSTAT_CHFB.bit n) → (t.ch n).iso.switchBack) ∧ raises 25 s t

/-- A device reset has been done: start-up begins anew and SYS_BOOTCNT stays (R29, R374). -/
def deviceStarts (s t : State) : Prop :=
  t.flag F.SYS_RSTCAUSE_DEVRST ∧ t.boot.phase = .rom ∧ t.boot.resetN ∧
    t.boot.bootCnt = s.boot.bootCnt ∧ t.boot.cmd = none ∧ t.word A.SYS_DOMSTAT_LO = 0xAA ∧ t.word A.SYS_DOMSTAT_HI = 0

/-- A request to switch domain d that meets a refusal is recorded with its cause (R399). -/
def domRefused (m : Master) (d : Fin 24) (on : Bool) (s : State) (c : Instr) : Prop :=
  s.domRefusal (m == .pf0) d on ≠ 0 → does c s fun t => t.flag (F.PWR_DOMREF_REF.bit d) ∧
    t.get F.PWR_DOMREF_CAUSE = s.domRefusal (m == .pf0) d on ∧ onlyAt [A.PWR_DOMREF] s t

/-- The device wakes, and the source is recorded (R403). -/
def woken (f : Fld) (s t : State) : Prop := t.flag f ∧ t.pwr.supen ∧ onlyAt [A.PWR_WAKESRC] { s with pwr := t.pwr } t

/-- The ledger of channel n has been flushed, and its completion mark written; its band records stay (R53). -/
def ledgerKept (n : Fin 16) (s t : State) : Prop :=
  t.flag (F.CHn_LED_FLUSH_DONE n) ∧ (t.journal n).flush = some (s.ledPos n, s.ledSince n) ∧
  (t.journal n).recs = (s.journal n).recs

/-- A warning sequence has begun: WARN, the flush, every channel halted (R347). -/
def warns (s t : State) : Prop :=
  t.flag F.PWR_MON_STAT_WARN ∧ t.flag F.PWR_MON_STAT_FLUSHDONE = false ∧ t.pwr.warnTick = s.tick ∧ t.pwr.flush.isSome ∧
  raises 19 s t ∧ allHeld s t

end Sys2Proof.Machine
end

