-- ==== Sys2Proof/Certificates/Slice0/Obligations.lean ====
section
/-! DEFINITION. The statements: each docstring names the rules of spec/ it formalises; OBLIGATIONS.json says each in full.
`does c s P` says that exec c s answers a next state t, and P t; `idles c s` that it answers s itself (Sys2Proof/Safety.lean). -/

section Statements
open Sys2Proof Sys2Proof.Machine

/-- One step runs the front command with the rest of the queue; with none waiting one tick passes (the model's choice, log 1). -/
def Obligations.StepTakesTheFrontCommand : Prop :=
  ∀ s : State,
  (∀ c, step { s with pending := c :: s.pending } = exec c s) ∧
  (s.pending = [] → step s = .next s.passTick)

/-- R28, R31, R56, R305: what the tables give for reset holds at reset, and no command waits. -/
def Obligations.ResetIsAsTheTablesSay : Prop :=
  let s := State.reset
  s.pending = [] ∧ s.out = [] ∧ s.barWf ∧ s.latchWf ∧ (∀ a, s.word a = regReset (a % 0x2000000)) ∧
  (∀ d : Fin 24, s.domState d = (if d.val < 4 then 2 else 0)) ∧
  (∀ n, s.wstate n = 0 ∧ (s.ch n).work.bands = [] ∧ (s.journal n).recs = []) ∧
  (∀ m : Fin 48, !(s.mb m).full ∧ (s.mb m).lock = none) ∧ (∀ e : Fin 512, !s.flag (pendFld e)) ∧
  !s.flag F.FLT_SAFE_ACTIVE ∧ s.flag F.SYS_RSTCAUSE_POR ∧ s.devTime = 0 ∧ s.boot.phase = .rom

/-- Every step keeps both register stores canonical, takes the front of the queue alone, and only an empty queue lets a tick pass. -/
def Obligations.EveryStepKeepsTheStores : Prop :=
  ∀ s t : State, step s = .next t → (s.barWf → t.barWf) ∧ (s.latchWf → t.latchWf) ∧
  (s.pending = [] → t.pending = [] ∧ t.tick = s.tick + 1) ∧ (∀ c r, s.pending = c :: r → t.pending = r ∧ t.tick = s.tick)

/-- A command whose data is well formed and fits what waits for it completes in every state; else it is ill formed; none is refused. -/
def Obligations.EveryCommandCompletes : Prop :=
  ∀ (s : State) c, (c.wf → s.fits c → ∃ t, exec c s = .next t) ∧
  (∀ f, exec c s = .fault f → f = .illFormed ∧ (!c.wf ∨ !s.fits c)) ∧ ∀ r, exec c s ≠ .refused r

/-- R33, R34, R38, R41: the producer index, the fetch at CIDX within the band limits, and the check with its rejection record. -/
def Obligations.DescriptorsEnterInOrder : Prop :=
  ∀ s : State,
  (∀ m (n : Fin 16) v, s.reaches m (A.WRK_SCRn_PIDX n) → does (.pidxWrite m n v) s fun t =>
    t.get (F.WRK_SCRn_PIDX_PIDX n) = v.toNat % 2 ^ 12 ∧ onlyAt [A.WRK_SCRn_PIDX n] s t) ∧
  (∀ n (bs : List Byte), bs.length = 64 → s.mayFetch n → does (.descriptorFetch n bs) s fun t =>
    (if (s.ch n).work.bands.length < 64 ∧ s.bandUse n + (descOf bs).imageSize ≤ bandSpace then
      (t.ch n).work = { (s.ch n).work with fetched := some bs } else t.ch n = s.ch n) ∧ onlyCh n s t) ∧
  (∀ n (bs : List Byte), (s.ch n).work.fetched = some bs →
    (checkDesc (s.journal n) bs = 0 → does (.descriptorCheck n) s fun t =>
      (t.ch n).work = { (s.ch n).work with fetched := none, accepting := some (descOf bs) } ∧ onlyCh n s t) ∧
    (checkDesc (s.journal n) bs ≠ 0 → does (.descriptorCheck n) s fun t => s.cidxMoved t n ∧
      (!s.cmpFull n → (t.ch n).work = { (s.ch n).work with
        fetched := none, due := (s.ch n).work.due ++ [s.rejectRec bs (checkDesc (s.journal n) bs)] }) ∧
      calmBut [A.WRK_SCRn_CIDX n] s t))

/-- R40, R53: a checked descriptor is accepted with its journal record; a failed write is event 2, tried again after 1 ms. -/
def Obligations.AcceptanceIsJournalledFirst : Prop :=
  ∀ s : State,
  (∀ n (d : Desc), (s.ch n).work.accepting = some d → s.nvOk → s.acceptGap n → (s.ch n).work.accFailTick = none →
    does (.bandAccept n) s fun t => (t.journal n).recs.getLast? = some (s.acceptRec n d) ∧ (t.journal n).lastSeq = d.seq ∧
      (t.journal n).openPage = !d.pend ∧ s.cidxMoved t n ∧
      (∃ pg, (t.ch n).work.bands = (s.ch n).work.bands ++ [(s.acceptRec n d).toBand pg]) ∧ (t.ch n).work.accepting = none ∧
      onlyChJnlAt n [A.WRK_SCRn_CIDX n] { s with capo := t.capo } t) ∧
  (∀ n, (s.ch n).work.accepting.isSome → s.nvOk → (s.ch n).work.accFailTick = none → s.domOn 0 →
    does (.jnlWrfail n) s fun t => (t.ch n).work.accFailTick = some s.tick ∧
      (t.ch n).work.accepting = (s.ch n).work.accepting ∧ t.flag (pendFld 2) ∧ calm s t) ∧
  (∀ n (k : Nat), (s.ch n).work.accFailTick = some k → k + msTicks ≤ s.tick → does (.acceptRetry n) s fun t =>
    (t.ch n).work = { (s.ch n).work with accFailTick := none } ∧ onlyCh n s t)

/-- R44, R56, R62, R304: bands load and are released in order; a failed read is logged and tried again after 10 µs. That a band with
a ledger entry is FIRING as it is released is log 165. -/
def Obligations.BandsLoadAndReleaseInOrder : Prop :=
  ∀ s : State,
  (∀ n (b : Band), firstNot Band.isLoaded (s.ch n).work.bands = some b → b.state = .accepted → s.wstate n = 1 →
    s.dmaOk → s.seqWorks n → exec (.bandLoadStart n) s = .next (modBand n b.desc.seq (fun x => { x with state := .loading }) s)) ∧
  (∀ n (b : Band), s.loadingBand n = some b →
    (∀ err got, b.wholeLines got → s.loads n b → does (.imageDmaError n err got) s fun t =>
      t.flag (pendFld 126) ∧ calm (aerSet 0 false (readErrBit err) s) t ∧ (got = [] → 2 ≤ b.fails → s.wstate n = 1 → held n 4 t)) ∧
    (∀ k, b.failTick = some k → k + 10 * usTicks ≤ s.tick → !b.needRefetch →
      exec (.imageDmaRetry n) s = .next (modBand n b.desc.seq (fun x => { x with failTick := none }) s)) ∧
    (∀ got, b.wholeLines got → got.length = b.missing → s.loads n b → s.wstate n = 1 →
      does (.bandLoadComplete n got) s fun t => (t.ch n).work.bands = (s.ch n).work.bands.map (fun x =>
        if x.desc.seq = b.desc.seq then { x with img := x.img ++ got, state := .ready, fails := 0, failed := false } else x) ∧ calm s t)) ∧
  (∀ n (b : Band), firstNot Band.isOut (s.ch n).work.bands = some b → b.state = .ready → s.wstate n = 1 → s.seqWorks n →
    (s.inWindow n ∨ (s.noneMet n ∧ ∀ x ∈ (s.ch n).work.bands, x = b ∨ x.state = .released → !s.begun n x) →
      exec (.bandRelease n) s = .next (modBand n b.desc.seq (fun x => { x with state := .released }) s)) ∧
    (!s.inWindow n → s.begun n b → does (.bandRelease n) s fun t => ∃ x ∈ (t.ch n).work.bands, x.desc = b.desc ∧
      (x.state = .firing ∨ x.state = .done))) ∧
  (∀ n err, s.mayFetch n → does (.screrr n err) s fun t => (t.ch n).work.fetchStop ∧ t.flag (pendFld 126) ∧
    t.flag (pendFld (chEvt n 6)) ∧ held n 7 t ∧ calm (aerSet 0 false (readErrBit err) s) t)

/-- R41, R44, R46, R48, R49, R54, R348: records go out in order, a band RETIRED in the journal first; a head write; a checkpoint slot,
of which a write that is cut off leaves anything (log 174). -/
def Obligations.RecordsAreWrittenInOrder : Prop :=
  ∀ s : State,
  (∀ n (r : DueRec) rest, (s.ch n).work.due = r :: rest → s.canPost n →
    (r.reject → s.sevOf (chEvt n 1) ≤ 1 → does (.rejectionRecordWrite n) s fun t => s.recWritten t n r ∧
      t.flag (pendFld (chEvt n 1)) ∧ (t.ch n).work.due = rest ∧ chBut n s t ∧ t.jnl = s.jnl ∧ calmBut [A.WRK_CMPn_TAIL n] s t) ∧
    (!r.reject → !r.repost → s.nvOk → s.sevOf (chEvt n 0) ≤ 1 → does (.bandRetire n) s fun t =>
      s.recWritten t n r ∧ (t.journal n).recs = (s.journal n).recs.map (fun x => if x.desc.seq = r.seq ∧ x.state ≠ .retired then
        { x with state := .retired, status := r.status, npart := r.npart, nfired := r.nfired, time := r.time, boot := r.boot }
        else x) ∧ (r.irq ∨ r.status ≠ 0 → t.flag (pendFld (chEvt n 0))) ∧ (t.ch n).work.due = rest ∧
      (t.ch n).work.bands = (s.ch n).work.bands.filter (fun b => b.desc.seq != r.seq) ∧ chBut n s t ∧ jnlBut n s t ∧
      quietBut [A.WRK_CMPn_TAIL n] s t)) ∧
  (∀ m (n : Fin 16) v k z, s.reaches m (A.WRK_CMPn_HEAD n) → ((s.ch n).work.due.all fun r => !r.repost) → k = v.toNat % 2 ^ 12 →
    z = ringSize (s.ch n).work.cmpLog → does (.cmpHeadWrite m n v) s fun t => t.get (F.WRK_CMPn_HEAD_HEAD n) = k ∧
      (t.ch n).work = consume ((k + z - s.get (F.WRK_CMPn_HEAD_HEAD n) % z) % z) (s.ch n).work ∧
      onlyChAt n [A.WRK_CMPn_HEAD n] s t) ∧
  (∀ n, (s.wstate n = 1 ∨ s.wstate n = 2) → s.nvOk → s.seqWorks n → (s.ch n).work.ckptTick + msTicks ≤ s.tick →
    does (.checkpoint n) s fun t => (∃ w, (t.journal n).ckpts.getLast? = some w ∧ w.length = 4 ∧
      (!s.slotCut → w = ckptWords (s.ckptNow n))) ∧ (t.ch n).work.ckptTick = s.tick ∧ onlyChJnlAt n [] { s with free := t.free } t)

/-- R56, R58, R62, R157: START, STOP, RESUME, REFIRE and SKIP where they are allowed, each raising HELD where HCAUSE changes; in IDLE all
but START and SETSEQ answer STATE. -/
def Obligations.CommandsStartHoldAndResolve : Prop :=
  ∀ (s : State) m (n : Fin 16), s.commands m n →
  (s.wstate n = 0 → 4 ≤ s.get (F.WRK_SCRn_SIZE_SCR_LOG2 n) → s.get (F.WRK_SCRn_SIZE_SCR_LOG2 n) ≤ 12 →
    4 ≤ s.get (F.WRK_SCRn_SIZE_CMP_LOG2 n) → s.get (F.WRK_SCRn_SIZE_CMP_LOG2 n) ≤ 12 → (s.ch n).work.causes = [] →
    (s.ch n).work.due = [] → s.faultCleared n → does (.cmdStart m n) s fun t => t.cmdDone n ∧
      t.get (F.WRK_SCRn_CIDX_CIDX n) = 0 ∧ (t.ch n).work.cmpBase = s.pair (A.WRK_CMPn_BASE_LO n) (A.WRK_CMPn_BASE_HI n) ∧
      (t.ch n).work.scrLog = s.get (F.WRK_SCRn_SIZE_SCR_LOG2 n) ∧ (s.pageOver n → t.wstate n = 1 ∧
        onlyChAt n [A.WRK_SCRn_STAT n, A.WRK_SCRn_CIDX n, A.CHn_FT_STAT n] { s with capo := t.capo } t)) ∧
  (s.wstate n = 1 → does (.cmdStop m n) s fun t => held n 1 t ∧ t.cmdDone n ∧ calm s t) ∧
  (s.mayResume n → s.sevOf (chEvt n 2) ≤ 1 → s.pendingLine n = none → s.pageOver n → !(s.ch n).ft.armed →
    s.noneMet n ∨ s.inWindow n → ∀ c, c = s.get (F.WRK_SCRn_STAT_HCAUSE n) → does (.cmdResume m n) s fun t =>
      t.wstate n = 1 ∧ t.get (F.WRK_SCRn_STAT_HCAUSE n) = 0 ∧ t.cmdDone n ∧ (t.ch n).work.causes = [] ∧
      (c ≠ 0 → raises (chEvt n 2) s t) ∧ calm { s with capo := t.capo } t ∧ chBut n s t ∧
      (c = 0 → onlyChAt n [A.WRK_SCRn_STAT n, A.CHn_FT_STAT n] { s with capo := t.capo } t)) ∧
  (s.wstate n = 2 → s.sevOf (chEvt n 2) ≤ 1 → ∀ c, s.get (F.WRK_SCRn_STAT_HCAUSE n) = c → (s.ch n).work.causes = [c] →
    let resolved (t : State) : Prop := (t.ch n).work.causes = [] ∧ t.wstate n = 2 ∧ t.get (F.WRK_SCRn_STAT_HCAUSE n) = 0 ∧
      t.cmdDone n ∧ t.flag (pendFld (chEvt n 2))
    (∀ b, c = 3 → s.band? n (s.get (F.CHn_LED_PSEQ_SEQ n)) = some b → b.state = .firing → does (.cmdRefire m n) s fun t =>
      resolved t ∧ (t.ch n).work.refire = some (s.get (F.CHn_LED_PSEQ_SEQ n), s.get (F.CHn_LED_PLINE_LINE n)) ∧
      !t.flag (F.CHn_LED_PLINE_PEND n) ∧ quietBut [] s t ∧ chBut n s t) ∧
    (c = 6 → does (.cmdRefire m n) s fun t => resolved t ∧ t.get (F.CHn_LED_UNC_COUNT n) = 0 ∧ calm s t) ∧
    (c = 3 → s.noneMetAt n (s.skipTo n).1 (s.skipTo n).2 → does (.cmdSkip m n) s fun t => resolved t ∧
      t.get (F.CHn_LED_SEQ_SEQ n) = s.get (F.CHn_LED_PSEQ_SEQ n) ∧ t.get (F.CHn_LED_LINE_LINE n) = s.get (F.CHn_LED_PLINE_LINE n) ∧
      t.get (F.CHn_LED_LINE_STATE n) = 3 ∧ t.get (F.CHn_LED_COUNT_COUNT n) = (s.get (F.CHn_LED_COUNT_COUNT n) + 1) % 2 ^ 32 ∧
      !t.flag (F.CHn_LED_PLINE_PEND n) ∧ calm s t)) ∧
  (s.wstate n = 0 → ∀ c ∈ [Instr.cmdStop m n, .cmdResume m n, .cmdRefire m n, .cmdSkip m n, .cmdAbandon m n, .cmdAbandonAll m n,
    .cmdRefetch m n, .cmdRebase m n], exec c s = .next (s.put (F.WRK_SCRn_STAT_CMDRES n) 1))

/-- R39, R53, R58, R61, R62: ABANDON, ABANDON_ALL, REFETCH, REBASE and SETSEQ where they are allowed and the journal can be written. -/
def Obligations.CommandsGiveUpAndMoveWork : Prop :=
  ∀ (s : State) m (n : Fin 16), s.commands m n → s.nvOk →
  (∀ b (calmly : Prop), s.wstate n = 2 → s.oldestOpen n = some b → !s.cmpFull n →
    calmly = (s.lowestCause n = s.get (F.WRK_SCRn_STAT_HCAUSE n) ∧ 4 ∉ (s.ch n).work.causes ∧ 6 ∉ (s.ch n).work.causes) →
    s.sevOf (chEvt n 2) ≤ 1 ∨ calmly → does (.cmdAbandon m n) s fun t =>
      (∃ b', (t.ch n).work.due = (s.ch n).work.due ++ [Band.record b'] ∧ b'.desc = b.desc ∧ b'.status = 2 ∧
        b'.lastTime = s.devTime ∧ b'.state = .done ∧
        (t.ch n).work.bands = (s.ch n).work.bands.map fun x => if x.desc.seq = b.desc.seq then b' else x) ∧
      (∀ r ∈ (t.journal n).recs, r.desc.seq = b.desc.seq → r.state ≠ .retired → r.state = .done ∧ r.status = 2) ∧
      t.cmdDone n ∧ quietBut [] s t ∧ chBut n s t ∧ jnlBut n s t ∧
      (calmly → onlyChJnlAt n [A.WRK_SCRn_STAT n, A.CHn_FT_STAT n] s t)) ∧
  (s.wstate n = 2 ∨ s.wstate n = 3 → does (.cmdAbandonAll m n) s fun t => t.wstate n = 0 ∧
    t.get (F.WRK_SCRn_STAT_HCAUSE n) = 0 ∧ (s.get (F.WRK_SCRn_STAT_HCAUSE n) ≠ 0 → raises (chEvt n 2) s t) ∧ t.cmdDone n ∧ (t.ch n).work.causes = [] ∧ !(t.journal n).openPage ∧
    !t.flag (F.CHn_LED_PLINE_PEND n) ∧ t.get (F.CHn_LED_UNC_COUNT n) = 0 ∧ quietBut [] s t) ∧
  (s.wstate n = 2 → s.get (F.WRK_SCRn_STAT_HCAUSE n) = 4 → does (.cmdRefetch m n) s fun t =>
    ((t.ch n).work.bands.all fun b => b.state != .loading || (!b.needRefetch && b.failTick.isNone && b.fails == 0)) ∧
    t.cmdDone n ∧ onlyChAt n [A.WRK_SCRn_STAT n] s t) ∧
  (s.wstate n = 3 → s.mayRebase n (s.argSeq n) (s.argAddr n) → does (.cmdRebase m n) s fun t =>
    (∀ x ∈ (t.ch n).work.bands, x.desc.seq = s.argSeq n → x.desc.buf = s.argAddr n) ∧
    (∀ r ∈ (t.journal n).recs, r.desc.seq = s.argSeq n → r.state ≠ .retired → r.desc.buf = s.argAddr n) ∧
    t.cmdDone n ∧ onlyChJnlAt n [A.WRK_SCRn_STAT n] s t) ∧
  (s.wstate n = 0 → (s.ch n).work.bands = [] → does (.cmdSetseq m n) s fun t =>
    (t.journal n).lastSeq = s.argSeq n ∧ !(t.journal n).openPage ∧ t.cmdDone n ∧ onlyChJnlAt n [A.WRK_SCRn_STAT n] s t)

/-- R15, R66, R75, R80, R81, R85, R87: the pipes begin the next line; what words that cannot be corrected bring. -/
def Obligations.ScreeningOfALineBegins : Prop :=
  ∀ s : State,
  (∀ n ce x, s.screenNext n = some x → s.mayScreen n x → (x.2.1 ≠ 0 → (s.ch n).img.started →
      (does (.lineScreen n ce false none) s fun t => (∃ j, (t.ch n).img.job = some j ∧ j.stage = .screened ∧
        j.line.seq = x.1.desc.seq ∧ j.line.line = x.2.1 ∧
        j.line.codes = ((s.imgFor n x.2.2.1).screenLine n (s.ch n).img.scrDir x.2.2.1 x.2.2.2).map (·.1)) ∧
        t.get (F.CHn_IMG_ECC_CE n) = min (s.get (F.CHn_IMG_ECC_CE n) + ce) 65535 ∧ onlyChAt n [A.CHn_IMG_ECC n] s t) ∧
      does (.lineScreen n ce true none) s (imageBad n .screened s) ∧
      ∀ iu m, does (.lineScreen n ce iu (some m)) s (readFails n x.2.2.1 iu m s)) ∧
    (s.opensPage n x → (∀ k, s.dueEntries k (isPart (.ch n 1)) = []) → does (.lineScreen n ce false none) s fun t =>
      (∃ j, (t.ch n).img.job = some j ∧ j.line.back = s.screenDir n x.1 ∧
        j.stage = (if s.readmits n .a || s.readmits n .b then .readmit else .screened)) ∧ (t.ch n).img.begun = x.2.2.1 ∧
      (s.readmits n .a ∨ s.readmits n .b → (t.ch n).img.katPage = some x.2.2.1))) ∧
  (∀ n j, (s.ch n).img.job = some j → j.stage = .refetch → s.dmaOk → (does (.imageRefetchDone n ⟨false, none⟩) s fun t =>
      (t.ch n).img = { (s.ch n).img with job := some { j with stage := j.after } } ∧
      (j.after = .readmit → bumps (F.CHn_IMG_RECOMP_KAT n) 65535 s t) ∧
      onlyChAt n (if j.after = .readmit then [A.CHn_IMG_RECOMP n] else []) s t) ∧
    does (.imageRefetchDone n ⟨true, none⟩) s (imageBad n j.after s) ∧
    (s.wstate n = 1 → ∀ iu m, does (.imageRefetchDone n ⟨iu, some m⟩) s (readFails n j.line.page iu m s))) ∧
  (∀ n ce, s.chOn n →
    (∀ ue : List (Nat × Nat), (ue.all fun x => decide (2 ≤ x.1 ∨ 4 ≤ x.2)) → does (.memScrub n ce ue) s fun t =>
      t.get (F.CHn_IMG_ECC_CE n) = min (s.get (F.CHn_IMG_ECC_CE n) + ce) 65535 ∧
      t.get (F.CHn_IMG_ECC_UE n) = min (s.get (F.CHn_IMG_ECC_UE n) + ue.length) 65535 ∧ onlyAt [A.CHn_IMG_ECC n] s t) ∧
    (∀ b m, b < 2 → m < 4 → s.wstate n = 1 → (s.ch n).img.job = none → does (.memScrub n ce [(b, m)]) s fun t =>
      matrixBad n s t ∧ (b, m) ∈ (t.ch n).img.ueTables))

/-- R74, R76 to R81: what the comparator makes of a line: release, recompute, known-answer test, arbitration, fence, count; the sole pipe
while one is fenced; the test of readmission. That each recompute of a line counts is log 175. -/
def Obligations.ComparatorReleasesOrFences : Prop :=
  ∀ (s : State) n j, (s.ch n).img.job = some j → (∀ e, s.spares n (chEvt n e)) →
  (!s.flag (fenceFld n .a) → !s.flag (fenceFld n .b) →
    (j.stage = .screened → (does (.pipeCompare n [] [] true true 0) s fun t =>
        released n (releasedLine s n j j.line.codes false) s t ∧ onlyCh n s t) ∧
      ∀ fa fb, overlay j.line.codes fa ≠ overlay j.line.codes fb →
        (does (.pipeCompare n fa fb true true 0) s fun t => goesOn n j .recompute s t ∧ raises (chEvt n 8) s t ∧
          bumps (F.CHn_IMG_RECOMP_RECOMP n) 65535 s t) ∧
        does (.pipeCompare n fa fb false true 0) s fun t => t.flag (fenceFld n .a) ∧ !t.flag (fenceFld n .b) ∧
          released n (releasedLine s n j (overlay j.line.codes fb) true) s t ∧ raises (chEvt n 7) s t) ∧
    (j.stage = .screened → ∀ fa fb, overlay j.line.codes fa = overlay j.line.codes fb → ∀ x ∈ [(Pipe.a, false, true), (.b, true, false)],
      does (.pipeCompare n fa fb x.2.1 x.2.2 0) s fun t => released n (releasedLine s n j (overlay j.line.codes fa) true) s t ∧
        bumps (rescntFld n x.1) 15 s t ∧
        t.flag (fenceFld n x.1) = decide (max 1 (s.get (F.CHn_IMG_CTRL_FENCE_LIM n)) ≤ t.get (rescntFld n x.1))) ∧
    (j.stage = .kat → (does (.katDone n true false 0) s fun t => t.flag (fenceFld n .b) ∧
        released n (releasedLine s n j j.outA true) s t) ∧
      does (.katDone n true true 0) s fun t => (t.ch n).img.job = some { j with stage := .arbitrate } ∧
        onlyChAt n [A.CHn_IMG_RECOMP n] s t)) ∧
  (∀ x ∈ [(Pipe.a, Pipe.b), (.b, .a)], s.flag (fenceFld n x.1) → !s.flag (fenceFld n x.2) → j.stage = .screened → ∀ fa fb,
    (does (.pipeCompare n fa fb true true 0) s fun t => onlyCh n s t ∧
      released n (releasedLine s n j (overlay j.line.codes (if x.2 = .a then fa else fb)) true) s t) ∧
    does (.pipeCompare n fa fb false false 0) s fun t => goesOn n j .freshRead s t ∧ bumps (F.CHn_IMG_RECOMP_RECOMP n) 65535 s t) ∧
  (j.stage = .freshRead → s.wstate n = 1 → ∀ fa fb, does (.pipeRecompDone n fa fb false false 0 false none) s fun t =>
    (t.ch n).img = { (s.ch n).img with job := none } ∧ held n 2 t ∧ raises (chEvt n 9) s t ∧ quietBut [] s t) ∧
  (j.stage = .readmit → ∀ okA okB mis, does (.katDone n okA okB mis) s fun t =>
    (t.ch n).img.job = some { j with stage := .screened } ∧ readmitted n .a okA s t ∧ readmitted n .b okB s t) ∧
  (j.stage = .recompute → (does (.pipeRecompDone n [] [] true true 0 false none) s fun t =>
      released n (releasedLine s n j j.line.codes false) s t ∧ onlyCh n s t) ∧
    ∀ fa fb, overlay j.line.codes fa ≠ overlay j.line.codes fb → does (.pipeRecompDone n fa fb true true 0 false none) s
      fun t => goesOn n j .kat s t ∧ bumps (F.CHn_IMG_RECOMP_KAT n) 65535 s t ∧
        onlyChAt n [A.CHn_IMG_RECOMP n] s t) ∧
  (j.stage = .arbitrate → (s.wstate n = 1 → ∀ f mis, does (.arbitrationDone n f false mis false none) s fun t =>
      (t.ch n).img = { (s.ch n).img with job := none } ∧ held n 2 t ∧ raises (chEvt n 9) s t ∧ quietBut [] s t) ∧
    (j.outA = j.line.codes → j.outB = j.line.codes → j.resA → j.resB →
      does (.arbitrationDone n [] true 0 false none) s fun t =>
        released n (releasedLine s n j j.line.codes false) s t ∧ onlyCh n s t)) ∧
  (∀ c : Bool → Option (Fin 4) → Instr,
    ((j.stage = .recompute ∨ j.stage = .freshRead) ∧ c = .pipeRecompDone n [] [] true true 0) ∨
      (j.stage = .arbitrate ∧ c = .arbitrationDone n [] true 0) →
    does (c true none) s (imageBad n j.stage s) ∧
    (s.wstate n = 1 → ∀ iu m, does (c iu (some m)) s (readFails n j.line.page iu m s)))

/-- R76, R80, R82 to R84, R87, R88, R107, R304: readmission requests, residue counts, the words of every table, and a matrix load from GO
to TLOAD; that a held bank is refused before ROWS or a load in progress is looked at is log 138. -/
def Obligations.TablesAndLoadsOfTheImagePath : Prop :=
  ∀ s : State,
  (∀ m (n : Fin 16), s.reaches m (A.CHn_IMG_PIPESTAT n) →
    (s.flag (fenceFld n .a) → does (.readmitRequest m n true false) s fun t =>
      t.flag (readmFld n .a) ∧ onlyAt [A.CHn_IMG_PIPESTAT n] s t) ∧
    does (.rescntClear m n) s fun t => t.get (rescntFld n .a) = 0 ∧ t.get (rescntFld n .b) = 0 ∧
      t.flag (fenceFld n .a) = s.flag (fenceFld n .a) ∧ onlyAt [A.CHn_IMG_PIPESTAT n] s t) ∧
  (∀ m (n : Fin 16) c v, c < 2 → (∀ (x : Nat × Fld × Word), x ∈ imgTableWord n c → s.reaches m x.1 →
      (s.bankHeld n x.2.1 1 c = false → does (.tableWindowWrite m x.1 v) s fun t => t.word x.1 = v &&& x.2.2 ∧
        onlyAt [x.1] s t) ∧
      (s.bankHeld n x.2.1 1 c → does (.tableWindowWrite m x.1 v) s (discards (F.CHn_IMG_STAT_ACTWR n) s))) ∧
    (∀ (x : Nat × Word), x ∈ segTableWord n c → s.reaches m x.1 →
      (s.bankHeld n (F.CHn_WAV_BANK_BANK n) 2 c = false → does (.tableWindowWrite m x.1 v) s fun t =>
        t.word x.1 = v &&& x.2 ∧ onlyAt [x.1] s t) ∧
      (s.bankHeld n (F.CHn_WAV_BANK_BANK n) 2 c → does (.tableWindowWrite m x.1 v) s (discards (F.CHn_WAV_STAT_ACTWR n) s))) ∧
    (∀ i, i < 32 → i % 4 < 3 → ∀ a, a = chBase n + 0xA2000 + 0x100 * c + 4 * i → s.reaches m a →
      (s.bankHeld n (F.CHn_WAV_BANK_BANK n) 2 c = false → does (.tableWindowWrite m a v) s fun t => t.word a = v ∧
        (t.ch n).wav.words = (if (s.ch n).wav.words.contains (c, i) then (s.ch n).wav.words else (s.ch n).wav.words ++ [(c, i)]) ∧
        onlyChAt n [a] s t) ∧
      (s.bankHeld n (F.CHn_WAV_BANK_BANK n) 2 c → does (.tableWindowWrite m a v) s (discards (F.CHn_WAV_STAT_ACTWR n) s)))) ∧
  (∀ m (n : Fin 16) v, s.reaches m (A.CHn_IMG_TLD_CTRL n) → v.getLsbD 31 →
    (s.bankHeld n (F.CHn_IMG_BANK_MTXB n) 1 (v.toNat / 4096 % 2) → does (.tableLoadGo m n v) s fun t =>
      t.get (F.CHn_IMG_TLD_STAT_ERR n) = 1 ∧ (t.ch n).img.load = (s.ch n).img.load) ∧
    (s.bankHeld n (F.CHn_IMG_BANK_MTXB n) 1 (v.toNat / 4096 % 2) = false → (s.ch n).img.load = none → 1 ≤ v.toNat % 1024 →
      v.toNat % 1024 ≤ 512 → does (.tableLoadGo m n v) s fun t => (t.ch n).img.load = some {
        mtx := v.toNat / 1024 % 4, bank := v.toNat / 4096 % 2, rows := v.toNat % 1024, fails := 0, failTick := none } ∧ t.flag (F.CHn_IMG_TLD_STAT_BUSY n) ∧
        t.get (F.CHn_IMG_TLD_STAT_DONE n) = 0 ∧ onlyChAt n [A.CHn_IMG_TLD_CTRL n, A.CHn_IMG_TLD_STAT n] s t)) ∧
  (∀ n l, (s.ch n).img.load = some l →
    (l.failTick = none → s.dmaOk → ∀ err, does (.tableLoadError n err []) s fun t => t.flag (pendFld 126) ∧
      quietBut [A.CHn_IMG_TLD_STAT n] s t ∧
      (l.fails < 2 → (t.ch n).img.load = some { l with fails := l.fails + 1, failTick := some s.tick }) ∧
      (2 ≤ l.fails → (t.ch n).img.load = none ∧ t.get (F.CHn_IMG_TLD_STAT_ERR n) = 3 ∧ t.flag (pendFld (chEvt n 11)))) ∧
    (∀ k, l.failTick = some k → k + 10 * usTicks ≤ s.tick → does (.tableLoadRetry n) s fun t =>
      (t.ch n).img = { (s.ch n).img with load := some { l with failTick := none } } ∧ onlyCh n s t) ∧
    (∀ rows, l.failTick = none → s.dmaOk → wholeRows rows → rows.length = s.rowsLeft n l → does (.tload n rows) s fun t =>
      (t.ch n).img.load = none ∧
      (t.ch n).img.mtx = storeRows l.bank l.mtx (s.get (F.CHn_IMG_TLD_STAT_DONE n)) rows (s.ch n).img.mtx ∧
      (∀ x ∈ (t.ch n).img.badMtx, x.1 ≠ l.bank) ∧ !t.flag (F.CHn_IMG_TLD_STAT_BUSY n) ∧
      t.flag (pendFld (chEvt n 11)) ∧ quietBut [A.CHn_IMG_TLD_STAT n] s t))

/-- R103, R105: the limiter decides the oldest released line within its limits; a counter with a parity error is held at NLIM. -/
def Obligations.DutyLimiterDecidesWithinLimits : Prop :=
  ∀ s : State,
  (∀ n l rest, s.chOn n → (s.ch n).img.released = l :: rest → (s.ch n).dut.dec = none → (s.ch n).ft.decided = [] →
    (∀ k, s.dueEntries k (isDut n) = []) →
    (does (.dutyDecide n []) s fun t => (t.ch n).img = { (s.ch n).img with released := rest } ∧
      (t.ch n).dut = { (s.ch n).dut with dec := some (s.dutyOf n l) } ∧
      (t.ch n).brg = { (s.ch n).brg with sent := false, acked := false, retxed := false } ∧ onlyCh n s t) ∧
    ∀ j, j < 4096 → does (.dutyDecide n [j]) s fun t => t.nozCnt n j = s.get (F.CHn_DUT_NLIM_NLIM n) ∧
      t.flag (F.CHn_DUT_STAT_PERR n) ∧ raises (chEvt n 16) s t ∧ (∃ d, (t.ch n).dut.dec = some d ∧ d.line = l) ∧
      quietBut [dutAddr n j, A.CHn_DUT_STAT n] s t) ∧
  ∀ (n : Fin 16) l, (!s.flag (F.CHn_DUT_CTRL_EN n) → (s.dutyOf n l).out = l.codes) ∧ (s.flag (F.CHn_DUT_CTRL_EN n) →
      lineWeight (s.weight n) (s.dutyOf n l).out 0 ≤ s.get (F.CHn_DUT_HLIM_HLIM n) - s.get (F.CHn_DUT_HCOUNT_HCNT n) ∧
      ((s.dutyOf n l).lvl = 0 → ∀ (j : Nat) (h : j < (s.dutyOf n l).out.length),
        s.weight n (s.dutyOf n l).out[j] ≤ s.get (F.CHn_DUT_NLIM_NLIM n) - s.nozCnt n j))

/-- R97, R143, R146, R148, R178: in the tick its line is reached a ready line is decided; one too early or not acknowledged halts.
That an ACK waiting in the queue is one of the same cycle is log 120. -/
def Obligations.LinesAreDecidedWhenReached : Prop :=
  ∀ (s : State) n (b : Band) (i pg l : Nat), s.pendingLine n = some (b, i, pg, l) → s.booted → s.chOn n → s.wstate n = 1 →
  (s.ch n).ft.armed → (s.ch n).work.decPage = pg → ((s.releasedLines n pg l).any fun x => x.l == l) →
  ((s.ch n).ft.byCount || s.byTime n) →
  (s.earliestFire n ≤ s.tick + 14 + s.fdly n →
    (∀ d q, (s.ch n).dut.dec = some d → d.line.page = pg → d.line.l = l → s.frameAcked n → (s.ch n).ft.decided = [] →
      q = (s.ch n).work.afterLine d.line → q.1 = pg → does (.lineDecide n) s fun t => lineDecided n l pg d q s t) ∧
    (!s.frameAcked n → does (.lineDecide n) s fun t => t.flag (F.CHn_BRG_STAT_LATE n) ∧ held n 2 t ∧
      bumps (F.CHn_BRG_CNT2_LATECNT n) 255 s t ∧ (t.ch n).ft.x = (s.ch n).ft.x ∧ raises (chEvt n 21) s t ∧
      calmBut [A.CHn_BRG_STAT n, A.CHn_BRG_CNT2 n] s t)) ∧
  (s.tick + 14 + s.fdly n < s.earliestFire n → does (.lineDecide n) s fun t => t.flag (F.CHn_WAV_STAT_OVERLAP n) ∧
    held n 2 t ∧ (t.ch n).ft.x = (s.ch n).ft.x ∧ raises (chEvt n 15) s t ∧ calmBut [A.CHn_WAV_STAT n] s t)

/-- R45, R48, R50, R51, R93, R96, R97, R100, R104: the FIRE edge, its ledger entry, frames, window and charge; SEG; the window's end. -/
def Obligations.LinesFireAndWindowsClose : Prop :=
  ∀ s : State,
  (∀ n d, s.booted → (s.ch n).ft.decided = [d] → d.fireTick ≤ s.tick → (∀ k, s.dueEntries k (isDut n) = []) →
    (s.inWindow n ∨ s.noneMet n) →
    (!d.duty.first → does (.lineFire n) s fun t => lineFired n d s t) ∧
    (d.duty.first → s.flag (F.CHn_DUT_CTRL_EN n) → d.duty.nDem = 0 → d.duty.nSup = 0 → d.duty.lvl = 0 →
      d.duty.out.length ≤ 4096 → ((s.ch n).dut.count + 1) % s.nozWin n ≠ 0 → ((s.ch n).dut.count + 1) % s.headWin n ≠ 0 →
      does (.lineFire n) s fun t => t.get (F.CHn_DUT_HCOUNT_HCNT n) =
        min (s.get (F.CHn_DUT_HCOUNT_HCNT n) + lineWeight (s.weight n) d.duty.out 0) (2 ^ 32 - 1) ∧
        ∀ (j : Nat) (h : j < d.duty.out.length), t.nozCnt n j = min 65535 (s.nozCnt n j + s.weight n d.duty.out[j]))) ∧
  (∀ (n : Fin 16) w, (s.ch n).wav.win = some w →
    (∀ k, w.startTicks[w.segDone + 1]? = some k → k + w.segDly ≤ s.tick → does (.segStrobe n) s fun t =>
      t.out = .seg n.val :: s.out ∧ (t.ch n).wav = { (s.ch n).wav with win := some { w with segDone := w.segDone + 1 } } ∧
      onlyCh n { s with out := t.out } t) ∧
    (w.endTick ≤ s.tick → !(s.ch n).brg.offPend → !(s.ch n).brg.hpenHold → s.pwr.flush = none →
      (s.noneMet n → does (.firingWindowEnd n) s fun t => (t.ch n).wav =
        { (s.ch n).wav with win := none, lastFrameEnd := some (w.endTick - w.segDly) } ∧ onlyCh n s t) ∧
      ∀ b ∈ (s.ch n).work.bands, b.state = .firing →
        b.met (s.maxDelay n b.page (s.pageDir n)) (s.ch n).work.firedPage (s.ch n).work.firedL →
        does (.firingWindowEnd n) s fun t => Band.record b ∈ (t.ch n).work.due ∧
          ∀ x ∈ (t.ch n).work.bands, x.desc.seq = b.desc.seq → x.state = .done))

/-- R152, R153, R154, R155, R156: an SOS event arms, misses or is latched; a FOLLOW page arms where X stands; a halt request. -/
def Obligations.PagesArmFromTheirEvents : Prop :=
  ∀ s : State,
  (∀ (i : Fin 8) n, s.sosHeard n i →
    (s.readyToArm n → s.armKind n = some 2 → ∀ x, x = s.sosX n (s.sosCapture n) false →
      (reached (s.linePos n) (pos16 x) = false → s.spares n (chEvt n 2) → does (.sosEvent i n) s fun t =>
        (t.ch n).ft.armed ∧ (t.ch n).ft.x = x ∧ (t.ch n).ft.sosk ∧ (t.ch n).ft.h = s.linePos n ∧
        t.get (F.CHn_FT_LINES_LINES n) = 0 ∧ calmBut [A.CHn_FT_LINES n] { s with chans := s.chans.set n (t.ch n) } t) ∧
      (reached (s.linePos n) (pos16 x) → does (.sosEvent i n) s fun t => (t.ch n).ft.armed = (s.ch n).ft.armed ∧
        bumps (F.CHn_FT_CNT_MISSCNT n) 65535 s t ∧ raises (chEvt n 18) s t ∧ calmBut [A.CHn_FT_CNT n] s t)) ∧
    (s.flag (F.CHn_FT_CTRL_FIRE_EN n) → !(s.ch n).ft.waitMark → s.armKind n = none → does (.sosEvent i n) s fun t =>
      (t.ch n).ft = { (s.ch n).ft with latchSos := some (s.sosCapture n, false), sosTick := some s.tick } ∧ onlyCh n s t)) ∧
  (∀ n b, s.readyToArm n → (∀ k, s.dueEntries k (isPart (.ch n 3)) = []) → s.nextPageBand n = some b →
    s.armKind n = some 0 → does (.pageArm n) s fun t => (t.ch n).ft.armed ∧ (t.ch n).ft.x = (s.ch n).ft.x ∧
      (t.ch n).ft.h = s.q n ∧ t.get (F.CHn_FT_LINES_LINES n) = 0 ∧ quietBut [A.CHn_FT_LINES n] s t) ∧
  (∀ n, s.chOn n → (s.wstate n = 1 → does (.haltRequest n) s fun t => held n 2 t ∧ calm s t) ∧
    (s.wstate n = 0 ∨ s.wstate n = 3 → idles (.haltRequest n) s))

/-- R110, R111, R113, R117: a plain ×4 encoder counts its steps; a double step is a fault, and at FLIM declares the encoder faulty. -/
def Obligations.EncodersCountAndFindFaults : Prop :=
  ∀ (s : State) (e : Fin 4) (a b : Bool), s.bareEnc e (fun _ => false) → s.get (F.POS_ENCe_CFG_FILT e) = 0 → (s.fe fePos e).settled →
  let c : Instr := .encoderTransition e a b (s.fe fePos e).z.acc (1#17 <<< 16)
  let g := s.fe fePos e
  (∀ d : Nat, d < 4 → quadIdx a b = (quadIdx g.a.acc g.b.acc + d) % 4 → d ≠ 2 → does c s fun t =>
    (t.fe fePos e).cnt = g.cnt + (if d = 0 then 0 else if d = 1 ↔ s.flag (F.POS_ENCe_CFG_DIRINV e) = false then 1 else -1) ∧
    (t.fe fePos e).a.acc = a ∧ (t.fe fePos e).b.acc = b ∧
    onlyAt [A.POS_ENCe_PERIOD e, A.POS_ENCe_SPD e] { s with pos := t.pos, free := t.free } t ∧ ∀ i k, (i, k) ≠ (fePos, e) → t.fe i k = s.fe i k) ∧
  (∀ fc : Nat, fc = (if (s.encOf e).winTick + (s.get (F.POS_ENCe_FLT_FWIN e) + 1) * usTicks ≤ s.tick then 0 else g.fc) →
    quadIdx a b = (quadIdx g.a.acc g.b.acc + 2) % 4 →
    (s.get (F.POS_ENCe_FLT_FLIM e) = 0 ∨ fc + 1 < s.get (F.POS_ENCe_FLT_FLIM e) → does c s fun t =>
      (t.fe fePos e).cnt = g.cnt ∧ (t.fe fePos e).fc = fc + 1 ∧ t.flag (F.POS_ENCe_STAT_ILL e) ∧
      bumps (F.POS_ENCe_FCNT_ILLCNT e) 65535 s t ∧ t.get (F.POS_ENCe_STAT_FCOUNT e) = min (fc + 1) 255 ∧
      t.flag (F.POS_ENCe_STAT_FAULT e) = s.flag (F.POS_ENCe_STAT_FAULT e) ∧
      onlyAt [A.POS_ENCe_STAT e, A.POS_ENCe_FCNT e] { s with pos := t.pos } t) ∧
    (fc + 1 = s.get (F.POS_ENCe_FLT_FLIM e) → !s.encFaulty e → s.domOn 0 → does c s fun t =>
      t.flag (F.POS_ENCe_STAT_FAULT e) ∧ (∀ i, (t.fe i e).faulty) ∧ t.flag (pendFld (48 + e.val))))

/-- R111, R117 to R121, R123: a change accepted after FILT, the index capture and check, the fault and speed windows, FAULT cleared. -/
def Obligations.EncoderWindowsAndIndex : Prop :=
  ∀ (s : State) (e : Fin 4),
  (s.bareEnc e (fun _ => false) → (s.fe fePos e).a.acc = false → (s.fe fePos e).a.raw →
    (s.fe fePos e).a.tick + 2 * s.get (F.POS_ENCe_CFG_FILT e) ≤ s.tick → does (.filterAccept e .a .pos) s fun t =>
      (t.fe fePos e).a.acc ∧ (t.fe fePos e).a.tick = s.tick ∧
      (t.fe fePos e).cnt = (s.fe fePos e).cnt + (if (s.fe fePos e).b.acc = s.flag (F.POS_ENCe_CFG_DIRINV e) then 1 else -1) ∧
      onlyAt [A.POS_ENCe_PERIOD e, A.POS_ENCe_SPD e] { s with pos := t.pos, free := t.free } t) ∧
  (s.plainEnc e → (∀ n, (s.fe (feCh n) e).en = false) → (s.fe fePos e).settled → (s.fe fePos e).z.acc = false →
    s.get (F.POS_ENCe_CFG_FILT e) = 0 → !s.flag (F.POS_ENCe_CFG_IDXGATE e) →
    (s.get (F.POS_ENCe_IDXNOM_NOM e) = 0 → does (.indexEvent e) s fun t => t.idxCap e = (s.fe fePos e).cnt ∧
      t.flag (F.POS_ENCe_IDXCAP_HI_VALID e) ∧ (t.fe fePos e).cnt = (s.fe fePos e).cnt ∧
      onlyAt [A.POS_ENCe_IDXCAP_LO e, A.POS_ENCe_IDXCAP_HI e] { s with pos := t.pos } t) ∧
    (∀ d, d = (cntDiff (s.fe fePos e).cnt (s.idxCap e)).natAbs → s.get (F.POS_ENCe_IDXNOM_NOM e) ≠ 0 → (s.encOf e).idxChecked →
      s.get (F.POS_ENCe_IDXCFG_POLICY e) = 0 → s.get (F.POS_ENCe_IDXCFG_TOL e) < d →
      s.get (F.POS_ENCe_IDXCFG_TOL e) < ((d : Int) - s.get (F.POS_ENCe_IDXNOM_NOM e)).natAbs →
      does (.indexEvent e) s fun t => t.flag (F.POS_ENCe_STAT_IDXMIS e) ∧ t.idxCap e = (s.fe fePos e).cnt ∧
        (t.fe fePos e).cnt = (s.fe fePos e).cnt ∧ raises (52 + e.val) s t)) ∧
  ((s.encOf e).winTick + (s.get (F.POS_ENCe_FLT_FWIN e) + 1) * usTicks ≤ s.tick → does (.faultWindowEnd e) s fun t =>
    t.get (F.POS_ENCe_STAT_FCOUNT e) = 0 ∧ (∀ i, t.fe i e = { s.fe i e with fc := 0 }) ∧
    onlyAt [A.POS_ENCe_STAT e] { s with pos := t.pos } t) ∧
  ((s.encOf e).spdTick + (s.get (F.POS_ENCe_SPDCFG_SWIN e) + 1) * usTicks ≤ s.tick → (s.encOf e).edges ≠ 0 →
    does (.speedWindowEnd e) s fun t => t.get (F.POS_ENCe_SPD_EDGES e) = min (s.encOf e).edges 0xFFFFFF ∧
      t.flag (F.POS_ENCe_SPD_DIR e) = (s.encOf e).spdDir ∧ (t.encOf e).edges = 0 ∧
      onlyAt [A.POS_ENCe_SPD e] { s with pos := t.pos } t) ∧
  (∀ m, s.reaches m (A.POS_ENCe_STAT e) →
    ((s.get (F.POS_ENCe_FLT_FLIM e) = 0 ∨ (s.fe fePos e).fc < s.get (F.POS_ENCe_FLT_FLIM e)) → (s.encOf e).pending = false →
      (s.encOf e).xpend = false → does (.encFaultClear m e) s fun t => !t.flag (F.POS_ENCe_STAT_FAULT e) ∧
        (∀ i, (t.fe i e).faulty = false) ∧ (!s.pairEn → onlyAt [A.POS_ENCe_STAT e] { s with pos := t.pos } t)) ∧
    ((s.encOf e).pending ∨ (s.encOf e).xpend → idles (.encFaultClear m e) s))

/-- R125, R126: at a snapshot a tracker within XTOL becomes valid; one that has differed in XPERS of them, alone, fails. -/
def Obligations.TrackersAreCrossChecked : Prop :=
  ∀ (s : State) (e : Fin 4), s.domOn 4 → s.feOn fePos e → (∀ k, k ≠ e → !s.feOn fePos k) →
  ((∀ n, s.trkLive e n → !s.trkOff e n) → does .xcheckSnapshot s fun t =>
    (∀ n, s.trkLive e n → t.fe (feCh n) e = { s.fe (feCh n) e with disagree := 0, valid := true }) ∧
    t = { s with pos := t.pos }) ∧
  (∀ n k : Fin 16, n ≠ k → s.trkLive e n → s.trkLive e k → s.trkOff e n → (∀ j, j ≠ n → s.trkLive e j → !s.trkOff e j) →
    (s.fe (feCh n) e).valid → s.get F.POS_XCFG_XPERS ≤ (s.fe (feCh n) e).disagree + 1 → does .xcheckSnapshot s fun t =>
      (t.fe (feCh n) e).failed ∧ t.flag (F.POS_XSTAT_TRKFAIL.bit n) ∧ (t.fe fePos e).cnt = (s.fe fePos e).cnt ∧ raises 58 s t ∧
      calmBut [A.POS_XSTAT] { s with pos := t.pos } t)

/-- R132, R133, R134, R136, R137: compare values, ARM and DISARM, a count that hits a fret, one count of an emulation output. -/
def Obligations.FretsMatchAndEmulationCounts : Prop :=
  ∀ s : State,
  (∀ m (f : Fin 64) v,
    (s.reaches m (A.POS_FRETf_CMP_LO f) → does (.fretCmpLoWrite m f v) s fun t => t.pos.fretStage.get f = v ∧
      t.fretCmp f = s.fretCmp f ∧ t = { s with pos := t.pos }) ∧
    (s.reaches m (A.POS_FRETf_CMP_HI f) → does (.fretCmpHiWrite m f v) s fun t =>
      t.fretCmp f = BitVec.ofNat 48 ((s.pos.fretStage.get f).toNat + 2 ^ 32 * (v.toNat % 65536)) ∧
      onlyAt [A.POS_FRETf_CMP_LO f, A.POS_FRETf_CMP_HI f] s t) ∧
    (s.reaches m (A.POS_FRETf_CTRL f) → exec (.fretArm m f) s = .next (s.put (F.POS_FRETf_CTRL_ARM f) 1) ∧
      exec (.fretDisarm m f) s = .next (s.put (F.POS_FRETf_CTRL_ARM f) 0))) ∧
  (∀ (e : Fin 4) (f : Fin 64), s.bareEnc e (fun k => k == f.val) → s.get (F.POS_ENCe_CFG_FILT e) = 0 →
    (s.fe fePos e).settled → !s.encFaulty e → s.flag (F.POS_FRETf_CTRL_ARM f) → s.get (F.POS_FRETf_CTRL_SRC f) = e.val →
    s.flag (F.POS_FRETf_CTRL_EVT f) → !s.flag (F.POS_FRETf_CTRL_RELOAD f) → !s.flag (F.POS_FRETf_CTRL_PAGE f) →
    s.get (F.POS_FRETf_CTRL_DIR f) = 0 → !s.flag (F.POS_ENCe_CFG_DIRINV e) → (s.fe fePos e).a.acc = false →
    (s.fe fePos e).b.acc = false → s.fretCmp f = (s.fe fePos e).cnt + 1 →
    does (.encoderTransition e true false (s.fe fePos e).z.acc (1#17 <<< 16)) s fun t => (t.fe fePos e).cnt = s.fretCmp f ∧
      !t.flag (F.POS_FRETf_CTRL_ARM f) ∧
      t.flag (if f.val < 32 then F.POS_FRETHIT_LO_HIT_L.bit f.val else F.POS_FRETHIT_HI_HIT_H.bit (f.val - 32)) ∧ raises 60 s t) ∧
  (∀ (k : Fin 4) b, s.domOn 4 → s.flag (F.POS_EMUm_CFG_EN k) → !s.emuHold k →
    b = s.get (F.POS_EMUm_STAT_BACKLOG k) → b ≠ 0 → (s.emuOf k).lastTick + s.emuGap k ≤ s.tick →
    does (.emuOutputCount k) s fun t =>
      (b < 32768 → t.get (F.POS_EMUm_STAT_BACKLOG k) = b - 1 ∧ .emu k.val (!s.flag (F.POS_EMUm_CFG_DIRINV k)) ∈ t.out) ∧
      (32768 ≤ b → t.get (F.POS_EMUm_STAT_BACKLOG k) = (b + 1) % 65536 ∧ .emu k.val (s.flag (F.POS_EMUm_CFG_DIRINV k)) ∈ t.out) ∧
      (t.emuOf k).lastTick = s.tick ∧ onlyAt [A.POS_EMUm_STAT k] { s with pos := t.pos, out := t.out } t)

/-- R166, R168, R169, R171, R177: with the link UP and free, DATA goes first, then masks, software writes, STAT, and at last IDLE. The
model's choices: when a frame's last bit ends (log 43), all masks of a bank in one CFG frame (log 45). -/
def Obligations.FramesGoOutByPriority : Prop :=
  ∀ (s : State) n, s.mayStart n →
  (∀ d, (s.ch n).dut.dec = some d → s.dataReady n → (∀ k, s.dueEntries k (isPart (.ch n 2)) = []) →
    does (.dataFrameSend n) s fun t =>
      frameSent n 1 (packCodes ((s.get (F.CHn_IMG_GEOM_NNOZ n) + 3) / 4) d.out) [] none s t ∧ (t.ch n).brg.sent ∧
      ∃ f, (t.ch n).brg.outst = some f ∧ f.tab = s.tabOf n d.line.pass ∧ f.mbank = s.get (F.CHn_WAV_BANK_BANK n)) ∧
  (!s.dataReady n → (∀ x rest, (s.ch n).wav.words = x :: rest → does (.cfgFrameSend n) s fun t =>
      frameSent n 2 (cfgPayload (0x80 * x.1 + 4 * ((s.cfgMasks n x).headD x).2) ((s.cfgMasks n x).map (s.maskWord n)))
        (s.cfgMasks n x) none s t ∧ (t.ch n).wav.words = (x :: rest).filter fun y => !(s.cfgMasks n x).contains y) ∧
    (∀ a w, (s.ch n).wav.words = [] → (s.ch n).brg.soft = some (a, w) → does (.cfgFrameSend n) s fun t =>
      frameSent n 2 (cfgPayload a [w]) [] (some (a, w)) s t ∧ (t.ch n).brg.soft = none) ∧
    (!s.cfgDue n → (∀ p, (s.ch n).brg.stat = some p → s.get (F.CHn_FT_STAT_STATE n) ≠ 2 →
        does (.statFrameSend n) s (frameSent n 3 [BitVec.ofNat 8 (p % 16), 0, 0, 0] [] none s)) ∧
      (!s.statDue n → !(s.ch n).brg.offPend → (s.ch n).brg.lastStart + usTicks ≤ s.tick →
        does (.idleFrameSend n) s fun t => (∃ f, f.typ = 0 ∧ f.payload = [] ∧ frameOut n f s t ∧
          (t.ch n).brg = { (s.ch n).brg with
            lastStart := s.tick, busyTill := s.tick + 10, onLanes := (s.tick, frameBytes f false) :: (s.ch n).brg.onLanes.take 1 }) ∧ onlyCh n { s with out := t.out } t)))

/-- R172, R173, R176, R178, R183: an ACK completes, a NAK or 1.0 µs without answer repeats or takes the link down; a STATUS message. The
model's choices: a discarded message breaks the row of TRDY (log 47), the end of a frame (log 43), an ACK in the same cycle (log 120). -/
def Obligations.AnswersCompleteOrRepeatAFrame : Prop :=
  ∀ (s : State) n, (∀ rd syms, s.hears n → retMsg rd syms = none → ∀ c ∈ [Instr.ack n rd syms, .nak n rd syms,
    .statusMessage n rd syms, .trdy n rd syms], exec c s = .next (s.modBrg n fun b => { b with trdy := 0 })) ∧
  (∀ f, (s.ch n).brg.outst = some f → (∀ rd syms, s.hears n →
      (∀ fsn, retMsg rd syms = some [1, fsn, 1] → f.fsn = fsn.toNat → f.typ = 1 → f.masks = [] → f.soft = none →
        does (.ack n rd syms) s fun t => (t.ch n).brg = { (s.ch n).brg with
          outst := none, trdy := 0, acked := (s.ch n).brg.acked || (s.ch n).brg.sent } ∧ t.get (F.CHn_BRG_STAT_FLAGS n) = 1 ∧
          t.flag (F.CHn_BRG_STAT_HVOK n) ∧ onlyChAt n [A.CHn_BRG_STAT n] s t) ∧
      (∀ x fsn, retMsg rd syms = some [x, fsn, 1] → isNak x → f.typ = 1 → f.retx < max 1 (s.get (F.CHn_BRG_CTRL_RETXMAX n)) →
        does (.nak n rd syms) s fun t => sentAgain n f s t ∧ bumps (F.CHn_BRG_CNT1_NAK n) 65535 s t ∧
          quietBut [A.CHn_BRG_STAT n, A.CHn_BRG_CNT1 n] s t) ∧
      (∀ fsn pg, retMsg rd syms = some (3 :: fsn :: 1 :: pg) → pg.length = 16 → f.fsn = fsn.toNat → f.typ = 3 →
        does (.statusMessage n rd syms) s fun t =>
          (∀ w : Fin 4, t.word (A.CHn_BRG_STATPGw n w) = BitVec.ofNat 32 (fieldAt pg (4 * w.val) 4)) ∧
          (t.ch n).brg.outst = none ∧
          (s.linkIsUp n → t.flag (F.CHn_BRG_STATREQ_DONE n) ∧ !t.flag (F.CHn_BRG_STATREQ_BUSY n) ∧ (t.ch n).brg.stat = none) ∧
          (!s.linkIsUp n → t.linkIsUp n ∧ (t.ch n).wav.full = [0, 1] ∧ (t.ch n).wav.words.length = 64) ∧
          t = { s with bar := t.bar, chans := t.chans } ∧ chBut n s t)) ∧
    (s.chOn n → f.endTick + usTicks ≤ s.tick → (s.ackHere n f → idles (.answerTimeout n) s) ∧ (!s.ackHere n f →
      (f.retx < max 1 (s.get (F.CHn_BRG_CTRL_RETXMAX n)) → does (.answerTimeout n) s fun t => sentAgain n f s t ∧
        bumps (F.CHn_BRG_CNT2_TMO n) 65535 s t) ∧
      (max 1 (s.get (F.CHn_BRG_CTRL_RETXMAX n)) ≤ f.retx → s.linkIsUp n → s.wstate n = 1 →
        does (.answerTimeout n) s fun t => linkLost n 1 s t ∧ bumps (F.CHn_BRG_CNT2_TMO n) 65535 s t))))

/-- R181 to R184, R188 to R191: presence, the identity record, training, its timeout, the loss of the lane or the board, retraining. -/
def Obligations.HeadBoardsAreIdentifiedAndTrained : Prop :=
  ∀ (s : State) n, s.chOn n → !(s.ch n).iso.isolated →
  (!s.flag (F.CHn_BRG_STAT_PRES n) → s.flag (F.CHn_BRG_CTRL_LINK_EN n) → does (.headPresent n) s fun t =>
    t.flag (F.CHn_BRG_STAT_PRES n) ∧ t.lstate n = 1 ∧ (t.ch n).brg.i2cTries = 0 ∧ raises (chEvt n 22) s t ∧
    quietBut [A.CHn_BRG_STAT n] s t) ∧
  (s.lstate n = 1 → (∀ rec : List Byte, rec.length = 256 →
      (fieldAt rec 0 4 = 0x44494855 → fieldAt rec 4 1 = 1 → fieldAt rec 252 4 = (crc32 (bytesAt rec 0 252)).toNat →
        fieldAt rec 58 2 = s.get (F.CHn_IMG_GEOM_NNOZ n) → !s.flag (F.CHn_BRG_HEXP_TYPECHK n) →
        does (.identityReadDone n rec) s fun t => identified n rec s t) ∧
      (fieldAt rec 0 4 ≠ 0x44494855 → does (.identityReadDone n rec) s fun t =>
        t.flag (F.CHn_BRG_IDSTAT_IDVALID n) = false ∧ t.flag (F.CHn_BRG_IDSTAT_MAGICERR n) ∧ t.lstate n = 5 ∧
        raises (chEvt n 22) s t)) ∧
    ((s.ch n).brg.i2cTries < 3 → does (.i2cRetry n) s fun t =>
      (t.ch n).brg = { (s.ch n).brg with i2cTries := (s.ch n).brg.i2cTries + 1 } ∧ onlyCh n s t) ∧
    ((s.ch n).brg.i2cTries = 3 → does (.i2cRetry n) s fun t => t.flag (F.CHn_BRG_IDSTAT_I2CERR n) ∧ t.lstate n = 5)) ∧
  (∀ trim : List Byte, trim.length = 8192 → (s.ch n).brg.trimPend → does (.trimReadDone n trim) s fun t =>
    t.flag (F.CHn_BRG_IDSTAT_TRIMVALID n) = ((crc32 (bytesAt trim 0 (2 * getBits (s.word (chBase n + 0x41000 + 4 * 14)) 16
      16))).toNat == (s.word (chBase n + 0x41000 + 4 * 31)).toNat) ∧ !(t.ch n).brg.trimPend ∧
    t = { s with bar := t.bar, chans := t.chans } ∧ chBut n s t) ∧
  (s.lstate n = 2 →
    (∀ rd syms, retMsg rd syms = some [5, 0xFF, 1] → (s.ch n).brg.phase = 1 → does (.trdy n rd syms) s fun t =>
      (t.ch n).brg = { (s.ch n).brg with
        trdy := (s.ch n).brg.trdy + 1, phase := if 3 ≤ (s.ch n).brg.trdy then 2 else 1, phaseTick := s.tick } ∧ onlyChAt n [A.CHn_BRG_STAT n] s t) ∧
    ((s.ch n).brg.phase = 2 → (s.ch n).brg.phaseTick + 10 * usTicks ≤ s.tick → s.lanesFree n →
      does (.trainIdleDone n) s fun t => frameSent n 3 [0, 0, 0, 0] [] none s t ∧ (t.ch n).brg.phase = 3) ∧
    ((s.ch n).brg.trainTick + 5 * msTicks ≤ s.tick → does (.trainTimeout n) s fun t => t.lstate n = 4 ∧
      t.get (F.CHn_BRG_STAT_DCAUSE n) = 3 ∧ (t.ch n).brg.downTick = s.tick ∧
      onlyChAt n [A.CHn_BRG_STAT n, A.CHn_BRG_CNT2 n] s t)) ∧
  (s.lstate n = 4 → s.flag (F.CHn_BRG_CTRL_AUTORT n) → s.flag (F.CHn_BRG_CTRL_LINK_EN n) →
    (s.ch n).brg.downTick + msTicks ≤ s.tick → does (.autoRetrain n) s fun t => t.lstate n = 1 ∧
      onlyChAt n [A.CHn_BRG_STAT n] s t) ∧
  (s.linkIsUp n → s.wstate n = 1 → does (.returnLaneLoss n) s (linkLost n 2 s) ∧
    (s.flag (F.CHn_BRG_STAT_PRES n) → does (.headRemoved n) s fun t => t.lstate n = 0 ∧
      t.get (F.CHn_BRG_STAT_DCAUSE n) = 4 ∧ !t.flag (F.CHn_BRG_STAT_PRES n) ∧ !t.flag (F.CHn_BRG_STAT_HPEN n) ∧
      t.wstate n = 2))

/-- R171, R183, R187: LINK_EN starts the link or takes it OFF at the line boundary; a status page; software writes to the head. -/
def Obligations.SoftwareDrivesTheLink : Prop :=
  ∀ (s : State) m (n : Fin 16) v,
  (s.reaches m (A.CHn_BRG_CTRL n) → (v.getLsbD 0 → s.lstate n = 0 → s.flag (F.CHn_BRG_STAT_PRES n) → !(s.ch n).iso.isolated →
      does (.linkEnWrite m n v) s fun t => t.word (A.CHn_BRG_CTRL n) = v &&& 0x73 ∧ t.lstate n = 1 ∧
        onlyChAt n [A.CHn_BRG_CTRL n, A.CHn_BRG_STAT n] s t) ∧
    (v.getLsbD 0 = false → 1 ≤ s.lstate n → s.sevOf (chEvt n 2) ≤ 1 → does (.linkEnWrite m n v) s fun t =>
      (s.lstate n = 3 → s.wstate n = 1 → t.wstate n = 2) ∧
      (s.atBoundary n → t.lstate n = 0 ∧ t.get (F.CHn_BRG_STAT_DCAUSE n) = 5) ∧
      (!s.atBoundary n → t.lstate n = s.lstate n ∧ (t.ch n).brg.offPend))) ∧
  (s.reaches m (A.CHn_BRG_STATREQ n) → v.getLsbD 31 → !s.flag (F.CHn_BRG_STATREQ_BUSY n) →
    does (.statreqGo m n v) s fun t => (t.ch n).brg = { (s.ch n).brg with stat := some (v.toNat % 16) } ∧
      t.flag (F.CHn_BRG_STATREQ_BUSY n) ∧ t.get (F.CHn_BRG_STATREQ_PAGE n) = v.toNat % 16 ∧
      onlyChAt n [A.CHn_BRG_STATREQ n] s t) ∧
  (s.reaches m (A.CHn_BRG_HCFG_DATA n) →
    (s.flag (F.CHn_BRG_HCFG_STAT_BUSY n) → exec (.hcfgDataWrite m n v) s = .next (s.put (F.CHn_BRG_HCFG_STAT_RES n) 3)) ∧
    (!s.flag (F.CHn_BRG_HCFG_STAT_BUSY n) →
      (s.get (F.CHn_BRG_HCFG_ADDR_ADDR n) < 0x400 → exec (.hcfgDataWrite m n v) s = .next (s.put (F.CHn_BRG_HCFG_STAT_RES n) 2)) ∧
      (0x400 ≤ s.get (F.CHn_BRG_HCFG_ADDR_ADDR n) → s.linkIsUp n → does (.hcfgDataWrite m n v) s fun t => (t.ch n).brg =
        { (s.ch n).brg with soft := some (4 * s.get (F.CHn_BRG_HCFG_ADDR_ADDR n), v) } ∧ t.flag (F.CHn_BRG_HCFG_STAT_BUSY n) ∧
        onlyChAt n [A.CHn_BRG_HCFG_STAT n] s t)))

/-- R195 to R201, R210, R211, R303: slots are allocated and bound; a write is staged or discarded; an unbound one makes its own slot.
That entries of a finished slot count until it is FREE is log 180. -/
def Obligations.WritesAreStagedInSlots : Prop :=
  ∀ s : State,
  (∀ m, s.reads m A.CAPO_ALLOC → (∀ k, s.freeTx = some k → does (.capoAlloc m) s fun t =>
      t.out = .read m A.CAPO_ALLOC (BitVec.ofNat 32 (k.val + 2 ^ 31)) :: s.out ∧ t.txState k = 1 ∧ t.ownsSlot m k ∧
      t.slot k = CapoSlot.reset ∧ t.word (A.CAPO_TXt_CTRL k) = 0 ∧ t.get (F.CAPO_TXt_TMO_VOTETMO k) = 1000 ∧
      t.get (F.CAPO_TXt_TMO_CMTTMO k) = 0 ∧ t = { s with bar := t.bar, capo := t.capo, out := t.out } ∧
      (∀ a, blockOf a ≠ 5 → t.word a = s.word a) ∧ slotsBut k s t ∧ ∀ j, j ≠ k → t.txState j = s.txState j) ∧
    (s.freeTx = none → exec (.capoAlloc m) s = .next (s.emit (.read m A.CAPO_ALLOC 0)))) ∧
  (∀ m v (k : Fin 16), s.reaches m A.CAPO_BIND → v.toNat % 16 = k.val → does (.capoBind m v) s fun t =>
    (t.boundTo m = if v.getLsbD 4 ∧ s.txState k = 1 ∧ s.ownsSlot m k then some k else none) ∧
    onlyAt [bankOf (masterBank m) A.CAPO_BIND] s t) ∧
  ∀ m a (v w : Word), s.stages m a → w = v &&& stMask a → (∀ k, s.boundTo m = some k →
      (s.flag (F.CAPO_TXt_CTRL_CLASS k) ∨ !s.protects a w → s.capoRoom a (· == k) → does (.stagedWrite m a v) s
        fun t => t.slot k = { s.slot k with entries := insertEntry ⟨a, w⟩ (s.slot k).entries } ∧ slotsBut k s t ∧
          t.get (F.CAPO_TXt_STAT_NENT k) = (insertEntry ⟨a, w⟩ (s.slot k).entries).length % 2 ^ 13 ∧
          onlyAt [A.CAPO_TXt_STAT k, A.CAPO_TXt_PART_CH k, A.CAPO_TXt_PART_SYS k] { s with capo := t.capo } t) ∧
      (!s.flag (F.CAPO_TXt_CTRL_CLASS k) → s.protects a w → does (.stagedWrite m a v) s fun t =>
        t.flag F.CAPO_FLAGS_PROTWR ∧ onlyAt [A.CAPO_FLAGS] s t) ∧
      (!s.protects a w → (∃ u, u ≠ k ∧ s.txHolds u a) → does (.stagedWrite m a v) s fun t =>
        t.flag (F.CAPO_TXt_STAT_CONFLICT k) ∧ onlyAt [A.CAPO_TXt_STAT k] s t)) ∧
    (∀ k, s.boundTo m = none → m ≠ .sp → !s.protects a w → s.freeTx = some k → s.capoRoom a (fun _ => false) →
      blockOf a ≠ 5 → ∀ c ∈ [Instr.implicitTransaction m a v, .stagedWrite m a v], does c s fun t =>
        t.txState k = 3 ∧ t.flag (F.CAPO_TXt_STAT_IMPL k) ∧ (t.slot k).entries = [⟨a, w⟩] ∧ (t.slot k).startTick = s.tick ∧
        t.word a = s.word a ∧ t = { s with bar := t.bar, capo := t.capo } ∧ slotsBut k s t)

/-- R195, R203, R204, R209, R210, R212, R213, R352: COMMIT takes a slot to VOTING or PROPOSED; votes arm it; what aborts or frees it. -/
def Obligations.SlotsVoteAndAbort : Prop :=
  ∀ (s : State) k, s.plainTx k →
  (∀ m, s.reaches m (A.CAPO_TXt_CMD k) → s.ownsSlot m k →
    (s.txState k = 1 → !s.txFormat k → !s.txMisclass k → !s.flag (F.CAPO_TXt_STAT_CONFLICT k) → !s.flag (F.CAPO_TXt_STAT_FULL k) →
      (!s.flag (F.CAPO_TXt_CTRL_CLASS k) → does (.capoCommit m k) s fun t => voting k s t) ∧
      (s.flag (F.CAPO_TXt_CTRL_CLASS k) → ((∃ u, s.txState u = 2) →
          exec (.capoCommit m k) s = .next (s.put (F.CAPO_TXt_STAT_CMDREF k) 1)) ∧
        ((∀ u, s.txState u ≠ 2) →
          (s.mayPropose m → does (.capoCommit m k) s fun t => t.txState k = 2 ∧ (t.slot k).startTick = s.tick ∧
            t.pair (A.CAPO_TXt_DIGEST_LO k) (A.CAPO_TXt_DIGEST_HI k) = s.digest k ∧ raises 21 s t) ∧
          (!s.mayPropose m → does (.capoCommit m k) s fun t => keyRefused k s t ∧ raises 65 s t)))) ∧
    (1 ≤ s.txState k → s.txState k ≤ 4 → (s.slot k).cond ≠ some s.tick → (∀ i, s.instant k = some i → s.tick < i) → does (.capoAbort m k) s fun t =>
      aborted k 1 t ∧ raises 65 s t ∧ ∀ a, a < 0x2000000 → quiet a → blockOf a ≠ 5 → t.word a = s.word a) ∧
    (6 ≤ s.txState k → does (.capoRelease m k) s fun t => t.txState k = 0 ∧ t.slot k = CapoSlot.reset ∧ slotsBut k s t ∧
      onlyAt [A.CAPO_TXt_STAT k, A.CAPO_TXt_CTRL k, A.CAPO_TXt_TMO k, A.CAPO_TXt_PART_CH k, A.CAPO_TXt_PART_SYS k,
        A.CAPO_TXt_TIME_LO k, A.CAPO_TXt_TIME_HI k, A.CAPO_TXt_DIGEST_LO k, A.CAPO_TXt_DIGEST_HI k, A.CAPO_TXt_NOVOTE k]
        { s with capo := t.capo } t)) ∧
  (∀ m, s.reaches m (A.CAPO_TXt_CMD k) → !s.ownsSlot m k → ∀ c ∈ [Instr.capoCommit m k, .capoAbort m k,
    .capoRelease m k], exec c s = .next (s.put (F.CAPO_TXt_STAT_CMDREF k) 1)) ∧
  (s.domOn 1 → ∀ p ue, (s.txState k = 3 → p ∈ s.txParts k → p ∉ (s.slot k).voted → s.tick < (s.slot k).startTick + s.voteTicks k →
      (s.voteReason k p ue = 0 → (∀ q ∈ s.txParts k, q = p ∨ q ∈ (s.slot k).voted) → does (.capoVote k p ue) s fun t =>
        armedNow k s t) ∧
      (s.voteReason k p ue = 0 → (∃ q ∈ s.txParts k, q ≠ p ∧ q ∉ (s.slot k).voted) → does (.capoVote k p ue) s fun t =>
        t.slot k = { s.slot k with voted := p :: (s.slot k).voted } ∧ t = { s with capo := t.capo } ∧ slotsBut k s t) ∧
      (s.voteReason k p ue ≠ 0 → does (.capoVote k p ue) s fun t => aborted k 2 t ∧ raises 65 s t ∧
        t.get (F.CAPO_TXt_NOVOTE_PART k) = partCode p % 256 ∧ t.get (F.CAPO_TXt_NOVOTE_REASON k) = s.voteReason k p ue)) ∧
    (s.txState k = 3 ∨ s.txState k = 4 → p ∈ (s.slot k).voted →
      ((s.slot k).cond ≠ some s.tick → (∀ i, s.instant k = some i → s.tick < i) → s.voteReason k p ue ≠ 0 →
        does (.voteWithdraw k p ue) s fun t => aborted k 7 t ∧ t.get (F.CAPO_TXt_NOVOTE_REASON k) = 4 ∧ raises 65 s t) ∧
      (∀ i, s.instant k = some i → i ≤ s.tick → idles (.voteWithdraw k p ue) s)) ∧
    (s.txState k = 3 → (s.slot k).startTick + s.voteTicks k ≤ s.tick → does (.votetmo k) s (aborted k 3)) ∧
    (s.txState k = 4 → s.get (F.CAPO_TXt_TMO_CMTTMO k) ≠ 0 → (s.slot k).cond = none →
      (s.slot k).startTick + s.get (F.CAPO_TXt_TMO_CMTTMO k) * msTicks ≤ s.tick → does (.cmttmo k) s (aborted k 4)))

/-- R205, R206, R207, R214: at its sample 40 ns after the condition a slot commits; what has no later point applies then; the points of the
image path, fire timing, waveforms, duty limits, the emulation outputs (a new SRC with a count of the new source, log 177), motion and the
camera ports. -/
def Obligations.CommittedEntriesApply : Prop :=
  ∀ (s : State) k a w, s.plainTx k → s.ins.rounds = [] → (s.slot k).entries = [⟨a, w⟩] → (s.slot k).applied = [] →
  (∀ u, u ≠ k → s.txState u ≠ 4 ∧ s.txState u ≠ 5) →
  let took (t : State) : Prop := t.txState k = 6 ∧ (t.slot k).applied = [a]
  let taken (t : State) : Prop := took t ∧ t.word a = mergeStaged a (s.word a) w
  (∀ c : Nat, s.domOn 1 → s.txState k = 4 → (s.slot k).cond = some c → instantOf c ≤ s.tick →
    s.get (F.CAPO_TXt_CTRL_COND k) = 0 → s.appliesNow a → does .commitInstant s fun t => took t ∧
      (hasStaged a → [2, 6, 8, 9, 13, 17, 19, 20].contains (blockOf a) → t.word a = mergeStaged a (s.word a) w) ∧
      t.pair (A.CAPO_TXt_TIME_LO k) (A.CAPO_TXt_TIME_HI k) = s.devTimeAt (instantOf c) % 2 ^ 64 ∧ .commit k.val ∈ t.out ∧
      (a = A.PROT_CFG → ∀ x, quiet x → blockOf x ≠ 5 → x ≠ a → t.word x = s.word x)) ∧
  (s.txState k = 5 →
    (∀ n, isPart (.ch n 1) a → s.imgFree n → does (.participantApply k (.ch n 1)) s fun t =>
      taken t ∧ quietBut [a, A.CAPO_TXt_STAT k] s t) ∧
    (∀ n, isPart (.ch n 3) a → s.ftFree n → does (.participantApply k (.ch n 3)) s took) ∧
    (∀ n d, isPart (.ch n 2) a → hasStaged a → s.mayStart n → s.dataReady n → (s.ch n).dut.dec = some d →
      does (.dataFrameSend n) s taken) ∧
    (∀ n l rest, isDut n a → hasStaged a → s.chOn n → (s.ch n).img.released = l :: rest → (s.ch n).dut.dec = none →
      (s.ch n).ft.decided = [] → (s.ch n).dut.count % s.headWin n = 0 → does (.dutyDecide n []) s taken) ∧
    (∀ m (e : Fin 4), isEmu m a → s.singleEnc e → (s.fe fePos e).settled → s.get (F.POS_ENCe_CFG_FILT e) = 0 →
      s.get (F.POS_ENCe_CFG_MODE e) = 2 → s.emuNextSrc m = e.val → (s.fe fePos e).a.acc = false → (s.fe fePos e).b.acc = false →
      does (.encoderTransition e true false (s.fe fePos e).z.acc (1#17 <<< 16)) s took) ∧
    (∀ i, blockOf a = 7 → s.instant k = some i → 4 * (i / 4 + 1) ≤ s.tick → does (.participantApply k (.sys 7)) s took) ∧
    ∀ p, s.camOn → s.insPort p a → hasStaged a → does (.frameEnd p) s taken)

/-- R353: the confirmation banks; the other party's digest within a second takes a slot to VOTING, else it aborts; others are refused. -/
def Obligations.TwoKeysConfirm : Prop :=
  ∀ s : State,
  (∀ m v k, s.confirms m k → (s.txState k = 2 → s.plainTx k → s.isParty m → !s.ownsSlot m k → let b := masterBank m
      let same := (s.word (bankOf b A.PROT_CFM_LO)).toNat + 2 ^ 32 * v.toNat =
        s.pair (A.CAPO_TXt_DIGEST_LO k) (A.CAPO_TXt_DIGEST_HI k)
      (s.tick < (s.slot k).startTick + 1000 * msTicks →
        (same → does (.protCfmHiWrite m v) s fun t => t.txState k = 3 ∧ (t.slot k).startTick = s.tick ∧
          t.get (F.PROT_CFMRES_RES.bank b) = 1 ∧ onlyAt [A.CAPO_TXt_STAT k, bankOf b A.PROT_CFM_HI, bankOf b A.PROT_CFMRES]
            { s with capo := t.capo } t) ∧
        (¬ same → does (.protCfmHiWrite m v) s fun t => keyRefused k s t ∧ t.get (F.PROT_CFMRES_RES.bank b) = 2)) ∧
      ((s.slot k).startTick + 1000 * msTicks ≤ s.tick → does (.protCfmHiWrite m v) s (keyRefused k s))) ∧
    (s.ownsSlot m k ∨ !s.isParty m ∨ s.txState k ≠ 2 → does (.protCfmHiWrite m v) s fun t =>
      t.txState k = s.txState k ∧ t.get (F.PROT_CFMRES_RES.bank (masterBank m)) = 3 ∧
      onlyAt [bankOf (masterBank m) A.PROT_CFM_HI, bankOf (masterBank m) A.PROT_CFMRES] s t)) ∧
  (∀ k, s.txState k = 2 → (∀ u, u ≠ k → s.txState u ≠ 2) → s.plainTx k →
    (s.slot k).startTick + 1000 * msTicks ≤ s.tick → does .confirmTimeout s (keyRefused k s)) ∧
  ∀ m v, (s.reaches m A.PROT_CFMTX → does (.registerWrite m A.PROT_CFMTX v) s fun t =>
      t.get (F.PROT_CFMTX_TX.bank (masterBank m)) = v.toNat % 16 ∧ onlyAt [bankOf (masterBank m) A.PROT_CFMTX] s t) ∧
    (s.reaches m A.PROT_CFM_LO → does (.registerWrite m A.PROT_CFM_LO v) s fun t =>
      t.word (bankOf (masterBank m) A.PROT_CFM_LO) = v ∧ onlyAt [bankOf (masterBank m) A.PROT_CFM_LO] s t)

/-- R215, R217 to R222, R269: FVAL and LVAL, a line taken, cut, dropped or a runt; the frame's end; the pipeline takes a line.
That a frame has the count with itself in it as its number is log 185. -/
def Obligations.CamerasCaptureFramesAndLines : Prop :=
  ∀ s : State,
  (∀ (p : Fin 2), s.camOn → s.flag (F.INS_Pp_CFG_EN p) → !s.inFrame p → does (.frameStart p) s fun t =>
    t.inFrame p ∧ t.get (F.INS_Pp_STAT_FRAMECNT p) = (s.get (F.INS_Pp_STAT_FRAMECNT p) + 1) % 65536 ∧
    frameBegun p s t) ∧
  (∀ p (f : CamFrame), (s.cam p).now = some f → s.capturing p → ((s.cam p).cur = none → ((s.cam p).next < f.height →
        ((s.cam p).fifo.length < 4 → does (.lineStart p) s fun t =>
          t.cam p = { s.camRisen p f with cur := some ((s.cam p).next, s.devTime) } ∧ t = { s with ins := t.ins }) ∧
        (4 ≤ (s.cam p).fifo.length → (s.cam p).raised.contains (73, f.frame) = false → does (.lineStart p) s fun t =>
          bumps (F.INS_Pp_CNT1_DROP p) 65535 s t ∧ (t.cam p).cur = none ∧ (t.cam p).next = (s.cam p).next + 1 ∧ raises 73 s t)) ∧
      (f.height ≤ (s.cam p).next → does (.lineStart p) s fun t => t.flag (F.INS_Pp_STAT_LONG p) ∧ (t.cam p).cur = none ∧
        (t.cam p).fifo = (s.cam p).fifo)) ∧
    (∀ k time cs px, (s.cam p).cur = some (k, time) → px = pixelsOf (getBits (f.word 0) 3 1 == 1) cs →
      (f.width ≤ px.length → !f.bypass → does (.lineEnd p cs) s fun t => lineTaken p f k time px s t) ∧
      (px.length < f.width → does (.lineEnd p cs) s fun t => bumps (F.INS_Pp_CNT1_RUNT p) 65535 s t ∧
        (t.cam p).cur = none ∧ (t.cam p).fifo = (s.cam p).fifo)) ∧
    ((s.cam p).cur = none → f.height ≤ (s.cam p).next → (∀ k, s.dueEntries k (s.insPort p) = []) → does (.frameEnd p) s
      fun t => !t.inFrame p ∧ (∃ g ∈ (t.cam p).frames, g = { f with ended := true }) ∧
        onlyAt [A.INS_Pp_STAT p, A.INS_STAT] { s with ins := t.ins, capo := t.capo } t) ∧
    (f.ftmo ≠ 0 → (s.cam p).startTick + f.ftmo * msTicks ≤ s.tick → does (.frameTimeout p) s fun t =>
      t.flag (F.INS_Pp_STAT_SHORT p) ∧ t.flag (F.INS_Pp_STAT_TMO p) ∧ (t.cam p).waitLow ∧ (t.cam p).cur = none ∧
      ((s.cam p).raised = [] → raises 72 s t))) ∧
  ∀ p l rest (f : CamFrame), s.camOn → s.ins.pipeTill ≤ s.tick → s.arbiter = some p → (s.cam p).fifo = l :: rest →
    (s.cam p).frameOf l.frame = some f → f.point = 0 → does .pipelineTake s fun t => (t.cam p).fifo = rest ∧
      t.ins.pipeTill = s.tick + (f.width + 16) * (if 2 ≤ s.get F.THM_STAT_STEP then 2 else 1) ∧ t.ins.lastB = (p == 1) ∧
      (∃ g ∈ (t.cam p).frames, g.frame = f.frame ∧
        g.seen = f.seen ++ [(l.num, l.time, List.mapIdx (fun x c => s.flatPx p f.bank x c) l.px)]) ∧ t = { s with ins := t.ins }

/-- R224, R228 to R233, R239: arming; the pipeline tables; a completed ladder or density region is analysed once and reported.
That a result counts also where no DMA is possible is log 186. -/
def Obligations.RegionsAreAnalysedOnce : Prop :=
  ∀ s : State,
  (∀ m (p : Fin 2), s.reaches m (A.INS_Pp_ARM p) → exec (.ladArm m p) s = .next (s.put (F.INS_Pp_ARM_LAD p) 1) ∧
    exec (.densArm m p) s = .next (s.put (F.INS_Pp_ARM_DENS p) 1)) ∧
  (∀ m v p b k i, p = s.get F.INS_TBLADDR_PORT → b = s.get F.INS_TBLADDR_BANK → k = s.get F.INS_TBLADDR_TABLE →
    i = s.get F.INS_TBLADDR_INDEX →
    (s.reaches m A.INS_TBLDATA → (i < tblLen k → !s.insBankHeld p b → does (.insTbldataWrite m v) s fun t =>
        t.tbl p b k i = v.toNat % 65536 ∧ t.get F.INS_TBLADDR_INDEX = i + 1 ∧ onlyAt [A.INS_TBLADDR] { s with ins := t.ins } t) ∧
      (s.insBankHeld p b → does (.insTbldataWrite m v) s fun t => t.flag F.INS_STAT_ACTWR ∧ t = { s with bar := t.bar })) ∧
    (s.reads m A.INS_TBLDATA → i < tblLen k → does (.insTbldataRead m) s fun t =>
      t.out = .read m A.INS_TBLDATA (BitVec.ofNat 32 (s.tbl p b k i)) :: s.out ∧ t.get F.INS_TBLADDR_INDEX = i + 1 ∧
      regsBut [A.INS_TBLADDR] s t)) ∧
  ∀ (n : Fin 16) f l, s.domOn 6 →
    (∀ pr, (s.cam 0).ladDue n = some (f, l) → does (.ladderAnalysis n pr) s fun t =>
      ladderAnalysed n f l pr s t) ∧
    ((s.cam 0).densDue n = some (f, l) → s.tunOn 4 = false → !s.flag F.INS_RESBASE_LO_EN →
      does (.densityProfile n) s fun t => (∀ g ∈ (t.cam 0).frames, g.frame = f.frame → n.val ∈ g.densDone) ∧
        t.resCount 1 n = (s.resCount 1 n + 1) % 2 ^ 32 ∧ t = { s with ins := t.ins, free := t.free })

/-- R233, R234, R235, R388: a healing round switches the maps, or skips a channel; a nozzle test's time limit restores the map. That
its settings are those in effect as it runs is log 182. -/
def Obligations.HealingRoundsSwitchMaps : Prop :=
  ∀ (s : State) n k, s.mapSwitch n → s.freeTx = some k →
  (∀ h x plan, s.domOn 6 → s.ins.pend = [h] → s.setReady h → h.chans = [x] → x.n = n.val → (∀ j, (s.ch j).iso.nozTest = none) →
    s.flag (F.INS_LADn_CFG_HEAL n) → !(s.ch n).iso.isolated → s.chOn n → plan = healPlan s n x →
    (!plan.skipped → plan.changed → does .healRound s fun t => roundLaunched n k x s t) ∧
    (plan.skipped → does .healRound s fun t => t.ins.pend = [] ∧ t.ins.rounds = [] ∧ t.ins.better = s.ins.better ∧
      bumps F.INS_HEALCNT_ABORTS 65535 s t ∧ (∀ b j, b < 2 → j < 4096 → t.word (mapAddr n b j) = s.word (mapAddr n b j)) ∧
      t.flag (if n.val < 15 then F.INS_HEAL_SKIPPED.bit n else F.INS_HEALCNT_SKIP15) ∧ raises 77 s t)) ∧
  ∀ x : NozTest, (s.ch n).iso.nozTest = some x → x.stage = 1 → x.till ≤ s.tick → does (.noztestTimeout n) s fun t =>
    (t.ch n).iso.nozTest = some { x with stage := 3 } ∧ t.txState k = 3 ∧
    (t.slot k).entries.map (·.addr) = [A.CHn_IMG_BANK n] ∧
    ∀ j, j < 4096 → t.word (mapAddr n (1 - s.mapBank n) j) = x.saved.getD j (s.mapWord n j)

/-- R244 to R249, R252 to R256: the schedule, a result filed, its application, and the set entries behind TUN_SETDATA. That a cycle is a
tick is log 76, where a temperature's move is measured from log 172. -/
def Obligations.TunerMeasuresFilesAndApplies : Prop :=
  ∀ s : State,
  (∀ (c : Fin 5), (3 ≤ c.val → idles (.tunerSchedule c) s) ∧ ∀ k : Fin 3, c.val = k.val → s.tunOn c →
    s.get F.THM_STAT_STEP < 2 → s.tun.meas.get k = none →
    (∀ u, s.tun.last.get k = some u → u + 10 * msTicks * max 1 (s.get (F.TUN_CFGc_PER c)) ≤ s.tick) →
    (!s.tunSkip c (s.tun.next.get k) → (c.val = 1 → !s.oscInUse (s.tun.next.get k)) →
      does (.tunerSchedule c) s (tunStarted c k s)) ∧
    (s.tunSkip c (s.tun.next.get k) → s.tun.skipTick.get c = none → does (.tunerSchedule c) s fun t =>
      t.flag (F.TUN_STAT_SKIP.bit c) ∧ t.tun.meas.get k = none ∧ t.tun.skipTick.get c = some s.tick ∧ raises 81 s t)) ∧
  (∀ (k : Fin 3) i (temp v : Int) c, s.tun.meas.get k = some i → s.tunOn k → s.tunTemp k i = some temp →
    (s.tunRange k i).1 ≤ v → v ≤ (s.tunRange k i).2 → (∃ raw, k = 0 ∧ c = Instr.tunerMeasureDone 0 raw true ∧
      v = toSigned 16 (ofSigned 16 raw)) ∨ (∃ cnt, k = 1 ∧ c = .oscGateDone cnt ∧ v = s.oscCode i cnt) ∨
      (∃ raw, k = 2 ∧ c = .tunerMeasureDone 2 raw true ∧ v = ofSigned 10 raw) →
    does c s fun t => t.tun.meas.get k = none ∧ filed k i temp (tunWord v) s t ∧ onlyAt [A.TUN_COUNTc k, A.TUN_LASTc_LO k,
      A.TUN_LASTc_HI k, A.TUN_LBOOTc k, A.TUN_STAT] { s with tun := t.tun } t) ∧
  (∀ i raw, s.tun.meas.get 0 = some i → does (.tunerMeasureDone 0 raw false) s fun t =>
    t.tun = { s.tun with meas := s.tun.meas.set 0 none } ∧ t = { s with tun := t.tun }) ∧
  (∀ (c : Fin 5) i w x, s.tun.pend.find? (fun y => y.1 == c.val && y.2.1 == i) = some (c.val, i, w, x) → s.supRuns →
    s.tunReady c i → does (.tunerApply c i) s fun t => tunApplied c i w x s t) ∧
  ∀ m c i k, s.setAddr = some (c, i, k) →
    (∀ v, s.reaches m A.TUN_SETDATA → !s.tunOn c → s.flag F.TUN_SETADDR_AUTOINC → does (.tunSetdataWrite m v) s
      fun t => (if s.wasTouched (setKey c i k) true then t.flag F.TUN_STAT_WRLOST ∧ t.tun = s.tun
          else t.tunEntry c i k = v &&& 0x80FFFFFF) ∧ onlyAt [A.TUN_SETADDR, A.TUN_STAT] { s with tun := t.tun } t ∧
        t.get F.TUN_SETADDR_INST = (if i + 1 < tunInsts c then i + 1 else 0)) ∧
    (s.reads m A.TUN_SETDATA → !s.flag F.TUN_SETADDR_AUTOINC →
      exec (.tunSetdataRead m) s = .next (s.emit (.read m A.TUN_SETDATA (s.tunEntry c i k))))

/-- R99, R100, R107: a frame's peak joins the mean of 2^NAVG; a saturated one is reported; the mean sets the next scale in its limits.
The model's choices: logs 144, 145, 146 (saturation is tested on the samples of the window), 156 (how the mean is cut off). -/
def Obligations.AmplitudeLoopSetsTheScale : Prop :=
  ∀ (s : State) n before adc x rest, (s.ch n).wav.meas = x :: rest → s.chOn n → x.over s.tick → before.length = 16 →
  ((before ++ adc).all (· < 4096)) →
  (!x.clean ∨ x.taken adc = [] → does (.wfbFrameMeasure n before adc) s fun t =>
    (t.ch n).wav = { (s.ch n).wav with meas := rest } ∧ onlyCh n s t) ∧
  (x.clean → x.taken adc ≠ [] →
    ((x.taken adc).contains 4095 → does (.wfbFrameMeasure n before adc) s fun t => t.flag (F.CHn_WAV_STAT_WFBSAT n) ∧
      (t.ch n).wav.peaks = (s.ch n).wav.peaks ∧ raises (chEvt n 14) s t ∧ calmBut [A.CHn_WAV_STAT n] s t) ∧
    ((x.taken adc).contains 4095 = false → ∀ ps pk, ps = (if (s.ch n).wav.peakCfg = x.wfb then (s.ch n).wav.peaks else []) →
      pk = framePeak before (x.taken adc) →
      (ps.length + 1 < 2 ^ min 8 (getBits x.wfb 4 4) → does (.wfbFrameMeasure n before adc) s fun t => (t.ch n).wav =
        { (s.ch n).wav with meas := rest, peaks := pk :: ps, peakCfg := x.wfb } ∧ onlyCh n s t) ∧
      (ps = [] → getBits x.wfb 4 4 = 0 → getBits x.wfb 0 2 = 1 → s.flag (F.CHn_WAV_WFB_LOOP_EN n) →
        s.get (F.CHn_WAV_WFB_SRC n) = 0 → s.supRuns → !s.flag (F.TUN_CFGc_EN 3) → ∀ sc lo hi,
        sc = s.get (F.CHn_WAV_SCALE_SC0 n) → lo = getBits x.lim 0 16 → hi = getBits x.lim 16 16 → lo ≤ hi →
        does (.wfbFrameMeasure n before adc) s fun t => t.get (F.CHn_WAV_WFBPK_PEAK n) = pk % 65536 ∧
          bumps (F.CHn_WAV_WFBPK_UPD n) 65535 s t ∧ t.get (F.CHn_WAV_SCALE_SC0 n) = sc ∧ ∃ v, (t.ch n).wav.newScale = some v ∧
            lo ≤ v ∧ v ≤ hi ∧ (lo ≤ sc → sc ≤ hi → v ≤ sc + getBits x.tgt 16 12 ∧ sc ≤ v + getBits x.tgt 16 12))))

/-- R257 to R262: a lone sensor's temperature from its code; a bad code fails it into fallback; a disabled one rests; FAIL is cleared. -/
def Obligations.SensorsMeasureAndFail : Prop :=
  ∀ (s : State) k, s.lone k (fun _ => false) →
  (∀ code, code < 65536 → !s.flag (F.THM_TSs_CFG_EN k) → idles (.sensorConversion k code) s) ∧
  (∀ code, 0 < code → code < 65535 → s.measures k →
    (!s.flag (F.THM_TSs_CFG_KIND k) → s.get (F.THM_TSs_OFS_SOFS k) = 0 → does (.sensorConversion k code) s fun t =>
      t.getS (F.THM_TSs_VAL_VALUE k) = clampI (-2731) 32766
        (floorDiv ((16 * code : Nat) * s.get (F.THM_TSs_CFG_DGAIN k)) (2 ^ 20) - 2731 + s.getS (F.THM_TSs_OFS_TOFS k))) ∧
    (∀ v, s.thmTemp k code = some v → does (.sensorConversion k code) s fun t => t.getS (F.THM_TSs_VAL_VALUE k) = v ∧
      !t.flag (F.THM_TSs_STAT_SUBST k) ∧ !t.flag (F.THM_TSs_STAT_FAIL k) ∧ (t.sens k).has ∧ (t.sens k).own ∧
      (∀ j, j ≠ k → t.sens j = s.sens j) ∧ onlyAt [A.THM_TSs_VAL k, A.THM_TSs_STAT k] { s with thm := t.thm } t)) ∧
  (∀ code ∈ [0, 65535], s.pwr.mainUp → s.flag (F.THM_TSs_CFG_EN k) → does (.sensorConversion k code) s fun t =>
    t.flag (F.THM_TSs_STAT_FAIL k) ∧ t.flag (F.THM_TSs_STAT_FALLBK k) ∧ t.get (F.THM_TSs_VAL_VALUE k) = 0x7FFF ∧
    (!s.flag (F.THM_TSs_STAT_FAIL k) → raises 91 s t) ∧
    calmBut [A.THM_TSs_VAL k, A.THM_TSs_STAT k] { s with thm := t.thm } t) ∧
  ∀ m v, s.reaches m (A.THM_TSs_STAT k) → s.flag (F.THM_TSs_STAT_FAIL k) → (s.sens k).conv = some v → -32768 ≤ v → v < 32768 →
    (s.xcnt ≤ (s.sens k).agree → does (.sensorFailClear m k) s fun t => !t.flag (F.THM_TSs_STAT_FAIL k) ∧
      !t.flag (F.THM_TSs_STAT_FALLBK k) ∧ t.getS (F.THM_TSs_VAL_VALUE k) = v) ∧
    ((s.sens k).agree < s.xcnt → idles (.sensorFailClear m k) s)

/-- R264, R265: a conversion at or above a head's levels sets LIM, CRIT and WARN, and halts its channel; LIM clears below it less HYS. -/
def Obligations.HeadLevelsHaltTheChannel : Prop :=
  ∀ (s : State) (n : Fin 16),
  (∀ k code v, s.lone k (· == n) → !s.flag (F.TUN_CFGc_EN 3) → !s.flag (F.TUN_CFGc_EN 4) → code < 65536 →
    s.measures k → s.thmTemp k code = some v → does (.sensorConversion k code) s fun t => t.headT n = v ∧
      t.flag (F.THM_CHn_TEMP_VALID n) ∧ (s.getS (F.THM_CHn_LIM0_LIMIT n) ≤ v → !s.flag (F.THM_CHSTAT_LIM.bit n) →
        t.flag (F.THM_CHSTAT_LIM.bit n) ∧ t.get (F.THM_CHn_HTRSTAT_DUTY n) = 0 ∧ raises 89 s t ∧
        (s.wstate n = 1 ∨ s.wstate n = 2 → held n 2 t)) ∧
      (s.getS (F.THM_CHn_LIM1_CRIT n) ≤ v → !s.flag (F.THM_CHSTAT_CRIT.bit n) →
        t.flag (F.THM_CHSTAT_CRIT.bit n) ∧ raises 90 s t) ∧
      (s.getS (F.THM_CHn_LIM0_WARN n) ≤ v → t.flag (F.THM_WARNSTAT_WARN.bit n))) ∧
  ∀ m v, (s.reaches m A.THM_CHSTAT → v.getLsbD n.val → !s.headFb n → s.flag (F.THM_CHn_TEMP_VALID n) →
      does (.thmChstatClear m v) s fun t => t.flag (F.THM_CHSTAT_LIM.bit n) = (s.flag (F.THM_CHSTAT_LIM.bit n) &&
        decide (s.getS (F.THM_CHn_LIM0_LIMIT n) - s.get (F.THM_CHn_LIM1_HYS n) ≤ s.headT n))) ∧
    (!s.reaches m A.THM_CHSTAT → idles (.thmChstatClear m v) s)

/-- R266, R267: a heater update sets a forced duty to 0 and every other by its proportional and integral terms within 0 to DMAX. -/
def Obligations.HeatersAreUpdated : Prop :=
  ∀ s : State, s.sevOf 94 ≤ 1 → does .heaterUpdate s fun t => calm s t ∧ ∀ (n : Fin 16) d e, d = s.get (F.THM_CHn_HTR_DMAX n) →
    e = s.getS (F.THM_CHn_HTR_SET n) - s.headT n →
    (s.heaterForced n → t.get (F.THM_CHn_HTRSTAT_DUTY n) = 0 ∧ t.flag (F.THM_CHn_HTRSTAT_FORCED0 n) ∧ t.thm.integ.get n = 0) ∧
    (!s.heaterForced n → !t.flag (F.THM_CHn_HTRSTAT_FORCED0 n) ∧ t.get (F.THM_CHn_HTRSTAT_DUTY n) ≤ d ∧
      t.thm.integ.get n = clampI 0 (d * 65536) (s.thm.integ.get n + s.get (F.THM_CHn_HTRPI_KI n) * e) ∧
      t.get (F.THM_CHn_HTRSTAT_DUTY n) = (clampI 0 d (floorDiv (s.get (F.THM_CHn_HTRPI_KP n) * e + 128) 256 +
        floorDiv (t.thm.integ.get n) 65536)).toNat)

/-- R259, R270, R271: the orderly shutdown and the die's comparator enter the safe state; SHUT and TRIP clear when cool; table words. -/
def Obligations.ThermalShutdownEntersSafe : Prop :=
  ∀ s : State,
  ((s.pwr.ramp = none → s.pwr.queue = []) →
    (∀ x, s.thm.shutTick = some x → x + 200 * usTicks ≤ s.tick ∨ (∀ n, s.wstate n ≠ 1 ∧ s.atBoundary n) →
      does .thmShut s fun t => shutSafe s t ∧ t.thm.shutTick = none) ∧
    (s.pwr.mainUp → does .dieTrip s fun t => shutSafe s t ∧ t.flag F.THM_STAT_TRIP)) ∧
  (∀ x, s.thm.shutTick = some x → s.tick < x + 200 * usTicks → (∃ n, s.wstate n = 1) → idles .thmShut s) ∧
  (s.thm.shutTick = none → idles .thmShut s) ∧ (!s.pwr.mainUp → idles .dieTrip s) ∧
  ∀ m v, (s.reaches m A.THM_STAT → v.getLsbD 19 → v.getLsbD 20 → v.getLsbD 21 = false →
      (s.getS F.THM_STAT_DIE < s.getS F.THM_DIELIM1_DSHUT - 100 → does (.thmShutClear m v) s fun t =>
        t.flag F.THM_STAT_SHUT = false ∧ !t.flag F.THM_STAT_TRIP ∧ t.thm.shutTick = none ∧
        onlyAt [A.THM_STAT] { s with thm := t.thm } t) ∧
      (s.getS F.THM_DIELIM1_DSHUT - 100 ≤ s.getS F.THM_STAT_DIE → idles (.thmShutClear m v) s)) ∧
    ∀ i, i = s.get F.THM_TBLADDR_INDEX → s.reaches m A.THM_TBLDATA → i ≤ 131 → s.booted →
      does (.thmTbldataWrite m v) s fun t => t.get F.THM_TBLADDR_INDEX = (i + 1) % 256 ∧
        (s.thmTabUsed (i / 33) → t.flag F.THM_STAT_ACTWR ∧ t.thm = s.thm) ∧
        (!s.thmTabUsed (i / 33) → t.thmEntry i = (v.truncate 16 : BitVec 16).toInt ∧
          (∀ j, j ≠ i → t.thmEntry j = s.thmEntry j) ∧ onlyAt [A.THM_TBLADDR] { s with thm := t.thm } t)

/-- R279, R280: in a microsecond an axis in VELOCITY or POSITION moves as its profile says; one that does not run keeps both. -/
def Obligations.ProfilesMoveTheAxes : Prop :=
  ∀ s : State, s.domOn 5 → s.sevOf 100 ≤ 1 → s.motIdle →
  (∀ b, s.axRuns b → s.axMode b ≠ 2 ∧ !s.flag (F.MOT_AXa_CTRL_DRV b)) →
  does .profileTick s fun t => t.tick = s.tick ∧ t.pending = s.pending ∧ ∀ a x v x' v', x = (s.axis a).x → v = (s.axis a).v →
    x' = (t.axis a).x → v' = (t.axis a).v → (!s.axRuns a → x' = x ∧ v' = v) ∧
    ∀ lim amax dmax d : Int, lim = s.get (F.MOT_AXa_VMAX_VMAX a) * 65536 → amax = s.get (F.MOT_AXa_AMAX_AMAX a) →
    dmax = s.get (F.MOT_AXa_DMAX_DMAX a) → d = s.axTgt a * 2 ^ 32 - x → s.axRuns a →
    (s.axMode a = 1 → v' = velTo v (clampI (-lim) lim (s.getS (F.MOT_AXa_VT_VT a) * 65536)) amax dmax ∧
      x' = toSigned 80 (ofSigned 80 (x + v'))) ∧
    (s.axMode a = 0 → (d.natAbs ≤ 2 * dmax → v.natAbs ≤ 2 * dmax → x' = s.axTgt a * 2 ^ 32 ∧ v' = 0) ∧
      (v = 0 → 0 < dmax → 2 * dmax < d.natAbs → v' = d.sign * min amax lim ∧ x' = toSigned 80 (ofSigned 80 (x + v'))))

/-- R282, R284 to R286: a gear follows its master's counts exactly, or faults with it or where it moves too far in a tick (log 183);
step inputs add their microsteps or fault. -/
def Obligations.GearsAndStepInputsMoveTheAxes : Prop :=
  ∀ (s : State) x y den, y = s.axis x → den = s.get (F.MOT_AXa_GDEN_DEN x) → !s.flag (F.MOT_AXa_CTRL_DRV x) →
  (s.axRuns x → s.axMode x = 2 →
    (∀ (n : Int) fast, n = cntDiff (s.gearCount x) y.gearCnt * s.getS (F.MOT_AXa_GNUM_NUM x) + y.r →
      fast = decide (s.get (F.MOT_AXa_VMAX_VMAX x) / 65536 + 1 < (y.xg + floorDiv n den - y.gearTick).natAbs) →
      !s.gearBad x → 0 < den →
      (!fast → does (.gearMasterCount x) s fun t => (t.axis x).xg * den + (t.axis x).r = y.xg * den + n ∧ 0 ≤ (t.axis x).r ∧
        (t.axis x).r < den ∧ (t.axis x).gearCnt = s.gearCount x ∧ (t.axis x).x = y.x ∧ onlyAxis x s t ∧
        regsBut [A.MOT_AXa_STAT x] s t) ∧
      (fast → s.sevOf (96 + x.val) ≤ 1 → does (.gearMasterCount x) s fun t => axFaulted x 3 t ∧ raises (96 + x.val) s t)) ∧
    (s.gearBad x → s.sevOf (96 + x.val) ≤ 1 → does (.gearMasterCount x) s fun t => axFaulted x 4 t ∧ (t.axis x).v = 0 ∧
      raises (96 + x.val) s t)) ∧
  (s.axRuns x → s.axMode x = 3 → (∀ dir,
      ((∀ u, y.siLast = some u → u + 80 ≤ s.tick) → does (.stepInput x dir) s fun t => (t.axis x).xs + (t.axis x).siB =
        y.xs + y.siB + (if dir = s.flag (F.MOT_AXa_SIN_SIDIRINV x) then -1 else 1) * 2 ^ (8 - s.get (F.MOT_AXa_SIN_SIRES x)) ∧
        (!s.flag (F.MOT_AXa_SIN_INTERP x) → (t.axis x).siB = 0) ∧ (t.axis x).siLast = some s.tick ∧ onlyAxis x s t) ∧
      (∀ u, y.siLast = some u → s.tick < u + 80 → s.sevOf (96 + x.val) ≤ 1 → does (.stepInput x dir) s fun t =>
        axFaulted x 5 t ∧ (t.axis x).xs = y.xs ∧ (t.axis x).siB = 0)) ∧
    (∀ u, y.siLast = some u → y.siB ≠ 0 → y.siN - y.siB.natAbs < (s.tick - u) / 4 * y.siN / y.siT →
      does (.stepinInterpolate x) s fun t => (t.axis x).xs = y.xs + y.siB.sign ∧ (t.axis x).siB = y.siB - y.siB.sign ∧
        onlyAxis x s t) ∧
    (y.siB = 0 → idles (.stepinInterpolate x) s)) ∧
  (!s.axRuns x → idles (.stepInput x true) s ∧ idles (.stepinInterpolate x) s)

/-- R291, R292, R295: how DRIVE and DECAY end; eight in a row that cross at TBLANK or time out are faults; the probe moves OFS. -/
def Obligations.ChoppersFollowTheirReference : Prop :=
  ∀ (s : State) x c k cyc tb, k = (s.axis x).coil c → cyc = s.coilCycles x c → tb = s.get (F.MOT_AXa_CHOP_TBLANK x) →
  (!s.chopping x c ∨ cyc < tb → idles (.chopperComparator x c) s) ∧
  (s.chopping x c → (k.drive → (tb < cyc → does (.chopperComparator x c) s fun t => ((t.axis x).coil c).drive = false ∧
        ((t.axis x).coil c).since = s.tick ∧ ((t.axis x).coil c).shortRun = 0 ∧ t = { s with mot := t.mot } ∧ onlyAxis x s t) ∧
      (cyc = tb → k.shortRun = 7 → s.sevOf (96 + x.val) ≤ 1 → does (.chopperComparator x c) s fun t => axFaulted x 2 t ∧
        (t.axis x).off ∧ raises (96 + x.val) s t) ∧
      (cyc < s.get (F.MOT_AXa_CHOP3_TDRVMAX x) → idles (.chopperPhaseTimeout x c) s) ∧
      (s.get (F.MOT_AXa_CHOP3_TDRVMAX x) ≤ cyc →
        (k.openRun < 7 → does (.chopperPhaseTimeout x c) s fun t => ((t.axis x).coil c).drive = false ∧
          ((t.axis x).coil c).openRun = k.openRun + 1 ∧ t = { s with mot := t.mot }) ∧
        (k.openRun = 7 → s.sevOf (96 + x.val) ≤ 1 → does (.chopperPhaseTimeout x c) s (axFaulted x 1)))) ∧
    (!k.drive → (∀ p, s.probeAt x c = some p → p - tb ≤ cyc → cyc ≤ p → idles (.chopperComparator x c) s) ∧ (s.probeAt x c = none → tb ≤ cyc → does (.chopperComparator x c) s fun t => ((t.axis x).coil c).drive ∧
        ((t.axis x).coil c).since = s.tick ∧ ((t.axis x).coil c).prevDecay = some cyc ∧ t = { s with mot := t.mot }) ∧
      (s.get (F.MOT_AXa_CHOP2_TDMAX x) ≤ cyc → does (.chopperPhaseTimeout x c) s fun t => ((t.axis x).coil c).drive ∧
        t = { s with mot := t.mot }) ∧
      (∀ (p : Nat) high (m : Int), s.probeAt x c = some p → !k.probed → m = s.get (F.MOT_AXa_CHOP_OFSMAX x) →
        (p ≤ cyc → does (.chopperProbe x c high) s fun t => ((t.axis x).coil c).probed ∧
          t.getS (ofsFld x c) = clampI (-m) m (s.getS (ofsFld x c) + (if high then -1 else 1)) ∧
          onlyAt [A.MOT_AXa_OFS x] { s with mot := t.mot } t) ∧
        (cyc < p → idles (.chopperProbe x c high) s))))

/-- R288, R293, R294, R296: a queued pulse goes out after the set-up time; standstill; FAULT is cleared; the microstep table. -/
def Obligations.PulsesStandstillAndAxisWrites : Prop :=
  ∀ (s : State) x y, y = s.axis x →
  (∀ q fwd, s.axRuns x → s.flag (F.MOT_AXa_CTRL_DRV x) → !s.flag (F.MOT_AXa_STAT_STAND x) → y.outQ ≠ 0 →
    fwd = decide (0 < y.outQ) → y.outDir = fwd → y.dirTick + 4 * s.get (F.MOT_AXa_SOUT_DIRSU x) ≤ s.tick → y.outTick = none →
    q = y.outQ - y.outQ.sign → does (.stepOutputPulse x) s fun t => (t.axis x).outQ = q ∧
      (t.axis x).outTick = some s.tick ∧ t.get (F.MOT_AXa_STAT_OBACK x) = q.natAbs % 65536 ∧
      t.out = .step x.val (fwd != s.flag (F.MOT_AXa_SOUT_OUTDIRINV x)) :: s.out ∧
      onlyAt [A.MOT_AXa_STAT x] { s with mot := t.mot, out := t.out } t) ∧
  (∀ u, y.outTick = some u → s.tick < u + 8 * max 1 (s.get (F.MOT_AXa_SOUT_SPW x)) → idles (.stepOutputPulse x) s) ∧
  (∀ w, w = s.get (F.MOT_AXa_STAND_TSTAND x) → s.domOn 5 → s.flag (F.MOT_AXa_CTRL_EN x) → 0 < w →
    (y.moveTick + w * msTicks ≤ s.tick → does (.standstill x) s fun t => t.flag (F.MOT_AXa_STAT_STAND x) ∧
      onlyAt [A.MOT_AXa_STAT x] { s with mot := t.mot } t) ∧
    (s.tick < y.moveTick + w * msTicks → idles (.standstill x) s)) ∧
  ∀ m, (s.reaches m (A.MOT_AXa_STAT x) →
      (s.get (F.MOT_AXa_STAT_FCAUSE x) ≠ 4 ∨ !s.gearBad x → does (.axisFaultClear m x) s fun t =>
        t.flag (F.MOT_AXa_STAT_FAULT x) = false ∧ t.get (F.MOT_AXa_STAT_FCAUSE x) = s.get (F.MOT_AXa_STAT_FCAUSE x) ∧
        (∀ c, ((t.axis x).coil c).openRun = 0 ∧ ((t.axis x).coil c).shortRun = 0) ∧ onlyAxis x s t ∧
        regsBut [A.MOT_AXa_STAT x] s t) ∧
      (s.get (F.MOT_AXa_STAT_FCAUSE x) = 4 → s.gearBad x → idles (.axisFaultClear m x) s)) ∧
    ∀ k v, k ≤ 256 → s.reaches m (0x70800 + 4 * k) → s.booted →
      (!s.wtabUsed → does (.wtabWrite m k v) s fun t => t.word (0x70800 + 4 * k) = v &&& 0x1FF ∧
        onlyAt [0x70800 + 4 * k] s t) ∧
      (s.wtabUsed → does (.wtabWrite m k v) s fun t => t.flag F.MOT_STAT_ACTWR ∧ onlyAt [A.MOT_STAT] s t)

/-- R302, R304, R306 to R308, R328, R336: a happening is pending, sent and collected by severity; its bits are cleared; unmasking sends. -/
def Obligations.EventsAreDeliveredAndCollected : Prop :=
  ∀ s : State,
  (s.domOn 0 → (∀ m fn, (m, fn) = (.pf0, 0) ∨ (m, fn) = (.pf1, 1) → does (.bar0BadRequest m) s fun t =>
      .completerAbort ∈ t.out ∧ hostErr (aerSet fn true 13 (aerSet fn false 15 s)) t ∧
      (!s.flag (pendFld 126) → s.flag (F.EVT_ROUTEe_PF0EN 126) → (s.host.held 0 = false →
          bit512 (s.host.vecMasked.get 0) 126 = false → s.host.linkUp → s.host.bme → .msix 0 126 ∈ t.out) ∧
        (s.host.held 0 → s.sevOf 126 ≤ 1 → bit512 (t.host.pba.get 0) 126)) ∧
      (s.domOn 1 → (1 ≤ s.sevOf 126 → t.flag (lineFld 32)) ∧ (s.sevOf 126 = 4 → safeBy F.FLT_SAFE_SEV4 t) ∧
        (s.sevOf 126 = 1 → t.get F.FLT_LOGCNT_COUNT = (s.get F.FLT_LOGCNT_COUNT + 1) % 2 ^ 32 ∧
          t.word (0x20800 + 16 * (s.get F.FLT_LOGCNT_COUNT % 64)) = BitVec.ofNat 32 (126 + 512) ∧
          (!s.flag F.FLT_FIRST_VALID → t.flag F.FLT_FIRST_VALID ∧ t.get F.FLT_FIRST_SRC = 126 ∧
            t.get F.FLT_FIRST_SEV = 1) ∧ (s.flag F.FLT_FIRST_VALID → t.get F.FLT_FIRST_SRC = s.get F.FLT_FIRST_SRC) ∧
          t.chans = s.chans ∧ ∀ a, blockOf a ≠ 1 → blockOf a ≠ 2 → t.word a = s.word a) ∧
        (s.sevOf 126 = 0 → t.word A.FLT_STAT_HI = s.word A.FLT_STAT_HI ∧ t.word A.FLT_FIRST = s.word A.FLT_FIRST))) ∧
    (∀ fn poi rep, does (.hostRequestMalformed fn poi rep) s fun t => (rep → .unsupported ∈ t.out) ∧
      hostErr (aerSet fn false (if poi then 12 else 18) s) t) ∧
    (∀ fn e, does (.correctableError fn e) s (hostErr (aerSet fn true (corErrBit e) s))) ∧
    ∀ fn : Fin 2, s.host.linkUp → s.host.bme → (!s.host.d3.get fn → does (.msixUnmask fn none) s fun t =>
        t.host.held fn = false ∧ t = { s with host := t.host, out := t.out } ∧ keptSent fn s t ∧
        ∀ v, v < 512 → bit512 (s.host.vecMasked.get fn) v → bit512 (t.host.pba.get fn) v = bit512 (s.host.pba.get fn) v) ∧
      (∀ v, v.val < 64 → !s.host.held fn → does (.msixUnmask fn (some v)) s fun t =>
        bit512 (t.host.vecMasked.get fn) v = false ∧ bit512 (t.host.pba.get fn) v = false ∧
        (bit512 (s.host.pba.get fn) v → .msix fn v ∈ t.out) ∧ t = { s with host := t.host, out := t.out })) ∧
  idles (.bar0BadRequest .sup) s ∧
  ∀ m (w : Fin 16) v, (s.reaches m (A.EVT_PENDw w) → does (.evtPendClear m w v) s fun t => onlyAt [A.EVT_PENDw w] s t ∧
      ∀ i, i < 32 → t.flag (pendFld (32 * w.val + i)) = (s.flag (pendFld (32 * w.val + i)) && !v.getLsbD i)) ∧
    (!s.reaches m (A.EVT_PENDw w) → idles (.evtPendClear m w v) s)

/-- R309, R310, R312: what each doorbell of the express page does; a write that finds the queue full is merged, and acts in its turn; the
queue goes ahead of all that is not for it (log 93). -/
def Obligations.ExpressDoorbellsAct : Prop :=
  ∀ s : State, s.domOn 0 →
  (s.expIdle → ∀ v, (∀ x ∈ [(Instr.expStop v, F.WRK_EXP_LATCH_STOPL), (.expInh v, F.WRK_EXP_LATCH_INHL)], does x.1 s fun t =>
      bumps F.WRK_EXP_CNT_NEXP 65535 s t ∧ calmBut [A.WRK_EXP_LATCH, A.WRK_EXP_CNT] s t ∧ ∀ n,
      if v.getLsbD n.val ∧ s.chOn n then t.flag (x.2.bit n) ∧ (s.wstate n = 1 ∨ s.wstate n = 2 → held n 2 t)
      else t.flag (x.2.bit n) = s.flag (x.2.bit n)) ∧
    (does (.expFetch v) s fun t => t.flag F.WRK_CTRL_FETCH_EN = (s.flag F.WRK_CTRL_FETCH_EN && !v.getLsbD 0) ∧
      onlyAt [A.WRK_CTRL, A.WRK_EXP_CNT] s t) ∧
    (does (.expSafe v) s fun t => (v.toNat % 65536 = 0x5AFE → safeBy F.FLT_SAFE_KEY t ∧ calmBut [A.WRK_EXP_CNT] s t) ∧
      (v.toNat % 65536 ≠ 0x5AFE → onlyAt [A.WRK_EXP_CNT] s t)) ∧
    does (.expLatchClear v) s fun t => t.word A.WRK_EXP_LATCH = s.word A.WRK_EXP_LATCH &&& ~~~v ∧
      calmBut [A.WRK_EXP_LATCH, A.WRK_EXP_CNT] s t) ∧
  (∀ r v, (∀ c, s.pending.head? = some c → (expArrive r v s).isExpress c = false) → s.host.expQ.length ≤ 16 →
    does (.expressMerge r v) s fun t => t.expIdle) ∧ (!s.hasMerged → idles .expressMergedApply s) ∧
  (∀ x y q, s.pending = .expressMerge x y :: q → ∀ r v, (s.host.expQ.length < 16 → exec (.expressMerge r v) s = .next { s with
      host := { s.host with expQ := s.host.expQ ++ [.write r v] } }) ∧
    (16 ≤ s.host.expQ.length → does (.expressMerge r v) s fun t => bumps F.WRK_EXP_CNT_NMRG 65535 s t ∧
      (r = .stop → v.toNat % 65536 ≠ 0 → ∃ e, t.host.merge = some e ∧ ∀ n, n < 16 → v.getLsbD n → bitAt e.stop n) ∧
      (r = .safe → v.toNat % 65536 = 0x5AFE → ∃ e, t.host.merge = some e ∧ e.safe) ∧
      (r = .other → s.host.merge = none → t.host.merge = none) ∧
      onlyAt [A.WRK_EXP_CNT] { s with host := { s.host with merge := t.host.merge } } t)) ∧
  ∀ e, s.host.expQ = [.merged e] → s.host.merge = none → does .expressMergedApply s fun t => t.expIdle ∧
    bumps F.WRK_EXP_CNT_NEXP 65535 s t ∧ (∀ n, s.chOn n →
      (bitAt e.stop n.val → t.flag (F.WRK_EXP_LATCH_STOPL.bit n)) ∧ (bitAt e.inh n.val → t.flag (F.WRK_EXP_LATCH_INHL.bit n)) ∧
      (bitAt e.stop n.val ∨ bitAt e.inh n.val → s.wstate n = 1 ∨ s.wstate n = 2 → t.wstate n = 2)) ∧
    (∀ n, bitAt e.stop n = false → bitAt e.clr n → n < 16 → !t.flag (F.WRK_EXP_LATCH_STOPL.bit n)) ∧
    (e.safe → safeBy F.FLT_SAFE_KEY t) ∧
    (e.stop = 0 → e.inh = 0 → !e.safe → e.fetch → !t.flag F.WRK_CTRL_FETCH_EN)

/-- R55, R304, R305: nothing is sent with the link down or BME clear, what was kept goes when both are back; a rejected ring write. The
model's choices: the bits of AER (log 91), that messages are kept and sent (log 92), a link that comes back (log 94). -/
def Obligations.LinkAndHostErrors : Prop :=
  ∀ s : State,
  (does .pcieLinkDown s fun t => t.host = { s.host with linkUp := false } ∧ t = { s with host := t.host }) ∧
  (s.domOn 0 → (!s.host.linkUp → does .pcieLinkUp s fun t => t.host.linkUp ∧ t.host.wasUp ∧
      (s.host.wasUp → t.flag (pendFld 126)) ∧
      (!s.host.wasUp → s.host.bme → ∀ fn, !s.host.held fn → keptSent fn s t)) ∧
    (does (.busMasterEnable false) s fun t => t.host = { s.host with bme := false } ∧ t = { s with host := t.host }) ∧
    (s.host.linkUp → (∀ n, (s.ch n).work.due.all fun r => !r.repost) → does (.busMasterEnable true) s fun t => t.host.bme ∧
      t = { s with host := t.host, out := t.out } ∧ ∀ fn, !s.host.held fn → keptSent fn s t) ∧
    (∀ (n : Fin 16) r, s.host.linkUp → (s.ch n).work.due = [r] → r.repost → (∀ k, k ≠ n → (s.ch k).work.due = []) →
      State.canPost { s with host := { s.host with bme := true } } n → does (.busMasterEnable true) s fun t =>
        s.recWritten t n r ∧ (t.ch n).work.due = [] ∧ t.host.bme) ∧
    (∀ (n : Fin 16) (x : Fin 19) a bs, x.val = n.val → (s.ch n).work.lastRec = some (a, bs) → (s.ch n).work.rewrite = none →
      does (.ringWriteRejected x) s fun t => (t.ch n).work.rewrite = some (a, bs, s.tick) ∧
        hostErr (aerSet 0 false 20 s) t) ∧
    (∀ (p : Fin 2) (x : Fin 19) f, x.val = 16 + p.val → s.domOn 6 → (s.cam p).tapFrame = some f → does (.ringWriteRejected x) s
      fun t => bumps (F.INS_Pp_CNT2_TAPDROP p) 65535 s t ∧ t.flag (pendFld 126) ∧ t.get (F.INS_Pp_TAPTAIL_TAIL p) =
        (s.get (F.INS_Pp_TAPTAIL_TAIL p) + 4095) % 2 ^ s.get (F.INS_Pp_TAPSIZE_LOG2 p) % 2 ^ 12 ∧
        ((s.cam p).raised.contains (75, f) = false → t.flag (pendFld 75)))) ∧
  ∀ n a x bs, (s.ch n).work.rewrite = some (a, bs, x) →
    (s.dmaUp → x + 10 * usTicks ≤ s.tick → ((s.ch n).work.due = [] → does (.completionRewrite n true) s fun t =>
        (t.ch n).work.rewrite = none ∧ t.out = .hostWrite a bs :: s.out ∧ onlyCh n { s with out := t.out } t) ∧
      does (.completionRewrite n false) s fun t => (t.ch n).work.rewrite = some (a, bs, s.tick) ∧
        .hostWrite a bs ∈ t.out ∧ hostErr (aerSet 0 false 20 s) t) ∧
    (s.tick < x + 10 * usTicks → idles (.completionRewrite n true) s)

/-- R314 to R317, R319, R320, R323: sends of the host and from inside, their release, the acknowledgement window, and the legacy lock. The
model's choices: a send to a supervisor that is OFF finds the mailbox FULL until it runs (log 97), any reply ends a wait (log 152). -/
def Obligations.MessagesAndLocksOfMailboxes : Prop :=
  ∀ (s : State) p m, (isHostPort p → idles (.mbxSendInternal p m) s) ∧
  (isHostPort p = false → exec (.mbxSend p m) s = .next (s.emit (.mbxRead p m.val 0))) ∧
  (s.domOn 0 → (isHostPort p → (s.accepts p m → does (.mbxSend p m) s (hostSent p m s)) ∧
      (s.sendRes m p = 0 → mbxReceiver m = .sup → s.domOn 3 = false → (s.pwr.ramp = none → s.pwr.queue = []) →
        does (.mbxSend p m) s fun t => delivered m p s t ∧ (t.mb m).waiting ∧ t.flag (pendFld 124)) ∧
      (s.sendRes m p ≠ 0 → exec (.mbxSend p m) s = .next (s.emit (.mbxRead p m.val (BitVec.ofNat 32 (s.sendRes m p)))))) ∧
    (isHostPort p = false → s.portRuns p →
      (s.sendRes m p = 0 → does (.mbxSendInternal p m) s (sentInside p m ((s.bankMsg m p).getD 0 0) s)) ∧
      (s.sendRes m p ≠ 0 → exec (.mbxSendInternal p m) s = .next (s.emit (.busError p)))) ∧
    (p ≠ mbxReceiver m → idles (.mbxRelease p m) s) ∧
    (p = mbxReceiver m → (s.mb m).full → s.boot.rstDue = none →
      ((s.mb m).held = [] → does (.mbxRelease p m) s fun t => t.mb m = { s.mb m with full := false } ∧ onlyMb m s t) ∧
      ∀ msg rest, (s.mb m).held = msg :: rest → (s.mb m).src.isSome → does (.mbxRelease p m) s fun t =>
        (t.mb m).full ∧ (t.mb m).msg = msg ∧ (t.mb m).held = rest) ∧
    (∀ v, v = s.view m p → v.ackWait → v.window ≠ 0 →
      (v.sendTick + v.window ≤ s.tick → does (.mbxAcktmo p m) s fun t => (t.view m p).ackTmo ∧ t.flag (pendFld 103) ∧
        calmMbx s t ∧ mbxBut m s t) ∧
      (s.tick < v.sendTick + v.window → idles (.mbxAcktmo p m) s)) ∧
    (hasLock m → (mbxSender m p → (s.mb m).lock = none → does (.mbxLockRead p m) s fun t => (t.mb m).lock = some p ∧
        t.out = .mbxRead p m.val 0 :: s.out ∧ onlyMb m { s with out := t.out } t) ∧
      ∀ q, (s.mb m).lock = some q → q ≠ p →
        exec (.mbxLockRead p m) s = .next (s.emit (.mbxRead p m.val (BitVec.ofNat 32 (portNo q))))) ∧
    ((s.mb m).lock ≠ some p → idles (.mbxLockRelease p m) s ∧ idles (.mbxGo p m) s) ∧
    ((s.mb m).lock = some p → (does (.mbxLockRelease p m) s fun t => t.mb m = { s.mb m with lock := none } ∧ onlyMb m s t) ∧
      ((s.mb m).full → does (.mbxGo p m) s fun t => (t.view m p).ovr ∧ (t.mb m).lock = some p ∧
        (t.mb m).msg = (s.mb m).msg ∧ t = { s with mbx := t.mbx }) ∧
      (!(s.mb m).full → !s.rxReset m → mbxReceiver m ≠ .sup ∨ s.domOn 3 → does (.mbxGo p m) s fun t =>
        delivered m p s t ∧ (t.mb m).lock = none)))

/-- R325: what PING, BANDREC, CHKPT, BANDSTATE, BANDLIST, SLOTINFO, TESTSTAT and an unlisted code are answered; only mailboxes change. The
model's choices: words 4 and 5 of SLOTINFO are bytes 48 to 55 (log 64), NPART of BANDREC stays at 65,535 (log 135). -/
def Obligations.InquiriesAreAnswered : Prop :=
  ∀ (s : State) m q r,
  (s.asked m q 0x01 r →
    (∀ n, mbxReceiver m = .seq n → answers (.ping m) s m r 0 [Config.fwVersion, liveWord .sup (A.WRK_SCRn_STAT n) s]) ∧
    (mbxReceiver m = .sup → s.booted → answers (.ping m) s m r 0 [Config.fwVersion, numWord s.boot.bootCnt,
      if s.boot.slot = .b then 1 else 0])) ∧
  (s.asked m q 0x10 r → (15 < s.reqWord m 1 → answers (.bandrec m) s m r 3 []) ∧ ∀ n, chOf (s.reqWord m 1) = some n →
    ((∀ x ∈ (s.journal n).recs, x.desc.seq ≠ s.reqWord m 2) → answers (.bandrec m) s m r 4 []) ∧
    ∀ x, (s.journal n).recs.reverse.find? (fun x => x.desc.seq == s.reqWord m 2) = some x → s.band? n x.desc.seq = none →
      answers (.bandrec m) s m r 0 ([numWord x.desc.seq, numWord (bandCode x.state), numWord (x.status + 65536 *
        min x.npart 65535), numWord x.nfired] ++ words64 x.accTime ++ [numWord x.accBoot] ++ words64 x.desc.buf ++
        words64 x.desc.tag)) ∧
  (s.asked m q 0x11 r → ∀ n c, chOf (s.reqWord m 1) = some n → (s.journal n).ckpt = some c → answers (.chkpt m) s m r 0
    ([numWord c.pos.seq, numWord c.pos.line, numWord c.ackSeq] ++ words64 c.time ++ [numWord c.boot, numWord c.nrate])) ∧
  (s.asked m .pf0 0x60 r → ∀ n : Fin 16, m.val = n.val → (s.band? n (s.reqWord m 1) = none → answers (.bandstate m) s m r 4 []) ∧
    ∀ b, s.band? n (s.reqWord m 1) = some b → answers (.bandstate m) s m r 0 [numWord (bandCode b.state), numWord b.fired]) ∧
  (s.asked m .pf0 0x61 r → ∀ n : Fin 16, m.val = n.val → answers (.bandlist m) s m r 0 (numWord (s.ch n).work.bands.length ::
    ((s.ch n).work.bands.take 14).map fun b => numWord b.desc.seq)) ∧
  (s.asked m q 0x50 r → (1 < s.reqWord m 1 → answers (.slotinfo m) s m r 3 []) ∧ ∀ sl h, h = s.hdr sl →
    s.reqWord m 1 = (if sl = .b then 1 else 0) → s.hdrCause sl ≠ 0 → answers (.slotinfo m) s m r 0
      [0, numWord (hdrVersion h), numWord (hdrIlen h), numWord (fieldAt h 48 4), numWord (fieldAt h 52 4)]) ∧
  (s.asked m q 0x9F r → ∀ n i, chOf (s.reqWord m 1) = some n → i = (s.ch n).iso → answers (.teststat m) s m r 0
    ([numWord (b2n i.isolated + 2 * b2n i.loaded + 4 * b2n i.nozTest.isSome + 8 * b2n i.memLost), numWord i.bistPass,
      numWord i.bistFail, numWord i.bistBoot] ++ words64 i.bistTime)) ∧
  (s.serves m → (s.mb m).src = some q → (s.codes m).contains (hdrCode (BitVec.ofNat 32 (s.reqWord m 0))) = false →
    (s.mb m).held = [] → mbxOf (returnBox m.val q) = some r → !(s.mb r).full →
    answers (.unknownCode m) s m r 1 []) ∧
  (!s.serves m → idles (.ping m) s ∧ idles (.unknownCode m) s)

/-- R324, R325, R378 to R390, R425: each service acts for PF0 alone and answers what it did; BSCAN releases the TAP with its IDCODE. The
model's choices: single steps and their interruption (log 108), the order of the codes (109), the tester (110), untrained memory (173). -/
def Obligations.ServicesActAndAnswer : Prop :=
  ∀ (s : State) m r,
  (s.asked m .pf1 0x90 r → answers (.chisol m) s m r 2 []) ∧
  (s.asked m .pf0 0x40 r → (s.reqWord m 1 ≠ 0x5E57 → answers (.suprst m) s m r 3 []) ∧ (s.reqWord m 1 = 0x5E57 →
    does (.suprst m) s fun t => s.replied t m r 0 [] ∧ !t.boot.supUp ∧ t.flag F.SYS_RSTCAUSE_SUPRST)) ∧
  (∀ msg, s.domOn 0 → mbxReceiver m = .pf0 → (s.mb m).full → (s.mb m).src.isSome → (s.mb m).held = [msg] →
    s.boot.rstDue = some (m.val, 1) → does (.mbxRelease .pf0 m) s fun t => (t.mb m).msg = msg ∧ !t.boot.supUp) ∧
  (s.asked m .pf0 0x20 r → ∀ raw c i, c = s.reqWord m 1 → i = s.reqWord m 2 →
    (2 < c ∨ tunInsts c ≤ i → answers (.tunnow m raw true) s m r 3 []) ∧
    (c ≤ 2 → i < tunInsts c → answers (.tunnow m raw false) s m r 5 [] ∧ ∀ v, c = 2 → !s.tunSkip c i →
      s.tunTemp c i = some v → does (.tunnow m raw true) s fun t =>
        s.replied t m r 0 [numWord (ofSigned 32 (ofSigned 10 raw : Nat)), numWord (ofSigned 32 v)])) ∧
  (∀ n i, chOf (s.reqWord m 1) = some n → i = (s.ch n).iso →
    (s.asked m .pf0 0x90 r → (i.isolated → answers (.chisol m) s m r 0 [numWord i.stateWas]) ∧
      (!i.isolated → (s.wstate n = 1 → answers (.chisol m) s m r 6 []) ∧ (s.wstate n ≠ 1 →
        (s.capoBusy n → !s.isolWaited m → idles (.chisol m) s) ∧ (!s.capoBusy n → does (.chisol m) s fun t =>
          s.replied t m r 0 [numWord (s.wstate n)] ∧ (t.ch n).iso.isolated ∧ (t.ch n).iso.stateWas = s.wstate n)))) ∧
    (s.asked m .pf0 0x91 r → ∀ res, (s.cutShort → i.isolated → s.chOn n → bitAt (s.reqWord m 2) 1 → does (.chbist m res) s
        fun t => (t.mb m).full ∧ (t.ch n).iso.memLost ∧ !(t.ch n).iso.loaded) ∧
      (!s.cutShort → (!i.isolated → answers (.chbist m res) s m r 6 []) ∧
        (i.isolated → s.chOn n → s.reqWord m 2 % 64 = 1 → res % 2 = 1 → does (.chbist m res) s fun t =>
          (∃ v, s.replied t m r 0 [1, 0, v]) ∧ (t.ch n).iso.bistPass = 1 ∧ (t.ch n).iso.bistFail = 0 ∧
          (t.ch n).iso.bistTime = s.devTime))) ∧
    (s.asked m .pf0 0x92 r → s.pwr.ramp = none → s.pwr.queue = [] → ∀ up tr,
      (!i.isolated → s.reqWord m 2 ≤ 1 → answers (.chpower m up tr) s m r 6 []) ∧
      (i.isolated → (s.reqWord m 2 = 0 → (s.chOn n → does (.chpower m up tr) s fun t =>
            s.replied t m r 0 [0] ∧ t.domState (8 + n.val) = 0) ∧
          (!s.chOn n → answers (.chpower m up tr) s m r 0 [numWord (s.domState (8 + n.val))])) ∧
        (s.reqWord m 2 = 1 → (s.chOn n → !i.untrained → answers (.chpower m up tr) s m r 0 [2]) ∧
          (!s.chOn n → !s.heldOff (8 + n.val) → (∀ x ∈ i.kept, x.1 ∈ keptRegs n) → ∀ x ∈ [(true, true, 0, 2, [2]),
            (true, false, 5, 2, []), (false, tr, 5, 3, [])], does (.chpower m x.1 x.2.1) s fun t =>
              s.replied t m r x.2.2.1 x.2.2.2.2 ∧ t.domState (8 + n.val) = x.2.2.2.1 ∧
              (x.1 → (t.ch n).iso.untrained = !x.2.1))))) ∧
    (s.asked m .pf0 0x93 r → ∀ sl, s.reqWord m 2 = (if sl = .b then 1 else 0) →
      (s.cutShort → i.isolated → s.chOn n → does (.chload m) s fun t => !(t.ch n).iso.loaded ∧ onlyCh n s t) ∧
      (!s.cutShort → (!i.isolated → answers (.chload m) s m r 6 []) ∧ (i.isolated → s.chOn n →
        (i.untrained ∨ s.slotCause sl ≠ 0 → does (.chload m) s fun t => s.replied t m r 5 [] ∧ !(t.ch n).iso.loaded) ∧
        ∀ u xs, u = loadChannel n sl (releaseMsg m s) → xs = s.chanSects sl n → s.slotCause sl = 0 → s.boot.slot = sl →
          !i.untrained → (xs.all fun x => BitVec.ofNat 32 x.2.crc == crc32c (s.content sl x.2) && s.sectFormatOk sl x.1) →
          chanLoadOk n u → u.mbx = (releaseMsg m s).mbx → does (.chload m) s fun t => (t.ch n).iso.loaded ∧
            s.replied t m r 0 [numWord xs.length, numWord (xs.foldl (fun (k : Nat) (x : Nat × Sect) => k + x.2.len) 0)]))) ∧
    (s.asked m .pf0 0x94 r → (!i.isolated → answers (.chjoin m) s m r 3 []) ∧
      (i.isolated → !i.offSince → !i.memLost → does (.chjoin m) s fun t => (∃ w, s.replied t m r 0 [w]) ∧
        !(t.ch n).iso.isolated ∧ (t.ch n).iso.kept = [])) ∧
    (s.asked m .pf0 0x95 r → ∀ w, w = s.reqWord m 2 → (w < 1 ∨ 600 < w → answers (.noztest m) s m r 3 []) ∧
      (1 ≤ w → w ≤ 600 → s.flag (F.INS_LADn_CFG_EN n) → s.flag (F.INS_LADn_CFG_HEAL n) →
        (i.nozTest.isSome → answers (.noztest m) s m r 6 []) ∧ ∀ x, s.mayTest n → s.freeTx = some x →
        does (.noztest m) s fun t => !(t.mb m).full ∧ ∃ y, (t.ch n).iso.nozTest = some y ∧ y.mbx = m.val ∧
          y.till = s.tick + 1000 * msTicks * w)) ∧
    (s.asked m .pf0 0x96 r → s.chOn n → does (.seqrst m) s fun t => s.replied t m r 0 [] ∧ !(t.ch n).work.seqUp)) ∧
  (s.asked m .pf0 0x98 r → !s.flag F.FLT_SAFE_BSCAN → (s.reqWord m 1 ≠ 0xB5CA → answers (.bscan m []) s m r 3 []) ∧
    (s.reqWord m 1 = 0xB5CA → (∀ n, s.domState (8 + n.val) = 0 ∨ (s.ch n).iso.isolated) →
      (∀ a : Fin 4, !s.flag (F.MOT_AXa_CTRL_EN a)) → ∀ pins, does (.bscan m [.scan pins (List.replicate 32 false)]) s
      fun t => s.replied t m r 0 [] ∧ safeBy F.FLT_SAFE_BSCAN t ∧ tapFreed t)) ∧
  ∀ n, ((s.ch n).work.seqUp → idles (.sequencerRestartDone n) s) ∧ (s.chOn n → !(s.ch n).work.seqUp →
    (s.ch n).work.waitCmd = none → does (.sequencerRestartDone n) s fun t => (t.ch n).work.seqUp ∧
      !t.flag (F.WRK_SCRn_STAT_CMDBUSY n) ∧ onlyChAt n [A.WRK_SCRn_STAT n] s t)

/-- R333, R338, R339, R344, R349: a fault line, the safe state, PROT_STAT and WARN clear only once their causes have ended. -/
def Obligations.FaultsClearWhenTheirCausesEnd : Prop :=
  ∀ (s : State) m v, (∀ n, s.wstate n ≠ 2) →
  (∀ hi a, a = (if hi then A.FLT_STAT_HI else A.FLT_STAT_LO) → s.reaches m a → does (.fltStatClear m hi v) s fun t =>
    onlyAt [a] { s with flt := t.flt } t ∧ ∀ i b, b < 32 → i = b + (if hi then 32 else 0) →
      t.flag (lineFld i) = (s.flag (lineFld i) && !(v.getLsbD b && !s.lineActive i)) ∧
      (v.getLsbD b → s.flag (lineFld i) → !s.lineActive i → !t.flt.s2.getLsbD i ∧ !t.flt.s3.getLsbD i ∧ !t.flt.s4.getLsbD i)) ∧
  (s.reaches m A.FLT_SAFE → v.getLsbD 0 → s.flag F.FLT_SAFE_ACTIVE → (!s.safeMayEnd → idles (.fltSafeClear m v) s) ∧
    (s.safeMayEnd → does (.fltSafeClear m v) s fun t => t.word A.FLT_SAFE = 0 ∧ onlyAt [A.FLT_SAFE] s t)) ∧
  (s.reaches m A.PROT_STAT → does (.protStatClear m v) s fun t => onlyAt [A.PROT_STAT] s t ∧
    t.flag F.PROT_STAT_STOPN = (s.flag F.PROT_STAT_STOPN && !(v.getLsbD 8 && !s.pwr.stopN)) ∧
    t.flag F.PROT_STAT_SPWD = (s.flag F.PROT_STAT_SPWD && !(v.getLsbD 9 && s.sp.sinceExpiry)) ∧
    t.flag F.PROT_STAT_SPRST = (s.flag F.PROT_STAT_SPRST && !v.getLsbD 10) ∧
    t.flag F.PROT_STAT_NOKEY = (s.flag F.PROT_STAT_NOKEY && !v.getLsbD 11)) ∧
  (s.reaches m A.PWR_MON_STAT → v.getLsbD 0 →
    (s.get F.PWR_MON_STAT_BELOW = 0 → !s.flag F.PWR_MON_STAT_PFAIL → does (.supplyWarnClear m v) s fun t =>
      t.flag F.PWR_MON_STAT_WARN = false ∧ onlyAt [A.PWR_MON_STAT] s t) ∧
    (s.get F.PWR_MON_STAT_BELOW ≠ 0 ∨ s.flag F.PWR_MON_STAT_PFAIL → idles (.supplyWarnClear m v) s))

/-- R335, R337, R339, R344: a parity error, the safe request, STOP_N and the watchdog of the Safety port take the actions set for them. -/
def Obligations.StopPathsTakeTheirActions : Prop :=
  ∀ s : State, idles (.parityScan none) s ∧ (s.pwr.stopN → idles .stopn s) ∧
  exec .stopNRelease s = .next { s with pwr := { s.pwr with stopN := false } } ∧
  (∀ m v, s.reaches m A.PROT_SAFEREQ → (v.toNat % 65536 ≠ 0x5AFE → idles (.protSafereq m v) s) ∧
    (m = .pf0 ∨ m = .sp → v.toNat % 65536 = 0x5AFE → does (.protSafereq m v) s fun t => safeBy F.FLT_SAFE_KEY t ∧ calm s t ∧
      ∀ n, !s.flag F.FLT_SAFE_ACTIVE → s.wstate n = 1 ∨ s.wstate n = 2 → t.wstate n = 2 ∧ t.get (F.THM_CHn_HTRSTAT_DUTY n) = 0)) ∧
  (s.domOn 1 → (∀ w : Fin 67, does (.parityScan (some w)) s fun t => t.flag F.FLT_PAR_PARERR ∧ t.get F.FLT_PAR_WORD = w.val ∧
      safeBy F.FLT_SAFE_PAR t ∧ calmBut [A.FLT_PAR] s t) ∧
    (!s.pwr.stopN → does .stopn s fun t => t.pwr.stopN ∧ t.flag F.PROT_STAT_STOPN ∧ raises 17 s t ∧
      calmBut [A.PROT_STAT] { s with pwr := { s.pwr with stopN := true } } t ∧
      if s.get F.PROT_CFG_STOPNACT ≤ 1 then allHeld s t else safeBy F.FLT_SAFE_STOPN t) ∧
    ∀ w, w = s.get F.PROT_CFG_SPWDOG → s.sp.running → w ≠ 0 →
      (s.tick < s.sp.lastTick + w * msTicks → idles .safetyPortWatchdog s) ∧
      (s.sp.lastTick + w * msTicks ≤ s.tick → does .safetyPortWatchdog s fun t => t.flag F.PROT_STAT_SPWD ∧
        !t.sp.running ∧ !t.sp.sinceExpiry ∧ raises 18 s t ∧
        if s.get F.PROT_CFG_SPTOACT ≤ 1 then allHeld s t else safeBy F.FLT_SAFE_SPWD t))

/-- R341 to R343, R345: the Safety port executes and answers a command once, repeats, denies, refuses a bad CMD or CRC, and resets. -/
def Obligations.SafetyPortAnswersItsCommands : Prop :=
  ∀ (bs : List Byte) (s u : State) a v, s.domOn 1 → u = { s.spTaken bs [] with sp.last := s.sp.last } → a = fieldAt bs 4 4 →
  v = BitVec.ofNat 32 (fieldAt bs 8 4) →
  (∀ r, s.sp.last = some (bs.take 12, r) → ∀ x ∈ [(Instr.spRead bs, SpKind.read), (.spWrite bs, .write), (.spStatus bs, .status)],
    spWf x.2 bs → bs.length = 36 →
    exec x.1 s = .next { s with sp := { s.sp with crcRun := 0 }, out := .spReply (List.take 16 (spRepeat r)) :: s.out }) ∧
  ((∀ r, s.sp.last ≠ some (bs.take 12, r)) →
    (∀ w, spWf .read bs → w = spReply 0 bs (readWord .sp a u) → s.spReads a → does (.spRead bs) s fun t =>
      t.sp = (s.spTaken bs w).sp ∧ spSays bs w s t ∧ (bs.length = 16 → t.out = s.out) ∧ t.chans = s.chans ∧ t.mbx = s.mbx) ∧
    (∀ x ∈ [(Instr.spRead bs, SpKind.read, spMayRead a), (.spWrite bs, .write, s.spWrites a)], spWf x.2.1 bs → !x.2.2 →
      does x.1 s fun t => t = { s.spTaken bs (spReply 2 bs 0) with out := t.out } ∧ regsBut [A.PROT_SPCNT] s t) ∧
    (spWf .write bs → (a = A.PROT_SAFEREQ → v.toNat % 65536 = 0x5AFE → does (.spWrite bs) s fun t =>
        safeBy F.FLT_SAFE_KEY t ∧ t.sp.last = some (bs.take 12, spReply 0 bs v)) ∧
      (a = A.PROT_CFM_LO → does (.spWrite bs) s fun t => t.word (bankOf (masterBank .sp) A.PROT_CFM_LO) = v ∧
        t.sp.last = some (bs.take 12, spReply 0 bs v))) ∧
    (spWf .status bs → does (.spStatus bs) s fun t => regsBut [A.PROT_SPCNT] s t ∧
      t = { s.spTaken bs (spReply 0 bs (liveWord .sp A.PROT_STAT u)) with out := t.out })) ∧
  (spWf .badCommand bs → does (.spBadCommand bs) s fun t => spSays bs (spReply 3 bs 0) s t ∧
    t = { s with sp := { s.sp with crcRun := 0 }, out := t.out }) ∧
  (spWf .crcError bs → (s.sp.crcRun < 15 → does (.spCrcError bs) s fun t => bumps F.PROT_SPCNT_CRCERR 65535 s t ∧
      t.sp = { s.sp with crcRun := s.sp.crcRun + 1 } ∧ onlyAt [A.PROT_SPCNT] { s with sp := t.sp, out := t.out } t) ∧
    (15 ≤ s.sp.crcRun → does (.spCrcError bs) s fun t => t.flag F.PROT_STAT_SPRST ∧ t.sp.last = none ∧
      t.sp.crcRun = 0 ∧ raises 18 s t)) ∧
  (spWf .early bs → idles (.spCsEarly bs) s) ∧
  does .safetyPortReset s fun t => t.flag F.PROT_STAT_SPRST ∧ t.sp.last = none ∧ raises 18 s t ∧
    ∀ b ∈ [A.PROT_CFM_LO, A.CAPO_BIND], t.word (bankOf (masterBank .sp) b) = 0

/-- R365, R366, R373: the slot chosen is the only candidate, or the newer of two; none is NOIMAGE. -/
def Obligations.SlotsAreChosenByTheirHeaders : Prop :=
  ∀ s : State, (s.boot.phase ≠ .rom ∨ !s.released → idles .slotSelect s) ∧
  (s.boot.phase = .rom → s.released → s.boot.pref = 0 → s.atRest →
    (∀ sl, s.slotCause sl = 0 → s.slotCause (otherSlot sl) ≠ 0 → does .slotSelect s fun t => t.boot.phase = .load 0 0 ∧
      t.boot.slot = sl ∧ !t.boot.fellBack ∧ t.boot.chMask = hdrChmask (s.hdr sl) ∧
      t.boot.trainMask = hdrChmask (s.hdr sl) ||| s.bothMasks ∧ t.boot.resetN ∧
      t.boot.mode = (if s.boot.flashSlow then .sdr8 else .ddr8) ∧ t.get F.NVM_BOOTSTAT_STATE = 2) ∧
    (∀ d, d = (hdrGen (s.hdr .b) + 2 ^ 32 - hdrGen (s.hdr .a)) % 2 ^ 32 → s.slotCause .a = 0 → s.slotCause .b = 0 →
      does .slotSelect s fun t => t.boot.phase = .load 0 0 ∧ (t.boot.slot = .b ↔ 1 ≤ d ∧ d < 2 ^ 31)) ∧
    (s.slotCause .a ≠ 0 → s.slotCause .b ≠ 0 → does .slotSelect s fun t => t.boot.phase = .noImage ∧
      t.get F.NVM_BOOTSTAT_STATE = 5 ∧ raises 11 s t))

/-- R362, R367 to R370: sections read right are taken in order, others read three times; then the resume, and READY; memory trains. -/
def Obligations.SectionsLoadUntilReady : Prop :=
  ∀ s : State,
  (∀ i k e, s.boot.phase = .load i k → (s.sects s.boot.slot)[i]? = some e →
    (s.sectWaits e → ∀ ok, idles (.sectionLoaded ok) s) ∧ (!s.sectWaits e →
      (k < 2 → exec (.sectionLoaded false) s = .next { s with boot := { s.boot with phase := .load i (k + 1) } }) ∧
      (2 ≤ k → s.boot.fellBack → does (.sectionLoaded false) s fun t => t.boot.phase = .noImage ∧
        t.failRec s.boot.slot = some (hdrCrc (s.hdr s.boot.slot))) ∧
      (BitVec.ofNat 32 e.crc = crc32c (s.content s.boot.slot e) → s.sectFormatOk s.boot.slot i →
        does (.sectionLoaded true) s fun t => t.boot.phase = .load (i + 1) 0))) ∧
  (∀ i k h, s.boot.phase = .load i k → h = s.hdr s.boot.slot → (i < (s.sects s.boot.slot).length → idles .bootLoadComplete s) ∧
    ∀ d, d = sha256 (s.imgBytes s.boot.slot (hdrHlen h) (hdrIlen h - hdrHlen h)) → (s.sects s.boot.slot).length ≤ i →
      !s.ramping → s.boot.trainMask &&& s.boot.chMask = 0 →
      (bytesAt h 48 32 = d → (hdrChmask h = 0 ∨ (s.sects s.boot.slot).any (·.typ == 2)) → hdrTunseed h = 0 →
        s.badBlock = none → does .bootLoadComplete s fun t => t.boot = { s.boot with phase := .resume } ∧
          t.get F.NVM_BOOTSTAT_STATE = 3 ∧ onlyAt [A.NVM_BOOTSTAT] { s with boot := t.boot } t) ∧
      (bytesAt h 48 32 ≠ d → s.boot.fellBack → does .bootLoadComplete s fun t => t.boot.phase = .noImage ∧
        t.failRec s.boot.slot = some (hdrCrc h))) ∧
  (s.boot.phase = .resume → (∀ n, (s.ch n).work.waitCmd = none) → does .bootReady s fun t => t.booted ∧
    t.get F.NVM_BOOTSTAT_STATE = 4 ∧ t.get F.NVM_BOOTSTAT_BOOTMS = min 4095 ((s.tick - s.boot.t0) / msTicks) ∧ raises 8 s t ∧
    ∀ n ∈ s.bootedChans, (t.ch n).iso.loaded) ∧
  (s.boot.phase ≠ .resume → idles .bootReady s) ∧
  ∀ n, (bitAt s.boot.trainMask n.val → (s.chOn n → exec (.memoryTrained n) s = .next { s with
        boot := { s.boot with trainMask := s.boot.trainMask - 2 ^ n.val } }) ∧
      (s.boot.trainTick + 40 * msTicks ≤ s.tick → s.atRest → bitAt s.boot.chMask n.val →
        does (.memoryTrainTimeout n) s fun t => t.boot = { s.boot with trainMask := s.boot.trainMask - 2 ^ n.val } ∧
          t.flag (F.NVM_CHBOOT_FAIL.bit n) ∧ raises 11 s t)) ∧
    (s.tick < s.boot.trainTick + 40 * msTicks → idles (.memoryTrainTimeout n) s)

/-- R347, R376, R377: a flash command that meets a rule is refused with its code; else it runs, BUSY, to DONE and its effect or error. -/
def Obligations.FlashCommandsRunOrAreRefused : Prop :=
  ∀ s : State,
  (∀ m (c : Instr) code sl r, s.reaches m A.NVM_CMD → (c, code, sl) ∈ [(.nvmRead m, 1, Slot.a), (.nvmProgram m, 2, .a),
      (.nvmErase m, 3, .a), (.nvmVerify m .a, 4, .a), (.nvmVerify m .b, 4, .b)] →
    r = s.nvmRefusal code (s.get F.NVM_FADDR_FADDR) (s.get F.NVM_LEN_LEN) →
    (r ≠ 0 → does c s fun t => t.get F.NVM_CMDSTAT_ERR = r ∧ t.flag F.NVM_CMDSTAT_BUSY = s.flag F.NVM_CMDSTAT_BUSY ∧
      onlyAt [A.NVM_CMD, A.NVM_CMDSTAT] s t) ∧
    (r = 0 → s.pwr.nvwBelow = [] →
      (!s.flag F.PWR_MON_STAT_WARN → does c s fun t => t.flag F.NVM_CMDSTAT_BUSY ∧ !t.flag F.NVM_CMDSTAT_DONE ∧
        t.get F.NVM_CMDSTAT_ERR = 0 ∧ (∃ k, t.boot.cmd = some k ∧ k.code = code ∧ k.addr = s.get F.NVM_FADDR_FADDR ∧
          k.len = s.get F.NVM_LEN_LEN ∧ k.slot = sl) ∧
        onlyAt [A.NVM_CMD, A.NVM_CMDSTAT] { s with boot := { s.boot with cmd := t.boot.cmd } } t) ∧
      (s.flag F.PWR_MON_STAT_WARN → code = 2 ∨ code = 3 → does c s fun t => t.flag F.NVM_CMDSTAT_DONE ∧
        t.get F.NVM_CMDSTAT_ERR = 5 ∧ t.boot = s.boot ∧ raises 11 s t))) ∧
  (s.boot.cmd = none → ∀ err data, idles (.nvmDone err data) s) ∧
  ∀ k, s.boot.cmd = some k → (does (.nvmDone 2 []) s fun t => nvmEnds 7 t ∧ raises 11 s t) ∧
    (k.code = 1 → s.dmaUp → does (.nvmDone 0 []) s fun t => nvmEnds 0 t ∧ t.boot = { s.boot with cmd := none } ∧
      .hostWrite k.host (s.flashBytes k.addr k.len) ∈ t.out ∧ raises 10 s t) ∧
    (∀ data : List Byte, k.code = 2 → data.length = k.len → s.dmaUp → does (.nvmDone 0 data) s fun t => nvmEnds 0 t ∧
      flashBut k s t ∧ ∀ i, i < k.len → s.flashByte (k.addr + i) = 0xFF → t.flashByte (k.addr + i) = data.getD i 0) ∧
    (k.code = 3 → does (.nvmDone 0 []) s fun t => nvmEnds 0 t ∧ flashBut k s t ∧
      ∀ i, i < k.len → t.flashByte (k.addr + i) = 0xFF) ∧
    (k.code = 4 → does (.nvmDone 0 []) s fun t => nvmEnds 0 t ∧ t.boot.flash = s.boot.flash ∧
      t.flag F.NVM_CMDSTAT_VPASS = (s.verifyCause k.slot == 0))

/-- R24, R28 to R30, R349, R374, R395: what each reset starts anew; R320, R321, R386: the supervisor restarts. The model's choices: the
release after a brown-out (log 171), the device reset in one step (log 113), what the resets of the functions leave (log 118), a restart
of a supervisor that runs alone (log 119). -/
def Obligations.ResetsStartAnew : Prop :=
  ∀ s : State,
  (does .powerOnReset s fun t => t.flag F.SYS_RSTCAUSE_POR ∧ startsUp s t ∧ t.jnl = s.jnl ∧ t.pwr.mainUp ∧
    t.pwr.relTick = some (s.tick + 2 * msTicks) ∧
    (s.pwr.standby → t.flag F.SYS_RSTCAUSE_WAKE)) ∧
  (∀ r, (!s.pwr.standby → does (.brownOutReset r) s fun t => t.flag F.SYS_RSTCAUSE_BOR ∧ startsUp s t ∧
      !t.pwr.mainUp ∧ t.pwr.relTick = none ∧ ∀ n, (t.journal n).recs = (s.journal n).recs) ∧
    (s.pwr.standby → does (.brownOutReset r) s fun t => t.pwr = { s.pwr with mainUp := false } ∧ t.boot = s.boot ∧
      t.jnl = s.jnl)) ∧
  (∀ m v, s.reaches m A.SYS_DEVRST → (v.toNat % 65536 = 0xDE57 →
      (s.nvOk → does (.deviceReset m v) s (deviceStarts s)) ∧
      (!s.nvOk → does (.deviceReset m v) s fun t => haltsFor .deviceReset s t)) ∧
    (v.toNat % 65536 ≠ 0xDE57 → idles (.deviceReset m v) s)) ∧
  (∀ x ∈ [(Instr.pcieFundamentalReset, F.SYS_RSTCAUSE_PERST), (.hotReset, F.SYS_RSTCAUSE_HOTRST)], does x.1 s fun t =>
    t.flag x.2 ∧ (s.domOn 0 → t.host = { Endpoint.reset with wasUp := s.host.wasUp }) ∧
    onlyAt [A.SYS_RSTCAUSE] { s with host := t.host } t) ∧
  (s.domOn 0 → (does .flrPf0 s fun t => t.flag F.SYS_RSTCAUSE_FLR0 ∧ !t.host.bme ∧ fnReset 0 t ∧
      t.host.vecMasked.get 1 = s.host.vecMasked.get 1 ∧ t.mbx = s.mbx) ∧
    (does .flrPf1 s fun t => t.flag F.SYS_RSTCAUSE_FLR1 ∧ fnReset 1 t ∧ t.host.bme = s.host.bme ∧
      t.host.vecMasked.get 0 = s.host.vecMasked.get 0 ∧ (∀ m, (s.mb m).lock = some .pf1 → (t.mb m).lock = none) ∧
      ∀ m : Fin 48, 44 ≤ m.val → (s.mb m).held = [] → !(t.mb m).full)) ∧
  (s.supRuns → ∀ x ∈ [(Instr.supLockstep, true, 4), (.supWdog, false, 5)], does x.1 s fun t => !t.boot.supUp ∧
    t.flag F.SYS_RSTCAUSE_SUPRST ∧ t.flag F.SYS_RSTCAUSE_LOCKSTEP = (x.2.1 || s.flag F.SYS_RSTCAUSE_LOCKSTEP) ∧
    raises x.2.2 s t) ∧
  (!s.supRuns → idles .supLockstep s ∧ idles .supWdog s) ∧
  (s.domOn 3 → !s.boot.supUp → does .supRestart s fun t => t.boot = { s.boot with supUp := true } ∧ raises 6 s t ∧
    (∀ m, t.mb m = { s.mb m with waiting := false }) ∧ calm { s with boot := t.boot, mbx := t.mbx, chans := t.chans } t) ∧
  (s.boot.supUp → idles .supRestart s)

/-- R398 to R400: an accepted request ramps its domain at once when none ramps, or once its channel has halted; a refused one is recorded;
the end, or FAIL after 1 ms. R18, R27, R249, R405, R407: fallback and return of clocks, memory rates, each channel's time within 8 ns. The
model's choices: the order of causes (log 112), the halt (log 111), the broadcast (log 116), an oscillator's gate (log 52). -/
def Obligations.DomainsAndClocksSwitch : Prop :=
  (∀ (s : State) (d : Fin 24),
  (∀ m v, v = BitVec.ofNat 32 (2 ^ d.val) → s.pwr.ramp = none → s.pwr.queue = [] → (s.reaches m A.PWR_DOMON → !s.domOn d →
      (s.domRefusal (m == .pf0) d true = 0 → does (.pwrDomon m v) s fun t => t.pwr = { s.pwr with
        ramp := some (d.val, true), rampTick := s.tick } ∧ t.domState d = 1 ∧ onlyAt [(domFld d).addr] { s with pwr := t.pwr } t) ∧
      (d.val ≠ 3 → domRefused m d true s (.pwrDomon m v))) ∧
    (s.reaches m A.PWR_DOMOFF → s.domOn d →
      (s.domRefusal (m == .pf0) d false = 0 → (s.domHalted d → does (.pwrDomoff m v) s fun t =>
          t.pwr.ramp = some (d.val, false) ∧ t.pwr.queue = [] ∧ t.domState d = 1) ∧
        ∀ n : Fin 16, d.val = 8 + n.val → !s.atBoundary n → s.sevOf (chEvt n 2) ≤ 1 → does (.pwrDomoff m v) s fun t =>
          t.pwr.ramp = none ∧ t.pwr.queue = [(d.val, false)] ∧ t.domState d = 2 ∧ (s.wstate n = 1 → held n 2 t)) ∧
      domRefused m d false s (.pwrDomoff m v))) ∧
  (∀ on, s.pwr.ramp = some (d.val, on) → s.pwr.queue = [] → does .domainRampDone s fun t => t.pwr.ramp = none ∧
    t.domState d = (if on then 2 else 0) ∧ (on = false ∨ d.val < 8 → regsBut [(domFld d).addr] s t)) ∧
  (s.pwr.ramp = none → idles .domainRampDone s ∧ idles .pwrDomfail s) ∧
  (s.pwr.ramp = some (d.val, true) → s.pwr.queue = [] →
    (s.pwr.rampTick + msTicks ≤ s.tick → does .pwrDomfail s fun t => t.pwr.ramp = none ∧ t.domState d = 3 ∧
      (s.domOn 0 → d.val ≠ 0 → t.flag (pendFld 27))) ∧
    (s.tick < s.pwr.rampTick + msTicks → idles .pwrDomfail s))) ∧
  ∀ s : State,
  (s.flag F.SYS_CLKSTAT_REFOK → (does .clkRefloss s (refLost s)) ∧
    (does (.clkPllfail .shared) s fun t => t.flag F.SYS_CLKSTAT_SHFB ∧ t.tun.meas.get 1 ≠ some 16 ∧
      t.get F.SYS_CLKSTAT_CHFB = s.get F.SYS_CLKSTAT_CHFB ∧ bumps F.SYS_CLKCNT_PLLFAIL 65535 s t ∧ raises 26 s t) ∧
    ∀ n, does (.clkPllfail (.ch n)) s fun t => t.tun.meas.get 1 ≠ some n.val ∧
      t.flag F.SYS_CLKSTAT_SHFB = s.flag F.SYS_CLKSTAT_SHFB ∧
      ∀ k, t.flag (F.SYS_CLKSTAT_CHFB.bit k) = (k == n || s.flag (F.SYS_CLKSTAT_CHFB.bit k))) ∧
  (!s.flag F.SYS_CLKSTAT_REFOK → idles .clkRefloss s ∧ does .clkRefback s (refBack s)) ∧
  (∀ n, ((s.ch n).iso.switchBack → s.atBoundary n → does (.channelClockSwitchback n) s fun t =>
      !t.flag (F.SYS_CLKSTAT_CHFB.bit n) ∧ (t.ch n).iso = { (s.ch n).iso with switchBack := false } ∧
      onlyAt [A.SYS_CLKSTAT] { s with chans := t.chans } t) ∧
    (!s.atBoundary n → idles (.channelClockSwitchback n) s) ∧
    (s.chOn n → does (.memoryRateChange n) s fun t =>
      (t.ch n).iso = { (s.ch n).iso with memSlow := s.flag (F.SYS_CLKSTAT_CHFB.bit n) } ∧ onlyCh n s t)) ∧
  (does .devtimeBroadcast s fun t => t = { s with free := t.free, chans := t.chans } ∧ ∀ n, (!s.chOn n → t.ch n = s.ch n) ∧
    (s.chOn n → s.chTimeAt n s.tick ≤ t.chTimeAt n s.tick ∧ (s.chTimeAt n s.tick ≤ s.devTime + 8 →
      t.chTimeAt n s.tick ≤ s.devTime + 8 ∧ s.devTime ≤ t.chTimeAt n s.tick + 8)))

/-- R30, R348, R371, R402, R403: the key to standby, what wakes and is recorded, the loss of VKEEP, the release of RESET_N. -/
def Obligations.StandbyAndWake : Prop :=
  ∀ s : State,
  (∀ m v, s.reaches m A.PWR_STBY → (v.toNat % 65536 = 0x57DB → (∀ n, s.wstate n ≠ 1) →
      (s.nvOk → does (.pwrStby m v) s fun t => t.pwr.standby ∧ t.pwr.supen = s.pwr.wakeDue ∧ t.pwr.stbyTick = s.tick ∧
        t.boot.phase = .held ∧ t.word A.SYS_DOMSTAT_LO = 0 ∧ t.word A.SYS_DOMSTAT_HI = 0) ∧
      (!s.nvOk → does (.pwrStby m v) s fun t => haltsFor .standby s t)) ∧
    (∀ n : Fin 16, v.toNat % 65536 = 0x57DB → s.wstate n = 1 → does (.pwrStby m v) s fun t =>
      t.get F.PWR_DOMREF_CAUSE = 7 ∧ onlyAt [A.PWR_DOMREF] s t) ∧
    (v.toNat % 65536 ≠ 0x57DB → idles (.pwrStby m v) s)) ∧
  (s.flag F.PWR_WAKECFG_WAKEN → .standby ∈ s.pwr.waits →
    exec .wakeNWake s = .next { s with pwr := { s.pwr with wakeDue := true } }) ∧
  (s.pwr.standby → !s.pwr.supen → (s.flag F.PWR_WAKECFG_WAKEN → .standby ∉ s.pwr.waits →
      does .wakeNWake s (woken F.PWR_WAKESRC_WAKEN s)) ∧
    (s.flag F.PWR_WAKECFG_TMR → s.get F.PWR_WAKETMR_TICKS * 400000000 ≤ (s.tick - s.pwr.stbyTick) * 32768 →
      does .wakeTimer s (woken F.PWR_WAKESRC_TMR s)) ∧
    does .mainRailsRise s (woken F.PWR_WAKESRC_SUPPLY s)) ∧
  ((!s.flag F.PWR_WAKECFG_WAKEN ∨ (!s.pwr.standby ∧ .standby ∉ s.pwr.waits)) → idles .wakeNWake s) ∧
  ((!s.flag F.PWR_WAKECFG_TMR ∨ !s.pwr.standby) → idles .wakeTimer s) ∧
  (!s.pwr.standby → exec .mainRailsRise s = .next { s with pwr := { s.pwr with mainUp := true } }) ∧
  (!s.pwr.mainUp → does .vkeepLoss s fun t => t.word A.SYS_RSTCAUSE = 1 ∧ (∀ n, !(t.ch n).work.ledgerValid) ∧
    t.word A.PWR_MON_CNT = regReset A.PWR_MON_CNT ∧ t.jnl = s.jnl ∧ t.boot = s.boot ∧ t.pwr.supen ∧ !t.pwr.standby) ∧
  (s.pwr.mainUp → !s.pwr.standby → idles .vkeepLoss s) ∧
  (s.boot.phase = .rom → s.released → !s.boot.resetN → exec .resetNRelease s = .next { s with
    devBase := s.tick, boot := { s.boot with t0 := s.tick, resetN := true } }) ∧
  (s.boot.resetN ∨ !s.released → idles .resetNRelease s)

/-- R6, R53, R346 to R349, R355, R395: a warning halts every channel, then the ledgers are flushed; below VNVW writes wait; recovery. The
model's choices: a waiting reset or standby (log 142), the release after a brown-out (log 171). -/
def Obligations.SuppliesWarnAndFlush : Prop :=
  ∀ s : State,
  (∀ r f, f = belowFld r → (!s.flag f → does (.supplyWarning (some r)) s fun t => t.flag f ∧
      bumps F.PWR_MON_CNT_WARNCNT 65535 s t ∧ warns s t) ∧
    (s.flag f → idles (.supplyWarning (some r)) s) ∧
    (does (.supplyRecover (some r)) s fun t => !t.flag f ∧ (∀ q, q ≠ r → t.flag (belowFld q) = s.flag (belowFld q)) ∧
      t.flag F.PWR_MON_STAT_WARN = s.flag F.PWR_MON_STAT_WARN ∧ (r ∉ s.pwr.broken → onlyAt [A.PWR_MON_STAT] s t) ∧
      (s.pwr.broken = [r] → t.pwr.broken = [] ∧ t.pwr.mainUp ∧ t.pwr.relTick = some (s.tick + 2 * msTicks))) ∧
    (s.pwr.nvwBelow = [] → does (.nvw r) s fun t => t.pwr.nvwBelow = [r] ∧ t.flag F.PWR_MON_STAT_NVWB ∧
      !t.nvOk ∧ raises 20 s t) ∧
    (r ∈ s.pwr.nvwBelow → idles (.nvw r) s)) ∧
  (!s.flag F.PWR_MON_STAT_PFAIL → does (.supplyWarning none) s fun t => t.flag F.PWR_MON_STAT_PFAIL ∧
    bumps F.PWR_MON_CNT_PFAILCNT 65535 s t ∧ warns s t) ∧
  (does (.supplyRecover none) s fun t => !t.flag F.PWR_MON_STAT_PFAIL ∧
    t.flag F.PWR_MON_STAT_WARN = s.flag F.PWR_MON_STAT_WARN ∧ onlyAt [A.PWR_MON_STAT] s t) ∧
  (∀ k w, s.pwr.flush = some (k, w) →
    (s.nvOk → (∀ n, s.atBoundary n) → does .ledgerFlushComplete s fun t => t.pwr.flush = none ∧
      (w → t.flag F.PWR_MON_STAT_FLUSHDONE) ∧ ∀ n, ledgerKept n s t) ∧
    (∀ n, !s.nvOk ∨ !s.atBoundary n → idles .ledgerFlushComplete s)) ∧
  (s.pwr.flush = none → idles .ledgerFlushComplete s) ∧
  ((∀ n, (s.ch n).work.waitCmd = none) →
    (s.pwr.waits = [] → s.pwr.broken ≠ [] → does .nvWriteResume s fun t => t.pwr.broken = [] ∧ t.pwr.mainUp ∧
      t.pwr.relTick = some (s.tick + 2 * msTicks)) ∧
    (s.pwr.waits = [] → s.pwr.broken = [] → does .nvWriteResume s fun t => t.pwr = { s.pwr with nvwBelow := [], jnlWas := none } ∧
      !t.flag F.PWR_MON_STAT_NVWB ∧ onlyAt [A.PWR_MON_STAT] { s with pwr := t.pwr, jnl := t.jnl } t ∧
      ∀ n, t.journal n = { s.journal n with
        flush := if s.pwr.flush.isSome && s.domOn 1 then none else (s.journal n).flush }) ∧
    (∀ p o, s.pwr.waits = [.slotPref p o] → s.pwr.broken = [] → does .nvWriteResume s fun t => t.boot = { s.boot with pref := p, once := o } ∧
      t.pwr.waits = []) ∧
    (∀ r, s.pwr.waits = .deviceReset :: r → does .nvWriteResume s fun t => t.flag F.SYS_RSTCAUSE_DEVRST ∧
      t.boot.phase = .rom) ∧
    ∀ r, s.pwr.waits = .standby :: r → does .nvWriteResume s fun t => t.pwr.standby ∧ t.boot.phase = .held)

/-- R25: the epoch's low word is staged, both take effect with the high word, which captures DEV_TIME; reads give what is in effect. -/
def Obligations.EpochTakesBothWords : Prop :=
  ∀ (s : State) m, (∀ v, (s.reaches m A.SYS_EPOCH_LO → does (.sysEpochLoWrite m v) s fun t => t.word epochStage = v ∧
        onlyAt [epochStage] s t) ∧
      (s.reaches m A.SYS_EPOCH_HI → does (.sysEpochHiWrite m v) s fun t => t.word A.SYS_EPOCH_LO = s.word epochStage ∧
        t.word A.SYS_EPOCH_HI = v ∧ t.pair A.SYS_EPOCHBASE_LO A.SYS_EPOCHBASE_HI = s.devTime % 2 ^ 64 ∧
        onlyAt [A.SYS_EPOCH_LO, A.SYS_EPOCH_HI, A.SYS_EPOCHBASE_LO, A.SYS_EPOCHBASE_HI] s t)) ∧
    does (.lowWordRead m A.SYS_EPOCH_LO) s fun t => t.latched m A.SYS_EPOCH_HI = s.word A.SYS_EPOCH_HI ∧
      t.out = .read m A.SYS_EPOCH_LO (s.word A.SYS_EPOCH_LO) :: s.out

/-- R10, R13, R300, R303, R433: writes act by field types; reads latch high words and clear RC fields; events of the fabric. -/
def Obligations.RegistersFollowTheirTypes : Prop :=
  ∀ s : State,
  (∀ m v, (∀ e : Fin 512, s.reaches m (A.EVT_ROUTEe e) → does (.registerWrite m (A.EVT_ROUTEe e) v) s fun t =>
      t.word (A.EVT_ROUTEe e) = (s.word (A.EVT_ROUTEe e) &&& ~~~0xFF#32) ||| (v &&& 0xFF#32) ∧ onlyAt [A.EVT_ROUTEe e] s t) ∧
    (∀ w : Fin 16, s.reaches m (A.EVT_PENDw w) → does (.registerWrite m (A.EVT_PENDw w) v) s fun t =>
      t.word (A.EVT_PENDw w) = s.word (A.EVT_PENDw w) &&& ~~~v ∧ onlyAt [A.EVT_PENDw w] s t) ∧
    (s.reaches m A.SYS_BOOTCNT → does (.registerWrite m A.SYS_BOOTCNT v) s (onlyAt [] s)) ∧
    ∀ a, a < bar4Base → !hasStaged a → !s.reaches m a → idles (.registerWrite m a v) s) ∧
  (∀ m a, (∀ h, highOf a = some h → !isHigh a → s.reads m a → blockOf a ≠ 3 → does (.lowWordRead m a) s fun t =>
      t.out = .read m a (liveWord m a s) :: s.out ∧ t.latched m h = liveWord m h s ∧
      ∀ k b, latchKey k b ≠ latchKey m h → t.latched k b = s.latched k b) ∧
    (highOf a = none → !isHigh a → s.reads m a → blockOf a ≠ 3 →
      a ∉ [A.CAPO_ALLOC, A.INS_TBLDATA, A.TUN_SETDATA, A.THM_TBLDATA] → does (.rcRead m a) s fun t =>
        t.out = .read m a (liveWord m a s) :: s.out ∧ t.word a = s.word a &&& ~~~(typMask (· == .rc) a) ∧
        onlyAt [a] { s with out := t.out } t) ∧
    (a < bar4Base → !s.reads m a → exec (.rcRead m a) s = .next { s with out := .read m a 0 :: s.out })) ∧
  (s.domOn 0 → s.cfgRetries → exec (.rcRead .pf0 cfgBase) s = .next (s.emit .configRetry)) ∧
  (s.domOn 0 → !s.cfgRetries → s.host.cfg.get 0 = [] → exec (.rcRead .pf0 cfgBase) s = .next (s.emit (.read .pf0 cfgBase 0x16401F5E))) ∧
  (∀ x ∈ [(Instr.fabRetry, 0), (.jnlCe, 3)], ∀ r, r = s.flt.lastRaise.find? (fun p => p.1 == x.2) →
    (r = none → does x.1 s fun t => raises x.2 s t ∧ calm s t) ∧
    ∀ y, r = some y → s.tick < y.2 + msTicks → idles x.1 s) ∧
  does .fabUe s fun t => raises 1 s t ∧ calm s t

end Statements
end

