-- ==== Sys2Proof/Laws/Bits.lean ====
section
/-! SUPPORT. The laws of bit fields: a field reads back what was put into it, and a field beside it is unchanged. -/

namespace Sys2Proof.Machine

theorem getBits_eq (w : Word) (lo wd : Nat) : getBits w lo wd = w.toNat / 2 ^ lo % 2 ^ wd := by
  simp [getBits, BitVec.toNat_ushiftRight, Nat.shiftRight_eq_div_pow]

theorem getBits_lt (w : Word) (lo wd : Nat) : getBits w lo wd < 2 ^ wd := Nat.mod_lt _ (by positivity)

theorem testBit_getBits (w : Word) (lo wd i : Nat) :
    (getBits w lo wd).testBit i = (decide (i < wd) && w.getLsbD (lo + i)) := by
  rw [getBits_eq, Nat.testBit_mod_two_pow, Nat.testBit_div_two_pow, BitVec.getLsbD, Nat.add_comm i lo]

theorem getLsbD_mask (lo wd v i : Nat) :
    (BitVec.ofNat 32 (v % 2 ^ wd * 2 ^ lo)).getLsbD i =
      (decide (i < 32) && (decide (lo ≤ i) && (decide (i - lo < wd) && v.testBit (i - lo)))) := by
  rw [BitVec.getLsbD_ofNat, Nat.testBit_mul_two_pow]
  by_cases h : lo ≤ i <;> simp [h, Nat.testBit_mod_two_pow]

theorem getLsbD_ones (lo wd i : Nat) :
    (BitVec.ofNat 32 ((2 ^ wd - 1) * 2 ^ lo)).getLsbD i = (decide (i < 32) && (decide (lo ≤ i) && decide (i - lo < wd))) := by
  rw [BitVec.getLsbD_ofNat, Nat.testBit_mul_two_pow]
  by_cases h : lo ≤ i <;> simp [h, Nat.testBit_two_pow_sub_one]

theorem getLsbD_setBits (w : Word) (lo wd v i : Nat) :
    (setBits w lo wd v).getLsbD i =
      if i < 32 ∧ lo ≤ i ∧ i - lo < wd then v.testBit (i - lo) else w.getLsbD i := by
  unfold setBits
  rw [BitVec.getLsbD_or, BitVec.getLsbD_and, BitVec.getLsbD_not, getLsbD_ones, getLsbD_mask]
  by_cases h : i < 32
  · by_cases h1 : lo ≤ i
    · by_cases h2 : i - lo < wd <;> simp [h, h1, h2]
    · simp [h, h1]
  · have : w.getLsbD i = false := BitVec.getLsbD_of_ge w i (by omega)
    simp [h, this]

/-- A field reads back what was put into it, cut to its width. -/
theorem getBits_setBits_same (w : Word) {lo wd : Nat} (v : Nat) (h : lo + wd ≤ 32) :
    getBits (setBits w lo wd v) lo wd = v % 2 ^ wd := by
  apply Nat.eq_of_testBit_eq
  intro i
  rw [testBit_getBits, getLsbD_setBits, Nat.testBit_mod_two_pow]
  by_cases hi : i < wd
  · simp [hi]; omega
  · simp [hi]

/-- A field beside the one put is unchanged. -/
theorem getBits_setBits_other (w : Word) {lo wd lo' wd' : Nat} (v : Nat) (h : lo + wd ≤ lo' ∨ lo' + wd' ≤ lo) :
    getBits (setBits w lo wd v) lo' wd' = getBits w lo' wd' := by
  apply Nat.eq_of_testBit_eq
  intro i
  rw [testBit_getBits, testBit_getBits, getLsbD_setBits]
  by_cases hi : i < wd'
  · have : ¬ (lo' + i < 32 ∧ lo ≤ lo' + i ∧ lo' + i - lo < wd) := by omega
    simp [this]
  · simp [hi]

end Sys2Proof.Machine
end

