-- ==== Sys2Proof/Laws/Sparse.lean ====
section
/-! SUPPORT. The laws of the sparse stores: what a store reads as after each operation, and that every operation keeps the
canonical form. -/

namespace Sys2Proof.Machine

variable {w : Nat} {d : Nat → BitVec w}

@[simp] theorem sparseGet_nil (a : Nat) : sparseGet d [] a = d a := rfl

theorem sparseGet_drop (p : Nat → Bool) (m : Sparse w) (a : Nat) :
    sparseGet d (sparseDrop p m) a = if p a then d a else sparseGet d m a := by
  induction m with
  | nil => simp [sparseDrop]
  | cons x r ih =>
    obtain ⟨k, v⟩ := x
    by_cases hk : p k = true
    · simp only [sparseDrop, hk, if_true, ih, sparseGet]
      by_cases ha : a = k
      · subst ha; simp [hk]
      · simp [ha]
    · simp only [sparseDrop, hk, sparseGet]
      by_cases ha : a = k
      · subst ha; simp [hk, sparseGet]
      · simp [ha, sparseGet, ih]

theorem sparseGet_insert (a : Nat) (v : BitVec w) (m : Sparse w) (b : Nat) :
    sparseGet d (sparseInsert a v (sparseDrop (fun k => k == a) m)) b = if b = a then v else sparseGet d m b := by
  induction m with
  | nil => simp [sparseDrop, sparseInsert, sparseGet]
  | cons x r ih =>
    obtain ⟨k, u⟩ := x
    by_cases hk : k = a
    · subst hk
      simp only [sparseDrop, beq_self_eq_true, if_true, ih, sparseGet]
      by_cases hb : b = k <;> simp [hb]
    · simp only [sparseDrop, beq_iff_eq, hk, if_false, sparseInsert, sparseGet]
      by_cases hl : a < k
      · simp only [hl, if_true, sparseGet, sparseGet_drop, beq_iff_eq]
        by_cases hb : b = a
        · simp [hb]
        · simp [hb]
      · simp only [hl, if_false, sparseGet, ih]
        by_cases hb : b = k
        · subst hb; simp [hk]
        · simp [hb]

/-- A read after a write to the same address gives the value written; every other address reads as before. -/
theorem sparseGet_set (m : Sparse w) (a : Nat) (v : BitVec w) (b : Nat) :
    sparseGet d (sparseSet d m a v) b = if b = a then v else sparseGet d m b := by
  unfold sparseSet
  by_cases hv : v = d a
  · simp only [hv, if_true, sparseGet_drop, beq_iff_eq]
    by_cases hb : b = a <;> simp [hb]
  · simp only [hv, if_false, sparseGet_insert]

/-! ## The canonical form -/

theorem sparseAbove_trans {a k : Nat} (h : a < k) {m : Sparse w} (hm : sparseAbove k m = true) : sparseAbove a m = true := by
  cases m with
  | nil => rfl
  | cons x r => obtain ⟨j, u⟩ := x; simp only [sparseAbove, decide_eq_true_eq] at *; omega

theorem sparseAbove_drop (p : Nat → Bool) (a : Nat) (m : Sparse w) (h : sparseWf d m = true) (ha : sparseAbove a m = true) :
    sparseAbove a (sparseDrop p m) = true := by
  induction m with
  | nil => rfl
  | cons x r ih =>
    obtain ⟨k, v⟩ := x
    simp only [sparseWf, Bool.and_eq_true] at h
    simp only [sparseAbove, decide_eq_true_eq] at ha
    by_cases hk : p k = true
    · simp only [sparseDrop, hk, if_true]
      exact ih h.2 (sparseAbove_trans ha h.1.2)
    · simp [sparseDrop, hk, sparseAbove, ha]

/-- Dropping entries keeps the canonical form. -/
theorem sparseWf_drop (p : Nat → Bool) (m : Sparse w) (h : sparseWf d m = true) : sparseWf d (sparseDrop p m) = true := by
  induction m with
  | nil => rfl
  | cons x r ih =>
    obtain ⟨k, v⟩ := x
    have h' := h
    simp only [sparseWf, Bool.and_eq_true] at h
    by_cases hk : p k = true
    · simpa [sparseDrop, hk] using ih h.2
    · simp only [sparseDrop, hk, sparseWf, Bool.and_eq_true, if_false, Bool.false_eq_true]
      exact ⟨⟨h.1.1, sparseAbove_drop p k r h.2 h.1.2⟩, ih h.2⟩

theorem sparseAbove_insert {a k : Nat} (v : BitVec w) (m : Sparse w) (h : k < a) (hm : sparseAbove k m = true) :
    sparseAbove k (sparseInsert a v m) = true := by
  cases m with
  | nil => simpa [sparseInsert, sparseAbove] using h
  | cons x r =>
    obtain ⟨j, u⟩ := x
    simp only [sparseAbove, decide_eq_true_eq] at hm
    by_cases hl : a < j <;> simp [sparseInsert, hl, sparseAbove, h, hm]

theorem sparseWf_insert (a : Nat) (v : BitVec w) (m : Sparse w) (h : sparseWf d m = true) (hv : v ≠ d a)
    (ha : ∀ x ∈ m, x.1 ≠ a) : sparseWf d (sparseInsert a v m) = true := by
  induction m with
  | nil => simp [sparseInsert, sparseWf, sparseAbove, hv]
  | cons x r ih =>
    obtain ⟨k, u⟩ := x
    have h' := h
    simp only [sparseWf, Bool.and_eq_true] at h
    have hk : k ≠ a := ha (k, u) (List.mem_cons_self ..)
    by_cases hl : a < k
    · simp only [sparseInsert, hl, if_true, sparseWf, Bool.and_eq_true]
      refine ⟨⟨by simpa using hv, by simpa [sparseAbove] using hl⟩, h⟩
    · simp only [sparseInsert, hl, if_false, sparseWf, Bool.and_eq_true]
      exact ⟨⟨h.1.1, sparseAbove_insert v r (by omega) h.1.2⟩, ih h.2 fun x hx => ha x (List.mem_cons_of_mem _ hx)⟩

theorem mem_sparseDrop (p : Nat → Bool) (m : Sparse w) : ∀ x ∈ sparseDrop p m, p x.1 = false := by
  induction m with
  | nil => simp [sparseDrop]
  | cons y r ih =>
    obtain ⟨k, v⟩ := y
    by_cases hk : p k = true
    · simpa [sparseDrop, hk] using ih
    · simp only [sparseDrop, hk, if_false, Bool.false_eq_true, List.mem_cons]
      rintro x (rfl | hx)
      · simpa using hk
      · exact ih x hx

/-- Every write keeps the canonical form. -/
theorem sparseWf_set (m : Sparse w) (a : Nat) (v : BitVec w) (h : sparseWf d m = true) :
    sparseWf d (sparseSet d m a v) = true := by
  unfold sparseSet
  by_cases hv : v = d a
  · simpa [hv] using sparseWf_drop _ m h
  · simp only [hv, if_false]
    refine sparseWf_insert a v _ (sparseWf_drop _ m h) hv fun x hx => ?_
    simpa using mem_sparseDrop _ m x hx

end Sys2Proof.Machine
end

