-- ==== Sys2Proof/Laws/State.lean ====
section
/-! SUPPORT. The laws of State: what each update leaves of each field, and what registers and fields of registers read as after
a write. -/

namespace Sys2Proof.Machine

/-! ### setWord -/

@[simp] theorem State.setWord_pending (s : State) (a : Nat) (v : Word) : (s.setWord a v).pending = s.pending := rfl
@[simp] theorem State.setWord_tick (s : State) (a : Nat) (v : Word) : (s.setWord a v).tick = s.tick := rfl
@[simp] theorem State.setWord_devBase (s : State) (a : Nat) (v : Word) : (s.setWord a v).devBase = s.devBase := rfl
@[simp] theorem State.setWord_free (s : State) (a : Nat) (v : Word) : (s.setWord a v).free = s.free := rfl
@[simp] theorem State.setWord_out (s : State) (a : Nat) (v : Word) : (s.setWord a v).out = s.out := rfl
@[simp] theorem State.setWord_latch (s : State) (a : Nat) (v : Word) : (s.setWord a v).latch = s.latch := rfl
@[simp] theorem State.setWord_chans (s : State) (a : Nat) (v : Word) : (s.setWord a v).chans = s.chans := rfl
@[simp] theorem State.setWord_jnl (s : State) (a : Nat) (v : Word) : (s.setWord a v).jnl = s.jnl := rfl
@[simp] theorem State.setWord_capo (s : State) (a : Nat) (v : Word) : (s.setWord a v).capo = s.capo := rfl
@[simp] theorem State.setWord_mbx (s : State) (a : Nat) (v : Word) : (s.setWord a v).mbx = s.mbx := rfl
@[simp] theorem State.setWord_host (s : State) (a : Nat) (v : Word) : (s.setWord a v).host = s.host := rfl
@[simp] theorem State.setWord_flt (s : State) (a : Nat) (v : Word) : (s.setWord a v).flt = s.flt := rfl
@[simp] theorem State.setWord_sp (s : State) (a : Nat) (v : Word) : (s.setWord a v).sp = s.sp := rfl
@[simp] theorem State.setWord_pwr (s : State) (a : Nat) (v : Word) : (s.setWord a v).pwr = s.pwr := rfl
@[simp] theorem State.setWord_boot (s : State) (a : Nat) (v : Word) : (s.setWord a v).boot = s.boot := rfl
@[simp] theorem State.setWord_pos (s : State) (a : Nat) (v : Word) : (s.setWord a v).pos = s.pos := rfl
@[simp] theorem State.setWord_ins (s : State) (a : Nat) (v : Word) : (s.setWord a v).ins = s.ins := rfl
@[simp] theorem State.setWord_tun (s : State) (a : Nat) (v : Word) : (s.setWord a v).tun = s.tun := rfl
@[simp] theorem State.setWord_thm (s : State) (a : Nat) (v : Word) : (s.setWord a v).thm = s.thm := rfl
@[simp] theorem State.setWord_mot (s : State) (a : Nat) (v : Word) : (s.setWord a v).mot = s.mot := rfl
@[simp] theorem State.setWord_ch (s : State) (a : Nat) (v : Word) (k : Fin 16) : (s.setWord a v).ch k = s.ch k := rfl
@[simp] theorem State.setWord_journal (s : State) (a : Nat) (v : Word) (k : Fin 16) : (s.setWord a v).journal k = s.journal k := rfl

/-! ### put -/

@[simp] theorem State.put_pending (s : State) (f : Fld) (v : Nat) : (s.put f v).pending = s.pending := rfl
@[simp] theorem State.put_tick (s : State) (f : Fld) (v : Nat) : (s.put f v).tick = s.tick := rfl
@[simp] theorem State.put_devBase (s : State) (f : Fld) (v : Nat) : (s.put f v).devBase = s.devBase := rfl
@[simp] theorem State.put_free (s : State) (f : Fld) (v : Nat) : (s.put f v).free = s.free := rfl
@[simp] theorem State.put_out (s : State) (f : Fld) (v : Nat) : (s.put f v).out = s.out := rfl
@[simp] theorem State.put_latch (s : State) (f : Fld) (v : Nat) : (s.put f v).latch = s.latch := rfl
@[simp] theorem State.put_chans (s : State) (f : Fld) (v : Nat) : (s.put f v).chans = s.chans := rfl
@[simp] theorem State.put_jnl (s : State) (f : Fld) (v : Nat) : (s.put f v).jnl = s.jnl := rfl
@[simp] theorem State.put_capo (s : State) (f : Fld) (v : Nat) : (s.put f v).capo = s.capo := rfl
@[simp] theorem State.put_mbx (s : State) (f : Fld) (v : Nat) : (s.put f v).mbx = s.mbx := rfl
@[simp] theorem State.put_host (s : State) (f : Fld) (v : Nat) : (s.put f v).host = s.host := rfl
@[simp] theorem State.put_flt (s : State) (f : Fld) (v : Nat) : (s.put f v).flt = s.flt := rfl
@[simp] theorem State.put_sp (s : State) (f : Fld) (v : Nat) : (s.put f v).sp = s.sp := rfl
@[simp] theorem State.put_pwr (s : State) (f : Fld) (v : Nat) : (s.put f v).pwr = s.pwr := rfl
@[simp] theorem State.put_boot (s : State) (f : Fld) (v : Nat) : (s.put f v).boot = s.boot := rfl
@[simp] theorem State.put_pos (s : State) (f : Fld) (v : Nat) : (s.put f v).pos = s.pos := rfl
@[simp] theorem State.put_ins (s : State) (f : Fld) (v : Nat) : (s.put f v).ins = s.ins := rfl
@[simp] theorem State.put_tun (s : State) (f : Fld) (v : Nat) : (s.put f v).tun = s.tun := rfl
@[simp] theorem State.put_thm (s : State) (f : Fld) (v : Nat) : (s.put f v).thm = s.thm := rfl
@[simp] theorem State.put_mot (s : State) (f : Fld) (v : Nat) : (s.put f v).mot = s.mot := rfl
@[simp] theorem State.put_ch (s : State) (f : Fld) (v : Nat) (k : Fin 16) : (s.put f v).ch k = s.ch k := rfl
@[simp] theorem State.put_journal (s : State) (f : Fld) (v : Nat) (k : Fin 16) : (s.put f v).journal k = s.journal k := rfl

/-! ### bump -/

@[simp] theorem State.bump_pending (s : State) (f : Fld) (v : Nat) : (s.bump f v).pending = s.pending := rfl
@[simp] theorem State.bump_tick (s : State) (f : Fld) (v : Nat) : (s.bump f v).tick = s.tick := rfl
@[simp] theorem State.bump_devBase (s : State) (f : Fld) (v : Nat) : (s.bump f v).devBase = s.devBase := rfl
@[simp] theorem State.bump_free (s : State) (f : Fld) (v : Nat) : (s.bump f v).free = s.free := rfl
@[simp] theorem State.bump_out (s : State) (f : Fld) (v : Nat) : (s.bump f v).out = s.out := rfl
@[simp] theorem State.bump_latch (s : State) (f : Fld) (v : Nat) : (s.bump f v).latch = s.latch := rfl
@[simp] theorem State.bump_chans (s : State) (f : Fld) (v : Nat) : (s.bump f v).chans = s.chans := rfl
@[simp] theorem State.bump_jnl (s : State) (f : Fld) (v : Nat) : (s.bump f v).jnl = s.jnl := rfl
@[simp] theorem State.bump_capo (s : State) (f : Fld) (v : Nat) : (s.bump f v).capo = s.capo := rfl
@[simp] theorem State.bump_mbx (s : State) (f : Fld) (v : Nat) : (s.bump f v).mbx = s.mbx := rfl
@[simp] theorem State.bump_host (s : State) (f : Fld) (v : Nat) : (s.bump f v).host = s.host := rfl
@[simp] theorem State.bump_flt (s : State) (f : Fld) (v : Nat) : (s.bump f v).flt = s.flt := rfl
@[simp] theorem State.bump_sp (s : State) (f : Fld) (v : Nat) : (s.bump f v).sp = s.sp := rfl
@[simp] theorem State.bump_pwr (s : State) (f : Fld) (v : Nat) : (s.bump f v).pwr = s.pwr := rfl
@[simp] theorem State.bump_boot (s : State) (f : Fld) (v : Nat) : (s.bump f v).boot = s.boot := rfl
@[simp] theorem State.bump_pos (s : State) (f : Fld) (v : Nat) : (s.bump f v).pos = s.pos := rfl
@[simp] theorem State.bump_ins (s : State) (f : Fld) (v : Nat) : (s.bump f v).ins = s.ins := rfl
@[simp] theorem State.bump_tun (s : State) (f : Fld) (v : Nat) : (s.bump f v).tun = s.tun := rfl
@[simp] theorem State.bump_thm (s : State) (f : Fld) (v : Nat) : (s.bump f v).thm = s.thm := rfl
@[simp] theorem State.bump_mot (s : State) (f : Fld) (v : Nat) : (s.bump f v).mot = s.mot := rfl
@[simp] theorem State.bump_ch (s : State) (f : Fld) (v : Nat) (k : Fin 16) : (s.bump f v).ch k = s.ch k := rfl
@[simp] theorem State.bump_journal (s : State) (f : Fld) (v : Nat) (k : Fin 16) : (s.bump f v).journal k = s.journal k := rfl

/-! ### wrapAdd -/

@[simp] theorem State.wrapAdd_pending (s : State) (f : Fld) (v : Nat) : (s.wrapAdd f v).pending = s.pending := rfl
@[simp] theorem State.wrapAdd_tick (s : State) (f : Fld) (v : Nat) : (s.wrapAdd f v).tick = s.tick := rfl
@[simp] theorem State.wrapAdd_devBase (s : State) (f : Fld) (v : Nat) : (s.wrapAdd f v).devBase = s.devBase := rfl
@[simp] theorem State.wrapAdd_free (s : State) (f : Fld) (v : Nat) : (s.wrapAdd f v).free = s.free := rfl
@[simp] theorem State.wrapAdd_out (s : State) (f : Fld) (v : Nat) : (s.wrapAdd f v).out = s.out := rfl
@[simp] theorem State.wrapAdd_latch (s : State) (f : Fld) (v : Nat) : (s.wrapAdd f v).latch = s.latch := rfl
@[simp] theorem State.wrapAdd_chans (s : State) (f : Fld) (v : Nat) : (s.wrapAdd f v).chans = s.chans := rfl
@[simp] theorem State.wrapAdd_jnl (s : State) (f : Fld) (v : Nat) : (s.wrapAdd f v).jnl = s.jnl := rfl
@[simp] theorem State.wrapAdd_capo (s : State) (f : Fld) (v : Nat) : (s.wrapAdd f v).capo = s.capo := rfl
@[simp] theorem State.wrapAdd_mbx (s : State) (f : Fld) (v : Nat) : (s.wrapAdd f v).mbx = s.mbx := rfl
@[simp] theorem State.wrapAdd_host (s : State) (f : Fld) (v : Nat) : (s.wrapAdd f v).host = s.host := rfl
@[simp] theorem State.wrapAdd_flt (s : State) (f : Fld) (v : Nat) : (s.wrapAdd f v).flt = s.flt := rfl
@[simp] theorem State.wrapAdd_sp (s : State) (f : Fld) (v : Nat) : (s.wrapAdd f v).sp = s.sp := rfl
@[simp] theorem State.wrapAdd_pwr (s : State) (f : Fld) (v : Nat) : (s.wrapAdd f v).pwr = s.pwr := rfl
@[simp] theorem State.wrapAdd_boot (s : State) (f : Fld) (v : Nat) : (s.wrapAdd f v).boot = s.boot := rfl
@[simp] theorem State.wrapAdd_pos (s : State) (f : Fld) (v : Nat) : (s.wrapAdd f v).pos = s.pos := rfl
@[simp] theorem State.wrapAdd_ins (s : State) (f : Fld) (v : Nat) : (s.wrapAdd f v).ins = s.ins := rfl
@[simp] theorem State.wrapAdd_tun (s : State) (f : Fld) (v : Nat) : (s.wrapAdd f v).tun = s.tun := rfl
@[simp] theorem State.wrapAdd_thm (s : State) (f : Fld) (v : Nat) : (s.wrapAdd f v).thm = s.thm := rfl
@[simp] theorem State.wrapAdd_mot (s : State) (f : Fld) (v : Nat) : (s.wrapAdd f v).mot = s.mot := rfl
@[simp] theorem State.wrapAdd_ch (s : State) (f : Fld) (v : Nat) (k : Fin 16) : (s.wrapAdd f v).ch k = s.ch k := rfl
@[simp] theorem State.wrapAdd_journal (s : State) (f : Fld) (v : Nat) (k : Fin 16) : (s.wrapAdd f v).journal k = s.journal k := rfl

/-! ### setPair -/

@[simp] theorem State.setPair_pending (s : State) (a b v : Nat) : (s.setPair a b v).pending = s.pending := rfl
@[simp] theorem State.setPair_tick (s : State) (a b v : Nat) : (s.setPair a b v).tick = s.tick := rfl
@[simp] theorem State.setPair_devBase (s : State) (a b v : Nat) : (s.setPair a b v).devBase = s.devBase := rfl
@[simp] theorem State.setPair_free (s : State) (a b v : Nat) : (s.setPair a b v).free = s.free := rfl
@[simp] theorem State.setPair_out (s : State) (a b v : Nat) : (s.setPair a b v).out = s.out := rfl
@[simp] theorem State.setPair_latch (s : State) (a b v : Nat) : (s.setPair a b v).latch = s.latch := rfl
@[simp] theorem State.setPair_chans (s : State) (a b v : Nat) : (s.setPair a b v).chans = s.chans := rfl
@[simp] theorem State.setPair_jnl (s : State) (a b v : Nat) : (s.setPair a b v).jnl = s.jnl := rfl
@[simp] theorem State.setPair_capo (s : State) (a b v : Nat) : (s.setPair a b v).capo = s.capo := rfl
@[simp] theorem State.setPair_mbx (s : State) (a b v : Nat) : (s.setPair a b v).mbx = s.mbx := rfl
@[simp] theorem State.setPair_host (s : State) (a b v : Nat) : (s.setPair a b v).host = s.host := rfl
@[simp] theorem State.setPair_flt (s : State) (a b v : Nat) : (s.setPair a b v).flt = s.flt := rfl
@[simp] theorem State.setPair_sp (s : State) (a b v : Nat) : (s.setPair a b v).sp = s.sp := rfl
@[simp] theorem State.setPair_pwr (s : State) (a b v : Nat) : (s.setPair a b v).pwr = s.pwr := rfl
@[simp] theorem State.setPair_boot (s : State) (a b v : Nat) : (s.setPair a b v).boot = s.boot := rfl
@[simp] theorem State.setPair_pos (s : State) (a b v : Nat) : (s.setPair a b v).pos = s.pos := rfl
@[simp] theorem State.setPair_ins (s : State) (a b v : Nat) : (s.setPair a b v).ins = s.ins := rfl
@[simp] theorem State.setPair_tun (s : State) (a b v : Nat) : (s.setPair a b v).tun = s.tun := rfl
@[simp] theorem State.setPair_thm (s : State) (a b v : Nat) : (s.setPair a b v).thm = s.thm := rfl
@[simp] theorem State.setPair_mot (s : State) (a b v : Nat) : (s.setPair a b v).mot = s.mot := rfl
@[simp] theorem State.setPair_ch (s : State) (a b v : Nat) (k : Fin 16) : (s.setPair a b v).ch k = s.ch k := rfl
@[simp] theorem State.setPair_journal (s : State) (a b v : Nat) (k : Fin 16) : (s.setPair a b v).journal k = s.journal k := rfl

/-! ### setDom -/

@[simp] theorem State.setDom_pending (s : State) (d v : Nat) : (s.setDom d v).pending = s.pending := rfl
@[simp] theorem State.setDom_tick (s : State) (d v : Nat) : (s.setDom d v).tick = s.tick := rfl
@[simp] theorem State.setDom_devBase (s : State) (d v : Nat) : (s.setDom d v).devBase = s.devBase := rfl
@[simp] theorem State.setDom_free (s : State) (d v : Nat) : (s.setDom d v).free = s.free := rfl
@[simp] theorem State.setDom_out (s : State) (d v : Nat) : (s.setDom d v).out = s.out := rfl
@[simp] theorem State.setDom_latch (s : State) (d v : Nat) : (s.setDom d v).latch = s.latch := rfl
@[simp] theorem State.setDom_chans (s : State) (d v : Nat) : (s.setDom d v).chans = s.chans := rfl
@[simp] theorem State.setDom_jnl (s : State) (d v : Nat) : (s.setDom d v).jnl = s.jnl := rfl
@[simp] theorem State.setDom_capo (s : State) (d v : Nat) : (s.setDom d v).capo = s.capo := rfl
@[simp] theorem State.setDom_mbx (s : State) (d v : Nat) : (s.setDom d v).mbx = s.mbx := rfl
@[simp] theorem State.setDom_host (s : State) (d v : Nat) : (s.setDom d v).host = s.host := rfl
@[simp] theorem State.setDom_flt (s : State) (d v : Nat) : (s.setDom d v).flt = s.flt := rfl
@[simp] theorem State.setDom_sp (s : State) (d v : Nat) : (s.setDom d v).sp = s.sp := rfl
@[simp] theorem State.setDom_pwr (s : State) (d v : Nat) : (s.setDom d v).pwr = s.pwr := rfl
@[simp] theorem State.setDom_boot (s : State) (d v : Nat) : (s.setDom d v).boot = s.boot := rfl
@[simp] theorem State.setDom_pos (s : State) (d v : Nat) : (s.setDom d v).pos = s.pos := rfl
@[simp] theorem State.setDom_ins (s : State) (d v : Nat) : (s.setDom d v).ins = s.ins := rfl
@[simp] theorem State.setDom_tun (s : State) (d v : Nat) : (s.setDom d v).tun = s.tun := rfl
@[simp] theorem State.setDom_thm (s : State) (d v : Nat) : (s.setDom d v).thm = s.thm := rfl
@[simp] theorem State.setDom_mot (s : State) (d v : Nat) : (s.setDom d v).mot = s.mot := rfl
@[simp] theorem State.setDom_ch (s : State) (d v : Nat) (k : Fin 16) : (s.setDom d v).ch k = s.ch k := rfl
@[simp] theorem State.setDom_journal (s : State) (d v : Nat) (k : Fin 16) : (s.setDom d v).journal k = s.journal k := rfl

/-! ### emit -/

@[simp] theorem State.emit_pending (s : State) (o : Output) : (s.emit o).pending = s.pending := rfl
@[simp] theorem State.emit_tick (s : State) (o : Output) : (s.emit o).tick = s.tick := rfl
@[simp] theorem State.emit_devBase (s : State) (o : Output) : (s.emit o).devBase = s.devBase := rfl
@[simp] theorem State.emit_free (s : State) (o : Output) : (s.emit o).free = s.free := rfl
@[simp] theorem State.emit_bar (s : State) (o : Output) : (s.emit o).bar = s.bar := rfl
@[simp] theorem State.emit_latch (s : State) (o : Output) : (s.emit o).latch = s.latch := rfl
@[simp] theorem State.emit_chans (s : State) (o : Output) : (s.emit o).chans = s.chans := rfl
@[simp] theorem State.emit_jnl (s : State) (o : Output) : (s.emit o).jnl = s.jnl := rfl
@[simp] theorem State.emit_capo (s : State) (o : Output) : (s.emit o).capo = s.capo := rfl
@[simp] theorem State.emit_mbx (s : State) (o : Output) : (s.emit o).mbx = s.mbx := rfl
@[simp] theorem State.emit_host (s : State) (o : Output) : (s.emit o).host = s.host := rfl
@[simp] theorem State.emit_flt (s : State) (o : Output) : (s.emit o).flt = s.flt := rfl
@[simp] theorem State.emit_sp (s : State) (o : Output) : (s.emit o).sp = s.sp := rfl
@[simp] theorem State.emit_pwr (s : State) (o : Output) : (s.emit o).pwr = s.pwr := rfl
@[simp] theorem State.emit_boot (s : State) (o : Output) : (s.emit o).boot = s.boot := rfl
@[simp] theorem State.emit_pos (s : State) (o : Output) : (s.emit o).pos = s.pos := rfl
@[simp] theorem State.emit_ins (s : State) (o : Output) : (s.emit o).ins = s.ins := rfl
@[simp] theorem State.emit_tun (s : State) (o : Output) : (s.emit o).tun = s.tun := rfl
@[simp] theorem State.emit_thm (s : State) (o : Output) : (s.emit o).thm = s.thm := rfl
@[simp] theorem State.emit_mot (s : State) (o : Output) : (s.emit o).mot = s.mot := rfl
@[simp] theorem State.emit_word (s : State) (o : Output) (k : Nat) : (s.emit o).word k = s.word k := (rfl)
@[simp] theorem State.emit_get (s : State) (o : Output) (g : Fld) : (s.emit o).get g = s.get g := (rfl)
@[simp] theorem State.emit_flag (s : State) (o : Output) (g : Fld) : (s.emit o).flag g = s.flag g := (rfl)
@[simp] theorem State.emit_ch (s : State) (o : Output) (k : Fin 16) : (s.emit o).ch k = s.ch k := rfl
@[simp] theorem State.emit_journal (s : State) (o : Output) (k : Fin 16) : (s.emit o).journal k = s.journal k := rfl

/-! ### takeFree -/

@[simp] theorem State.takeFree_pending (s : State) : (s.takeFree).pending = s.pending := rfl
@[simp] theorem State.takeFree_tick (s : State) : (s.takeFree).tick = s.tick := rfl
@[simp] theorem State.takeFree_devBase (s : State) : (s.takeFree).devBase = s.devBase := rfl
@[simp] theorem State.takeFree_out (s : State) : (s.takeFree).out = s.out := rfl
@[simp] theorem State.takeFree_bar (s : State) : (s.takeFree).bar = s.bar := rfl
@[simp] theorem State.takeFree_latch (s : State) : (s.takeFree).latch = s.latch := rfl
@[simp] theorem State.takeFree_chans (s : State) : (s.takeFree).chans = s.chans := rfl
@[simp] theorem State.takeFree_jnl (s : State) : (s.takeFree).jnl = s.jnl := rfl
@[simp] theorem State.takeFree_capo (s : State) : (s.takeFree).capo = s.capo := rfl
@[simp] theorem State.takeFree_mbx (s : State) : (s.takeFree).mbx = s.mbx := rfl
@[simp] theorem State.takeFree_host (s : State) : (s.takeFree).host = s.host := rfl
@[simp] theorem State.takeFree_flt (s : State) : (s.takeFree).flt = s.flt := rfl
@[simp] theorem State.takeFree_sp (s : State) : (s.takeFree).sp = s.sp := rfl
@[simp] theorem State.takeFree_pwr (s : State) : (s.takeFree).pwr = s.pwr := rfl
@[simp] theorem State.takeFree_boot (s : State) : (s.takeFree).boot = s.boot := rfl
@[simp] theorem State.takeFree_pos (s : State) : (s.takeFree).pos = s.pos := rfl
@[simp] theorem State.takeFree_ins (s : State) : (s.takeFree).ins = s.ins := rfl
@[simp] theorem State.takeFree_tun (s : State) : (s.takeFree).tun = s.tun := rfl
@[simp] theorem State.takeFree_thm (s : State) : (s.takeFree).thm = s.thm := rfl
@[simp] theorem State.takeFree_mot (s : State) : (s.takeFree).mot = s.mot := rfl
@[simp] theorem State.takeFree_word (s : State) (k : Nat) : (s.takeFree).word k = s.word k := (rfl)
@[simp] theorem State.takeFree_get (s : State) (g : Fld) : (s.takeFree).get g = s.get g := (rfl)
@[simp] theorem State.takeFree_flag (s : State) (g : Fld) : (s.takeFree).flag g = s.flag g := (rfl)
@[simp] theorem State.takeFree_ch (s : State) (k : Fin 16) : (s.takeFree).ch k = s.ch k := rfl
@[simp] theorem State.takeFree_journal (s : State) (k : Fin 16) : (s.takeFree).journal k = s.journal k := rfl

/-! ### modCh -/

@[simp] theorem State.modCh_pending (s : State) (n : Fin 16) (f : Chan → Chan) : (s.modCh n f).pending = s.pending := rfl
@[simp] theorem State.modCh_tick (s : State) (n : Fin 16) (f : Chan → Chan) : (s.modCh n f).tick = s.tick := rfl
@[simp] theorem State.modCh_devBase (s : State) (n : Fin 16) (f : Chan → Chan) : (s.modCh n f).devBase = s.devBase := rfl
@[simp] theorem State.modCh_free (s : State) (n : Fin 16) (f : Chan → Chan) : (s.modCh n f).free = s.free := rfl
@[simp] theorem State.modCh_out (s : State) (n : Fin 16) (f : Chan → Chan) : (s.modCh n f).out = s.out := rfl
@[simp] theorem State.modCh_bar (s : State) (n : Fin 16) (f : Chan → Chan) : (s.modCh n f).bar = s.bar := rfl
@[simp] theorem State.modCh_latch (s : State) (n : Fin 16) (f : Chan → Chan) : (s.modCh n f).latch = s.latch := rfl
@[simp] theorem State.modCh_jnl (s : State) (n : Fin 16) (f : Chan → Chan) : (s.modCh n f).jnl = s.jnl := rfl
@[simp] theorem State.modCh_capo (s : State) (n : Fin 16) (f : Chan → Chan) : (s.modCh n f).capo = s.capo := rfl
@[simp] theorem State.modCh_mbx (s : State) (n : Fin 16) (f : Chan → Chan) : (s.modCh n f).mbx = s.mbx := rfl
@[simp] theorem State.modCh_host (s : State) (n : Fin 16) (f : Chan → Chan) : (s.modCh n f).host = s.host := rfl
@[simp] theorem State.modCh_flt (s : State) (n : Fin 16) (f : Chan → Chan) : (s.modCh n f).flt = s.flt := rfl
@[simp] theorem State.modCh_sp (s : State) (n : Fin 16) (f : Chan → Chan) : (s.modCh n f).sp = s.sp := rfl
@[simp] theorem State.modCh_pwr (s : State) (n : Fin 16) (f : Chan → Chan) : (s.modCh n f).pwr = s.pwr := rfl
@[simp] theorem State.modCh_boot (s : State) (n : Fin 16) (f : Chan → Chan) : (s.modCh n f).boot = s.boot := rfl
@[simp] theorem State.modCh_pos (s : State) (n : Fin 16) (f : Chan → Chan) : (s.modCh n f).pos = s.pos := rfl
@[simp] theorem State.modCh_ins (s : State) (n : Fin 16) (f : Chan → Chan) : (s.modCh n f).ins = s.ins := rfl
@[simp] theorem State.modCh_tun (s : State) (n : Fin 16) (f : Chan → Chan) : (s.modCh n f).tun = s.tun := rfl
@[simp] theorem State.modCh_thm (s : State) (n : Fin 16) (f : Chan → Chan) : (s.modCh n f).thm = s.thm := rfl
@[simp] theorem State.modCh_mot (s : State) (n : Fin 16) (f : Chan → Chan) : (s.modCh n f).mot = s.mot := rfl
@[simp] theorem State.modCh_word (s : State) (n : Fin 16) (f : Chan → Chan) (k : Nat) : (s.modCh n f).word k = s.word k := (rfl)
@[simp] theorem State.modCh_get (s : State) (n : Fin 16) (f : Chan → Chan) (g : Fld) : (s.modCh n f).get g = s.get g := (rfl)
@[simp] theorem State.modCh_flag (s : State) (n : Fin 16) (f : Chan → Chan) (g : Fld) : (s.modCh n f).flag g = s.flag g := (rfl)
@[simp] theorem State.modCh_journal (s : State) (n : Fin 16) (f : Chan → Chan) (k : Fin 16) : (s.modCh n f).journal k = s.journal k := rfl

/-! ### modWork -/

@[simp] theorem State.modWork_pending (s : State) (n : Fin 16) (f : Work → Work) : (s.modWork n f).pending = s.pending := rfl
@[simp] theorem State.modWork_tick (s : State) (n : Fin 16) (f : Work → Work) : (s.modWork n f).tick = s.tick := rfl
@[simp] theorem State.modWork_devBase (s : State) (n : Fin 16) (f : Work → Work) : (s.modWork n f).devBase = s.devBase := rfl
@[simp] theorem State.modWork_free (s : State) (n : Fin 16) (f : Work → Work) : (s.modWork n f).free = s.free := rfl
@[simp] theorem State.modWork_out (s : State) (n : Fin 16) (f : Work → Work) : (s.modWork n f).out = s.out := rfl
@[simp] theorem State.modWork_bar (s : State) (n : Fin 16) (f : Work → Work) : (s.modWork n f).bar = s.bar := rfl
@[simp] theorem State.modWork_latch (s : State) (n : Fin 16) (f : Work → Work) : (s.modWork n f).latch = s.latch := rfl
@[simp] theorem State.modWork_jnl (s : State) (n : Fin 16) (f : Work → Work) : (s.modWork n f).jnl = s.jnl := rfl
@[simp] theorem State.modWork_capo (s : State) (n : Fin 16) (f : Work → Work) : (s.modWork n f).capo = s.capo := rfl
@[simp] theorem State.modWork_mbx (s : State) (n : Fin 16) (f : Work → Work) : (s.modWork n f).mbx = s.mbx := rfl
@[simp] theorem State.modWork_host (s : State) (n : Fin 16) (f : Work → Work) : (s.modWork n f).host = s.host := rfl
@[simp] theorem State.modWork_flt (s : State) (n : Fin 16) (f : Work → Work) : (s.modWork n f).flt = s.flt := rfl
@[simp] theorem State.modWork_sp (s : State) (n : Fin 16) (f : Work → Work) : (s.modWork n f).sp = s.sp := rfl
@[simp] theorem State.modWork_pwr (s : State) (n : Fin 16) (f : Work → Work) : (s.modWork n f).pwr = s.pwr := rfl
@[simp] theorem State.modWork_boot (s : State) (n : Fin 16) (f : Work → Work) : (s.modWork n f).boot = s.boot := rfl
@[simp] theorem State.modWork_pos (s : State) (n : Fin 16) (f : Work → Work) : (s.modWork n f).pos = s.pos := rfl
@[simp] theorem State.modWork_ins (s : State) (n : Fin 16) (f : Work → Work) : (s.modWork n f).ins = s.ins := rfl
@[simp] theorem State.modWork_tun (s : State) (n : Fin 16) (f : Work → Work) : (s.modWork n f).tun = s.tun := rfl
@[simp] theorem State.modWork_thm (s : State) (n : Fin 16) (f : Work → Work) : (s.modWork n f).thm = s.thm := rfl
@[simp] theorem State.modWork_mot (s : State) (n : Fin 16) (f : Work → Work) : (s.modWork n f).mot = s.mot := rfl
@[simp] theorem State.modWork_word (s : State) (n : Fin 16) (f : Work → Work) (k : Nat) : (s.modWork n f).word k = s.word k := (rfl)
@[simp] theorem State.modWork_get (s : State) (n : Fin 16) (f : Work → Work) (g : Fld) : (s.modWork n f).get g = s.get g := (rfl)
@[simp] theorem State.modWork_flag (s : State) (n : Fin 16) (f : Work → Work) (g : Fld) : (s.modWork n f).flag g = s.flag g := (rfl)
@[simp] theorem State.modWork_journal (s : State) (n : Fin 16) (f : Work → Work) (k : Fin 16) : (s.modWork n f).journal k = s.journal k := rfl

/-! ### modImg -/

@[simp] theorem State.modImg_pending (s : State) (n : Fin 16) (f : Img → Img) : (s.modImg n f).pending = s.pending := rfl
@[simp] theorem State.modImg_tick (s : State) (n : Fin 16) (f : Img → Img) : (s.modImg n f).tick = s.tick := rfl
@[simp] theorem State.modImg_devBase (s : State) (n : Fin 16) (f : Img → Img) : (s.modImg n f).devBase = s.devBase := rfl
@[simp] theorem State.modImg_free (s : State) (n : Fin 16) (f : Img → Img) : (s.modImg n f).free = s.free := rfl
@[simp] theorem State.modImg_out (s : State) (n : Fin 16) (f : Img → Img) : (s.modImg n f).out = s.out := rfl
@[simp] theorem State.modImg_bar (s : State) (n : Fin 16) (f : Img → Img) : (s.modImg n f).bar = s.bar := rfl
@[simp] theorem State.modImg_latch (s : State) (n : Fin 16) (f : Img → Img) : (s.modImg n f).latch = s.latch := rfl
@[simp] theorem State.modImg_jnl (s : State) (n : Fin 16) (f : Img → Img) : (s.modImg n f).jnl = s.jnl := rfl
@[simp] theorem State.modImg_capo (s : State) (n : Fin 16) (f : Img → Img) : (s.modImg n f).capo = s.capo := rfl
@[simp] theorem State.modImg_mbx (s : State) (n : Fin 16) (f : Img → Img) : (s.modImg n f).mbx = s.mbx := rfl
@[simp] theorem State.modImg_host (s : State) (n : Fin 16) (f : Img → Img) : (s.modImg n f).host = s.host := rfl
@[simp] theorem State.modImg_flt (s : State) (n : Fin 16) (f : Img → Img) : (s.modImg n f).flt = s.flt := rfl
@[simp] theorem State.modImg_sp (s : State) (n : Fin 16) (f : Img → Img) : (s.modImg n f).sp = s.sp := rfl
@[simp] theorem State.modImg_pwr (s : State) (n : Fin 16) (f : Img → Img) : (s.modImg n f).pwr = s.pwr := rfl
@[simp] theorem State.modImg_boot (s : State) (n : Fin 16) (f : Img → Img) : (s.modImg n f).boot = s.boot := rfl
@[simp] theorem State.modImg_pos (s : State) (n : Fin 16) (f : Img → Img) : (s.modImg n f).pos = s.pos := rfl
@[simp] theorem State.modImg_ins (s : State) (n : Fin 16) (f : Img → Img) : (s.modImg n f).ins = s.ins := rfl
@[simp] theorem State.modImg_tun (s : State) (n : Fin 16) (f : Img → Img) : (s.modImg n f).tun = s.tun := rfl
@[simp] theorem State.modImg_thm (s : State) (n : Fin 16) (f : Img → Img) : (s.modImg n f).thm = s.thm := rfl
@[simp] theorem State.modImg_mot (s : State) (n : Fin 16) (f : Img → Img) : (s.modImg n f).mot = s.mot := rfl
@[simp] theorem State.modImg_word (s : State) (n : Fin 16) (f : Img → Img) (k : Nat) : (s.modImg n f).word k = s.word k := (rfl)
@[simp] theorem State.modImg_get (s : State) (n : Fin 16) (f : Img → Img) (g : Fld) : (s.modImg n f).get g = s.get g := (rfl)
@[simp] theorem State.modImg_flag (s : State) (n : Fin 16) (f : Img → Img) (g : Fld) : (s.modImg n f).flag g = s.flag g := (rfl)
@[simp] theorem State.modImg_journal (s : State) (n : Fin 16) (f : Img → Img) (k : Fin 16) : (s.modImg n f).journal k = s.journal k := rfl

/-! ### modWav -/

@[simp] theorem State.modWav_pending (s : State) (n : Fin 16) (f : Wav → Wav) : (s.modWav n f).pending = s.pending := rfl
@[simp] theorem State.modWav_tick (s : State) (n : Fin 16) (f : Wav → Wav) : (s.modWav n f).tick = s.tick := rfl
@[simp] theorem State.modWav_devBase (s : State) (n : Fin 16) (f : Wav → Wav) : (s.modWav n f).devBase = s.devBase := rfl
@[simp] theorem State.modWav_free (s : State) (n : Fin 16) (f : Wav → Wav) : (s.modWav n f).free = s.free := rfl
@[simp] theorem State.modWav_out (s : State) (n : Fin 16) (f : Wav → Wav) : (s.modWav n f).out = s.out := rfl
@[simp] theorem State.modWav_bar (s : State) (n : Fin 16) (f : Wav → Wav) : (s.modWav n f).bar = s.bar := rfl
@[simp] theorem State.modWav_latch (s : State) (n : Fin 16) (f : Wav → Wav) : (s.modWav n f).latch = s.latch := rfl
@[simp] theorem State.modWav_jnl (s : State) (n : Fin 16) (f : Wav → Wav) : (s.modWav n f).jnl = s.jnl := rfl
@[simp] theorem State.modWav_capo (s : State) (n : Fin 16) (f : Wav → Wav) : (s.modWav n f).capo = s.capo := rfl
@[simp] theorem State.modWav_mbx (s : State) (n : Fin 16) (f : Wav → Wav) : (s.modWav n f).mbx = s.mbx := rfl
@[simp] theorem State.modWav_host (s : State) (n : Fin 16) (f : Wav → Wav) : (s.modWav n f).host = s.host := rfl
@[simp] theorem State.modWav_flt (s : State) (n : Fin 16) (f : Wav → Wav) : (s.modWav n f).flt = s.flt := rfl
@[simp] theorem State.modWav_sp (s : State) (n : Fin 16) (f : Wav → Wav) : (s.modWav n f).sp = s.sp := rfl
@[simp] theorem State.modWav_pwr (s : State) (n : Fin 16) (f : Wav → Wav) : (s.modWav n f).pwr = s.pwr := rfl
@[simp] theorem State.modWav_boot (s : State) (n : Fin 16) (f : Wav → Wav) : (s.modWav n f).boot = s.boot := rfl
@[simp] theorem State.modWav_pos (s : State) (n : Fin 16) (f : Wav → Wav) : (s.modWav n f).pos = s.pos := rfl
@[simp] theorem State.modWav_ins (s : State) (n : Fin 16) (f : Wav → Wav) : (s.modWav n f).ins = s.ins := rfl
@[simp] theorem State.modWav_tun (s : State) (n : Fin 16) (f : Wav → Wav) : (s.modWav n f).tun = s.tun := rfl
@[simp] theorem State.modWav_thm (s : State) (n : Fin 16) (f : Wav → Wav) : (s.modWav n f).thm = s.thm := rfl
@[simp] theorem State.modWav_mot (s : State) (n : Fin 16) (f : Wav → Wav) : (s.modWav n f).mot = s.mot := rfl
@[simp] theorem State.modWav_word (s : State) (n : Fin 16) (f : Wav → Wav) (k : Nat) : (s.modWav n f).word k = s.word k := (rfl)
@[simp] theorem State.modWav_get (s : State) (n : Fin 16) (f : Wav → Wav) (g : Fld) : (s.modWav n f).get g = s.get g := (rfl)
@[simp] theorem State.modWav_flag (s : State) (n : Fin 16) (f : Wav → Wav) (g : Fld) : (s.modWav n f).flag g = s.flag g := (rfl)
@[simp] theorem State.modWav_journal (s : State) (n : Fin 16) (f : Wav → Wav) (k : Fin 16) : (s.modWav n f).journal k = s.journal k := rfl

/-! ### modDut -/

@[simp] theorem State.modDut_pending (s : State) (n : Fin 16) (f : Dut → Dut) : (s.modDut n f).pending = s.pending := rfl
@[simp] theorem State.modDut_tick (s : State) (n : Fin 16) (f : Dut → Dut) : (s.modDut n f).tick = s.tick := rfl
@[simp] theorem State.modDut_devBase (s : State) (n : Fin 16) (f : Dut → Dut) : (s.modDut n f).devBase = s.devBase := rfl
@[simp] theorem State.modDut_free (s : State) (n : Fin 16) (f : Dut → Dut) : (s.modDut n f).free = s.free := rfl
@[simp] theorem State.modDut_out (s : State) (n : Fin 16) (f : Dut → Dut) : (s.modDut n f).out = s.out := rfl
@[simp] theorem State.modDut_bar (s : State) (n : Fin 16) (f : Dut → Dut) : (s.modDut n f).bar = s.bar := rfl
@[simp] theorem State.modDut_latch (s : State) (n : Fin 16) (f : Dut → Dut) : (s.modDut n f).latch = s.latch := rfl
@[simp] theorem State.modDut_jnl (s : State) (n : Fin 16) (f : Dut → Dut) : (s.modDut n f).jnl = s.jnl := rfl
@[simp] theorem State.modDut_capo (s : State) (n : Fin 16) (f : Dut → Dut) : (s.modDut n f).capo = s.capo := rfl
@[simp] theorem State.modDut_mbx (s : State) (n : Fin 16) (f : Dut → Dut) : (s.modDut n f).mbx = s.mbx := rfl
@[simp] theorem State.modDut_host (s : State) (n : Fin 16) (f : Dut → Dut) : (s.modDut n f).host = s.host := rfl
@[simp] theorem State.modDut_flt (s : State) (n : Fin 16) (f : Dut → Dut) : (s.modDut n f).flt = s.flt := rfl
@[simp] theorem State.modDut_sp (s : State) (n : Fin 16) (f : Dut → Dut) : (s.modDut n f).sp = s.sp := rfl
@[simp] theorem State.modDut_pwr (s : State) (n : Fin 16) (f : Dut → Dut) : (s.modDut n f).pwr = s.pwr := rfl
@[simp] theorem State.modDut_boot (s : State) (n : Fin 16) (f : Dut → Dut) : (s.modDut n f).boot = s.boot := rfl
@[simp] theorem State.modDut_pos (s : State) (n : Fin 16) (f : Dut → Dut) : (s.modDut n f).pos = s.pos := rfl
@[simp] theorem State.modDut_ins (s : State) (n : Fin 16) (f : Dut → Dut) : (s.modDut n f).ins = s.ins := rfl
@[simp] theorem State.modDut_tun (s : State) (n : Fin 16) (f : Dut → Dut) : (s.modDut n f).tun = s.tun := rfl
@[simp] theorem State.modDut_thm (s : State) (n : Fin 16) (f : Dut → Dut) : (s.modDut n f).thm = s.thm := rfl
@[simp] theorem State.modDut_mot (s : State) (n : Fin 16) (f : Dut → Dut) : (s.modDut n f).mot = s.mot := rfl
@[simp] theorem State.modDut_word (s : State) (n : Fin 16) (f : Dut → Dut) (k : Nat) : (s.modDut n f).word k = s.word k := (rfl)
@[simp] theorem State.modDut_get (s : State) (n : Fin 16) (f : Dut → Dut) (g : Fld) : (s.modDut n f).get g = s.get g := (rfl)
@[simp] theorem State.modDut_flag (s : State) (n : Fin 16) (f : Dut → Dut) (g : Fld) : (s.modDut n f).flag g = s.flag g := (rfl)
@[simp] theorem State.modDut_journal (s : State) (n : Fin 16) (f : Dut → Dut) (k : Fin 16) : (s.modDut n f).journal k = s.journal k := rfl

/-! ### modFt -/

@[simp] theorem State.modFt_pending (s : State) (n : Fin 16) (f : Ft → Ft) : (s.modFt n f).pending = s.pending := rfl
@[simp] theorem State.modFt_tick (s : State) (n : Fin 16) (f : Ft → Ft) : (s.modFt n f).tick = s.tick := rfl
@[simp] theorem State.modFt_devBase (s : State) (n : Fin 16) (f : Ft → Ft) : (s.modFt n f).devBase = s.devBase := rfl
@[simp] theorem State.modFt_free (s : State) (n : Fin 16) (f : Ft → Ft) : (s.modFt n f).free = s.free := rfl
@[simp] theorem State.modFt_out (s : State) (n : Fin 16) (f : Ft → Ft) : (s.modFt n f).out = s.out := rfl
@[simp] theorem State.modFt_bar (s : State) (n : Fin 16) (f : Ft → Ft) : (s.modFt n f).bar = s.bar := rfl
@[simp] theorem State.modFt_latch (s : State) (n : Fin 16) (f : Ft → Ft) : (s.modFt n f).latch = s.latch := rfl
@[simp] theorem State.modFt_jnl (s : State) (n : Fin 16) (f : Ft → Ft) : (s.modFt n f).jnl = s.jnl := rfl
@[simp] theorem State.modFt_capo (s : State) (n : Fin 16) (f : Ft → Ft) : (s.modFt n f).capo = s.capo := rfl
@[simp] theorem State.modFt_mbx (s : State) (n : Fin 16) (f : Ft → Ft) : (s.modFt n f).mbx = s.mbx := rfl
@[simp] theorem State.modFt_host (s : State) (n : Fin 16) (f : Ft → Ft) : (s.modFt n f).host = s.host := rfl
@[simp] theorem State.modFt_flt (s : State) (n : Fin 16) (f : Ft → Ft) : (s.modFt n f).flt = s.flt := rfl
@[simp] theorem State.modFt_sp (s : State) (n : Fin 16) (f : Ft → Ft) : (s.modFt n f).sp = s.sp := rfl
@[simp] theorem State.modFt_pwr (s : State) (n : Fin 16) (f : Ft → Ft) : (s.modFt n f).pwr = s.pwr := rfl
@[simp] theorem State.modFt_boot (s : State) (n : Fin 16) (f : Ft → Ft) : (s.modFt n f).boot = s.boot := rfl
@[simp] theorem State.modFt_pos (s : State) (n : Fin 16) (f : Ft → Ft) : (s.modFt n f).pos = s.pos := rfl
@[simp] theorem State.modFt_ins (s : State) (n : Fin 16) (f : Ft → Ft) : (s.modFt n f).ins = s.ins := rfl
@[simp] theorem State.modFt_tun (s : State) (n : Fin 16) (f : Ft → Ft) : (s.modFt n f).tun = s.tun := rfl
@[simp] theorem State.modFt_thm (s : State) (n : Fin 16) (f : Ft → Ft) : (s.modFt n f).thm = s.thm := rfl
@[simp] theorem State.modFt_mot (s : State) (n : Fin 16) (f : Ft → Ft) : (s.modFt n f).mot = s.mot := rfl
@[simp] theorem State.modFt_word (s : State) (n : Fin 16) (f : Ft → Ft) (k : Nat) : (s.modFt n f).word k = s.word k := (rfl)
@[simp] theorem State.modFt_get (s : State) (n : Fin 16) (f : Ft → Ft) (g : Fld) : (s.modFt n f).get g = s.get g := (rfl)
@[simp] theorem State.modFt_flag (s : State) (n : Fin 16) (f : Ft → Ft) (g : Fld) : (s.modFt n f).flag g = s.flag g := (rfl)
@[simp] theorem State.modFt_journal (s : State) (n : Fin 16) (f : Ft → Ft) (k : Fin 16) : (s.modFt n f).journal k = s.journal k := rfl

/-! ### modBrg -/

@[simp] theorem State.modBrg_pending (s : State) (n : Fin 16) (f : Brg → Brg) : (s.modBrg n f).pending = s.pending := rfl
@[simp] theorem State.modBrg_tick (s : State) (n : Fin 16) (f : Brg → Brg) : (s.modBrg n f).tick = s.tick := rfl
@[simp] theorem State.modBrg_devBase (s : State) (n : Fin 16) (f : Brg → Brg) : (s.modBrg n f).devBase = s.devBase := rfl
@[simp] theorem State.modBrg_free (s : State) (n : Fin 16) (f : Brg → Brg) : (s.modBrg n f).free = s.free := rfl
@[simp] theorem State.modBrg_out (s : State) (n : Fin 16) (f : Brg → Brg) : (s.modBrg n f).out = s.out := rfl
@[simp] theorem State.modBrg_bar (s : State) (n : Fin 16) (f : Brg → Brg) : (s.modBrg n f).bar = s.bar := rfl
@[simp] theorem State.modBrg_latch (s : State) (n : Fin 16) (f : Brg → Brg) : (s.modBrg n f).latch = s.latch := rfl
@[simp] theorem State.modBrg_jnl (s : State) (n : Fin 16) (f : Brg → Brg) : (s.modBrg n f).jnl = s.jnl := rfl
@[simp] theorem State.modBrg_capo (s : State) (n : Fin 16) (f : Brg → Brg) : (s.modBrg n f).capo = s.capo := rfl
@[simp] theorem State.modBrg_mbx (s : State) (n : Fin 16) (f : Brg → Brg) : (s.modBrg n f).mbx = s.mbx := rfl
@[simp] theorem State.modBrg_host (s : State) (n : Fin 16) (f : Brg → Brg) : (s.modBrg n f).host = s.host := rfl
@[simp] theorem State.modBrg_flt (s : State) (n : Fin 16) (f : Brg → Brg) : (s.modBrg n f).flt = s.flt := rfl
@[simp] theorem State.modBrg_sp (s : State) (n : Fin 16) (f : Brg → Brg) : (s.modBrg n f).sp = s.sp := rfl
@[simp] theorem State.modBrg_pwr (s : State) (n : Fin 16) (f : Brg → Brg) : (s.modBrg n f).pwr = s.pwr := rfl
@[simp] theorem State.modBrg_boot (s : State) (n : Fin 16) (f : Brg → Brg) : (s.modBrg n f).boot = s.boot := rfl
@[simp] theorem State.modBrg_pos (s : State) (n : Fin 16) (f : Brg → Brg) : (s.modBrg n f).pos = s.pos := rfl
@[simp] theorem State.modBrg_ins (s : State) (n : Fin 16) (f : Brg → Brg) : (s.modBrg n f).ins = s.ins := rfl
@[simp] theorem State.modBrg_tun (s : State) (n : Fin 16) (f : Brg → Brg) : (s.modBrg n f).tun = s.tun := rfl
@[simp] theorem State.modBrg_thm (s : State) (n : Fin 16) (f : Brg → Brg) : (s.modBrg n f).thm = s.thm := rfl
@[simp] theorem State.modBrg_mot (s : State) (n : Fin 16) (f : Brg → Brg) : (s.modBrg n f).mot = s.mot := rfl
@[simp] theorem State.modBrg_word (s : State) (n : Fin 16) (f : Brg → Brg) (k : Nat) : (s.modBrg n f).word k = s.word k := (rfl)
@[simp] theorem State.modBrg_get (s : State) (n : Fin 16) (f : Brg → Brg) (g : Fld) : (s.modBrg n f).get g = s.get g := (rfl)
@[simp] theorem State.modBrg_flag (s : State) (n : Fin 16) (f : Brg → Brg) (g : Fld) : (s.modBrg n f).flag g = s.flag g := (rfl)
@[simp] theorem State.modBrg_journal (s : State) (n : Fin 16) (f : Brg → Brg) (k : Fin 16) : (s.modBrg n f).journal k = s.journal k := rfl

/-! ### modIso -/

@[simp] theorem State.modIso_pending (s : State) (n : Fin 16) (f : Iso → Iso) : (s.modIso n f).pending = s.pending := rfl
@[simp] theorem State.modIso_tick (s : State) (n : Fin 16) (f : Iso → Iso) : (s.modIso n f).tick = s.tick := rfl
@[simp] theorem State.modIso_devBase (s : State) (n : Fin 16) (f : Iso → Iso) : (s.modIso n f).devBase = s.devBase := rfl
@[simp] theorem State.modIso_free (s : State) (n : Fin 16) (f : Iso → Iso) : (s.modIso n f).free = s.free := rfl
@[simp] theorem State.modIso_out (s : State) (n : Fin 16) (f : Iso → Iso) : (s.modIso n f).out = s.out := rfl
@[simp] theorem State.modIso_bar (s : State) (n : Fin 16) (f : Iso → Iso) : (s.modIso n f).bar = s.bar := rfl
@[simp] theorem State.modIso_latch (s : State) (n : Fin 16) (f : Iso → Iso) : (s.modIso n f).latch = s.latch := rfl
@[simp] theorem State.modIso_jnl (s : State) (n : Fin 16) (f : Iso → Iso) : (s.modIso n f).jnl = s.jnl := rfl
@[simp] theorem State.modIso_capo (s : State) (n : Fin 16) (f : Iso → Iso) : (s.modIso n f).capo = s.capo := rfl
@[simp] theorem State.modIso_mbx (s : State) (n : Fin 16) (f : Iso → Iso) : (s.modIso n f).mbx = s.mbx := rfl
@[simp] theorem State.modIso_host (s : State) (n : Fin 16) (f : Iso → Iso) : (s.modIso n f).host = s.host := rfl
@[simp] theorem State.modIso_flt (s : State) (n : Fin 16) (f : Iso → Iso) : (s.modIso n f).flt = s.flt := rfl
@[simp] theorem State.modIso_sp (s : State) (n : Fin 16) (f : Iso → Iso) : (s.modIso n f).sp = s.sp := rfl
@[simp] theorem State.modIso_pwr (s : State) (n : Fin 16) (f : Iso → Iso) : (s.modIso n f).pwr = s.pwr := rfl
@[simp] theorem State.modIso_boot (s : State) (n : Fin 16) (f : Iso → Iso) : (s.modIso n f).boot = s.boot := rfl
@[simp] theorem State.modIso_pos (s : State) (n : Fin 16) (f : Iso → Iso) : (s.modIso n f).pos = s.pos := rfl
@[simp] theorem State.modIso_ins (s : State) (n : Fin 16) (f : Iso → Iso) : (s.modIso n f).ins = s.ins := rfl
@[simp] theorem State.modIso_tun (s : State) (n : Fin 16) (f : Iso → Iso) : (s.modIso n f).tun = s.tun := rfl
@[simp] theorem State.modIso_thm (s : State) (n : Fin 16) (f : Iso → Iso) : (s.modIso n f).thm = s.thm := rfl
@[simp] theorem State.modIso_mot (s : State) (n : Fin 16) (f : Iso → Iso) : (s.modIso n f).mot = s.mot := rfl
@[simp] theorem State.modIso_word (s : State) (n : Fin 16) (f : Iso → Iso) (k : Nat) : (s.modIso n f).word k = s.word k := (rfl)
@[simp] theorem State.modIso_get (s : State) (n : Fin 16) (f : Iso → Iso) (g : Fld) : (s.modIso n f).get g = s.get g := (rfl)
@[simp] theorem State.modIso_flag (s : State) (n : Fin 16) (f : Iso → Iso) (g : Fld) : (s.modIso n f).flag g = s.flag g := (rfl)
@[simp] theorem State.modIso_journal (s : State) (n : Fin 16) (f : Iso → Iso) (k : Fin 16) : (s.modIso n f).journal k = s.journal k := rfl

/-! ### modJnl -/

@[simp] theorem State.modJnl_pending (s : State) (n : Fin 16) (f : ChJnl → ChJnl) : (s.modJnl n f).pending = s.pending := rfl
@[simp] theorem State.modJnl_tick (s : State) (n : Fin 16) (f : ChJnl → ChJnl) : (s.modJnl n f).tick = s.tick := rfl
@[simp] theorem State.modJnl_devBase (s : State) (n : Fin 16) (f : ChJnl → ChJnl) : (s.modJnl n f).devBase = s.devBase := rfl
@[simp] theorem State.modJnl_free (s : State) (n : Fin 16) (f : ChJnl → ChJnl) : (s.modJnl n f).free = s.free := rfl
@[simp] theorem State.modJnl_out (s : State) (n : Fin 16) (f : ChJnl → ChJnl) : (s.modJnl n f).out = s.out := rfl
@[simp] theorem State.modJnl_bar (s : State) (n : Fin 16) (f : ChJnl → ChJnl) : (s.modJnl n f).bar = s.bar := rfl
@[simp] theorem State.modJnl_latch (s : State) (n : Fin 16) (f : ChJnl → ChJnl) : (s.modJnl n f).latch = s.latch := rfl
@[simp] theorem State.modJnl_chans (s : State) (n : Fin 16) (f : ChJnl → ChJnl) : (s.modJnl n f).chans = s.chans := rfl
@[simp] theorem State.modJnl_capo (s : State) (n : Fin 16) (f : ChJnl → ChJnl) : (s.modJnl n f).capo = s.capo := rfl
@[simp] theorem State.modJnl_mbx (s : State) (n : Fin 16) (f : ChJnl → ChJnl) : (s.modJnl n f).mbx = s.mbx := rfl
@[simp] theorem State.modJnl_host (s : State) (n : Fin 16) (f : ChJnl → ChJnl) : (s.modJnl n f).host = s.host := rfl
@[simp] theorem State.modJnl_flt (s : State) (n : Fin 16) (f : ChJnl → ChJnl) : (s.modJnl n f).flt = s.flt := rfl
@[simp] theorem State.modJnl_sp (s : State) (n : Fin 16) (f : ChJnl → ChJnl) : (s.modJnl n f).sp = s.sp := rfl
@[simp] theorem State.modJnl_pwr (s : State) (n : Fin 16) (f : ChJnl → ChJnl) : (s.modJnl n f).pwr = s.pwr := rfl
@[simp] theorem State.modJnl_boot (s : State) (n : Fin 16) (f : ChJnl → ChJnl) : (s.modJnl n f).boot = s.boot := rfl
@[simp] theorem State.modJnl_pos (s : State) (n : Fin 16) (f : ChJnl → ChJnl) : (s.modJnl n f).pos = s.pos := rfl
@[simp] theorem State.modJnl_ins (s : State) (n : Fin 16) (f : ChJnl → ChJnl) : (s.modJnl n f).ins = s.ins := rfl
@[simp] theorem State.modJnl_tun (s : State) (n : Fin 16) (f : ChJnl → ChJnl) : (s.modJnl n f).tun = s.tun := rfl
@[simp] theorem State.modJnl_thm (s : State) (n : Fin 16) (f : ChJnl → ChJnl) : (s.modJnl n f).thm = s.thm := rfl
@[simp] theorem State.modJnl_mot (s : State) (n : Fin 16) (f : ChJnl → ChJnl) : (s.modJnl n f).mot = s.mot := rfl
@[simp] theorem State.modJnl_word (s : State) (n : Fin 16) (f : ChJnl → ChJnl) (k : Nat) : (s.modJnl n f).word k = s.word k := (rfl)
@[simp] theorem State.modJnl_get (s : State) (n : Fin 16) (f : ChJnl → ChJnl) (g : Fld) : (s.modJnl n f).get g = s.get g := (rfl)
@[simp] theorem State.modJnl_flag (s : State) (n : Fin 16) (f : ChJnl → ChJnl) (g : Fld) : (s.modJnl n f).flag g = s.flag g := (rfl)
@[simp] theorem State.modJnl_ch (s : State) (n : Fin 16) (f : ChJnl → ChJnl) (k : Fin 16) : (s.modJnl n f).ch k = s.ch k := rfl

/-! ### Registers -/

/-- A register reads what was written to it; every other register reads as before. -/
theorem State.word_setWord (s : State) (a b : Nat) (v : Word) :
    (s.setWord a v).word b = if b = a then v else s.word b := sparseGet_set ..

@[simp] theorem State.word_setWord_same (s : State) (a : Nat) (v : Word) : (s.setWord a v).word a = v := by
  simp [State.word_setWord]

@[simp] theorem State.word_setWord_ne (s : State) {a b : Nat} (v : Word) (h : b ≠ a) :
    (s.setWord a v).word b = s.word b := by
  simp [State.word_setWord, h]

@[simp] theorem State.word_put_ne (s : State) {f : Fld} {b : Nat} (v : Nat) (h : b ≠ f.addr) :
    (s.put f v).word b = s.word b := by
  simp [State.put, h]

theorem State.word_put_same (s : State) (f : Fld) (v : Nat) :
    (s.put f v).word f.addr = setBits (s.word f.addr) f.lo f.width v := by
  simp [State.put]

/-- A field reads back what was put into it. -/
theorem State.get_put_same (s : State) {f : Fld} (v : Nat) (h : f.lo + f.width ≤ 32) :
    (s.put f v).get f = v % 2 ^ f.width := by
  rw [State.get, State.word_put_same, getBits_setBits_same _ _ h]

/-- A field of another register is unchanged. -/
theorem State.get_put_ne (s : State) {f g : Fld} (v : Nat) (h : g.addr ≠ f.addr) : (s.put f v).get g = s.get g := by
  rw [State.get, State.word_put_ne _ _ h, State.get]

/-- A field beside the one put is unchanged. -/
theorem State.get_put_other (s : State) {f g : Fld} (v : Nat) (h : f.lo + f.width ≤ g.lo ∨ g.lo + g.width ≤ f.lo) :
    (s.put f v).get g = s.get g := by
  by_cases ha : g.addr = f.addr
  · rw [State.get, ha, State.word_put_same, getBits_setBits_other _ _ h, State.get, ha]
  · exact s.get_put_ne v ha

theorem State.get_setWord_ne (s : State) {a : Nat} {g : Fld} (v : Word) (h : g.addr ≠ a) :
    (s.setWord a v).get g = s.get g := by
  rw [State.get, State.word_setWord_ne _ _ h, State.get]

theorem State.get_lt (s : State) (f : Fld) : s.get f < 2 ^ f.width := getBits_lt ..

/-- A flag set reads as set, a flag cleared as clear. -/
theorem State.flag_put_one (s : State) {f : Fld} (h : f.lo + f.width ≤ 32) (hw : 0 < f.width) :
    (s.put f 1).flag f = true := by
  have : 1 < 2 ^ f.width := Nat.one_lt_two_pow (by omega)
  simp [State.flag, State.get_put_same s 1 h, Nat.mod_eq_of_lt this]

theorem State.flag_put_zero (s : State) {f : Fld} (h : f.lo + f.width ≤ 32) : (s.put f 0).flag f = false := by
  simp [State.flag, State.get_put_same s 0 h]

theorem State.flag_put_other (s : State) {f g : Fld} (v : Nat)
    (h : f.lo + f.width ≤ g.lo ∨ g.lo + g.width ≤ f.lo) : (s.put f v).flag g = s.flag g := by
  rw [State.flag, State.get_put_other s v h, State.flag]

theorem State.flag_put_ne (s : State) {f g : Fld} (v : Nat) (h : g.addr ≠ f.addr) : (s.put f v).flag g = s.flag g := by
  rw [State.flag, State.get_put_ne s v h, State.flag]

/-- The words that a pair of registers holds after it was written. -/
theorem State.word_setPair (s : State) (lo hi v b : Nat) :
    (s.setPair lo hi v).word b =
      if b = hi then BitVec.ofNat 32 (v / 2 ^ 32) else if b = lo then BitVec.ofNat 32 v else s.word b := by
  simp [State.setPair, State.word_setWord]

/-- Every register of a domain that loses its contents reads its reset value again, but for those the journal keeps. -/
theorem State.word_dropDomain (s : State) (d a : Nat) :
    (s.dropDomain d).word a =
      if domainOf (a % 0x2000000) = some d ∧ journalReg (a % 0x2000000) = false then barDefault a else s.word a := by
  simp [State.dropDomain, State.word, sparseGet_drop]

/-! ### Channels -/

theorem vget_set_same {α : Type} {k : Nat} (v : Vector α k) (n : Fin k) (x : α) : (v.set n x).get n = x := by
  show (v.set n x)[n.val] = x
  simp

theorem vget_set_ne {α : Type} {k : Nat} (v : Vector α k) {n m : Fin k} (x : α) (h : m ≠ n) :
    (v.set n x).get m = v.get m := by
  show (v.set n x)[m.val] = v[m.val]
  have : n.val ≠ m.val := fun e => h (Fin.ext e.symm)
  simp [this]

@[simp] theorem State.ch_modCh_same (s : State) (n : Fin 16) (f : Chan → Chan) : (s.modCh n f).ch n = f (s.ch n) := by
  exact vget_set_same ..

@[simp] theorem State.ch_modCh_ne (s : State) {n k : Fin 16} (f : Chan → Chan) (h : k ≠ n) : (s.modCh n f).ch k = s.ch k :=
  vget_set_ne _ _ h

@[simp] theorem State.ch_modWork_same (s : State) (n : Fin 16) (f : Work → Work) :
    (s.modWork n f).ch n = { s.ch n with work := f (s.ch n).work } := by simp [State.modWork]
@[simp] theorem State.ch_modImg_same (s : State) (n : Fin 16) (f : Img → Img) :
    (s.modImg n f).ch n = { s.ch n with img := f (s.ch n).img } := by simp [State.modImg]
@[simp] theorem State.ch_modWav_same (s : State) (n : Fin 16) (f : Wav → Wav) :
    (s.modWav n f).ch n = { s.ch n with wav := f (s.ch n).wav } := by simp [State.modWav]
@[simp] theorem State.ch_modDut_same (s : State) (n : Fin 16) (f : Dut → Dut) :
    (s.modDut n f).ch n = { s.ch n with dut := f (s.ch n).dut } := by simp [State.modDut]
@[simp] theorem State.ch_modFt_same (s : State) (n : Fin 16) (f : Ft → Ft) :
    (s.modFt n f).ch n = { s.ch n with ft := f (s.ch n).ft } := by simp [State.modFt]
@[simp] theorem State.ch_modBrg_same (s : State) (n : Fin 16) (f : Brg → Brg) :
    (s.modBrg n f).ch n = { s.ch n with brg := f (s.ch n).brg } := by simp [State.modBrg]
@[simp] theorem State.ch_modIso_same (s : State) (n : Fin 16) (f : Iso → Iso) :
    (s.modIso n f).ch n = { s.ch n with iso := f (s.ch n).iso } := by simp [State.modIso]

@[simp] theorem State.journal_modJnl_same (s : State) (n : Fin 16) (f : ChJnl → ChJnl) :
    (s.modJnl n f).journal n = f (s.journal n) := by
  exact vget_set_same ..

end Sys2Proof.Machine
end

