-- ==== Sys2Proof/Laws/Raise.lean ====
section
/-! SUPPORT. What raising an event, halting or inhibiting a channel, entering the safe state and starting a flush can change,
said once: everything outside it is as before. -/

namespace Sys2Proof.Machine

theorem blockOf_pend (e : Nat) (h : e < 512) : blockOf (pendFld e).addr = 1 := by
  have h1 : 65536 + e / 32 * 4 < 1048576 := by omega
  simp only [pendFld, A.EVT_PENDw, blockOf, h1, if_true]
  omega

theorem blockOf_wrk (n : Fin 16) : blockOf (A.WRK_SCRn_STAT n) = 12 := by
  revert n
  decide +kernel

/-- The registers whose bits reactions only set: FLT_STAT and FLT_SAFE. -/
def sticky (a : Nat) : Bool := [A.FLT_STAT_LO, A.FLT_STAT_HI, A.FLT_SAFE].contains a

/-- A register that reactions write in any way: none of the work states, the pending bits, FLT_STAT, FLT_SAFE and the heaters'
states, of which more is said. -/
abbrev Loud (a : Nat) : Prop :=
  quiet a = false ∧ blockOf a ≠ 1 ∧ (∀ m : Fin 16, a ≠ A.WRK_SCRn_STAT m) ∧ sticky a = false ∧
  ∀ m : Fin 16, a ≠ A.THM_CHn_HTRSTAT m

/-- What a raise and its reactions leave as it was, and the bits they only set. -/
structure RaiseFrame (s t : State) : Prop where
  word : ∀ a, quiet a = true → t.word a = s.word a
  pend : ∀ e, e < 512 → s.flag (pendFld e) = true → t.flag (pendFld e) = true
  grow : ∀ f, sticky f.addr = true → f.width = 1 → s.flag f = true → t.flag f = true
  cold : ∀ n : Fin 16, s.get (F.THM_CHn_HTRSTAT_DUTY n) = 0 → t.get (F.THM_CHn_HTRSTAT_DUTY n) = 0
  wf : sparseWf barDefault s.bar = true → sparseWf barDefault t.bar = true
  pending : t.pending = s.pending
  tick : t.tick = s.tick
  devBase : t.devBase = s.devBase
  free : t.free = s.free
  latch : t.latch = s.latch
  capo : t.capo = s.capo
  mbx : t.mbx = s.mbx
  sp : t.sp = s.sp
  boot : t.boot = s.boot
  pos : t.pos = s.pos
  ins : t.ins = s.ins
  tun : t.tun = s.tun
  out : s.out <:+ t.out
  host : { t.host with pba := s.host.pba } = s.host
  pwr : { t.pwr with flush := s.pwr.flush } = s.pwr
  recs : ∀ n, { t.journal n with flush := (s.journal n).flush } = s.journal n
  thm : { t.thm with integ := s.thm.integ, satTick := s.thm.satTick, pwm := s.thm.pwm } = s.thm
  tap : t.flt.tap = s.flt.tap
  wst : ∀ n, t.wstate n = s.wstate n ∨ s.wstate n = 1 ∧ t.wstate n = 2
  causes : ∀ n c, c ∈ (s.ch n).work.causes → c ∈ (t.ch n).work.causes
  work : ∀ n, { (t.ch n).work with
    causes := (s.ch n).work.causes, bands := (s.ch n).work.bands, due := (s.ch n).work.due,
    decPage := (s.ch n).work.decPage, decL := (s.ch n).work.decL,
    firedPage := (s.ch n).work.firedPage, firedL := (s.ch n).work.firedL,
    refire := (s.ch n).work.refire } = (s.ch n).work
  ft : ∀ n, { (t.ch n).ft with
    latchMark := (s.ch n).ft.latchMark, latchSos := (s.ch n).ft.latchSos, decided := (s.ch n).ft.decided,
    sosk := (s.ch n).ft.sosk } = (s.ch n).ft
  wav : ∀ n, { (t.ch n).wav with
    win := (s.ch n).wav.win, meas := (s.ch n).wav.meas, frames := (s.ch n).wav.frames,
    lastFrameEnd := (s.ch n).wav.lastFrameEnd } = (s.ch n).wav
  img : ∀ n, { (t.ch n).img with
    job := (s.ch n).img.job, released := (s.ch n).img.released, started := (s.ch n).img.started } = (s.ch n).img
  dut : ∀ n, { (t.ch n).dut with dec := (s.ch n).dut.dec } = (s.ch n).dut
  brg : ∀ n, { (t.ch n).brg with
    sent := (s.ch n).brg.sent, acked := (s.ch n).brg.acked, retxed := (s.ch n).brg.retxed,
    hpenHold := (s.ch n).brg.hpenHold } = (s.ch n).brg
  iso : ∀ n, (t.ch n).iso = (s.ch n).iso

namespace RaiseFrame

theorem refl (s : State) : RaiseFrame s s where
  word _ _ := rfl
  pend _ _ h := h
  grow _ _ _ h := h
  cold _ h := h
  wf h := h
  pending := rfl
  tick := rfl
  devBase := rfl
  free := rfl
  latch := rfl
  capo := rfl
  mbx := rfl
  sp := rfl
  boot := rfl
  pos := rfl
  ins := rfl
  tun := rfl
  out := List.suffix_refl _
  host := rfl
  pwr := rfl
  recs _ := rfl
  thm := rfl
  tap := rfl
  wst _ := .inl rfl
  causes _ _ m := m
  work _ := rfl
  ft _ := rfl
  wav _ := rfl
  img _ := rfl
  dut _ := rfl
  brg _ := rfl
  iso _ := rfl

theorem trans {s t u : State} (h : RaiseFrame s t) (k : RaiseFrame t u) : RaiseFrame s u where
  word a q := (k.word a q).trans (h.word a q)
  pend e b p := k.pend e b (h.pend e b p)
  grow f a w p := k.grow f a w (h.grow f a w p)
  cold n p := k.cold n (h.cold n p)
  wf w := k.wf (h.wf w)
  pending := k.pending.trans h.pending
  tick := k.tick.trans h.tick
  devBase := k.devBase.trans h.devBase
  free := k.free.trans h.free
  latch := k.latch.trans h.latch
  capo := k.capo.trans h.capo
  mbx := k.mbx.trans h.mbx
  sp := k.sp.trans h.sp
  boot := k.boot.trans h.boot
  pos := k.pos.trans h.pos
  ins := k.ins.trans h.ins
  tun := k.tun.trans h.tun
  out := h.out.trans k.out
  host := by rw [← h.host, ← k.host]
  pwr := by rw [← h.pwr, ← k.pwr]
  recs n := by rw [← h.recs n, ← k.recs n]
  thm := by rw [← h.thm, ← k.thm]
  tap := k.tap.trans h.tap
  wst n := by
    rcases h.wst n with a | a <;> rcases k.wst n with b | b <;> omega
  causes n c m := k.causes n c (h.causes n c m)
  work n := by rw [← h.work n, ← k.work n]
  ft n := by rw [← h.ft n, ← k.ft n]
  wav n := by rw [← h.wav n, ← k.wav n]
  img n := by rw [← h.img n, ← k.img n]
  dut n := by rw [← h.dut n, ← k.dut n]
  brg n := by rw [← h.brg n, ← k.brg n]
  iso n := (k.iso n).trans (h.iso n)

/-- A loud register is written. -/
theorem setWord (s : State) {b : Nat} (v : Word) (l : Loud b) : RaiseFrame s (s.setWord b v) where
  word a q := by
    apply State.word_setWord_ne
    rintro rfl
    simp [l.1] at q
  pend e h p := by
    have : (pendFld e).addr ≠ b := by
      rintro rfl
      exact l.2.1 (blockOf_pend e h)
    simpa [State.flag, State.get_setWord_ne s v this] using p
  grow f a _ p := by
    have : f.addr ≠ b := fun e => by
      have := l.2.2.2.1
      rw [← e, a] at this
      cases this
    simpa [State.flag, State.get_setWord_ne s v this] using p
  cold n p := (State.get_setWord_ne s v fun e => l.2.2.2.2 n e.symm).trans p
  wf w := sparseWf_set _ _ _ w
  pending := rfl
  tick := rfl
  devBase := rfl
  free := rfl
  latch := rfl
  capo := rfl
  mbx := rfl
  sp := rfl
  boot := rfl
  pos := rfl
  ins := rfl
  tun := rfl
  out := List.suffix_refl _
  host := rfl
  pwr := rfl
  recs _ := rfl
  thm := rfl
  tap := rfl
  wst n := .inl (State.get_setWord_ne s v (fun e => l.2.2.1 n e.symm))
  causes _ _ m := m
  work _ := rfl
  ft _ := rfl
  wav _ := rfl
  img _ := rfl
  dut _ := rfl
  brg _ := rfl
  iso _ := rfl

theorem put (s : State) {f : Fld} (v : Nat) (l : Loud f.addr) : RaiseFrame s (s.put f v) := setWord s _ l

/-- A bit of FLT_STAT or FLT_SAFE is set. -/
theorem putSticky (s : State) {f : Fld} (a : sticky f.addr = true) (w : f.width = 1) :
    RaiseFrame s (s.put f 1) :=
  have fl : blockOf f.addr = 2 ∧ f.addr < 0x20010 := by
    simp only [sticky, List.contains_cons, List.contains_nil, Bool.or_eq_true, beq_iff_eq, Bool.or_false] at a
    rcases a with h | h | h <;> rw [h] <;> decide
  have fq : fltReg f.addr = true := by
    simp only [sticky, List.contains_cons, List.contains_nil, Bool.or_eq_true, beq_iff_eq, Bool.or_false] at a
    rcases a with h | h | h <;> rw [h] <;> decide
  { refl s with
    word := fun k q => State.word_put_ne _ _ (by rintro rfl; simp [quiet, fq] at q)
    pend := fun e h p => by
      have hb := blockOf_pend e h
      rw [State.flag_put_ne]
      · exact p
      · intro x
        rw [x] at hb
        omega
    grow := fun g ha hw p => by
      by_cases e : g.addr = f.addr
      · by_cases x : g.lo = f.lo
        · have : g = f := by cases f; cases g; simp_all
          rw [this] at p ⊢
          by_cases b : f.lo < 32
          · exact State.flag_put_one _ (by omega) (by omega)
          · have z : s.word f.addr >>> f.lo = 0 := by
              apply BitVec.eq_of_toNat_eq
              have hp : (2 : Nat) ^ 32 ≤ 2 ^ f.lo := Nat.pow_le_pow_right (by omega) (by omega)
              simp only [BitVec.toNat_ushiftRight, Nat.shiftRight_eq_div_pow]
              exact Nat.div_eq_of_lt (Nat.lt_of_lt_of_le (s.word f.addr).isLt hp)
            simp [State.flag, State.get, getBits, z] at p
        · rw [State.flag_put_other]
          · exact p
          · omega
      · rw [State.flag_put_ne _ _ e]
        exact p
    cold := fun n p => (State.get_put_ne _ _ (by
      have := fl.2
      simp only [F.THM_CHn_HTRSTAT_DUTY, A.THM_CHn_HTRSTAT]
      omega)).trans p
    wst := fun n => .inl (State.get_put_ne s 1 (by
      intro e
      have h12 : blockOf (A.WRK_SCRn_STAT n) = 12 := blockOf_wrk n
      have : (F.WRK_SCRn_STAT_STATE n).addr = A.WRK_SCRn_STAT n := rfl
      rw [← this, e, fl.1] at h12
      omega))
    wf := fun w => sparseWf_set _ _ _ w }

/-- What a reaction may change of a channel. -/
structure ChFrame (c d : Chan) : Prop where
  causes : ∀ k, k ∈ c.work.causes → k ∈ d.work.causes
  work : { d.work with
    causes := c.work.causes, bands := c.work.bands, due := c.work.due, decPage := c.work.decPage, decL := c.work.decL,
    firedPage := c.work.firedPage, firedL := c.work.firedL, refire := c.work.refire } = c.work
  ft : { d.ft with latchMark := c.ft.latchMark, latchSos := c.ft.latchSos, decided := c.ft.decided, sosk := c.ft.sosk } = c.ft
  wav : { d.wav with
    win := c.wav.win, meas := c.wav.meas, frames := c.wav.frames, lastFrameEnd := c.wav.lastFrameEnd } = c.wav
  img : { d.img with job := c.img.job, released := c.img.released, started := c.img.started } = c.img
  dut : { d.dut with dec := c.dut.dec } = c.dut
  brg : { d.brg with sent := c.brg.sent, acked := c.brg.acked, retxed := c.brg.retxed, hpenHold := c.brg.hpenHold } = c.brg
  iso : d.iso = c.iso

theorem ChFrame.same (c : Chan) : ChFrame c c := ⟨fun _ m => m, rfl, rfl, rfl, rfl, rfl, rfl, rfl⟩

/-- A channel is changed in what the reactions of the collector may change. -/
theorem modCh (s : State) (n : Fin 16) (g : Chan → Chan) (h : ChFrame (s.ch n) (g (s.ch n))) :
    RaiseFrame s (s.modCh n g) where
  word _ _ := rfl
  pend _ _ p := p
  grow _ _ _ p := p
  cold _ p := p
  wf w := w
  pending := rfl
  tick := rfl
  devBase := rfl
  free := rfl
  latch := rfl
  capo := rfl
  mbx := rfl
  sp := rfl
  boot := rfl
  pos := rfl
  ins := rfl
  tun := rfl
  out := List.suffix_refl _
  host := rfl
  pwr := rfl
  recs _ := rfl
  thm := rfl
  tap := rfl
  wst _ := .inl rfl
  causes k c m := by
    by_cases e : k = n
    · subst e; simpa using h.causes c m
    · simpa [e] using m
  work k := by
    by_cases e : k = n
    · subst e; simpa using h.work
    · simp [e]
  ft k := by
    by_cases e : k = n
    · subst e; simpa using h.ft
    · simp [e]
  wav k := by
    by_cases e : k = n
    · subst e; simpa using h.wav
    · simp [e]
  img k := by
    by_cases e : k = n
    · subst e; simpa using h.img
    · simp [e]
  dut k := by
    by_cases e : k = n
    · subst e; simpa using h.dut
    · simp [e]
  brg k := by
    by_cases e : k = n
    · subst e; simpa using h.brg
    · simp [e]
  iso k := by
    by_cases e : k = n
    · subst e; simpa using h.iso
    · simp [e]

theorem modWork (s : State) (n : Fin 16) (g : Work → Work)
    (h : { g (s.ch n).work with
      causes := (s.ch n).work.causes, bands := (s.ch n).work.bands, due := (s.ch n).work.due,
      decPage := (s.ch n).work.decPage, decL := (s.ch n).work.decL, firedPage := (s.ch n).work.firedPage,
      firedL := (s.ch n).work.firedL, refire := (s.ch n).work.refire } = (s.ch n).work)
    (hc : ∀ c, c ∈ (s.ch n).work.causes → c ∈ (g (s.ch n).work).causes) : RaiseFrame s (s.modWork n g) :=
  modCh s n _ { ChFrame.same (s.ch n) with causes := hc, work := h }

/-- The last windows, frames and measurements of the waveform engine are changed. -/
theorem modWav (s : State) (n : Fin 16) (g : Wav → Wav)
    (h : { g (s.ch n).wav with
      win := (s.ch n).wav.win, meas := (s.ch n).wav.meas, frames := (s.ch n).wav.frames,
      lastFrameEnd := (s.ch n).wav.lastFrameEnd } = (s.ch n).wav) : RaiseFrame s (s.modWav n g) :=
  modCh s n _ { ChFrame.same (s.ch n) with wav := h }

theorem modFt (s : State) (n : Fin 16) (g : Ft → Ft)
    (h : { g (s.ch n).ft with
      latchMark := (s.ch n).ft.latchMark, latchSos := (s.ch n).ft.latchSos, decided := (s.ch n).ft.decided,
      sosk := (s.ch n).ft.sosk } = (s.ch n).ft) : RaiseFrame s (s.modFt n g) :=
  modCh s n _ { ChFrame.same (s.ch n) with ft := h }

theorem modImg (s : State) (n : Fin 16) (g : Img → Img)
    (h : { g (s.ch n).img with
      job := (s.ch n).img.job, released := (s.ch n).img.released, started := (s.ch n).img.started } = (s.ch n).img) :
    RaiseFrame s (s.modImg n g) :=
  modCh s n _ { ChFrame.same (s.ch n) with img := h }

theorem modDut (s : State) (n : Fin 16) (g : Dut → Dut) (h : { g (s.ch n).dut with dec := (s.ch n).dut.dec } = (s.ch n).dut) :
    RaiseFrame s (s.modDut n g) :=
  modCh s n _ { ChFrame.same (s.ch n) with dut := h }

theorem modBrg (s : State) (n : Fin 16) (g : Brg → Brg)
    (h : { g (s.ch n).brg with
      sent := (s.ch n).brg.sent, acked := (s.ch n).brg.acked, retxed := (s.ch n).brg.retxed,
      hpenHold := (s.ch n).brg.hpenHold } = (s.ch n).brg) : RaiseFrame s (s.modBrg n g) :=
  modCh s n _ { ChFrame.same (s.ch n) with brg := h }

theorem restartScreen (n : Fin 16) (s : State) : RaiseFrame s (restartScreen n s) := by
  unfold Machine.restartScreen
  refine trans ?_ (modBrg _ n _ (by rfl))
  refine trans ?_ (modDut _ n _ (by rfl))
  exact modImg s n _ (by rfl)

/-- Only the collector's record of reactions held, the axes, the heaters or the outputs change. -/
theorem other (s : State) (o : List Output) (f : Flt) (m : Mot) (i : Vector Int 16) (c : Vector (Option Nat) 16)
    (p : Vector (Nat × Nat) 16) (h : s.out <:+ o) (ht : f.tap = s.flt.tap) :
    RaiseFrame s { s with out := o, flt := f, mot := m, thm := { s.thm with integ := i, satTick := c, pwm := p } } where
  word _ _ := rfl
  pend _ _ p := p
  grow _ _ _ p := p
  cold _ p := p
  wf w := w
  pending := rfl
  tick := rfl
  devBase := rfl
  free := rfl
  latch := rfl
  capo := rfl
  mbx := rfl
  sp := rfl
  boot := rfl
  pos := rfl
  ins := rfl
  tun := rfl
  out := h
  host := rfl
  pwr := rfl
  recs _ := rfl
  thm := rfl
  tap := ht
  wst _ := .inl rfl
  causes _ _ m := m
  work _ := rfl
  ft _ := rfl
  wav _ := rfl
  img _ := rfl
  dut _ := rfl
  brg _ := rfl
  iso _ := rfl

theorem emit (s : State) (o : Output) : RaiseFrame s (s.emit o) :=
  other s (o :: s.out) s.flt s.mot s.thm.integ s.thm.satTick s.thm.pwm (List.suffix_cons ..) rfl

theorem flt (s : State) (f : Flt) (h : f.tap = s.flt.tap) : RaiseFrame s { s with flt := f } :=
  other s s.out f s.mot s.thm.integ s.thm.satTick s.thm.pwm (List.suffix_refl _) h

theorem modAxis (s : State) (a : Fin 4) (g : Axis → Axis) : RaiseFrame s (s.modAxis a g) :=
  other s s.out s.flt _ s.thm.integ s.thm.satTick s.thm.pwm (List.suffix_refl _) rfl

/-- A fold of framed steps is framed. -/
theorem foldl {α : Type} (l : List α) (g : State → α → State) (h : ∀ s a, RaiseFrame s (g s a)) (s : State) :
    RaiseFrame s (l.foldl g s) := by
  induction l generalizing s with
  | nil => exact refl s
  | cons a l ih => exact (h s a).trans (ih _)

theorem eachCh (s : State) (g : Fin 16 → State → State) (h : ∀ n s, RaiseFrame s (g n s)) : RaiseFrame s (s.eachCh g) :=
  foldl _ _ (fun s n => h n s) s

/-! ### Delivery -/

theorem msix (s : State) (fn : Fin 2) (vec : Nat) : RaiseFrame s (s.msix fn vec) := by
  unfold State.msix
  dsimp only
  split
  · exact { refl s with }
  · exact emit ..

theorem evtRaise (s : State) {e : Nat} (he : e < 512) : RaiseFrame s (s.evtRaise e) := by
  have hp : RaiseFrame s (s.put (pendFld e) 1) := by
    have hb := blockOf_pend e he
    have hq : quiet (pendFld e).addr = false := by simp [quiet, hb]
    exact {
      refl s with
      word := fun b q => State.word_put_ne _ _ (by rintro rfl; simp [hq] at q)
      grow := fun f a _ p => by
        rw [State.flag_put_ne]
        · exact p
        · intro x
          simp only [sticky, List.contains_cons, List.contains_nil, Bool.or_eq_true, beq_iff_eq, Bool.or_false] at a
          rw [x] at a
          rcases a with h | h | h <;> rw [h] at hb <;> revert hb <;> decide
      cold := fun n p => (State.get_put_ne _ _ (by
        have := n.isLt
        simp only [F.THM_CHn_HTRSTAT_DUTY, A.THM_CHn_HTRSTAT, pendFld, A.EVT_PENDw]
        omega)).trans p
      wf := fun w => sparseWf_set _ _ _ w
      wst := fun n => .inl (State.get_put_ne s 1 (by
        intro e
        have h12 : blockOf (A.WRK_SCRn_STAT n) = 12 := blockOf_wrk n
        have : (F.WRK_SCRn_STAT_STATE n).addr = A.WRK_SCRn_STAT n := rfl
        rw [← this, e, hb] at h12
        omega))
      pend := fun k _ p => by
        by_cases ha : (pendFld k).addr = (pendFld e).addr
        · by_cases hl : (pendFld k).lo = (pendFld e).lo
          · have hk : pendFld k = pendFld e := by
              simp only [pendFld, Fld.mk.injEq] at ha hl ⊢
              exact ⟨ha, hl, trivial⟩
            rw [hk]
            exact State.flag_put_one _ (by simp [pendFld]; omega) (by simp [pendFld])
          · rw [State.flag_put_other]
            · exact p
            · simp only [pendFld] at hl ⊢; omega
        · rw [State.flag_put_ne _ _ ha]; exact p }
  unfold State.evtRaise
  dsimp only
  split
  · have step : ∀ (u : State) (b : Bool) (fn : Fin 2) (v : Nat), RaiseFrame u (if b then u.msix fn v else u) :=
      fun u b fn v => by
        cases b
        · exact refl u
        · exact msix ..
    exact hp.trans ((step _ _ _ _).trans (step _ _ _ _))
  · exact refl s

end RaiseFrame

/-! ### Where registers lie -/

theorem blockOf_sys {a : Nat} (h : a < 0x100000) : blockOf a = a / 0x10000 := by simp [blockOf, h]

theorem blockOf_chan {b : Nat} (n : Fin 16) (h : 0x1000000 ≤ b) (h' : b < 0x1100000) :
    blockOf (b + n.val * 0x100000) = 16 + (b - 0x1000000) / 0x10000 := by
  have hn := n.isLt
  have h1 : ¬ b + n.val * 0x100000 < 0x100000 := by omega
  have h2 : ¬ b + n.val * 0x100000 < 0x1000000 := by omega
  have h3 : b + n.val * 0x100000 < 0x2000000 := by omega
  simp only [blockOf, h1, h2, h3, if_true, if_false]
  omega

theorem sticky_of {a : Nat} (h : a < 0x20000 ∨ 0x2000B < a) : sticky a = false := by
  simp only [sticky, A.FLT_STAT_LO, A.FLT_STAT_HI, A.FLT_SAFE, List.contains_cons, List.contains_nil, Bool.or_false,
    Bool.or_eq_false_iff, beq_eq_false_iff_ne]
  omega

/-- A register of a channel's LED block is not quiet. -/
theorem loud_chan {b : Nat} (n : Fin 16) (h : 0x1000000 ≤ b) (h' : b < 0x1100000)
    (hb : (b - 0x1000000) / 0x10000 = 6) :
    Loud (b + n.val * 0x100000) := by
  refine ⟨?_, ?_, fun m e => ?_, ?_, fun m e => ?_⟩
  · simp [quiet, blockOf_chan n h h', hb]
  · simp [blockOf_chan n h h', hb]
  · have := blockOf_wrk m
    rw [← e, blockOf_chan n h h', hb] at this
    omega
  · exact sticky_of (by omega)
  · have := m.isLt
    unfold A.THM_CHn_HTRSTAT at e
    omega

/-- A word of the fault log is loud. -/
theorem loud_log {a : Nat} (h : 0x20800 ≤ a) (hb : a < 0x20C00) : Loud a := by
  have hb' : blockOf a = 2 := by rw [blockOf_sys (by omega)]; omega
  refine ⟨?_, ?_, fun m e => ?_, sticky_of (.inr (by omega)), fun m e => ?_⟩
  · simp [quiet, fltReg, h, hb]
  · omega
  · have := blockOf_wrk m
    rw [← e] at this
    omega
  · have := m.isLt
    unfold A.THM_CHn_HTRSTAT at e
    omega

/-- A register that reactions write is not quiet. -/
theorem loud_react {a : Nat} (h : a ∈ reactRegs) (hb : blockOf a ≠ 1) (hs : ∀ m : Fin 16, a ≠ A.WRK_SCRn_STAT m)
    (hf : 0x2000B < a) (ht : ∀ m : Fin 16, a ≠ A.THM_CHn_HTRSTAT m) : Loud a :=
  ⟨by simp [quiet, h], hb, hs, sticky_of (.inr hf), ht⟩

theorem mem_chans {a : Nat} (n : Fin 16)
    (h : a = A.WRK_SCRn_STAT n ∨ a = A.CHn_FT_STAT n ∨ a = A.THM_CHn_HTRSTAT n ∨ a = A.CHn_BRG_STAT n) :
    a ∈ reactRegs := by
  simp only [reactRegs, List.mem_append, List.mem_cons, List.mem_flatMap]
  exact .inl (.inr (.inr ⟨n, List.mem_finRange n, by simpa using h⟩))

theorem mem_axes {a : Nat} (x : Fin 4) (h : a = A.MOT_AXa_TGT_LO x ∨ a = A.MOT_AXa_TGT_HI x ∨ a = A.MOT_AXa_STAT x) :
    a ∈ reactRegs := by
  simp only [reactRegs, List.mem_append, List.mem_cons, List.mem_flatMap]
  exact .inr ⟨x, List.mem_finRange x, by simpa using h⟩

/-- A register of a channel window that reactions write is loud. -/
theorem loud_window {a b : Nat} (n : Fin 16) (ha : a = b + n.val * 0x100000) (h : 0x1000000 ≤ b) (h' : b < 0x1100000)
    (hm : a ∈ reactRegs) : Loud a := by
  have hb : blockOf a = 16 + (b - 0x1000000) / 0x10000 := by rw [ha, blockOf_chan n h h']
  refine loud_react hm (by omega) (fun m e => ?_) (by omega) fun m e => ?_
  · have := blockOf_wrk m
    rw [← e] at this
    omega
  · have := m.isLt
    unfold A.THM_CHn_HTRSTAT at e
    omega

theorem ftStat (n : Fin 16) : Loud (A.CHn_FT_STAT n) :=
  loud_window n (b := 0x1030060) rfl (by decide) (by decide) (mem_chans n (.inr (.inl rfl)))

theorem brgStat (n : Fin 16) : Loud (A.CHn_BRG_STAT n) :=
  loud_window n (b := 0x104000C) rfl (by decide) (by decide) (mem_chans n (.inr (.inr (.inr rfl))))

theorem monFlush : Loud A.PWR_MON_FLUSH :=
  loud_react (by decide) (by decide) (fun m e => by unfold A.PWR_MON_FLUSH A.WRK_SCRn_STAT at e; omega) (by decide) fun m e => by
    have := m.isLt
    unfold A.PWR_MON_FLUSH A.THM_CHn_HTRSTAT at e
    omega

namespace RaiseFrame

theorem setPair' (s : State) {lo hi : Nat} (v : Nat) (h : Loud lo) (h' : Loud hi) : RaiseFrame s (s.setPair lo hi v) :=
  (setWord s _ h).trans (setWord _ _ h')

/-! ### Holds -/

variable {rs : Nat → State → State}

theorem chEvt_lt (n : Fin 16) {k : Nat} (h : k < 24) : chEvt n k < 512 := by have := n.isLt; unfold chEvt; omega

theorem sticky_ne {a : Nat} (h : sticky a = true) (n : Fin 16) : a ≠ A.WRK_SCRn_STAT n := by
  rintro rfl
  rw [sticky_of (.inr (by unfold A.WRK_SCRn_STAT; omega))] at h
  cases h

theorem duty_ne (m n : Fin 16) : A.THM_CHn_HTRSTAT m ≠ A.WRK_SCRn_STAT n := by
  have := m.isLt
  unfold A.THM_CHn_HTRSTAT A.WRK_SCRn_STAT
  omega

/-- HCAUSE is written. -/
theorem putCause (s : State) (n : Fin 16) (v : Nat) : RaiseFrame s (s.put (F.WRK_SCRn_STAT_HCAUSE n) v) := by
  have q : quiet (A.WRK_SCRn_STAT n) = false := by
    have := mem_chans n (.inl rfl)
    simp [quiet, this]
  exact {
    refl s with
    word := fun a h => State.word_put_ne _ _ (by rintro rfl; simp [F.WRK_SCRn_STAT_HCAUSE, q] at h)
    pend := fun e b p => by
      have : (pendFld e).addr ≠ (F.WRK_SCRn_STAT_HCAUSE n).addr := by
        intro h
        have hb := blockOf_pend e b
        rw [h] at hb
        have := blockOf_wrk n
        simp only [F.WRK_SCRn_STAT_HCAUSE] at hb
        omega
      rw [State.flag_put_ne _ _ this]; exact p
    grow := fun f a _ p => (State.flag_put_ne _ _ (sticky_ne a n)).trans p
    cold := fun m p => (State.get_put_ne _ _ (duty_ne m n)).trans p
    wst := fun m => by
      by_cases e : (F.WRK_SCRn_STAT_STATE m).addr = (F.WRK_SCRn_STAT_HCAUSE n).addr
      · exact .inl (State.get_put_other _ _ (by simp [F.WRK_SCRn_STAT_HCAUSE, F.WRK_SCRn_STAT_STATE]))
      · exact .inl (State.get_put_ne _ _ e)
    wf := fun w => sparseWf_set _ _ _ w }

/-- A channel in RUN becomes HELD. -/
theorem putHeld (s : State) (n : Fin 16) (h : s.wstate n = 1) : RaiseFrame s (s.put (F.WRK_SCRn_STAT_STATE n) 2) := by
  have q : quiet (A.WRK_SCRn_STAT n) = false := by
    have := mem_chans n (.inl rfl)
    simp [quiet, this]
  exact {
    refl s with
    word := fun a h => State.word_put_ne _ _ (by rintro rfl; simp [F.WRK_SCRn_STAT_STATE, q] at h)
    pend := fun e b p => by
      have : (pendFld e).addr ≠ (F.WRK_SCRn_STAT_STATE n).addr := by
        intro h
        have hb := blockOf_pend e b
        rw [h] at hb
        have := blockOf_wrk n
        simp only [F.WRK_SCRn_STAT_STATE] at hb
        omega
      rw [State.flag_put_ne _ _ this]; exact p
    grow := fun f a _ p => (State.flag_put_ne _ _ (sticky_ne a n)).trans p
    cold := fun m p => (State.get_put_ne _ _ (duty_ne m n)).trans p
    wst := fun m => by
      by_cases e : m = n
      · subst e
        exact .inr ⟨h, State.get_put_same _ _ (by simp [F.WRK_SCRn_STAT_STATE])⟩
      · refine .inl (State.get_put_ne _ _ ?_)
        simp only [F.WRK_SCRn_STAT_STATE, A.WRK_SCRn_STAT]
        have : m.val ≠ n.val := fun x => e (Fin.ext x)
        omega
    wf := fun w => sparseWf_set _ _ _ w }

theorem showCause (hrs : ∀ e s, e < 512 → RaiseFrame s (rs e s)) (n : Fin 16) (c : Nat) (s : State) :
    RaiseFrame s (showCause rs n c s) := by
  unfold Machine.showCause
  split
  · exact refl s
  · exact (putCause s n _).trans (hrs _ _ (chEvt_lt n (by omega)))

theorem refreshHoldWith (hrs : ∀ e s, e < 512 → RaiseFrame s (rs e s)) (n : Fin 16) (s : State) :
    RaiseFrame s (refreshHoldWith rs n s) := by
  unfold Machine.refreshHoldWith
  split
  · exact showCause hrs n _ s
  · exact refl s

theorem addCause (n : Fin 16) (c : Nat) (s : State) : RaiseFrame s (addCause n c s) := by
  refine modWork s n _ rfl fun x m => ?_
  dsimp only
  split
  · exact m
  · exact List.mem_cons_of_mem _ m

theorem enterHeld (n : Fin 16) (s : State) (h : s.wstate n = 1) : RaiseFrame s (enterHeld n s) :=
  (putHeld s n h).trans ((put _ _ (ftStat n)).trans (modFt _ n _ rfl))

theorem holdWith (hrs : ∀ e s, e < 512 → RaiseFrame s (rs e s)) (n : Fin 16) (c : Nat) (s : State) :
    RaiseFrame s (holdWith rs n c s) := by
  unfold Machine.holdWith
  split
  · next h =>
    exact ((enterHeld n s h).trans (addCause n c _)).trans
      ((putCause _ n _).trans (hrs _ _ (chEvt_lt n (by omega))))
  · split
    · exact (addCause n c s).trans (showCause hrs n _ _)
    · exact refl s

theorem ledSlot_loud (n : Fin 16) (j : Nat) {k : Nat} (hk : k < 16) :
    Loud (ledSlot n j + k) := by
  have h : ledSlot n j + k = (0x1061000 + 16 * (j % 256) + k) + n.val * 0x100000 := by unfold ledSlot; omega
  rw [h]
  have := Nat.mod_lt j (show 0 < 256 by decide)
  exact loud_chan n (by omega) (by omega) (by omega)

/-- Beside SYS_BOOTCNT of the entry, ledger and position are written. -/
theorem ledAppend (n : Fin 16) (a b c d e : Nat) (x y : Bool) (s : State) :
    RaiseFrame (noteBoot n s) (ledAppend n a b c d e x y s) := by
  unfold Machine.ledAppend
  dsimp only
  refine trans ?_ (put _ _ (loud_chan n (b := 0x1060008) (by decide) (by decide) (by decide +kernel)))
  refine trans ?_ (setWord _ _ (loud_chan n (b := 0x1060004) (by decide) (by decide) (by decide +kernel)))
  refine trans ?_ (put _ _ (loud_chan n (b := 0x1060000) (by decide) (by decide) (by decide +kernel)))
  refine trans ?_ (setPair' _ _ (ledSlot_loud n _ (k := 8) (by omega)) (ledSlot_loud n _ (k := 12) (by omega)))
  refine trans ?_ (setWord _ _ (ledSlot_loud n _ (k := 4) (by omega)))
  exact setWord _ _ (ledSlot_loud n _ (k := 0) (by omega))

theorem modBand (n : Fin 16) (q : Nat) (f : Band → Band) (s : State) : RaiseFrame s (modBand n q f s) := modWork s n _ rfl fun _ m => m

theorem partialPending (hrs : ∀ e s, e < 512 → RaiseFrame s (rs e s)) (n : Fin 16) (q l : Nat) (s : State) :
    RaiseFrame s (partialPending rs n q l s) := by
  unfold Machine.partialPending
  dsimp only
  have h1 : RaiseFrame s (Machine.modBand n q (fun b => { b with npart := b.npart + 1, hadPart := true })
      (((s.put (F.CHn_LED_PSEQ_SEQ n) q).put (F.CHn_LED_PLINE_LINE n) l).put (F.CHn_LED_PLINE_PEND n) 1)) := by
    refine trans ?_ (modBand n q _ _)
    refine trans ?_ (put _ _ (loud_chan n (b := 0x1060010) (by decide) (by decide) (by decide +kernel)))
    refine trans ?_ (put _ _ (loud_chan n (b := 0x1060010) (by decide) (by decide) (by decide +kernel)))
    exact put _ _ (loud_chan n (b := 0x106000C) (by decide) (by decide) (by decide +kernel))
  refine h1.trans ?_
  refine trans ?_ (holdWith hrs n 3 _)
  refine trans ?_ (hrs _ _ (chEvt_lt n (by omega)))
  split
  · exact modWork _ n _ rfl fun _ m => m
  · exact refl _

theorem cutWindow (hrs : ∀ e s, e < 512 → RaiseFrame s (rs e s)) (n : Fin 16) (s : State) :
    RaiseFrame s (cutWindow rs n s) := by
  unfold Machine.cutWindow
  split
  · refine trans ?_ (partialPending hrs n _ _ _)
    refine trans ?_ (emit _ _)
    refine trans ?_ (modWav _ n _ rfl)
    refine trans ?_ (put _ _ (loud_chan n (b := 0x1060004) (by decide) (by decide) (by decide +kernel)))
    exact put _ _ (ledSlot_loud n _ (k := 4) (by omega))
  · exact refl s

theorem cancelDecided (n : Fin 16) (s : State) : RaiseFrame s (cancelDecided n s) := by
  unfold Machine.cancelDecided
  split
  · refine trans ?_ (restartScreen n _)
    refine trans ?_ (put _ _ (ftStat n))
    exact trans (modFt _ n _ rfl) (modWork _ n _ rfl fun _ m => m)
  · exact refl _

theorem dropHpen (n : Fin 16) (s : State) : RaiseFrame s (dropHpen n s) := by
  unfold Machine.dropHpen
  split
  · exact (modBrg s n _ (by rfl)).trans (put (f := F.CHn_BRG_STAT_HPEN n) _ _ (brgStat n))
  · exact refl _

theorem noteHalted (n : Fin 16) (s : State) : RaiseFrame s (noteHalted n s) := by
  unfold Machine.noteHalted
  dsimp only
  split
  · exact (dropHpen n s).trans (put (f := F.PWR_MON_FLUSH_HALTT) _ _ monFlush)
  · exact dropHpen n s

theorem inhibitWith (hrs : ∀ e s, e < 512 → RaiseFrame s (rs e s)) (c : Nat) (n : Fin 16) (s : State) :
    RaiseFrame s (inhibitWith rs c n s) := by
  unfold Machine.inhibitWith
  dsimp only
  refine trans ?_ (holdWith hrs n c _)
  refine (cutWindow hrs n s).trans ((cancelDecided n _).trans ?_)
  split
  · exact refl _
  · exact noteHalted n _

/-! ### The safe state -/

theorem clearMarks (s : State) : RaiseFrame s (clearMarks s) := by
  have jn : ∀ (u : State) (n : Fin 16), RaiseFrame u (u.modJnl n fun j => { j with flush := none }) := fun u n =>
    { refl u with
      recs := fun k => by
        by_cases e : k = n
        · subst e; simp
        · have : (u.modJnl n fun j => { j with flush := none }).journal k = u.journal k := vget_set_ne _ _ e
          rw [this] }
  unfold Machine.clearMarks
  split
  · exact eachCh _ _ fun n u => jn u n
  · exact refl s

theorem startFlush (w : Bool) (s : State) : RaiseFrame s (startFlush w s) := by
  have pw : ∀ (u : State) (x : Option (Nat × Bool)), RaiseFrame u { u with pwr := { u.pwr with flush := x } } :=
    fun u x => { refl u with }
  unfold Machine.startFlush
  split
  · exact pw ..
  · refine (pw s _).trans ((clearMarks _).trans (eachCh _ _ fun n u => ?_))
    exact put _ _ (loud_chan n (b := 0x1060018) (by decide) (by decide) (by decide +kernel))

/-- A field of a heater's state is written; DUTY only with 0. -/
theorem putHeater (n : Fin 16) (s : State) {f : Fld} (v : Nat) (a : f.addr = A.THM_CHn_HTRSTAT n)
    (h : 10 ≤ f.lo ∨ f = F.THM_CHn_HTRSTAT_DUTY n ∧ v = 0) : RaiseFrame s (s.put f v) := by
  have hn := n.isLt
  have hb : blockOf f.addr = 6 := by
    rw [a, blockOf_sys (by unfold A.THM_CHn_HTRSTAT; omega)]
    unfold A.THM_CHn_HTRSTAT; omega
  have hq : quiet f.addr = false := by
    have := mem_chans n (.inr (.inr (.inl a)))
    simp [quiet, this]
  exact { refl s with
    word := fun k q => State.word_put_ne _ _ (by rintro rfl; simp [hq] at q)
    pend := fun e h p => by
      have he := blockOf_pend e h
      rw [State.flag_put_ne]
      · exact p
      · intro x
        rw [x] at he
        omega
    grow := fun g ha _ p => by
      rw [State.flag_put_ne]
      · exact p
      · intro x
        rw [x, a, sticky_of (.inr (by unfold A.THM_CHn_HTRSTAT; omega))] at ha
        cases ha
    cold := fun m p => by
      by_cases e : m = n
      · subst e
        rcases h with h | ⟨h, v0⟩
        · exact (State.get_put_other s v (by simpa [F.THM_CHn_HTRSTAT_DUTY] using Or.inr h)).trans p
        · rw [h, v0]
          exact State.get_put_same _ _ (by simp [F.THM_CHn_HTRSTAT_DUTY])
      · refine (State.get_put_ne _ _ ?_).trans p
        rw [a]
        have : m.val ≠ n.val := fun x => e (Fin.ext x)
        simp only [F.THM_CHn_HTRSTAT_DUTY, A.THM_CHn_HTRSTAT]
        omega
    wst := fun m => .inl (State.get_put_ne s v (by
      rw [a]
      exact (duty_ne n m).symm))
    wf := fun w => sparseWf_set _ _ _ w }

theorem heaterOff (n : Fin 16) (s : State) : RaiseFrame s (heaterOff n s) := by
  unfold Machine.heaterOff
  dsimp only
  refine trans ?_ (other _ _ _ _ _ _ _ (List.suffix_refl _) rfl)
  refine trans ?_ (putHeater (f := F.THM_CHn_HTRSTAT_FORCED0 n) n _ _ rfl (.inl (by simp [F.THM_CHn_HTRSTAT_FORCED0])))
  exact putHeater (f := F.THM_CHn_HTRSTAT_DUTY n) n _ _ rfl (.inr ⟨rfl, rfl⟩)

theorem stopAxis (a : Fin 4) (s : State) : RaiseFrame s (stopAxis a s) := by
  have ha := a.isLt
  unfold Machine.stopAxis
  dsimp only
  have l1 : Loud (A.MOT_AXa_TGT_LO a) :=
    loud_react (mem_axes a (.inl rfl)) (by rw [blockOf_sys (by unfold A.MOT_AXa_TGT_LO; omega)]; unfold A.MOT_AXa_TGT_LO; omega)
      (fun m e => by have := m.isLt; unfold A.MOT_AXa_TGT_LO A.WRK_SCRn_STAT at e; omega)
      (by unfold A.MOT_AXa_TGT_LO; omega) fun m e => by have := m.isLt; unfold A.MOT_AXa_TGT_LO A.THM_CHn_HTRSTAT at e; omega
  have l2 : Loud (A.MOT_AXa_TGT_HI a) :=
    loud_react (mem_axes a (.inr (.inl rfl))) (by rw [blockOf_sys (by unfold A.MOT_AXa_TGT_HI; omega)]; unfold A.MOT_AXa_TGT_HI; omega)
      (fun m e => by have := m.isLt; unfold A.MOT_AXa_TGT_HI A.WRK_SCRn_STAT at e; omega)
      (by unfold A.MOT_AXa_TGT_HI; omega) fun m e => by have := m.isLt; unfold A.MOT_AXa_TGT_HI A.THM_CHn_HTRSTAT at e; omega
  have l3 : Loud (A.MOT_AXa_STAT a) :=
    loud_react (mem_axes a (.inr (.inr rfl))) (by rw [blockOf_sys (by unfold A.MOT_AXa_STAT; omega)]; unfold A.MOT_AXa_STAT; omega)
      (fun m e => by have := m.isLt; unfold A.MOT_AXa_STAT A.WRK_SCRn_STAT at e; omega)
      (by unfold A.MOT_AXa_STAT; omega) fun m e => by have := m.isLt; unfold A.MOT_AXa_STAT A.THM_CHn_HTRSTAT at e; omega
  refine trans ?_ (put (f := F.MOT_AXa_STAT_OBACK a) _ _ l3)
  refine trans ?_ (put (f := F.MOT_AXa_STAT_STOPPED a) _ _ l3)
  refine trans ?_ (put (f := F.MOT_AXa_TGT_HI_TGT_H a) _ _ l2)
  refine trans ?_ (put (f := F.MOT_AXa_TGT_LO_TGT_L a) _ _ l1)
  exact modAxis s a _

theorem safeWith (hrs : ∀ e s, e < 512 → RaiseFrame s (rs e s)) {c : Fld} (hc : c.addr = A.FLT_SAFE ∧ c.width = 1) (s : State) :
    RaiseFrame s (safeWith rs c s) := by
  have hp : ∀ u : State, RaiseFrame u (u.put c 1) := fun u => putSticky u (by rw [hc.1]; decide) hc.2
  unfold Machine.safeWith
  dsimp only
  split
  · exact hp s
  · have h1 : RaiseFrame s ((s.put F.FLT_SAFE_ACTIVE 1).put c 1) := (putSticky s (f := F.FLT_SAFE_ACTIVE) (by decide) rfl).trans (hp _)
    have hx : ∀ a : Fin 4, ∀ u : State, RaiseFrame u (if u.flag (F.MOT_AXa_CTRL_EN a) then Machine.stopAxis a u else u) :=
      fun a u => by
        split
        · exact stopAxis a u
        · exact refl u
    have hh : ∀ (n : Fin 16) (u : State), RaiseFrame u (Machine.heaterOff n (Machine.inhibitWith rs 2 n u)) := fun n u =>
      (inhibitWith hrs 2 n u).trans (heaterOff n _)
    have h2 : ∀ u : State, RaiseFrame u (if u.flag F.PROT_CFG_FETCHOFF then u.put F.WRK_CTRL_FETCH_EN 0 else u) := fun u => by
      split
      · exact put u _ (by decide +kernel)
      · exact refl u
    refine (h1.trans (h2 _)).trans ((eachCh _ _ hh).trans ?_)
    exact (foldl _ _ (fun u a => hx a u) _).trans ((hrs _ _ (by omega)).trans (startFlush _ _))

/-! ### The collector -/

theorem logRaise (e v : Nat) (s : State) : RaiseFrame s (logRaise e v s) := by
  unfold Machine.logRaise
  dsimp only
  have := Nat.mod_lt (s.get F.FLT_LOGCNT_COUNT) (show 0 < 64 by decide)
  have hl : ∀ k, k < 16 → Loud (0x20800 + 16 * (s.get F.FLT_LOGCNT_COUNT % 64) + k) := fun k hk => loud_log (by omega) (by omega)
  refine trans ?_ (put (f := F.FLT_LOGCNT_COUNT) _ _ (by decide +kernel))
  refine trans ?_ (setPair' _ _ (hl 8 (by omega)) (hl 12 (by omega)))
  exact trans (setWord _ _ (hl 0 (by omega))) (setWord _ _ (hl 4 (by omega)))

theorem latchLine (e v : Nat) (s : State) : RaiseFrame s (latchLine e v s) := by
  have hl : ∀ i, sticky (lineFld i).addr = true ∧ (lineFld i).width = 1 := fun i => by
    unfold lineFld
    split
    · exact ⟨by show sticky A.FLT_STAT_LO = true; decide, rfl⟩
    · exact ⟨by show sticky A.FLT_STAT_HI = true; decide, rfl⟩
  have h1 : RaiseFrame s (match lineOf e with
      | some i => s.put (lineFld i) 1
      | none => s) := by
    split
    · exact putSticky s (hl _).1 (hl _).2
    · exact refl s
  have h2 : ∀ u : State, RaiseFrame u (if u.flag F.FLT_FIRST_VALID then u else
      (((u.put F.FLT_FIRST_SRC e).put F.FLT_FIRST_SEV v).put F.FLT_FIRST_VALID 1).setPair
        A.FLT_FIRSTTIME_LO A.FLT_FIRSTTIME_HI u.devTime) := fun u => by
    split
    · exact refl _
    · refine trans ?_ (setPair' _ _ (by decide) (by decide +kernel))
      refine trans ?_ (put (f := F.FLT_FIRST_VALID) _ _ (by decide +kernel))
      exact trans (put (f := F.FLT_FIRST_SRC) _ _ (by decide +kernel)) (put (f := F.FLT_FIRST_SEV) _ _ (by decide +kernel))
  exact h1.trans (h2 _)

theorem reactTo (hrs : ∀ e s, e < 512 → RaiseFrame s (rs e s)) (e v : Nat) (s : State) : RaiseFrame s (reactTo rs e v s) := by
  unfold Machine.reactTo
  split
  · exact refl s
  · split
    · exact (flt s _ (by rfl)).trans (safeWith hrs ⟨rfl, rfl⟩ _)
    · split
      · exact refl s
      · split
        · exact refl s
        · split
          · exact (flt s _ (by rfl)).trans (holdWith hrs ..)
          · split
            · exact (flt s _ (by rfl)).trans (inhibitWith hrs ..)
            · exact refl s

theorem collect (hrs : ∀ e s, e < 512 → RaiseFrame s (rs e s)) (e : Nat) (s : State) : RaiseFrame s (collect rs e s) := by
  have hn : RaiseFrame s (noteHalt e s) := by
    unfold Machine.noteHalt
    split
    · exact flt s _ (by rfl)
    · exact refl s
  unfold Machine.collect
  dsimp only
  split
  · exact refl s
  · split
    · exact hn.trans (logRaise ..)
    · exact (hn.trans (logRaise ..)).trans ((latchLine ..).trans (reactTo hrs ..))

theorem raiseN (k : Nat) : ∀ (e : Nat) (s : State), e < 512 → RaiseFrame s (raiseN k e s) := by
  induction k with
  | zero =>
    intro e s h
    exact (evtRaise s h).trans (collect (fun _ u _ => refl u) e _)
  | succ k ih =>
    intro e s h
    exact (evtRaise s h).trans (collect ih e _)

/-- What a raise leaves as it was. -/
theorem raise (s : State) {e : Nat} (h : e < 512) : RaiseFrame s (s.raise e) := raiseN 6 e s h

theorem raiseCh (s : State) (n : Fin 16) {k : Nat} (h : k < 24) : RaiseFrame s (s.raiseCh n k) := raise s (chEvt_lt n h)

theorem raiseLimited (s : State) {e : Nat} (p : Nat) (h : e < 512) : RaiseFrame s (s.raiseLimited e p) := by
  unfold State.raiseLimited
  split
  · split
    · exact refl s
    · exact (flt s _ (by rfl)).trans (raise _ h)
  · exact (flt s _ (by rfl)).trans (raise _ h)

theorem hold (s : State) (n : Fin 16) (c : Nat) : RaiseFrame s (s.hold n c) := holdWith (raiseN 6) n c s
theorem inhibit (s : State) (n : Fin 16) : RaiseFrame s (s.inhibit n) := inhibitWith (raiseN 6) 2 n s
theorem enterSafe (s : State) {c : Fld} (hc : c.addr = A.FLT_SAFE ∧ c.width = 1) :
    RaiseFrame s (s.enterSafe c) := safeWith (raiseN 6) hc s
theorem refreshHolds (s : State) : RaiseFrame s s.refreshHolds := eachCh s _ fun n u => refreshHoldWith (raiseN 6) n u

theorem axisFault (a : Fin 4) (c : Nat) (s : State) : RaiseFrame s (axisFault a c s) := by
  have ha := a.isLt
  have l3 : Loud (A.MOT_AXa_STAT a) :=
    loud_react (mem_axes a (.inr (.inr rfl))) (by rw [blockOf_sys (by unfold A.MOT_AXa_STAT; omega)]; unfold A.MOT_AXa_STAT; omega)
      (fun m e => by have := m.isLt; unfold A.MOT_AXa_STAT A.WRK_SCRn_STAT at e; omega)
      (by unfold A.MOT_AXa_STAT; omega) fun m e => by have := m.isLt; unfold A.MOT_AXa_STAT A.THM_CHn_HTRSTAT at e; omega
  have h1 : RaiseFrame s (Machine.stopAxis a
      (((s.put (F.MOT_AXa_STAT_FAULT a) 1).put (F.MOT_AXa_STAT_FCAUSE a) c).raise (96 + a.val))) :=
    ((put s _ l3).trans (put _ _ l3)).trans ((raise _ (by omega)).trans (stopAxis a _))
  unfold Machine.axisFault
  dsimp only
  split
  · exact h1.trans (modAxis _ a _)
  · exact h1

end RaiseFrame

/-! ### Events of severity S0 or S1 -/

/-- The registers that an event of severity S0 or S1 writes: those of EVT, and of FLT all but the safe state (R306, R328). -/
def toldReg (a : Nat) : Bool := blockOf a == 1 || (fltReg a && a != A.FLT_SAFE)

/-- What an event of severity S0 or S1 changes: those registers, messages sent or kept, and that BRG_HALT was raised
(R306, R328). -/
structure Told (s t : State) : Prop where
  word : ∀ a, toldReg a = false → t.word a = s.word a
  same : t = { s with bar := t.bar, out := t.out, host := { s.host with pba := t.host.pba },
                      flt := { s.flt with brgHalt := t.flt.brgHalt } }

namespace Told

theorem refl (s : State) : Told s s := ⟨fun _ _ => rfl, rfl⟩

theorem trans {s t u : State} (h : Told s t) (k : Told t u) : Told s u where
  word a p := (k.word a p).trans (h.word a p)
  same := by rw [k.same, h.same]

theorem setWord (s : State) {a : Nat} (v : Word) (h : toldReg a = true) : Told s (s.setWord a v) where
  word b p := State.word_setWord_ne s v (by rintro rfl; simp [h] at p)
  same := rfl

theorem put (s : State) {f : Fld} (v : Nat) (h : toldReg f.addr = true) : Told s (s.put f v) :=
  setWord s _ h

theorem setPair (s : State) {lo hi : Nat} (v : Nat) (h : toldReg lo = true) (h' : toldReg hi = true) : Told s (s.setPair lo hi v) :=
  (setWord s _ h).trans (setWord _ _ h')

theorem get {s t : State} (h : Told s t) {f : Fld} (p : toldReg f.addr = false) : t.get f = s.get f := by
  simp only [State.get, h.word _ p]

theorem flag {s t : State} (h : Told s t) {f : Fld} (p : toldReg f.addr = false) : t.flag f = s.flag f := by
  simp only [State.flag, h.get p]

/-- The severities stand. -/
theorem sevOf {s t : State} (h : Told s t) {e : Nat} (b : e < 512) : t.sevOf e = s.sevOf e := by
  have hb : toldReg (A.FLT_SEVw (e / 8)) = false := by
    have : blockOf (A.FLT_SEVw (e / 8)) = 2 := by rw [blockOf_sys (by unfold A.FLT_SEVw; omega)]; unfold A.FLT_SEVw; omega
    have n1 : ∀ x, x < 0x21000 → A.FLT_SEVw (e / 8) ≠ x := fun x hx => by unfold A.FLT_SEVw; omega
    have n2 : ¬ A.FLT_SEVw (e / 8) < 0x20C00 := by unfold A.FLT_SEVw; omega
    simp [toldReg, fltReg, this, n1 A.FLT_STAT_LO (by decide), n1 A.FLT_STAT_HI (by decide), n1 A.FLT_SAFE (by decide),
      n1 A.FLT_FIRST (by decide), n1 A.FLT_FIRSTTIME_LO (by decide), n1 A.FLT_FIRSTTIME_HI (by decide),
      n1 A.FLT_LOGCNT (by decide), n2]
  show sevEffective e (getBits (t.word (A.FLT_SEVw (e / 8))) _ _) = _
  rw [h.word _ hb]
  rfl

theorem chans {s t : State} (h : Told s t) : t.chans = s.chans := by rw [h.same]
theorem ch {s t : State} (h : Told s t) (n : Fin 16) : t.ch n = s.ch n := by rw [State.ch, h.chans, State.ch]
theorem jnl {s t : State} (h : Told s t) : t.jnl = s.jnl := by rw [h.same]
theorem journal {s t : State} (h : Told s t) (n : Fin 16) : t.journal n = s.journal n := by
  rw [State.journal, h.jnl, State.journal]

theorem evtRaise (s : State) {e : Nat} (h : e < 512) : Told s (s.evtRaise e) := by
  have hm (u : State) (b : Bool) (fn : Fin 2) (v : Nat) : Told u (if b then u.msix fn v else u) := by
    cases b
    · exact refl u
    · simp only [if_true]
      unfold State.msix
      dsimp only
      split
      · exact ⟨fun _ _ => rfl, rfl⟩
      · exact ⟨fun _ _ => rfl, rfl⟩
  unfold State.evtRaise
  dsimp only
  split
  · exact (put s (f := pendFld e) 1 (by simp [toldReg, blockOf_pend e h])).trans ((hm _ _ _ _).trans (hm _ _ _ _))
  · exact refl s

theorem logRaise (e v : Nat) (s : State) : Told s (logRaise e v s) := by
  have := Nat.mod_lt (s.get F.FLT_LOGCNT_COUNT) (show 0 < 64 by decide)
  have hl : ∀ k, k < 16 → toldReg (0x20800 + 16 * (s.get F.FLT_LOGCNT_COUNT % 64) + k) = true := fun k hk => by
    have h1 : 0x20800 ≤ 0x20800 + 16 * (s.get F.FLT_LOGCNT_COUNT % 64) + k := by omega
    have h2 : 0x20800 + 16 * (s.get F.FLT_LOGCNT_COUNT % 64) + k < 0x20C00 := by omega
    have h3 : ¬ 0x20800 + 16 * (s.get F.FLT_LOGCNT_COUNT % 64) + k = A.FLT_SAFE := by unfold A.FLT_SAFE; omega
    simp [toldReg, fltReg, h1, h2, h3]
  unfold Machine.logRaise
  dsimp only
  refine trans ?_ (put (f := F.FLT_LOGCNT_COUNT) _ _ (by decide +kernel))
  refine trans ?_ (setPair _ _ (hl 8 (by omega)) (hl 12 (by omega)))
  exact trans (setWord _ _ (hl 0 (by omega))) (setWord _ _ (hl 4 (by omega)))

theorem latchLine (e v : Nat) (s : State) : Told s (latchLine e v s) := by
  have hl : ∀ i, toldReg (lineFld i).addr = true := fun i => by
    unfold lineFld
    split
    · show toldReg A.FLT_STAT_LO = true
      decide +kernel
    · show toldReg A.FLT_STAT_HI = true
      decide +kernel
  have h1 : Told s (match lineOf e with
      | some i => s.put (lineFld i) 1
      | none => s) := by
    split
    · exact put s _ (hl _)
    · exact refl s
  have h2 : ∀ u : State, Told u (if u.flag F.FLT_FIRST_VALID then u else
      (((u.put F.FLT_FIRST_SRC e).put F.FLT_FIRST_SEV v).put F.FLT_FIRST_VALID 1).setPair
        A.FLT_FIRSTTIME_LO A.FLT_FIRSTTIME_HI u.devTime) := fun u => by
    split
    · exact refl _
    · refine trans ?_ (setPair _ _ (by decide +kernel) (by decide +kernel))
      refine trans ?_ (put (f := F.FLT_FIRST_VALID) _ _ (by decide +kernel))
      exact trans (put (f := F.FLT_FIRST_SRC) _ _ (by decide +kernel)) (put (f := F.FLT_FIRST_SEV) _ _ (by decide +kernel))
  exact h1.trans (h2 _)

/-- An event of severity S0 or S1 is only told. -/
theorem raise (s : State) {e : Nat} (h : e < 512) (v : s.sevOf e ≤ 1) : Told s (s.raise e) := by
  have he := evtRaise s h
  have hv : (s.evtRaise e).sevOf e = s.sevOf e := by
    have hs : ∀ u : State, ∀ (b : Bool) (fn : Fin 2) (w : Nat), (if b then u.msix fn w else u).sevOf e = u.sevOf e :=
      fun u b fn w => by
        cases b
        · rfl
        · simp only [if_true]; unfold State.msix; dsimp only; split <;> rfl
    unfold State.evtRaise
    dsimp only
    split
    · rw [hs, hs]
      have hb := blockOf_pend e h
      have hne : (⟨A.FLT_SEVw (e / 8), 4 * (e % 8), 3⟩ : Fld).addr ≠ (pendFld e).addr := by
        intro x
        rw [← x, blockOf_sys (by simp only [A.FLT_SEVw]; omega)] at hb
        simp only [A.FLT_SEVw] at hb
        omega
      have := State.get_put_ne s (f := pendFld e) (g := ⟨A.FLT_SEVw (e / 8), 4 * (e % 8), 3⟩) 1 hne
      exact congrArg (sevEffective e) this
    · rfl
  have hn (u : State) : Told u (noteHalt e u) := by
    unfold noteHalt
    split
    · exact ⟨fun _ _ => rfl, rfl⟩
    · exact refl u
  have hr (u : State) (k : Nat) (hk : k ≤ 1) (rs : Nat → State → State) : reactTo rs e k u = u := by
    have h4 : k ≠ 4 := by omega
    have h2 : k ≠ 2 := by omega
    have h3 : k ≠ 3 := by omega
    unfold reactTo
    split
    · rfl
    · simp only [h4, if_false]
      split
      · rfl
      · simp only [h2, h3, if_false, ite_self]
  show Told s (collect (raiseN 5) e (s.evtRaise e))
  refine he.trans ?_
  unfold collect
  dsimp only
  rw [hv]
  split
  · exact refl _
  · split
    · exact (hn _).trans (logRaise ..)
    · rw [hr _ _ v]
      exact ((hn _).trans (logRaise ..)).trans (latchLine ..)

end Told

/-! ### What is kept, field by field -/

/-- A channel in RUN or HELD that is given a cause to hold is HELD with it (R56). -/
theorem hold_holds (s : State) (n : Fin 16) (c : Nat) (h : s.wstate n = 1 ∨ s.wstate n = 2) :
    (s.hold n c).wstate n = 2 ∧ c ∈ ((s.hold n c).ch n).work.causes := by
  have ev := RaiseFrame.chEvt_lt n (k := 2) (by omega)
  have add (u : State) : c ∈ ((addCause n c u).ch n).work.causes := by
    simp only [addCause, State.ch_modWork_same]
    split
    · next h => simpa using h
    · simp
  have two {u v : State} (f : RaiseFrame u v) (w : u.wstate n = 2) : v.wstate n = 2 := by
    rcases f.wst n with x | x <;> omega
  unfold State.hold holdWith
  by_cases h1 : s.wstate n = 1
  · rw [if_pos h1]
    have w1 : (addCause n c (enterHeld n s)).wstate n = 2 := by
      have hne : (F.WRK_SCRn_STAT_STATE n).addr ≠ (F.CHn_FT_STAT_STATE n).addr := fun e => (ftStat n).2.2.1 n e.symm
      have hlo : (F.WRK_SCRn_STAT_STATE n).lo + (F.WRK_SCRn_STAT_STATE n).width ≤ 32 := by simp [F.WRK_SCRn_STAT_STATE]
      rw [State.wstate, addCause, State.modWork_get, enterHeld, State.modFt_get, State.get_put_ne _ _ hne,
        State.get_put_same _ _ hlo]
      rfl
    have f := (RaiseFrame.putCause (addCause n c (enterHeld n s)) n ((addCause n c (enterHeld n s)).causeNow n c)).trans
      (RaiseFrame.raiseN 6 _ _ ev)
    exact ⟨two f w1, f.causes n c (add _)⟩
  · have h2 : s.wstate n = 2 := by omega
    rw [if_neg h1, if_pos h2]
    have f := RaiseFrame.showCause (RaiseFrame.raiseN 6) n ((addCause n c s).causeNow n c) (addCause n c s)
    exact ⟨two f h2, f.causes n c (add s)⟩

/-- With HOST powered, an event that is raised is pending afterwards (R306). -/
theorem raise_pending (s : State) {e : Nat} (h : e < 512) (h0 : s.domOn 0 = true) : (s.raise e).flag (pendFld e) = true := by
  have h1 : (s.evtRaise e).flag (pendFld e) = true := by
    by_cases hp : s.flag (pendFld e) = true
    · have : s.evtRaise e = s := by
        unfold State.evtRaise
        simp only [pendFld] at hp
        simp [hp]
      rw [this]; exact hp
    · have hp' : s.flag (pendFld e) = false := by simpa using hp
      have h2 : (s.put (pendFld e) 1).flag (pendFld e) = true :=
        State.flag_put_one _ (by simp [pendFld]; omega) (by simp [pendFld])
      have step : ∀ (u : State) (b : Bool) (fn : Fin 2) (v : Nat),
          (if b then u.msix fn v else u).flag (pendFld e) = u.flag (pendFld e) := fun u b fn v => by
        cases b
        · rfl
        · simp only [if_true]; unfold State.msix; dsimp only; split <;> rfl
      have h3 : s.evtRaise e = (if (if (s.put (pendFld e) 1).flag (F.EVT_ROUTEe_PF0EN e) then (s.put (pendFld e) 1).msix 0 e
          else s.put (pendFld e) 1).flag (F.EVT_ROUTEe_PF1EN e) then
            (if (s.put (pendFld e) 1).flag (F.EVT_ROUTEe_PF0EN e) then (s.put (pendFld e) 1).msix 0 e
              else s.put (pendFld e) 1).msix 1 ((if (s.put (pendFld e) 1).flag (F.EVT_ROUTEe_PF0EN e) then
                (s.put (pendFld e) 1).msix 0 e else s.put (pendFld e) 1).get (F.EVT_ROUTEe_PF1VEC e))
          else (if (s.put (pendFld e) 1).flag (F.EVT_ROUTEe_PF0EN e) then (s.put (pendFld e) 1).msix 0 e
            else s.put (pendFld e) 1)) := by
        unfold State.evtRaise
        simp only [pendFld] at hp'
        simp only [h0, hp', Bool.not_false, Bool.and_self, if_true]
        rfl
      rw [h3, step, step]
      exact h2
  exact (RaiseFrame.collect (RaiseFrame.raiseN 5) e _).pend e h h1

end Sys2Proof.Machine
end

