-- ==== Sys2Proof/Laws/Steady.lean ====
section
/-! SUPPORT. A command's work is steady: it leaves the queue and the clock alone and keeps the canonical form of the register
space and of the latches. Here for the operations that every meaning is built from. -/

namespace Sys2Proof.Machine

/-- The queue and the tick are as before, and the two register stores are canonical if they were. -/
structure Steady (s t : State) : Prop where
  pending : t.pending = s.pending
  tick : t.tick = s.tick
  bar : sparseWf barDefault s.bar = true → sparseWf barDefault t.bar = true
  latch : sparseWf latchDefault s.latch = true → sparseWf latchDefault t.latch = true

namespace Steady

theorem refl (s : State) : Steady s s := ⟨rfl, rfl, id, id⟩

theorem trans {s t u : State} (h : Steady s t) (k : Steady t u) : Steady s u :=
  ⟨k.pending.trans h.pending, k.tick.trans h.tick, k.bar ∘ h.bar, k.latch ∘ h.latch⟩

theorem of_frame {s t : State} (h : RaiseFrame s t) : Steady s t :=
  ⟨h.pending, h.tick, h.wf, fun w => by rw [h.latch]; exact w⟩

/-- An update of other fields. -/
theorem upd {s t : State} (devBase free : Nat) (out : List Output) (chans : Vector Chan 16) (jnl : Vector ChJnl 16)
    (capo : Vector CapoSlot 16) (mbx : Vector Mbox 48) (host : Endpoint) (flt : Flt) (sp : SpPort) (pwr : Pwr) (boot : Boot)
    (pos : Pos) (ins : Ins) (tun : Tun) (thm : Thm) (mot : Mot) (h : Steady s t) :
    Steady s { t with
      devBase := devBase, free := free, out := out, chans := chans, jnl := jnl, capo := capo, mbx := mbx, host := host,
      flt := flt, sp := sp, pwr := pwr, boot := boot, pos := pos, ins := ins, tun := tun, thm := thm, mot := mot } :=
  h.trans ⟨rfl, rfl, id, id⟩

/-- An update that also drops entries of the register space, or all latches. -/
theorem updDrop {s t : State} (p : Nat → Bool) (devBase free : Nat) (out : List Output) (chans : Vector Chan 16)
    (jnl : Vector ChJnl 16)
    (capo : Vector CapoSlot 16) (mbx : Vector Mbox 48) (host : Endpoint) (flt : Flt) (sp : SpPort) (pwr : Pwr) (boot : Boot)
    (pos : Pos) (ins : Ins) (tun : Tun) (thm : Thm) (mot : Mot) (h : Steady s t) :
    Steady s { t with
      bar := sparseDrop p t.bar,
      devBase := devBase, free := free, out := out, chans := chans, jnl := jnl, capo := capo, mbx := mbx, host := host,
      flt := flt, sp := sp, pwr := pwr, boot := boot, pos := pos, ins := ins, tun := tun, thm := thm, mot := mot } :=
  h.trans ⟨rfl, rfl, sparseWf_drop _ _, id⟩

/-- A fold of steady steps is steady. -/
theorem foldl {α : Type} {u s : State} {l : List α} {g : State → α → State} (h : Steady u s)
    (hg : ∀ s a, Steady u s → Steady u (g s a)) : Steady u (l.foldl g s) := by
  induction l generalizing s with
  | nil => exact h
  | cons a l ih => exact ih (hg s a h)

end Steady

section
variable {u s : State}
theorem State.setWord_steady {a : Nat} {v : Word} (h : Steady u s) : Steady u (s.setWord a v) :=
  h.trans ⟨rfl, rfl, sparseWf_set _ _ _, id⟩
theorem State.put_steady {f : Fld} {v : Nat} (h : Steady u s) : Steady u (s.put f v) :=
  h.trans ⟨rfl, rfl, sparseWf_set _ _ _, id⟩
theorem State.bump_steady {f : Fld} {v : Nat} (h : Steady u s) : Steady u (s.bump f v) :=
  h.trans ⟨rfl, rfl, sparseWf_set _ _ _, id⟩
theorem State.wrapAdd_steady {f : Fld} {v : Nat} (h : Steady u s) : Steady u (s.wrapAdd f v) :=
  h.trans ⟨rfl, rfl, sparseWf_set _ _ _, id⟩
theorem State.setDom_steady {d v : Nat} (h : Steady u s) : Steady u (s.setDom d v) :=
  h.trans ⟨rfl, rfl, sparseWf_set _ _ _, id⟩
theorem State.setPair_steady {a b v : Nat} (h : Steady u s) : Steady u (s.setPair a b v) :=
  h.trans ⟨rfl, rfl, fun w => sparseWf_set _ _ _ (sparseWf_set _ _ _ w), id⟩
theorem State.takeFree_steady (h : Steady u s) : Steady u (s.takeFree) :=
  h.trans ⟨rfl, rfl, id, id⟩
theorem State.emit_steady {o : Output} (h : Steady u s) : Steady u (s.emit o) :=
  h.trans ⟨rfl, rfl, id, id⟩
theorem State.modCh_steady {n : Fin 16} {f : Chan → Chan} (h : Steady u s) : Steady u (s.modCh n f) :=
  h.trans ⟨rfl, rfl, id, id⟩
theorem State.modWork_steady {n : Fin 16} {f : Work → Work} (h : Steady u s) : Steady u (s.modWork n f) :=
  h.trans ⟨rfl, rfl, id, id⟩
theorem State.modImg_steady {n : Fin 16} {f : Img → Img} (h : Steady u s) : Steady u (s.modImg n f) :=
  h.trans ⟨rfl, rfl, id, id⟩
theorem State.modWav_steady {n : Fin 16} {f : Wav → Wav} (h : Steady u s) : Steady u (s.modWav n f) :=
  h.trans ⟨rfl, rfl, id, id⟩
theorem State.modDut_steady {n : Fin 16} {f : Dut → Dut} (h : Steady u s) : Steady u (s.modDut n f) :=
  h.trans ⟨rfl, rfl, id, id⟩
theorem State.modFt_steady {n : Fin 16} {f : Ft → Ft} (h : Steady u s) : Steady u (s.modFt n f) :=
  h.trans ⟨rfl, rfl, id, id⟩
theorem State.modBrg_steady {n : Fin 16} {f : Brg → Brg} (h : Steady u s) : Steady u (s.modBrg n f) :=
  h.trans ⟨rfl, rfl, id, id⟩
theorem State.modIso_steady {n : Fin 16} {f : Iso → Iso} (h : Steady u s) : Steady u (s.modIso n f) :=
  h.trans ⟨rfl, rfl, id, id⟩
theorem State.modJnl_steady {n : Fin 16} {f : ChJnl → ChJnl} (h : Steady u s) : Steady u (s.modJnl n f) :=
  h.trans ⟨rfl, rfl, id, id⟩
theorem State.dropDomain_steady {d : Nat} (h : Steady u s) : Steady u (s.dropDomain d) :=
  h.trans ⟨rfl, rfl, sparseWf_drop _ _, id⟩
end

theorem State.eachCh_steady {u s : State} {f : Fin 16 → State → State} (h : Steady u s)
    (hf : ∀ n s, Steady u s → Steady u (f n s)) : Steady u (s.eachCh f) :=
  Steady.foldl h fun s n => hf n s

/-- The outcome of a command is steady: its next state, where it has one, is. -/
structure OSteady (s : State) (o : Host.Outcome State Fault Refusal) : Prop where
  steady : ∀ t, o = .next t → Steady s t

theorem OSteady.next {s t : State} (h : Steady s t) : OSteady s (.next t) :=
  ⟨fun _ e => by injection e with e; exact e ▸ h⟩

theorem OSteady.fault (s : State) (f : Fault) : OSteady s (.fault f) := ⟨fun _ e => by injection e⟩

theorem OSteady.nextIf {s t : State} {ok : Bool} (h : Steady s t) : OSteady s (nextIf ok t) := by
  cases ok
  · exact OSteady.fault _ _
  · exact OSteady.next h

end Sys2Proof.Machine
end

