-- ==== Sys2Proof/Laws/Effects.lean ====
section
/-! SUPPORT. Small laws for statements of a command's effect: how a completion is shown, what a write of a master that has the
right does, and what fields read after an event. -/

namespace Sys2Proof.Machine

/-- A command whose meaning answers t completes in t. -/
theorem does_of {c : Instr} {s t : State} {P : State → Prop} (h : exec c s = .next t) (hp : P t) : does c s P :=
  ⟨t, h, hp⟩

@[simp] theorem nextIf_true (s : State) : nextIf true s = .next s := rfl

/-- A write that takes effect. -/
theorem State.wr_reaches {s : State} {m : Master} {a : Nat} {f : State → State} (h : s.reaches m a = true) :
    s.wr m a f = f s := by
  unfold State.reaches at h
  simp [State.wr, h]

/-- A write that is discarded. -/
theorem State.wr_not {s : State} {m : Master} {a : Nat} {f : State → State} (h : s.reaches m a = false) : s.wr m a f = s := by
  unfold State.reaches at h
  simp [State.wr, h]

namespace RaiseFrame

variable {s t : State}

theorem get (h : RaiseFrame s t) {f : Fld} (q : quiet f.addr = true) : t.get f = s.get f := by
  simp only [State.get, h.word _ q]

theorem flag (h : RaiseFrame s t) {f : Fld} (q : quiet f.addr = true) : t.flag f = s.flag f := by
  simp only [State.flag, h.get q]

theorem domState (h : RaiseFrame s t) (d : Nat) : t.domState d = s.domState d := by
  apply h.get
  unfold domFld
  split
  · show quiet A.SYS_DOMSTAT_LO = true
    decide +kernel
  · show quiet A.SYS_DOMSTAT_HI = true
    decide +kernel

theorem domOn (h : RaiseFrame s t) (d : Nat) : t.domOn d = s.domOn d := by
  simp only [State.domOn, h.domState]

theorem mem_out (h : RaiseFrame s t) {o : Output} (m : o ∈ s.out) : o ∈ t.out := h.out.subset m

/-- A raise is calm. -/
theorem calm (h : RaiseFrame s t) : Calm quiet s t where
  word := h.word
  pending := h.pending
  tick := h.tick
  devBase := h.devBase
  latch := h.latch
  capo := h.capo
  mbx := h.mbx
  sp := h.sp
  boot := h.boot
  pos := h.pos
  ins := h.ins
  tun := h.tun
  host := h.host
  pwr := h.pwr
  jnl := h.recs
  thm := h.thm
  tap := h.tap
  img := h.img
  dut := h.dut
  brg := h.brg
  iso := h.iso

end RaiseFrame

namespace Calm

variable {k : Nat → Bool} {s t u : State}

theorem refl (k : Nat → Bool) (s : State) : Calm k s s where
  word _ _ := rfl
  pending := rfl
  tick := rfl
  devBase := rfl
  latch := rfl
  capo := rfl
  mbx := rfl
  sp := rfl
  boot := rfl
  pos := rfl
  ins := rfl
  tun := rfl
  host := rfl
  pwr := rfl
  jnl _ := rfl
  thm := rfl
  tap := rfl
  img _ := rfl
  dut _ := rfl
  brg _ := rfl
  iso _ := rfl

theorem trans (h : Calm k s t) (g : Calm k t u) : Calm k s u where
  word a q := (g.word a q).trans (h.word a q)
  pending := g.pending.trans h.pending
  tick := g.tick.trans h.tick
  devBase := g.devBase.trans h.devBase
  latch := g.latch.trans h.latch
  capo := g.capo.trans h.capo
  mbx := g.mbx.trans h.mbx
  sp := g.sp.trans h.sp
  boot := g.boot.trans h.boot
  pos := g.pos.trans h.pos
  ins := g.ins.trans h.ins
  tun := g.tun.trans h.tun
  host := by rw [← h.host, ← g.host]
  pwr := by rw [← h.pwr, ← g.pwr]
  jnl n := by rw [← h.jnl n, ← g.jnl n]
  thm := by rw [← h.thm, ← g.thm]
  tap := g.tap.trans h.tap
  img n := by rw [← h.img n, ← g.img n]
  dut n := by rw [← h.dut n, ← g.dut n]
  brg n := by rw [← h.brg n, ← g.brg n]
  iso n := (g.iso n).trans (h.iso n)

theorem mono {k' : Nat → Bool} (h : Calm k s t) (m : ∀ a, k' a = true → k a = true) : Calm k' s t :=
  { h with word := fun a q => h.word a (m a q) }

/-- A register that is not kept is written. -/
theorem setWord (s : State) {a : Nat} (v : Word) (h : k a = false) : Calm k s (s.setWord a v) :=
  { refl k s with word := fun b q => State.word_setWord_ne s v (by rintro rfl; simp [h] at q) }

theorem put (s : State) {f : Fld} (v : Nat) (h : k f.addr = false) : Calm k s (s.put f v) := setWord s _ h

theorem work (s : State) (n : Fin 16) (g : Work → Work) : Calm k s (s.modWork n g) :=
  { refl k s with
    img := fun m => by by_cases e : m = n <;> simp [State.modWork, e]
    dut := fun m => by by_cases e : m = n <;> simp [State.modWork, e]
    brg := fun m => by by_cases e : m = n <;> simp [State.modWork, e]
    iso := fun m => by by_cases e : m = n <;> simp [State.modWork, e] }

theorem ft (s : State) (n : Fin 16) (g : Ft → Ft) : Calm k s (s.modFt n g) :=
  { refl k s with
    img := fun m => by by_cases e : m = n <;> simp [State.modFt, e]
    dut := fun m => by by_cases e : m = n <;> simp [State.modFt, e]
    brg := fun m => by by_cases e : m = n <;> simp [State.modFt, e]
    iso := fun m => by by_cases e : m = n <;> simp [State.modFt, e] }

theorem wav (s : State) (n : Fin 16) (g : Wav → Wav) : Calm k s (s.modWav n g) :=
  { refl k s with
    img := fun m => by by_cases e : m = n <;> simp [State.modWav, e]
    dut := fun m => by by_cases e : m = n <;> simp [State.modWav, e]
    brg := fun m => by by_cases e : m = n <;> simp [State.modWav, e]
    iso := fun m => by by_cases e : m = n <;> simp [State.modWav, e] }

theorem emit (s : State) (o : Output) : Calm k s (s.emit o) := { refl k s with }

theorem flt (s : State) (f : Flt) (h : f.tap = s.flt.tap) : Calm k s { s with flt := f } := { refl k s with tap := h }

theorem foldl {α : Type} (l : List α) (g : State → α → State) (h : ∀ s a, Calm k s (g s a)) (s : State) :
    Calm k s (l.foldl g s) := by
  induction l generalizing s with
  | nil => exact refl k s
  | cons a l ih => exact (h s a).trans (ih _)

/-- A raise in a context where the quiet registers are kept. -/
theorem of_frame (h : RaiseFrame s t) (m : ∀ a, k a = true → quiet a = true) : Calm k s t := h.calm.mono m

end Calm

end Sys2Proof.Machine
end

