-- ==== Sys2Proof/Laws/Host.lean ====
section
/-! SUPPORT. What the shared operations of the endpoint, the express queue, the return lane and the TAP can do. -/

namespace Sys2Proof.Machine

/-- A configuration word reads as it was written, and no other changes. -/
theorem cfgStored_cfgStore (fn : Fin 2) (a : Nat) (v : Word) (s : State) (b : Nat) :
    (cfgStore fn a v s).cfgStored fn b = if b = a then v else s.cfgStored fn b := by
  have h : (s.host.cfg.set fn (sparseSet (cfgDefault fn) (s.host.cfg.get fn) a v)).get fn =
      sparseSet (cfgDefault fn) (s.host.cfg.get fn) a v := Vector.getElem_set_self fn.isLt
  simp only [cfgStore, State.cfgStored, h, sparseGet_set]

/-- The configuration space of the other function is as before. -/
theorem cfgStored_cfgStore_ne {f g : Fin 2} (h : g ≠ f) (a : Nat) (v : Word) (s : State) (b : Nat) :
    (cfgStore f a v s).cfgStored g b = s.cfgStored g b := by
  have e : (s.host.cfg.set f (sparseSet (cfgDefault f) (s.host.cfg.get f) a v)).get g = s.host.cfg.get g := by
    exact Vector.getElem_set_ne f.isLt g.isLt (Fin.val_ne_of_ne h.symm)
  simp only [cfgStore, State.cfgStored, e]

/-- With nothing in the express queue, serving it does nothing. -/
theorem expServe_nil {s : State} (h : s.host.expQ = []) : expServe s = s := by simp [expServe, h]

/-- A message whose CRC-8 fails only breaks a row of TRDY messages; one on a lane nobody listens to does nothing. -/
theorem heard_bad {s : State} {n : Fin 16} {rd : Bool} {syms : List (BitVec 10)} {k : List Byte → State → State}
    (h : s.hears n = true) (m : retMsg rd syms = none) : heard n rd syms k s = s.modBrg n fun b => { b with trdy := 0 } := by
  simp [heard, h, m]
theorem heard_deaf {s : State} {n : Fin 16} {rd : Bool} {syms : List (BitVec 10)} {k : List Byte → State → State}
    (h : s.hears n = false) : heard n rd syms k s = s := by simp [heard, h]

/-- The TAP does nothing before BSCAN is accepted (R390). -/
theorem tapOp_held {s : State} (h : s.flag F.FLT_SAFE_BSCAN = false) (o : TapOp) : tapOp s o = s := by simp [tapOp, h]

end Sys2Proof.Machine
end

