-- ==== Sys2Proof/Laws/SteadyOps.lean ====
section
/-! SUPPORT. Steady steps: the shared operations of the work path, the fire timing, the links, the encoders, the mailboxes and the capo slots. One lemma for each operation and each meaning. -/

namespace Sys2Proof.Machine

set_option linter.unusedTactic false
set_option linter.unreachableTactic false

/-! ## Flags -/

theorem State.msix_steady {u : State} {s : State} {fn : Fin 2} {vec : Nat} (hst : Steady u s) :
    Steady u (State.msix s fn vec) := by
  unfold State.msix
  repeat' first
    | intro _
    | with_reducible first | assumption | apply State.emit_steady
    | split | dsimp only
    | with_reducible apply Steady.upd

theorem State.evtRaise_steady {u : State} {s : State} {e : Nat} (hst : Steady u s) :
    Steady u (State.evtRaise s e) := by
  unfold State.evtRaise
  repeat' first
    | intro _
    | with_reducible first | assumption | apply State.put_steady | apply State.msix_steady
    | split | dsimp only

theorem showCause_steady {u : State} {rs : Nat → State → State} {n : Fin 16} {c : Nat} {s : State} (hst : Steady u s) (hrs : ∀ (x0 : Nat) (x1 : State), Steady u x1 → Steady u (rs x0 x1)) :
    Steady u (showCause rs n c s) := by
  unfold showCause
  repeat' first
    | intro _
    | with_reducible first | assumption | apply hrs | apply State.put_steady
    | split | dsimp only
    | with_reducible apply Steady.upd

theorem refreshHoldWith_steady {u : State} {rs : Nat → State → State} {n : Fin 16} {s : State} (hst : Steady u s) (hrs : ∀ (x0 : Nat) (x1 : State), Steady u x1 → Steady u (rs x0 x1)) :
    Steady u (refreshHoldWith rs n s) := by
  unfold refreshHoldWith
  repeat' first
    | intro _
    | with_reducible first | assumption | apply hrs | apply showCause_steady
    | split | dsimp only
    | with_reducible apply Steady.upd

theorem addCause_steady {u : State} {n : Fin 16} {c : Nat} {s : State} (hst : Steady u s) :
    Steady u (addCause n c s) := by
  unfold addCause
  repeat' first
    | intro _
    | with_reducible first | assumption | apply State.modWork_steady
    | split | dsimp only
    | with_reducible apply Steady.upd

theorem enterHeld_steady {u : State} {n : Fin 16} {s : State} (hst : Steady u s) :
    Steady u (enterHeld n s) := by
  unfold enterHeld
  repeat' first
    | intro _
    | with_reducible first | assumption | apply State.modFt_steady | apply State.put_steady
    | split | dsimp only
    | with_reducible apply Steady.upd

theorem holdWith_steady {u : State} {rs : Nat → State → State} {n : Fin 16} {c : Nat} {s : State} (hst : Steady u s) (hrs : ∀ (x0 : Nat) (x1 : State), Steady u x1 → Steady u (rs x0 x1)) :
    Steady u (holdWith rs n c s) := by
  unfold holdWith
  repeat' first
    | intro _
    | with_reducible first | assumption | apply hrs | apply State.put_steady | apply addCause_steady
    | with_reducible first | apply enterHeld_steady | apply showCause_steady
    | split | dsimp only
    | with_reducible apply Steady.upd

theorem noteBoot_steady {u : State} {n : Fin 16} {s : State} (hst : Steady u s) :
    Steady u (noteBoot n s) := by
  unfold noteBoot
  repeat' first
    | intro _
    | with_reducible first | assumption | apply State.modWork_steady
    | split | dsimp only
    | with_reducible apply Steady.upd

theorem ledAppend_steady {u : State} {n : Fin 16} {seq : Nat} {line : Nat} {st : Nat} {fl : Nat} {time : Nat} {dir : Bool} {sosk : Bool} {s : State} (hst : Steady u s) :
    Steady u (ledAppend n seq line st fl time dir sosk s) := by
  unfold ledAppend
  extract_lets a s1 s2 s3 s4
  have hs1 : Steady u s1 := by
    unfold s1
    repeat' first
      | intro _
      | with_reducible first | assumption | apply State.setWord_steady | apply noteBoot_steady
      | split | dsimp only
      | with_reducible apply Steady.upd
  clear_value s1
  have hs2 : Steady u s2 := by
    unfold s2
    repeat' first
      | intro _
      | with_reducible first | assumption | apply State.setWord_steady
      | split | dsimp only
      | with_reducible apply Steady.upd
  clear_value s2
  have hs3 : Steady u s3 := by
    unfold s3
    repeat' first
      | intro _
      | with_reducible first | assumption | apply State.setPair_steady
      | split | dsimp only
      | with_reducible apply Steady.upd
  clear_value s3
  have hs4 : Steady u s4 := by
    unfold s4
    repeat' first
      | intro _
      | with_reducible first | assumption | apply State.setWord_steady | apply State.put_steady
      | split | dsimp only
      | with_reducible apply Steady.upd
  clear_value s4
  repeat' first
    | intro _
    | with_reducible first | assumption | apply State.wrapAdd_steady
    | split | dsimp only
    | with_reducible apply Steady.upd

theorem setKind_steady {u : State} {n : Fin 16} {k : Bool × Bool} {s : State} (hst : Steady u s) :
    Steady u (setKind n k s) := by
  unfold setKind
  repeat' first
    | intro _
    | with_reducible first | assumption | apply State.put_steady | apply State.modFt_steady
    | split | dsimp only
    | with_reducible apply Steady.upd

theorem modBand_steady {u : State} {n : Fin 16} {seq : Nat} {f : Band → Band} {s : State} (hst : Steady u s) :
    Steady u (modBand n seq f s) := by
  unfold modBand
  repeat' first
    | intro _
    | with_reducible first | assumption | apply State.modWork_steady
    | split | dsimp only
    | with_reducible apply Steady.upd

theorem restartScreen_steady {u : State} {n : Fin 16} {s : State} (hst : Steady u s) :
    Steady u (restartScreen n s) := by
  unfold restartScreen
  repeat' first
    | intro _
    | with_reducible first | assumption | apply State.modImg_steady | apply State.modDut_steady
    | with_reducible first | apply State.modBrg_steady
    | split | dsimp only
    | with_reducible apply Steady.upd

theorem partialPending_steady {u : State} {rs : Nat → State → State} {n : Fin 16} {seq : Nat} {line : Nat} {s : State} (hst : Steady u s) (hrs : ∀ (x0 : Nat) (x1 : State), Steady u x1 → Steady u (rs x0 x1)) :
    Steady u (partialPending rs n seq line s) := by
  unfold partialPending
  repeat' first
    | intro _
    | with_reducible first | assumption | apply hrs | apply State.put_steady | apply State.modWork_steady
    | with_reducible first | apply holdWith_steady | apply modBand_steady
    | split | dsimp only
    | with_reducible apply Steady.upd

theorem cutWindow_steady {u : State} {rs : Nat → State → State} {n : Fin 16} {s : State} (hst : Steady u s) (hrs : ∀ (x0 : Nat) (x1 : State), Steady u x1 → Steady u (rs x0 x1)) :
    Steady u (cutWindow rs n s) := by
  unfold cutWindow
  repeat' first
    | intro _
    | with_reducible first | assumption | apply hrs | apply State.put_steady | apply State.emit_steady
    | with_reducible first | apply State.modWav_steady | apply partialPending_steady
    | split | dsimp only
    | with_reducible apply Steady.upd

theorem cancelDecided_steady {u : State} {n : Fin 16} {s : State} (hst : Steady u s) :
    Steady u (cancelDecided n s) := by
  unfold cancelDecided
  repeat' first
    | intro _
    | with_reducible first | assumption | apply State.put_steady | apply State.modWork_steady
    | with_reducible first | apply State.modFt_steady | apply restartScreen_steady
    | split | dsimp only
    | with_reducible apply Steady.upd

theorem dropHpen_steady {u : State} {n : Fin 16} {s : State} (hst : Steady u s) :
    Steady u (dropHpen n s) := by
  unfold dropHpen
  repeat' first
    | intro _
    | with_reducible first | assumption | apply State.put_steady | apply State.modBrg_steady
    | split | dsimp only
    | with_reducible apply Steady.upd

theorem noteHalted_steady {u : State} {n : Fin 16} {s0 : State} (hst : Steady u s0) :
    Steady u (noteHalted n s0) := by
  unfold noteHalted
  repeat' first
    | intro _
    | with_reducible first | assumption | apply State.put_steady | apply dropHpen_steady
    | split | dsimp only
    | with_reducible apply Steady.upd

theorem inhibitWith_steady {u : State} {rs : Nat → State → State} {c : Nat} {n : Fin 16} {s : State} (hst : Steady u s) (hrs : ∀ (x0 : Nat) (x1 : State), Steady u x1 → Steady u (rs x0 x1)) :
    Steady u (inhibitWith rs c n s) := by
  unfold inhibitWith
  repeat' first
    | intro _
    | with_reducible first | assumption | apply hrs | apply cancelDecided_steady | apply cutWindow_steady
    | with_reducible first | apply holdWith_steady | apply noteHalted_steady
    | split | dsimp only
    | with_reducible apply Steady.upd

theorem clearMarks_steady {u : State} {s : State} (hst : Steady u s) :
    Steady u (clearMarks s) := by
  unfold clearMarks
  repeat' first
    | intro _
    | with_reducible first | assumption | apply State.modJnl_steady | apply State.eachCh_steady
    | split | dsimp only
    | with_reducible apply Steady.upd

theorem startFlush_steady {u : State} {warn : Bool} {s : State} (hst : Steady u s) :
    Steady u (startFlush warn s) := by
  unfold startFlush
  repeat' first
    | intro _
    | with_reducible first | assumption | apply State.put_steady | apply State.eachCh_steady | apply clearMarks_steady
    | split | dsimp only
    | with_reducible apply Steady.upd

theorem State.modAxis_steady {u : State} {s : State} {a : Fin 4} {f : Axis → Axis} (hst : Steady u s) :
    Steady u (State.modAxis s a f) := by
  unfold State.modAxis
  repeat' first
    | intro _
    | with_reducible assumption
    | split | dsimp only
    | with_reducible apply Steady.upd

theorem setTgt_steady {u : State} {a : Fin 4} {v : Int} {s : State} (hst : Steady u s) :
    Steady u (setTgt a v s) := by
  unfold setTgt
  repeat' first
    | intro _
    | with_reducible first | assumption | apply State.put_steady
    | split | dsimp only

theorem stopAxis_steady {u : State} {a : Fin 4} {s : State} (hst : Steady u s) :
    Steady u (stopAxis a s) := by
  unfold stopAxis
  repeat' first
    | intro _
    | with_reducible first | assumption | apply State.put_steady | apply State.modAxis_steady | apply setTgt_steady
    | split | dsimp only
    | with_reducible apply Steady.upd

theorem heaterOff_steady {u : State} {n : Fin 16} {s : State} (hst : Steady u s) :
    Steady u (heaterOff n s) := by
  unfold heaterOff
  repeat' first
    | intro _
    | with_reducible first | assumption | apply State.put_steady
    | split | dsimp only
    | with_reducible apply Steady.upd

theorem safeWith_steady {u : State} {rs : Nat → State → State} {cause : Fld} {s : State} (hst : Steady u s) (hrs : ∀ (x0 : Nat) (x1 : State), Steady u x1 → Steady u (rs x0 x1)) :
    Steady u (safeWith rs cause s) := by
  unfold safeWith
  repeat' first
    | intro _
    | with_reducible first | assumption | apply hrs | apply State.eachCh_steady | apply State.put_steady
    | with_reducible first | apply inhibitWith_steady | apply startFlush_steady | apply stopAxis_steady
    | with_reducible first | apply heaterOff_steady | apply Steady.foldl
    | split | dsimp only

theorem logRaise_steady {u : State} {e : Nat} {sev : Nat} {s : State} (hst : Steady u s) :
    Steady u (logRaise e sev s) := by
  unfold logRaise
  repeat' first
    | intro _
    | with_reducible first | assumption | apply State.setPair_steady | apply State.setWord_steady
    | with_reducible first | apply State.wrapAdd_steady
    | split | dsimp only

theorem latchLine_steady {u : State} {e : Nat} {sev : Nat} {s : State} (hst : Steady u s) :
    Steady u (latchLine e sev s) := by
  unfold latchLine
  repeat' first
    | intro _
    | with_reducible first | assumption | apply State.put_steady | apply State.setPair_steady
    | split | dsimp only
    | with_reducible apply Steady.upd

theorem reactTo_steady {u : State} {rs : Nat → State → State} {e : Nat} {sev : Nat} {s : State} (hst : Steady u s) (hrs : ∀ (x0 : Nat) (x1 : State), Steady u x1 → Steady u (rs x0 x1)) :
    Steady u (reactTo rs e sev s) := by
  unfold reactTo
  repeat' first
    | intro _
    | with_reducible first | assumption | apply hrs | apply holdWith_steady | apply inhibitWith_steady
    | with_reducible first | apply safeWith_steady
    | split | dsimp only
    | with_reducible apply Steady.upd

theorem noteHalt_steady {u : State} {e : Nat} {s : State} (hst : Steady u s) :
    Steady u (noteHalt e s) := by
  unfold noteHalt
  repeat' first
    | intro _
    | with_reducible assumption
    | split | dsimp only
    | with_reducible apply Steady.upd

theorem collect_steady {u : State} {rs : Nat → State → State} {e : Nat} {s : State} (hst : Steady u s) (hrs : ∀ (x0 : Nat) (x1 : State), Steady u x1 → Steady u (rs x0 x1)) :
    Steady u (collect rs e s) := by
  unfold collect
  repeat' first
    | intro _
    | with_reducible first | assumption | apply hrs | apply logRaise_steady | apply latchLine_steady
    | with_reducible first | apply reactTo_steady | apply noteHalt_steady
    | split | dsimp only

theorem raiseN_steady {u : State} {k e : Nat} {s : State} (hst : Steady u s) : Steady u (raiseN k e s) := by
  induction k generalizing e s with
  | zero => exact collect_steady (State.evtRaise_steady hst) fun _ _ g => g
  | succ k ih => exact collect_steady (State.evtRaise_steady hst) fun _ _ g => ih g

theorem State.raise_steady {u : State} {s : State} {e : Nat} (hst : Steady u s) :
    Steady u (State.raise s e) := by
  unfold State.raise
  repeat' first
    | intro _
    | with_reducible first | assumption | apply raiseN_steady
    | split | dsimp only

theorem State.raiseCh_steady {u : State} {s : State} {n : Fin 16} {k : Nat} (hst : Steady u s) :
    Steady u (State.raiseCh s n k) := by
  unfold State.raiseCh
  repeat' first
    | intro _
    | with_reducible first | assumption | apply State.raise_steady
    | split | dsimp only

theorem State.raiseLimited_steady {u : State} {s : State} {e : Nat} {period : Nat} (hst : Steady u s) :
    Steady u (State.raiseLimited s e period) := by
  unfold State.raiseLimited
  repeat' first
    | intro _
    | with_reducible first | assumption | apply State.raise_steady
    | split | dsimp only
    | with_reducible apply Steady.upd

theorem State.hold_steady {u : State} {s : State} {n : Fin 16} {c : Nat} (hst : Steady u s) :
    Steady u (State.hold s n c) := by
  unfold State.hold
  repeat' first
    | intro _
    | with_reducible first | assumption | apply holdWith_steady | apply raiseN_steady
    | split | dsimp only

theorem State.inhibit_steady {u : State} {s : State} {n : Fin 16} (hst : Steady u s) :
    Steady u (State.inhibit s n) := by
  unfold State.inhibit
  repeat' first
    | intro _
    | with_reducible first | assumption | apply inhibitWith_steady | apply raiseN_steady
    | split | dsimp only

theorem State.enterSafe_steady {u : State} {s : State} {cause : Fld} (hst : Steady u s) :
    Steady u (State.enterSafe s cause) := by
  unfold State.enterSafe
  repeat' first
    | intro _
    | with_reducible first | assumption | apply safeWith_steady | apply raiseN_steady
    | split | dsimp only

theorem State.refreshHolds_steady {u : State} {s : State} (hst : Steady u s) :
    Steady u (State.refreshHolds s) := by
  unfold State.refreshHolds
  repeat' first
    | intro _
    | with_reducible first | assumption | apply State.eachCh_steady | apply refreshHoldWith_steady
    | with_reducible first | apply raiseN_steady
    | split | dsimp only

theorem axisFault_steady {u : State} {a : Fin 4} {cause : Nat} {s : State} (hst : Steady u s) :
    Steady u (axisFault a cause s) := by
  unfold axisFault
  repeat' first
    | intro _
    | with_reducible first | assumption | apply State.put_steady | apply State.modAxis_steady | apply stopAxis_steady
    | with_reducible first | apply State.raise_steady
    | split | dsimp only
    | with_reducible apply Steady.upd

/-! ## PcieCfg -/

theorem cfgStore_steady {u : State} {fn : Fin 2} {a : Nat} {v : Word} {s : State} (hst : Steady u s) :
    Steady u (cfgStore fn a v s) := by
  unfold cfgStore
  repeat' first
    | intro _
    | with_reducible first | assumption
    | split | dsimp only
    | with_reducible apply Steady.upd

theorem aerSet_steady {u : State} {fn : Fin 2} {cor : Bool} {bit : Nat} {s : State} (hst : Steady u s) :
    Steady u (aerSet fn cor bit s) := by
  unfold aerSet
  repeat' first
    | intro _
    | with_reducible first | assumption | apply cfgStore_steady
    | split | dsimp only
    | with_reducible apply Steady.upd

theorem aerLog_steady {u : State} {fn : Fin 2} {cor : Bool} {bit : Nat} {s : State} (hst : Steady u s) :
    Steady u (aerLog fn cor bit s) := by
  unfold aerLog
  repeat' first
    | intro _
    | with_reducible first | assumption | apply State.raise_steady | apply aerSet_steady
    | split | dsimp only
    | with_reducible apply Steady.upd

/-! ## WorkOps -/

theorem fixDelays_steady {u : State} {n : Fin 16} {pg : Nat} {back : Bool} {s : State} (hst : Steady u s) :
    Steady u (fixDelays n pg back s) := by
  unfold fixDelays
  repeat' first
    | intro _
    | with_reducible first | assumption | apply State.modFt_steady
    | split | dsimp only
    | with_reducible apply Steady.upd

theorem toSkipKind_steady {u : State} {n : Fin 16} {s : State} (hst : Steady u s) :
    Steady u (toSkipKind n s) := by
  unfold toSkipKind
  repeat' first
    | intro _
    | with_reducible first | assumption | apply setKind_steady
    | split | dsimp only
    | with_reducible apply Steady.upd

theorem setBands_steady {u : State} {n : Fin 16} {f : List Band → List Band} {s : State} (hst : Steady u s) :
    Steady u (setBands n f s) := by
  unfold setBands
  repeat' first
    | intro _
    | with_reducible first | assumption | apply State.modWork_steady
    | split | dsimp only
    | with_reducible apply Steady.upd

theorem postRecord_steady {u : State} {n : Fin 16} {r : DueRec} {s : State} (hst : Steady u s) :
    Steady u (postRecord n r s) := by
  unfold postRecord
  repeat' first
    | intro _
    | with_reducible first | assumption | apply State.emit_steady | apply State.modWork_steady
    | with_reducible first | apply State.put_steady
    | split | dsimp only
    | with_reducible apply Steady.upd

theorem postReposts_steady {u : State} {n : Fin 16} {k : Nat} {s : State} (hst : Steady u s) :
    Steady u (postReposts n k s) := by
  induction k generalizing s with
  | zero => exact hst
  | succ k ih =>
    unfold postReposts
    split
    · split
      · dsimp only
        apply ih
        split
        · exact State.raiseCh_steady (postRecord_steady (State.modWork_steady hst))
        · exact postRecord_steady (State.modWork_steady hst)
      · split
        · exact State.raiseCh_steady hst
        · exact hst
    · exact hst

theorem queueDue_steady {u : State} {n : Fin 16} {r : DueRec} {s : State} (hst : Steady u s) :
    Steady u (queueDue n r s) := by
  unfold queueDue
  repeat' first
    | intro _
    | with_reducible first | assumption | apply State.modWork_steady | apply State.raiseCh_steady
    | split | dsimp only
    | with_reducible apply Steady.upd

theorem modRec_steady {u : State} {n : Fin 16} {seq : Nat} {f : BandRec → BandRec} {s : State} (hst : Steady u s) :
    Steady u (modRec n seq f s) := by
  unfold modRec
  repeat' first
    | intro _
    | with_reducible first | assumption | apply State.modJnl_steady
    | split | dsimp only
    | with_reducible apply Steady.upd

theorem noteFiring_steady {u : State} {n : Fin 16} {s : State} (hst : Steady u s) :
    Steady u (noteFiring n s) := by
  unfold noteFiring
  repeat' first
    | intro _
    | with_reducible first | assumption | apply State.modWork_steady
    | split | dsimp only
    | with_reducible apply Steady.upd

theorem checkDone_steady {u : State} {n : Fin 16} {s0 : State} (hst : Steady u s0) :
    Steady u (checkDone n s0) := by
  unfold checkDone
  repeat' first
    | intro _
    | with_reducible first | assumption | apply modBand_steady | apply noteFiring_steady | apply queueDue_steady
    | with_reducible first | apply Steady.foldl
    | split | dsimp only
    | with_reducible apply Steady.upd

theorem settleDone_steady {u : State} {n : Fin 16} {s : State} (hst : Steady u s) :
    Steady u (settleDone n s) := by
  unfold settleDone
  repeat' first
    | intro _
    | with_reducible first | assumption | apply checkDone_steady
    | split | dsimp only
    | with_reducible apply Steady.upd

theorem abandonBand_steady {u : State} {n : Fin 16} {b : Band} {s : State} (hst : Steady u s) :
    Steady u (abandonBand n b s) := by
  unfold abandonBand
  repeat' first
    | intro _
    | with_reducible first | assumption | apply modBand_steady | apply queueDue_steady | apply modRec_steady
    | split | dsimp only
    | with_reducible apply Steady.upd

theorem dropCause4_steady {u : State} {n : Fin 16} {s : State} (hst : Steady u s) :
    Steady u (dropCause4 n s) := by
  unfold dropCause4
  repeat' first
    | intro _
    | with_reducible first | assumption | apply State.modWork_steady
    | split | dsimp only
    | with_reducible apply Steady.upd

theorem completeFlush_steady {u : State} {s : State} (hst : Steady u s) :
    Steady u (completeFlush s) := by
  unfold completeFlush
  repeat' first
    | intro _
    | with_reducible first | assumption | apply State.put_steady | apply State.modWork_steady
    | with_reducible first | apply State.modJnl_steady | apply State.eachCh_steady
    | split | dsimp only
    | with_reducible apply Steady.upd

theorem resumeCh_steady {u : State} {n : Fin 16} {s : State} (hst : Steady u s) :
    Steady u (resumeCh n s) := by
  unfold resumeCh
  extract_lets j w src zero ck pos rb pc md part es unret bands dones lastPage reposts unc s1 s2 s3 s4 s5
  have hs1 : Steady u s1 := by
    unfold s1
    repeat' first
      | intro _
      | with_reducible first | assumption | apply State.modWork_steady | apply State.modImg_steady
      | split | dsimp only
      | with_reducible apply Steady.upd
  clear_value s1
  have hs2 : Steady u s2 := by
    unfold s2
    repeat' first
      | intro _
      | with_reducible first | assumption | apply State.put_steady
      | split | dsimp only
      | with_reducible apply Steady.upd
  clear_value s2
  have hs3 : Steady u s3 := by
    unfold s3
    repeat' first
      | intro _
      | with_reducible first | assumption | apply State.setWord_steady | apply State.put_steady
      | split | dsimp only
      | with_reducible apply Steady.upd
  clear_value s3
  have hs4 : Steady u s4 := by
    unfold s4
    repeat' first
      | intro _
      | with_reducible first | assumption | apply State.put_steady
      | split | dsimp only
      | with_reducible apply Steady.upd
  clear_value s4
  have hs5 : Steady u s5 := by
    unfold s5
    repeat' first
      | intro _
      | with_reducible first | assumption | apply State.put_steady
      | split | dsimp only
      | with_reducible apply Steady.upd
  clear_value s5
  repeat' first
    | intro _
    | with_reducible first | assumption | apply State.put_steady | apply State.raiseCh_steady
    | split | dsimp only
    | with_reducible apply Steady.upd

/-! ## FireOps -/

theorem State.modSlot_steady {u : State} {s : State} {t : Fin 16} {f : CapoSlot → CapoSlot} (hst : Steady u s) :
    Steady u (State.modSlot s t f) := by
  unfold State.modSlot
  repeat' first
    | intro _
    | with_reducible assumption
    | split | dsimp only
    | with_reducible apply Steady.upd

theorem capoCond_steady {u : State} {cond : Nat} {arg : Nat} {s : State} (hst : Steady u s) :
    Steady u (capoCond cond arg s) := by
  unfold capoCond
  repeat' first
    | intro _
    | with_reducible first | assumption | apply State.modSlot_steady | apply Steady.foldl
    | split | dsimp only
    | with_reducible apply Steady.upd

theorem State.modFe_steady {u : State} {s : State} {i : Fin 17} {e : Fin 4} {f : EncFe → EncFe} (hst : Steady u s) :
    Steady u (State.modFe s i e f) := by
  unfold State.modFe
  repeat' first
    | intro _
    | with_reducible assumption
    | split | dsimp only
    | with_reducible apply Steady.upd

theorem everyFe_steady {u : State} {e : Fin 4} {f : EncFe → EncFe} {s : State} (hst : Steady u s) :
    Steady u (everyFe e f s) := by
  unfold everyFe
  repeat' first
    | intro _
    | with_reducible first | assumption | apply State.modFe_steady | apply Steady.foldl
    | split | dsimp only
    | with_reducible apply Steady.upd

theorem State.modPair_steady {u : State} {s : State} {i : Fin 17} {f : PairSt → PairSt} (hst : Steady u s) :
    Steady u (State.modPair s i f) := by
  unfold State.modPair
  repeat' first
    | intro _
    | with_reducible assumption
    | split | dsimp only
    | with_reducible apply Steady.upd

theorem State.modEnc_steady {u : State} {s : State} {e : Fin 4} {f : EncPos → EncPos} (hst : Steady u s) :
    Steady u (State.modEnc s e f) := by
  unfold State.modEnc
  repeat' first
    | intro _
    | with_reducible assumption
    | split | dsimp only
    | with_reducible apply Steady.upd

theorem posLost_steady {u : State} {n : Fin 16} {s : State} (hst : Steady u s) :
    Steady u (posLost n s) := by
  unfold posLost
  repeat' first
    | intro _
    | with_reducible first | assumption | apply State.raiseCh_steady | apply State.hold_steady
    | split | dsimp only

theorem checkUnderrun_steady {u : State} {n : Fin 16} {s : State} (hst : Steady u s) :
    Steady u (checkUnderrun n s) := by
  unfold checkUnderrun
  repeat' first
    | intro _
    | with_reducible first | assumption | apply State.hold_steady
    | split | dsimp only

theorem noteCnt_steady {u : State} {n : Fin 16} {old : BitVec 64} {s : State} (hst : Steady u s) :
    Steady u (noteCnt n old s) := by
  unfold noteCnt
  repeat' first
    | intro _
    | with_reducible first | assumption | apply State.modFt_steady
    | split | dsimp only
    | with_reducible apply Steady.upd

theorem noteMoved_steady {u : State} {n : Fin 16} {s0 : State} {s : State} (hst : Steady u s) :
    Steady u (noteMoved n s0 s) := by
  unfold noteMoved
  repeat' first
    | intro _
    | with_reducible first | assumption | apply noteCnt_steady
    | split | dsimp only
    | with_reducible apply Steady.upd

theorem reverseAt_steady {u : State} {n : Fin 16} {q : BitVec 64} {s : State} (hst : Steady u s) :
    Steady u (reverseAt n q s) := by
  unfold reverseAt
  repeat' first
    | intro _
    | with_reducible first | assumption | apply State.put_steady | apply State.bump_steady | apply State.modFt_steady
    | with_reducible first | apply State.raiseCh_steady
    | split | dsimp only
    | with_reducible apply Steady.upd

theorem ftCount_steady {u : State} {n : Fin 16} {old : BitVec 64} {new : BitVec 64} {s : State} (hst : Steady u s) :
    Steady u (ftCount n old new s) := by
  unfold ftCount
  repeat' first
    | intro _
    | with_reducible first | assumption | apply State.modFt_steady | apply checkUnderrun_steady
    | with_reducible first | apply reverseAt_steady
    | split | dsimp only
    | with_reducible apply Steady.upd

theorem ftStep_steady {u : State} {n : Fin 16} {d : BitVec 64} {s : State} (hst : Steady u s) :
    Steady u (ftStep n d s) := by
  unfold ftStep
  repeat' first
    | intro _
    | with_reducible first | assumption | apply State.modFt_steady | apply noteCnt_steady
    | split | dsimp only
    | with_reducible apply Steady.upd

theorem armMiss_steady {u : State} {n : Fin 16} {s : State} (hst : Steady u s) :
    Steady u (armMiss n s) := by
  unfold armMiss
  repeat' first
    | intro _
    | with_reducible first | assumption | apply State.bump_steady | apply State.put_steady
    | with_reducible first | apply State.raiseCh_steady
    | split | dsimp only

theorem dropAhead_steady {u : State} {n : Fin 16} {pg : Nat} {s : State} (hst : Steady u s) :
    Steady u (dropAhead n pg s) := by
  unfold dropAhead
  repeat' first
    | intro _
    | with_reducible first | assumption | apply State.modImg_steady | apply State.modDut_steady
    | with_reducible first | apply State.modBrg_steady
    | split | dsimp only
    | with_reducible apply Steady.upd

theorem rescreen_steady {u : State} {n : Fin 16} {back : Bool} {s : State} (hst : Steady u s) :
    Steady u (rescreen n back s) := by
  unfold rescreen
  repeat' first
    | intro _
    | with_reducible first | assumption | apply State.modImg_steady | apply dropAhead_steady
    | split | dsimp only
    | with_reducible apply Steady.upd

theorem armPage_steady {u : State} {n : Fin 16} {back : Bool} {sos : Bool} {x : BitVec 80} {s : State} (hst : Steady u s) :
    Steady u (armPage n back sos x s) := by
  unfold armPage
  extract_lets s0 turn q s1 s2 s3
  have hs0 : Steady u s0 := by
    unfold s0
    repeat' first
      | intro _
      | with_reducible first | assumption | apply rescreen_steady
      | split | dsimp only
      | with_reducible apply Steady.upd
  clear_value s0
  have hs1 : Steady u s1 := by
    unfold s1
    repeat' first
      | intro _
      | with_reducible first | assumption | apply State.put_steady
      | split | dsimp only
      | with_reducible apply Steady.upd
  clear_value s1
  have hs2 : Steady u s2 := by
    unfold s2
    repeat' first
      | intro _
      | with_reducible first | assumption | apply State.modFt_steady
      | split | dsimp only
      | with_reducible apply Steady.upd
  clear_value s2
  have hs3 : Steady u s3 := by
    unfold s3
    repeat' first
      | intro _
      | with_reducible first | assumption | apply State.modWork_steady | apply fixDelays_steady
      | split | dsimp only
      | with_reducible apply Steady.upd
  clear_value s3
  repeat' first
    | intro _
    | with_reducible first | assumption | apply checkUnderrun_steady
    | split | dsimp only
    | with_reducible apply Steady.upd

theorem tryArm_steady {u : State} {n : Fin 16} {back : Bool} {sos : Bool} {x : BitVec 80} {s : State} (hst : Steady u s) :
    Steady u (tryArm n back sos x s) := by
  unfold tryArm
  repeat' first
    | intro _
    | with_reducible first | assumption | apply State.modFt_steady | apply armMiss_steady | apply armPage_steady
    | split | dsimp only
    | with_reducible apply Steady.upd

theorem rearmAt_steady {u : State} {n : Fin 16} {x : BitVec 80} {s : State} (hst : Steady u s) :
    Steady u (rearmAt n x s) := by
  unfold rearmAt
  extract_lets s1 s2 s3
  have hs1 : Steady u s1 := by
    unfold s1
    repeat' first
      | intro _
      | with_reducible first | assumption | apply State.put_steady
      | split | dsimp only
      | with_reducible apply Steady.upd
  clear_value s1
  have hs2 : Steady u s2 := by
    unfold s2
    repeat' first
      | intro _
      | with_reducible first | assumption | apply State.modFt_steady
      | split | dsimp only
      | with_reducible apply Steady.upd
  clear_value s2
  have hs3 : Steady u s3 := by
    unfold s3
    repeat' first
      | intro _
      | with_reducible first | assumption | apply State.modWork_steady | apply fixDelays_steady
      | split | dsimp only
      | with_reducible apply Steady.upd
  clear_value s3
  repeat' first
    | intro _
    | with_reducible first | assumption | apply checkUnderrun_steady
    | split | dsimp only
    | with_reducible apply Steady.upd

theorem waitMarkAt_steady {u : State} {n : Fin 16} {pg : Nat} {l : Nat} {s : State} (hst : Steady u s) :
    Steady u (waitMarkAt n pg l s) := by
  unfold waitMarkAt
  repeat' first
    | intro _
    | with_reducible first | assumption | apply State.modWork_steady | apply State.modFt_steady
    | split | dsimp only
    | with_reducible apply Steady.upd

theorem rearm_steady {u : State} {n : Fin 16} {s0 : State} (hst : Steady u s0) :
    Steady u (rearm n s0) := by
  unfold rearm
  repeat' first
    | intro _
    | with_reducible first | assumption | apply State.put_steady | apply State.modWork_steady
    | with_reducible first | apply State.modFt_steady | apply rearmAt_steady | apply setKind_steady
    | with_reducible first | apply settleDone_steady | apply waitMarkAt_steady
    | split | dsimp only
    | with_reducible apply Steady.upd

theorem rearmMark_steady {u : State} {n : Fin 16} {x : BitVec 80} {s : State} (hst : Steady u s) :
    Steady u (rearmMark n x s) := by
  unfold rearmMark
  repeat' first
    | intro _
    | with_reducible first | assumption | apply armMiss_steady | apply rearmAt_steady
    | split | dsimp only

theorem latchEvent_steady {u : State} {n : Fin 16} {sos : Bool} {mark : BitVec 48} {cap : BitVec 64} {back : Bool} {s : State} (hst : Steady u s) :
    Steady u (latchEvent n sos mark cap back s) := by
  unfold latchEvent
  repeat' first
    | intro _
    | with_reducible first | assumption | apply State.modFt_steady | apply armMiss_steady
    | split | dsimp only
    | with_reducible apply Steady.upd

theorem pageMark_steady {u : State} {f : Nat} {fwd : Bool} {p : BitVec 48} {n : Fin 16} {s : State} (hst : Steady u s) :
    Steady u (pageMark f fwd p n s) := by
  unfold pageMark
  repeat' first
    | intro _
    | with_reducible first | assumption | apply latchEvent_steady | apply rearmMark_steady | apply tryArm_steady
    | split | dsimp only
    | with_reducible apply Steady.upd

theorem sosEvent_steady {u : State} {back : Bool} {cap : BitVec 64} {n : Fin 16} {s : State} (hst : Steady u s) :
    Steady u (sosEvent back cap n s) := by
  unfold sosEvent
  repeat' first
    | intro _
    | with_reducible first | assumption | apply latchEvent_steady | apply rearmMark_steady | apply tryArm_steady
    | split | dsimp only
    | with_reducible apply Steady.upd

theorem dropLatches_steady {u : State} {n : Fin 16} {s : State} (hst : Steady u s) :
    Steady u (dropLatches n s) := by
  unfold dropLatches
  repeat' first
    | intro _
    | with_reducible first | assumption | apply State.modFt_steady
    | split | dsimp only
    | with_reducible apply Steady.upd

/-! ## Access -/

theorem State.wr_steady {u : State} {s : State} {m : Master} {a : Nat} {f : State → State} (hst : Steady u s) (hf : ∀ (x0 : State), Steady u x0 → Steady u (f x0)) :
    Steady u (State.wr s m a f) := by
  unfold State.wr
  repeat' first
    | intro _
    | with_reducible first | assumption | apply hf
    | split | dsimp only

theorem State.rd_steady {u : State} {s : State} {m : Master} {a : Nat} {w : Word} {f : State → State} (hst : Steady u s) (hf : ∀ (x0 : State), Steady u x0 → Steady u (f x0)) :
    Steady u (State.rd s m a w f) := by
  unfold State.rd
  repeat' first
    | intro _
    | with_reducible first | assumption | apply hf | apply State.emit_steady
    | split | dsimp only

/-! ## MbxOps -/

theorem State.modMb_steady {u : State} {s : State} {m : Fin 48} {f : Mbox → Mbox} (hst : Steady u s) :
    Steady u (State.modMb s m f) := by
  unfold State.modMb
  repeat' first
    | intro _
    | with_reducible assumption
    | split | dsimp only
    | with_reducible apply Steady.upd

theorem modView_steady {u : State} {m : Fin 48} {p : Port} {f : MbxView → MbxView} {s : State} (hst : Steady u s) :
    Steady u (modView m p f s) := by
  unfold modView
  repeat' first
    | intro _
    | with_reducible first | assumption | apply State.modMb_steady
    | split | dsimp only
    | with_reducible apply Steady.upd

theorem pmeOf_steady {u : State} {fn : Fin 2} {s : State} (hst : Steady u s) :
    Steady u (pmeOf fn s) := by
  unfold pmeOf
  repeat' first
    | intro _
    | with_reducible first | assumption | apply State.emit_steady | apply cfgStore_steady
    | split | dsimp only
    | with_reducible apply Steady.upd

theorem pmeFor_steady {u : State} {p : Port} {s : State} (hst : Steady u s) :
    Steady u (pmeFor p s) := by
  unfold pmeFor
  repeat' first
    | intro _
    | with_reducible first | assumption | apply pmeOf_steady
    | split | dsimp only
    | with_reducible apply Steady.upd

theorem deliver_steady {u : State} {m : Fin 48} {p : Port} {msg : List Word} {s : State} (hst : Steady u s) :
    Steady u (deliver m p msg s) := by
  unfold deliver
  repeat' first
    | intro _
    | with_reducible first | assumption | apply State.raise_steady | apply State.modMb_steady | apply pmeFor_steady
    | split | dsimp only
    | with_reducible apply Steady.upd

theorem armAck_steady {u : State} {m : Fin 48} {p : Port} {h : Word} {s : State} (hst : Steady u s) :
    Steady u (armAck m p h s) := by
  unfold armAck
  repeat' first
    | intro _
    | with_reducible first | assumption | apply modView_steady
    | split | dsimp only
    | with_reducible apply Steady.upd

theorem windowOver_steady {u : State} {m : Fin 48} {p : Port} {s : State} (hst : Steady u s) :
    Steady u (windowOver m p s) := by
  unfold windowOver
  repeat' first
    | intro _
    | with_reducible first | assumption | apply State.raise_steady | apply modView_steady
    | split | dsimp only
    | with_reducible apply Steady.upd

theorem ackReply_steady {u : State} {m : Fin 48} {h : Word} {s : State} (hst : Steady u s) :
    Steady u (ackReply m h s) := by
  unfold ackReply
  repeat' first
    | intro _
    | with_reducible first | assumption | apply modView_steady | apply windowOver_steady | apply Steady.foldl
    | split | dsimp only
    | with_reducible apply Steady.upd

theorem abortView_steady {u : State} {m : Fin 48} {p : Port} {s : State} (hst : Steady u s) :
    Steady u (abortView m p s) := by
  unfold abortView
  repeat' first
    | intro _
    | with_reducible first | assumption | apply State.raise_steady | apply modView_steady
    | split | dsimp only
    | with_reducible apply Steady.upd

theorem clearInbound_steady {u : State} {m : Fin 48} {s : State} (hst : Steady u s) :
    Steady u (clearInbound m s) := by
  unfold clearInbound
  repeat' first
    | intro _
    | with_reducible first | assumption | apply State.modMb_steady | apply abortView_steady | apply Steady.foldl
    | split | dsimp only
    | with_reducible apply Steady.upd

theorem abortWaiting_steady {u : State} {s : State} (hst : Steady u s) :
    Steady u (abortWaiting s) := by
  unfold abortWaiting
  repeat' first
    | intro _
    | with_reducible first | assumption | apply clearInbound_steady | apply Steady.foldl
    | split | dsimp only

theorem releaseLocks_steady {u : State} {p : Port} {s : State} (hst : Steady u s) :
    Steady u (releaseLocks p s) := by
  unfold releaseLocks
  repeat' first
    | intro _
    | with_reducible assumption
    | split | dsimp only
    | with_reducible apply Steady.upd

theorem dropHeld_steady {u : State} {p : Port} {s : State} (hst : Steady u s) :
    Steady u (dropHeld p s) := by
  unfold dropHeld
  repeat' first
    | intro _
    | with_reducible first | assumption | apply State.modMb_steady | apply Steady.foldl
    | split | dsimp only
    | with_reducible apply Steady.upd

theorem postReply_steady {u : State} {m : Fin 48} {p : Port} {msg : List Word} {s : State} (hst : Steady u s) :
    Steady u (postReply m p msg s) := by
  unfold postReply
  repeat' first
    | intro _
    | with_reducible first | assumption | apply State.modMb_steady | apply deliver_steady | apply ackReply_steady
    | split | dsimp only
    | with_reducible apply Steady.upd

theorem postNext_steady {u : State} {m : Fin 48} {s : State} (hst : Steady u s) :
    Steady u (postNext m s) := by
  unfold postNext
  repeat' first
    | intro _
    | with_reducible first | assumption | apply State.modMb_steady | apply postReply_steady
    | split | dsimp only
    | with_reducible apply Steady.upd

theorem releaseMsg_steady {u : State} {m : Fin 48} {s : State} (hst : Steady u s) :
    Steady u (releaseMsg m s) := by
  unfold releaseMsg
  repeat' first
    | intro _
    | with_reducible first | assumption | apply State.modMb_steady | apply postNext_steady
    | split | dsimp only
    | with_reducible apply Steady.upd

/-! ## CapoOps -/

theorem stagedView_steady {u : State} {es : List Entry} {s : State} (hst : Steady u s) :
    Steady u (stagedView es s) := by
  unfold stagedView
  repeat' first
    | intro _
    | with_reducible first | assumption | apply State.setWord_steady | apply Steady.foldl
    | split | dsimp only

theorem unbind_steady {u : State} {t : Fin 16} {s : State} (hst : Steady u s) :
    Steady u (unbind t s) := by
  unfold unbind
  repeat' first
    | intro _
    | with_reducible first | assumption | apply State.put_steady | apply Steady.foldl
    | split | dsimp only

theorem freeSlot_steady {u : State} {t : Fin 16} {s : State} (hst : Steady u s) :
    Steady u (freeSlot t s) := by
  unfold freeSlot
  repeat' first
    | intro _
    | with_reducible first | assumption | apply State.setWord_steady | apply State.modSlot_steady
    | split | dsimp only

theorem insPut_steady {u : State} {f : Fld} {v : Nat} {s : State} (hst : Steady u s) :
    Steady u (insPut f v s) := by
  unfold insPut
  repeat' first
    | intro _
    | with_reducible first | assumption | apply State.put_steady
    | split | dsimp only

theorem skipChan_steady {u : State} {n : Nat} {s : State} (hst : Steady u s) :
    Steady u (skipChan n s) := by
  unfold skipChan
  repeat' first
    | intro _
    | with_reducible first | assumption | apply insPut_steady
    | split | dsimp only

theorem closeRound_steady {u : State} {t : Fin 16} {s : State} (hst : Steady u s) :
    Steady u (closeRound t s) := by
  unfold closeRound
  repeat' first
    | intro _
    | with_reducible first | assumption | apply freeSlot_steady | apply insPut_steady
    | split | dsimp only
    | with_reducible apply Steady.upd

theorem modTest_steady {u : State} {n : Nat} {f : NozTest → Option NozTest} {s : State} (hst : Steady u s) :
    Steady u (modTest n f s) := by
  unfold modTest
  repeat' first
    | intro _
    | with_reducible first | assumption | apply State.modIso_steady
    | split | dsimp only
    | with_reducible apply Steady.upd

theorem endTest_steady {u : State} {n : Nat} {restored : Bool} {s : State} (hst : Steady u s) :
    Steady u (endTest n restored s) := by
  unfold endTest
  repeat' first
    | intro _
    | with_reducible first | assumption | apply postReply_steady | apply modTest_steady
    | split | dsimp only
    | with_reducible apply Steady.upd

theorem testAborted_steady {u : State} {n : Nat} {s : State} (hst : Steady u s) :
    Steady u (testAborted n s) := by
  unfold testAborted
  repeat' first
    | intro _
    | with_reducible first | assumption | apply modTest_steady | apply endTest_steady
    | split | dsimp only
    | with_reducible apply Steady.upd

theorem testApplied_steady {u : State} {n : Nat} {s : State} (hst : Steady u s) :
    Steady u (testApplied n s) := by
  unfold testApplied
  repeat' first
    | intro _
    | with_reducible first | assumption | apply endTest_steady | apply modTest_steady
    | split | dsimp only
    | with_reducible apply Steady.upd

theorem roundAbort_steady {u : State} {t : Fin 16} {s : State} (hst : Steady u s) :
    Steady u (roundAbort t s) := by
  unfold roundAbort
  repeat' first
    | intro _
    | with_reducible first | assumption | apply State.bump_steady | apply State.raise_steady | apply skipChan_steady
    | with_reducible first | apply closeRound_steady | apply testAborted_steady | apply Steady.foldl
    | split | dsimp only
    | with_reducible apply Steady.upd

theorem roundApplied_steady {u : State} {t : Fin 16} {s : State} (hst : Steady u s) :
    Steady u (roundApplied t s) := by
  unfold roundApplied
  repeat' first
    | intro _
    | with_reducible first | assumption | apply State.raise_steady | apply closeRound_steady
    | with_reducible first | apply testApplied_steady | apply Steady.foldl
    | split | dsimp only
    | with_reducible apply Steady.upd

theorem abortSlot_steady {u : State} {cause : Nat} {t : Fin 16} {s : State} (hst : Steady u s) :
    Steady u (abortSlot cause t s) := by
  unfold abortSlot
  extract_lets s1 s2 s3
  have hs1 : Steady u s1 := by
    unfold s1
    repeat' first
      | intro _
      | with_reducible first | assumption | apply State.put_steady | apply State.raise_steady | apply unbind_steady
      | with_reducible first | apply freeSlot_steady | apply roundAbort_steady
      | split | dsimp only
  clear_value s1
  have hs2 : Steady u s2 := by
    unfold s2
    repeat' first
      | intro _
      | with_reducible first | assumption | apply State.put_steady | apply State.raise_steady | apply unbind_steady
      | with_reducible first | apply freeSlot_steady | apply roundAbort_steady
      | split | dsimp only
  clear_value s2
  have hs3 : Steady u s3 := by
    unfold s3
    repeat' first
      | intro _
      | with_reducible first | assumption | apply State.put_steady | apply State.raise_steady | apply unbind_steady
      | with_reducible first | apply freeSlot_steady | apply roundAbort_steady
      | split | dsimp only
  clear_value s3
  repeat' first
    | intro _
    | with_reducible first | assumption | apply State.put_steady | apply State.raise_steady | apply unbind_steady
    | with_reducible first | apply freeSlot_steady | apply roundAbort_steady
    | split | dsimp only

theorem finishSlot_steady {u : State} {t : Fin 16} {s : State} (hst : Steady u s) :
    Steady u (finishSlot t s) := by
  unfold finishSlot
  repeat' first
    | intro _
    | with_reducible first | assumption | apply State.put_steady | apply State.raise_steady | apply freeSlot_steady
    | with_reducible first | apply roundApplied_steady
    | split | dsimp only

theorem applyWords_steady {u : State} {q : Nat → Bool} {t : Fin 16} {s : State} (hst : Steady u s) :
    Steady u (applyWords q t s) := by
  unfold applyWords
  repeat' first
    | intro _
    | with_reducible first | assumption | apply State.modSlot_steady | apply stagedView_steady
    | split | dsimp only
    | with_reducible apply Steady.upd

theorem noteRounds_steady {u : State} {s : State} (hst : Steady u s) :
    Steady u (noteRounds s) := by
  unfold noteRounds
  repeat' first
    | intro _
    | with_reducible first | assumption | apply insPut_steady | apply Steady.foldl
    | split | dsimp only
    | with_reducible apply Steady.upd

theorem applyIn_steady {u : State} {ts : List (Fin 16)} {q : Nat → Bool} {hook : State → State → State} {s : State} (hst : Steady u s) (hhook : ∀ (x0 : State) (x1 : State), Steady u x1 → Steady u (hook x0 x1)) :
    Steady u (applyIn ts q hook s) := by
  unfold applyIn
  repeat' first
    | intro _
    | with_reducible first | assumption | apply hhook | apply applyWords_steady | apply finishSlot_steady
    | with_reducible first | apply noteRounds_steady | apply Steady.foldl
    | split | dsimp only
    | with_reducible apply Steady.upd

theorem applyAll_steady {u : State} {q : Nat → Bool} {hook : State → State → State} {s : State} (hst : Steady u s) (hhook : ∀ (x0 : State) (x1 : State), Steady u x1 → Steady u (hook x0 x1)) :
    Steady u (applyAll q hook s) := by
  unfold applyAll
  repeat' first
    | intro _
    | with_reducible first | assumption | apply hhook | apply applyIn_steady
    | split | dsimp only
    | with_reducible apply Steady.upd

theorem loseParts_steady {u : State} {gone : Part → Bool} {s : State} (hst : Steady u s) :
    Steady u (loseParts gone s) := by
  unfold loseParts
  repeat' first
    | intro _
    | with_reducible first | assumption | apply State.put_steady | apply State.modSlot_steady | apply abortSlot_steady
    | with_reducible first | apply finishSlot_steady | apply Steady.foldl
    | split | dsimp only
    | with_reducible apply Steady.upd

theorem abortOwned_steady {u : State} {m : Master} {s : State} (hst : Steady u s) :
    Steady u (abortOwned m s) := by
  unfold abortOwned
  repeat' first
    | intro _
    | with_reducible first | assumption | apply abortSlot_steady | apply Steady.foldl
    | split | dsimp only
    | with_reducible apply Steady.upd

theorem noteReady_steady {u : State} {n : Fin 16} {s0 : State} {s : State} (hst : Steady u s) :
    Steady u (noteReady n s0 s) := by
  unfold noteReady
  repeat' first
    | intro _
    | with_reducible first | assumption | apply capoCond_steady
    | split | dsimp only

/-! ## WaveOps -/

theorem clearNozzles_steady {u : State} {n : Fin 16} {s : State} (hst : Steady u s) :
    Steady u (clearNozzles n s) := by
  unfold clearNozzles
  repeat' first
    | intro _
    | with_reducible assumption
    | split | dsimp only
    | with_reducible first | apply Steady.upd | apply Steady.updDrop

theorem endWindows_steady {u : State} {n : Fin 16} {s : State} (hst : Steady u s) :
    Steady u (endWindows n s) := by
  unfold endWindows
  repeat' first
    | intro _
    | with_reducible first | assumption | apply State.modDut_steady | apply State.put_steady
    | with_reducible first | apply clearNozzles_steady
    | split | dsimp only
    | with_reducible apply Steady.upd

theorem chargeNozzles_steady {u : State} {n : Fin 16} {w : Nat → Nat} {l : List Nat} {j : Nat} {s : State} (hst : Steady u s) :
    Steady u (chargeNozzles n w l j s) := by
  induction l generalizing j s with
  | nil => exact hst
  | cons c cs ih =>
    unfold chargeNozzles
    apply ih
    split
    · exact hst
    · exact State.setWord_steady hst

theorem countHead_steady {u : State} {n : Fin 16} {d : DutyDec} {s : State} (hst : Steady u s) :
    Steady u (countHead n d s) := by
  unfold countHead
  repeat' first
    | intro _
    | with_reducible first | assumption | apply State.bump_steady | apply State.put_steady
    | split | dsimp only

theorem countNozzles_steady {u : State} {n : Fin 16} {d : DutyDec} {s : State} (hst : Steady u s) :
    Steady u (countNozzles n d s) := by
  unfold countNozzles
  repeat' first
    | intro _
    | with_reducible first | assumption | apply State.bump_steady | apply State.put_steady
    | split | dsimp only

theorem raiseAct_steady {u : State} {n : Fin 16} {d : DutyDec} {s : State} (hst : Steady u s) :
    Steady u (raiseAct n d s) := by
  unfold raiseAct
  repeat' first
    | intro _
    | with_reducible first | assumption | apply State.modDut_steady | apply State.raiseCh_steady
    | split | dsimp only
    | with_reducible apply Steady.upd

theorem chargeDuty_steady {u : State} {n : Fin 16} {d : DutyDec} {s : State} (hst : Steady u s) :
    Steady u (chargeDuty n d s) := by
  unfold chargeDuty
  extract_lets w s1
  have hs1 : Steady u s1 := by
    unfold s1
    repeat' first
      | intro _
      | with_reducible first | assumption | apply State.bump_steady | apply State.modDut_steady
      | with_reducible first | apply endWindows_steady | apply chargeNozzles_steady | apply countHead_steady
      | with_reducible first | apply countNozzles_steady | apply raiseAct_steady
      | split | dsimp only
      | with_reducible apply Steady.upd
  clear_value s1
  repeat' first
    | intro _
    | with_reducible first | assumption | apply State.bump_steady | apply State.modDut_steady
    | with_reducible first | apply endWindows_steady | apply chargeNozzles_steady | apply countHead_steady
    | with_reducible first | apply countNozzles_steady | apply raiseAct_steady
    | split | dsimp only
    | with_reducible apply Steady.upd

theorem applyDuty_steady {u : State} {n : Fin 16} {s : State} (hst : Steady u s) :
    Steady u (applyDuty n s) := by
  unfold applyDuty
  repeat' first
    | intro _
    | with_reducible first | assumption | apply State.modDut_steady | apply State.put_steady | apply applyAll_steady
    | with_reducible first | apply clearNozzles_steady
    | split | dsimp only
    | with_reducible apply Steady.upd

theorem settleScale_steady {u : State} {n : Fin 16} {s : State} (hst : Steady u s) :
    Steady u (settleScale n s) := by
  unfold settleScale
  repeat' first
    | intro _
    | with_reducible first | assumption | apply State.put_steady
    | split | dsimp only

theorem applyWav_steady {u : State} {n : Fin 16} {s : State} (hst : Steady u s) :
    Steady u (applyWav n s) := by
  unfold applyWav
  repeat' first
    | intro _
    | with_reducible first | assumption | apply State.modWav_steady | apply applyAll_steady | apply settleScale_steady
    | split | dsimp only
    | with_reducible apply Steady.upd

/-! ## LinkOps -/

theorem sendFrame_steady {u : State} {n : Fin 16} {f : Frame} {retx : Bool} {s : State} (hst : Steady u s) :
    Steady u (sendFrame n f retx s) := by
  unfold sendFrame
  repeat' first
    | intro _
    | with_reducible first | assumption | apply State.emit_steady | apply State.modBrg_steady
    | split | dsimp only
    | with_reducible apply Steady.upd

theorem newFrame_steady {u : State} {n : Fin 16} {typ : Nat} {tab : Nat} {mbank : Nat} {payload : List Byte} {masks : List (Nat × Nat)} {soft : Option (Nat × Word)} {s : State} (hst : Steady u s) :
    Steady u (newFrame n typ tab mbank payload masks soft s) := by
  unfold newFrame
  repeat' first
    | intro _
    | with_reducible first | assumption | apply State.modBrg_steady | apply sendFrame_steady
    | split | dsimp only
    | with_reducible apply Steady.upd

theorem settleHpen_steady {u : State} {n : Fin 16} {s : State} (hst : Steady u s) :
    Steady u (settleHpen n s) := by
  unfold settleHpen
  repeat' first
    | intro _
    | with_reducible first | assumption | apply State.put_steady
    | split | dsimp only
    | with_reducible apply Steady.upd

theorem setLink_steady {u : State} {n : Fin 16} {v : Nat} {s : State} (hst : Steady u s) :
    Steady u (setLink n v s) := by
  unfold setLink
  repeat' first
    | intro _
    | with_reducible first | assumption | apply State.put_steady | apply settleHpen_steady
    | split | dsimp only

theorem dropFrames_steady {u : State} {n : Fin 16} {s : State} (hst : Steady u s) :
    Steady u (dropFrames n s) := by
  unfold dropFrames
  repeat' first
    | intro _
    | with_reducible first | assumption | apply State.put_steady | apply State.modWav_steady
    | with_reducible first | apply State.modBrg_steady
    | split | dsimp only
    | with_reducible apply Steady.upd

theorem leaveLink_steady {u : State} {n : Fin 16} {v : Nat} {c : Nat} {s : State} (hst : Steady u s) :
    Steady u (leaveLink n v c s) := by
  unfold leaveLink
  repeat' first
    | intro _
    | with_reducible first | assumption | apply State.bump_steady | apply State.modBrg_steady | apply State.put_steady
    | with_reducible first | apply State.raiseCh_steady | apply State.hold_steady | apply setLink_steady
    | with_reducible first | apply dropFrames_steady
    | split | dsimp only
    | with_reducible apply Steady.upd

theorem startIdent_steady {u : State} {n : Fin 16} {s : State} (hst : Steady u s) :
    Steady u (startIdent n s) := by
  unfold startIdent
  repeat' first
    | intro _
    | with_reducible first | assumption | apply State.modBrg_steady | apply setLink_steady
    | split | dsimp only
    | with_reducible apply Steady.upd

theorem linkOff_steady {u : State} {n : Fin 16} {c : Nat} {s : State} (hst : Steady u s) :
    Steady u (linkOff n c s) := by
  unfold linkOff
  repeat' first
    | intro _
    | with_reducible first | assumption | apply State.modBrg_steady | apply leaveLink_steady | apply startIdent_steady
    | split | dsimp only
    | with_reducible apply Steady.upd

theorem settleOff_steady {u : State} {n : Fin 16} {s : State} (hst : Steady u s) :
    Steady u (settleOff n s) := by
  unfold settleOff
  repeat' first
    | intro _
    | with_reducible first | assumption | apply linkOff_steady
    | split | dsimp only

theorem applyBrg_steady {u : State} {n : Fin 16} {s0 : State} {s : State} (hst : Steady u s) :
    Steady u (applyBrg n s0 s) := by
  unfold applyBrg
  repeat' first
    | intro _
    | with_reducible first | assumption | apply State.modBrg_steady | apply State.hold_steady
    | with_reducible first | apply State.raiseCh_steady | apply settleHpen_steady
    | split | dsimp only
    | with_reducible apply Steady.upd

theorem noteFlags_steady {u : State} {n : Fin 16} {flags : Byte} {s : State} (hst : Steady u s) :
    Steady u (noteFlags n flags s) := by
  unfold noteFlags
  repeat' first
    | intro _
    | with_reducible first | assumption | apply State.put_steady | apply State.raiseCh_steady
    | with_reducible first | apply State.hold_steady | apply State.inhibit_steady
    | split | dsimp only

theorem heard_steady {u : State} {n : Fin 16} {rd : Bool} {syms : List (BitVec 10)} {k : List Byte → State → State} {s : State} (hst : Steady u s) (hk : ∀ (x0 : List Byte) (x1 : State), Steady u x1 → Steady u (k x0 x1)) :
    Steady u (heard n rd syms k s) := by
  unfold heard
  repeat' first
    | intro _
    | with_reducible first | assumption | apply hk | apply State.modBrg_steady
    | split | dsimp only
    | with_reducible apply Steady.upd

theorem noteOther_steady {u : State} {n : Fin 16} {flags : Byte} {s : State} (hst : Steady u s) :
    Steady u (noteOther n flags s) := by
  unfold noteOther
  repeat' first
    | intro _
    | with_reducible first | assumption | apply State.modBrg_steady | apply noteFlags_steady
    | split | dsimp only
    | with_reducible apply Steady.upd

theorem retransmit_steady {u : State} {n : Fin 16} {f : Frame} {s : State} (hst : Steady u s) :
    Steady u (retransmit n f s) := by
  unfold retransmit
  repeat' first
    | intro _
    | with_reducible first | assumption | apply State.bump_steady | apply State.modBrg_steady
    | with_reducible first | apply State.raiseLimited_steady | apply sendFrame_steady | apply leaveLink_steady
    | split | dsimp only
    | with_reducible apply Steady.upd

theorem requeueCfg_steady {u : State} {n : Fin 16} {f : Frame} {s : State} (hst : Steady u s) :
    Steady u (requeueCfg n f s) := by
  unfold requeueCfg
  repeat' first
    | intro _
    | with_reducible first | assumption | apply State.modBrg_steady | apply State.modWav_steady
    | split | dsimp only
    | with_reducible apply Steady.upd

theorem frameDone_steady {u : State} {n : Fin 16} {f : Frame} {s : State} (hst : Steady u s) :
    Steady u (frameDone n f s) := by
  unfold frameDone
  repeat' first
    | intro _
    | with_reducible first | assumption | apply State.put_steady | apply State.modWav_steady
    | with_reducible first | apply State.modBrg_steady
    | split | dsimp only
    | with_reducible apply Steady.upd

/-! ## PosOps -/

theorem gearFaults_steady {u : State} {s : State} (hst : Steady u s) :
    Steady u (gearFaults s) := by
  unfold gearFaults
  repeat' first
    | intro _
    | with_reducible first | assumption | apply axisFault_steady | apply Steady.foldl
    | split | dsimp only
    | with_reducible apply Steady.upd

theorem switchPair_steady {u : State} {i : Fin 17} {toSec : Bool} {s : State} (hst : Steady u s) :
    Steady u (switchPair i toSec s) := by
  unfold switchPair
  repeat' first
    | intro _
    | with_reducible first | assumption | apply State.put_steady | apply State.modFt_steady
    | with_reducible first | apply State.modPair_steady | apply State.raise_steady
    | split | dsimp only
    | with_reducible apply Steady.upd

theorem pushGap_steady {u : State} {i : Fin 17} {s : State} (hst : Steady u s) :
    Steady u (pushGap i s) := by
  unfold pushGap
  repeat' first
    | intro _
    | with_reducible first | assumption | apply State.modPair_steady
    | split | dsimp only
    | with_reducible apply Steady.upd

theorem freezeOfs_steady {u : State} {i : Fin 17} {s0 : State} {s : State} (hst : Steady u s) :
    Steady u (freezeOfs i s0 s) := by
  unfold freezeOfs
  repeat' first
    | intro _
    | with_reducible first | assumption | apply State.modPair_steady | apply pushGap_steady
    | split | dsimp only
    | with_reducible apply Steady.upd

theorem cleanRun_steady {u : State} {i : Fin 17} {s0 : State} {s : State} (hst : Steady u s) :
    Steady u (cleanRun i s0 s) := by
  unfold cleanRun
  repeat' first
    | intro _
    | with_reducible first | assumption | apply State.modPair_steady
    | split | dsimp only
    | with_reducible apply Steady.upd

theorem chooseSource_steady {u : State} {i : Fin 17} {s0 : State} {s : State} (hst : Steady u s) :
    Steady u (chooseSource i s0 s) := by
  unfold chooseSource
  repeat' first
    | intro _
    | with_reducible first | assumption | apply switchPair_steady
    | split | dsimp only
    | with_reducible apply Steady.upd

theorem checkDiv_steady {u : State} {s : State} (hst : Steady u s) :
    Steady u (checkDiv s) := by
  unfold checkDiv
  repeat' first
    | intro _
    | with_reducible first | assumption | apply State.put_steady | apply State.raise_steady
    | split | dsimp only
    | with_reducible apply Steady.upd

theorem pairFollow_steady {u : State} {i : Fin 17} {s0 : State} {s : State} (hst : Steady u s) :
    Steady u (pairFollow i s0 s) := by
  unfold pairFollow
  repeat' first
    | intro _
    | with_reducible first | assumption | apply checkDiv_steady | apply chooseSource_steady | apply cleanRun_steady
    | with_reducible first | apply freezeOfs_steady
    | split | dsimp only
    | with_reducible apply Steady.upd

theorem lineFollow_steady {u : State} {n : Fin 16} {s0 : State} {s : State} (hst : Steady u s) :
    Steady u (lineFollow n s0 s) := by
  unfold lineFollow
  repeat' first
    | intro _
    | with_reducible first | assumption | apply State.modFt_steady | apply checkUnderrun_steady | apply ftCount_steady
    | with_reducible first | apply noteCnt_steady | apply reverseAt_steady
    | split | dsimp only
    | with_reducible apply Steady.upd

theorem pairsFollow_steady {u : State} {e : Fin 4} {s0 : State} {s : State} (hst : Steady u s) :
    Steady u (pairsFollow e s0 s) := by
  unfold pairsFollow
  repeat' first
    | intro _
    | with_reducible first | assumption | apply pairFollow_steady | apply Steady.foldl
    | split | dsimp only
    | with_reducible apply Steady.upd

theorem declareFaulty_steady {u : State} {e : Fin 4} {s : State} (hst : Steady u s) :
    Steady u (declareFaulty e s) := by
  unfold declareFaulty
  repeat' first
    | intro _
    | with_reducible first | assumption | apply State.put_steady | apply State.eachCh_steady
    | with_reducible first | apply State.raise_steady | apply everyFe_steady | apply gearFaults_steady
    | with_reducible first | apply lineFollow_steady | apply pairsFollow_steady | apply posLost_steady
    | split | dsimp only
    | with_reducible apply Steady.upd

theorem fretMatch_steady {u : State} {f : Nat} {fwd : Bool} {s : State} (hst : Steady u s) :
    Steady u (fretMatch f fwd s) := by
  unfold fretMatch
  repeat' first
    | intro _
    | with_reducible first | assumption | apply State.eachCh_steady | apply State.put_steady
    | with_reducible first | apply State.raise_steady | apply capoCond_steady | apply pageMark_steady
    | split | dsimp only

theorem fretsFollow_steady {u : State} {moves : Nat → Bool} {s0 : State} {s : State} (hst : Steady u s) :
    Steady u (fretsFollow moves s0 s) := by
  unfold fretsFollow
  repeat' first
    | intro _
    | with_reducible first | assumption | apply fretMatch_steady | apply Steady.foldl
    | split | dsimp only
    | with_reducible apply Steady.upd

theorem State.modEmu_steady {u : State} {s : State} {m : Fin 4} {f : Emu → Emu} (hst : Steady u s) :
    Steady u (State.modEmu s m f) := by
  unfold State.modEmu
  repeat' first
    | intro _
    | with_reducible assumption
    | split | dsimp only
    | with_reducible apply Steady.upd

theorem emuCount_steady {u : State} {d : Int} {m : Fin 4} {s : State} (hst : Steady u s) :
    Steady u (emuCount d m s) := by
  unfold emuCount
  repeat' first
    | intro _
    | with_reducible first | assumption | apply State.put_steady | apply State.raise_steady
    | with_reducible first | apply State.modEmu_steady
    | split | dsimp only
    | with_reducible apply Steady.upd

theorem emuFollow_steady {u : State} {s0 : State} {s1 : State} {s : State} (hst : Steady u s) :
    Steady u (emuFollow s0 s1 s) := by
  unfold emuFollow
  repeat' first
    | intro _
    | with_reducible first | assumption | apply emuCount_steady | apply Steady.foldl
    | split | dsimp only
    | with_reducible apply Steady.upd

theorem setIdxCap_steady {u : State} {e : Fin 4} {c : BitVec 48} {s : State} (hst : Steady u s) :
    Steady u (setIdxCap e c s) := by
  unfold setIdxCap
  repeat' first
    | intro _
    | with_reducible first | assumption | apply State.put_steady
    | split | dsimp only

theorem rezero_steady {u : State} {e : Fin 4} {step : Int} {s : State} (hst : Steady u s) :
    Steady u (rezero e step s) := by
  unfold rezero
  repeat' first
    | intro _
    | with_reducible first | assumption | apply State.eachCh_steady | apply State.modFe_steady
    | with_reducible first | apply State.modPair_steady | apply ftStep_steady | apply pushGap_steady
    | with_reducible first | apply Steady.foldl
    | split | dsimp only
    | with_reducible apply Steady.upd

theorem idxMismatch_steady {u : State} {e : Fin 4} {s : State} (hst : Steady u s) :
    Steady u (idxMismatch e s) := by
  unfold idxMismatch
  repeat' first
    | intro _
    | with_reducible first | assumption | apply State.put_steady | apply State.raise_steady
    | with_reducible first | apply State.modEnc_steady | apply declareFaulty_steady
    | split | dsimp only
    | with_reducible apply Steady.upd

theorem indexEvent_steady {u : State} {e : Fin 4} {s : State} (hst : Steady u s) :
    Steady u (indexEvent e s) := by
  unfold indexEvent
  repeat' first
    | intro _
    | with_reducible first | assumption | apply State.modEnc_steady | apply State.modEmu_steady
    | with_reducible first | apply setIdxCap_steady | apply rezero_steady | apply idxMismatch_steady
    | with_reducible first | apply Steady.foldl
    | split | dsimp only
    | with_reducible apply Steady.upd

theorem missingIndex_steady {u : State} {e : Fin 4} {s : State} (hst : Steady u s) :
    Steady u (missingIndex e s) := by
  unfold missingIndex
  repeat' first
    | intro _
    | with_reducible first | assumption | apply State.modEnc_steady | apply idxMismatch_steady
    | split | dsimp only
    | with_reducible apply Steady.upd

theorem faultWindow_steady {u : State} {e : Fin 4} {s : State} (hst : Steady u s) :
    Steady u (faultWindow e s) := by
  unfold faultWindow
  repeat' first
    | intro _
    | with_reducible first | assumption | apply State.put_steady | apply State.modEnc_steady | apply everyFe_steady
    | split | dsimp only
    | with_reducible apply Steady.upd

theorem speedWindow_steady {u : State} {e : Fin 4} {s : State} (hst : Steady u s) :
    Steady u (speedWindow e s) := by
  unfold speedWindow
  repeat' first
    | intro _
    | with_reducible first | assumption | apply State.put_steady | apply State.takeFree_steady
    | with_reducible first | apply State.modEnc_steady
    | split | dsimp only
    | with_reducible apply Steady.upd

theorem posTally_steady {u : State} {e : Fin 4} {s0 : State} {s : State} (hst : Steady u s) :
    Steady u (posTally e s0 s) := by
  unfold posTally
  repeat' first
    | intro _
    | with_reducible first | assumption | apply State.put_steady | apply State.modEnc_steady
    | with_reducible first | apply speedWindow_steady
    | split | dsimp only
    | with_reducible apply Steady.upd

theorem feFaults_steady {u : State} {i : Fin 17} {e : Fin 4} {ill : Nat} {rej : Nat} {s0 : State} (hst : Steady u s0) :
    Steady u (feFaults i e ill rej s0) := by
  unfold feFaults
  repeat' first
    | intro _
    | with_reducible first | assumption | apply State.put_steady | apply State.bump_steady | apply State.modFe_steady
    | with_reducible first | apply faultWindow_steady
    | split | dsimp only
    | with_reducible apply Steady.upd

theorem pairSample_steady {u : State} {i : Fin 17} {e : Fin 4} {s0 : State} {s : State} (hst : Steady u s) :
    Steady u (pairSample i e s0 s) := by
  unfold pairSample
  repeat' first
    | intro _
    | with_reducible first | assumption | apply pairFollow_steady
    | split | dsimp only
    | with_reducible apply Steady.upd

theorem feDeclare_steady {u : State} {i : Fin 17} {e : Fin 4} {s0 : State} {s : State} (hst : Steady u s) :
    Steady u (feDeclare i e s0 s) := by
  unfold feDeclare
  repeat' first
    | intro _
    | with_reducible first | assumption | apply State.modFe_steady | apply declareFaulty_steady
    | with_reducible first | apply pairSample_steady
    | split | dsimp only
    | with_reducible apply Steady.upd

theorem feTake_steady {u : State} {i : Fin 17} {e : Fin 4} {a : EncSig} {b : EncSig} {z : EncSig} {rej : Nat} {s0 : State} (hst : Steady u s0) :
    Steady u (feTake i e a b z rej s0) := by
  unfold feTake
  repeat' first
    | intro _
    | with_reducible first | assumption | apply State.modFe_steady | apply feDeclare_steady | apply feFaults_steady
    | with_reducible first | apply lineFollow_steady | apply pairSample_steady | apply posLost_steady
    | split | dsimp only
    | with_reducible apply Steady.upd

theorem subFollow_steady {u : State} {e : Fin 4} {s0 : State} {s : State} (hst : Steady u s) :
    Steady u (subFollow e s0 s) := by
  unfold subFollow
  repeat' first
    | intro _
    | with_reducible first | assumption | apply pairSample_steady
    | split | dsimp only
    | with_reducible apply Steady.upd

theorem posFollow_steady {u : State} {e : Fin 4} {s0 : State} {s : State} (hst : Steady u s) :
    Steady u (posFollow e s0 s) := by
  unfold posFollow
  extract_lets s1 s2 s3 s4
  have hs1 : Steady u s1 := by
    unfold s1
    repeat' first
      | intro _
      | with_reducible first | assumption | apply subFollow_steady
      | split | dsimp only
      | with_reducible apply Steady.upd
  clear_value s1
  have hs2 : Steady u s2 := by
    unfold s2
    repeat' first
      | intro _
      | with_reducible first | assumption | apply posTally_steady
      | split | dsimp only
      | with_reducible apply Steady.upd
  clear_value s2
  have hs3 : Steady u s3 := by
    unfold s3
    repeat' first
      | intro _
      | with_reducible first | assumption | apply indexEvent_steady
      | split | dsimp only
      | with_reducible apply Steady.upd
  clear_value s3
  have hs4 : Steady u s4 := by
    unfold s4
    repeat' first
      | intro _
      | with_reducible first | assumption | apply missingIndex_steady
      | split | dsimp only
      | with_reducible apply Steady.upd
  clear_value s4
  repeat' first
    | intro _
    | with_reducible first | assumption | apply emuFollow_steady | apply fretsFollow_steady
    | split | dsimp only
    | with_reducible apply Steady.upd

theorem feSample_steady {u : State} {i : Fin 17} {e : Fin 4} {a : Bool} {b : Bool} {z : Bool} {s : State} (hst : Steady u s) :
    Steady u (feSample i e a b z s) := by
  unfold feSample
  extract_lets f filt ga gb gz
  repeat' first
    | intro _
    | with_reducible first | assumption | apply feTake_steady
    | split | dsimp only

theorem loadTracker_steady {u : State} {n : Fin 16} {e : Fin 4} {s : State} (hst : Steady u s) :
    Steady u (loadTracker n e s) := by
  unfold loadTracker
  repeat' first
    | intro _
    | with_reducible first | assumption | apply State.modFe_steady | apply State.modPair_steady
    | split | dsimp only
    | with_reducible apply Steady.upd

theorem newPosCnt_steady {u : State} {e : Fin 4} {s : State} (hst : Steady u s) :
    Steady u (newPosCnt e s) := by
  unfold newPosCnt
  repeat' first
    | intro _
    | with_reducible first | assumption | apply pushGap_steady
    | split | dsimp only
    | with_reducible apply Steady.upd

theorem dropTracker_steady {u : State} {n : Fin 16} {e : Fin 4} {s : State} (hst : Steady u s) :
    Steady u (dropTracker n e s) := by
  unfold dropTracker
  repeat' first
    | intro _
    | with_reducible first | assumption | apply State.put_steady | apply State.modEnc_steady
    | with_reducible first | apply State.modFe_steady | apply newPosCnt_steady
    | split | dsimp only
    | with_reducible apply Steady.upd

theorem syncTrackers_steady {u : State} {n : Fin 16} {s : State} (hst : Steady u s) :
    Steady u (syncTrackers n s) := by
  unfold syncTrackers
  repeat' first
    | intro _
    | with_reducible first | assumption | apply dropTracker_steady | apply loadTracker_steady | apply Steady.foldl
    | split | dsimp only
    | with_reducible apply Steady.upd

theorem withFrets_steady {u : State} {f : State → State} {s : State} (hst : Steady u s) (hf : ∀ (x0 : State), Steady u x0 → Steady u (f x0)) :
    Steady u (withFrets f s) := by
  unfold withFrets
  repeat' first
    | intro _
    | with_reducible first | assumption | apply hf | apply fretsFollow_steady
    | split | dsimp only
    | with_reducible apply Steady.upd

end Sys2Proof.Machine
end

