-- ==== Sys2Proof/Laws/SteadyPath.lean ====
section
/-! SUPPORT. Steady steps: the commands of the work path, the image path, the waveforms, the encoders, the fire timing and the head links. One lemma for each operation and each meaning. -/

namespace Sys2Proof.Machine

set_option linter.unusedTactic false
set_option linter.unreachableTactic false

/-! ## Work -/

theorem advanceCidx_steady {u : State} {n : Fin 16} {s : State} (hst : Steady u s) :
    Steady u (advanceCidx n s) := by
  unfold advanceCidx
  repeat' first
    | intro _
    | with_reducible first | assumption | apply State.put_steady
    | split | dsimp only

theorem execPidxWrite_steady (m : Master) (n : Fin 16) (v : Word) (s : State) :
    OSteady s (execPidxWrite m n v s) := by
  unfold execPidxWrite
  repeat' first
    | intro _
    | with_reducible first | exact Steady.refl _ | apply OSteady.next | apply OSteady.nextIf | assumption
    | with_reducible first | apply State.put_steady | apply State.wr_steady
    | split | dsimp only

theorem execDescriptorFetch_steady (n : Fin 16) (bs : List Byte) (s : State) :
    OSteady s (execDescriptorFetch n bs s) := by
  unfold execDescriptorFetch
  repeat' first
    | intro _
    | with_reducible first | exact Steady.refl _ | apply OSteady.next | apply OSteady.nextIf | assumption
    | with_reducible first | apply State.modWork_steady
    | split | dsimp only
    | with_reducible apply Steady.upd

theorem execDescriptorCheck_steady (n : Fin 16) (s : State) :
    OSteady s (execDescriptorCheck n s) := by
  unfold execDescriptorCheck
  repeat' first
    | intro _
    | with_reducible first | exact Steady.refl _ | apply OSteady.next | apply OSteady.nextIf | assumption
    | with_reducible first | apply State.modWork_steady | apply queueDue_steady | apply advanceCidx_steady
    | split | dsimp only
    | with_reducible apply Steady.upd

theorem execRejectionRecordWrite_steady (n : Fin 16) (s : State) :
    OSteady s (execRejectionRecordWrite n s) := by
  unfold execRejectionRecordWrite
  repeat' first
    | intro _
    | with_reducible first | exact Steady.refl _ | apply OSteady.next | apply OSteady.nextIf | assumption
    | with_reducible first | apply State.modWork_steady | apply State.raiseCh_steady | apply postRecord_steady
    | split | dsimp only
    | with_reducible apply Steady.upd

theorem acceptBand_steady {u : State} {n : Fin 16} {d : Desc} {s : State} (hst : Steady u s) :
    Steady u (acceptBand n d s) := by
  unfold acceptBand
  repeat' first
    | intro _
    | with_reducible first | assumption | apply State.modJnl_steady | apply State.modWork_steady
    | with_reducible first | apply dropLatches_steady | apply advanceCidx_steady
    | split | dsimp only
    | with_reducible apply Steady.upd

theorem execBandAccept_steady (n : Fin 16) (s : State) :
    OSteady s (execBandAccept n s) := by
  unfold execBandAccept
  repeat' first
    | intro _
    | with_reducible first | exact Steady.refl _ | apply OSteady.next | apply OSteady.nextIf | assumption
    | with_reducible first | apply acceptBand_steady | apply noteReady_steady
    | split | dsimp only
    | with_reducible apply Steady.upd

theorem execJnlWrfail_steady (n : Fin 16) (s : State) :
    OSteady s (execJnlWrfail n s) := by
  unfold execJnlWrfail
  repeat' first
    | intro _
    | with_reducible first | exact Steady.refl _ | apply OSteady.next | apply OSteady.nextIf | assumption
    | with_reducible first | apply State.modWork_steady | apply State.raise_steady
    | split | dsimp only
    | with_reducible apply Steady.upd

theorem execAcceptRetry_steady (n : Fin 16) (s : State) :
    OSteady s (execAcceptRetry n s) := by
  unfold execAcceptRetry
  repeat' first
    | intro _
    | with_reducible first | exact Steady.refl _ | apply OSteady.next | apply OSteady.nextIf | assumption
    | with_reducible first | apply State.modWork_steady
    | split | dsimp only
    | with_reducible apply Steady.upd

theorem execScrerr_steady (n : Fin 16) (err : ReadErr) (s : State) :
    OSteady s (execScrerr n err s) := by
  unfold execScrerr
  repeat' first
    | intro _
    | with_reducible first | exact Steady.refl _ | apply OSteady.next | apply OSteady.nextIf | assumption
    | with_reducible first | apply State.modWork_steady | apply State.hold_steady | apply State.raiseCh_steady
    | with_reducible first | apply aerLog_steady
    | split | dsimp only
    | with_reducible apply Steady.upd

theorem execBandLoadStart_steady (n : Fin 16) (s : State) :
    OSteady s (execBandLoadStart n s) := by
  unfold execBandLoadStart
  repeat' first
    | intro _
    | with_reducible first | exact Steady.refl _ | apply OSteady.next | apply OSteady.nextIf | assumption
    | with_reducible first | apply modBand_steady
    | split | dsimp only
    | with_reducible apply Steady.upd

theorem execImageDmaError_steady (n : Fin 16) (err : ReadErr) (got : List (List Byte)) (s : State) :
    OSteady s (execImageDmaError n err got s) := by
  unfold execImageDmaError
  repeat' first
    | intro _
    | with_reducible first | exact Steady.refl _ | apply OSteady.next | apply OSteady.nextIf | assumption
    | with_reducible first | apply State.hold_steady | apply aerLog_steady | apply modBand_steady
    | split | dsimp only
    | with_reducible apply Steady.upd

theorem execImageDmaRetry_steady (n : Fin 16) (s : State) :
    OSteady s (execImageDmaRetry n s) := by
  unfold execImageDmaRetry
  repeat' first
    | intro _
    | with_reducible first | exact Steady.refl _ | apply OSteady.next | apply OSteady.nextIf | assumption
    | with_reducible first | apply modBand_steady
    | split | dsimp only
    | with_reducible apply Steady.upd

theorem execBandLoadComplete_steady (n : Fin 16) (got : List (List Byte)) (s : State) :
    OSteady s (execBandLoadComplete n got s) := by
  unfold execBandLoadComplete
  repeat' first
    | intro _
    | with_reducible first | exact Steady.refl _ | apply OSteady.next | apply OSteady.nextIf | assumption
    | with_reducible first | apply dropCause4_steady | apply modBand_steady | apply raiseN_steady
    | with_reducible first | apply refreshHoldWith_steady
    | split | dsimp only
    | with_reducible apply Steady.upd

theorem execBandRelease_steady (n : Fin 16) (s : State) :
    OSteady s (execBandRelease n s) := by
  unfold execBandRelease
  repeat' first
    | intro _
    | with_reducible first | exact Steady.refl _ | apply OSteady.next | apply OSteady.nextIf | assumption
    | with_reducible first | apply modBand_steady | apply settleDone_steady
    | split | dsimp only
    | with_reducible apply Steady.upd

theorem retireBand_steady {u : State} {n : Fin 16} {r : DueRec} {rest : List DueRec} {s : State} (hst : Steady u s) :
    Steady u (retireBand n r rest s) := by
  unfold retireBand
  repeat' first
    | intro _
    | with_reducible first | assumption | apply State.modWork_steady | apply State.raiseCh_steady
    | with_reducible first | apply postRecord_steady | apply modRec_steady
    | split | dsimp only
    | with_reducible apply Steady.upd

theorem execBandRetire_steady (n : Fin 16) (s : State) :
    OSteady s (execBandRetire n s) := by
  unfold execBandRetire
  repeat' first
    | intro _
    | with_reducible first | exact Steady.refl _ | apply OSteady.next | apply OSteady.nextIf | assumption
    | with_reducible first | apply State.raiseCh_steady | apply retireBand_steady
    | split | dsimp only
    | with_reducible apply Steady.upd

theorem headWrite_steady {u : State} {n : Fin 16} {v : Word} {s : State} (hst : Steady u s) :
    Steady u (headWrite n v s) := by
  unfold headWrite
  extract_lets sz old s1 k
  have hs1 : Steady u s1 := by
    unfold s1
    repeat' first
      | intro _
      | with_reducible first | assumption | apply State.modWork_steady | apply State.put_steady
      | with_reducible first | apply postReposts_steady
      | split | dsimp only
  clear_value s1
  repeat' first
    | intro _
    | with_reducible first | assumption | apply State.modWork_steady | apply State.put_steady
    | with_reducible first | apply postReposts_steady
    | split | dsimp only

theorem execCmpHeadWrite_steady (m : Master) (n : Fin 16) (v : Word) (s : State) :
    OSteady s (execCmpHeadWrite m n v s) := by
  unfold execCmpHeadWrite
  repeat' first
    | intro _
    | with_reducible first | exact Steady.refl _ | apply OSteady.next | apply OSteady.nextIf | assumption
    | with_reducible first | apply State.wr_steady | apply headWrite_steady
    | split | dsimp only

theorem execCheckpoint_steady (n : Fin 16) (s : State) :
    OSteady s (execCheckpoint n s) := by
  unfold execCheckpoint
  repeat' first
    | intro _
    | with_reducible first | exact Steady.refl _ | apply OSteady.next | apply OSteady.nextIf | assumption
    | with_reducible first | apply State.modWork_steady | apply State.modJnl_steady
    | split | dsimp only
    | with_reducible apply Steady.upd

theorem cmdRes_steady {u : State} {n : Fin 16} {v : Nat} {s : State} (hst : Steady u s) :
    Steady u (cmdRes n v s) := by
  unfold cmdRes
  repeat' first
    | intro _
    | with_reducible first | assumption | apply State.put_steady
    | split | dsimp only

theorem cmdIf_steady {u : State} {n : Fin 16} {ok : Bool} {f : State → State} {s : State} (hst : Steady u s) (hf : ∀ (x0 : State), Steady u x0 → Steady u (f x0)) :
    Steady u (cmdIf n ok f s) := by
  unfold cmdIf
  repeat' first
    | intro _
    | with_reducible first | assumption | apply hf | apply cmdRes_steady
    | split | dsimp only

theorem startTake_steady {u : State} {n : Fin 16} {sl : Nat} {cl : Nat} {s : State} (hst : Steady u s) :
    Steady u (startTake n sl cl s) := by
  unfold startTake
  extract_lets st goes base s1 s2 s3 s4 s5
  have hs1 : Steady u s1 := by
    unfold s1
    repeat' first
      | intro _
      | with_reducible first | assumption | apply State.modWork_steady
      | split | dsimp only
      | with_reducible apply Steady.upd
  clear_value s1
  have hs2 : Steady u s2 := by
    unfold s2
    repeat' first
      | intro _
      | with_reducible first | assumption | apply State.put_steady | apply cmdRes_steady
      | split | dsimp only
      | with_reducible apply Steady.upd
  clear_value s2
  have hs3 : Steady u s3 := by
    unfold s3
    repeat' first
      | intro _
      | with_reducible first | assumption | apply State.put_steady
      | split | dsimp only
      | with_reducible apply Steady.upd
  clear_value s3
  have hs4 : Steady u s4 := by
    unfold s4
    repeat' first
      | intro _
      | with_reducible first | assumption | apply State.put_steady
      | split | dsimp only
      | with_reducible apply Steady.upd
  clear_value s4
  have hs5 : Steady u s5 := by
    unfold s5
    repeat' first
      | intro _
      | with_reducible first | assumption | apply State.modFt_steady
      | split | dsimp only
      | with_reducible apply Steady.upd
  clear_value s5
  repeat' first
    | intro _
    | with_reducible first | assumption | apply State.put_steady
    | split | dsimp only
    | with_reducible apply Steady.upd

theorem runStart_steady {u : State} {n : Fin 16} {s : State} (hst : Steady u s) :
    Steady u (runStart n s) := by
  unfold runStart
  repeat' first
    | intro _
    | with_reducible first | assumption | apply State.hold_steady | apply cmdRes_steady | apply postReposts_steady
    | with_reducible first | apply rearm_steady | apply startTake_steady | apply Steady.foldl
    | split | dsimp only
    | with_reducible apply Steady.upd

theorem runStop_steady {u : State} {n : Fin 16} {s : State} (hst : Steady u s) :
    Steady u (runStop n s) := by
  unfold runStop
  repeat' first
    | intro _
    | with_reducible first | assumption | apply State.hold_steady | apply cmdIf_steady
    | split | dsimp only

theorem runResume_steady {u : State} {n : Fin 16} {s : State} (hst : Steady u s) :
    Steady u (runResume n s) := by
  unfold runResume
  repeat' first
    | intro _
    | with_reducible first | assumption | apply State.put_steady | apply State.modWork_steady | apply cmdIf_steady
    | with_reducible first | apply raiseN_steady | apply rearm_steady | apply showCause_steady
    | split | dsimp only
    | with_reducible apply Steady.upd

theorem dropCause_steady {u : State} {n : Fin 16} {c : Nat} {s : State} (hst : Steady u s) :
    Steady u (dropCause n c s) := by
  unfold dropCause
  repeat' first
    | intro _
    | with_reducible first | assumption | apply State.modWork_steady | apply refreshHoldWith_steady
    | with_reducible first | apply raiseN_steady
    | split | dsimp only
    | with_reducible apply Steady.upd

theorem refirePartial_steady {u : State} {n : Fin 16} {s : State} (hst : Steady u s) :
    Steady u (refirePartial n s) := by
  unfold refirePartial
  repeat' first
    | intro _
    | with_reducible first | assumption | apply State.put_steady | apply State.modWork_steady | apply dropCause_steady
    | with_reducible first | apply restartScreen_steady | apply setKind_steady
    | split | dsimp only
    | with_reducible apply Steady.upd

theorem runRefire_steady {u : State} {n : Fin 16} {s : State} (hst : Steady u s) :
    Steady u (runRefire n s) := by
  unfold runRefire
  repeat' first
    | intro _
    | with_reducible first | assumption | apply State.put_steady | apply cmdIf_steady | apply dropCause_steady
    | with_reducible first | apply refirePartial_steady
    | split | dsimp only

theorem skipEntry_steady {u : State} {n : Fin 16} {seq : Nat} {line : Nat} {dir : Bool} {sosk : Bool} {s : State} (hst : Steady u s) :
    Steady u (skipEntry n seq line dir sosk s) := by
  unfold skipEntry
  repeat' first
    | intro _
    | with_reducible first | assumption | apply ledAppend_steady | apply modBand_steady
    | split | dsimp only
    | with_reducible apply Steady.upd

theorem resolvePartial_steady {u : State} {n : Fin 16} {seq : Nat} {line : Nat} {s : State} (hst : Steady u s) :
    Steady u (resolvePartial n seq line s) := by
  unfold resolvePartial
  repeat' first
    | intro _
    | with_reducible first | assumption | apply State.modWork_steady
    | split | dsimp only
    | with_reducible apply Steady.upd

theorem skipPartial_steady {u : State} {n : Fin 16} {s : State} (hst : Steady u s) :
    Steady u (skipPartial n s) := by
  unfold skipPartial
  repeat' first
    | intro _
    | with_reducible first | assumption | apply State.put_steady | apply checkDone_steady | apply dropCause_steady
    | with_reducible first | apply resolvePartial_steady | apply skipEntry_steady
    | split | dsimp only
    | with_reducible apply Steady.upd

theorem skipUncertain_steady {u : State} {n : Fin 16} {k : Nat} {s : State} (hst : Steady u s) :
    Steady u (skipUncertain n k s) := by
  induction k generalizing s with
  | zero => exact hst
  | succ k ih =>
    unfold skipUncertain
    split
    · exact hst
    · dsimp only
      exact ih (State.modWork_steady (setKind_steady (skipEntry_steady hst)))

theorem skipUncertainAll_steady {u : State} {n : Fin 16} {s : State} (hst : Steady u s) :
    Steady u (skipUncertainAll n s) := by
  unfold skipUncertainAll
  repeat' first
    | intro _
    | with_reducible first | assumption | apply State.modWork_steady | apply setKind_steady
    | with_reducible first | apply skipUncertain_steady
    | split | dsimp only
    | with_reducible apply Steady.upd

theorem runSkip_steady {u : State} {n : Fin 16} {s : State} (hst : Steady u s) :
    Steady u (runSkip n s) := by
  unfold runSkip
  repeat' first
    | intro _
    | with_reducible first | assumption | apply State.put_steady | apply checkDone_steady | apply cmdIf_steady
    | with_reducible first | apply dropCause_steady | apply skipPartial_steady | apply skipUncertainAll_steady
    | split | dsimp only
    | with_reducible apply Steady.upd

theorem dropRefire_steady {u : State} {n : Fin 16} {seq : Nat} {s : State} (hst : Steady u s) :
    Steady u (dropRefire n seq s) := by
  unfold dropRefire
  repeat' first
    | intro _
    | with_reducible first | assumption | apply State.modWork_steady | apply toSkipKind_steady
    | split | dsimp only
    | with_reducible apply Steady.upd

theorem dropUncertain_steady {u : State} {n : Fin 16} {b : Band} {s : State} (hst : Steady u s) :
    Steady u (dropUncertain n b s) := by
  unfold dropUncertain
  repeat' first
    | intro _
    | with_reducible first | assumption | apply State.put_steady | apply State.modWork_steady
    | split | dsimp only
    | with_reducible apply Steady.upd

theorem runAbandon_steady {u : State} {n : Fin 16} {s : State} (hst : Steady u s) :
    Steady u (runAbandon n s) := by
  unfold runAbandon
  repeat' first
    | intro _
    | with_reducible first | assumption | apply abandonBand_steady | apply cmdRes_steady | apply dropCause4_steady
    | with_reducible first | apply dropRefire_steady | apply dropUncertain_steady | apply raiseN_steady
    | with_reducible first | apply refreshHoldWith_steady | apply restartScreen_steady
    | split | dsimp only
    | with_reducible apply Steady.upd

theorem runAbandonAll_steady {u : State} {n : Fin 16} {s : State} (hst : Steady u s) :
    Steady u (runAbandonAll n s) := by
  unfold runAbandonAll
  repeat' first
    | intro _
    | with_reducible first | assumption | apply State.put_steady | apply State.modWork_steady
    | with_reducible first | apply State.modFt_steady | apply State.modJnl_steady | apply abandonBand_steady
    | with_reducible first | apply cmdIf_steady | apply raiseN_steady | apply restartScreen_steady
    | with_reducible first | apply showCause_steady | apply Steady.foldl
    | split | dsimp only
    | with_reducible apply Steady.upd

theorem runRefetch_steady {u : State} {n : Fin 16} {s : State} (hst : Steady u s) :
    Steady u (runRefetch n s) := by
  unfold runRefetch
  repeat' first
    | intro _
    | with_reducible first | assumption | apply setBands_steady | apply cmdIf_steady
    | split | dsimp only
    | with_reducible apply Steady.upd

theorem runRebase_steady {u : State} {n : Fin 16} {seq : Nat} {addr : Nat} {s : State} (hst : Steady u s) :
    Steady u (runRebase n seq addr s) := by
  unfold runRebase
  repeat' first
    | intro _
    | with_reducible first | assumption | apply cmdRes_steady | apply modBand_steady | apply modRec_steady
    | split | dsimp only
    | with_reducible apply Steady.upd

theorem runSetseq_steady {u : State} {n : Fin 16} {seq : Nat} {s : State} (hst : Steady u s) :
    Steady u (runSetseq n seq s) := by
  unfold runSetseq
  repeat' first
    | intro _
    | with_reducible first | assumption | apply State.modJnl_steady | apply cmdIf_steady
    | split | dsimp only
    | with_reducible apply Steady.upd

theorem runCmd_steady {u : State} {code : Nat} {seq : Nat} {addr : Nat} {n : Fin 16} {s : State} (hst : Steady u s) :
    Steady u (runCmd code seq addr n s) := by
  unfold runCmd
  repeat' first
    | intro _
    | with_reducible first | assumption | apply cmdRes_steady | apply runStart_steady | apply runStop_steady
    | with_reducible first | apply runResume_steady | apply runRefire_steady | apply runSkip_steady
    | with_reducible first | apply runAbandon_steady | apply runAbandonAll_steady | apply runRefetch_steady
    | with_reducible first | apply runRebase_steady | apply runSetseq_steady
    | split | dsimp only
    | with_reducible apply Steady.upd

theorem takeCmd_steady {u : State} {n : Fin 16} {code : Nat} {seq : Nat} {addr : Nat} {s : State} (hst : Steady u s) :
    Steady u (takeCmd n code seq addr s) := by
  unfold takeCmd
  repeat' first
    | intro _
    | with_reducible first | assumption | apply State.put_steady | apply State.modWork_steady | apply noteReady_steady
    | with_reducible first | apply runCmd_steady
    | split | dsimp only
    | with_reducible apply Steady.upd

theorem cmdTake_steady {u : State} {n : Fin 16} {code : Nat} {s : State} (hst : Steady u s) :
    Steady u (cmdTake n code s) := by
  unfold cmdTake
  repeat' first
    | intro _
    | with_reducible first | assumption | apply cmdRes_steady | apply takeCmd_steady
    | split | dsimp only
    | with_reducible apply Steady.upd

theorem takeWaiting_steady {u : State} {n : Fin 16} {s : State} (hst : Steady u s) :
    Steady u (takeWaiting n s) := by
  unfold takeWaiting
  repeat' first
    | intro _
    | with_reducible first | assumption | apply State.put_steady | apply State.modWork_steady | apply takeCmd_steady
    | split | dsimp only
    | with_reducible apply Steady.upd

theorem cmdWrite_steady {u : State} {m : Master} {n : Fin 16} {code : Nat} {s : State} (hst : Steady u s) :
    Steady u (cmdWrite m n code s) := by
  unfold cmdWrite
  repeat' first
    | intro _
    | with_reducible first | assumption | apply State.wr_steady | apply cmdTake_steady
    | split | dsimp only

theorem execCmdStart_steady (m : Master) (n : Fin 16) (s : State) :
    OSteady s (execCmdStart m n s) := by
  unfold execCmdStart
  repeat' first
    | intro _
    | with_reducible first | exact Steady.refl _ | apply OSteady.next | apply OSteady.nextIf | assumption
    | with_reducible first | apply cmdWrite_steady
    | split | dsimp only

theorem execCmdStop_steady (m : Master) (n : Fin 16) (s : State) :
    OSteady s (execCmdStop m n s) := by
  unfold execCmdStop
  repeat' first
    | intro _
    | with_reducible first | exact Steady.refl _ | apply OSteady.next | apply OSteady.nextIf | assumption
    | with_reducible first | apply cmdWrite_steady
    | split | dsimp only

theorem execCmdResume_steady (m : Master) (n : Fin 16) (s : State) :
    OSteady s (execCmdResume m n s) := by
  unfold execCmdResume
  repeat' first
    | intro _
    | with_reducible first | exact Steady.refl _ | apply OSteady.next | apply OSteady.nextIf | assumption
    | with_reducible first | apply cmdWrite_steady
    | split | dsimp only

theorem execCmdRefire_steady (m : Master) (n : Fin 16) (s : State) :
    OSteady s (execCmdRefire m n s) := by
  unfold execCmdRefire
  repeat' first
    | intro _
    | with_reducible first | exact Steady.refl _ | apply OSteady.next | apply OSteady.nextIf | assumption
    | with_reducible first | apply cmdWrite_steady
    | split | dsimp only

theorem execCmdSkip_steady (m : Master) (n : Fin 16) (s : State) :
    OSteady s (execCmdSkip m n s) := by
  unfold execCmdSkip
  repeat' first
    | intro _
    | with_reducible first | exact Steady.refl _ | apply OSteady.next | apply OSteady.nextIf | assumption
    | with_reducible first | apply cmdWrite_steady
    | split | dsimp only

theorem execCmdAbandon_steady (m : Master) (n : Fin 16) (s : State) :
    OSteady s (execCmdAbandon m n s) := by
  unfold execCmdAbandon
  repeat' first
    | intro _
    | with_reducible first | exact Steady.refl _ | apply OSteady.next | apply OSteady.nextIf | assumption
    | with_reducible first | apply cmdWrite_steady
    | split | dsimp only

theorem execCmdAbandonAll_steady (m : Master) (n : Fin 16) (s : State) :
    OSteady s (execCmdAbandonAll m n s) := by
  unfold execCmdAbandonAll
  repeat' first
    | intro _
    | with_reducible first | exact Steady.refl _ | apply OSteady.next | apply OSteady.nextIf | assumption
    | with_reducible first | apply cmdWrite_steady
    | split | dsimp only

theorem execCmdRefetch_steady (m : Master) (n : Fin 16) (s : State) :
    OSteady s (execCmdRefetch m n s) := by
  unfold execCmdRefetch
  repeat' first
    | intro _
    | with_reducible first | exact Steady.refl _ | apply OSteady.next | apply OSteady.nextIf | assumption
    | with_reducible first | apply cmdWrite_steady
    | split | dsimp only

theorem execCmdRebase_steady (m : Master) (n : Fin 16) (s : State) :
    OSteady s (execCmdRebase m n s) := by
  unfold execCmdRebase
  repeat' first
    | intro _
    | with_reducible first | exact Steady.refl _ | apply OSteady.next | apply OSteady.nextIf | assumption
    | with_reducible first | apply cmdWrite_steady
    | split | dsimp only

theorem execCmdSetseq_steady (m : Master) (n : Fin 16) (s : State) :
    OSteady s (execCmdSetseq m n s) := by
  unfold execCmdSetseq
  repeat' first
    | intro _
    | with_reducible first | exact Steady.refl _ | apply OSteady.next | apply OSteady.nextIf | assumption
    | with_reducible first | apply cmdWrite_steady
    | split | dsimp only

/-! ## Position -/

theorem onFrontEnds_steady {u : State} {mask : BitVec 17} {f : Fin 17 → State → State} {s : State} (hst : Steady u s) (hf : ∀ (x0 : Fin 17) (x1 : State), Steady u x1 → Steady u (f x0 x1)) :
    Steady u (onFrontEnds mask f s) := by
  unfold onFrontEnds
  repeat' first
    | intro _
    | with_reducible first | assumption | apply hf | apply State.eachCh_steady
    | split | dsimp only

theorem applyEmu_steady {u : State} {s0 : State} {m : Fin 4} {s : State} (hst : Steady u s) :
    Steady u (applyEmu s0 m s) := by
  unfold applyEmu
  repeat' first
    | intro _
    | with_reducible first | assumption | apply State.put_steady | apply State.modEmu_steady
    | split | dsimp only
    | with_reducible apply Steady.upd

theorem sampled_steady {u : State} {e : Fin 4} {f : State → State} {s : State} (hst : Steady u s) (hf : ∀ (x0 : State), Steady u x0 → Steady u (f x0)) :
    Steady u (sampled e f s) := by
  unfold sampled
  repeat' first
    | intro _
    | with_reducible first | assumption | apply hf | apply posFollow_steady
    | split | dsimp only
    | with_reducible apply Steady.upd

theorem withEmu_steady {u : State} {e : Fin 4} {f : State → State} {s : State} (hst : Steady u s) (hf : ∀ (x0 : State), Steady u x0 → Steady u (f x0)) :
    Steady u (withEmu e f s) := by
  unfold withEmu
  repeat' first
    | intro _
    | with_reducible first | assumption | apply hf | apply applyAll_steady | apply applyEmu_steady
    | with_reducible first | apply sampled_steady | apply subFollow_steady | apply Steady.foldl
    | split | dsimp only
    | with_reducible apply Steady.upd

theorem execEncoderTransition_steady (e : Fin 4) (a : Bool) (b : Bool) (z : Bool) (seen : BitVec 17) (s : State) :
    OSteady s (execEncoderTransition e a b z seen s) := by
  unfold execEncoderTransition
  repeat' first
    | intro _
    | with_reducible first | exact Steady.refl _ | apply OSteady.next | apply OSteady.nextIf | assumption
    | with_reducible first | apply feSample_steady | apply onFrontEnds_steady | apply withEmu_steady
    | split | dsimp only
    | with_reducible apply Steady.upd

theorem execFilterAccept_steady (e : Fin 4) (l : EncLine) (fe : FrontEnd) (s : State) :
    OSteady s (execFilterAccept e l fe s) := by
  unfold execFilterAccept
  repeat' first
    | intro _
    | with_reducible first | exact Steady.refl _ | apply OSteady.next | apply OSteady.nextIf | assumption
    | with_reducible first | apply feTake_steady | apply withEmu_steady
    | split | dsimp only
    | with_reducible apply Steady.upd

theorem execIndexEvent_steady (e : Fin 4) (s : State) :
    OSteady s (execIndexEvent e s) := by
  unfold execIndexEvent
  repeat' first
    | intro _
    | with_reducible first | exact Steady.refl _ | apply OSteady.next | apply OSteady.nextIf | assumption
    | with_reducible first | apply feSample_steady | apply onFrontEnds_steady | apply withEmu_steady
    | split | dsimp only
    | with_reducible apply Steady.upd

theorem execFaultWindowEnd_steady (e : Fin 4) (s : State) :
    OSteady s (execFaultWindowEnd e s) := by
  unfold execFaultWindowEnd
  repeat' first
    | intro _
    | with_reducible first | exact Steady.refl _ | apply OSteady.next | apply OSteady.nextIf | assumption
    | with_reducible first | apply faultWindow_steady
    | split | dsimp only
    | with_reducible apply Steady.upd

theorem execSpeedWindowEnd_steady (e : Fin 4) (s : State) :
    OSteady s (execSpeedWindowEnd e s) := by
  unfold execSpeedWindowEnd
  repeat' first
    | intro _
    | with_reducible first | exact Steady.refl _ | apply OSteady.next | apply OSteady.nextIf | assumption
    | with_reducible first | apply speedWindow_steady
    | split | dsimp only
    | with_reducible apply Steady.upd

theorem trkCompare_steady {u : State} {e : Fin 4} {n : Fin 16} {s : State} (hst : Steady u s) :
    Steady u (trkCompare e n s) := by
  unfold trkCompare
  repeat' first
    | intro _
    | with_reducible first | assumption | apply State.modFe_steady
    | split | dsimp only
    | with_reducible apply Steady.upd

theorem failTracker_steady {u : State} {e : Fin 4} {n : Fin 16} {s : State} (hst : Steady u s) :
    Steady u (failTracker e n s) := by
  unfold failTracker
  repeat' first
    | intro _
    | with_reducible first | assumption | apply State.put_steady | apply State.raise_steady | apply State.modFe_steady
    | with_reducible first | apply posLost_steady
    | split | dsimp only
    | with_reducible apply Steady.upd

theorem substitute_steady {u : State} {e : Fin 4} {n : Fin 16} {s : State} (hst : Steady u s) :
    Steady u (substitute e n s) := by
  unfold substitute
  repeat' first
    | intro _
    | with_reducible first | assumption | apply State.put_steady | apply State.modEnc_steady
    | with_reducible first | apply State.raise_steady | apply newPosCnt_steady
    | split | dsimp only
    | with_reducible apply Steady.upd

theorem xcheckEnc_steady {u : State} {e : Fin 4} {s0 : State} (hst : Steady u s0) :
    Steady u (xcheckEnc e s0) := by
  unfold xcheckEnc
  repeat' first
    | intro _
    | with_reducible first | assumption | apply State.eachCh_steady | apply State.put_steady
    | with_reducible first | apply State.modEnc_steady | apply declareFaulty_steady | apply trkCompare_steady
    | with_reducible first | apply failTracker_steady | apply substitute_steady
    | split | dsimp only
    | with_reducible apply Steady.upd

theorem execXcheckSnapshot_steady (s : State) :
    OSteady s (execXcheckSnapshot s) := by
  unfold execXcheckSnapshot
  repeat' first
    | intro _
    | with_reducible first | exact Steady.refl _ | apply OSteady.next | apply OSteady.nextIf | assumption
    | with_reducible first | apply fretsFollow_steady | apply xcheckEnc_steady | apply Steady.foldl
    | split | dsimp only
    | with_reducible apply Steady.upd

theorem encFaultClear_steady {u : State} {e : Fin 4} {s : State} (hst : Steady u s) :
    Steady u (encFaultClear e s) := by
  unfold encFaultClear
  repeat' first
    | intro _
    | with_reducible first | assumption | apply State.put_steady | apply State.eachCh_steady
    | with_reducible first | apply State.modEnc_steady | apply everyFe_steady | apply fretsFollow_steady
    | with_reducible first | apply lineFollow_steady | apply pairsFollow_steady
    | split | dsimp only
    | with_reducible apply Steady.upd

theorem execEncFaultClear_steady (m : Master) (e : Fin 4) (s : State) :
    OSteady s (execEncFaultClear m e s) := by
  unfold execEncFaultClear
  repeat' first
    | intro _
    | with_reducible first | exact Steady.refl _ | apply OSteady.next | apply OSteady.nextIf | assumption
    | with_reducible first | apply State.wr_steady | apply encFaultClear_steady
    | split | dsimp only

theorem fretCmpLo_steady {u : State} {f : Fin 64} {v : Word} {s : State} (hst : Steady u s) :
    Steady u (fretCmpLo f v s) := by
  unfold fretCmpLo
  repeat' first
    | intro _
    | with_reducible assumption
    | split | dsimp only
    | with_reducible apply Steady.upd

theorem fretCmpHi_steady {u : State} {f : Fin 64} {v : Word} {s : State} (hst : Steady u s) :
    Steady u (fretCmpHi f v s) := by
  unfold fretCmpHi
  repeat' first
    | intro _
    | with_reducible first | assumption | apply State.put_steady | apply State.setWord_steady
    | split | dsimp only

theorem encStatWrite_steady {u : State} {e : Fin 4} {v : Word} {s : State} (hst : Steady u s) :
    Steady u (encStatWrite e v s) := by
  unfold encStatWrite
  repeat' first
    | intro _
    | with_reducible first | assumption | apply State.setWord_steady | apply encFaultClear_steady
    | split | dsimp only

theorem fretCtrlWrite_steady {u : State} {f : Fin 64} {v : Word} {s : State} (hst : Steady u s) :
    Steady u (fretCtrlWrite f v s) := by
  unfold fretCtrlWrite
  repeat' first
    | intro _
    | with_reducible first | assumption | apply State.put_steady | apply State.setWord_steady
    | split | dsimp only

theorem execFretCmpLoWrite_steady (m : Master) (f : Fin 64) (v : Word) (s : State) :
    OSteady s (execFretCmpLoWrite m f v s) := by
  unfold execFretCmpLoWrite
  repeat' first
    | intro _
    | with_reducible first | exact Steady.refl _ | apply OSteady.next | apply OSteady.nextIf | assumption
    | with_reducible first | apply State.wr_steady | apply fretCmpLo_steady
    | split | dsimp only

theorem execFretCmpHiWrite_steady (m : Master) (f : Fin 64) (v : Word) (s : State) :
    OSteady s (execFretCmpHiWrite m f v s) := by
  unfold execFretCmpHiWrite
  repeat' first
    | intro _
    | with_reducible first | exact Steady.refl _ | apply OSteady.next | apply OSteady.nextIf | assumption
    | with_reducible first | apply State.wr_steady | apply fretCmpHi_steady
    | split | dsimp only

theorem execFretArm_steady (m : Master) (f : Fin 64) (s : State) :
    OSteady s (execFretArm m f s) := by
  unfold execFretArm
  repeat' first
    | intro _
    | with_reducible first | exact Steady.refl _ | apply OSteady.next | apply OSteady.nextIf | assumption
    | with_reducible first | apply State.put_steady | apply State.wr_steady
    | split | dsimp only

theorem execFretDisarm_steady (m : Master) (f : Fin 64) (s : State) :
    OSteady s (execFretDisarm m f s) := by
  unfold execFretDisarm
  repeat' first
    | intro _
    | with_reducible first | exact Steady.refl _ | apply OSteady.next | apply OSteady.nextIf | assumption
    | with_reducible first | apply State.put_steady | apply State.wr_steady
    | split | dsimp only

theorem emuZ_steady {u : State} {k : Fin 4} {s : State} (hst : Steady u s) :
    Steady u (emuZ k s) := by
  unfold emuZ
  repeat' first
    | intro _
    | with_reducible first | assumption | apply State.emit_steady | apply State.modEmu_steady
    | split | dsimp only
    | with_reducible apply Steady.upd

theorem execEmuOutputCount_steady (k : Fin 4) (s : State) :
    OSteady s (execEmuOutputCount k s) := by
  unfold execEmuOutputCount
  repeat' first
    | intro _
    | with_reducible first | exact Steady.refl _ | apply OSteady.next | apply OSteady.nextIf | assumption
    | with_reducible first | apply State.emit_steady | apply State.put_steady | apply State.modEmu_steady
    | with_reducible first | apply emuZ_steady
    | split | dsimp only
    | with_reducible apply Steady.upd

theorem emuTick_steady {u : State} {s : State} (hst : Steady u s) :
    Steady u (emuTick s) := by
  unfold emuTick
  repeat' first
    | intro _
    | with_reducible first | assumption | apply State.modEmu_steady | apply Steady.foldl
    | split | dsimp only
    | with_reducible apply Steady.upd

theorem pairAfresh_steady {u : State} {s : State} (hst : Steady u s) :
    Steady u (pairAfresh s) := by
  unfold pairAfresh
  repeat' first
    | intro _
    | with_reducible first | assumption | apply State.modPair_steady | apply Steady.foldl
    | split | dsimp only
    | with_reducible apply Steady.upd

theorem pairAnew_steady {u : State} {s : State} (hst : Steady u s) :
    Steady u (pairAnew s) := by
  unfold pairAnew
  repeat' first
    | intro _
    | with_reducible first | assumption | apply State.modPair_steady | apply pairAfresh_steady
    | with_reducible first | apply switchPair_steady | apply Steady.foldl
    | split | dsimp only
    | with_reducible apply Steady.upd

theorem encEnabled_steady {u : State} {e : Fin 4} {s : State} (hst : Steady u s) :
    Steady u (encEnabled e s) := by
  unfold encEnabled
  repeat' first
    | intro _
    | with_reducible first | assumption | apply State.put_steady | apply State.modEnc_steady
    | with_reducible first | apply State.modFe_steady
    | split | dsimp only
    | with_reducible apply Steady.upd

theorem encPreset_steady {u : State} {e : Fin 4} {s : State} (hst : Steady u s) :
    Steady u (encPreset e s) := by
  unfold encPreset
  repeat' first
    | intro _
    | with_reducible first | assumption | apply State.put_steady | apply State.modEnc_steady | apply everyFe_steady
    | with_reducible first | apply pairAfresh_steady
    | split | dsimp only
    | with_reducible apply Steady.upd

theorem applyEnc_steady {u : State} {s0 : State} {e : Fin 4} {s : State} (hst : Steady u s) :
    Steady u (applyEnc s0 e s) := by
  unfold applyEnc
  extract_lets s1 s2 s3 s4
  have hs1 : Steady u s1 := by
    unfold s1
    repeat' first
      | intro _
      | with_reducible first | assumption | apply encEnabled_steady
      | split | dsimp only
      | with_reducible apply Steady.upd
  clear_value s1
  have hs2 : Steady u s2 := by
    unfold s2
    repeat' first
      | intro _
      | with_reducible first | assumption | apply encPreset_steady
      | split | dsimp only
      | with_reducible apply Steady.upd
  clear_value s2
  have hs3 : Steady u s3 := by
    unfold s3
    repeat' first
      | intro _
      | with_reducible first | assumption | apply State.modEnc_steady
      | split | dsimp only
      | with_reducible apply Steady.upd
  clear_value s3
  have hs4 : Steady u s4 := by
    unfold s4
    repeat' first
      | intro _
      | with_reducible first | assumption | apply State.put_steady | apply State.modEnc_steady | apply everyFe_steady
      | split | dsimp only
      | with_reducible apply Steady.upd
  clear_value s4
  repeat' first
    | intro _
    | with_reducible first | assumption | apply State.modEnc_steady
    | split | dsimp only
    | with_reducible apply Steady.upd

theorem resync_steady {u : State} {s : State} (hst : Steady u s) :
    Steady u (resync s) := by
  unfold resync
  repeat' first
    | intro _
    | with_reducible first | assumption | apply State.modFe_steady | apply State.modPair_steady | apply Steady.foldl
    | split | dsimp only
    | with_reducible apply Steady.upd

theorem applyPair_steady {u : State} {s0 : State} {s : State} (hst : Steady u s) :
    Steady u (applyPair s0 s) := by
  unfold applyPair
  repeat' first
    | intro _
    | with_reducible first | assumption | apply State.put_steady | apply pairAnew_steady | apply resync_steady
    | split | dsimp only
    | with_reducible apply Steady.upd

theorem applyPos_steady {u : State} {s0 : State} {s : State} (hst : Steady u s) :
    Steady u (applyPos s0 s) := by
  unfold applyPos
  repeat' first
    | intro _
    | with_reducible first | assumption | apply State.eachCh_steady | apply applyEnc_steady | apply applyPair_steady
    | with_reducible first | apply fretsFollow_steady | apply noteMoved_steady | apply syncTrackers_steady
    | with_reducible first | apply Steady.foldl
    | split | dsimp only
    | with_reducible apply Steady.upd

/-! ## FireTiming -/

theorem dropUndelayed_steady {u : State} {n : Fin 16} {s0 : State} {s : State} (hst : Steady u s) :
    Steady u (dropUndelayed n s0 s) := by
  unfold dropUndelayed
  repeat' first
    | intro _
    | with_reducible first | assumption | apply dropAhead_steady
    | split | dsimp only
    | with_reducible apply Steady.upd

theorem applyFt_steady {u : State} {n : Fin 16} {s0 : State} {s : State} (hst : Steady u s) :
    Steady u (applyFt n s0 s) := by
  unfold applyFt
  extract_lets en s1 s2 s3 lost s4
  have hs1 : Steady u s1 := by
    unfold s1
    repeat' first
      | intro _
      | with_reducible first | assumption | apply State.modFt_steady
      | split | dsimp only
      | with_reducible apply Steady.upd
  clear_value s1
  have hs2 : Steady u s2 := by
    unfold s2
    repeat' first
      | intro _
      | with_reducible first | assumption | apply dropUndelayed_steady | apply noteMoved_steady
      | with_reducible first | apply syncTrackers_steady | apply withFrets_steady
      | split | dsimp only
      | with_reducible apply Steady.upd
  clear_value s2
  have hs3 : Steady u s3 := by
    unfold s3
    repeat' first
      | intro _
      | with_reducible first | assumption | apply State.put_steady
      | split | dsimp only
      | with_reducible apply Steady.upd
  clear_value s3
  have hs4 : Steady u s4 := by
    unfold s4
    repeat' first
      | intro _
      | with_reducible first | assumption | apply posLost_steady
      | split | dsimp only
      | with_reducible apply Steady.upd
  clear_value s4
  repeat' first
    | intro _
    | with_reducible first | assumption | apply noteReady_steady | apply rearm_steady
    | split | dsimp only
    | with_reducible apply Steady.upd

theorem settleFt_steady {u : State} {n : Fin 16} {s : State} (hst : Steady u s) :
    Steady u (settleFt n s) := by
  unfold settleFt
  repeat' first
    | intro _
    | with_reducible first | assumption | apply applyAll_steady | apply applyFt_steady
    | split | dsimp only

theorem execSosEvent_steady (i : Fin 8) (n : Fin 16) (s : State) :
    OSteady s (execSosEvent i n s) := by
  unfold execSosEvent
  repeat' first
    | intro _
    | with_reducible first | exact Steady.refl _ | apply OSteady.next | apply OSteady.nextIf | assumption
    | with_reducible first | apply State.modFt_steady | apply sosEvent_steady
    | split | dsimp only
    | with_reducible apply Steady.upd

theorem execPageArm_steady (n : Fin 16) (s : State) :
    OSteady s (execPageArm n s) := by
  unfold execPageArm
  repeat' first
    | intro _
    | with_reducible first | exact Steady.refl _ | apply OSteady.next | apply OSteady.nextIf | assumption
    | with_reducible first | apply armPage_steady | apply settleFt_steady | apply tryArm_steady
    | split | dsimp only
    | with_reducible apply Steady.upd

theorem execHaltRequest_steady (n : Fin 16) (s : State) :
    OSteady s (execHaltRequest n s) := by
  unfold execHaltRequest
  repeat' first
    | intro _
    | with_reducible first | exact Steady.refl _ | apply OSteady.next | apply OSteady.nextIf | assumption
    | with_reducible first | apply State.hold_steady
    | split | dsimp only

theorem endPage_steady {u : State} {n : Fin 16} {s : State} (hst : Steady u s) :
    Steady u (endPage n s) := by
  unfold endPage
  repeat' first
    | intro _
    | with_reducible first | assumption | apply State.modFt_steady | apply State.put_steady
    | split | dsimp only
    | with_reducible apply Steady.upd

theorem decide'_steady {u : State} {n : Fin 16} {d : DutyDec} {s : State} (hst : Steady u s) :
    Steady u (decide' n d s) := by
  unfold decide'
  extract_lets l next dec s1 s2 s3 s4
  have hs1 : Steady u s1 := by
    unfold s1
    repeat' first
      | intro _
      | with_reducible first | assumption | apply State.modFt_steady
      | split | dsimp only
      | with_reducible apply Steady.upd
  clear_value s1
  have hs2 : Steady u s2 := by
    unfold s2
    repeat' first
      | intro _
      | with_reducible first | assumption | apply State.modDut_steady | apply State.modBrg_steady
      | split | dsimp only
      | with_reducible apply Steady.upd
  clear_value s2
  have hs3 : Steady u s3 := by
    unfold s3
    repeat' first
      | intro _
      | with_reducible first | assumption | apply State.modWork_steady
      | split | dsimp only
      | with_reducible apply Steady.upd
  clear_value s3
  have hs4 : Steady u s4 := by
    unfold s4
    repeat' first
      | intro _
      | with_reducible first | assumption | apply State.wrapAdd_steady | apply capoCond_steady
      | split | dsimp only
      | with_reducible apply Steady.upd
  clear_value s4
  repeat' first
    | intro _
    | with_reducible first | assumption | apply endPage_steady | apply rearm_steady | apply toSkipKind_steady
    | split | dsimp only
    | with_reducible apply Steady.upd

theorem overlapHalt_steady {u : State} {n : Fin 16} {s : State} (hst : Steady u s) :
    Steady u (overlapHalt n s) := by
  unfold overlapHalt
  repeat' first
    | intro _
    | with_reducible first | assumption | apply State.put_steady | apply State.raiseCh_steady
    | with_reducible first | apply State.hold_steady
    | split | dsimp only

theorem lateHalt_steady {u : State} {n : Fin 16} {s : State} (hst : Steady u s) :
    Steady u (lateHalt n s) := by
  unfold lateHalt
  repeat' first
    | intro _
    | with_reducible first | assumption | apply State.bump_steady | apply State.put_steady
    | with_reducible first | apply State.raiseCh_steady | apply State.hold_steady
    | split | dsimp only

theorem execLineDecide_steady (n : Fin 16) (s : State) :
    OSteady s (execLineDecide n s) := by
  unfold execLineDecide
  repeat' first
    | intro _
    | with_reducible first | exact Steady.refl _ | apply OSteady.next | apply OSteady.nextIf | assumption
    | with_reducible first | apply decide'_steady | apply lateHalt_steady | apply noteReady_steady
    | with_reducible first | apply overlapHalt_steady
    | split | dsimp only
    | with_reducible apply Steady.upd

theorem bandFired_steady {u : State} {n : Fin 16} {d : Decided} {s : State} (hst : Steady u s) :
    Steady u (bandFired n d s) := by
  unfold bandFired
  repeat' first
    | intro _
    | with_reducible first | assumption | apply State.modWork_steady | apply modBand_steady
    | split | dsimp only
    | with_reducible apply Steady.upd

theorem startWave_steady {u : State} {n : Fin 16} {d : Decided} {s : State} (hst : Steady u s) :
    Steady u (startWave n d s) := by
  unfold startWave
  extract_lets l tab bank ds t0 phi src s1 fin prev slot frames s2 s3
  have hs1 : Steady u s1 := by
    unfold s1
    repeat' first
      | intro _
      | with_reducible first | assumption | apply State.put_steady | apply State.modWav_steady
      | split | dsimp only
      | with_reducible apply Steady.upd
  clear_value s1
  have hs2 : Steady u s2 := by
    unfold s2
    repeat' first
      | intro _
      | with_reducible first | assumption | apply State.modWav_steady
      | split | dsimp only
      | with_reducible apply Steady.upd
  clear_value s2
  have hs3 : Steady u s3 := by
    unfold s3
    repeat' first
      | intro _
      | with_reducible first | assumption | apply State.put_steady
      | split | dsimp only
      | with_reducible apply Steady.upd
  clear_value s3
  repeat' first
    | intro _
    | with_reducible first | assumption | apply State.emit_steady | apply Steady.foldl
    | split | dsimp only
    | with_reducible apply Steady.upd

theorem passMaps_steady {u : State} {n : Fin 16} {pg : Nat} {t : Nat} {s : State} (hst : Steady u s) :
    Steady u (passMaps n pg t s) := by
  unfold passMaps
  repeat' first
    | intro _
    | with_reducible first | assumption | apply State.modImg_steady
    | split | dsimp only
    | with_reducible apply Steady.upd

theorem fire_steady {u : State} {n : Fin 16} {d : Decided} {s0 : State} (hst : Steady u s0) :
    Steady u (fire n d s0) := by
  unfold fire
  extract_lets l s s1 s2 s3
  have hs : Steady u s := by
    unfold s
    repeat' first
      | intro _
      | with_reducible first | assumption | apply settleDone_steady
      | split | dsimp only
      | with_reducible apply Steady.upd
  clear_value s
  have hs1 : Steady u s1 := by
    unfold s1
    repeat' first
      | intro _
      | with_reducible first | assumption | apply State.emit_steady | apply State.modFt_steady
      | split | dsimp only
      | with_reducible apply Steady.upd
  clear_value s1
  have hs2 : Steady u s2 := by
    unfold s2
    repeat' first
      | intro _
      | with_reducible first | assumption | apply ledAppend_steady
      | split | dsimp only
      | with_reducible apply Steady.upd
  clear_value s2
  have hs3 : Steady u s3 := by
    unfold s3
    repeat' first
      | intro _
      | with_reducible first | assumption | apply bandFired_steady | apply passMaps_steady | apply startWave_steady
      | split | dsimp only
      | with_reducible apply Steady.upd
  clear_value s3
  repeat' first
    | intro _
    | with_reducible first | assumption | apply applyDuty_steady | apply chargeDuty_steady
    | split | dsimp only
    | with_reducible apply Steady.upd

theorem execLineFire_steady (n : Fin 16) (s : State) :
    OSteady s (execLineFire n s) := by
  unfold execLineFire
  repeat' first
    | intro _
    | with_reducible first | exact Steady.refl _ | apply OSteady.next | apply OSteady.nextIf | assumption
    | with_reducible first | apply fire_steady
    | split | dsimp only
    | with_reducible apply Steady.upd

/-! ## Waveform -/

theorem dutyParity_steady {u : State} {n : Fin 16} {perr : List Nat} {s : State} (hst : Steady u s) :
    Steady u (dutyParity n perr s) := by
  unfold dutyParity
  repeat' first
    | intro _
    | with_reducible first | assumption | apply State.put_steady | apply State.setWord_steady
    | with_reducible first | apply State.raiseCh_steady | apply Steady.foldl
    | split | dsimp only

theorem execDutyDecide_steady (n : Fin 16) (perr : List Nat) (s : State) :
    OSteady s (execDutyDecide n perr s) := by
  unfold execDutyDecide
  repeat' first
    | intro _
    | with_reducible first | exact Steady.refl _ | apply OSteady.next | apply OSteady.nextIf | assumption
    | with_reducible first | apply State.modBrg_steady | apply State.modDut_steady | apply State.modImg_steady
    | with_reducible first | apply applyDuty_steady | apply dutyParity_steady
    | split | dsimp only
    | with_reducible apply Steady.upd

theorem execSegStrobe_steady (n : Fin 16) (s : State) :
    OSteady s (execSegStrobe n s) := by
  unfold execSegStrobe
  repeat' first
    | intro _
    | with_reducible first | exact Steady.refl _ | apply OSteady.next | apply OSteady.nextIf | assumption
    | with_reducible first | apply State.emit_steady | apply State.modWav_steady
    | split | dsimp only
    | with_reducible apply Steady.upd

theorem execFiringWindowEnd_steady (n : Fin 16) (s : State) :
    OSteady s (execFiringWindowEnd n s) := by
  unfold execFiringWindowEnd
  repeat' first
    | intro _
    | with_reducible first | exact Steady.refl _ | apply OSteady.next | apply OSteady.nextIf | assumption
    | with_reducible first | apply State.modWav_steady | apply checkDone_steady | apply noteHalted_steady
    | with_reducible first | apply settleOff_steady
    | split | dsimp only
    | with_reducible apply Steady.upd

/-! ## Image -/

theorem keepDead_steady {u : State} {n : Fin 16} {s0 : State} {s : State} (hst : Steady u s) :
    Steady u (keepDead n s0 s) := by
  unfold keepDead
  repeat' first
    | intro _
    | with_reducible first | assumption | apply State.modImg_steady
    | split | dsimp only
    | with_reducible apply Steady.upd

theorem keepOld_steady {u : State} {n : Fin 16} {s0 : State} {s : State} (hst : Steady u s) :
    Steady u (keepOld n s0 s) := by
  unfold keepOld
  repeat' first
    | intro _
    | with_reducible first | assumption | apply State.modImg_steady
    | split | dsimp only
    | with_reducible apply Steady.updDrop
    | with_reducible apply Steady.upd

theorem applyImg_steady {u : State} {n : Fin 16} {s0 : State} {s : State} (hst : Steady u s) :
    Steady u (applyImg n s0 s) := by
  unfold applyImg
  repeat' first
    | intro _
    | with_reducible first | assumption | apply keepDead_steady | apply keepOld_steady
    | split | dsimp only
    | with_reducible apply Steady.upd

theorem beginPage_steady {u : State} {n : Fin 16} {pg : Nat} {kat : Bool} {s : State} (hst : Steady u s) :
    Steady u (beginPage n pg kat s) := by
  unfold beginPage
  repeat' first
    | intro _
    | with_reducible first | assumption | apply State.modImg_steady
    | split | dsimp only
    | with_reducible apply Steady.upd

theorem countKat_steady {u : State} {n : Fin 16} {st : Stage} {s : State} (hst : Steady u s) :
    Steady u (countKat n st s) := by
  unfold countKat
  repeat' first
    | intro _
    | with_reducible first | assumption | apply State.bump_steady
    | split | dsimp only
    | with_reducible apply Steady.upd

theorem startJob_steady {u : State} {n : Fin 16} {x : Band × Nat × Nat × Nat} {back : Bool} {st : Stage} {after : Stage} {s : State} (hst : Steady u s) :
    Steady u (startJob n x back st after s) := by
  unfold startJob
  repeat' first
    | intro _
    | with_reducible first | assumption | apply State.modImg_steady
    | split | dsimp only
    | with_reducible apply Steady.upd

theorem imageUe_steady {u : State} {n : Fin 16} {s : State} (hst : Steady u s) :
    Steady u (imageUe n s) := by
  unfold imageUe
  repeat' first
    | intro _
    | with_reducible first | assumption | apply State.put_steady | apply State.bump_steady
    | split | dsimp only
    | with_reducible apply Steady.upd

theorem matrixUe_steady {u : State} {n : Fin 16} {bank : Nat} {m : Nat} {s : State} (hst : Steady u s) :
    Steady u (matrixUe n bank m s) := by
  unfold matrixUe
  repeat' first
    | intro _
    | with_reducible first | assumption | apply State.put_steady | apply State.modImg_steady | apply State.hold_steady
    | with_reducible first | apply State.raiseCh_steady
    | split | dsimp only
    | with_reducible apply Steady.upd

theorem unreadable_steady {u : State} {n : Fin 16} {pg : Nat} {imgUe : Bool} {mtxUe : Option (Fin 4)} {s : State} (hst : Steady u s) :
    Steady u (unreadable n pg imgUe mtxUe s) := by
  unfold unreadable
  repeat' first
    | intro _
    | with_reducible first | assumption | apply State.bump_steady | apply imageUe_steady | apply matrixUe_steady
    | split | dsimp only
    | with_reducible apply Steady.upd

theorem execLineScreen_steady (n : Fin 16) (ce : Nat) (imgUe : Bool) (mtxUe : Option (Fin 4)) (s : State) :
    OSteady s (execLineScreen n ce imgUe mtxUe s) := by
  unfold execLineScreen
  repeat' first
    | intro _
    | with_reducible first | exact Steady.refl _ | apply OSteady.next | apply OSteady.nextIf | assumption
    | with_reducible first | apply State.bump_steady | apply applyAll_steady | apply applyImg_steady
    | with_reducible first | apply beginPage_steady | apply countKat_steady | apply startJob_steady
    | with_reducible first | apply unreadable_steady
    | split | dsimp only
    | with_reducible apply Steady.upd

theorem setJob_steady {u : State} {n : Fin 16} {j : Job} {s : State} (hst : Steady u s) :
    Steady u (setJob n j s) := by
  unfold setJob
  repeat' first
    | intro _
    | with_reducible first | assumption | apply State.modImg_steady
    | split | dsimp only
    | with_reducible apply Steady.upd

theorem readsWith_steady {u : State} {n : Fin 16} {j : Job} {after : Stage} {bad : ReadBack} {done : State → State} {s : State} (hst : Steady u s) (hdone : ∀ (x0 : State), Steady u x0 → Steady u (done x0)) :
    Steady u (readsWith n j after bad done s) := by
  unfold readsWith
  repeat' first
    | intro _
    | with_reducible first | assumption | apply hdone | apply State.modImg_steady | apply setJob_steady
    | with_reducible first | apply unreadable_steady
    | split | dsimp only
    | with_reducible apply Steady.upd

theorem execImageRefetchDone_steady (n : Fin 16) (bad : ReadBack) (s : State) :
    OSteady s (execImageRefetchDone n bad s) := by
  unfold execImageRefetchDone
  repeat' first
    | intro _
    | with_reducible first | exact Steady.refl _ | apply OSteady.next | apply OSteady.nextIf | assumption
    | with_reducible first | apply countKat_steady | apply readsWith_steady | apply setJob_steady
    | split | dsimp only
    | with_reducible apply Steady.upd

theorem fence_steady {u : State} {n : Fin 16} {p : Pipe} {s : State} (hst : Steady u s) :
    Steady u (fence n p s) := by
  unfold fence
  repeat' first
    | intro _
    | with_reducible first | assumption | apply State.put_steady | apply State.raiseCh_steady
    | split | dsimp only

theorem residueFail_steady {u : State} {n : Fin 16} {p : Pipe} {s : State} (hst : Steady u s) :
    Steady u (residueFail n p s) := by
  unfold residueFail
  repeat' first
    | intro _
    | with_reducible first | assumption | apply State.bump_steady | apply fence_steady
    | split | dsimp only

theorem withhold_steady {u : State} {n : Fin 16} {s : State} (hst : Steady u s) :
    Steady u (withhold n s) := by
  unfold withhold
  repeat' first
    | intro _
    | with_reducible first | assumption | apply State.modImg_steady | apply State.raiseCh_steady
    | with_reducible first | apply State.hold_steady
    | split | dsimp only
    | with_reducible apply Steady.upd

theorem release_steady {u : State} {n : Fin 16} {j : Job} {codes : List Nat} {single : Bool} {mis : Nat} {s : State} (hst : Steady u s) :
    Steady u (release n j codes single mis s) := by
  unfold release
  repeat' first
    | intro _
    | with_reducible first | assumption | apply State.put_steady | apply State.modImg_steady | apply withhold_steady
    | split | dsimp only
    | with_reducible apply Steady.upd

theorem recompute_steady {u : State} {n : Fin 16} {j : Job} {st : Stage} {s : State} (hst : Steady u s) :
    Steady u (recompute n j st s) := by
  unfold recompute
  repeat' first
    | intro _
    | with_reducible first | assumption | apply State.bump_steady | apply State.raiseCh_steady | apply setJob_steady
    | split | dsimp only
    | with_reducible apply Steady.upd

theorem compareTwo_steady {u : State} {n : Fin 16} {j : Job} {mis : Nat} {again : State → State} {s : State} (hst : Steady u s) (hagain : ∀ (x0 : State), Steady u x0 → Steady u (again x0)) :
    Steady u (compareTwo n j mis again s) := by
  unfold compareTwo
  repeat' first
    | intro _
    | with_reducible first | assumption | apply hagain | apply fence_steady | apply residueFail_steady
    | with_reducible first | apply release_steady | apply recompute_steady
    | split | dsimp only
    | with_reducible apply Steady.upd

theorem compareOne_steady {u : State} {n : Fin 16} {j : Job} {out : List Nat} {pass : Bool} {mis : Nat} {again : State → State} {s : State} (hst : Steady u s) (hagain : ∀ (x0 : State), Steady u x0 → Steady u (again x0)) :
    Steady u (compareOne n j out pass mis again s) := by
  unfold compareOne
  repeat' first
    | intro _
    | with_reducible first | assumption | apply hagain | apply release_steady
    | split | dsimp only

theorem compareLine_steady {u : State} {n : Fin 16} {j : Job} {mis : Nat} {again : State → State} {s : State} (hst : Steady u s) (hagain : ∀ (x0 : State), Steady u x0 → Steady u (again x0)) :
    Steady u (compareLine n j mis again s) := by
  unfold compareLine
  repeat' first
    | intro _
    | with_reducible first | assumption | apply hagain | apply compareTwo_steady | apply compareOne_steady
    | split | dsimp only

theorem execPipeCompare_steady (n : Fin 16) (fa : List (Nat × Nat)) (fb : List (Nat × Nat)) (ra : Bool) (rb : Bool) (mis : Nat) (s : State) :
    OSteady s (execPipeCompare n fa fb ra rb mis s) := by
  unfold execPipeCompare
  repeat' first
    | intro _
    | with_reducible first | exact Steady.refl _ | apply OSteady.next | apply OSteady.nextIf | assumption
    | with_reducible first | apply recompute_steady | apply compareLine_steady
    | split | dsimp only
    | with_reducible apply Steady.upd

theorem recomputed_steady {u : State} {n : Fin 16} {j : Job} {j' : Job} {mis : Nat} {s : State} (hst : Steady u s) :
    Steady u (recomputed n j j' mis s) := by
  unfold recomputed
  repeat' first
    | intro _
    | with_reducible first | assumption | apply State.bump_steady | apply compareLine_steady | apply release_steady
    | with_reducible first | apply setJob_steady | apply withhold_steady
    | split | dsimp only
    | with_reducible apply Steady.upd

theorem execPipeRecompDone_steady (n : Fin 16) (fa : List (Nat × Nat)) (fb : List (Nat × Nat)) (ra : Bool) (rb : Bool) (mis : Nat) (imgUe : Bool) (mtxUe : Option (Fin 4)) (s : State) :
    OSteady s (execPipeRecompDone n fa fb ra rb mis imgUe mtxUe s) := by
  unfold execPipeRecompDone
  repeat' first
    | intro _
    | with_reducible first | exact Steady.refl _ | apply OSteady.next | apply OSteady.nextIf | assumption
    | with_reducible first | apply readsWith_steady | apply recomputed_steady
    | split | dsimp only
    | with_reducible apply Steady.upd

theorem readmit_steady {u : State} {n : Fin 16} {p : Pipe} {ok : Bool} {s : State} (hst : Steady u s) :
    Steady u (readmit n p ok s) := by
  unfold readmit
  repeat' first
    | intro _
    | with_reducible first | assumption | apply State.put_steady | apply State.raiseCh_steady
    | split | dsimp only

theorem execKatDone_steady (n : Fin 16) (okA : Bool) (okB : Bool) (mis : Nat) (s : State) :
    OSteady s (execKatDone n okA okB mis s) := by
  unfold execKatDone
  repeat' first
    | intro _
    | with_reducible first | exact Steady.refl _ | apply OSteady.next | apply OSteady.nextIf | assumption
    | with_reducible first | apply State.bump_steady | apply State.modImg_steady | apply fence_steady
    | with_reducible first | apply readmit_steady | apply release_steady | apply setJob_steady
    | split | dsimp only
    | with_reducible apply Steady.upd

theorem arbitrated_steady {u : State} {n : Fin 16} {j : Job} {arb : List Nat} {ok : Bool} {mis : Nat} {s : State} (hst : Steady u s) :
    Steady u (arbitrated n j arb ok mis s) := by
  unfold arbitrated
  repeat' first
    | intro _
    | with_reducible first | assumption | apply fence_steady | apply release_steady | apply residueFail_steady
    | with_reducible first | apply withhold_steady
    | split | dsimp only
    | with_reducible apply Steady.upd

theorem execArbitrationDone_steady (n : Fin 16) (f : List (Nat × Nat)) (ok : Bool) (mis : Nat) (imgUe : Bool) (mtxUe : Option (Fin 4)) (s : State) :
    OSteady s (execArbitrationDone n f ok mis imgUe mtxUe s) := by
  unfold execArbitrationDone
  repeat' first
    | intro _
    | with_reducible first | exact Steady.refl _ | apply OSteady.next | apply OSteady.nextIf | assumption
    | with_reducible first | apply arbitrated_steady | apply readsWith_steady
    | split | dsimp only
    | with_reducible apply Steady.upd

theorem execMemScrub_steady (n : Fin 16) (ce : Nat) (ue : List (Nat × Nat)) (s : State) :
    OSteady s (execMemScrub n ce ue s) := by
  unfold execMemScrub
  repeat' first
    | intro _
    | with_reducible first | exact Steady.refl _ | apply OSteady.next | apply OSteady.nextIf | assumption
    | with_reducible first | apply State.bump_steady | apply matrixUe_steady | apply Steady.foldl
    | split | dsimp only
    | with_reducible apply Steady.upd

theorem requestReadmit_steady {u : State} {n : Fin 16} {a : Bool} {b : Bool} {s : State} (hst : Steady u s) :
    Steady u (requestReadmit n a b s) := by
  unfold requestReadmit
  repeat' first
    | intro _
    | with_reducible first | assumption | apply State.put_steady
    | split | dsimp only

theorem execReadmitRequest_steady (m : Master) (n : Fin 16) (a : Bool) (b : Bool) (s : State) :
    OSteady s (execReadmitRequest m n a b s) := by
  unfold execReadmitRequest
  repeat' first
    | intro _
    | with_reducible first | exact Steady.refl _ | apply OSteady.next | apply OSteady.nextIf | assumption
    | with_reducible first | apply State.wr_steady | apply requestReadmit_steady
    | split | dsimp only

theorem clearRescnt_steady {u : State} {n : Fin 16} {s : State} (hst : Steady u s) :
    Steady u (clearRescnt n s) := by
  unfold clearRescnt
  repeat' first
    | intro _
    | with_reducible first | assumption | apply State.put_steady
    | split | dsimp only

theorem execRescntClear_steady (m : Master) (n : Fin 16) (s : State) :
    OSteady s (execRescntClear m n s) := by
  unfold execRescntClear
  repeat' first
    | intro _
    | with_reducible first | exact Steady.refl _ | apply OSteady.next | apply OSteady.nextIf | assumption
    | with_reducible first | apply State.wr_steady | apply clearRescnt_steady
    | split | dsimp only

theorem tableWrite_steady {u : State} {n : Fin 16} {o : Nat} {v : Word} {s : State} (hst : Steady u s) :
    Steady u (tableWrite n o v s) := by
  unfold tableWrite
  repeat' first
    | intro _
    | with_reducible first | assumption | apply State.modWav_steady | apply State.put_steady
    | with_reducible first | apply State.setWord_steady
    | split | dsimp only
    | with_reducible apply Steady.upd

theorem execTableWindowWrite_steady (m : Master) (a : Nat) (v : Word) (s : State) :
    OSteady s (execTableWindowWrite m a v s) := by
  unfold execTableWindowWrite
  repeat' first
    | intro _
    | with_reducible first | exact Steady.refl _ | apply OSteady.next | apply OSteady.nextIf | assumption
    | with_reducible first | apply State.wr_steady | apply tableWrite_steady
    | split | dsimp only
    | with_reducible apply Steady.upd

theorem tableGo_steady {u : State} {n : Fin 16} {s : State} (hst : Steady u s) :
    Steady u (tableGo n s) := by
  unfold tableGo
  repeat' first
    | intro _
    | with_reducible first | assumption | apply State.modImg_steady | apply State.put_steady
    | split | dsimp only
    | with_reducible apply Steady.upd

theorem tldWrite_steady {u : State} {n : Fin 16} {v : Word} {s : State} (hst : Steady u s) :
    Steady u (tldWrite n v s) := by
  unfold tldWrite
  repeat' first
    | intro _
    | with_reducible first | assumption | apply State.put_steady | apply tableGo_steady
    | split | dsimp only

theorem execTableLoadGo_steady (m : Master) (n : Fin 16) (v : Word) (s : State) :
    OSteady s (execTableLoadGo m n v s) := by
  unfold execTableLoadGo
  repeat' first
    | intro _
    | with_reducible first | exact Steady.refl _ | apply OSteady.next | apply OSteady.nextIf | assumption
    | with_reducible first | apply State.wr_steady | apply tldWrite_steady
    | split | dsimp only

theorem loadRows_steady {u : State} {n : Fin 16} {l : TableLoad} {rows : List (List Word)} {s : State} (hst : Steady u s) :
    Steady u (loadRows n l rows s) := by
  unfold loadRows
  repeat' first
    | intro _
    | with_reducible first | assumption | apply State.modImg_steady | apply State.put_steady
    | split | dsimp only
    | with_reducible apply Steady.upd

theorem execTableLoadError_steady (n : Fin 16) (err : ReadErr) (rows : List (List Word)) (s : State) :
    OSteady s (execTableLoadError n err rows s) := by
  unfold execTableLoadError
  repeat' first
    | intro _
    | with_reducible first | exact Steady.refl _ | apply OSteady.next | apply OSteady.nextIf | assumption
    | with_reducible first | apply State.put_steady | apply State.modImg_steady | apply State.raiseCh_steady
    | with_reducible first | apply aerLog_steady | apply loadRows_steady
    | split | dsimp only
    | with_reducible apply Steady.upd

theorem execTableLoadRetry_steady (n : Fin 16) (s : State) :
    OSteady s (execTableLoadRetry n s) := by
  unfold execTableLoadRetry
  repeat' first
    | intro _
    | with_reducible first | exact Steady.refl _ | apply OSteady.next | apply OSteady.nextIf | assumption
    | with_reducible first | apply State.modImg_steady
    | split | dsimp only
    | with_reducible apply Steady.upd

theorem execTload_steady (n : Fin 16) (rows : List (List Word)) (s : State) :
    OSteady s (execTload n rows s) := by
  unfold execTload
  repeat' first
    | intro _
    | with_reducible first | exact Steady.refl _ | apply OSteady.next | apply OSteady.nextIf | assumption
    | with_reducible first | apply State.put_steady | apply State.modImg_steady | apply State.raiseCh_steady
    | with_reducible first | apply loadRows_steady
    | split | dsimp only
    | with_reducible apply Steady.upd

/-! ## Bridge -/

theorem execDataFrameSend_steady (n : Fin 16) (s : State) :
    OSteady s (execDataFrameSend n s) := by
  unfold execDataFrameSend
  repeat' first
    | intro _
    | with_reducible first | exact Steady.refl _ | apply OSteady.next | apply OSteady.nextIf | assumption
    | with_reducible first | apply State.modBrg_steady | apply applyWav_steady | apply newFrame_steady
    | split | dsimp only
    | with_reducible apply Steady.upd

theorem sendMasks_steady {u : State} {n : Fin 16} {x : Nat × Nat} {s : State} (hst : Steady u s) :
    Steady u (sendMasks n x s) := by
  unfold sendMasks
  repeat' first
    | intro _
    | with_reducible first | assumption | apply State.modWav_steady | apply newFrame_steady
    | split | dsimp only
    | with_reducible apply Steady.upd

theorem execCfgFrameSend_steady (n : Fin 16) (s : State) :
    OSteady s (execCfgFrameSend n s) := by
  unfold execCfgFrameSend
  repeat' first
    | intro _
    | with_reducible first | exact Steady.refl _ | apply OSteady.next | apply OSteady.nextIf | assumption
    | with_reducible first | apply State.modBrg_steady | apply newFrame_steady | apply sendMasks_steady
    | split | dsimp only
    | with_reducible apply Steady.upd

theorem execStatFrameSend_steady (n : Fin 16) (s : State) :
    OSteady s (execStatFrameSend n s) := by
  unfold execStatFrameSend
  repeat' first
    | intro _
    | with_reducible first | exact Steady.refl _ | apply OSteady.next | apply OSteady.nextIf | assumption
    | with_reducible first | apply newFrame_steady
    | split | dsimp only
    | with_reducible apply Steady.upd

theorem execIdleFrameSend_steady (n : Fin 16) (s : State) :
    OSteady s (execIdleFrameSend n s) := by
  unfold execIdleFrameSend
  repeat' first
    | intro _
    | with_reducible first | exact Steady.refl _ | apply OSteady.next | apply OSteady.nextIf | assumption
    | with_reducible first | apply sendFrame_steady | apply settleOff_steady
    | split | dsimp only
    | with_reducible apply Steady.upd

theorem ackMsg_steady {u : State} {n : Fin 16} {fsn : Byte} {flags : Byte} {s : State} (hst : Steady u s) :
    Steady u (ackMsg n fsn flags s) := by
  unfold ackMsg
  repeat' first
    | intro _
    | with_reducible first | assumption | apply frameDone_steady | apply noteOther_steady
    | split | dsimp only
    | with_reducible apply Steady.upd

theorem execAck_steady (n : Fin 16) (rd : Bool) (syms : List (BitVec 10)) (s : State) :
    OSteady s (execAck n rd syms s) := by
  unfold execAck
  repeat' first
    | intro _
    | with_reducible first | exact Steady.refl _ | apply OSteady.next | apply OSteady.nextIf | assumption
    | with_reducible first | apply ackMsg_steady | apply heard_steady
    | split | dsimp only
    | with_reducible apply Steady.upd

theorem nakMsg_steady {u : State} {n : Fin 16} {flags : Byte} {s : State} (hst : Steady u s) :
    Steady u (nakMsg n flags s) := by
  unfold nakMsg
  repeat' first
    | intro _
    | with_reducible first | assumption | apply State.bump_steady | apply noteOther_steady | apply requeueCfg_steady
    | with_reducible first | apply retransmit_steady
    | split | dsimp only
    | with_reducible apply Steady.upd

theorem execNak_steady (n : Fin 16) (rd : Bool) (syms : List (BitVec 10)) (s : State) :
    OSteady s (execNak n rd syms s) := by
  unfold execNak
  repeat' first
    | intro _
    | with_reducible first | exact Steady.refl _ | apply OSteady.next | apply OSteady.nextIf | assumption
    | with_reducible first | apply heard_steady | apply nakMsg_steady
    | split | dsimp only
    | with_reducible apply Steady.upd

theorem storePage_steady {u : State} {n : Fin 16} {pg : List Byte} {s : State} (hst : Steady u s) :
    Steady u (storePage n pg s) := by
  unfold storePage
  repeat' first
    | intro _
    | with_reducible first | assumption | apply State.setWord_steady | apply Steady.foldl
    | split | dsimp only

theorem linkUp_steady {u : State} {n : Fin 16} {s : State} (hst : Steady u s) :
    Steady u (linkUp n s) := by
  unfold linkUp
  repeat' first
    | intro _
    | with_reducible first | assumption | apply State.modWav_steady | apply setLink_steady
    | split | dsimp only
    | with_reducible apply Steady.upd

theorem statusMsg_steady {u : State} {n : Fin 16} {fsn : Byte} {flags : Byte} {pg : List Byte} {s : State} (hst : Steady u s) :
    Steady u (statusMsg n fsn flags pg s) := by
  unfold statusMsg
  repeat' first
    | intro _
    | with_reducible first | assumption | apply State.put_steady | apply State.modBrg_steady | apply linkUp_steady
    | with_reducible first | apply noteOther_steady | apply storePage_steady
    | split | dsimp only
    | with_reducible apply Steady.upd

theorem execStatusMessage_steady (n : Fin 16) (rd : Bool) (syms : List (BitVec 10)) (s : State) :
    OSteady s (execStatusMessage n rd syms s) := by
  unfold execStatusMessage
  repeat' first
    | intro _
    | with_reducible first | exact Steady.refl _ | apply OSteady.next | apply OSteady.nextIf | assumption
    | with_reducible first | apply heard_steady | apply statusMsg_steady
    | split | dsimp only
    | with_reducible apply Steady.upd

theorem trdyMsg_steady {u : State} {n : Fin 16} {flags : Byte} {s : State} (hst : Steady u s) :
    Steady u (trdyMsg n flags s) := by
  unfold trdyMsg
  repeat' first
    | intro _
    | with_reducible first | assumption | apply State.modBrg_steady | apply noteFlags_steady
    | split | dsimp only
    | with_reducible apply Steady.upd

theorem execTrdy_steady (n : Fin 16) (rd : Bool) (syms : List (BitVec 10)) (s : State) :
    OSteady s (execTrdy n rd syms s) := by
  unfold execTrdy
  repeat' first
    | intro _
    | with_reducible first | exact Steady.refl _ | apply OSteady.next | apply OSteady.nextIf | assumption
    | with_reducible first | apply heard_steady | apply trdyMsg_steady
    | split | dsimp only
    | with_reducible apply Steady.upd

theorem execAnswerTimeout_steady (n : Fin 16) (s : State) :
    OSteady s (execAnswerTimeout n s) := by
  unfold execAnswerTimeout
  repeat' first
    | intro _
    | with_reducible first | exact Steady.refl _ | apply OSteady.next | apply OSteady.nextIf | assumption
    | with_reducible first | apply State.bump_steady | apply retransmit_steady
    | split | dsimp only
    | with_reducible apply Steady.upd

theorem execReturnLaneLoss_steady (n : Fin 16) (s : State) :
    OSteady s (execReturnLaneLoss n s) := by
  unfold execReturnLaneLoss
  repeat' first
    | intro _
    | with_reducible first | exact Steady.refl _ | apply OSteady.next | apply OSteady.nextIf | assumption
    | with_reducible first | apply leaveLink_steady
    | split | dsimp only

theorem execHeadPresent_steady (n : Fin 16) (s : State) :
    OSteady s (execHeadPresent n s) := by
  unfold execHeadPresent
  repeat' first
    | intro _
    | with_reducible first | exact Steady.refl _ | apply OSteady.next | apply OSteady.nextIf | assumption
    | with_reducible first | apply State.put_steady | apply State.raiseCh_steady | apply startIdent_steady
    | split | dsimp only

theorem execHeadRemoved_steady (n : Fin 16) (s : State) :
    OSteady s (execHeadRemoved n s) := by
  unfold execHeadRemoved
  repeat' first
    | intro _
    | with_reducible first | exact Steady.refl _ | apply OSteady.next | apply OSteady.nextIf | assumption
    | with_reducible first | apply State.put_steady | apply State.inhibit_steady | apply State.raiseCh_steady
    | with_reducible first | apply linkOff_steady
    | split | dsimp only
    | with_reducible apply Steady.upd

theorem storeBytes_steady {u : State} {a : Nat} {bs : List Byte} {s : State} (hst : Steady u s) :
    Steady u (storeBytes a bs s) := by
  unfold storeBytes
  repeat' first
    | intro _
    | with_reducible first | assumption | apply State.setWord_steady | apply Steady.foldl
    | split | dsimp only

theorem startTrain_steady {u : State} {n : Fin 16} {s : State} (hst : Steady u s) :
    Steady u (startTrain n s) := by
  unfold startTrain
  repeat' first
    | intro _
    | with_reducible first | assumption | apply State.emit_steady | apply State.modBrg_steady | apply setLink_steady
    | split | dsimp only
    | with_reducible apply Steady.upd

theorem refuseHead_steady {u : State} {n : Fin 16} {s : State} (hst : Steady u s) :
    Steady u (refuseHead n s) := by
  unfold refuseHead
  repeat' first
    | intro _
    | with_reducible first | assumption | apply State.raiseCh_steady | apply setLink_steady
    | split | dsimp only

theorem execIdentityReadDone_steady (n : Fin 16) (rec : List Byte) (s : State) :
    OSteady s (execIdentityReadDone n rec s) := by
  unfold execIdentityReadDone
  repeat' first
    | intro _
    | with_reducible first | exact Steady.refl _ | apply OSteady.next | apply OSteady.nextIf | assumption
    | with_reducible first | apply State.modBrg_steady | apply State.setWord_steady | apply storeBytes_steady
    | with_reducible first | apply startTrain_steady | apply refuseHead_steady
    | split | dsimp only
    | with_reducible apply Steady.upd

theorem execI2cRetry_steady (n : Fin 16) (s : State) :
    OSteady s (execI2cRetry n s) := by
  unfold execI2cRetry
  repeat' first
    | intro _
    | with_reducible first | exact Steady.refl _ | apply OSteady.next | apply OSteady.nextIf | assumption
    | with_reducible first | apply State.modBrg_steady | apply State.put_steady | apply State.setWord_steady
    | with_reducible first | apply refuseHead_steady
    | split | dsimp only
    | with_reducible apply Steady.upd

theorem execTrimReadDone_steady (n : Fin 16) (trim : List Byte) (s : State) :
    OSteady s (execTrimReadDone n trim s) := by
  unfold execTrimReadDone
  repeat' first
    | intro _
    | with_reducible first | exact Steady.refl _ | apply OSteady.next | apply OSteady.nextIf | assumption
    | with_reducible first | apply State.modBrg_steady | apply State.put_steady | apply storeBytes_steady
    | split | dsimp only
    | with_reducible apply Steady.upd

theorem execTrainIdleDone_steady (n : Fin 16) (s : State) :
    OSteady s (execTrainIdleDone n s) := by
  unfold execTrainIdleDone
  repeat' first
    | intro _
    | with_reducible first | exact Steady.refl _ | apply OSteady.next | apply OSteady.nextIf | assumption
    | with_reducible first | apply State.modBrg_steady | apply newFrame_steady
    | split | dsimp only
    | with_reducible apply Steady.upd

theorem execTrainTimeout_steady (n : Fin 16) (s : State) :
    OSteady s (execTrainTimeout n s) := by
  unfold execTrainTimeout
  repeat' first
    | intro _
    | with_reducible first | exact Steady.refl _ | apply OSteady.next | apply OSteady.nextIf | assumption
    | with_reducible first | apply leaveLink_steady
    | split | dsimp only

theorem execAutoRetrain_steady (n : Fin 16) (s : State) :
    OSteady s (execAutoRetrain n s) := by
  unfold execAutoRetrain
  repeat' first
    | intro _
    | with_reducible first | exact Steady.refl _ | apply OSteady.next | apply OSteady.nextIf | assumption
    | with_reducible first | apply startIdent_steady
    | split | dsimp only

theorem linkEn_steady {u : State} {n : Fin 16} {v : Word} {s : State} (hst : Steady u s) :
    Steady u (linkEn n v s) := by
  unfold linkEn
  repeat' first
    | intro _
    | with_reducible first | assumption | apply State.setWord_steady | apply State.modBrg_steady
    | with_reducible first | apply State.hold_steady | apply settleOff_steady | apply startIdent_steady
    | split | dsimp only
    | with_reducible apply Steady.upd

theorem execLinkEnWrite_steady (m : Master) (n : Fin 16) (v : Word) (s : State) :
    OSteady s (execLinkEnWrite m n v s) := by
  unfold execLinkEnWrite
  repeat' first
    | intro _
    | with_reducible first | exact Steady.refl _ | apply OSteady.next | apply OSteady.nextIf | assumption
    | with_reducible first | apply State.wr_steady | apply linkEn_steady
    | split | dsimp only

theorem statReq_steady {u : State} {n : Fin 16} {v : Word} {s : State} (hst : Steady u s) :
    Steady u (statReq n v s) := by
  unfold statReq
  repeat' first
    | intro _
    | with_reducible first | assumption | apply State.modBrg_steady | apply State.put_steady
    | split | dsimp only
    | with_reducible apply Steady.upd

theorem execStatreqGo_steady (m : Master) (n : Fin 16) (v : Word) (s : State) :
    OSteady s (execStatreqGo m n v s) := by
  unfold execStatreqGo
  repeat' first
    | intro _
    | with_reducible first | exact Steady.refl _ | apply OSteady.next | apply OSteady.nextIf | assumption
    | with_reducible first | apply State.wr_steady | apply statReq_steady
    | split | dsimp only

theorem hcfgData_steady {u : State} {n : Fin 16} {v : Word} {s : State} (hst : Steady u s) :
    Steady u (hcfgData n v s) := by
  unfold hcfgData
  repeat' first
    | intro _
    | with_reducible first | assumption | apply State.modBrg_steady | apply State.put_steady
    | split | dsimp only
    | with_reducible apply Steady.upd

theorem execHcfgDataWrite_steady (m : Master) (n : Fin 16) (v : Word) (s : State) :
    OSteady s (execHcfgDataWrite m n v s) := by
  unfold execHcfgDataWrite
  repeat' first
    | intro _
    | with_reducible first | exact Steady.refl _ | apply OSteady.next | apply OSteady.nextIf | assumption
    | with_reducible first | apply State.wr_steady | apply hcfgData_steady
    | split | dsimp only

end Sys2Proof.Machine
end

