-- ==== Sys2Proof/Laws/SteadyUnits.lean ====
section
/-! SUPPORT. Steady steps: the commands of the Tuner, the inspection pipeline, the thermal manager, the motion engine and the capo slots. One lemma for each operation and each meaning. -/

namespace Sys2Proof.Machine

set_option linter.unusedTactic false
set_option linter.unreachableTactic false

/-! ## TunOps -/

theorem setEntry_steady {u : State} {c : Nat} {i : Nat} {k : Nat} {w : Word} {s : State} (hst : Steady u s) :
    Steady u (setEntry c i k w s) := by
  unfold setEntry
  repeat' first
    | intro _
    | with_reducible assumption
    | split | dsimp only
    | with_reducible apply Steady.upd

theorem setEff_steady {u : State} {c : Nat} {i : Nat} {v : Int} {s : State} (hst : Steady u s) :
    Steady u (setEff c i v s) := by
  unfold setEff
  repeat' first
    | intro _
    | with_reducible assumption
    | split | dsimp only
    | with_reducible apply Steady.upd

theorem tunClamp_steady {u : State} {c : Nat} {i : Nat} {v : Int} {s : State} (hst : Steady u s) :
    Steady u (tunClamp c i v s).2 := by
  unfold tunClamp
  repeat' first
    | intro _
    | with_reducible first | assumption | apply State.put_steady | apply State.raise_steady
    | split | dsimp only

theorem setRef_steady {u : State} {c : Nat} {i : Nat} {t : Option Int} {s : State} (hst : Steady u s) :
    Steady u (setRef c i t s) := by
  unfold setRef
  repeat' first
    | intro _
    | with_reducible first | assumption
    | split | dsimp only
    | with_reducible apply Steady.upd

theorem putEff_steady {u : State} {c : Nat} {i : Nat} {v : Int} {t : Option Int} {s : State} (hst : Steady u s) :
    Steady u (putEff c i v t s) := by
  unfold putEff
  repeat' first
    | intro _
    | with_reducible first | assumption | apply setEff_steady | apply setRef_steady
    | split | dsimp only
    | with_reducible apply Steady.upd

theorem unpend_steady {u : State} {c : Nat} {i : Nat} {s : State} (hst : Steady u s) :
    Steady u (unpend c i s) := by
  unfold unpend
  repeat' first
    | intro _
    | with_reducible first | assumption
    | split | dsimp only
    | with_reducible apply Steady.upd

theorem tunSet_steady {u : State} {c : Nat} {i : Nat} {v : Int} {t : Option Int} {s : State} (hst : Steady u s) :
    Steady u (tunSet c i v t s) := by
  unfold tunSet
  repeat' first
    | intro _
    | with_reducible first | assumption | apply putEff_steady | apply unpend_steady
    | split | dsimp only
    | with_reducible apply Steady.upd

theorem touch_steady {u : State} {key : Nat} {result : Bool} {s : State} (hst : Steady u s) :
    Steady u (touch key result s) := by
  unfold touch
  repeat' first
    | intro _
    | with_reducible first | assumption
    | split | dsimp only
    | with_reducible apply Steady.upd

theorem tunFile_steady {u : State} {c : Nat} {i : Nat} {r : Int} {t : Option Int} {s : State} (hst : Steady u s) :
    Steady u (tunFile c i r t s) := by
  unfold tunFile
  repeat' first
    | intro _
    | with_reducible first | assumption | apply State.put_steady | apply State.bump_steady
    | with_reducible first | apply State.setPair_steady | apply setEntry_steady | apply touch_steady
    | split | dsimp only
    | with_reducible apply Steady.upd

theorem tunResultAt_steady {u : State} {c : Nat} {i : Nat} {r : Int} {temp : Option Int} {s : State} (hst : Steady u s) :
    Steady u (tunResultAt c i r temp s) := by
  unfold tunResultAt
  repeat' first
    | intro _
    | with_reducible first | assumption | apply tunClamp_steady | apply tunFile_steady | apply tunSet_steady
    | split | dsimp only
    | with_reducible apply Steady.upd

theorem tunResult_steady {u : State} {c : Nat} {i : Nat} {r : Int} {s : State} (hst : Steady u s) :
    Steady u (tunResult c i r s) := by
  unfold tunResult
  repeat' first
    | intro _
    | with_reducible first | assumption | apply tunResultAt_steady
    | split | dsimp only
    | with_reducible apply Steady.upd

theorem dropGate_steady {u : State} {q : Nat → Bool} {s : State} (hst : Steady u s) :
    Steady u (dropGate q s) := by
  unfold dropGate
  repeat' first
    | intro _
    | with_reducible first | assumption
    | split | dsimp only
    | with_reducible apply Steady.upd

theorem tunInterp_steady {u : State} {c : Nat} {i : Nat} {t : Int} {s : State} (hst : Steady u s) :
    Steady u (tunInterp c i t s) := by
  unfold tunInterp
  repeat' first
    | intro _
    | with_reducible first | assumption | apply tunClamp_steady | apply tunSet_steady
    | split | dsimp only
    | with_reducible apply Steady.upd

theorem tunTrack_steady {u : State} {c : Nat} {i : Nat} {s : State} (hst : Steady u s) :
    Steady u (tunTrack c i s) := by
  unfold tunTrack
  repeat' first
    | intro _
    | with_reducible first | assumption | apply tunInterp_steady
    | split | dsimp only
    | with_reducible apply Steady.upd

theorem tunSensor_steady {u : State} {k : Nat} {s : State} (hst : Steady u s) :
    Steady u (tunSensor k s) := by
  unfold tunSensor
  repeat' first
    | intro _
    | with_reducible first | assumption | apply tunTrack_steady | apply Steady.foldl
    | split | dsimp only

theorem invalidate_steady {u : State} {q : Nat → Bool} {s : State} (hst : Steady u s) :
    Steady u (invalidate q s) := by
  unfold invalidate
  repeat' first
    | intro _
    | with_reducible first | assumption | apply Steady.foldl
    | split | dsimp only
    | with_reducible apply Steady.upd

theorem applyTun_steady {u : State} {s0 : State} {s : State} (hst : Steady u s) :
    Steady u (applyTun s0 s) := by
  unfold applyTun
  repeat' first
    | intro _
    | with_reducible first | assumption | apply invalidate_steady
    | split | dsimp only

theorem densResults_steady {u : State} {n : Fin 16} {ds : List (Nat × Nat)} {temp : Option Int} {s : State} (hst : Steady u s) :
    Steady u (densResults n ds temp s) := by
  unfold densResults
  repeat' first
    | intro _
    | with_reducible first | assumption | apply tunResultAt_steady | apply Steady.foldl
    | split | dsimp only
    | with_reducible apply Steady.upd

/-! ## Tuner -/

theorem noteSkip_steady {u : State} {c : Fin 5} {s : State} (hst : Steady u s) :
    Steady u (noteSkip c s) := by
  unfold noteSkip
  repeat' first
    | intro _
    | with_reducible first | assumption | apply State.put_steady | apply State.raise_steady
    | split | dsimp only
    | with_reducible apply Steady.upd

theorem execTunerSchedule_steady (c : Fin 5) (s : State) :
    OSteady s (execTunerSchedule c s) := by
  unfold execTunerSchedule
  repeat' first
    | intro _
    | with_reducible first | exact Steady.refl _ | apply OSteady.next | apply OSteady.nextIf | assumption
    | with_reducible first | apply noteSkip_steady
    | split | dsimp only
    | with_reducible apply Steady.upd

theorem measDone_steady {u : State} {c : Fin 3} {r : Option Int} {s : State} (hst : Steady u s) :
    Steady u (measDone c r s) := by
  unfold measDone
  repeat' first
    | intro _
    | with_reducible first | assumption | apply tunResult_steady
    | split | dsimp only
    | with_reducible apply Steady.upd

theorem execTunerMeasureDone_steady (c : Fin 5) (raw : Int) (ok : Bool) (s : State) :
    OSteady s (execTunerMeasureDone c raw ok s) := by
  unfold execTunerMeasureDone
  repeat' first
    | intro _
    | with_reducible first | exact Steady.refl _ | apply OSteady.next | apply OSteady.nextIf | assumption
    | with_reducible first | apply measDone_steady
    | split | dsimp only

theorem execOscGateDone_steady (cnt : Nat) (s : State) :
    OSteady s (execOscGateDone cnt s) := by
  unfold execOscGateDone
  repeat' first
    | intro _
    | with_reducible first | exact Steady.refl _ | apply OSteady.next | apply OSteady.nextIf | assumption
    | with_reducible first | apply measDone_steady
    | split | dsimp only
    | with_reducible apply Steady.upd

theorem tunTarget_steady {u : State} {c : Nat} {i : Nat} {w : Word} {s : State} (hst : Steady u s) :
    Steady u (tunTarget c i w s) := by
  unfold tunTarget
  repeat' first
    | intro _
    | with_reducible first | assumption | apply State.modWav_steady | apply State.put_steady
    | split | dsimp only
    | with_reducible apply Steady.upd

theorem execTunerApply_steady (c : Fin 5) (i : Nat) (s : State) :
    OSteady s (execTunerApply c i s) := by
  unfold execTunerApply
  repeat' first
    | intro _
    | with_reducible first | exact Steady.refl _ | apply OSteady.next | apply OSteady.nextIf | assumption
    | with_reducible first | apply putEff_steady | apply tunTarget_steady | apply unpend_steady
    | split | dsimp only
    | with_reducible apply Steady.upd

theorem setAdvance_steady {u : State} {s : State} (hst : Steady u s) :
    Steady u (setAdvance s) := by
  unfold setAdvance
  repeat' first
    | intro _
    | with_reducible first | assumption | apply State.put_steady
    | split | dsimp only

theorem setData_steady {u : State} {v : Word} {s : State} (hst : Steady u s) :
    Steady u (setData v s) := by
  unfold setData
  repeat' first
    | intro _
    | with_reducible first | assumption | apply State.put_steady | apply setAdvance_steady | apply setEntry_steady
    | with_reducible first | apply touch_steady | apply tunInterp_steady
    | split | dsimp only
    | with_reducible apply Steady.upd

theorem execTunSetdataWrite_steady (m : Master) (v : Word) (s : State) :
    OSteady s (execTunSetdataWrite m v s) := by
  unfold execTunSetdataWrite
  repeat' first
    | intro _
    | with_reducible first | exact Steady.refl _ | apply OSteady.next | apply OSteady.nextIf | assumption
    | with_reducible first | apply State.wr_steady | apply setData_steady
    | split | dsimp only

theorem execTunSetdataRead_steady (m : Master) (s : State) :
    OSteady s (execTunSetdataRead m s) := by
  unfold execTunSetdataRead
  repeat' first
    | intro _
    | with_reducible first | exact Steady.refl _ | apply OSteady.next | apply OSteady.nextIf | assumption
    | with_reducible first | apply State.rd_steady | apply setAdvance_steady
    | split | dsimp only

theorem fileScale_steady {u : State} {i : Nat} {new : Nat} {s : State} (hst : Steady u s) :
    Steady u (fileScale i new s).2 := by
  unfold fileScale
  repeat' first
    | intro _
    | with_reducible first | assumption | apply putEff_steady | apply tunClamp_steady | apply tunFile_steady
    | with_reducible first | apply unpend_steady
    | split | dsimp only
    | with_reducible apply Steady.upd

theorem scaleUpdate_steady {u : State} {n : Fin 16} {x : Meas} {pk : Nat} {s : State} (hst : Steady u s) :
    Steady u (scaleUpdate n x pk s) := by
  unfold scaleUpdate
  repeat' first
    | intro _
    | with_reducible first | assumption | apply State.put_steady | apply State.bump_steady | apply State.modWav_steady
    | with_reducible first | apply State.raiseCh_steady | apply fileScale_steady
    | split | dsimp only
    | with_reducible apply Steady.upd

theorem peakDone_steady {u : State} {n : Fin 16} {x : Meas} {pk : Nat} {s : State} (hst : Steady u s) :
    Steady u (peakDone n x pk s) := by
  unfold peakDone
  repeat' first
    | intro _
    | with_reducible first | assumption | apply State.put_steady | apply State.modWav_steady
    | with_reducible first | apply scaleUpdate_steady | apply Steady.foldl
    | split | dsimp only
    | with_reducible apply Steady.upd

theorem execWfbFrameMeasure_steady (n : Fin 16) (before : List Nat) (adc : List Nat) (s : State) :
    OSteady s (execWfbFrameMeasure n before adc s) := by
  unfold execWfbFrameMeasure
  repeat' first
    | intro _
    | with_reducible first | exact Steady.refl _ | apply OSteady.next | apply OSteady.nextIf | assumption
    | with_reducible first | apply State.put_steady | apply State.modWav_steady | apply State.raiseCh_steady
    | with_reducible first | apply peakDone_steady
    | split | dsimp only
    | with_reducible apply Steady.upd

/-! ## InsOps -/

theorem State.modCam_steady {u : State} {s : State} {p : Fin 2} {f : CamPort → CamPort} (hst : Steady u s) :
    Steady u (State.modCam s p f) := by
  unfold State.modCam
  repeat' first
    | intro _
    | with_reducible assumption
    | split | dsimp only
    | with_reducible apply Steady.upd

theorem camEvent_steady {u : State} {p : Fin 2} {e : Nat} {frame : Nat} {s : State} (hst : Steady u s) :
    Steady u (camEvent p e frame s) := by
  unfold camEvent
  repeat' first
    | intro _
    | with_reducible first | assumption | apply State.raise_steady | apply State.modCam_steady
    | split | dsimp only
    | with_reducible apply Steady.upd

theorem flagFrame_steady {u : State} {p : Fin 2} {k : Nat} {bit : Nat} {s : State} (hst : Steady u s) :
    Steady u (flagFrame p k bit s) := by
  unfold flagFrame
  repeat' first
    | intro _
    | with_reducible first | assumption | apply State.put_steady | apply State.modCam_steady | apply camEvent_steady
    | split | dsimp only
    | with_reducible apply Steady.upd

theorem putInFrame_steady {u : State} {p : Fin 2} {v : Nat} {s : State} (hst : Steady u s) :
    Steady u (putInFrame p v s) := by
  unfold putInFrame
  repeat' first
    | intro _
    | with_reducible first | assumption | apply State.put_steady
    | split | dsimp only

theorem runt_steady {u : State} {p : Fin 2} {frame : Nat} {s : State} (hst : Steady u s) :
    Steady u (runt p frame s) := by
  unfold runt
  repeat' first
    | intro _
    | with_reducible first | assumption | apply State.bump_steady | apply camEvent_steady
    | split | dsimp only

theorem closeFrame_steady {u : State} {p : Fin 2} {f : CamFrame} {s : State} (hst : Steady u s) :
    Steady u (closeFrame p f s) := by
  unfold closeFrame
  repeat' first
    | intro _
    | with_reducible first | assumption | apply State.modCam_steady | apply flagFrame_steady | apply runt_steady
    | split | dsimp only
    | with_reducible apply Steady.upd

theorem camLost_steady {u : State} {p : Fin 2} {s : State} (hst : Steady u s) :
    Steady u (camLost p s) := by
  unfold camLost
  repeat' first
    | intro _
    | with_reducible first | assumption | apply State.modCam_steady | apply closeFrame_steady
    | split | dsimp only
    | with_reducible apply Steady.upd

theorem tapLine_steady {u : State} {p : Fin 2} {f : CamFrame} {line : Nat} {point : Nat} {time : Nat} {data : List Byte} {s : State} (hst : Steady u s) :
    Steady u (tapLine p f line point time data s) := by
  unfold tapLine
  repeat' first
    | intro _
    | with_reducible first | assumption | apply State.put_steady | apply State.bump_steady | apply State.emit_steady
    | with_reducible first | apply State.modCam_steady | apply camEvent_steady
    | split | dsimp only
    | with_reducible apply Steady.upd

theorem processLine_steady {u : State} {p : Fin 2} {l : CamLine} {f : CamFrame} {s : State} (hst : Steady u s) :
    Steady u (processLine p l f s) := by
  unfold processLine
  repeat' first
    | intro _
    | with_reducible first | assumption | apply State.modCam_steady | apply tapLine_steady
    | split | dsimp only
    | with_reducible apply Steady.upd

theorem writeResult_steady {u : State} {kind : Nat} {n : Nat} {p : Nat} {flags : Nat} {nn : Nat} {nm : Nat} {aref : Nat} {frame : Nat} {time : Nat} {data : List Byte} {s : State} (hst : Steady u s) :
    Steady u (writeResult kind n p flags nn nm aref frame time data s) := by
  unfold writeResult
  repeat' first
    | intro _
    | with_reducible first | assumption | apply State.emit_steady | apply State.raise_steady
    | split | dsimp only
    | with_reducible apply Steady.upd

/-! ## Inspection -/

theorem execFrameStart_steady (p : Fin 2) (s : State) :
    OSteady s (execFrameStart p s) := by
  unfold execFrameStart
  repeat' first
    | intro _
    | with_reducible first | exact Steady.refl _ | apply OSteady.next | apply OSteady.nextIf | assumption
    | with_reducible first | apply State.setWord_steady | apply State.wrapAdd_steady | apply State.modCam_steady
    | with_reducible first | apply putInFrame_steady
    | split | dsimp only
    | with_reducible apply Steady.upd

theorem execLineStart_steady (p : Fin 2) (s : State) :
    OSteady s (execLineStart p s) := by
  unfold execLineStart
  repeat' first
    | intro _
    | with_reducible first | exact Steady.refl _ | apply OSteady.next | apply OSteady.nextIf | assumption
    | with_reducible first | apply State.bump_steady | apply State.modCam_steady | apply camEvent_steady
    | with_reducible first | apply flagFrame_steady
    | split | dsimp only
    | with_reducible apply Steady.upd

theorem takeLine_steady {u : State} {p : Fin 2} {f : CamFrame} {l : CamLine} {s : State} (hst : Steady u s) :
    Steady u (takeLine p f l s) := by
  unfold takeLine
  repeat' first
    | intro _
    | with_reducible first | assumption | apply State.modCam_steady | apply tapLine_steady
    | split | dsimp only
    | with_reducible apply Steady.upd

theorem execLineEnd_steady (p : Fin 2) (cycles : List (CamSample × CamSample)) (s : State) :
    OSteady s (execLineEnd p cycles s) := by
  unfold execLineEnd
  repeat' first
    | intro _
    | with_reducible first | exact Steady.refl _ | apply OSteady.next | apply OSteady.nextIf | assumption
    | with_reducible first | apply State.bump_steady | apply State.modCam_steady | apply runt_steady
    | with_reducible first | apply takeLine_steady
    | split | dsimp only
    | with_reducible apply Steady.upd

theorem applyPort_steady {u : State} {p : Fin 2} {s : State} (hst : Steady u s) :
    Steady u (applyPort p s) := by
  unfold applyPort
  repeat' first
    | intro _
    | with_reducible first | assumption | apply applyAll_steady
    | split | dsimp only

theorem execFrameEnd_steady (p : Fin 2) (s : State) :
    OSteady s (execFrameEnd p s) := by
  unfold execFrameEnd
  repeat' first
    | intro _
    | with_reducible first | exact Steady.refl _ | apply OSteady.next | apply OSteady.nextIf | assumption
    | with_reducible first | apply capoCond_steady | apply State.modCam_steady | apply putInFrame_steady
    | with_reducible first | apply closeFrame_steady | apply applyPort_steady
    | split | dsimp only
    | with_reducible apply Steady.upd

theorem execFrameTimeout_steady (p : Fin 2) (s : State) :
    OSteady s (execFrameTimeout p s) := by
  unfold execFrameTimeout
  repeat' first
    | intro _
    | with_reducible first | exact Steady.refl _ | apply OSteady.next | apply OSteady.nextIf | assumption
    | with_reducible first | apply State.modCam_steady | apply flagFrame_steady
    | split | dsimp only
    | with_reducible apply Steady.upd

theorem execPipelineTake_steady (s : State) :
    OSteady s (execPipelineTake s) := by
  unfold execPipelineTake
  repeat' first
    | intro _
    | with_reducible first | exact Steady.refl _ | apply OSteady.next | apply OSteady.nextIf | assumption
    | with_reducible first | apply State.modCam_steady | apply processLine_steady
    | split | dsimp only
    | with_reducible apply Steady.upd

theorem analyseLadder_steady {u : State} {n : Fin 16} {p : Fin 2} {f : CamFrame} {l : LadSet} {printed : List Nat} {s : State} (hst : Steady u s) :
    Steady u (analyseLadder n p f l printed s) := by
  unfold analyseLadder
  extract_lets nn meas am ms med aref res cnt ls time s1 s2 s3 s4
  have hs1 : Steady u s1 := by
    unfold s1
    repeat' first
      | intro _
      | with_reducible first | assumption
      | split | dsimp only
      | with_reducible apply Steady.upd
  clear_value s1
  have hs2 : Steady u s2 := by
    unfold s2
    repeat' first
      | intro _
      | with_reducible first | assumption | apply State.put_steady
      | split | dsimp only
      | with_reducible apply Steady.upd
  clear_value s2
  have hs3 : Steady u s3 := by
    unfold s3
    repeat' first
      | intro _
      | with_reducible first | assumption | apply writeResult_steady
      | split | dsimp only
      | with_reducible apply Steady.upd
  clear_value s3
  have hs4 : Steady u s4 := by
    unfold s4
    repeat' first
      | intro _
      | with_reducible first | assumption | apply State.modCam_steady
      | split | dsimp only
      | with_reducible apply Steady.upd
  clear_value s4
  repeat' first
    | intro _
    | with_reducible first | assumption
    | split | dsimp only
    | with_reducible apply Steady.upd

theorem execLadderAnalysis_steady (n : Fin 16) (printed : List Nat) (s : State) :
    OSteady s (execLadderAnalysis n printed s) := by
  unfold execLadderAnalysis
  repeat' first
    | intro _
    | with_reducible first | exact Steady.refl _ | apply OSteady.next | apply OSteady.nextIf | assumption
    | with_reducible first | apply analyseLadder_steady
    | split | dsimp only
    | with_reducible apply Steady.upd

theorem profile_steady {u : State} {n : Fin 16} {p : Fin 2} {f : CamFrame} {l : LadSet} {s : State} (hst : Steady u s) :
    Steady u (profile n p f l s) := by
  unfold profile
  extract_lets nn ls dens ds data got time s1 s2 s3 temp
  have hs1 : Steady u s1 := by
    unfold s1
    repeat' first
      | intro _
      | with_reducible first | assumption
      | split | dsimp only
      | with_reducible apply Steady.upd
  clear_value s1
  have hs2 : Steady u s2 := by
    unfold s2
    repeat' first
      | intro _
      | with_reducible first | assumption | apply writeResult_steady
      | split | dsimp only
      | with_reducible apply Steady.upd
  clear_value s2
  have hs3 : Steady u s3 := by
    unfold s3
    repeat' first
      | intro _
      | with_reducible first | assumption | apply State.modCam_steady
      | split | dsimp only
      | with_reducible apply Steady.upd
  clear_value s3
  repeat' first
    | intro _
    | with_reducible first | assumption | apply densResults_steady
    | split | dsimp only
    | with_reducible apply Steady.upd

theorem execDensityProfile_steady (n : Fin 16) (s : State) :
    OSteady s (execDensityProfile n s) := by
  unfold execDensityProfile
  repeat' first
    | intro _
    | with_reducible first | exact Steady.refl _ | apply OSteady.next | apply OSteady.nextIf | assumption
    | with_reducible first | apply profile_steady
    | split | dsimp only
    | with_reducible apply Steady.upd

theorem execLadArm_steady (m : Master) (p : Fin 2) (s : State) :
    OSteady s (execLadArm m p s) := by
  unfold execLadArm
  repeat' first
    | intro _
    | with_reducible first | exact Steady.refl _ | apply OSteady.next | apply OSteady.nextIf | assumption
    | with_reducible first | apply State.put_steady | apply State.wr_steady
    | split | dsimp only

theorem execDensArm_steady (m : Master) (p : Fin 2) (s : State) :
    OSteady s (execDensArm m p s) := by
  unfold execDensArm
  repeat' first
    | intro _
    | with_reducible first | exact Steady.refl _ | apply OSteady.next | apply OSteady.nextIf | assumption
    | with_reducible first | apply State.put_steady | apply State.wr_steady
    | split | dsimp only

theorem tblWrite_steady {u : State} {v : Word} {s : State} (hst : Steady u s) :
    Steady u (tblWrite v s) := by
  unfold tblWrite
  repeat' first
    | intro _
    | with_reducible first | assumption | apply State.put_steady | apply State.wrapAdd_steady
    | split | dsimp only
    | with_reducible apply Steady.upd

theorem execInsTbldataWrite_steady (m : Master) (v : Word) (s : State) :
    OSteady s (execInsTbldataWrite m v s) := by
  unfold execInsTbldataWrite
  repeat' first
    | intro _
    | with_reducible first | exact Steady.refl _ | apply OSteady.next | apply OSteady.nextIf | assumption
    | with_reducible first | apply State.wr_steady | apply tblWrite_steady
    | split | dsimp only

theorem execInsTbldataRead_steady (m : Master) (s : State) :
    OSteady s (execInsTbldataRead m s) := by
  unfold execInsTbldataRead
  repeat' first
    | intro _
    | with_reducible first | exact Steady.refl _ | apply OSteady.next | apply OSteady.nextIf | assumption
    | with_reducible first | apply State.takeFree_steady | apply State.wrapAdd_steady | apply State.rd_steady
    | split | dsimp only

/-! ## PowerOps -/

theorem clearWork_steady {u : State} {n : Fin 16} {s : State} (hst : Steady u s) :
    Steady u (clearWork n s) := by
  unfold clearWork
  repeat' first
    | intro _
    | with_reducible first | assumption | apply State.modWork_steady | apply State.put_steady
    | split | dsimp only

theorem resetFe_steady {u : State} {i : Fin 17} {s : State} (hst : Steady u s) :
    Steady u (resetFe i s) := by
  unfold resetFe
  repeat' first
    | intro _
    | with_reducible assumption
    | split | dsimp only
    | with_reducible apply Steady.upd

theorem chanGone_steady {u : State} {n : Fin 16} {s : State} (hst : Steady u s) :
    Steady u (chanGone n s) := by
  unfold chanGone
  extract_lets s0 s1 s2 s3 b s4 s5 s6
  have hs0 : Steady u s0 := by
    unfold s0
    repeat' first
      | intro _
      | with_reducible first | assumption | apply dropTracker_steady | apply withFrets_steady | apply Steady.foldl
      | split | dsimp only
      | with_reducible apply Steady.upd
  clear_value s0
  have hs1 : Steady u s1 := by
    unfold s1
    repeat' first
      | intro _
      | with_reducible first | assumption | apply State.emit_steady
      | split | dsimp only
      | with_reducible apply Steady.upd
  clear_value s1
  have hs2 : Steady u s2 := by
    unfold s2
    repeat' first
      | intro _
      | with_reducible first | assumption | apply State.dropDomain_steady | apply clearWork_steady
      | with_reducible first | apply resetFe_steady
      | split | dsimp only
      | with_reducible apply Steady.upd
  clear_value s2
  have hs3 : Steady u s3 := by
    unfold s3
    repeat' first
      | intro _
      | with_reducible first | assumption | apply State.modCh_steady
      | split | dsimp only
      | with_reducible apply Steady.upd
  clear_value s3
  clear_value b
  have hs4 : Steady u s4 := by
    unfold s4
    repeat' first
      | intro _
      | with_reducible first | assumption
      | split | dsimp only
      | with_reducible apply Steady.upd
  clear_value s4
  have hs5 : Steady u s5 := by
    unfold s5
    repeat' first
      | intro _
      | with_reducible first | assumption | apply State.put_steady
      | split | dsimp only
      | with_reducible apply Steady.upd
  clear_value s5
  have hs6 : Steady u s6 := by
    unfold s6
    repeat' first
      | intro _
      | with_reducible first | assumption | apply clearInbound_steady | apply dropHeld_steady
      | with_reducible first | apply releaseLocks_steady
      | split | dsimp only
      | with_reducible apply Steady.upd
  clear_value s6
  repeat' first
    | intro _
    | with_reducible first | assumption | apply loseParts_steady
    | split | dsimp only
    | with_reducible apply Steady.upd

theorem loseSys_steady {u : State} {b : Nat} {s : State} (hst : Steady u s) :
    Steady u (loseSys b s) := by
  unfold loseSys
  repeat' first
    | intro _
    | with_reducible first | assumption | apply loseParts_steady
    | split | dsimp only
    | with_reducible apply Steady.upd

theorem supDown_steady {u : State} {s : State} (hst : Steady u s) :
    Steady u (supDown s) := by
  unfold supDown
  repeat' first
    | intro _
    | with_reducible first | assumption
    | split | dsimp only
    | with_reducible apply Steady.upd

theorem supGone_steady {u : State} {s : State} (hst : Steady u s) :
    Steady u (supGone s) := by
  unfold supGone
  extract_lets s1 s2 s3 s4
  have hs1 : Steady u s1 := by
    unfold s1
    repeat' first
      | intro _
      | with_reducible first | assumption | apply supDown_steady
      | split | dsimp only
      | with_reducible apply Steady.upd
  clear_value s1
  have hs2 : Steady u s2 := by
    unfold s2
    repeat' first
      | intro _
      | with_reducible first | assumption | apply clearInbound_steady | apply Steady.foldl
      | split | dsimp only
      | with_reducible apply Steady.upd
  clear_value s2
  have hs3 : Steady u s3 := by
    unfold s3
    repeat' first
      | intro _
      | with_reducible first | assumption | apply dropHeld_steady | apply releaseLocks_steady
      | split | dsimp only
      | with_reducible apply Steady.upd
  clear_value s3
  have hs4 : Steady u s4 := by
    unfold s4
    repeat' first
      | intro _
      | with_reducible first | assumption | apply State.dropDomain_steady | apply abortOwned_steady
      | split | dsimp only
      | with_reducible apply Steady.upd
  clear_value s4
  repeat' first
    | intro _
    | with_reducible first | assumption
    | split | dsimp only
    | with_reducible apply Steady.upd

theorem supReset_steady {u : State} {lock : Bool} {s : State} (hst : Steady u s) :
    Steady u (supReset lock s) := by
  unfold supReset
  repeat' first
    | intro _
    | with_reducible first | assumption | apply State.put_steady | apply supGone_steady
    | split | dsimp only

theorem domGone_steady {u : State} {d : Nat} {s : State} (hst : Steady u s) :
    Steady u (domGone d s) := by
  unfold domGone
  repeat' first
    | intro _
    | with_reducible first | assumption | apply State.dropDomain_steady | apply State.eachCh_steady
    | with_reducible first | apply camLost_steady | apply chanGone_steady | apply loseSys_steady
    | with_reducible first | apply resetFe_steady | apply supGone_steady | apply syncTrackers_steady
    | split | dsimp only
    | with_reducible apply Steady.upd

theorem haltDom_steady {u : State} {d : Nat} {s : State} (hst : Steady u s) :
    Steady u (haltDom d s) := by
  unfold haltDom
  repeat' first
    | intro _
    | with_reducible first | assumption | apply State.hold_steady
    | split | dsimp only
    | with_reducible apply Steady.upd

theorem beginRamp_steady {u : State} {d : Nat} {on : Bool} {s : State} (hst : Steady u s) :
    Steady u (beginRamp d on s) := by
  unfold beginRamp
  repeat' first
    | intro _
    | with_reducible first | assumption | apply State.setDom_steady | apply domGone_steady
    | split | dsimp only
    | with_reducible apply Steady.upd

theorem startRamp_steady {u : State} {s : State} (hst : Steady u s) :
    Steady u (startRamp s) := by
  unfold startRamp
  repeat' first
    | intro _
    | with_reducible first | assumption | apply beginRamp_steady | apply haltDom_steady
    | split | dsimp only
    | with_reducible apply Steady.upd

theorem acceptDom_steady {u : State} {d : Nat} {on : Bool} {s : State} (hst : Steady u s) :
    Steady u (acceptDom d on s) := by
  unfold acceptDom
  repeat' first
    | intro _
    | with_reducible assumption
    | split | dsimp only
    | with_reducible apply Steady.upd

theorem requestDom_steady {u : State} {byPf0 : Bool} {d : Nat} {on : Bool} {s : State} (hst : Steady u s) :
    Steady u (requestDom byPf0 d on s) := by
  unfold requestDom
  repeat' first
    | intro _
    | with_reducible first | assumption | apply State.put_steady | apply abortWaiting_steady | apply acceptDom_steady
    | split | dsimp only

theorem dropSwitched_steady {u s : State} (hst : Steady u s) : Steady u (dropSwitched s) :=
  hst.trans ⟨rfl, rfl, sparseWf_drop _ _, fun _ => rfl⟩

theorem domsAtReset_steady {u : State} {s : State} (hst : Steady u s) :
    Steady u (domsAtReset s) := by
  unfold domsAtReset
  repeat' first
    | intro _
    | with_reducible first | assumption | apply State.setWord_steady
    | split | dsimp only

theorem startBoot_steady {u : State} {s : State} (hst : Steady u s) :
    Steady u (startBoot s) := by
  unfold startBoot
  repeat' first
    | intro _
    | with_reducible first | assumption
    | split | dsimp only
    | with_reducible apply Steady.upd

theorem supRunsAgain_steady {u : State} {s : State} (hst : Steady u s) :
    Steady u (supRunsAgain s) := by
  unfold supRunsAgain
  repeat' first
    | intro _
    | with_reducible assumption
    | split | dsimp only
    | with_reducible apply Steady.upd

/-! ## Thermal -/

theorem modSens_steady {u : State} {k : Fin 48} {f : Sens → Sens} {s : State} (hst : Steady u s) :
    Steady u (modSens k f s) := by
  unfold modSens
  repeat' first
    | intro _
    | with_reducible assumption
    | split | dsimp only
    | with_reducible apply Steady.upd

theorem crossCheck_steady {u : State} {k : Fin 48} {t : Int} {s : State} (hst : Steady u s) :
    Steady u (crossCheck k t s) := by
  unfold crossCheck
  repeat' first
    | intro _
    | with_reducible first | assumption | apply State.put_steady | apply modSens_steady
    | split | dsimp only
    | with_reducible apply Steady.upd

theorem thmValue_steady {u : State} {k : Fin 48} {s : State} (hst : Steady u s) :
    Steady u (thmValue k s) := by
  unfold thmValue
  repeat' first
    | intro _
    | with_reducible first | assumption | apply State.put_steady | apply modSens_steady
    | split | dsimp only
    | with_reducible apply Steady.upd

theorem headTemp_steady {u : State} {n : Fin 16} {s : State} (hst : Steady u s) :
    Steady u (headTemp n s) := by
  unfold headTemp
  repeat' first
    | intro _
    | with_reducible first | assumption | apply State.put_steady | apply State.setWord_steady
    | split | dsimp only

theorem levelHit_steady {u : State} {bit : Fld} {hit : Bool} {f : State → State} {s : State} (hst : Steady u s) (hf : ∀ (x0 : State), Steady u x0 → Steady u (f x0)) :
    Steady u (levelHit bit hit f s) := by
  unfold levelHit
  repeat' first
    | intro _
    | with_reducible first | assumption | apply hf | apply State.put_steady
    | split | dsimp only

theorem headLevels_steady {u : State} {n : Fin 16} {s : State} (hst : Steady u s) :
    Steady u (headLevels n s) := by
  unfold headLevels
  repeat' first
    | intro _
    | with_reducible first | assumption | apply State.put_steady | apply heaterOff_steady | apply State.raise_steady
    | with_reducible first | apply State.hold_steady | apply State.inhibit_steady | apply levelHit_steady
    | split | dsimp only

theorem setStep_steady {u : State} {n : Nat} {s : State} (hst : Steady u s) :
    Steady u (setStep n s) := by
  unfold setStep
  repeat' first
    | intro _
    | with_reducible first | assumption | apply State.put_steady | apply State.raise_steady
    | split | dsimp only
    | with_reducible apply Steady.upd

theorem startShut_steady {u : State} {s : State} (hst : Steady u s) :
    Steady u (startShut s) := by
  unfold startShut
  repeat' first
    | intro _
    | with_reducible first | assumption | apply State.eachCh_steady | apply State.put_steady | apply State.hold_steady
    | split | dsimp only
    | with_reducible apply Steady.upd

theorem dieFollow_steady {u : State} {s : State} (hst : Steady u s) :
    Steady u (dieFollow s) := by
  unfold dieFollow
  repeat' first
    | intro _
    | with_reducible first | assumption | apply State.put_steady | apply State.raise_steady | apply setStep_steady
    | with_reducible first | apply startShut_steady
    | split | dsimp only
    | with_reducible apply Steady.upd

theorem forceHeater_steady {u : State} {n : Fin 16} {s : State} (hst : Steady u s) :
    Steady u (forceHeater n s) := by
  unfold forceHeater
  repeat' first
    | intro _
    | with_reducible first | assumption | apply heaterOff_steady
    | split | dsimp only
    | with_reducible apply Steady.upd

theorem sensFollow_steady {u : State} {k : Fin 48} {s : State} (hst : Steady u s) :
    Steady u (sensFollow k s) := by
  unfold sensFollow
  repeat' first
    | intro _
    | with_reducible first | assumption | apply State.put_steady | apply State.eachCh_steady | apply dieFollow_steady
    | with_reducible first | apply forceHeater_steady | apply headLevels_steady | apply headTemp_steady
    | with_reducible first | apply tunSensor_steady
    | split | dsimp only
    | with_reducible apply Steady.upd

theorem execSensorConversion_steady (k : Fin 48) (code : Nat) (s : State) :
    OSteady s (execSensorConversion k code s) := by
  unfold execSensorConversion
  repeat' first
    | intro _
    | with_reducible first | exact Steady.refl _ | apply OSteady.next | apply OSteady.nextIf | assumption
    | with_reducible first | apply State.put_steady | apply State.raise_steady | apply modSens_steady
    | with_reducible first | apply crossCheck_steady | apply thmValue_steady | apply sensFollow_steady
    | split | dsimp only
    | with_reducible apply Steady.upd

theorem sensFailClear_steady {u : State} {k : Fin 48} {s : State} (hst : Steady u s) :
    Steady u (sensFailClear k s) := by
  unfold sensFailClear
  repeat' first
    | intro _
    | with_reducible first | assumption | apply State.put_steady | apply State.raise_steady | apply thmValue_steady
    | with_reducible first | apply sensFollow_steady
    | split | dsimp only

theorem execSensorFailClear_steady (m : Master) (k : Fin 48) (s : State) :
    OSteady s (execSensorFailClear m k s) := by
  unfold execSensorFailClear
  repeat' first
    | intro _
    | with_reducible first | exact Steady.refl _ | apply OSteady.next | apply OSteady.nextIf | assumption
    | with_reducible first | apply State.wr_steady | apply sensFailClear_steady
    | split | dsimp only

theorem heaterUpdate_steady {u : State} {n : Fin 16} {s : State} (hst : Steady u s) :
    Steady u (heaterUpdate n s) := by
  unfold heaterUpdate
  repeat' first
    | intro _
    | with_reducible first | assumption | apply State.put_steady | apply State.raise_steady | apply heaterOff_steady
    | with_reducible first | apply levelHit_steady
    | split | dsimp only
    | with_reducible apply Steady.upd

theorem execHeaterUpdate_steady (s : State) :
    OSteady s (execHeaterUpdate s) := by
  unfold execHeaterUpdate
  repeat' first
    | intro _
    | with_reducible first | exact Steady.refl _ | apply OSteady.next | apply OSteady.nextIf | assumption
    | with_reducible first | apply State.eachCh_steady | apply heaterUpdate_steady
    | split | dsimp only

theorem shutOff_steady {u s : State} (hst : Steady u s) : Steady u (shutOff s) := by
  have h1 : Steady u { s with thm := { s.thm with shutTick := none } } := hst.trans ⟨rfl, rfl, id, id⟩
  unfold shutOff
  with_reducible apply startRamp_steady
  with_reducible apply Steady.foldl h1
  intro t d h
  with_reducible exact acceptDom_steady h

theorem execThmShut_steady (s : State) :
    OSteady s (execThmShut s) := by
  unfold execThmShut
  repeat' first
    | intro _
    | with_reducible first | exact Steady.refl _ | apply OSteady.next | apply OSteady.nextIf | assumption
    | with_reducible first | apply State.raise_steady | apply State.enterSafe_steady | apply shutOff_steady
    | split | dsimp only
    | with_reducible apply Steady.upd

theorem execDieTrip_steady (s : State) :
    OSteady s (execDieTrip s) := by
  unfold execDieTrip
  repeat' first
    | intro _
    | with_reducible first | exact Steady.refl _ | apply OSteady.next | apply OSteady.nextIf | assumption
    | with_reducible first | apply State.put_steady | apply State.raise_steady | apply State.enterSafe_steady
    | with_reducible first | apply shutOff_steady
    | split | dsimp only

theorem thmStatWrite_steady {u : State} {v : Word} {s : State} (hst : Steady u s) :
    Steady u (thmStatWrite v s) := by
  unfold thmStatWrite
  repeat' first
    | intro _
    | with_reducible first | assumption | apply State.put_steady
    | split | dsimp only
    | with_reducible apply Steady.upd

theorem execThmShutClear_steady (m : Master) (v : Word) (s : State) :
    OSteady s (execThmShutClear m v s) := by
  unfold execThmShutClear
  repeat' first
    | intro _
    | with_reducible first | exact Steady.refl _ | apply OSteady.next | apply OSteady.nextIf | assumption
    | with_reducible first | apply State.wr_steady | apply thmStatWrite_steady
    | split | dsimp only

theorem chstatWrite_steady {u : State} {v : Word} {s : State} (hst : Steady u s) :
    Steady u (chstatWrite v s) := by
  unfold chstatWrite
  repeat' first
    | intro _
    | with_reducible first | assumption | apply State.eachCh_steady | apply State.put_steady
    | with_reducible first | apply State.refreshHolds_steady
    | split | dsimp only

theorem execThmChstatClear_steady (m : Master) (v : Word) (s : State) :
    OSteady s (execThmChstatClear m v s) := by
  unfold execThmChstatClear
  repeat' first
    | intro _
    | with_reducible first | exact Steady.refl _ | apply OSteady.next | apply OSteady.nextIf | assumption
    | with_reducible first | apply State.wr_steady | apply chstatWrite_steady
    | split | dsimp only

theorem thmTblWrite_steady {u : State} {v : Word} {s : State} (hst : Steady u s) :
    Steady u (thmTblWrite v s) := by
  unfold thmTblWrite
  repeat' first
    | intro _
    | with_reducible first | assumption | apply State.put_steady | apply State.wrapAdd_steady
    | split | dsimp only
    | with_reducible apply Steady.upd

theorem execThmTbldataWrite_steady (m : Master) (v : Word) (s : State) :
    OSteady s (execThmTbldataWrite m v s) := by
  unfold execThmTbldataWrite
  repeat' first
    | intro _
    | with_reducible first | exact Steady.refl _ | apply OSteady.next | apply OSteady.nextIf | assumption
    | with_reducible first | apply State.wr_steady | apply thmTblWrite_steady
    | split | dsimp only

theorem applyThm_steady {u : State} {s0 : State} {s : State} (hst : Steady u s) :
    Steady u (applyThm s0 s) := by
  unfold applyThm
  repeat' first
    | intro _
    | with_reducible first | assumption | apply State.eachCh_steady | apply forceHeater_steady | apply headTemp_steady
    | split | dsimp only
    | with_reducible apply Steady.upd

/-! ## Motion -/

theorem modCoil_steady {u : State} {a : Fin 4} {c : Coil} {f : CoilSt → CoilSt} {s : State} (hst : Steady u s) :
    Steady u (modCoil a c f s) := by
  unfold modCoil
  repeat' first
    | intro _
    | with_reducible first | assumption | apply State.modAxis_steady
    | split | dsimp only
    | with_reducible apply Steady.upd

theorem coilFollow_steady {u : State} {a : Fin 4} {c : Coil} {s : State} (hst : Steady u s) :
    Steady u (coilFollow a c s) := by
  unfold coilFollow
  repeat' first
    | intro _
    | with_reducible first | assumption | apply modCoil_steady
    | split | dsimp only
    | with_reducible apply Steady.upd

theorem coilsFollow_steady {u : State} {a : Fin 4} {s : State} (hst : Steady u s) :
    Steady u (coilsFollow a s) := by
  unfold coilsFollow
  repeat' first
    | intro _
    | with_reducible first | assumption | apply coilFollow_steady
    | split | dsimp only

theorem queuePulses_steady {u : State} {a : Fin 4} {s : State} (hst : Steady u s) :
    Steady u (queuePulses a s) := by
  unfold queuePulses
  repeat' first
    | intro _
    | with_reducible first | assumption | apply State.put_steady | apply State.modAxis_steady | apply axisFault_steady
    | split | dsimp only
    | with_reducible apply Steady.upd

theorem axisMoved_steady {u : State} {a : Fin 4} {s0 : State} {s : State} (hst : Steady u s) :
    Steady u (axisMoved a s0 s) := by
  unfold axisMoved
  repeat' first
    | intro _
    | with_reducible first | assumption | apply State.put_steady | apply State.modAxis_steady
    | with_reducible first | apply coilsFollow_steady | apply queuePulses_steady
    | split | dsimp only
    | with_reducible apply Steady.upd

theorem axisProfile_steady {u : State} {a : Fin 4} {s : State} (hst : Steady u s) :
    Steady u (axisProfile a s) := by
  unfold axisProfile
  extract_lets ax mode r wrapped sh hist moved snapped arrived s1 s2
  have hs1 : Steady u s1 := by
    unfold s1
    repeat' first
      | intro _
      | with_reducible first | assumption | apply State.put_steady | apply State.modAxis_steady
      | with_reducible first | apply State.raise_steady | apply axisMoved_steady
      | split | dsimp only
      | with_reducible apply Steady.upd
  clear_value s1
  have hs2 : Steady u s2 := by
    unfold s2
    repeat' first
      | intro _
      | with_reducible first | assumption | apply State.put_steady | apply State.modAxis_steady
      | with_reducible first | apply State.raise_steady | apply axisMoved_steady
      | split | dsimp only
      | with_reducible apply Steady.upd
  clear_value s2
  repeat' first
    | intro _
    | with_reducible first | assumption | apply State.put_steady | apply State.modAxis_steady
    | with_reducible first | apply State.raise_steady | apply axisMoved_steady
    | split | dsimp only
    | with_reducible apply Steady.upd

theorem gearFast_steady {u : State} {a : Fin 4} {s : State} (hst : Steady u s) :
    Steady u (gearFast a s) := by
  unfold gearFast
  repeat' first
    | intro _
    | with_reducible first | assumption | apply axisFault_steady
    | split | dsimp only
    | with_reducible apply Steady.upd

theorem gearCheck_steady {u : State} {a : Fin 4} {s : State} (hst : Steady u s) :
    Steady u (gearCheck a s) := by
  unfold gearCheck
  repeat' first
    | intro _
    | with_reducible first | assumption | apply axisFault_steady | apply gearFast_steady
    | split | dsimp only
    | with_reducible apply Steady.upd

theorem axisTick_steady {u : State} {a : Fin 4} {s : State} (hst : Steady u s) :
    Steady u (axisTick a s) := by
  unfold axisTick
  extract_lets s1 s2 x
  have hs1 : Steady u s1 := by
    unfold s1
    repeat' first
      | intro _
      | with_reducible first | assumption | apply State.put_steady | apply State.modAxis_steady
      | with_reducible first | apply coilsFollow_steady | apply axisProfile_steady | apply gearCheck_steady
      | split | dsimp only
      | with_reducible apply Steady.upd
  clear_value s1
  have hs2 : Steady u s2 := by
    unfold s2
    repeat' first
      | intro _
      | with_reducible first | assumption | apply State.put_steady | apply State.modAxis_steady
      | with_reducible first | apply coilsFollow_steady | apply axisProfile_steady | apply gearCheck_steady
      | split | dsimp only
      | with_reducible apply Steady.upd
  clear_value s2
  repeat' first
    | intro _
    | with_reducible first | assumption | apply State.put_steady | apply State.modAxis_steady
    | with_reducible first | apply coilsFollow_steady | apply axisProfile_steady | apply gearCheck_steady
    | split | dsimp only
    | with_reducible apply Steady.upd

theorem gearTake_steady {u : State} {a : Fin 4} {s : State} (hst : Steady u s) :
    Steady u (gearTake a s) := by
  unfold gearTake
  repeat' first
    | intro _
    | with_reducible first | assumption | apply State.modAxis_steady
    | split | dsimp only
    | with_reducible apply Steady.upd

theorem execGearMasterCount_steady (x : Fin 4) (s : State) :
    OSteady s (execGearMasterCount x s) := by
  unfold execGearMasterCount
  repeat' first
    | intro _
    | with_reducible first | exact Steady.refl _ | apply OSteady.next | apply OSteady.nextIf | assumption
    | with_reducible first | apply State.modAxis_steady | apply axisFault_steady | apply axisMoved_steady
    | with_reducible first | apply gearFast_steady | apply gearTake_steady
    | split | dsimp only
    | with_reducible apply Steady.upd

theorem execStepInput_steady (x : Fin 4) (dir : Bool) (s : State) :
    OSteady s (execStepInput x dir s) := by
  unfold execStepInput
  repeat' first
    | intro _
    | with_reducible first | exact Steady.refl _ | apply OSteady.next | apply OSteady.nextIf | assumption
    | with_reducible first | apply State.modAxis_steady | apply axisFault_steady | apply axisMoved_steady
    | split | dsimp only
    | with_reducible apply Steady.upd

theorem execStepinInterpolate_steady (x : Fin 4) (s : State) :
    OSteady s (execStepinInterpolate x s) := by
  unfold execStepinInterpolate
  repeat' first
    | intro _
    | with_reducible first | exact Steady.refl _ | apply OSteady.next | apply OSteady.nextIf | assumption
    | with_reducible first | apply State.modAxis_steady | apply axisMoved_steady
    | split | dsimp only
    | with_reducible apply Steady.upd

theorem toDecay_steady {u : State} {a : Fin 4} {c : Coil} {s : State} (hst : Steady u s) :
    Steady u (toDecay a c s) := by
  unfold toDecay
  repeat' first
    | intro _
    | with_reducible first | assumption | apply modCoil_steady
    | split | dsimp only
    | with_reducible apply Steady.upd

theorem toDrive_steady {u : State} {a : Fin 4} {c : Coil} {s : State} (hst : Steady u s) :
    Steady u (toDrive a c s) := by
  unfold toDrive
  repeat' first
    | intro _
    | with_reducible first | assumption | apply modCoil_steady
    | split | dsimp only
    | with_reducible apply Steady.upd

theorem execChopperComparator_steady (x : Fin 4) (c : Coil) (s : State) :
    OSteady s (execChopperComparator x c s) := by
  unfold execChopperComparator
  repeat' first
    | intro _
    | with_reducible first | exact Steady.refl _ | apply OSteady.next | apply OSteady.nextIf | assumption
    | with_reducible first | apply axisFault_steady | apply modCoil_steady | apply toDecay_steady
    | with_reducible first | apply toDrive_steady
    | split | dsimp only
    | with_reducible apply Steady.upd

theorem execChopperPhaseTimeout_steady (x : Fin 4) (c : Coil) (s : State) :
    OSteady s (execChopperPhaseTimeout x c s) := by
  unfold execChopperPhaseTimeout
  repeat' first
    | intro _
    | with_reducible first | exact Steady.refl _ | apply OSteady.next | apply OSteady.nextIf | assumption
    | with_reducible first | apply axisFault_steady | apply modCoil_steady | apply toDecay_steady
    | with_reducible first | apply toDrive_steady
    | split | dsimp only
    | with_reducible apply Steady.upd

theorem execChopperProbe_steady (x : Fin 4) (c : Coil) (high : Bool) (s : State) :
    OSteady s (execChopperProbe x c high s) := by
  unfold execChopperProbe
  repeat' first
    | intro _
    | with_reducible first | exact Steady.refl _ | apply OSteady.next | apply OSteady.nextIf | assumption
    | with_reducible first | apply State.put_steady | apply modCoil_steady
    | split | dsimp only
    | with_reducible apply Steady.upd

theorem noteGates_steady {u : State} {s : State} (hst : Steady u s) :
    Steady u (noteGates s) := by
  unfold noteGates
  repeat' first
    | intro _
    | with_reducible first | assumption | apply modCoil_steady | apply Steady.foldl
    | split | dsimp only
    | with_reducible apply Steady.upd

theorem execStepOutputPulse_steady (x : Fin 4) (s : State) :
    OSteady s (execStepOutputPulse x s) := by
  unfold execStepOutputPulse
  repeat' first
    | intro _
    | with_reducible first | exact Steady.refl _ | apply OSteady.next | apply OSteady.nextIf | assumption
    | with_reducible first | apply State.emit_steady | apply State.put_steady | apply State.modAxis_steady
    | split | dsimp only
    | with_reducible apply Steady.upd

theorem execStandstill_steady (x : Fin 4) (s : State) :
    OSteady s (execStandstill x s) := by
  unfold execStandstill
  repeat' first
    | intro _
    | with_reducible first | exact Steady.refl _ | apply OSteady.next | apply OSteady.nextIf | assumption
    | with_reducible first | apply State.put_steady | apply coilsFollow_steady
    | split | dsimp only

theorem axFaultClear_steady {u : State} {x : Fin 4} {s : State} (hst : Steady u s) :
    Steady u (axFaultClear x s) := by
  unfold axFaultClear
  repeat' first
    | intro _
    | with_reducible first | assumption | apply State.put_steady | apply State.modAxis_steady
    | split | dsimp only
    | with_reducible apply Steady.upd

theorem axStatWrite_steady {u : State} {x : Fin 4} {v : Word} {s : State} (hst : Steady u s) :
    Steady u (axStatWrite x v s) := by
  unfold axStatWrite
  repeat' first
    | intro _
    | with_reducible first | assumption | apply State.put_steady | apply axFaultClear_steady
    | split | dsimp only

theorem execAxisFaultClear_steady (m : Master) (x : Fin 4) (s : State) :
    OSteady s (execAxisFaultClear m x s) := by
  unfold execAxisFaultClear
  repeat' first
    | intro _
    | with_reducible first | exact Steady.refl _ | apply OSteady.next | apply OSteady.nextIf | assumption
    | with_reducible first | apply State.wr_steady | apply axFaultClear_steady
    | split | dsimp only

theorem wtabWrite_steady {u : State} {k : Nat} {v : Word} {s : State} (hst : Steady u s) :
    Steady u (wtabWrite k v s) := by
  unfold wtabWrite
  repeat' first
    | intro _
    | with_reducible first | assumption | apply State.put_steady | apply State.setWord_steady
    | split | dsimp only

theorem execWtabWrite_steady (m : Master) (k : Nat) (v : Word) (s : State) :
    OSteady s (execWtabWrite m k v s) := by
  unfold execWtabWrite
  repeat' first
    | intro _
    | with_reducible first | exact Steady.refl _ | apply OSteady.next | apply OSteady.nextIf | assumption
    | with_reducible first | apply State.wr_steady | apply wtabWrite_steady
    | split | dsimp only

theorem leaveMode_steady {u : State} {a : Fin 4} {m0 : Nat} {m : Nat} {s : State} (hst : Steady u s) :
    Steady u (leaveMode a m0 m s) := by
  unfold leaveMode
  repeat' first
    | intro _
    | with_reducible first | assumption | apply State.modAxis_steady
    | split | dsimp only
    | with_reducible apply Steady.upd

theorem regear_steady {u : State} {a : Fin 4} {m0 : Nat} {s0 : State} {s : State} (hst : Steady u s) :
    Steady u (regear a m0 s0 s) := by
  unfold regear
  repeat' first
    | intro _
    | with_reducible first | assumption | apply State.modAxis_steady
    | split | dsimp only
    | with_reducible apply Steady.upd

theorem fillHist_steady {u : State} {a : Fin 4} {on : Bool} {s : State} (hst : Steady u s) :
    Steady u (fillHist a on s) := by
  unfold fillHist
  repeat' first
    | intro _
    | with_reducible first | assumption | apply State.setWord_steady | apply State.modAxis_steady
    | split | dsimp only
    | with_reducible apply Steady.upd

theorem releaseAxis_steady {u : State} {a : Fin 4} {s0 : State} {s : State} (hst : Steady u s) :
    Steady u (releaseAxis a s0 s) := by
  unfold releaseAxis
  repeat' first
    | intro _
    | with_reducible first | assumption | apply State.put_steady | apply State.modAxis_steady
    | split | dsimp only
    | with_reducible apply Steady.upd

theorem applyAxis_steady {u : State} {a : Fin 4} {s0 : State} {s : State} (hst : Steady u s) :
    Steady u (applyAxis a s0 s) := by
  unfold applyAxis
  extract_lets m0 on live was s6 s7 s8 unit same s9
  have hs6 : Steady u s6 := by
    unfold s6
    repeat' first
      | intro _
      | with_reducible first | assumption | apply State.modAxis_steady | apply fillHist_steady
      | with_reducible first | apply leaveMode_steady | apply regear_steady
      | split | dsimp only
      | with_reducible apply Steady.upd
  clear_value s6
  have hs7 : Steady u s7 := by
    unfold s7
    repeat' first
      | intro _
      | with_reducible first | assumption | apply releaseAxis_steady
      | split | dsimp only
      | with_reducible apply Steady.upd
  clear_value s7
  have hs8 : Steady u s8 := by
    unfold s8
    repeat' first
      | intro _
      | with_reducible first | assumption | apply stopAxis_steady
      | split | dsimp only
      | with_reducible apply Steady.upd
  clear_value s8
  have hs9 : Steady u s9 := by
    unfold s9
    repeat' first
      | intro _
      | with_reducible first | assumption | apply State.modAxis_steady | apply axisMoved_steady
      | split | dsimp only
      | with_reducible apply Steady.upd
  clear_value s9
  repeat' first
    | intro _
    | with_reducible first | assumption | apply State.put_steady | apply coilsFollow_steady
    | split | dsimp only
    | with_reducible apply Steady.upd

theorem applyMot_steady {u : State} {s0 : State} {s : State} (hst : Steady u s) :
    Steady u (applyMot s0 s) := by
  unfold applyMot
  repeat' first
    | intro _
    | with_reducible first | assumption | apply applyAxis_steady | apply gearFaults_steady | apply Steady.foldl
    | split | dsimp only
    | with_reducible apply Steady.upd

theorem applyMotDue_steady {u : State} {s : State} (hst : Steady u s) :
    Steady u (applyMotDue s) := by
  unfold applyMotDue
  repeat' first
    | intro _
    | with_reducible first | assumption | apply applyIn_steady | apply applyMot_steady
    | split | dsimp only
    | with_reducible apply Steady.upd

theorem execProfileTick_steady (s : State) :
    OSteady s (execProfileTick s) := by
  unfold execProfileTick
  repeat' first
    | intro _
    | with_reducible first | exact Steady.refl _ | apply OSteady.next | apply OSteady.nextIf | assumption
    | with_reducible first | apply applyMotDue_steady | apply axisTick_steady | apply Steady.foldl
    | split | dsimp only
    | with_reducible apply Steady.upd

/-! ## Capo -/

theorem openSlot_steady {u : State} {m : Master} {impl : Bool} {t : Fin 16} {s : State} (hst : Steady u s) :
    Steady u (openSlot m impl t s) := by
  unfold openSlot
  repeat' first
    | intro _
    | with_reducible first | assumption | apply State.put_steady | apply State.setWord_steady
    | with_reducible first | apply State.modSlot_steady
    | split | dsimp only

theorem allocTx_steady {u : State} {m : Master} {s : State} (hst : Steady u s) :
    Steady u (allocTx m s).2 := by
  unfold allocTx
  repeat' first
    | intro _
    | with_reducible first | assumption | apply openSlot_steady
    | split | dsimp only
    | with_reducible apply Steady.upd

theorem noteParts_steady {u : State} {t : Fin 16} {s : State} (hst : Steady u s) :
    Steady u (noteParts t s) := by
  unfold noteParts
  repeat' first
    | intro _
    | with_reducible first | assumption | apply State.put_steady | apply Steady.foldl
    | split | dsimp only
    | with_reducible apply Steady.upd

theorem capoDrop_steady {u : State} {s : State} (hst : Steady u s) :
    Steady u (capoDrop s) := by
  unfold capoDrop
  repeat' first
    | intro _
    | with_reducible first | assumption | apply State.put_steady | apply State.raise_steady
    | split | dsimp only

theorem stageEntry_steady {u : State} {t : Fin 16} {a : Nat} {v : Word} {s : State} (hst : Steady u s) :
    Steady u (stageEntry t a v s) := by
  unfold stageEntry
  repeat' first
    | intro _
    | with_reducible first | assumption | apply State.put_steady | apply State.modSlot_steady | apply noteParts_steady
    | with_reducible first | apply capoDrop_steady
    | split | dsimp only
    | with_reducible apply Steady.upd

theorem directPart_steady {u : State} {a : Nat} {v : Word} {s : State} (hst : Steady u s) :
    Steady u (directPart a v s) := by
  unfold directPart
  repeat' first
    | intro _
    | with_reducible first | assumption | apply State.eachCh_steady | apply State.setWord_steady
    | with_reducible first | apply heaterOff_steady
    | split | dsimp only

theorem stagedWrite_steady {u : State} {m : Master} {t : Fin 16} {a : Nat} {v : Word} {s : State} (hst : Steady u s) :
    Steady u (stagedWrite m t a v s) := by
  unfold stagedWrite
  repeat' first
    | intro _
    | with_reducible first | assumption | apply stageEntry_steady | apply directPart_steady
    | split | dsimp only

theorem cmdRef_steady {u : State} {t : Fin 16} {s : State} (hst : Steady u s) :
    Steady u (cmdRef t s) := by
  unfold cmdRef
  repeat' first
    | intro _
    | with_reducible first | assumption | apply State.put_steady
    | split | dsimp only

theorem cmdTaken_steady {u : State} {t : Fin 16} {s : State} (hst : Steady u s) :
    Steady u (cmdTaken t s) := by
  unfold cmdTaken
  repeat' first
    | intro _
    | with_reducible first | assumption | apply State.put_steady
    | split | dsimp only

theorem enterTx_steady {u : State} {t : Fin 16} {v : Nat} {s : State} (hst : Steady u s) :
    Steady u (enterTx t v s) := by
  unfold enterTx
  repeat' first
    | intro _
    | with_reducible first | assumption | apply State.put_steady | apply State.modSlot_steady
    | split | dsimp only
    | with_reducible apply Steady.upd

theorem commitTx_steady {u : State} {m : Master} {t : Fin 16} {s : State} (hst : Steady u s) :
    Steady u (commitTx m t s) := by
  unfold commitTx
  repeat' first
    | intro _
    | with_reducible first | assumption | apply State.put_steady | apply State.setPair_steady
    | with_reducible first | apply State.raise_steady | apply abortSlot_steady | apply cmdRef_steady
    | with_reducible first | apply cmdTaken_steady | apply enterTx_steady | apply unbind_steady
    | split | dsimp only
    | with_reducible apply Steady.upd

theorem execCapoAlloc_steady (m : Master) (s : State) :
    OSteady s (execCapoAlloc m s) := by
  unfold execCapoAlloc
  repeat' first
    | intro _
    | with_reducible first | exact Steady.refl _ | apply OSteady.next | apply OSteady.nextIf | assumption
    | with_reducible first | apply State.rd_steady | apply allocTx_steady
    | split | dsimp only

theorem bindWrite_steady {u : State} {m : Master} {v : Word} {s : State} (hst : Steady u s) :
    Steady u (bindWrite m v s) := by
  unfold bindWrite
  repeat' first
    | intro _
    | with_reducible first | assumption | apply State.put_steady
    | split | dsimp only
    | with_reducible apply Steady.upd

theorem execCapoBind_steady (m : Master) (v : Word) (s : State) :
    OSteady s (execCapoBind m v s) := by
  unfold execCapoBind
  repeat' first
    | intro _
    | with_reducible first | exact Steady.refl _ | apply OSteady.next | apply OSteady.nextIf | assumption
    | with_reducible first | apply State.wr_steady | apply bindWrite_steady
    | split | dsimp only

theorem implicitTx_steady {u : State} {m : Master} {a : Nat} {v : Word} {s : State} (hst : Steady u s) :
    Steady u (implicitTx m a v s) := by
  unfold implicitTx
  extract_lets s1
  have hs1 : Steady u s1 := by
    unfold s1
    repeat' first
      | intro _
      | with_reducible first | assumption | apply State.put_steady | apply openSlot_steady | apply capoDrop_steady
      | with_reducible first | apply stageEntry_steady | apply directPart_steady | apply commitTx_steady
      | split | dsimp only
      | with_reducible apply Steady.upd
  clear_value s1
  repeat' first
    | intro _
    | with_reducible first | assumption | apply State.put_steady | apply openSlot_steady | apply capoDrop_steady
    | with_reducible first | apply stageEntry_steady | apply directPart_steady | apply commitTx_steady
    | split | dsimp only
    | with_reducible apply Steady.upd

theorem stagedBusWrite_steady {u : State} {m : Master} {a : Nat} {v : Word} {s : State} (hst : Steady u s) :
    Steady u (stagedBusWrite m a v s) := by
  unfold stagedBusWrite
  repeat' first
    | intro _
    | with_reducible first | assumption | apply implicitTx_steady | apply stagedWrite_steady
    | split | dsimp only
    | with_reducible apply Steady.upd

theorem execStagedWrite_steady (m : Master) (a : Nat) (v : Word) (s : State) :
    OSteady s (execStagedWrite m a v s) := by
  unfold execStagedWrite
  repeat' first
    | intro _
    | with_reducible first | exact Steady.refl _ | apply OSteady.next | apply OSteady.nextIf | assumption
    | with_reducible first | apply stagedBusWrite_steady
    | split | dsimp only
    | with_reducible apply Steady.upd

theorem execImplicitTransaction_steady (m : Master) (a : Nat) (v : Word) (s : State) :
    OSteady s (execImplicitTransaction m a v s) := by
  unfold execImplicitTransaction
  repeat' first
    | intro _
    | with_reducible first | exact Steady.refl _ | apply OSteady.next | apply OSteady.nextIf | assumption
    | with_reducible first | apply implicitTx_steady
    | split | dsimp only

theorem txCmd_steady {u : State} {m : Master} {t : Fin 16} {c : Nat} {s : State} (hst : Steady u s) :
    Steady u (txCmd m t c s) := by
  unfold txCmd
  repeat' first
    | intro _
    | with_reducible first | assumption | apply abortSlot_steady | apply cmdRef_steady | apply cmdTaken_steady
    | with_reducible first | apply commitTx_steady | apply freeSlot_steady
    | split | dsimp only
    | with_reducible apply Steady.upd

theorem execCapoCommit_steady (m : Master) (t : Fin 16) (s : State) :
    OSteady s (execCapoCommit m t s) := by
  unfold execCapoCommit
  repeat' first
    | intro _
    | with_reducible first | exact Steady.refl _ | apply OSteady.next | apply OSteady.nextIf | assumption
    | with_reducible first | apply State.wr_steady | apply txCmd_steady
    | split | dsimp only

theorem execCapoAbort_steady (m : Master) (t : Fin 16) (s : State) :
    OSteady s (execCapoAbort m t s) := by
  unfold execCapoAbort
  repeat' first
    | intro _
    | with_reducible first | exact Steady.refl _ | apply OSteady.next | apply OSteady.nextIf | assumption
    | with_reducible first | apply State.wr_steady | apply txCmd_steady
    | split | dsimp only

theorem execCapoRelease_steady (m : Master) (t : Fin 16) (s : State) :
    OSteady s (execCapoRelease m t s) := by
  unfold execCapoRelease
  repeat' first
    | intro _
    | with_reducible first | exact Steady.refl _ | apply OSteady.next | apply OSteady.nextIf | assumption
    | with_reducible first | apply State.wr_steady | apply txCmd_steady
    | split | dsimp only

theorem noVote_steady {u : State} {t : Fin 16} {p : Part} {r : Nat} {s : State} (hst : Steady u s) :
    Steady u (noVote t p r s) := by
  unfold noVote
  repeat' first
    | intro _
    | with_reducible first | assumption | apply State.put_steady
    | split | dsimp only

theorem execCapoVote_steady (t : Fin 16) (p : Part) (eccUe : Bool) (s : State) :
    OSteady s (execCapoVote t p eccUe s) := by
  unfold execCapoVote
  repeat' first
    | intro _
    | with_reducible first | exact Steady.refl _ | apply OSteady.next | apply OSteady.nextIf | assumption
    | with_reducible first | apply State.modSlot_steady | apply abortSlot_steady | apply enterTx_steady
    | with_reducible first | apply noVote_steady
    | split | dsimp only
    | with_reducible apply Steady.upd

theorem execVoteWithdraw_steady (t : Fin 16) (p : Part) (eccUe : Bool) (s : State) :
    OSteady s (execVoteWithdraw t p eccUe s) := by
  unfold execVoteWithdraw
  repeat' first
    | intro _
    | with_reducible first | exact Steady.refl _ | apply OSteady.next | apply OSteady.nextIf | assumption
    | with_reducible first | apply abortSlot_steady | apply noVote_steady
    | split | dsimp only
    | with_reducible apply Steady.upd

theorem execVotetmo_steady (t : Fin 16) (s : State) :
    OSteady s (execVotetmo t s) := by
  unfold execVotetmo
  repeat' first
    | intro _
    | with_reducible first | exact Steady.refl _ | apply OSteady.next | apply OSteady.nextIf | assumption
    | with_reducible first | apply abortSlot_steady
    | split | dsimp only

theorem execCmttmo_steady (t : Fin 16) (s : State) :
    OSteady s (execCmttmo t s) := by
  unfold execCmttmo
  repeat' first
    | intro _
    | with_reducible first | exact Steady.refl _ | apply OSteady.next | apply OSteady.nextIf | assumption
    | with_reducible first | apply abortSlot_steady
    | split | dsimp only

theorem applyNow_steady {u : State} {s : State} (hst : Steady u s) :
    Steady u (applyNow s) := by
  unfold applyNow
  extract_lets s1 s3 s4 s5 s6
  have hs1 : Steady u s1 := by
    unfold s1
    repeat' first
      | intro _
      | with_reducible first | assumption | apply applyAll_steady | apply applyPos_steady
      | split | dsimp only
      | with_reducible apply Steady.upd
  clear_value s1
  have hs3 : Steady u s3 := by
    unfold s3
    repeat' first
      | intro _
      | with_reducible first | assumption | apply applyAll_steady | apply applyThm_steady
      | split | dsimp only
      | with_reducible apply Steady.upd
  clear_value s3
  have hs4 : Steady u s4 := by
    unfold s4
    repeat' first
      | intro _
      | with_reducible first | assumption | apply applyAll_steady | apply applyTun_steady
      | split | dsimp only
      | with_reducible apply Steady.upd
  clear_value s4
  have hs5 : Steady u s5 := by
    unfold s5
    repeat' first
      | intro _
      | with_reducible first | assumption | apply applyAll_steady
      | split | dsimp only
      | with_reducible apply Steady.upd
  clear_value s5
  have hs6 : Steady u s6 := by
    unfold s6
    repeat' first
      | intro _
      | with_reducible first | assumption | apply State.refreshHolds_steady | apply applyAll_steady
      | split | dsimp only
      | with_reducible apply Steady.upd
  clear_value s6
  repeat' first
    | intro _
    | with_reducible first | assumption | apply State.eachCh_steady | apply applyAll_steady | apply applyBrg_steady
    | with_reducible first | apply applyFt_steady | apply applyImg_steady
    | split | dsimp only
    | with_reducible apply Steady.upd

theorem applyFrame_steady {u : State} {t : Fin 16} {s : State} (hst : Steady u s) :
    Steady u (applyFrame t s) := by
  unfold applyFrame
  repeat' first
    | intro _
    | with_reducible first | assumption | apply finishSlot_steady | apply applyWords_steady
    | split | dsimp only

theorem execCommitInstant_steady (s : State) :
    OSteady s (execCommitInstant s) := by
  unfold execCommitInstant
  repeat' first
    | intro _
    | with_reducible first | exact Steady.refl _ | apply OSteady.next | apply OSteady.nextIf | assumption
    | with_reducible first | apply State.put_steady | apply State.setPair_steady | apply State.emit_steady
    | with_reducible first | apply applyFrame_steady | apply applyNow_steady | apply finishSlot_steady
    | with_reducible first | apply Steady.foldl
    | split | dsimp only
    | with_reducible apply Steady.upd

theorem execParticipantApply_steady (t : Fin 16) (p : Part) (s : State) :
    OSteady s (execParticipantApply t p s) := by
  unfold execParticipantApply
  repeat' first
    | intro _
    | with_reducible first | exact Steady.refl _ | apply OSteady.next | apply OSteady.nextIf | assumption
    | with_reducible first | apply applyAll_steady | apply applyFt_steady | apply applyImg_steady
    | with_reducible first | apply applyMotDue_steady
    | split | dsimp only
    | with_reducible apply Steady.upd

theorem cfmRes_steady {u : State} {m : Master} {r : Nat} {s : State} (hst : Steady u s) :
    Steady u (cfmRes m r s) := by
  unfold cfmRes
  repeat' first
    | intro _
    | with_reducible first | assumption | apply State.put_steady
    | split | dsimp only

theorem confirm_steady {u : State} {m : Master} {s : State} (hst : Steady u s) :
    Steady u (confirm m s) := by
  unfold confirm
  repeat' first
    | intro _
    | with_reducible first | assumption | apply abortSlot_steady | apply enterTx_steady | apply cfmRes_steady
    | split | dsimp only
    | with_reducible apply Steady.upd

theorem cfmHiWrite_steady {u : State} {m : Master} {v : Word} {s : State} (hst : Steady u s) :
    Steady u (cfmHiWrite m v s) := by
  unfold cfmHiWrite
  repeat' first
    | intro _
    | with_reducible first | assumption | apply State.setWord_steady | apply confirm_steady
    | split | dsimp only

theorem execProtCfmHiWrite_steady (m : Master) (v : Word) (s : State) :
    OSteady s (execProtCfmHiWrite m v s) := by
  unfold execProtCfmHiWrite
  repeat' first
    | intro _
    | with_reducible first | exact Steady.refl _ | apply OSteady.next | apply OSteady.nextIf | assumption
    | with_reducible first | apply State.wr_steady | apply cfmHiWrite_steady
    | split | dsimp only

theorem execConfirmTimeout_steady (s : State) :
    OSteady s (execConfirmTimeout s) := by
  unfold execConfirmTimeout
  repeat' first
    | intro _
    | with_reducible first | exact Steady.refl _ | apply OSteady.next | apply OSteady.nextIf | assumption
    | with_reducible first | apply abortSlot_steady | apply Steady.foldl
    | split | dsimp only

/-! ## Heal -/

theorem writeBanks_steady {u : State} {n : Fin 16} {bank : Nat} {ws : List Word} {s : State} (hst : Steady u s) :
    Steady u (writeBanks n bank ws s) := by
  unfold writeBanks
  repeat' first
    | intro _
    | with_reducible first | assumption | apply State.setWord_steady | apply Steady.foldl
    | split | dsimp only

theorem launch_steady {u : State} {t : Fin 16} {r : Round} {s : State} (hst : Steady u s) : Steady u (launch t r s) := by
  have h2 (l : List Nat) (s1 : State) (h : Steady u s1) :
      Steady u (l.foldl (fun (s : State) (n : Nat) => match chOf n with
        | some k => stageEntry t (A.CHn_IMG_BANK k) (s.bankToggle k) s
        | none => s) s1) := by
    apply Steady.foldl h
    intro s n h
    split
    · exact stageEntry_steady h
    · exact h
  unfold launch
  with_reducible apply commitTx_steady
  with_reducible apply insPut_steady
  with_reducible apply Steady.upd
  exact h2 _ _ (openSlot_steady hst)

theorem startTest_steady {u : State} {n : Fin 16} {t : Fin 16} {x : NozTest} {s : State} (hst : Steady u s) :
    Steady u (startTest n t x s) := by
  unfold startTest
  repeat' first
    | intro _
    | with_reducible first | assumption | apply State.modIso_steady | apply writeBanks_steady | apply launch_steady
    | split | dsimp only
    | with_reducible apply Steady.upd

theorem restoreTest_steady {u : State} {n : Fin 16} {s : State} (hst : Steady u s) :
    Steady u (restoreTest n s) := by
  unfold restoreTest
  repeat' first
    | intro _
    | with_reducible first | assumption | apply modTest_steady | apply writeBanks_steady | apply launch_steady
    | split | dsimp only
    | with_reducible apply Steady.upd

theorem takeTest_steady {u : State} {n : Fin 16} {x : NozTest} {h : HealRes} {t : Fin 16} {s : State} (hst : Steady u s) :
    Steady u (takeTest n x h t s) := by
  unfold takeTest
  repeat' first
    | intro _
    | with_reducible first | assumption | apply State.bump_steady | apply State.raise_steady | apply launch_steady
    | with_reducible first | apply modTest_steady | apply skipChan_steady | apply writeBanks_steady
    | split | dsimp only
    | with_reducible apply Steady.upd

theorem execNoztestTimeout_steady (n : Fin 16) (s : State) :
    OSteady s (execNoztestTimeout n s) := by
  unfold execNoztestTimeout
  repeat' first
    | intro _
    | with_reducible first | exact Steady.refl _ | apply OSteady.next | apply OSteady.nextIf | assumption
    | with_reducible first | apply restoreTest_steady
    | split | dsimp only
    | with_reducible apply Steady.upd

theorem runRound_steady {u : State} {h : HealSet} {t : Fin 16} {s : State} (hst : Steady u s) :
    Steady u (runRound h t s) := by
  unfold runRound
  repeat' first
    | intro _
    | with_reducible first | assumption | apply State.bump_steady | apply State.raise_steady | apply insPut_steady
    | with_reducible first | apply skipChan_steady | apply writeBanks_steady | apply launch_steady
    | with_reducible first | apply Steady.foldl
    | split | dsimp only
    | with_reducible apply Steady.upd

theorem execHealRound_steady (s : State) :
    OSteady s (execHealRound s) := by
  unfold execHealRound
  repeat' first
    | intro _
    | with_reducible first | exact Steady.refl _ | apply OSteady.next | apply OSteady.nextIf | assumption
    | with_reducible first | apply restoreTest_steady | apply runRound_steady | apply takeTest_steady
    | split | dsimp only
    | with_reducible apply Steady.upd

end Sys2Proof.Machine
end

