-- ==== Sys2Proof/Laws/SteadySys.lean ====
section
/-! SUPPORT. Steady steps: the commands of power and clocks, the host port, the registers, the faults, the Safety port, the services and start-up. One lemma for each operation and each meaning. -/

namespace Sys2Proof.Machine

set_option linter.unusedTactic false
set_option linter.unreachableTactic false

/-! ## NvmOps -/

theorem setFailRec_steady {u : State} {sl : Slot} {v : Option Nat} {s : State} (hst : Steady u s) :
    Steady u (setFailRec sl v s) := by
  unfold setFailRec
  repeat' first
    | intro _
    | with_reducible assumption
    | split | dsimp only
    | with_reducible apply Steady.upd

theorem endRec_steady {u : State} {s0 : State} {sl : Slot} {s : State} (hst : Steady u s) :
    Steady u (endRec s0 sl s) := by
  unfold endRec
  repeat' first
    | intro _
    | with_reducible first | assumption | apply setFailRec_steady
    | split | dsimp only
    | with_reducible apply Steady.upd

theorem setFlash_steady {u : State} {a : Nat} {bs : List Byte} {s : State} (hst : Steady u s) :
    Steady u (setFlash a bs s) := by
  unfold setFlash
  repeat' first
    | intro _
    | with_reducible first | assumption | apply endRec_steady | apply Steady.foldl
    | split | dsimp only
    | with_reducible apply Steady.upd

theorem noteSlot_steady {u : State} {sl : Slot} {cause : Nat} {s : State} (hst : Steady u s) :
    Steady u (noteSlot sl cause s) := by
  unfold noteSlot
  repeat' first
    | intro _
    | with_reducible first | assumption | apply State.setWord_steady
    | split | dsimp only

theorem failNvm_steady {u : State} {err : Nat} {s : State} (hst : Steady u s) :
    Steady u (failNvm err s) := by
  unfold failNvm
  repeat' first
    | intro _
    | with_reducible first | assumption | apply State.put_steady | apply State.raise_steady | apply setFlash_steady
    | split | dsimp only
    | with_reducible apply Steady.upd

theorem nvmGo_steady {u : State} {s : State} (hst : Steady u s) :
    Steady u (nvmGo s) := by
  unfold nvmGo
  repeat' first
    | intro _
    | with_reducible first | assumption | apply State.put_steady | apply State.raise_steady
    | split | dsimp only
    | with_reducible apply Steady.upd

theorem nvmCmdWrite_steady {u : State} {v : Word} {s : State} (hst : Steady u s) :
    Steady u (nvmCmdWrite v s) := by
  unfold nvmCmdWrite
  repeat' first
    | intro _
    | with_reducible first | assumption | apply State.put_steady | apply nvmGo_steady
    | split | dsimp only

theorem setPref_steady {u : State} {pref : Nat} {once : Bool} {s : State} (hst : Steady u s) :
    Steady u (setPref pref once s) := by
  unfold setPref
  repeat' first
    | intro _
    | with_reducible first | assumption
    | split | dsimp only
    | with_reducible apply Steady.upd

theorem nvWait_steady {u : State} {w : NvWait} {s : State} (hst : Steady u s) :
    Steady u (nvWait w s) := by
  unfold nvWait
  repeat' first
    | intro _
    | with_reducible first | assumption
    | split | dsimp only
    | with_reducible apply Steady.upd

theorem writePref_steady {u : State} {p : Nat} {o : Bool} {s : State} (hst : Steady u s) :
    Steady u (writePref p o s) := by
  unfold writePref
  repeat' first
    | intro _
    | with_reducible first | assumption | apply nvWait_steady | apply setPref_steady
    | split | dsimp only
    | with_reducible apply Steady.upd

theorem bootselWrite_steady {u : State} {v : Word} {s : State} (hst : Steady u s) :
    Steady u (bootselWrite v s) := by
  unfold bootselWrite
  repeat' first
    | intro _
    | with_reducible first | assumption | apply writePref_steady
    | split | dsimp only
    | with_reducible apply Steady.upd

theorem abortNvm_steady {u : State} {err : Nat} {s : State} (hst : Steady u s) :
    Steady u (abortNvm err s) := by
  unfold abortNvm
  repeat' first
    | intro _
    | with_reducible first | assumption | apply failNvm_steady
    | split | dsimp only

theorem trainFailed_steady {u : State} {n : Fin 16} {s : State} (hst : Steady u s) :
    Steady u (trainFailed n s) := by
  unfold trainFailed
  repeat' first
    | intro _
    | with_reducible first | assumption | apply State.put_steady | apply State.raise_steady
    | split | dsimp only
    | with_reducible apply Steady.upd

/-! ## Power -/

theorem rstCause_steady {u : State} {f : Fld} {s : State} (hst : Steady u s) :
    Steady u (rstCause f s) := by
  unfold rstCause
  repeat' first
    | intro _
    | with_reducible first | assumption | apply State.put_steady
    | split | dsimp only

theorem noteJnl_steady {u : State} {s : State} (hst : Steady u s) :
    Steady u (noteJnl s) := by
  unfold noteJnl
  repeat' first
    | intro _
    | with_reducible first | assumption
    | split | dsimp only
    | with_reducible apply Steady.upd

theorem loseUnwritten_steady {u : State} {s : State} (hst : Steady u s) :
    Steady u (loseUnwritten s) := by
  unfold loseUnwritten
  repeat' first
    | intro _
    | with_reducible first | assumption | apply State.setWord_steady | apply Steady.foldl
    | split | dsimp only
    | with_reducible apply Steady.updDrop
    | with_reducible apply Steady.upd

theorem releaseAt_steady {u : State} {t : Nat} {s : State} (hst : Steady u s) :
    Steady u (releaseAt t s) := by
  unfold releaseAt
  repeat' first
    | intro _
    | with_reducible first | assumption
    | split | dsimp only
    | with_reducible apply Steady.upd

theorem powerUp_steady {u : State} {cause : Fld} {s0 : State} (hst : Steady u s0) :
    Steady u (powerUp cause s0) := by
  unfold powerUp
  extract_lets s s1 s2
  have hs : Steady u s := by
    unfold s
    repeat' first
      | intro _
      | with_reducible first | assumption | apply loseUnwritten_steady
      | split | dsimp only
      | with_reducible apply Steady.upd
  clear_value s
  have hs1 : Steady u s1 := by
    unfold s1
    repeat' first
      | intro _
      | with_reducible first | assumption | apply domsAtReset_steady | apply dropSwitched_steady
      | with_reducible first | apply rstCause_steady
      | split | dsimp only
      | with_reducible apply Steady.upd
  clear_value s1
  have hs2 : Steady u s2 := by
    unfold s2
    repeat' first
      | intro _
      | with_reducible first | assumption | apply State.setWord_steady | apply Steady.foldl
      | split | dsimp only
      | with_reducible apply Steady.upd
  clear_value s2
  repeat' first
    | intro _
    | with_reducible first | assumption | apply startBoot_steady
    | split | dsimp only
    | with_reducible apply Steady.upd

theorem wake_steady {u : State} {src : Fld} {s : State} (hst : Steady u s) :
    Steady u (wake src s) := by
  unfold wake
  repeat' first
    | intro _
    | with_reducible first | assumption | apply State.put_steady
    | split | dsimp only
    | with_reducible apply Steady.upd

theorem execPowerOnReset_steady (s : State) :
    OSteady s (execPowerOnReset s) := by
  unfold execPowerOnReset
  repeat' first
    | intro _
    | with_reducible first | exact Steady.refl _ | apply OSteady.next | apply OSteady.nextIf | assumption
    | with_reducible first | apply powerUp_steady | apply releaseAt_steady | apply rstCause_steady | apply wake_steady
    | split | dsimp only
    | with_reducible apply Steady.upd

theorem mainGone_steady {u : State} {s : State} (hst : Steady u s) :
    Steady u (mainGone s) := by
  unfold mainGone
  repeat' first
    | intro _
    | with_reducible first | assumption | apply State.eachCh_steady | apply heaterOff_steady
    | split | dsimp only
    | with_reducible apply Steady.upd

theorem execBrownOutReset_steady (r : Rail) (s : State) :
    OSteady s (execBrownOutReset r s) := by
  unfold execBrownOutReset
  repeat' first
    | intro _
    | with_reducible first | exact Steady.refl _ | apply OSteady.next | apply OSteady.nextIf | assumption
    | with_reducible first | apply State.put_steady | apply State.eachCh_steady | apply inhibitWith_steady
    | with_reducible first | apply mainGone_steady | apply noteJnl_steady | apply powerUp_steady
    | split | dsimp only
    | with_reducible apply Steady.upd

theorem drain_steady {u : State} {n : Fin 16} {s : State} (hst : Steady u s) :
    Steady u (drain n s) := by
  unfold drain
  repeat' first
    | intro _
    | with_reducible first | assumption | apply State.modWav_steady | apply checkDone_steady | apply fire_steady
    | with_reducible first | apply Steady.foldl
    | split | dsimp only
    | with_reducible apply Steady.upd

theorem haltAndFlush_steady {u : State} {s : State} (hst : Steady u s) :
    Steady u (haltAndFlush s) := by
  unfold haltAndFlush
  repeat' first
    | intro _
    | with_reducible first | assumption | apply State.eachCh_steady | apply startFlush_steady
    | with_reducible first | apply State.hold_steady | apply completeFlush_steady | apply drain_steady
    | split | dsimp only

theorem deviceReset_steady {u : State} {s : State} (hst : Steady u s) :
    Steady u (deviceReset s) := by
  unfold deviceReset
  repeat' first
    | intro _
    | with_reducible first | assumption | apply abortNvm_steady | apply domsAtReset_steady | apply dropSwitched_steady
    | with_reducible first | apply haltAndFlush_steady | apply rstCause_steady | apply startBoot_steady
    | split | dsimp only
    | with_reducible apply Steady.upd

theorem haltAndWait_steady {u : State} {w : NvWait} {s : State} (hst : Steady u s) :
    Steady u (haltAndWait w s) := by
  unfold haltAndWait
  repeat' first
    | intro _
    | with_reducible first | assumption | apply State.eachCh_steady | apply State.hold_steady | apply nvWait_steady
    | with_reducible first | apply startFlush_steady
    | split | dsimp only
    | with_reducible apply Steady.upd

theorem devrstWrite_steady {u : State} {v : Word} {s : State} (hst : Steady u s) :
    Steady u (devrstWrite v s) := by
  unfold devrstWrite
  repeat' first
    | intro _
    | with_reducible first | assumption | apply deviceReset_steady | apply haltAndWait_steady
    | split | dsimp only
    | with_reducible apply Steady.upd

theorem execDeviceReset_steady (m : Master) (v : Word) (s : State) :
    OSteady s (execDeviceReset m v s) := by
  unfold execDeviceReset
  repeat' first
    | intro _
    | with_reducible first | exact Steady.refl _ | apply OSteady.next | apply OSteady.nextIf | assumption
    | with_reducible first | apply State.wr_steady | apply devrstWrite_steady
    | split | dsimp only

theorem resetEndpoint_steady {u : State} {s : State} (hst : Steady u s) :
    Steady u (resetEndpoint s) := by
  unfold resetEndpoint
  repeat' first
    | intro _
    | with_reducible assumption
    | split | dsimp only
    | with_reducible apply Steady.upd

theorem execPcieFundamentalReset_steady (s : State) :
    OSteady s (execPcieFundamentalReset s) := by
  unfold execPcieFundamentalReset
  repeat' first
    | intro _
    | with_reducible first | exact Steady.refl _ | apply OSteady.next | apply OSteady.nextIf | assumption
    | with_reducible first | apply rstCause_steady | apply resetEndpoint_steady
    | split | dsimp only

theorem execHotReset_steady (s : State) :
    OSteady s (execHotReset s) := by
  unfold execHotReset
  repeat' first
    | intro _
    | with_reducible first | exact Steady.refl _ | apply OSteady.next | apply OSteady.nextIf | assumption
    | with_reducible first | apply rstCause_steady | apply resetEndpoint_steady
    | split | dsimp only

theorem resetFunction_steady {u : State} {fn : Fin 2} {s : State} (hst : Steady u s) :
    Steady u (resetFunction fn s) := by
  unfold resetFunction
  repeat' first
    | intro _
    | with_reducible first | assumption
    | split | dsimp only
    | with_reducible apply Steady.upd

theorem flrPf0_steady {u : State} {s : State} (hst : Steady u s) :
    Steady u (flrPf0 s) := by
  unfold flrPf0
  repeat' first
    | intro _
    | with_reducible first | assumption | apply abortOwned_steady | apply resetFunction_steady | apply rstCause_steady
    | split | dsimp only
    | with_reducible apply Steady.upd

theorem execFlrPf0_steady (s : State) :
    OSteady s (execFlrPf0 s) := by
  unfold execFlrPf0
  repeat' first
    | intro _
    | with_reducible first | exact Steady.refl _ | apply OSteady.next | apply OSteady.nextIf | assumption
    | with_reducible first | apply flrPf0_steady
    | split | dsimp only
    | with_reducible apply Steady.upd

theorem flrPf1_steady {u : State} {s : State} (hst : Steady u s) :
    Steady u (flrPf1 s) := by
  unfold flrPf1
  repeat' first
    | intro _
    | with_reducible first | assumption | apply clearInbound_steady | apply postNext_steady
    | with_reducible first | apply releaseLocks_steady | apply resetFunction_steady | apply rstCause_steady
    | with_reducible first | apply Steady.foldl
    | split | dsimp only
    | with_reducible apply Steady.updDrop
    | with_reducible apply Steady.upd

theorem execFlrPf1_steady (s : State) :
    OSteady s (execFlrPf1 s) := by
  unfold execFlrPf1
  repeat' first
    | intro _
    | with_reducible first | exact Steady.refl _ | apply OSteady.next | apply OSteady.nextIf | assumption
    | with_reducible first | apply flrPf1_steady
    | split | dsimp only
    | with_reducible apply Steady.upd

theorem execSupLockstep_steady (s : State) :
    OSteady s (execSupLockstep s) := by
  unfold execSupLockstep
  repeat' first
    | intro _
    | with_reducible first | exact Steady.refl _ | apply OSteady.next | apply OSteady.nextIf | assumption
    | with_reducible first | apply State.raise_steady | apply supReset_steady
    | split | dsimp only

theorem execSupWdog_steady (s : State) :
    OSteady s (execSupWdog s) := by
  unfold execSupWdog
  repeat' first
    | intro _
    | with_reducible first | exact Steady.refl _ | apply OSteady.next | apply OSteady.nextIf | assumption
    | with_reducible first | apply State.raise_steady | apply supReset_steady
    | split | dsimp only

theorem execSupRestart_steady (s : State) :
    OSteady s (execSupRestart s) := by
  unfold execSupRestart
  repeat' first
    | intro _
    | with_reducible first | exact Steady.refl _ | apply OSteady.next | apply OSteady.nextIf | assumption
    | with_reducible first | apply State.raise_steady | apply supRunsAgain_steady
    | split | dsimp only

theorem execSequencerRestartDone_steady (n : Fin 16) (s : State) :
    OSteady s (execSequencerRestartDone n s) := by
  unfold execSequencerRestartDone
  repeat' first
    | intro _
    | with_reducible first | exact Steady.refl _ | apply OSteady.next | apply OSteady.nextIf | assumption
    | with_reducible first | apply State.modWork_steady | apply takeWaiting_steady
    | split | dsimp only
    | with_reducible apply Steady.upd

theorem requestDoms_steady {u : State} {m : Master} {v : Word} {on : Bool} {s : State} (hst : Steady u s) :
    Steady u (requestDoms m v on s) := by
  unfold requestDoms
  repeat' first
    | intro _
    | with_reducible first | assumption | apply startRamp_steady | apply requestDom_steady | apply Steady.foldl
    | split | dsimp only

theorem execPwrDomon_steady (m : Master) (v : Word) (s : State) :
    OSteady s (execPwrDomon m v s) := by
  unfold execPwrDomon
  repeat' first
    | intro _
    | with_reducible first | exact Steady.refl _ | apply OSteady.next | apply OSteady.nextIf | assumption
    | with_reducible first | apply State.wr_steady | apply requestDoms_steady
    | split | dsimp only

theorem execPwrDomoff_steady (m : Master) (v : Word) (s : State) :
    OSteady s (execPwrDomoff m v s) := by
  unfold execPwrDomoff
  repeat' first
    | intro _
    | with_reducible first | exact Steady.refl _ | apply OSteady.next | apply OSteady.nextIf | assumption
    | with_reducible first | apply State.wr_steady | apply requestDoms_steady
    | split | dsimp only

theorem resumeOn_steady {u : State} {n : Fin 16} {s : State} (hst : Steady u s) :
    Steady u (resumeOn n s) := by
  unfold resumeOn
  repeat' first
    | intro _
    | with_reducible first | assumption | apply State.modIso_steady | apply resumeCh_steady
    | split | dsimp only
    | with_reducible apply Steady.upd

theorem domCameOn_steady {u : State} {d : Nat} {s : State} (hst : Steady u s) :
    Steady u (domCameOn d s) := by
  unfold domCameOn
  repeat' first
    | intro _
    | with_reducible first | assumption | apply State.takeFree_steady | apply State.modWav_steady
    | with_reducible first | apply State.modIso_steady | apply resumeOn_steady | apply syncTrackers_steady
    | with_reducible first | apply withFrets_steady
    | split | dsimp only
    | with_reducible apply Steady.upd

theorem endRamp_steady {u : State} {d : Nat} {on : Bool} {up : Bool} {s : State} (hst : Steady u s) :
    Steady u (endRamp d on up s) := by
  unfold endRamp
  repeat' first
    | intro _
    | with_reducible first | assumption | apply State.setDom_steady | apply State.raise_steady
    | with_reducible first | apply domCameOn_steady
    | split | dsimp only
    | with_reducible apply Steady.upd

theorem execDomainRampDone_steady (s : State) :
    OSteady s (execDomainRampDone s) := by
  unfold execDomainRampDone
  repeat' first
    | intro _
    | with_reducible first | exact Steady.refl _ | apply OSteady.next | apply OSteady.nextIf | assumption
    | with_reducible first | apply endRamp_steady | apply startRamp_steady
    | split | dsimp only
    | with_reducible apply Steady.upd

theorem execPwrDomfail_steady (s : State) :
    OSteady s (execPwrDomfail s) := by
  unfold execPwrDomfail
  repeat' first
    | intro _
    | with_reducible first | exact Steady.refl _ | apply OSteady.next | apply OSteady.nextIf | assumption
    | with_reducible first | apply abortWaiting_steady | apply endRamp_steady | apply startRamp_steady
    | with_reducible first | apply trainFailed_steady
    | split | dsimp only
    | with_reducible apply Steady.upd

theorem markCycled_steady {u : State} {s0 : State} {s : State} (hst : Steady u s) :
    Steady u (markCycled s0 s) := by
  unfold markCycled
  repeat' first
    | intro _
    | with_reducible first | assumption | apply State.eachCh_steady | apply State.put_steady
    | split | dsimp only

theorem enterStandby_steady {u : State} {s : State} (hst : Steady u s) :
    Steady u (enterStandby s) := by
  unfold enterStandby
  extract_lets s1 s2 p b s3
  have hs1 : Steady u s1 := by
    unfold s1
    repeat' first
      | intro _
      | with_reducible first | assumption | apply abortNvm_steady | apply dropSwitched_steady
      | with_reducible first | apply haltAndFlush_steady | apply markCycled_steady
      | split | dsimp only
      | with_reducible apply Steady.upd
  clear_value s1
  have hs2 : Steady u s2 := by
    unfold s2
    repeat' first
      | intro _
      | with_reducible first | assumption | apply State.setWord_steady
      | split | dsimp only
      | with_reducible apply Steady.upd
  clear_value s2
  clear_value p b
  have hs3 : Steady u s3 := by
    unfold s3
    repeat' first
      | intro _
      | with_reducible first | assumption
      | split | dsimp only
      | with_reducible apply Steady.upd
  clear_value s3
  repeat' first
    | intro _
    | with_reducible first | assumption | apply wake_steady
    | split | dsimp only
    | with_reducible apply Steady.upd

theorem stbyWrite_steady {u : State} {v : Word} {s : State} (hst : Steady u s) :
    Steady u (stbyWrite v s) := by
  unfold stbyWrite
  repeat' first
    | intro _
    | with_reducible first | assumption | apply State.put_steady | apply enterStandby_steady
    | with_reducible first | apply haltAndWait_steady
    | split | dsimp only
    | with_reducible apply Steady.upd

theorem execPwrStby_steady (m : Master) (v : Word) (s : State) :
    OSteady s (execPwrStby m v s) := by
  unfold execPwrStby
  repeat' first
    | intro _
    | with_reducible first | exact Steady.refl _ | apply OSteady.next | apply OSteady.nextIf | assumption
    | with_reducible first | apply State.wr_steady | apply stbyWrite_steady
    | split | dsimp only

theorem execWakeNWake_steady (s : State) :
    OSteady s (execWakeNWake s) := by
  unfold execWakeNWake
  repeat' first
    | intro _
    | with_reducible first | exact Steady.refl _ | apply OSteady.next | apply OSteady.nextIf | assumption
    | with_reducible first | apply wake_steady
    | split | dsimp only
    | with_reducible apply Steady.upd

theorem execWakeTimer_steady (s : State) :
    OSteady s (execWakeTimer s) := by
  unfold execWakeTimer
  repeat' first
    | intro _
    | with_reducible first | exact Steady.refl _ | apply OSteady.next | apply OSteady.nextIf | assumption
    | with_reducible first | apply wake_steady
    | split | dsimp only

theorem execMainRailsRise_steady (s : State) :
    OSteady s (execMainRailsRise s) := by
  unfold execMainRailsRise
  repeat' first
    | intro _
    | with_reducible first | exact Steady.refl _ | apply OSteady.next | apply OSteady.nextIf | assumption
    | with_reducible first | apply wake_steady
    | split | dsimp only
    | with_reducible apply Steady.upd

theorem execVkeepLoss_steady (s : State) :
    OSteady s (execVkeepLoss s) := by
  unfold execVkeepLoss
  repeat' first
    | intro _
    | with_reducible first | exact Steady.refl _ | apply OSteady.next | apply OSteady.nextIf | assumption
    | with_reducible first | apply State.setWord_steady | apply State.modWork_steady | apply State.eachCh_steady
    | split | dsimp only
    | with_reducible apply Steady.updDrop
    | with_reducible apply Steady.upd

theorem execResetNRelease_steady (s : State) :
    OSteady s (execResetNRelease s) := by
  unfold execResetNRelease
  repeat' first
    | intro _
    | with_reducible first | exact Steady.refl _ | apply OSteady.next | apply OSteady.nextIf | assumption
    | split | dsimp only
    | with_reducible apply Steady.upd

theorem supplyWarn_steady {u : State} {s : State} (hst : Steady u s) :
    Steady u (supplyWarn s) := by
  unfold supplyWarn
  repeat' first
    | intro _
    | with_reducible first | assumption | apply State.eachCh_steady | apply State.put_steady | apply startFlush_steady
    | with_reducible first | apply State.raise_steady | apply State.hold_steady | apply abortNvm_steady
    | split | dsimp only
    | with_reducible apply Steady.upd

theorem execSupplyWarning_steady (r : Option Rail) (s : State) :
    OSteady s (execSupplyWarning r s) := by
  unfold execSupplyWarning
  repeat' first
    | intro _
    | with_reducible first | exact Steady.refl _ | apply OSteady.next | apply OSteady.nextIf | assumption
    | with_reducible first | apply State.bump_steady | apply State.put_steady | apply supplyWarn_steady
    | split | dsimp only
    | with_reducible apply Steady.upd

theorem execLedgerFlushComplete_steady (s : State) :
    OSteady s (execLedgerFlushComplete s) := by
  unfold execLedgerFlushComplete
  repeat' first
    | intro _
    | with_reducible first | exact Steady.refl _ | apply OSteady.next | apply OSteady.nextIf | assumption
    | with_reducible first | apply State.put_steady | apply completeFlush_steady
    | split | dsimp only
    | with_reducible apply Steady.upd

theorem execNvw_steady (r : Rail) (s : State) :
    OSteady s (execNvw r s) := by
  unfold execNvw
  repeat' first
    | intro _
    | with_reducible first | exact Steady.refl _ | apply OSteady.next | apply OSteady.nextIf | assumption
    | with_reducible first | apply State.put_steady | apply State.raise_steady | apply noteJnl_steady
    | split | dsimp only
    | with_reducible apply Steady.upd

theorem runWaits_steady {u : State} {l : List NvWait} {s : State} (hst : Steady u s) : Steady u (runWaits l s) := by
  induction l generalizing s with
  | nil => exact hst
  | cons w r ih =>
    cases w
    · exact deviceReset_steady hst
    · exact enterStandby_steady hst
    · exact ih (setPref_steady hst)

theorem railsBack_steady {u : State} {p : Rail → Bool} {s : State} (hst : Steady u s) :
    Steady u (railsBack p s) := by
  unfold railsBack
  repeat' first
    | intro _
    | with_reducible first | assumption | apply releaseAt_steady
    | split | dsimp only
    | with_reducible apply Steady.upd

theorem execNvWriteResume_steady (s : State) :
    OSteady s (execNvWriteResume s) := by
  unfold execNvWriteResume
  repeat' first
    | intro _
    | with_reducible first | exact Steady.refl _ | apply OSteady.next | apply OSteady.nextIf | assumption
    | with_reducible first | apply State.put_steady | apply State.eachCh_steady | apply clearMarks_steady
    | with_reducible first | apply railsBack_steady | apply runWaits_steady | apply takeWaiting_steady
    | split | dsimp only
    | with_reducible apply Steady.upd

theorem execSupplyRecover_steady (r : Option Rail) (s : State) :
    OSteady s (execSupplyRecover r s) := by
  unfold execSupplyRecover
  repeat' first
    | intro _
    | with_reducible first | exact Steady.refl _ | apply OSteady.next | apply OSteady.nextIf | assumption
    | with_reducible first | apply State.put_steady | apply railsBack_steady
    | split | dsimp only
    | with_reducible apply Steady.upd

theorem warnWrite_steady {u : State} {v : Word} {s : State} (hst : Steady u s) :
    Steady u (warnWrite v s) := by
  unfold warnWrite
  repeat' first
    | intro _
    | with_reducible first | assumption | apply State.put_steady | apply State.refreshHolds_steady
    | split | dsimp only

theorem execSupplyWarnClear_steady (m : Master) (v : Word) (s : State) :
    OSteady s (execSupplyWarnClear m v s) := by
  unfold execSupplyWarnClear
  repeat' first
    | intro _
    | with_reducible first | exact Steady.refl _ | apply OSteady.next | apply OSteady.nextIf | assumption
    | with_reducible first | apply State.wr_steady | apply warnWrite_steady
    | split | dsimp only

theorem execClkRefloss_steady (s : State) :
    OSteady s (execClkRefloss s) := by
  unfold execClkRefloss
  repeat' first
    | intro _
    | with_reducible first | exact Steady.refl _ | apply OSteady.next | apply OSteady.nextIf | assumption
    | with_reducible first | apply State.put_steady | apply State.bump_steady | apply State.modIso_steady
    | with_reducible first | apply State.eachCh_steady | apply State.raise_steady | apply dropGate_steady
    | split | dsimp only
    | with_reducible apply Steady.upd

theorem execClkRefback_steady (s : State) :
    OSteady s (execClkRefback s) := by
  unfold execClkRefback
  repeat' first
    | intro _
    | with_reducible first | exact Steady.refl _ | apply OSteady.next | apply OSteady.nextIf | assumption
    | with_reducible first | apply State.eachCh_steady | apply State.modIso_steady | apply State.put_steady
    | with_reducible first | apply State.raise_steady
    | split | dsimp only
    | with_reducible apply Steady.upd

theorem execClkPllfail_steady (p : Pll) (s : State) :
    OSteady s (execClkPllfail p s) := by
  unfold execClkPllfail
  repeat' first
    | intro _
    | with_reducible first | exact Steady.refl _ | apply OSteady.next | apply OSteady.nextIf | assumption
    | with_reducible first | apply State.put_steady | apply State.bump_steady | apply State.modIso_steady
    | with_reducible first | apply State.raise_steady | apply dropGate_steady
    | split | dsimp only
    | with_reducible apply Steady.upd

theorem execChannelClockSwitchback_steady (n : Fin 16) (s : State) :
    OSteady s (execChannelClockSwitchback n s) := by
  unfold execChannelClockSwitchback
  repeat' first
    | intro _
    | with_reducible first | exact Steady.refl _ | apply OSteady.next | apply OSteady.nextIf | assumption
    | with_reducible first | apply State.modIso_steady | apply State.put_steady
    | split | dsimp only
    | with_reducible apply Steady.upd

theorem execMemoryRateChange_steady (n : Fin 16) (s : State) :
    OSteady s (execMemoryRateChange n s) := by
  unfold execMemoryRateChange
  repeat' first
    | intro _
    | with_reducible first | exact Steady.refl _ | apply OSteady.next | apply OSteady.nextIf | assumption
    | with_reducible first | apply State.modIso_steady
    | split | dsimp only
    | with_reducible apply Steady.upd

theorem execDevtimeBroadcast_steady (s : State) :
    OSteady s (execDevtimeBroadcast s) := by
  unfold execDevtimeBroadcast
  repeat' first
    | intro _
    | with_reducible first | exact Steady.refl _ | apply OSteady.next | apply OSteady.nextIf | assumption
    | with_reducible first | apply State.takeFree_steady | apply State.modFt_steady | apply State.eachCh_steady
    | split | dsimp only
    | with_reducible apply Steady.upd

theorem epochHi_steady {u : State} {v : Word} {s : State} (hst : Steady u s) :
    Steady u (epochHi v s) := by
  unfold epochHi
  repeat' first
    | intro _
    | with_reducible first | assumption | apply State.setPair_steady | apply State.setWord_steady
    | split | dsimp only

theorem execSysEpochLoWrite_steady (m : Master) (v : Word) (s : State) :
    OSteady s (execSysEpochLoWrite m v s) := by
  unfold execSysEpochLoWrite
  repeat' first
    | intro _
    | with_reducible first | exact Steady.refl _ | apply OSteady.next | apply OSteady.nextIf | assumption
    | with_reducible first | apply State.setWord_steady | apply State.wr_steady
    | split | dsimp only

theorem execSysEpochHiWrite_steady (m : Master) (v : Word) (s : State) :
    OSteady s (execSysEpochHiWrite m v s) := by
  unfold execSysEpochHiWrite
  repeat' first
    | intro _
    | with_reducible first | exact Steady.refl _ | apply OSteady.next | apply OSteady.nextIf | assumption
    | with_reducible first | apply State.wr_steady | apply epochHi_steady
    | split | dsimp only

theorem execFabRetry_steady (s : State) :
    OSteady s (execFabRetry s) := by
  unfold execFabRetry
  repeat' first
    | intro _
    | with_reducible first | exact Steady.refl _ | apply OSteady.next | apply OSteady.nextIf | assumption
    | with_reducible first | apply State.raiseLimited_steady
    | split | dsimp only

theorem execFabUe_steady (s : State) :
    OSteady s (execFabUe s) := by
  unfold execFabUe
  repeat' first
    | intro _
    | with_reducible first | exact Steady.refl _ | apply OSteady.next | apply OSteady.nextIf | assumption
    | with_reducible first | apply State.raise_steady
    | split | dsimp only

theorem execJnlCe_steady (s : State) :
    OSteady s (execJnlCe s) := by
  unfold execJnlCe
  repeat' first
    | intro _
    | with_reducible first | exact Steady.refl _ | apply OSteady.next | apply OSteady.nextIf | assumption
    | with_reducible first | apply State.raiseLimited_steady
    | split | dsimp only

/-! ## HostPort -/

theorem pendWrite_steady {u : State} {w : Fin 16} {v : Word} {s : State} (hst : Steady u s) :
    Steady u (pendWrite w v s) := by
  unfold pendWrite
  repeat' first
    | intro _
    | with_reducible first | assumption | apply State.setWord_steady
    | split | dsimp only

theorem execEvtPendClear_steady (m : Master) (w : Fin 16) (v : Word) (s : State) :
    OSteady s (execEvtPendClear m w v s) := by
  unfold execEvtPendClear
  repeat' first
    | intro _
    | with_reducible first | exact Steady.refl _ | apply OSteady.next | apply OSteady.nextIf | assumption
    | with_reducible first | apply State.wr_steady | apply pendWrite_steady
    | split | dsimp only

theorem flushPba_steady {u : State} {fn : Fin 2} {s : State} (hst : Steady u s) :
    Steady u (flushPba fn s) := by
  unfold flushPba
  repeat' first
    | intro _
    | with_reducible first | assumption | apply State.msix_steady | apply Steady.foldl
    | split | dsimp only
    | with_reducible apply Steady.upd

theorem execMsixUnmask_steady (fn : Fin 2) (vec : Option (Fin 512)) (s : State) :
    OSteady s (execMsixUnmask fn vec s) := by
  unfold execMsixUnmask
  repeat' first
    | intro _
    | with_reducible first | exact Steady.refl _ | apply OSteady.next | apply OSteady.nextIf | assumption
    | with_reducible first | apply flushPba_steady
    | split | dsimp only
    | with_reducible apply Steady.upd

theorem expTaken_steady {u : State} {s : State} (hst : Steady u s) :
    Steady u (expTaken s) := by
  unfold expTaken
  repeat' first
    | intro _
    | with_reducible first | assumption | apply State.bump_steady
    | split | dsimp only

theorem expEach_steady {u : State} {v : Nat} {f : Fin 16 → State → State} {s : State} (hst : Steady u s) (hf : ∀ (x0 : Fin 16) (x1 : State), Steady u x1 → Steady u (f x0 x1)) :
    Steady u (expEach v f s) := by
  unfold expEach
  repeat' first
    | intro _
    | with_reducible first | assumption | apply hf | apply State.eachCh_steady
    | split | dsimp only

theorem expStop_steady {u : State} {v : Nat} {s : State} (hst : Steady u s) :
    Steady u (expStop v s) := by
  unfold expStop
  repeat' first
    | intro _
    | with_reducible first | assumption | apply State.put_steady | apply State.hold_steady | apply expEach_steady
    | split | dsimp only

theorem expInh_steady {u : State} {v : Nat} {s : State} (hst : Steady u s) :
    Steady u (expInh v s) := by
  unfold expInh
  repeat' first
    | intro _
    | with_reducible first | assumption | apply State.put_steady | apply State.inhibit_steady | apply expEach_steady
    | split | dsimp only

theorem expClear_steady {u : State} {v : Nat} {s : State} (hst : Steady u s) :
    Steady u (expClear v s) := by
  unfold expClear
  repeat' first
    | intro _
    | with_reducible first | assumption | apply State.setWord_steady | apply State.refreshHolds_steady
    | split | dsimp only

theorem expSafe_steady {u : State} {v : Nat} {s : State} (hst : Steady u s) :
    Steady u (expSafe v s) := by
  unfold expSafe
  repeat' first
    | intro _
    | with_reducible first | assumption | apply State.enterSafe_steady
    | split | dsimp only

theorem expFetch_steady {u : State} {v : Nat} {s : State} (hst : Steady u s) :
    Steady u (expFetch v s) := by
  unfold expFetch
  repeat' first
    | intro _
    | with_reducible first | assumption | apply State.put_steady
    | split | dsimp only

theorem expDo_steady {u : State} {r : ExpReg} {v : Nat} {s : State} (hst : Steady u s) :
    Steady u (expDo r v s) := by
  unfold expDo
  repeat' first
    | intro _
    | with_reducible first | assumption | apply expClear_steady | apply expFetch_steady | apply expInh_steady
    | with_reducible first | apply expSafe_steady | apply expStop_steady
    | split | dsimp only
    | with_reducible apply Steady.upd

theorem mergedDo_steady {u : State} {e : Merge} {s : State} (hst : Steady u s) :
    Steady u (mergedDo e s) := by
  unfold mergedDo
  repeat' first
    | intro _
    | with_reducible first | assumption | apply State.enterSafe_steady | apply expClear_steady | apply expFetch_steady
    | with_reducible first | apply expInh_steady | apply expStop_steady
    | split | dsimp only
    | with_reducible apply Steady.upd

theorem expArrive_steady {u : State} {r : ExpReg} {v : Word} {s : State} (hst : Steady u s) :
    Steady u (expArrive r v s) := by
  unfold expArrive
  repeat' first
    | intro _
    | with_reducible first | assumption | apply State.bump_steady
    | split | dsimp only
    | with_reducible apply Steady.upd

theorem expServe_steady {u : State} {s : State} (hst : Steady u s) :
    Steady u (expServe s) := by
  unfold expServe
  repeat' first
    | intro _
    | with_reducible first | assumption | apply expDo_steady | apply expTaken_steady | apply mergedDo_steady
    | split | dsimp only
    | with_reducible apply Steady.upd

theorem expServeN_steady {u : State} {k : Nat} {s : State} (hst : Steady u s) : Steady u (expServeN k s) := by
  induction k generalizing s with
  | zero => exact hst
  | succ k ih => exact ih (expServe_steady hst)

theorem serveMerged_steady {u : State} {k : Nat} {s : State} (hst : Steady u s) : Steady u (serveMerged k s) := by
  induction k generalizing s with
  | zero => exact hst
  | succ k ih =>
    unfold serveMerged
    split
    · exact hst
    · split
      · exact expServe_steady hst
      · exact ih (expServe_steady hst)

theorem expWrite_steady {u : State} {r : ExpReg} {v : Word} {s : State} (hst : Steady u s) :
    Steady u (expWrite r v s) := by
  unfold expWrite
  repeat' first
    | intro _
    | with_reducible first | assumption | apply expArrive_steady | apply expServeN_steady
    | split | dsimp only
    | with_reducible apply Steady.upd

theorem execExpStop_steady (v : Word) (s : State) :
    OSteady s (execExpStop v s) := by
  unfold execExpStop
  repeat' first
    | intro _
    | with_reducible first | exact Steady.refl _ | apply OSteady.next | apply OSteady.nextIf | assumption
    | with_reducible first | apply expWrite_steady
    | split | dsimp only
    | with_reducible apply Steady.upd

theorem execExpInh_steady (v : Word) (s : State) :
    OSteady s (execExpInh v s) := by
  unfold execExpInh
  repeat' first
    | intro _
    | with_reducible first | exact Steady.refl _ | apply OSteady.next | apply OSteady.nextIf | assumption
    | with_reducible first | apply expWrite_steady
    | split | dsimp only
    | with_reducible apply Steady.upd

theorem execExpFetch_steady (v : Word) (s : State) :
    OSteady s (execExpFetch v s) := by
  unfold execExpFetch
  repeat' first
    | intro _
    | with_reducible first | exact Steady.refl _ | apply OSteady.next | apply OSteady.nextIf | assumption
    | with_reducible first | apply expWrite_steady
    | split | dsimp only
    | with_reducible apply Steady.upd

theorem execExpSafe_steady (v : Word) (s : State) :
    OSteady s (execExpSafe v s) := by
  unfold execExpSafe
  repeat' first
    | intro _
    | with_reducible first | exact Steady.refl _ | apply OSteady.next | apply OSteady.nextIf | assumption
    | with_reducible first | apply expWrite_steady
    | split | dsimp only
    | with_reducible apply Steady.upd

theorem execExpLatchClear_steady (v : Word) (s : State) :
    OSteady s (execExpLatchClear v s) := by
  unfold execExpLatchClear
  repeat' first
    | intro _
    | with_reducible first | exact Steady.refl _ | apply OSteady.next | apply OSteady.nextIf | assumption
    | with_reducible first | apply expWrite_steady
    | split | dsimp only
    | with_reducible apply Steady.upd

theorem expAhead_steady {u : State} {s : State} (hst : Steady u s) :
    Steady u (expAhead s) := by
  unfold expAhead
  repeat' first
    | intro _
    | with_reducible first | assumption | apply expServeN_steady
    | split | dsimp only
    | with_reducible apply Steady.upd

theorem execExpressMerge_steady (r : ExpReg) (v : Word) (s : State) :
    OSteady s (execExpressMerge r v s) := by
  unfold execExpressMerge
  repeat' first
    | intro _
    | with_reducible first | exact Steady.refl _ | apply OSteady.next | apply OSteady.nextIf | assumption
    | with_reducible first | apply expAhead_steady | apply expArrive_steady
    | split | dsimp only
    | with_reducible apply Steady.upd

theorem execExpressMergedApply_steady (s : State) :
    OSteady s (execExpressMergedApply s) := by
  unfold execExpressMergedApply
  repeat' first
    | intro _
    | with_reducible first | exact Steady.refl _ | apply OSteady.next | apply OSteady.nextIf | assumption
    | with_reducible first | apply expAhead_steady | apply serveMerged_steady
    | split | dsimp only
    | with_reducible apply Steady.upd

theorem dmaBack_steady {u : State} {s : State} (hst : Steady u s) :
    Steady u (dmaBack s) := by
  unfold dmaBack
  repeat' first
    | intro _
    | with_reducible first | assumption | apply State.eachCh_steady | apply flushPba_steady | apply postReposts_steady
    | split | dsimp only
    | with_reducible apply Steady.upd

theorem execPcieLinkDown_steady (s : State) :
    OSteady s (execPcieLinkDown s) := by
  unfold execPcieLinkDown
  repeat' first
    | intro _
    | with_reducible first | exact Steady.refl _ | apply OSteady.next | apply OSteady.nextIf | assumption
    | with_reducible first | apply linkUp_steady
    | split | dsimp only
    | with_reducible apply Steady.upd

theorem execPcieLinkUp_steady (s : State) :
    OSteady s (execPcieLinkUp s) := by
  unfold execPcieLinkUp
  repeat' first
    | intro _
    | with_reducible first | exact Steady.refl _ | apply OSteady.next | apply OSteady.nextIf | assumption
    | with_reducible first | apply State.raise_steady | apply dmaBack_steady | apply linkUp_steady
    | split | dsimp only
    | with_reducible apply Steady.upd

theorem setBme_steady {u : State} {on : Bool} {s : State} (hst : Steady u s) :
    Steady u (setBme on s) := by
  unfold setBme
  repeat' first
    | intro _
    | with_reducible first | assumption | apply dmaBack_steady
    | split | dsimp only
    | with_reducible apply Steady.upd

theorem execBusMasterEnable_steady (on : Bool) (s : State) :
    OSteady s (execBusMasterEnable on s) := by
  unfold execBusMasterEnable
  repeat' first
    | intro _
    | with_reducible first | exact Steady.refl _ | apply OSteady.next | apply OSteady.nextIf | assumption
    | with_reducible first | apply setBme_steady
    | split | dsimp only
    | with_reducible apply Steady.upd

theorem execBar0BadRequest_steady (m : Master) (s : State) :
    OSteady s (execBar0BadRequest m s) := by
  unfold execBar0BadRequest
  repeat' first
    | intro _
    | with_reducible first | exact Steady.refl _ | apply OSteady.next | apply OSteady.nextIf | assumption
    | with_reducible first | apply State.emit_steady | apply aerLog_steady | apply aerSet_steady
    | split | dsimp only
    | with_reducible apply Steady.upd

theorem execHostRequestMalformed_steady (fn : Fin 2) (poisoned : Bool) (reply : Bool) (s : State) :
    OSteady s (execHostRequestMalformed fn poisoned reply s) := by
  unfold execHostRequestMalformed
  repeat' first
    | intro _
    | with_reducible first | exact Steady.refl _ | apply OSteady.next | apply OSteady.nextIf | assumption
    | with_reducible first | apply State.emit_steady | apply aerLog_steady
    | split | dsimp only
    | with_reducible apply Steady.upd

theorem execCorrectableError_steady (fn : Fin 2) (err : CorErr) (s : State) :
    OSteady s (execCorrectableError fn err s) := by
  unfold execCorrectableError
  repeat' first
    | intro _
    | with_reducible first | exact Steady.refl _ | apply OSteady.next | apply OSteady.nextIf | assumption
    | with_reducible first | apply aerLog_steady
    | split | dsimp only
    | with_reducible apply Steady.upd

theorem tapRejected_steady {u : State} {p : Fin 2} {s : State} (hst : Steady u s) :
    Steady u (tapRejected p s) := by
  unfold tapRejected
  repeat' first
    | intro _
    | with_reducible first | assumption | apply State.put_steady | apply State.bump_steady | apply camEvent_steady
    | split | dsimp only
    | with_reducible apply Steady.upd

theorem execRingWriteRejected_steady (t : Fin 19) (s : State) :
    OSteady s (execRingWriteRejected t s) := by
  unfold execRingWriteRejected
  repeat' first
    | intro _
    | with_reducible first | exact Steady.refl _ | apply OSteady.next | apply OSteady.nextIf | assumption
    | with_reducible first | apply State.modWork_steady | apply aerLog_steady | apply tapRejected_steady
    | split | dsimp only
    | with_reducible apply Steady.upd

theorem execCompletionRewrite_steady (n : Fin 16) (ok : Bool) (s : State) :
    OSteady s (execCompletionRewrite n ok s) := by
  unfold execCompletionRewrite
  repeat' first
    | intro _
    | with_reducible first | exact Steady.refl _ | apply OSteady.next | apply OSteady.nextIf | assumption
    | with_reducible first | apply State.emit_steady | apply State.modWork_steady | apply aerLog_steady
    | with_reducible first | apply postReposts_steady
    | split | dsimp only
    | with_reducible apply Steady.upd

/-! ## Mailbox -/

theorem sendBank_steady {u : State} {m : Fin 48} {p : Port} {s : State} (hst : Steady u s) :
    Steady u (sendBank m p s) := by
  unfold sendBank
  extract_lets msg s1
  have hs1 : Steady u s1 := by
    unfold s1
    repeat' first
      | intro _
      | with_reducible first | assumption | apply State.raise_steady | apply State.modMb_steady | apply deliver_steady
      | with_reducible first | apply startRamp_steady | apply requestDom_steady
      | split | dsimp only
      | with_reducible apply Steady.upd
  clear_value s1
  repeat' first
    | intro _
    | with_reducible first | assumption | apply State.raise_steady | apply State.modMb_steady | apply deliver_steady
    | with_reducible first | apply startRamp_steady | apply requestDom_steady
    | split | dsimp only
    | with_reducible apply Steady.upd

theorem hostSend_steady {u : State} {p : Port} {m : Fin 48} {s : State} (hst : Steady u s) :
    Steady u (hostSend p m s) := by
  unfold hostSend
  repeat' first
    | intro _
    | with_reducible first | assumption | apply armAck_steady | apply sendBank_steady
    | split | dsimp only

theorem execMbxSend_steady (p : Port) (m : Fin 48) (s : State) :
    OSteady s (execMbxSend p m s) := by
  unfold execMbxSend
  repeat' first
    | intro _
    | with_reducible first | exact Steady.refl _ | apply OSteady.next | apply OSteady.nextIf | assumption
    | with_reducible first | apply State.emit_steady | apply hostSend_steady
    | split | dsimp only

theorem internalSend_steady {u : State} {p : Port} {m : Fin 48} {s : State} (hst : Steady u s) :
    Steady u (internalSend p m s) := by
  unfold internalSend
  repeat' first
    | intro _
    | with_reducible first | assumption | apply State.emit_steady | apply ackReply_steady | apply sendBank_steady
    | split | dsimp only

theorem execMbxSendInternal_steady (p : Port) (m : Fin 48) (s : State) :
    OSteady s (execMbxSendInternal p m s) := by
  unfold execMbxSendInternal
  repeat' first
    | intro _
    | with_reducible first | exact Steady.refl _ | apply OSteady.next | apply OSteady.nextIf | assumption
    | with_reducible first | apply internalSend_steady
    | split | dsimp only

theorem restartDue_steady {u : State} {m : Fin 48} {s : State} (hst : Steady u s) :
    Steady u (restartDue m s) := by
  unfold restartDue
  repeat' first
    | intro _
    | with_reducible first | assumption | apply supReset_steady
    | split | dsimp only
    | with_reducible apply Steady.upd

theorem mbxRelease_steady {u : State} {p : Port} {m : Fin 48} {s : State} (hst : Steady u s) :
    Steady u (mbxRelease p m s) := by
  unfold mbxRelease
  repeat' first
    | intro _
    | with_reducible first | assumption | apply releaseMsg_steady | apply restartDue_steady
    | split | dsimp only
    | with_reducible apply Steady.upd

theorem execMbxRelease_steady (p : Port) (m : Fin 48) (s : State) :
    OSteady s (execMbxRelease p m s) := by
  unfold execMbxRelease
  repeat' first
    | intro _
    | with_reducible first | exact Steady.refl _ | apply OSteady.next | apply OSteady.nextIf | assumption
    | with_reducible first | apply mbxRelease_steady
    | split | dsimp only

theorem lockRead_steady {u : State} {p : Port} {m : Fin 48} {s : State} (hst : Steady u s) :
    Steady u (lockRead p m s).2 := by
  unfold lockRead
  repeat' first
    | intro _
    | with_reducible first | assumption | apply State.modMb_steady
    | split | dsimp only
    | with_reducible apply Steady.upd

theorem execMbxLockRead_steady (p : Port) (m : Fin 48) (s : State) :
    OSteady s (execMbxLockRead p m s) := by
  unfold execMbxLockRead
  repeat' first
    | intro _
    | with_reducible first | exact Steady.refl _ | apply OSteady.next | apply OSteady.nextIf | assumption
    | with_reducible first | apply State.emit_steady | apply lockRead_steady
    | split | dsimp only

theorem lockRelease_steady {u : State} {p : Port} {m : Fin 48} {s : State} (hst : Steady u s) :
    Steady u (lockRelease p m s) := by
  unfold lockRelease
  repeat' first
    | intro _
    | with_reducible first | assumption | apply State.modMb_steady
    | split | dsimp only
    | with_reducible apply Steady.upd

theorem execMbxLockRelease_steady (p : Port) (m : Fin 48) (s : State) :
    OSteady s (execMbxLockRelease p m s) := by
  unfold execMbxLockRelease
  repeat' first
    | intro _
    | with_reducible first | exact Steady.refl _ | apply OSteady.next | apply OSteady.nextIf | assumption
    | with_reducible first | apply lockRelease_steady
    | split | dsimp only

theorem mbxGo_steady {u : State} {p : Port} {m : Fin 48} {s : State} (hst : Steady u s) :
    Steady u (mbxGo p m s) := by
  unfold mbxGo
  repeat' first
    | intro _
    | with_reducible first | assumption | apply State.modMb_steady | apply modView_steady | apply armAck_steady
    | with_reducible first | apply sendBank_steady
    | split | dsimp only
    | with_reducible apply Steady.upd

theorem execMbxGo_steady (p : Port) (m : Fin 48) (s : State) :
    OSteady s (execMbxGo p m s) := by
  unfold execMbxGo
  repeat' first
    | intro _
    | with_reducible first | exact Steady.refl _ | apply OSteady.next | apply OSteady.nextIf | assumption
    | with_reducible first | apply mbxGo_steady
    | split | dsimp only

theorem execMbxAcktmo_steady (p : Port) (m : Fin 48) (s : State) :
    OSteady s (execMbxAcktmo p m s) := by
  unfold execMbxAcktmo
  repeat' first
    | intro _
    | with_reducible first | exact Steady.refl _ | apply OSteady.next | apply OSteady.nextIf | assumption
    | with_reducible first | apply windowOver_steady
    | split | dsimp only
    | with_reducible apply Steady.upd

theorem mbxStatWrite_steady {u : State} {p : Port} {m : Fin 48} {v : Word} {s : State} (hst : Steady u s) :
    Steady u (mbxStatWrite p m v s) := by
  unfold mbxStatWrite
  repeat' first
    | intro _
    | with_reducible first | assumption | apply modView_steady | apply mbxRelease_steady
    | split | dsimp only
    | with_reducible apply Steady.upd

theorem mbxCtrlWrite_steady {u : State} {p : Port} {m : Fin 48} {v : Word} {s : State} (hst : Steady u s) :
    Steady u (mbxCtrlWrite p m v s) := by
  unfold mbxCtrlWrite
  repeat' first
    | intro _
    | with_reducible first | assumption | apply State.put_steady | apply mbxGo_steady
    | split | dsimp only

/-! ## Operands -/

theorem setLatch_steady {u : State} {m : Master} {a : Nat} {w : Word} {s : State} (hst : Steady u s) :
    Steady u (setLatch m a w s) :=
  hst.trans ⟨rfl, rfl, id, sparseWf_set _ _ _⟩

theorem mbxReadEffect_steady {u : State} {m : Master} {a : Nat} {s : State} (hst : Steady u s) :
    Steady u (mbxReadEffect m a s) := by
  unfold mbxReadEffect
  repeat' first
    | intro _
    | with_reducible first | assumption | apply hostSend_steady | apply lockRead_steady
    | split | dsimp only
    | with_reducible apply Steady.upd

theorem readEffect_steady {u : State} {m : Master} {a : Nat} {s : State} (hst : Steady u s) :
    Steady u (readEffect m a s) := by
  unfold readEffect
  extract_lets s1 s2
  have hs1 : Steady u s1 := by
    unfold s1
    repeat' first
      | intro _
      | with_reducible first | assumption | apply State.setWord_steady | apply State.takeFree_steady
      | with_reducible first | apply State.wrapAdd_steady | apply setAdvance_steady | apply allocTx_steady
      | with_reducible first | apply setLatch_steady | apply mbxReadEffect_steady
      | split | dsimp only
      | with_reducible apply Steady.upd
  clear_value s1
  have hs2 : Steady u s2 := by
    unfold s2
    repeat' first
      | intro _
      | with_reducible first | assumption | apply State.setWord_steady | apply State.takeFree_steady
      | with_reducible first | apply State.wrapAdd_steady | apply setAdvance_steady | apply allocTx_steady
      | with_reducible first | apply setLatch_steady | apply mbxReadEffect_steady
      | split | dsimp only
      | with_reducible apply Steady.upd
  clear_value s2
  repeat' first
    | intro _
    | with_reducible first | assumption | apply State.setWord_steady | apply State.takeFree_steady
    | with_reducible first | apply State.wrapAdd_steady | apply setAdvance_steady | apply allocTx_steady
    | with_reducible first | apply setLatch_steady | apply mbxReadEffect_steady
    | split | dsimp only
    | with_reducible apply Steady.upd

theorem hostRead_steady {u : State} {m : Master} {a : Nat} {s : State} (hst : Steady u s) :
    Steady u (hostRead m a s) := by
  unfold hostRead
  repeat' first
    | intro _
    | with_reducible first | assumption | apply State.emit_steady
    | split | dsimp only
    | with_reducible apply Steady.upd

theorem busRead_steady {u : State} {m : Master} {a : Nat} {s : State} (hst : Steady u s) :
    Steady u (busRead m a s) := by
  unfold busRead
  repeat' first
    | intro _
    | with_reducible first | assumption | apply State.rd_steady | apply hostRead_steady | apply readEffect_steady
    | split | dsimp only
    | with_reducible apply Steady.upd

/-! ## FaultOps -/

theorem clearStat_steady {u : State} {i : Nat} {s : State} (hst : Steady u s) :
    Steady u (clearStat i s) := by
  unfold clearStat
  repeat' first
    | intro _
    | with_reducible first | assumption | apply State.put_steady
    | split | dsimp only
    | with_reducible apply Steady.upd

theorem fltStatWrite_steady {u : State} {hi : Bool} {v : Word} {s : State} (hst : Steady u s) :
    Steady u (fltStatWrite hi v s) := by
  unfold fltStatWrite
  repeat' first
    | intro _
    | with_reducible first | assumption | apply State.refreshHolds_steady | apply clearStat_steady
    | with_reducible first | apply Steady.foldl
    | split | dsimp only

theorem fltSafeWrite_steady {u : State} {v : Word} {s : State} (hst : Steady u s) :
    Steady u (fltSafeWrite v s) := by
  unfold fltSafeWrite
  repeat' first
    | intro _
    | with_reducible first | assumption | apply State.setWord_steady | apply State.refreshHolds_steady
    | split | dsimp only

theorem protStatWrite_steady {u : State} {v : Word} {s : State} (hst : Steady u s) :
    Steady u (protStatWrite v s) := by
  unfold protStatWrite
  repeat' first
    | intro _
    | with_reducible first | assumption | apply State.put_steady | apply State.refreshHolds_steady
    | split | dsimp only

theorem safeReq_steady {u : State} {m : Master} {v : Word} {s : State} (hst : Steady u s) :
    Steady u (safeReq m v s) := by
  unfold safeReq
  repeat' first
    | intro _
    | with_reducible first | assumption | apply State.enterSafe_steady
    | split | dsimp only

theorem stopAction_steady {u : State} {act : Nat} {cause : Fld} {s : State} (hst : Steady u s) :
    Steady u (stopAction act cause s) := by
  unfold stopAction
  repeat' first
    | intro _
    | with_reducible first | assumption | apply State.eachCh_steady | apply State.hold_steady
    | with_reducible first | apply State.inhibit_steady | apply State.enterSafe_steady
    | split | dsimp only
    | with_reducible apply Steady.upd

/-! ## RegWrite -/

theorem plainWrite_steady {u : State} {a : Nat} {v : Word} {s : State} (hst : Steady u s) :
    Steady u (plainWrite a v s) := by
  unfold plainWrite
  repeat' first
    | intro _
    | with_reducible first | assumption | apply State.setWord_steady
    | split | dsimp only

theorem sysWrite_steady {u : State} {a : Nat} {v : Word} {s : State} (hst : Steady u s) :
    Steady u (sysWrite a v s) := by
  unfold sysWrite
  repeat' first
    | intro _
    | with_reducible first | assumption | apply State.setWord_steady | apply devrstWrite_steady | apply epochHi_steady
    | with_reducible first | apply plainWrite_steady
    | split | dsimp only

theorem fltWrite_steady {u : State} {a : Nat} {v : Word} {s : State} (hst : Steady u s) :
    Steady u (fltWrite a v s) := by
  unfold fltWrite
  repeat' first
    | intro _
    | with_reducible first | assumption | apply fltStatWrite_steady | apply fltSafeWrite_steady
    | with_reducible first | apply plainWrite_steady
    | split | dsimp only

theorem mbxWrite_steady {u : State} {p : Port} {a : Nat} {v : Word} {s : State} (hst : Steady u s) :
    Steady u (mbxWrite p a v s) := by
  unfold mbxWrite
  repeat' first
    | intro _
    | with_reducible first | assumption | apply State.put_steady | apply State.setWord_steady
    | with_reducible first | apply internalSend_steady | apply lockRelease_steady | apply mbxStatWrite_steady
    | with_reducible first | apply mbxCtrlWrite_steady
    | split | dsimp only
    | with_reducible apply Steady.upd

theorem posWrite_steady {u : State} {a : Nat} {v : Word} {s : State} (hst : Steady u s) :
    Steady u (posWrite a v s) := by
  unfold posWrite
  repeat' first
    | intro _
    | with_reducible first | assumption | apply fretCmpLo_steady | apply fretCmpHi_steady | apply encStatWrite_steady
    | with_reducible first | apply fretCtrlWrite_steady | apply plainWrite_steady
    | split | dsimp only
    | with_reducible apply Steady.upd

theorem capoWrite_steady {u : State} {m : Master} {a : Nat} {v : Word} {s : State} (hst : Steady u s) :
    Steady u (capoWrite m a v s) := by
  unfold capoWrite
  repeat' first
    | intro _
    | with_reducible first | assumption | apply bindWrite_steady | apply txCmd_steady | apply plainWrite_steady
    | split | dsimp only
    | with_reducible apply Steady.upd

theorem thmWrite_steady {u : State} {a : Nat} {v : Word} {s : State} (hst : Steady u s) :
    Steady u (thmWrite a v s) := by
  unfold thmWrite
  repeat' first
    | intro _
    | with_reducible first | assumption | apply State.put_steady | apply sensFailClear_steady
    | with_reducible first | apply thmStatWrite_steady | apply chstatWrite_steady | apply thmTblWrite_steady
    | with_reducible first | apply plainWrite_steady
    | split | dsimp only
    | with_reducible apply Steady.upd

theorem motWrite_steady {u : State} {a : Nat} {v : Word} {s : State} (hst : Steady u s) :
    Steady u (motWrite a v s) := by
  unfold motWrite
  repeat' first
    | intro _
    | with_reducible first | assumption | apply axStatWrite_steady | apply wtabWrite_steady | apply plainWrite_steady
    | split | dsimp only
    | with_reducible apply Steady.upd

theorem pwrWrite_steady {u : State} {m : Master} {a : Nat} {v : Word} {s : State} (hst : Steady u s) :
    Steady u (pwrWrite m a v s) := by
  unfold pwrWrite
  repeat' first
    | intro _
    | with_reducible first | assumption | apply State.put_steady | apply requestDoms_steady | apply stbyWrite_steady
    | with_reducible first | apply warnWrite_steady | apply plainWrite_steady
    | split | dsimp only

theorem wrkWrite_steady {u : State} {a : Nat} {v : Word} {s : State} (hst : Steady u s) :
    Steady u (wrkWrite a v s) := by
  unfold wrkWrite
  repeat' first
    | intro _
    | with_reducible first | assumption | apply headWrite_steady | apply cmdTake_steady | apply plainWrite_steady
    | split | dsimp only
    | with_reducible apply Steady.upd

theorem protWrite_steady {u : State} {m : Master} {a : Nat} {v : Word} {s : State} (hst : Steady u s) :
    Steady u (protWrite m a v s) := by
  unfold protWrite
  repeat' first
    | intro _
    | with_reducible first | assumption | apply State.put_steady | apply State.setWord_steady
    | with_reducible first | apply cfmHiWrite_steady | apply protStatWrite_steady | apply safeReq_steady
    | with_reducible first | apply plainWrite_steady
    | split | dsimp only

theorem expPage_steady {u : State} {m : Master} {a : Nat} {v : Word} {s : State} (hst : Steady u s) :
    Steady u (expPage m a v s) := by
  unfold expPage
  repeat' first
    | intro _
    | with_reducible first | assumption | apply expAhead_steady | apply expArrive_steady | apply expDo_steady
    | with_reducible first | apply expTaken_steady
    | split | dsimp only
    | with_reducible apply Steady.upd

theorem chanWrite_steady {u : State} {a : Nat} {v : Word} {s : State} (hst : Steady u s) :
    Steady u (chanWrite a v s) := by
  unfold chanWrite
  repeat' first
    | intro _
    | with_reducible first | assumption | apply requestReadmit_steady | apply clearRescnt_steady
    | with_reducible first | apply tableWrite_steady | apply tldWrite_steady | apply linkEn_steady
    | with_reducible first | apply statReq_steady | apply hcfgData_steady | apply plainWrite_steady
    | split | dsimp only
    | with_reducible apply Steady.upd

theorem writeReg_steady {u : State} {m : Master} {a : Nat} {v : Word} {s : State} (hst : Steady u s) :
    Steady u (writeReg m a v s) := by
  unfold writeReg
  repeat' first
    | intro _
    | with_reducible first | assumption | apply bootselWrite_steady | apply capoWrite_steady | apply chanWrite_steady
    | with_reducible first | apply expPage_steady | apply fltWrite_steady | apply mbxWrite_steady
    | with_reducible first | apply motWrite_steady | apply nvmCmdWrite_steady | apply plainWrite_steady
    | with_reducible first | apply posWrite_steady | apply protWrite_steady | apply pwrWrite_steady
    | with_reducible first | apply setData_steady | apply sysWrite_steady | apply tblWrite_steady
    | with_reducible first | apply thmWrite_steady | apply wrkWrite_steady
    | split | dsimp only
    | with_reducible apply Steady.upd

theorem cfgEffect_steady {u : State} {fn : Fin 2} {a : Nat} {v : Word} {s : State} (hst : Steady u s) :
    Steady u (cfgEffect fn a v s) := by
  unfold cfgEffect
  repeat' first
    | intro _
    | with_reducible first | assumption | apply dmaBack_steady | apply flrPf0_steady | apply flrPf1_steady
    | with_reducible first | apply flushPba_steady | apply setBme_steady
    | split | dsimp only
    | with_reducible apply Steady.upd

theorem cfgWrite_steady {u : State} {fn : Fin 2} {a : Nat} {v : Word} {s : State} (hst : Steady u s) :
    Steady u (cfgWrite fn a v s) := by
  unfold cfgWrite
  repeat' first
    | intro _
    | with_reducible first | assumption | apply cfgEffect_steady | apply cfgStore_steady
    | split | dsimp only
    | with_reducible apply Steady.upd

theorem bar4Write_steady {u : State} {fn : Fin 2} {a : Nat} {v : Word} {s : State} (hst : Steady u s) :
    Steady u (bar4Write fn a v s) := by
  unfold bar4Write
  repeat' first
    | intro _
    | with_reducible first | assumption | apply flushPba_steady
    | split | dsimp only
    | with_reducible apply Steady.upd

theorem hostWrite_steady {u : State} {m : Master} {a : Nat} {v : Word} {s : State} (hst : Steady u s) :
    Steady u (hostWrite m a v s) := by
  unfold hostWrite
  repeat' first
    | intro _
    | with_reducible first | assumption | apply State.emit_steady | apply bar4Write_steady | apply cfgWrite_steady
    | split | dsimp only
    | with_reducible apply Steady.upd

theorem busWrite_steady {u : State} {m : Master} {a : Nat} {v : Word} {s : State} (hst : Steady u s) :
    Steady u (busWrite m a v s) := by
  unfold busWrite
  repeat' first
    | intro _
    | with_reducible first | assumption | apply State.wr_steady | apply hostWrite_steady | apply stagedBusWrite_steady
    | with_reducible first | apply writeReg_steady
    | split | dsimp only
    | with_reducible apply Steady.upd

/-! ## Registers -/

theorem execRegisterWrite_steady (m : Master) (a : Nat) (v : Word) (s : State) :
    OSteady s (execRegisterWrite m a v s) := by
  unfold execRegisterWrite
  repeat' first
    | intro _
    | with_reducible first | exact Steady.refl _ | apply OSteady.next | apply OSteady.nextIf | assumption
    | with_reducible first | apply busWrite_steady
    | split | dsimp only

theorem execLowWordRead_steady (m : Master) (a : Nat) (s : State) :
    OSteady s (execLowWordRead m a s) := by
  unfold execLowWordRead
  repeat' first
    | intro _
    | with_reducible first | exact Steady.refl _ | apply OSteady.next | apply OSteady.nextIf | assumption
    | with_reducible first | apply busRead_steady
    | split | dsimp only

theorem execRcRead_steady (m : Master) (a : Nat) (s : State) :
    OSteady s (execRcRead m a s) := by
  unfold execRcRead
  repeat' first
    | intro _
    | with_reducible first | exact Steady.refl _ | apply OSteady.next | apply OSteady.nextIf | assumption
    | with_reducible first | apply busRead_steady
    | split | dsimp only

/-! ## Faults -/

theorem execFltStatClear_steady (m : Master) (hi : Bool) (v : Word) (s : State) :
    OSteady s (execFltStatClear m hi v s) := by
  unfold execFltStatClear
  repeat' first
    | intro _
    | with_reducible first | exact Steady.refl _ | apply OSteady.next | apply OSteady.nextIf | assumption
    | with_reducible first | apply State.wr_steady | apply fltStatWrite_steady
    | split | dsimp only

theorem execParityScan_steady (bad : Option (Fin 67)) (s : State) :
    OSteady s (execParityScan bad s) := by
  unfold execParityScan
  repeat' first
    | intro _
    | with_reducible first | exact Steady.refl _ | apply OSteady.next | apply OSteady.nextIf | assumption
    | with_reducible first | apply State.put_steady | apply State.enterSafe_steady
    | split | dsimp only
    | with_reducible apply Steady.upd

theorem execFltSafeClear_steady (m : Master) (v : Word) (s : State) :
    OSteady s (execFltSafeClear m v s) := by
  unfold execFltSafeClear
  repeat' first
    | intro _
    | with_reducible first | exact Steady.refl _ | apply OSteady.next | apply OSteady.nextIf | assumption
    | with_reducible first | apply State.wr_steady | apply fltSafeWrite_steady
    | split | dsimp only

theorem execStopn_steady (s : State) :
    OSteady s (execStopn s) := by
  unfold execStopn
  repeat' first
    | intro _
    | with_reducible first | exact Steady.refl _ | apply OSteady.next | apply OSteady.nextIf | assumption
    | with_reducible first | apply State.put_steady | apply State.raise_steady | apply stopAction_steady
    | split | dsimp only
    | with_reducible apply Steady.upd

theorem execStopNRelease_steady (s : State) :
    OSteady s (execStopNRelease s) := by
  unfold execStopNRelease
  repeat' first
    | intro _
    | with_reducible first | exact Steady.refl _ | apply OSteady.next | apply OSteady.nextIf | assumption
    | split | dsimp only
    | with_reducible apply Steady.upd

theorem execProtStatClear_steady (m : Master) (v : Word) (s : State) :
    OSteady s (execProtStatClear m v s) := by
  unfold execProtStatClear
  repeat' first
    | intro _
    | with_reducible first | exact Steady.refl _ | apply OSteady.next | apply OSteady.nextIf | assumption
    | with_reducible first | apply State.wr_steady | apply protStatWrite_steady
    | split | dsimp only

theorem execProtSafereq_steady (m : Master) (v : Word) (s : State) :
    OSteady s (execProtSafereq m v s) := by
  unfold execProtSafereq
  repeat' first
    | intro _
    | with_reducible first | exact Steady.refl _ | apply OSteady.next | apply OSteady.nextIf | assumption
    | with_reducible first | apply State.wr_steady | apply safeReq_steady
    | split | dsimp only

/-! ## SafetyPort -/

theorem spSend_steady {u : State} {bs : List Byte} {r : List Byte} {s : State} (hst : Steady u s) :
    Steady u (spSend bs r s) := by
  unfold spSend
  repeat' first
    | intro _
    | with_reducible first | assumption | apply State.emit_steady
    | split | dsimp only

theorem spEffect_steady {u : State} {k : SpKind} {a : Nat} {v : Word} {s : State} (hst : Steady u s) :
    Steady u (spEffect k a v s) := by
  unfold spEffect
  repeat' first
    | intro _
    | with_reducible first | assumption | apply readEffect_steady | apply busWrite_steady
    | split | dsimp only
    | with_reducible apply Steady.upd

theorem spExecute_steady {u : State} {k : SpKind} {bs : List Byte} {s : State} (hst : Steady u s) :
    Steady u (spExecute k bs s) := by
  unfold spExecute
  with_reducible apply spSend_steady
  with_reducible apply Steady.upd
  with_reducible apply spEffect_steady
  with_reducible apply Steady.upd
  exact State.bump_steady hst

theorem spCommand_steady {u : State} {k : SpKind} {bs : List Byte} {s : State} (hst : Steady u s) :
    Steady u (spCommand k bs s) := by
  unfold spCommand
  repeat' first
    | intro _
    | with_reducible first | assumption | apply spSend_steady | apply spExecute_steady
    | split | dsimp only
    | with_reducible apply Steady.upd

theorem spReset_steady {u : State} {s : State} (hst : Steady u s) :
    Steady u (spReset s) := by
  unfold spReset
  repeat' first
    | intro _
    | with_reducible first | assumption | apply State.put_steady | apply State.setWord_steady
    | with_reducible first | apply State.raise_steady | apply abortOwned_steady | apply Steady.foldl
    | split | dsimp only
    | with_reducible apply Steady.upd

theorem execSpRead_steady (bs : List Byte) (s : State) :
    OSteady s (execSpRead bs s) := by
  unfold execSpRead
  repeat' first
    | intro _
    | with_reducible first | exact Steady.refl _ | apply OSteady.next | apply OSteady.nextIf | assumption
    | with_reducible first | apply spCommand_steady
    | split | dsimp only

theorem execSpWrite_steady (bs : List Byte) (s : State) :
    OSteady s (execSpWrite bs s) := by
  unfold execSpWrite
  repeat' first
    | intro _
    | with_reducible first | exact Steady.refl _ | apply OSteady.next | apply OSteady.nextIf | assumption
    | with_reducible first | apply spCommand_steady
    | split | dsimp only

theorem execSpStatus_steady (bs : List Byte) (s : State) :
    OSteady s (execSpStatus bs s) := by
  unfold execSpStatus
  repeat' first
    | intro _
    | with_reducible first | exact Steady.refl _ | apply OSteady.next | apply OSteady.nextIf | assumption
    | with_reducible first | apply spCommand_steady
    | split | dsimp only

theorem execSpBadCommand_steady (bs : List Byte) (s : State) :
    OSteady s (execSpBadCommand bs s) := by
  unfold execSpBadCommand
  repeat' first
    | intro _
    | with_reducible first | exact Steady.refl _ | apply OSteady.next | apply OSteady.nextIf | assumption
    | with_reducible first | apply spSend_steady
    | split | dsimp only
    | with_reducible apply Steady.upd

theorem execSpCrcError_steady (bs : List Byte) (s : State) :
    OSteady s (execSpCrcError bs s) := by
  unfold execSpCrcError
  repeat' first
    | intro _
    | with_reducible first | exact Steady.refl _ | apply OSteady.next | apply OSteady.nextIf | assumption
    | with_reducible first | apply State.bump_steady | apply spSend_steady | apply spReset_steady
    | split | dsimp only
    | with_reducible apply Steady.upd

theorem execSpCsEarly_steady (bs : List Byte) (s : State) :
    OSteady s (execSpCsEarly bs s) := by
  unfold execSpCsEarly
  repeat' first
    | intro _
    | with_reducible first | exact Steady.refl _ | apply OSteady.next | apply OSteady.nextIf | assumption
    | split | dsimp only

theorem execSafetyPortWatchdog_steady (s : State) :
    OSteady s (execSafetyPortWatchdog s) := by
  unfold execSafetyPortWatchdog
  repeat' first
    | intro _
    | with_reducible first | exact Steady.refl _ | apply OSteady.next | apply OSteady.nextIf | assumption
    | with_reducible first | apply State.put_steady | apply State.raise_steady | apply stopAction_steady
    | split | dsimp only
    | with_reducible apply Steady.upd

theorem execSafetyPortReset_steady (s : State) :
    OSteady s (execSafetyPortReset s) := by
  unfold execSafetyPortReset
  repeat' first
    | intro _
    | with_reducible first | exact Steady.refl _ | apply OSteady.next | apply OSteady.nextIf | assumption
    | with_reducible first | apply spReset_steady
    | split | dsimp only

/-! ## ImageLoad -/

theorem loadHook_steady {u : State} {a : Nat} {s0 : State} {s : State} (hst : Steady u s) :
    Steady u (loadHook a s0 s) := by
  unfold loadHook
  repeat' first
    | intro _
    | with_reducible first | assumption | apply State.eachCh_steady | apply heaterOff_steady
    | with_reducible first | apply State.refreshHolds_steady | apply settleScale_steady | apply applyBrg_steady
    | with_reducible first | apply applyEmu_steady | apply applyPos_steady | apply applyFt_steady
    | with_reducible first | apply applyTun_steady | apply applyThm_steady | apply applyMot_steady
    | with_reducible first | apply Steady.foldl
    | split | dsimp only
    | with_reducible apply Steady.upd

theorem loadWrite_steady {u : State} {a : Nat} {v : Word} {s : State} (hst : Steady u s) :
    Steady u (loadWrite a v s) := by
  unfold loadWrite
  repeat' first
    | intro _
    | with_reducible first | assumption | apply State.setWord_steady | apply writeReg_steady | apply loadHook_steady
    | split | dsimp only

theorem loadList_steady {u : State} {q : Nat → Bool} {base : Nat} {l : List (Nat × Word)} {s : State} (hst : Steady u s) :
    Steady u (loadList q base l s) := by
  unfold loadList
  repeat' first
    | intro _
    | with_reducible first | assumption | apply loadWrite_steady | apply Steady.foldl
    | split | dsimp only

theorem loadMatrix_steady {u : State} {n : Fin 16} {b : List Byte} {s : State} (hst : Steady u s) :
    Steady u (loadMatrix n b s) := by
  unfold loadMatrix
  repeat' first
    | intro _
    | with_reducible first | assumption | apply State.modImg_steady
    | split | dsimp only
    | with_reducible apply Steady.upd

theorem loadChan_steady {u : State} {e : Sect} {b : List Byte} {n : Fin 16} {s : State} (hst : Steady u s) :
    Steady u (loadChan e b n s) := by
  unfold loadChan
  repeat' first
    | intro _
    | with_reducible first | assumption | apply State.modIso_steady | apply loadList_steady | apply loadMatrix_steady
    | with_reducible first | apply loadWrite_steady | apply Steady.foldl
    | split | dsimp only
    | with_reducible apply Steady.upd

theorem loadInsTable_steady {u : State} {b : List Byte} {s : State} (hst : Steady u s) :
    Steady u (loadInsTable b s) := by
  unfold loadInsTable
  repeat' first
    | intro _
    | with_reducible first | assumption | apply Steady.foldl
    | split | dsimp only
    | with_reducible apply Steady.upd

theorem loadSect_steady {u : State} {e : Sect} {b : List Byte} {s : State} (hst : Steady u s) :
    Steady u (loadSect e b s) := by
  unfold loadSect
  repeat' first
    | intro _
    | with_reducible first | assumption | apply State.eachCh_steady | apply loadChan_steady
    | with_reducible first | apply loadInsTable_steady | apply loadList_steady
    | split | dsimp only
    | with_reducible apply Steady.upd

/-! ## Tap -/

theorem releaseTap_steady {u : State} {s : State} (hst : Steady u s) :
    Steady u (releaseTap s) := by
  unfold releaseTap
  repeat' first
    | intro _
    | with_reducible first | assumption
    | split | dsimp only
    | with_reducible apply Steady.upd

theorem tapOp_steady {u : State} {s : State} {o : TapOp} (hst : Steady u s) :
    Steady u (tapOp s o) := by
  unfold tapOp
  repeat' first
    | intro _
    | with_reducible first | assumption | apply State.emit_steady
    | split | dsimp only
    | with_reducible apply Steady.upd

/-! ## Services -/

/-- The state of an answer, where there is one, is steady. -/

structure ASteady (u : State) (x : Option Answer) : Prop where
  steady : ∀ a, x = some a → Steady u a.state

theorem ASteady.none {u : State} : ASteady u none := ⟨fun _ e => by cases e⟩

theorem ASteady.some {u : State} {x : Answer} (h : Steady u x.state) : ASteady u (some x) :=
  ⟨fun a e => by injection e with e; exact e ▸ h⟩

theorem answerOf_steady {u : State} {st : Nat} {ws : List Word} {s : State} (hst : Steady u s) :
    Steady u (answerOf st ws s).state := hst

theorem sendReply_steady {u : State} {m : Fin 48} {q : Port} {h : Word} {x : Answer} (hst : Steady u x.state) :
    Steady u (sendReply m q h x) := by
  unfold sendReply
  split
  · exact postReply_steady hst
  · exact hst

theorem serveWith_steady {u : State} {c : Nat} {m : Fin 48} {f : Port → Word → State → Option Answer}
    {after : State → State} {s : State} (hst : Steady u s)
    (hf : ∀ q h s1, Steady u s1 → ASteady u (f q h s1)) (ha : ∀ s1, Steady u s1 → Steady u (after s1)) :
    Steady u (serveWith c m f after s) := by
  have h1 : Steady u (releaseMsg m s) := releaseMsg_steady hst
  unfold serveWith
  split
  · exact hst
  · dsimp only
    split
    · exact hst
    · split
      · exact sendReply_steady h1
      · split
        · exact hst
        · next x e =>
          have hx := sendReply_steady (m := m) (q := ‹Port›) (h := BitVec.ofNat 32 (s.reqWord m 0)) ((hf _ _ _ h1).steady x e)
          split
          · exact ha _ hx
          · exact hx

theorem serve_steady {u : State} {c : Nat} {m : Fin 48} {f : State → Answer} {s : State} (hst : Steady u s)
    (hf : ∀ s1, Steady u s1 → Steady u (f s1).state) : Steady u (serve c m f s) :=
  serveWith_steady hst (fun _ _ _ h => ASteady.some (hf _ h)) fun _ h => h

theorem serveCh_steady {u : State} {c : Nat} {m : Fin 48} {f : Fin 16 → State → Answer} {s : State} (hst : Steady u s)
    (hf : ∀ n s1, Steady u s1 → Steady u (f n s1).state) : Steady u (serveCh c m f s) := by
  apply serve_steady hst
  intro s1 h
  split
  · exact hf _ _ h
  · exact h

theorem execPing_steady (m : Fin 48) (s : State) :
    OSteady s (execPing m s) := by
  unfold execPing
  repeat' first
    | intro _
    | with_reducible first | exact Steady.refl _ | apply OSteady.next | apply OSteady.nextIf | assumption
    | with_reducible first | apply serve_steady | apply answerOf_steady | exact ASteady.none | apply ASteady.some
    | split | dsimp only
    | with_reducible apply Steady.upd

theorem execBandrec_steady (m : Fin 48) (s : State) :
    OSteady s (execBandrec m s) := by
  unfold execBandrec
  repeat' first
    | intro _
    | with_reducible first | exact Steady.refl _ | apply OSteady.next | apply OSteady.nextIf | assumption
    | with_reducible first | apply serveCh_steady | apply answerOf_steady | exact ASteady.none | apply ASteady.some
    | split | dsimp only
    | with_reducible apply Steady.upd

theorem execChkpt_steady (m : Fin 48) (s : State) :
    OSteady s (execChkpt m s) := by
  unfold execChkpt
  repeat' first
    | intro _
    | with_reducible first | exact Steady.refl _ | apply OSteady.next | apply OSteady.nextIf | assumption
    | with_reducible first | apply serveCh_steady | apply answerOf_steady | exact ASteady.none | apply ASteady.some
    | split | dsimp only
    | with_reducible apply Steady.upd

theorem execTunnow_steady (m : Fin 48) (raw : Int) (ok : Bool) (s : State) :
    OSteady s (execTunnow m raw ok s) := by
  unfold execTunnow
  repeat' first
    | intro _
    | with_reducible first | exact Steady.refl _ | apply OSteady.next | apply OSteady.nextIf | assumption
    | with_reducible first | apply State.takeFree_steady | apply tunResult_steady | apply serve_steady
    | with_reducible first | apply answerOf_steady | exact ASteady.none | apply ASteady.some
    | split | dsimp only
    | with_reducible apply Steady.upd

theorem restartAfter_steady {u : State} {m : Fin 48} {s : State} (hst : Steady u s) :
    Steady u (restartAfter m s) := by
  unfold restartAfter
  repeat' first
    | intro _
    | with_reducible first | assumption | apply supReset_steady
    | split | dsimp only
    | with_reducible apply Steady.upd

theorem execSuprst_steady (m : Fin 48) (s : State) :
    OSteady s (execSuprst m s) := by
  unfold execSuprst
  repeat' first
    | intro _
    | with_reducible first | exact Steady.refl _ | apply OSteady.next | apply OSteady.nextIf | assumption
    | with_reducible first | apply restartAfter_steady | apply serveWith_steady | apply answerOf_steady
    | with_reducible first | exact ASteady.none | apply ASteady.some
    | split | dsimp only
    | with_reducible apply Steady.upd

theorem execSlotinfo_steady (m : Fin 48) (s : State) :
    OSteady s (execSlotinfo m s) := by
  unfold execSlotinfo
  repeat' first
    | intro _
    | with_reducible first | exact Steady.refl _ | apply OSteady.next | apply OSteady.nextIf | assumption
    | with_reducible first | apply serve_steady | apply answerOf_steady | exact ASteady.none | apply ASteady.some
    | split | dsimp only

theorem execBandstate_steady (m : Fin 48) (s : State) :
    OSteady s (execBandstate m s) := by
  unfold execBandstate
  repeat' first
    | intro _
    | with_reducible first | exact Steady.refl _ | apply OSteady.next | apply OSteady.nextIf | assumption
    | with_reducible first | apply serve_steady | apply answerOf_steady | exact ASteady.none | apply ASteady.some
    | split | dsimp only
    | with_reducible apply Steady.upd

theorem execBandlist_steady (m : Fin 48) (s : State) :
    OSteady s (execBandlist m s) := by
  unfold execBandlist
  repeat' first
    | intro _
    | with_reducible first | exact Steady.refl _ | apply OSteady.next | apply OSteady.nextIf | assumption
    | with_reducible first | apply serve_steady | apply answerOf_steady | exact ASteady.none | apply ASteady.some
    | split | dsimp only
    | with_reducible apply Steady.upd

theorem execUnknownCode_steady (m : Fin 48) (s : State) : OSteady s (execUnknownCode m s) := by
  have h1 : Steady s (releaseMsg m s) := releaseMsg_steady (Steady.refl s)
  have hs := Steady.refl s
  unfold execUnknownCode
  apply OSteady.next
  split
  · dsimp only
    split
    · exact sendReply_steady (answerOf_steady h1)
    · exact hs
  · exact hs

theorem isolate_steady {u : State} {n : Fin 16} {s : State} (hst : Steady u s) :
    Steady u (isolate n s) := by
  unfold isolate
  repeat' first
    | intro _
    | with_reducible first | assumption | apply State.takeFree_steady | apply State.modIso_steady
    | with_reducible first | apply linkOff_steady | apply syncTrackers_steady | apply withFrets_steady
    | split | dsimp only
    | with_reducible apply Steady.upd

theorem reinstateProt_steady {u : State} {n : Fin 16} {s : State} (hst : Steady u s) :
    Steady u (reinstateProt n s) := by
  unfold reinstateProt
  repeat' first
    | intro _
    | with_reducible first | assumption | apply State.setWord_steady | apply applyBrg_steady | apply Steady.foldl
    | split | dsimp only

theorem execChisol_steady (m : Fin 48) (s : State) : OSteady s (execChisol m s) := by
  unfold execChisol
  apply OSteady.next
  apply serveWith_steady (Steady.refl s) _ fun _ h => h
  intro q h s1 hs
  split
  · exact ASteady.some (answerOf_steady hs)
  · split
    · exact ASteady.some (answerOf_steady hs)
    · split
      · exact ASteady.some (answerOf_steady hs)
      · split
        · split
          · exact ASteady.some (answerOf_steady hs)
          · exact ASteady.none
        · exact ASteady.some (answerOf_steady (isolate_steady (drain_steady hs)))

theorem serveCut_steady {u : State} {c : Nat} {m : Fin 48} {f : Fin 16 → State → State} {s : State} (hst : Steady u s) (hf : ∀ (x0 : Fin 16) (x1 : State), Steady u x1 → Steady u (f x0 x1)) :
    Steady u (serveCut c m f s) := by
  unfold serveCut
  repeat' first
    | intro _
    | with_reducible first | assumption | apply hf
    | split | dsimp only
    | with_reducible apply Steady.upd

theorem bistDamage_steady {u : State} {n : Fin 16} {mask : Nat} {s : State} (hst : Steady u s) :
    Steady u (bistDamage n mask s) := by
  unfold bistDamage
  repeat' first
    | intro _
    | with_reducible first | assumption | apply State.modCh_steady | apply State.setWord_steady | apply Steady.foldl
    | split | dsimp only
    | with_reducible apply Steady.upd

theorem execChbist_steady (m : Fin 48) (res : Nat) (s : State) :
    OSteady s (execChbist m res s) := by
  unfold execChbist
  repeat' first
    | intro _
    | with_reducible first | exact Steady.refl _ | apply OSteady.next | apply OSteady.nextIf | assumption
    | with_reducible first | apply State.takeFree_steady | apply State.modIso_steady | apply bistDamage_steady
    | with_reducible first | apply serveCh_steady | apply serveCut_steady | apply answerOf_steady | exact ASteady.none
    | with_reducible first | apply ASteady.some
    | split | dsimp only
    | with_reducible apply Steady.upd

theorem trainMem_steady {u : State} {n : Fin 16} {ok : Bool} {s : State} (hst : Steady u s) :
    Steady u (trainMem n ok s).state := by
  unfold trainMem
  have h := State.modIso_steady (n := n) (f := fun i => { i with untrained := !ok }) hst
  dsimp only
  split <;> exact answerOf_steady h

theorem powerUpCh_steady {u : State} {n : Fin 16} {up trained : Bool} {s : State} (hst : Steady u s) :
    Steady u (powerUpCh n up trained s).state := by
  unfold powerUpCh
  have h := endRamp_steady (d := 8 + n.val) (on := true) (up := up) (beginRamp_steady (d := 8 + n.val) (on := true) hst)
  dsimp only
  split
  · split
    · exact trainMem_steady hst
    · exact answerOf_steady hst
  · split
    · exact answerOf_steady (requestDom_steady hst)
    · split
      · exact trainMem_steady (reinstateProt_steady h)
      · exact answerOf_steady h

theorem powerDownCh_steady {u : State} {n : Fin 16} {s : State} (hst : Steady u s) :
    Steady u (powerDownCh n s).state := by
  unfold powerDownCh
  dsimp only
  split
  · exact answerOf_steady (endRamp_steady (beginRamp_steady hst))
  · exact answerOf_steady hst

theorem execChpower_steady (m : Fin 48) (up trained : Bool) (s : State) : OSteady s (execChpower m up trained s) := by
  unfold execChpower
  apply OSteady.next
  apply serveWith_steady (Steady.refl s) _ fun _ h => h
  intro q h s1 hs
  split
  · exact ASteady.some (answerOf_steady hs)
  · split
    · exact ASteady.some (answerOf_steady hs)
    split
    · exact ASteady.some (answerOf_steady hs)
    split
    · exact ASteady.none
    apply ASteady.some
    split
    · exact powerDownCh_steady hs
    · exact powerUpCh_steady hs

theorem loadChannel_steady {u : State} {n : Fin 16} {sl : Slot} {s : State} (hst : Steady u s) :
    Steady u (loadChannel n sl s) := by
  unfold loadChannel
  with_reducible apply reinstateProt_steady
  with_reducible apply Steady.upd
  with_reducible apply Steady.foldl
  · exact hst.trans ⟨rfl, rfl, id, id⟩
  · intro s x h
    exact loadChan_steady h

theorem execChload_steady (m : Fin 48) (s : State) :
    OSteady s (execChload m s) := by
  unfold execChload
  repeat' first
    | intro _
    | with_reducible first | exact Steady.refl _ | apply OSteady.next | apply OSteady.nextIf | assumption
    | with_reducible first | apply State.modIso_steady | apply loadChannel_steady | apply serveCh_steady
    | with_reducible first | apply serveCut_steady | apply answerOf_steady | exact ASteady.none | apply ASteady.some
    | with_reducible first | apply Steady.foldl
    | split | dsimp only
    | with_reducible apply Steady.upd

theorem join_steady {u : State} {n : Fin 16} {s : State} (hst : Steady u s) :
    Steady u (join n s) := by
  unfold join
  repeat' first
    | intro _
    | with_reducible first | assumption | apply State.modFt_steady | apply State.modIso_steady | apply resumeCh_steady
    | with_reducible first | apply startIdent_steady | apply syncTrackers_steady | apply withFrets_steady
    | split | dsimp only
    | with_reducible apply Steady.upd

theorem execChjoin_steady (m : Fin 48) (s : State) :
    OSteady s (execChjoin m s) := by
  unfold execChjoin
  repeat' first
    | intro _
    | with_reducible first | exact Steady.refl _ | apply OSteady.next | apply OSteady.nextIf | assumption
    | with_reducible first | apply serveCh_steady | apply join_steady | apply answerOf_steady | exact ASteady.none
    | with_reducible first | apply ASteady.some
    | split | dsimp only

theorem execNoztest_steady (m : Fin 48) (s : State) : OSteady s (execNoztest m s) := by
  have h1 : Steady s (releaseMsg m s) := releaseMsg_steady (Steady.refl s)
  have hs := Steady.refl s
  have say (q : Port) (h : Word) (st : Nat) : Steady s (sendReply m q h (answerOf st [] (releaseMsg m s))) :=
    sendReply_steady (answerOf_steady h1)
  unfold execNoztest
  apply OSteady.next
  split
  · exact hs
  dsimp only
  split
  · exact hs
  split
  · exact say _ _ _
  split
  · exact say _ _ _
  split
  · exact say _ _ _
  split
  · exact say _ _ _
  split
  · exact hs
  split
  · exact hs
  · exact startTest_steady h1

theorem seqRestart_steady {u : State} {n : Fin 16} {s : State} (hst : Steady u s) :
    Steady u (seqRestart n s) := by
  unfold seqRestart
  repeat' first
    | intro _
    | with_reducible first | assumption | apply State.modWork_steady | apply clearInbound_steady
    | with_reducible first | apply releaseLocks_steady | apply dropHeld_steady
    | split | dsimp only
    | with_reducible apply Steady.upd

theorem execSeqrst_steady (m : Fin 48) (s : State) :
    OSteady s (execSeqrst m s) := by
  unfold execSeqrst
  repeat' first
    | intro _
    | with_reducible first | exact Steady.refl _ | apply OSteady.next | apply OSteady.nextIf | assumption
    | with_reducible first | apply serveCh_steady | apply seqRestart_steady | apply answerOf_steady
    | with_reducible first | exact ASteady.none | apply ASteady.some
    | split | dsimp only

theorem enterBscan_steady {u : State} {s : State} (hst : Steady u s) :
    Steady u (enterBscan s) := by
  unfold enterBscan
  repeat' first
    | intro _
    | with_reducible first | assumption | apply State.enterSafe_steady | apply releaseTap_steady
    | split | dsimp only
    | with_reducible apply Steady.upd

theorem execBscan_steady (m : Fin 48) (tck : List TapOp) (s : State) :
    OSteady s (execBscan m tck s) := by
  unfold execBscan
  repeat' first
    | intro _
    | with_reducible first | exact Steady.refl _ | apply OSteady.next | apply OSteady.nextIf | assumption
    | with_reducible first | apply enterBscan_steady | apply serve_steady | apply tapOp_steady | apply answerOf_steady
    | with_reducible first | exact ASteady.none | apply ASteady.some | apply Steady.foldl
    | split | dsimp only
    | with_reducible apply Steady.upd

theorem execTeststat_steady (m : Fin 48) (s : State) :
    OSteady s (execTeststat m s) := by
  unfold execTeststat
  repeat' first
    | intro _
    | with_reducible first | exact Steady.refl _ | apply OSteady.next | apply OSteady.nextIf | assumption
    | with_reducible first | apply serveCh_steady | apply answerOf_steady | exact ASteady.none | apply ASteady.some
    | split | dsimp only

/-! ## Boot -/

theorem bootOff_steady {u : State} {s : State} (hst : Steady u s) :
    Steady u (bootOff s) := by
  unfold bootOff
  repeat' first
    | intro _
    | with_reducible first | assumption | apply startRamp_steady | apply acceptDom_steady | apply Steady.foldl
    | split | dsimp only

theorem enterNoImage_steady {u : State} {s : State} (hst : Steady u s) :
    Steady u (enterNoImage s) := by
  unfold enterNoImage
  repeat' first
    | intro _
    | with_reducible first | assumption | apply State.put_steady | apply State.raise_steady | apply bootOff_steady
    | split | dsimp only
    | with_reducible apply Steady.upd

theorem dropFw_steady {u : State} {s : State} (hst : Steady u s) :
    Steady u (dropFw s) := by
  unfold dropFw
  repeat' first
    | intro _
    | with_reducible first | assumption
    | split | dsimp only
    | with_reducible apply Steady.upd

theorem onAndOff_steady {u : State} {n : Fin 16} {s : State} (hst : Steady u s) :
    Steady u (onAndOff n s) := by
  unfold onAndOff
  repeat' first
    | intro _
    | with_reducible first | assumption | apply requestDom_steady
    | split | dsimp only
    | with_reducible apply Steady.upd

theorem beginLoad_steady {u : State} {sl : Slot} {fall : Bool} {s : State} (hst : Steady u s) :
    Steady u (beginLoad sl fall s) := by
  unfold beginLoad
  with_reducible apply startRamp_steady
  with_reducible apply State.eachCh_steady
  · with_reducible apply Steady.foldl
    · iterate 4 with_reducible apply State.put_steady
      exact (dropFw_steady hst).trans ⟨rfl, rfl, id, id⟩
    · intro s d h
      exact requestDom_steady h
  · intro n s h
    repeat' split
    all_goals first
      | exact onAndOff_steady h
      | exact h

theorem execSlotSelect_steady (s : State) :
    OSteady s (execSlotSelect s) := by
  unfold execSlotSelect
  repeat' first
    | intro _
    | with_reducible first | exact Steady.refl _ | apply OSteady.next | apply OSteady.nextIf | assumption
    | with_reducible first | apply State.setWord_steady | apply State.put_steady | apply beginLoad_steady
    | with_reducible first | apply enterNoImage_steady | apply noteSlot_steady | apply writePref_steady
    | split | dsimp only
    | with_reducible apply Steady.upd

theorem unload_steady {u : State} {a : Nat} {s : State} (hst : Steady u s) :
    Steady u (unload a s) := by
  unfold unload
  repeat' first
    | intro _
    | with_reducible first | assumption | apply State.setWord_steady
    | split | dsimp only
    | with_reducible apply Steady.upd

theorem slotFails_steady {u : State} {cause : Nat} {i : Nat} {s : State} (hst : Steady u s) :
    Steady u (slotFails cause i s) := by
  unfold slotFails
  extract_lets sl s1 s2 s3
  have hs1 : Steady u s1 := by
    unfold s1
    repeat' first
      | intro _
      | with_reducible first | assumption | apply State.put_steady | apply setFailRec_steady
      | split | dsimp only
      | with_reducible apply Steady.upd
  clear_value s1
  have hs2 : Steady u s2 := by
    unfold s2
    repeat' first
      | intro _
      | with_reducible first | assumption | apply State.raise_steady | apply noteSlot_steady
      | split | dsimp only
      | with_reducible apply Steady.upd
  clear_value s2
  have hs3 : Steady u s3 := by
    unfold s3
    repeat' first
      | intro _
      | with_reducible first | assumption | apply bootOff_steady | apply unload_steady | apply Steady.foldl
      | split | dsimp only
      | with_reducible apply Steady.upd
  clear_value s3
  repeat' first
    | intro _
    | with_reducible first | assumption | apply beginLoad_steady | apply dropFw_steady | apply enterNoImage_steady
    | split | dsimp only
    | with_reducible apply Steady.upd

theorem execSectionLoaded_steady (ok : Bool) (s : State) :
    OSteady s (execSectionLoaded ok s) := by
  unfold execSectionLoaded
  repeat' first
    | intro _
    | with_reducible first | exact Steady.refl _ | apply OSteady.next | apply OSteady.nextIf | assumption
    | with_reducible first | apply loadSect_steady | apply slotFails_steady
    | split | dsimp only
    | with_reducible apply Steady.upd

theorem seedTuner_steady {u : State} {b : List Byte} {seed : Nat} {s : State} (hst : Steady u s) :
    Steady u (seedTuner b seed s) := by
  unfold seedTuner
  with_reducible apply Steady.foldl
  · with_reducible apply Steady.foldl
    · with_reducible apply Steady.upd
      with_reducible apply Steady.foldl hst
      intro s k h
      exact State.setWord_steady h
    · intro s x h
      dsimp only
      split
      · exact setEntry_steady h
      · exact h
  · intro s c h
    exact State.put_steady (State.setPair_steady (State.put_steady h))

theorem execBootLoadComplete_steady (s : State) :
    OSteady s (execBootLoadComplete s) := by
  unfold execBootLoadComplete
  repeat' first
    | intro _
    | with_reducible first | exact Steady.refl _ | apply OSteady.next | apply OSteady.nextIf | assumption
    | with_reducible first | apply State.put_steady | apply slotFails_steady | apply seedTuner_steady
    | split | dsimp only
    | with_reducible apply Steady.upd

theorem execMemoryTrained_steady (n : Fin 16) (s : State) :
    OSteady s (execMemoryTrained n s) := by
  unfold execMemoryTrained
  repeat' first
    | intro _
    | with_reducible first | exact Steady.refl _ | apply OSteady.next | apply OSteady.nextIf | assumption
    | split | dsimp only
    | with_reducible apply Steady.upd

theorem execMemoryTrainTimeout_steady (n : Fin 16) (s : State) :
    OSteady s (execMemoryTrainTimeout n s) := by
  unfold execMemoryTrainTimeout
  repeat' first
    | intro _
    | with_reducible first | exact Steady.refl _ | apply OSteady.next | apply OSteady.nextIf | assumption
    | with_reducible first | apply startRamp_steady | apply acceptDom_steady | apply trainFailed_steady
    | split | dsimp only

theorem execBootReady_steady (s : State) :
    OSteady s (execBootReady s) := by
  unfold execBootReady
  repeat' first
    | intro _
    | with_reducible first | exact Steady.refl _ | apply OSteady.next | apply OSteady.nextIf | assumption
    | with_reducible first | apply State.put_steady | apply State.modIso_steady | apply State.eachCh_steady
    | with_reducible first | apply State.raise_steady | apply resumeCh_steady | apply takeWaiting_steady
    | with_reducible first | apply Steady.foldl
    | split | dsimp only
    | with_reducible apply Steady.upd

theorem giveNvm_steady (m : Master) (code : Nat) (sl : Slot) (s : State) : OSteady s (giveNvm m code sl s) :=
  OSteady.next (State.wr_steady (Steady.refl s) fun _ h => nvmCmdWrite_steady h)

theorem execNvmRead_steady (m : Master) (s : State) : OSteady s (execNvmRead m s) := giveNvm_steady m _ _ s

theorem execNvmProgram_steady (m : Master) (s : State) : OSteady s (execNvmProgram m s) := giveNvm_steady m _ _ s

theorem execNvmErase_steady (m : Master) (s : State) : OSteady s (execNvmErase m s) := giveNvm_steady m _ _ s

theorem execNvmVerify_steady (m : Master) (sl : Slot) (s : State) : OSteady s (execNvmVerify m sl s) := giveNvm_steady m _ _ s

theorem programFlash_steady {u : State} {a : Nat} {bs : List Byte} {s : State} (hst : Steady u s) :
    Steady u (programFlash a bs s) := by
  unfold programFlash
  repeat' first
    | intro _
    | with_reducible first | assumption | apply setFlash_steady
    | split | dsimp only
    | with_reducible apply Steady.upd

theorem verifyDone_steady {u : State} {sl : Slot} {s : State} (hst : Steady u s) :
    Steady u (verifyDone sl s) := by
  unfold verifyDone
  repeat' first
    | intro _
    | with_reducible first | assumption | apply State.put_steady | apply setFailRec_steady | apply noteSlot_steady
    | split | dsimp only

theorem nvmEffect_steady {u : State} {c : NvmCmd} {data : List Byte} {s : State} (hst : Steady u s) :
    Steady u (nvmEffect c data s) := by
  unfold nvmEffect
  repeat' first
    | intro _
    | with_reducible first | assumption | apply State.emit_steady | apply setFlash_steady | apply programFlash_steady
    | with_reducible first | apply verifyDone_steady
    | split | dsimp only

theorem execNvmDone_steady (err : Fin 3) (data : List Byte) (s : State) :
    OSteady s (execNvmDone err data s) := by
  unfold execNvmDone
  repeat' first
    | intro _
    | with_reducible first | exact Steady.refl _ | apply OSteady.next | apply OSteady.nextIf | assumption
    | with_reducible first | apply State.put_steady | apply State.raise_steady | apply failNvm_steady
    | with_reducible first | apply nvmEffect_steady
    | split | dsimp only
    | with_reducible apply Steady.upd

/-! ## Clock -/

/-- The passing of a tick moves the clock on and is steady beside. -/
theorem State.passTick_steady (s : State) : Steady { s with tick := s.tick + 1 } s.passTick := by
  have key (t : State) (h : Steady s t) : Steady { s with tick := s.tick + 1 } { t with tick := s.tick + 1 } :=
    ⟨h.pending, rfl, h.bar, h.latch⟩
  exact startRamp_steady (expServe_steady (emuTick_steady (key _ (noteGates_steady (Steady.refl s)))))

end Sys2Proof.Machine
end

