-- ==== Sys2Proof/Tests/Slice0.lean ====
section
/-! SUPPORT. Tests: small states built by helpers, the refusals of ill-formed data, the worked examples of the spec, and for
every statement with hypotheses concrete states and operands that meet them together. -/

section Tests
set_option maxRecDepth 20000
set_option Elab.async false

namespace Sys2Proof.Tests
open Sys2Proof.Machine

/-- Fields of a state set one after the other. -/
def puts (s : State) (l : List (Fld × Nat)) : State := l.foldl (fun s x => s.put x.1 x.2) s

/-- A machine that has started: every domain ON, the host's link up. -/
def on : State :=
  let s := puts State.reset [(⟨A.SYS_DOMSTAT_LO, 0, 32⟩, 0xAAAAAAAA), (⟨A.SYS_DOMSTAT_HI, 0, 32⟩, 0xAAAA)]
  { s with tick := 10000000, boot := { s.boot with phase := .ready, resetN := true },
           host := { s.host with linkUp := true, wasUp := true, bme := true } }

/-- The started machine with fields set. -/
def onP (l : List (Fld × Nat)) : State := puts on l

/-- The started machine with channel n in a work state, and fields set. -/
def inSt (n : Fin 16) (st : Nat) (l : List (Fld × Nat)) : State := onP ((F.WRK_SCRn_STAT_STATE n, st) :: l)

/-- A descriptor of two lines of four bytes, and its 64 bytes. -/
def d0 : Desc :=
  { seq := 1, lines := 2, fmt := 0, mtx := 0, pass := 0, pstart := true, pend := true, irq := true, arm := 0, buf := 4096,
    stride := 64, width := 4, tag := 7 }
def descBody : List Byte :=
  leBytes 4 1 ++ leBytes 2 2 ++ leBytes 1 0 ++ leBytes 1 7 ++ leBytes 8 4096 ++ leBytes 4 64 ++ leBytes 4 4 ++ leBytes 8 7 ++
  leBytes 28 0
def descBytes : List Byte := descBody ++ leBytes 4 (crc32c descBody).toNat

/-- Its band record and its band in a state. -/
def r0 : BandRec :=
  { time := 0, boot := 0, desc := d0, accTime := 0, accBoot := 1, l0 := 0, state := .accepted, status := 0, npart := 0, nfired := 0 }
def b0 (st : BandState) : Band := { r0.toBand 1 with state := st }

/-- A completion record that is due. -/
def due0 : DueRec :=
  { seq := 1, status := 0, reject := false, repost := false, irq := true, resumed := false, npart := 0, nfired := 2, boot := 1,
    tag := 7, time := 8 }

/-- A band of two lines in channel memory, a line of it, and the job of that line. -/
def bImg : Band := { b0 .firing with img := [[10, 20, 30, 40], [50, 60, 70, 80]] }
def l0 : Line :=
  { seq := 1, line := 1, l := 1, page := 1, pass := 0, codes := [0, 1, 2, 3], passes := [0, 0, 0, 0], single := false, back := false }
def j0 (st : Stage) : Job := { line := l0, stage := st, outA := l0.codes, outB := l0.codes, resA := true, resB := true, after := .screened }
def withJob (n : Fin 16) (st : Stage) (s : State) : State := s.modImg n fun i => { i with job := some (j0 st) }

/-- The duty limiter's decision on that line, and the line decided. -/
def dec0 : DutyDec := { line := l0, out := l0.codes, nDem := 0, nSup := 0, lvl := 0, t0 := 0, first := false }
def decd0 : Decided :=
  { duty := dec0, fireTick := 9999999, refired := false, retx := false, altEnc := false, dir := false, sosk := false }
def win0 : Win :=
  { seq := 1, line := 1, slot := 0, fireTick := 9999000, segDly := 8, endTick := 9999500, tab := 0, bank := 0, segDone := 0,
    startTicks := [9999000, 9999160] }

/-- Encoder e enabled in x4 mode; with the lines of a front end set. -/
def encOn (e : Fin 4) (l : List (Fld × Nat)) : State := onP ([(F.POS_ENCe_CFG_EN e, 1), (F.POS_ENCe_CFG_MODE e, 2)] ++ l)
def sig (r a : Bool) : EncSig := { raw := r, acc := a, tick := 0 }

/-- A frame outstanding on channel n with the link UP. -/
def fr0 (typ : Nat) : Frame :=
  { typ := typ, fsn := 7, tab := 0, mbank := 0, payload := [1], retx := 0, endTick := 9000000, masks := [], soft := none }
def linked (n : Fin 16) (l : List (Fld × Nat)) (f : Option Frame) : State :=
  (onP ((F.CHn_BRG_STAT_LSTATE n, 3) :: l)).modBrg n fun b => { b with outst := f }

/-- A head board's identity record with no trim data, for four nozzles. -/
def idBody : List Byte := leBytes 4 0x44494855 ++ [1] ++ leBytes 53 0 ++ leBytes 2 4 ++ leBytes 192 0
def idRec : List Byte := idBody ++ leBytes 4 (crc32 idBody).toNat

/-- The entry that sets LEAD of channel 3 to 9, and slot t in a state with an owner and entries. -/
def e3 : Entry := ⟨A.CHn_IMG_CTRL 3, 0x4009⟩
def slotIn (t : Fin 16) (st owner : Nat) (es : List Entry) (l : List (Fld × Nat)) : State :=
  (onP ([(F.CAPO_TXt_STAT_STATE t, st), (F.CAPO_TXt_STAT_OWNER t, owner)] ++ l)).modSlot t fun c =>
    { c with entries := es, startTick := 9999900 }

/-- A frame of two lines of one pixel on a camera port, with a ladder of one line for channel 0, and a port inside it. -/
def lad0 : LadSet := { n := 0, words := [0x10002, 0, 0, 0, 0, 0] }
def cf0 : CamFrame :=
  { frame := 1, set := [0, 0x10001, 0, 0x10000, 0], lads := [lad0], lad := true, dens := true, starts := [], seen := [], ink := [],
    flags := 0, ended := false, ladDone := [], densDone := [] }
def inCam (p : Fin 2) (f : CamFrame) (g : CamPort → CamPort) : State :=
  (onP [(F.INS_Pp_STAT_INFRAME p, 1), (F.INS_Pp_CFG_EN p, 1)]).modCam p fun c => g { c with frames := [f] }
def cl0 : CamLine := { frame := 1, num := 0, time := 8, px := [(100, 200, 300)] }

/-- A result that finds nozzle 0 deviating and nozzle 1 missing, as the only one that waits for a round. -/
def hr0 : HealRes := { n := 0, res := [{ meas := true, cls := 2 }, { meas := true, cls := 3 }], live := [true, true] }
def hs0 : HealSet := { port := 0, frame := 1, chans := [hr0] }
def healing (l : List (Fld × Nat)) : State :=
  let s := onP ([(F.INS_LADn_CFG_HEAL 0, 1), (F.CHn_IMG_GEOM_NNOZ 0, 2)] ++ l)
  { s with ins := { s.ins with pend := [hs0] } }

/-- Axis x enabled in a mode, its gate driver not used as step output. -/
def axisOn (x : Fin 4) (mode : Nat) (l : List (Fld × Nat)) : State :=
  onP ([(F.MOT_AXa_CTRL_EN x, 1), (F.MOT_AXa_CTRL_MODE x, mode)] ++ l)
def coil0 (drive : Bool) (since : Nat) : CoilSt :=
  { idle := false, drive := drive, neg := false, since := since, prevDecay := none, probed := false, openRun := 0, shortRun := 0,
    gates := [false, false, false, false], was := [false, false, false, false], gateTick := 0 }
def chops (x : Fin 4) (k : CoilSt) (l : List (Fld × Nat)) : State := (axisOn x 0 l).modAxis x fun a => { a with coilA := k }

/-- On-die sensor 40 has a value, and a measurement of a class is in progress. -/
def measuring (c : Fin 3) (i : Nat) (l : List (Fld × Nat)) : State :=
  let s := modSens 40 (fun x => { x with has := true, own := true })
    (onP ([(F.TUN_CFGc_EN c, 1), (F.THM_TSs_VAL_VALUE 40, 300)] ++ l))
  { s with tun := { s.tun with meas := s.tun.meas.set c (some i) } }

/-- Mailbox m holds a message of port q; and port p's bank of mailbox m holds a message. -/
def req (m : Fin 48) (q : Port) (ws : List Word) (s : State) : State :=
  s.modMb m fun b => { b with full := true, src := some q, len := ws.length, msg := ws }
def banked (m : Fin 48) (p : Port) (w : Word) (s : State) : State :=
  (s.put ((F.MBX_m_CTRL_LEN m).bank (portBank p)) 1).setWord (bankOf (portBank p) (A.MBX_m_DATAw m 0)) w

/-- A checkpoint, and channel n's part of the journal set. -/
def k0 : Ckpt := { pos := { seq := 1, line := 2, state := 1, dir := false, sosk := false }, ackSeq := 0, boot := 1, time := 5, nrate := 0 }
def journalled (n : Fin 16) (j : ChJnl) (s : State) : State := { s with jnl := s.jnl.set n j }

/-- Bytes placed in an erased flash; a valid image in slot a, whose one section is the supervisor's, and one of generation 0 in
slot b; bytes not placed read 0xFF. The digests and CRCs were computed apart, from R359 to R361. -/
def put8 (a : Nat) (bs : List Byte) (f : Sparse 8) : Sparse 8 :=
  (List.range bs.length).foldl (fun (f : Sparse 8) (i : Nat) => sparseSet flashDefault f (a + i) (bs.getD i 0)) f
def run (a : Nat) (l : List Byte) : Sparse 8 := List.mapIdx (fun i b => (a + i, b)) l
def flashed (f : Sparse 8) (s : State) : State := { s with boot := { s.boot with flash := f } }
def slotA : Sparse 8 :=
  run 0 [79, 86, 73, 77, 1] ++
  run 6 [1, 0, 64, 16, 0, 0, 0, 16, 0, 0] ++
  run 20 [1, 0, 0, 0] ++
  run 48 [134, 103, 231, 24, 41, 78, 158, 13, 241, 211, 6, 0, 186, 62, 235, 32, 31, 118, 74, 173, 45, 173, 114, 116, 134, 67,
    228, 162, 133, 225, 209, 247] ++
  run 144 [108, 124, 19, 140, 62, 200, 78, 12, 17, 92, 222, 30, 211, 116, 38, 221, 201, 3, 12, 109, 164, 231, 88, 232, 43, 187,
    200, 97, 62, 152, 141, 153] ++
  run 252 [137, 29, 6, 25, 1, 0, 0, 0, 0, 16, 0, 0, 64, 0, 0, 0, 102, 78, 205, 47]
def slotAB : Sparse 8 :=
  slotA ++ run 16777216 [79, 86, 73, 77, 1] ++
  run 16777222 [1, 0, 64, 16, 0, 0, 0, 16, 0, 0] ++
  run 16777236 [0, 0, 0, 0] ++
  run 16777264 [134, 103, 231, 24, 41, 78, 158, 13, 241, 211, 6, 0, 186, 62, 235, 32, 31, 118, 74, 173, 45, 173, 114, 116, 134,
    67, 228, 162, 133, 225, 209, 247] ++
  run 16777360 [108, 124, 19, 140, 62, 200, 78, 12, 17, 92, 222, 30, 211, 116, 38, 221, 201, 3, 12, 109, 164, 231, 88, 232, 43,
    187, 200, 97, 62, 152, 141, 153] ++
  run 16777468 [92, 90, 158, 48, 1, 0, 0, 0, 0, 16, 0, 0, 64, 0, 0, 0, 102, 78, 205, 47]

/-- Channel n isolated. -/
def isolated (n : Fin 16) (s : State) : State := s.modIso n fun i => { i with isolated := true }

/-- A nozzle test. -/
def noz0 : NozTest :=
  { mbx := 33, header := 0x2A95, till := 0, saved := [], bank := 0, since := [], back := 0, newDead := 0, stage := 0, silent := false }

/-- A transaction of the Safety port of 36 bytes; the state once its command is counted. -/
def spBytes (cmd addr data : Nat) : List Byte :=
  let b := leBytes 1 cmd ++ [9, 0, 0] ++ leBytes 4 addr ++ leBytes 4 data
  b ++ leBytes 4 (crc32c b).toNat ++ List.replicate 20 0
def spRun (s : State) : State :=
  { s.bump F.PROT_SPCNT_FRAMES 1 with sp := { s.sp with lastTick := s.tick, running := true, sinceExpiry := true, crcRun := 0 } }

/-- The load of slot a with its section table at entry i, k reads of it having failed, the flash holding f. -/
def inLoad (f : Sparse 8) (i k : Nat) : State :=
  let s := flashed f on
  { s with boot := { s.boot with phase := .load i k } }
def fellBack (s : State) : State := { s with boot := { s.boot with fellBack := true } }
def ramping (r : Nat × Bool) (s : State) : State := { s with pwr := { s.pwr with ramp := some r } }
def slotA0 : Sparse 8 := put8 28 [0, 0] (put8 32 [0, 0, 0, 0, 0, 0, 0, 0] slotA)

/-- A flash command in progress. -/
def nvm (code : Nat) (s : State) : State :=
  { s with boot := { s.boot with cmd := some { code := code, addr := 0x100000, len := 4096, host := 0, slot := .a } } }
def nvm0 (code : Nat) : NvmCmd := { code := code, addr := 0x100000, len := 4096, host := 0, slot := .a }

/-- Below VNVW; with one frame to be measured; one camera sample; with ports and channels off. -/
def lowV : State := { on with pwr := { on.pwr with nvwBelow := [.vdd] } }
def meas0 (clean : Bool) (wfb : Word) : Meas :=
  { start := 9990000, stop := none, clean := clean, wfb := wfb, win := 0x20000, tgt := 1000, lim := 0x80001000 }
def measured (l : List (Fld × Nat)) (x : Meas) : State := (onP l).modWav 0 fun w => { w with meas := [x] }
def smp : CamSample := { fval := true, lval := true, dval := true, d := 0x123456789 }
def boxed (waits : List NvWait) : State := { on with pwr := { on.pwr with waits := waits } }

/-! ## Ill-formed data is refused: one term for each check -/

theorem test_wf_descriptor : (.descriptorFetch 0 (List.replicate 63 0) : Instr).wf = false := by decide +kernel
theorem test_wf_table_error : (.tableLoadError 0 .poisoned [List.replicate 511 0] : Instr).wf = false := by decide +kernel
theorem test_wf_tload : (.tload 0 [List.replicate 513 0] : Instr).wf = false := by decide +kernel
theorem test_wf_samples_before : (.wfbFrameMeasure 0 (List.replicate 15 0) [] : Instr).wf = false := by decide +kernel
theorem test_wf_samples_adc : (.wfbFrameMeasure 0 (List.replicate 16 0) [4096] : Instr).wf = false := by decide +kernel
theorem test_wf_identity : (.identityReadDone 0 (List.replicate 255 0) : Instr).wf = false := by decide +kernel
theorem test_wf_trim : (.trimReadDone 0 (List.replicate 8191 0) : Instr).wf = false := by decide +kernel
theorem test_wf_code : (.sensorConversion 0 65536 : Instr).wf = false := by decide +kernel
theorem test_wf_wtab : (.wtabWrite .pf0 257 0 : Instr).wf = false := by decide +kernel
theorem test_wf_sp_read : (.spRead (List.replicate 15 0) : Instr).wf = false := by decide +kernel
theorem test_wf_sp_write : (.spWrite (List.replicate 16 0) : Instr).wf = false := by decide +kernel
theorem test_wf_sp_status : (.spStatus (spBytes 1 0 0) : Instr).wf = false := by decide +kernel
theorem test_wf_sp_crc : (.spCrcError (spBytes 1 0 0) : Instr).wf = false := by decide +kernel
theorem test_wf_sp_early : (.spCsEarly (List.replicate 16 0) : Instr).wf = false := by decide +kernel
theorem test_wf_sp_bad : (.spBadCommand (spBytes 3 0 0) : Instr).wf = false := by decide +kernel
theorem test_wf_holds : (Instr.spStatus (spBytes 3 0 0)).wf = true := by decide +kernel
theorem test_ill_formed_faults : exec (.sensorConversion 0 65536) on = .fault .illFormed := rfl

/-- A band being loaded that lacks its second line of four bytes, and a matrix load of one row. -/
def loadingS : State := on.modWork 0 fun w => { w with bands := [{ b0 .loading with img := [[1, 2, 3, 4]] }] }
def tloadS : State := (onP [(F.CHn_IMG_TLD_STAT_BUSY 0,
  1)]).modImg 0 fun i => { i with load := some { mtx := 1, bank := 1, rows := 1, fails := 0, failTick := none } }

theorem test_fits_part : loadingS.fits (.imageDmaError 0 .poisoned [[1, 2, 3]]) = false := by decide +kernel
theorem test_fits_band : loadingS.fits (.bandLoadComplete 0 [[1, 2, 3, 4], [1, 2, 3, 4]]) = false := by decide +kernel
theorem test_fits_rows_error : tloadS.fits (.tableLoadError 0 .poisoned [[], []]) = false := by decide +kernel
theorem test_fits_rows : tloadS.fits (.tload 0 []) = false := by decide +kernel
theorem test_fits_program : (nvm 2 on).fits (.nvmDone 0 [1]) = false := by decide +kernel

theorem test_no_bits : decodeTableWord 32 0xFFFFFFFF = none := rfl

/-! ## Worked examples of the spec -/

/-- Chapter 3, one nozzle through the path, steps 2 and 3: nozzle 3 of channel 6 (1,000 there) with GAIN 0x420, its dead
neighbour 4 with GAIN 0x400, their contone 150 and 140, LUT[150] = 590, LUT[140] = 552, W1 = 0x50. -/
def nozS : State :=
  ((((onP [(F.CHn_IMG_CMPW_W1 6, 0x50), (F.CHn_IMG_CMPW_W2 6, 0)]).setWord (mapAddr 6 0 3) 0x42011).setWord (mapAddr 6 0 4)
    0x40003).setWord (lutAddr 6 0 150) 590).setWord (lutAddr 6 0 140) 552
def nozImg : List Byte := [0, 0, 0, 150, 140, 0, 0, 0]
def nozBand : Band := { b0 .firing with desc := { d0 with width := 8 }, img := [nozImg, nozImg] }
def cellS : State := (nozS.modWork 6 fun w => { w with bands := [nozBand] }).modImg 6 fun i =>
  { i with mtx := [(mtxKey 0 0 3 0, 180 + 610 * 1024 + 940 * 1048576)] }
theorem test_contone : nozS.corrected 6 nozImg 3 = 608 := by decide +kernel
theorem test_share : nozS.shares 6 nozBand nozImg 3 = 345 := by decide +kernel
theorem test_drop_code : (cellS.screenNoz 6 false 1 0 3).1 = 3 := by decide +kernel

/-- Chapter 4, a three-pulse L drop: segments 0 to 2 of its table; sample 20 at phi 5 is 10,417. -/
def dropS : State :=
  ((((((onP [(F.CHn_WAV_SCALE_SC0 2, 0x4000)]).setWord (segAddr 2 0 1 0) 5).setWord (segAddr 2 0 1 1) 0x1001E).setWord
    (segAddr 2 0 1 1 + 4) 20000).setWord (segAddr 2 0 1 2) 70).setWord (segAddr 2 0 1 2 + 4) 20000)
theorem test_sample : dropS.sampleOf 2 0 0 1 5 (dropS.segDurs 2 0 1) 20 = 10417 := by decide +kernel
theorem test_durations : dropS.segDurs 2 0 1 = [5, 30, 70] := by decide +kernel

/-- Chapter 9, classifying one nozzle: A and m of its six columns, and its result word. -/
theorem test_area : markArea [612, 640, 2950, 9380, 3020, 700] = (13630, 41080) := by decide +kernel
theorem test_result_word : ladWord 1 21800 13630 33681 = 0x00840A01 := by decide +kernel

/-- Chapter 10, WFB scale following ink temperature: steps 1, 4 and 5. -/
def inkS (e2 : Int) : State :=
  setEntry 3 4 2 (tunWord e2) (setEntry 3 4 1 (tunWord 16384) (setEntry 3 4 0 (tunWord 16128)
    (onP [(F.TUN_NPT_INPT, 4), (F.TUN_IAXw_PT0 0, 250), (F.TUN_IAXw_PT1 0, 300), (F.TUN_IAXw_PT0 1, 350), (F.TUN_IAXw_PT1 1,
      400)])))
theorem test_interpolate : (inkS 16768).interpolate 3 4 337 = some 16668 := by decide +kernel
theorem test_interpolate_again : (inkS 16700).interpolate 3 4 346 = some 16675 := by decide +kernel
theorem test_held : (inkS 16700).interpolate 3 4 412 = some 16700 := by decide +kernel

/-- Chapter 11: a head diode at 45.0 degrees with DGAIN 6,803, SOFS 24 and code 30,648. -/
theorem test_diode : (onP [(F.THM_TSs_CFG_DGAIN 3, 6803), (F.THM_TSs_OFS_SOFS 3, 24)]).thmTemp 3 30648 = some 450 := by
  decide +kernel

/-- Chapter 14, a limit change agreed by host and safety controller: the 20 bytes of the digest string. -/
theorem test_digest_string :
    digestString 1 0 0 [⟨A.THM_CHn_LIM0 4, 0x029E026C⟩, ⟨A.CHn_DUT_HLIM 4, 0x2EE0⟩] =
      [1, 0, 0, 0, 0x84, 8, 6, 0, 0x6C, 2, 0x9E, 2, 0x14, 0, 0x45, 1, 0xE0, 0x2E, 0, 0] := by decide +kernel

/-- The check values of the two CRCs over the digits 1 to 9, and the SHA-256 of "abc" (FIPS 180-4). -/
def digits : List Byte := [0x31, 0x32, 0x33, 0x34, 0x35, 0x36, 0x37, 0x38, 0x39]
theorem test_crc32c : crc32c digits = 0xE3069283 := by decide +kernel
theorem test_crc32 : crc32 digits = 0xCBF43926 := by decide +kernel
theorem test_sha256 : (sha256 [0x61, 0x62, 0x63]).take 4 = [0xBA, 0x78, 0x16, 0xBF] := by decide +kernel

/-- The 8b/10b code of D.10.2 is 010101 0101; an ACK of frame 7 whose symbols were coded apart, and one whose CRC-8 fails. -/
theorem test_symbol : (decode10 false 0x155).1 = some 0x4A := by decide +kernel
theorem test_message : retMsg false [468, 907, 555, 116] = some [1, 7, 1] := by decide +kernel
theorem test_message_crc : retMsg false [468, 907, 555, 115] = none := by decide +kernel

/-- A camera sample: its three components, and that a sample without LVAL or on the other edge is none (R215). -/
theorem test_pixel : pixelsOf false [(smp, smp), ({ smp with lval := false }, smp)] = [(0x789, 0x456, 0x123)] := by decide +kernel

/-- A checkpoint whose CRC fails is passed over for the one before it (R54). -/
theorem test_checkpoint_falls_back :
    ({ on.journal 0 with ckpts := [ckptWords k0, [0, 0, 0, 0]] } : ChJnl).ckpt = some k0 := by decide +kernel

/-- IDCODE and the Device and Vendor ID as they are read (R300, R425). -/
theorem test_idcode : (tapCapture .idcode 0).take 5 = [true, true, false, true, false] := by decide +kernel
theorem test_device_id : on.cfgWord 0 0 = 0x16401F5E := by decide +kernel

/-- A device larger than 1 Gbit is used as 1 Gbit (R356). -/
theorem test_capacity : ({ on with boot := { on.boot with flashSize := 7 } } : State).capL2 = 27 := by decide +kernel

/-! ## The hypotheses of every statement are met: each theorem shows, for clauses of one statement, states that meet them -/

theorem sparesAll (s : State) (n : Fin 16) (h : (s.ch n).ft.decided.isEmpty = true) (e : Nat) : s.spares n (chEvt n e) = true := by
  simp [State.spares, h]
theorem lastNone (s : State) (x : List Byte) (h : s.sp.last = none) (r : List Byte) : s.sp.last ≠ some (x, r) := by simp [h]

theorem witness_StepTakesTheFrontCommand :
    ∃ (s : State), s.pending = [] :=
  ⟨State.reset, by decide +kernel⟩

theorem witness_EveryStepKeepsTheStores :
    (∃ (s : State) (t : State), step s = Host.Outcome.next t ∧ s.barWf) ∧
    (∃ (s : State) (t : State), step s = Host.Outcome.next t ∧ s.latchWf) ∧
    (∃ (s : State) (t : State), step s = Host.Outcome.next t ∧ s.pending = []) ∧
    (∃ (s : State) (t : State) (c : Instr) (r : List Instr), step s = Host.Outcome.next t ∧ s.pending = c :: r) :=
  ⟨⟨State.reset, State.reset.passTick, rfl, by decide +kernel⟩,
   ⟨State.reset, State.reset.passTick, rfl, by decide +kernel⟩,
   ⟨State.reset, State.reset.passTick, rfl, by decide +kernel⟩,
   ⟨{ State.reset with pending := [.stopNRelease, .nvWriteResume] }, { State.reset with pending := [.nvWriteResume] }, .stopNRelease, [.nvWriteResume], rfl, by decide +kernel⟩⟩

theorem witness_EveryCommandCompletes :
    (∃ (s : State) (c : Instr), c.wf ∧ s.fits c) ∧
    (∃ (s : State) (c : Instr) (f : Fault), exec c s = Host.Outcome.fault f) :=
  ⟨⟨on, .spStatus (spBytes 3 0 0), by decide +kernel⟩,
   ⟨on, .spRead [], .illFormed, rfl⟩⟩

theorem witness_DescriptorsEnterInOrder :
    (∃ (s : State) (m : Master) (n : Fin 16), s.reaches m (A.WRK_SCRn_PIDX n.val)) ∧
    (∃ (s : State) (n : Fin 16) (bs : List Byte), bs.length = 64 ∧ s.mayFetch n) ∧
    (∃ (s : State) (n : Fin 16) (bs : List Byte), (s.ch n).work.fetched = some bs ∧ checkDesc (s.journal n) bs = 0) ∧
    (∃ (s : State) (n : Fin 16) (bs : List Byte), (s.ch n).work.fetched = some bs ∧ checkDesc (s.journal n) bs ≠ 0) :=
  ⟨⟨on, .pf0, 15, by decide +kernel⟩,
   ⟨inSt 15 1 [(F.WRK_CTRL_FETCH_EN, 1), (F.WRK_SCRn_PIDX_PIDX 15, 1)], 15, descBytes, by decide +kernel⟩,
   ⟨on.modWork 0 fun w => { w with fetched := some descBytes }, 0, descBytes, by decide +kernel⟩,
   ⟨on.modWork 0 fun w => { w with fetched := some (descBody ++ leBytes 4 0) }, 0, descBody ++ leBytes 4 0, by decide +kernel⟩⟩

theorem witness_AcceptanceIsJournalledFirst :
    (∃ (s : State) (n : Fin 16) (d : Desc), (s.ch n).work.accepting = some d ∧ s.nvOk ∧ s.acceptGap n ∧ (s.ch
      n).work.accFailTick = none) ∧
    (∃ (s : State) (n : Fin 16), (s.ch n).work.accepting.isSome ∧ s.nvOk ∧ (s.ch n).work.accFailTick = none ∧ s.domOn 0) ∧
    (∃ (s : State) (n : Fin 16) (k : Nat), (s.ch n).work.accFailTick = some k ∧ k + msTicks ≤ s.tick) :=
  ⟨⟨on.modWork 3 fun w => { w with accepting := some d0 }, 3, d0, by decide +kernel⟩,
   ⟨on.modWork 3 fun w => { w with accepting := some d0 }, 3, by decide +kernel⟩,
   ⟨on.modWork 3 fun w => { w with accepting := some d0, accFailTick := some 9600000 }, 3, 9600000, by decide +kernel⟩⟩

theorem witness_BandsLoadAndReleaseInOrder_1 :
    (∃ (s : State) (n : Fin 16) (b : Band), firstNot Band.isLoaded (s.ch n).work.bands = some b ∧ b.state = BandState.accepted
      ∧ s.wstate n = 1 ∧ s.dmaOk ∧ s.seqWorks n) ∧
    (∃ (s : State) (n : Fin 16) (b : Band) (k : Nat), s.loadingBand n = some b ∧ b.failTick = some k ∧ k + 10 * usTicks ≤
      s.tick ∧ !b.needRefetch) ∧
    (∃ (s : State) (n : Fin 16) (b : Band) (got : List (List Byte)), s.loadingBand n = some b ∧ b.wholeLines got ∧ got.length
      = b.missing ∧ s.loads n b ∧ s.wstate n = 1) ∧
    (∃ (s : State) (n : Fin 16) (b : Band), firstNot Band.isOut (s.ch n).work.bands = some b ∧ b.state = BandState.ready ∧
      s.wstate n = 1 ∧ s.seqWorks n ∧ s.noneMet n ∧ (∀ x ∈ (s.ch n).work.bands, x = b ∨ x.state = .released → !s.begun n x)) :=
  ⟨⟨(inSt 0 1 []).modWork 0 fun w => { w with bands := [b0 .accepted] }, 0, b0 .accepted, by decide +kernel⟩,
   ⟨(inSt 0 1 []).modWork 0 fun w => { w with bands := [{ b0 .loading with failTick := some 9996000 }] }, 0, { b0 .loading with failTick := some 9996000 }, 9996000, by decide +kernel⟩,
   ⟨(inSt 0 1 []).modWork 0 fun w => { w with bands := [b0 .loading] }, 0, b0 .loading, [[1, 2, 3, 4], [5, 6, 7, 8]], by decide +kernel⟩,
   ⟨(inSt 0 1 []).modWork 0 fun w => { w with bands := [b0 .ready] }, 0, b0 .ready, by decide +kernel⟩⟩

theorem witness_BandsLoadAndReleaseInOrder_2 :
    (∃ (s : State) (n : Fin 16), s.mayFetch n) ∧
    (∃ (s : State) (n : Fin 16) (b : Band), firstNot Band.isOut (s.ch n).work.bands = some b ∧ b.state = BandState.ready ∧
      s.wstate n = 1 ∧ s.seqWorks n ∧ s.inWindow n) ∧
    (∃ (s : State) (n : Fin 16) (b : Band), firstNot Band.isOut (s.ch n).work.bands = some b ∧ b.state = BandState.ready ∧
      s.wstate n = 1 ∧ s.seqWorks n ∧ !s.inWindow n ∧ s.begun n b) :=
  ⟨⟨inSt 0 1 [(F.WRK_CTRL_FETCH_EN, 1), (F.WRK_SCRn_PIDX_PIDX 0, 1)], 0, by decide +kernel⟩,
   ⟨((inSt 0 1 []).modWork 0 fun w => { w with bands := [b0 .ready] }).modWav 0 fun w => { w with win := some { win0 with endTick := 10000001 } }, 0, b0 .ready, by decide +kernel⟩,
   ⟨(inSt 0 1 []).modWork 0 fun w => { w with bands := [b0 .ready], firedPage := 1, firedL := 1 }, 0, b0 .ready, by decide +kernel⟩⟩

theorem witness_RecordsAreWrittenInOrder :
    (∃ (s : State) (n : Fin 16) (r : DueRec) (rest : List DueRec), (s.ch n).work.due = r :: rest ∧ s.canPost n ∧ r.reject ∧
      s.sevOf (chEvt n 1) ≤ 1) ∧
    (∃ (s : State) (n : Fin 16) (r : DueRec) (rest : List DueRec), (s.ch n).work.due = r :: rest ∧ s.canPost n ∧ !r.reject ∧
      !r.repost ∧ s.nvOk ∧ s.sevOf (chEvt n 0) ≤ 1) ∧
    (∃ (s : State) (m : Master) (n : Fin 16), s.reaches m (A.WRK_CMPn_HEAD n.val) ∧ ((s.ch n).work.due.all fun (r : DueRec) =>
      !r.repost)) ∧
    (∃ (s : State) (n : Fin 16), (s.wstate n = 1 ∨ s.wstate n = 2) ∧ s.nvOk ∧ s.seqWorks n ∧ (s.ch n).work.ckptTick + msTicks
      ≤ s.tick ∧ !s.slotCut) :=
  ⟨⟨(onP [(F.WRK_CMPn_TAIL_TAIL 0, 15), (F.WRK_CMPn_HEAD_HEAD 0, 5)]).modWork 0 fun w => { w with due := [{ due0 with reject := true, status := 0x13 }] }, 0, { due0 with reject := true, status := 0x13 }, [], by decide +kernel⟩,
   ⟨(on.modWork 0 fun w => { w with due := [due0], bands := [b0 .done] }).modJnl 0 fun j => { j with recs := [{ r0 with state := .done }], closed := false }, 0, due0, [], by decide +kernel⟩,
   ⟨(onP [(F.WRK_CMPn_TAIL_TAIL 0, 3), (F.WRK_CMPn_HEAD_HEAD 0, 1)]).modWork 0 fun w => { w with unread := [(9, false), (8, true)] }, .pf0, 0, by decide +kernel⟩,
   ⟨inSt 0 2 [], 0, by decide +kernel⟩⟩

theorem witness_CommandsStartHoldAndResolve_1 :
    (∃ (s : State) (m : Master) (n : Fin 16), s.commands m n ∧ s.wstate n = 0 ∧ 4 ≤ s.get (F.WRK_SCRn_SIZE_SCR_LOG2 n.val) ∧
      s.get (F.WRK_SCRn_SIZE_SCR_LOG2 n.val) ≤ 12 ∧ 4 ≤ s.get (F.WRK_SCRn_SIZE_CMP_LOG2 n.val) ∧ s.get
      (F.WRK_SCRn_SIZE_CMP_LOG2 n.val) ≤ 12 ∧ (s.ch n).work.causes = [] ∧ (s.ch n).work.due = [] ∧ s.faultCleared n ∧ s.pageOver n) ∧
    (∃ (s : State) (m : Master) (n : Fin 16), s.commands m n ∧ s.wstate n = 1) ∧
    (∃ (s : State) (m : Master) (n : Fin 16), s.commands m n ∧ s.mayResume n ∧ s.pendingLine n = none ∧ s.pageOver n ∧
      !(s.ch n).ft.armed ∧ (s.noneMet n = true ∨ s.inWindow n = true) ∧ s.sevOf (chEvt n 2) ≤ 1 ∧
      s.get (F.WRK_SCRn_STAT_HCAUSE n.val) ≠ 0) ∧
    (∃ (s : State) (m : Master) (n : Fin 16) (b : Band), s.commands m n ∧ s.wstate n = 2 ∧ s.sevOf (chEvt n 2) ≤ 1 ∧ (s.ch
      n).work.causes = [s.get (F.WRK_SCRn_STAT_HCAUSE n.val)] ∧ s.get (F.WRK_SCRn_STAT_HCAUSE n.val) = 3 ∧ s.band? n (s.get
      (F.CHn_LED_PSEQ_SEQ n.val)) = some b ∧ b.state = BandState.firing) :=
  ⟨⟨inSt 5 0 [(F.WRK_SCRn_SIZE_SCR_LOG2 5, 12), (F.WRK_SCRn_SIZE_CMP_LOG2 5, 4), (F.WRK_SCRn_CIDX_CIDX 5, 9), (F.CHn_FT_CTRL_FIRE_EN 5, 1)], .pf0, 5, by decide +kernel⟩,
   ⟨inSt 5 1 [], .pf0, 5, by decide +kernel⟩,
   ⟨(inSt 5 2 [(F.WRK_SCRn_STAT_HCAUSE 5, 1), (F.CHn_FT_CTRL_FIRE_EN 5, 1)]).modWork 5 fun w => { w with causes := [1] }, .pf0, 5, by decide +kernel⟩,
   ⟨(inSt 5 2 [(F.WRK_SCRn_STAT_HCAUSE 5, 3), (F.CHn_LED_PSEQ_SEQ 5, 1), (F.CHn_LED_PLINE_LINE 5, 1), (F.CHn_LED_PLINE_PEND 5, 1)]).modWork 5 fun w => { w with causes := [3], bands := [b0 .firing] }, .pf0, 5, b0 .firing, by decide +kernel⟩⟩

theorem witness_CommandsStartHoldAndResolve_3 :
    ∃ (s : State) (m : Master) (n : Fin 16), s.commands m n ∧ s.mayResume n ∧ s.pendingLine n = none ∧ s.pageOver n ∧
      !(s.ch n).ft.armed ∧ s.noneMet n ∧ s.sevOf (chEvt n 2) ≤ 1 ∧ s.get (F.WRK_SCRn_STAT_HCAUSE n.val) = 0 :=
  ⟨(inSt 5 2 [(F.CHn_FT_CTRL_FIRE_EN 5, 1)]).modWork 5 fun w => { w with causes := [2] }, .pf0, 5, by decide +kernel⟩

theorem witness_CommandsStartHoldAndResolve_2 :
    (∃ (s : State) (m : Master) (n : Fin 16), s.commands m n ∧ s.wstate n = 2 ∧ s.sevOf (chEvt n 2) ≤ 1 ∧ (s.ch n).work.causes
      = [s.get (F.WRK_SCRn_STAT_HCAUSE n.val)] ∧ s.get (F.WRK_SCRn_STAT_HCAUSE n.val) = 6) ∧
    (∃ (s : State) (m : Master) (n : Fin 16), s.commands m n ∧ s.wstate n = 2 ∧ s.sevOf (chEvt n 2) ≤ 1 ∧ (s.ch n).work.causes
      = [s.get (F.WRK_SCRn_STAT_HCAUSE n.val)] ∧ s.get (F.WRK_SCRn_STAT_HCAUSE n.val) = 3 ∧ s.noneMetAt n (s.skipTo n).1
      (s.skipTo n).2) ∧
    (∃ (s : State) (m : Master) (n : Fin 16) (c : Instr), s.commands m n ∧ s.wstate n = 0 ∧ c ∈
      [Instr.cmdStop m n, Instr.cmdResume m n, Instr.cmdRefire m n, Instr.cmdSkip m n, Instr.cmdAbandon m n, Instr.cmdAbandonAll m n, Instr.cmdRefetch m n, Instr.cmdRebase m n]) :=
  ⟨⟨(inSt 5 2 [(F.WRK_SCRn_STAT_HCAUSE 5, 6), (F.CHn_LED_UNC_COUNT 5, 3)]).modWork 5 fun w => { w with causes := [6], bands := [b0 .accepted] }, .pf0, 5, by decide +kernel⟩,
   ⟨(inSt 5 2 [(F.WRK_SCRn_STAT_HCAUSE 5, 3), (F.CHn_LED_PSEQ_SEQ 5, 1), (F.CHn_LED_PLINE_LINE 5, 1), (F.CHn_LED_PLINE_PEND 5, 1)]).modWork 5 fun w => { w with causes := [3], bands := [{ b0 .firing with desc := { d0 with lines := 3 } }] }, .pf0, 5, by decide +kernel⟩,
   ⟨inSt 5 0 [], .pf0, 5, .cmdRebase .pf0 5, by decide +kernel⟩⟩

theorem witness_CommandsGiveUpAndMoveWork_1 :
    (∃ (s : State) (m : Master) (n : Fin 16) (b : Band), s.commands m n ∧ s.nvOk ∧ s.wstate n = 2 ∧ s.oldestOpen n = some b ∧
      !s.cmpFull n ∧ s.lowestCause n = s.get (F.WRK_SCRn_STAT_HCAUSE n.val) ∧ 4 ∉ (s.ch n).work.causes ∧ 6 ∉ (s.ch n).work.causes) ∧
    (∃ (s : State) (m : Master) (n : Fin 16), s.commands m n ∧ s.nvOk ∧ (s.wstate n = 2 ∨ s.wstate n = 3)) ∧
    (∃ (s : State) (m : Master) (n : Fin 16), s.commands m n ∧ s.nvOk ∧ s.wstate n = 2 ∧ s.get (F.WRK_SCRn_STAT_HCAUSE n.val)
      = 4) ∧
    (∃ (s : State) (m : Master) (n : Fin 16), s.commands m n ∧ s.nvOk ∧ s.wstate n = 3 ∧ s.mayRebase n (s.argSeq n) (s.argAddr
      n)) :=
  ⟨⟨((inSt 2 2 [(F.WRK_SCRn_STAT_HCAUSE 2, 1)]).modWork 2 fun w => { w with causes := [1], bands := [b0 .firing] }).modJnl 2 fun j => { j with recs := [r0], closed := false }, .pf0, 2, b0 .firing, by decide +kernel⟩,
   ⟨((inSt 2 2 [(F.WRK_SCRn_STAT_HCAUSE 2, 1)]).modWork 2 fun w => { w with causes := [1], bands := [b0 .firing] }).modJnl 2 fun j => { j with recs := [r0], closed := false }, .pf0, 2, by decide +kernel⟩,
   ⟨(inSt 2 2 [(F.WRK_SCRn_STAT_HCAUSE 2, 4)]).modWork 2 fun w => { w with causes := [4], bands := [{ b0 .loading with fails := 3, needRefetch := true, failTick := some 1 }] }, .pf0, 2, by decide +kernel⟩,
   ⟨((inSt 2 3 [(F.WRK_SCRn_ARG_SEQ_SEQ 2, 1), (F.WRK_SCRn_ARG_ADDR_LO_ADDR_L 2, 0x1000), (F.WRK_SCRn_ARG_ADDR_HI_ADDR_H 2, 1)]).modWork 2 fun w => { w with bands := [{ b0 .accepted with reinst := true }] }).modJnl 2 fun j => { j with recs := [r0], closed := false }, .pf0, 2, by decide +kernel⟩⟩

theorem witness_CommandsGiveUpAndMoveWork_2 :
    (∃ (s : State) (m : Master) (n : Fin 16) (b : Band), s.commands m n ∧ s.nvOk ∧ s.wstate n = 2 ∧ s.oldestOpen n = some b ∧
      !s.cmpFull n ∧ s.sevOf (chEvt n 2) ≤ 1 ∧ 6 ∈ (s.ch n).work.causes) ∧
    ∃ (s : State) (m : Master) (n : Fin 16), s.commands m n ∧ s.nvOk ∧ s.wstate n = 0 ∧ (s.ch n).work.bands = [] :=
  ⟨⟨((inSt 2 2 [(F.WRK_SCRn_STAT_HCAUSE 2, 6), (F.CHn_LED_UNC_COUNT 2, 255)]).modWork 2 fun w => { w with causes := [6], bands := [b0 .firing] }).modJnl 2 fun j => { j with recs := [r0], closed := false }, .pf0, 2, b0 .firing, by decide +kernel⟩,
   inSt 2 0 [(F.WRK_SCRn_ARG_SEQ_SEQ 2, 77)], .pf0, 2, by decide +kernel⟩

theorem witness_ScreeningOfALineBegins_1 :
    (∃ (s : State) (n : Fin 16) (x : Band × Nat × Nat × Nat), s.screenNext n = some x ∧ s.mayScreen n x ∧ x.2.1 ≠ 0 ∧ (s.ch
      n).img.started) ∧
    (∃ (s : State) (n : Fin 16) (x : Band × Nat × Nat × Nat), s.screenNext n = some x ∧ s.mayScreen n x ∧ s.opensPage n x ∧ (∀
      (k : Fin 16), s.dueEntries k (isPart (Part.ch n 1)) = [])) ∧
    (∃ (s : State) (n : Fin 16) (j : Job), (s.ch n).img.job = some j ∧ j.stage = Stage.refetch ∧ s.dmaOk) ∧
    (∃ (s : State) (n : Fin 16) (ue : List (Nat × Nat)), s.chOn n ∧ (ue.all fun (x : Nat × Nat) => decide (2 ≤ x.1 ∨ 4 ≤
      x.2))) :=
  ⟨⟨((inSt 15 1 [(F.CHn_IMG_CTRL_LEAD 15, 1), (F.CHn_IMG_GEOM_NNOZ 15, 4)]).modWork 15 fun w => { w with bands := [bImg] }).modImg 15 fun i => { i with started := true, scrPage := 1, scrL := 1 }, 15, (bImg, 1, 1, 1), by decide +kernel⟩,
   ⟨(inSt 15 1 [(F.CHn_IMG_CTRL_LEAD 15, 1), (F.CHn_IMG_GEOM_NNOZ 15, 4)]).modWork 15 fun w => { w with bands := [bImg] }, 15, (bImg, 0, 1, 0), by decide +kernel⟩,
   ⟨withJob 15 .refetch on, 15, j0 .refetch, by decide +kernel⟩,
   ⟨on, 15, [(2, 0)], by decide +kernel⟩⟩

theorem witness_ScreeningOfALineBegins_2 :
    (∃ (s : State) (n : Fin 16) (b : Nat) (m : Nat), s.chOn n ∧ b < 2 ∧ m < 4 ∧ s.wstate n = 1 ∧ (s.ch n).img.job = none) ∧
    (∃ (s : State) (n : Fin 16) (j : Job), (s.ch n).img.job = some j ∧ j.stage = Stage.refetch ∧ s.dmaOk ∧ s.wstate n = 1) ∧
    (∃ (s : State) (n : Fin 16) (j : Job), (s.ch n).img.job = some j ∧ j.stage = Stage.refetch ∧ s.dmaOk ∧ j.after =
      Stage.readmit) ∧
    (∃ (s : State) (n : Fin 16) (x : Band × Nat × Nat × Nat), s.screenNext n = some x ∧ s.mayScreen n x ∧ s.opensPage n x ∧ (∀
      (k : Fin 16), s.dueEntries k (isPart (Part.ch n 1)) = []) ∧ s.readmits n .b) :=
  ⟨⟨inSt 15 1 [], 15, 1, 3, by decide +kernel⟩,
   ⟨withJob 15 .refetch (inSt 15 1 []), 15, j0 .refetch, by decide +kernel⟩,
   ⟨on.modImg 15 fun i => { i with job := some { j0 .refetch with after := .readmit } }, 15, { j0 .refetch with after := .readmit }, by decide +kernel⟩,
   ⟨(inSt 15 1 [(F.CHn_IMG_CTRL_LEAD 15, 1), (F.CHn_IMG_GEOM_NNOZ 15, 4), (fenceFld 15 .b, 1), (readmFld 15 .b, 1)]).modWork 15 fun w => { w with bands := [bImg] }, 15, (bImg, 0, 1, 0), by decide +kernel⟩⟩

theorem witness_ComparatorReleasesOrFences_1 :
    (∃ (s : State) (n : Fin 16) (j : Job) (fa : List (Nat × Nat)) (fb : List (Nat × Nat)), (s.ch n).img.job = some j ∧ (∀ (e :
      Nat), s.spares n (chEvt n e) = true) ∧ !s.flag (fenceFld n Pipe.a) ∧ !s.flag (fenceFld n Pipe.b) ∧ j.stage =
      Stage.screened ∧ overlay j.line.codes fa ≠ overlay j.line.codes fb) ∧
    (∃ (s : State) (n : Fin 16) (j : Job), (s.ch n).img.job = some j ∧ (∀ (e : Nat), s.spares n (chEvt n e) = true) ∧ !s.flag
      (fenceFld n Pipe.a) ∧ !s.flag (fenceFld n Pipe.b) ∧ j.stage = Stage.kat) ∧
    (∃ (s : State) (n : Fin 16) (j : Job) (fa : List (Nat × Nat)) (fb : List (Nat × Nat)), (s.ch n).img.job = some j ∧ (∀ (e :
      Nat), s.spares n (chEvt n e) = true) ∧ j.stage = Stage.recompute ∧ overlay j.line.codes fa ≠ overlay j.line.codes fb) ∧
    (∃ (s : State) (n : Fin 16) (j : Job), (s.ch n).img.job = some j ∧ (∀ (e : Nat), s.spares n (chEvt n e) = true) ∧ j.stage
      = Stage.arbitrate ∧ s.wstate n = 1) :=
  ⟨⟨withJob 0 .screened on, 0, j0 .screened, [(0, 3)], [], by decide +kernel, sparesAll _ _ (by decide +kernel), by decide +kernel⟩,
   ⟨withJob 0 .kat on, 0, j0 .kat, by decide +kernel, sparesAll _ _ (by decide +kernel), by decide +kernel⟩,
   ⟨withJob 0 .recompute on, 0, j0 .recompute, [(0, 3)], [], by decide +kernel, sparesAll _ _ (by decide +kernel), by decide +kernel⟩,
   ⟨withJob 0 .arbitrate (inSt 0 1 []), 0, j0 .arbitrate, by decide +kernel, sparesAll _ _ (by decide +kernel), by decide +kernel⟩⟩

theorem witness_ComparatorReleasesOrFences_2 :
    (∃ (s : State) (n : Fin 16) (j : Job), (s.ch n).img.job = some j ∧ (∀ (e : Nat), s.spares n (chEvt n e) = true) ∧ j.stage
      = Stage.arbitrate ∧ j.outA = j.line.codes ∧ j.outB = j.line.codes ∧ j.resA ∧ j.resB) ∧
    (∃ (s : State) (n : Fin 16) (j : Job) (c : Bool → Option (Fin 4) → Instr), (s.ch n).img.job = some j ∧ (∀ (e : Nat),
      s.spares n (chEvt n e) = true) ∧ ((j.stage = Stage.recompute ∨ j.stage = Stage.freshRead) ∧ c = Instr.pipeRecompDone n
      [] [] true true 0 ∨ j.stage = Stage.arbitrate ∧ c = Instr.arbitrationDone n [] true 0) ∧ s.wstate n = 1) :=
  ⟨⟨withJob 0 .arbitrate (inSt 0 1 []), 0, j0 .arbitrate, by decide +kernel, sparesAll _ _ (by decide +kernel), by decide +kernel⟩,
   ⟨withJob 0 .arbitrate (inSt 0 1 []), 0, j0 .arbitrate, .arbitrationDone 0 [] true 0, by decide +kernel, sparesAll _ _ (by decide +kernel), .inr ⟨rfl, rfl⟩, by decide +kernel⟩⟩

theorem witness_ComparatorReleasesOrFences_3 :
    (∃ (s : State) (n : Fin 16) (j : Job) (fa fb : List (Nat × Nat)), (s.ch n).img.job = some j ∧ (∀ (e : Nat), s.spares n
      (chEvt n e) = true) ∧ !s.flag (fenceFld n Pipe.a) ∧ !s.flag (fenceFld n Pipe.b) ∧ j.stage = Stage.screened ∧ overlay
      j.line.codes fa = overlay j.line.codes fb ∧ s.get (rescntFld n .a) = 15 ∧ s.get (F.CHn_IMG_CTRL_FENCE_LIM n.val) = 15) ∧
    (∃ (s : State) (n : Fin 16) (j : Job), (s.ch n).img.job = some j ∧ (∀ (e : Nat), s.spares n (chEvt n e) = true) ∧
      s.flag (fenceFld n Pipe.b) ∧ !s.flag (fenceFld n Pipe.a) ∧ j.stage = Stage.screened) ∧
    (∃ (s : State) (n : Fin 16) (j : Job), (s.ch n).img.job = some j ∧ (∀ (e : Nat), s.spares n (chEvt n e) = true) ∧
      j.stage = Stage.freshRead ∧ s.wstate n = 1) ∧
    (∃ (s : State) (n : Fin 16) (j : Job), (s.ch n).img.job = some j ∧ (∀ (e : Nat), s.spares n (chEvt n e) = true) ∧
      j.stage = Stage.readmit ∧ s.readmits n .a) :=
  ⟨⟨withJob 0 .screened (onP [(rescntFld 0 .a, 15), (F.CHn_IMG_CTRL_FENCE_LIM 0, 15)]), 0, j0 .screened, [(0, 3)], [(0, 3)], by decide +kernel, sparesAll _ _ (by decide +kernel), by decide +kernel⟩,
   ⟨withJob 0 .screened (onP [(fenceFld 0 .b, 1)]), 0, j0 .screened, by decide +kernel, sparesAll _ _ (by decide +kernel), by decide +kernel⟩,
   ⟨withJob 0 .freshRead (inSt 0 1 [(fenceFld 0 .b, 1)]), 0, j0 .freshRead, by decide +kernel, sparesAll _ _ (by decide +kernel), by decide +kernel⟩,
   ⟨withJob 0 .readmit (onP [(fenceFld 0 .a, 1), (readmFld 0 .a, 1), (rescntFld 0 .b, 3)]), 0, j0 .readmit, by decide +kernel, sparesAll _ _ (by decide +kernel), by decide +kernel⟩⟩

theorem witness_TablesAndLoadsOfTheImagePath_1 :
    (∃ (s : State) (m : Master) (n : Fin 16), s.reaches m (A.CHn_IMG_PIPESTAT n.val) ∧ s.flag (fenceFld n Pipe.a)) ∧
    (∃ (s : State) (m : Master) (n : Fin 16) (c : Nat) (x : Nat × Fld × Word), c < 2 ∧ x ∈ imgTableWord n c ∧ s.reaches m x.1 ∧
      s.bankHeld n x.2.1 1 c = false) ∧
    (∃ (s : State) (m : Master) (n : Fin 16) (c : Nat) (x : Nat × Fld × Word), c < 2 ∧ x ∈ imgTableWord n c ∧ s.reaches m x.1 ∧
      s.bankHeld n x.2.1 1 c) ∧
    (∃ (s : State) (m : Master) (n : Fin 16) (v : Word), s.reaches m (A.CHn_IMG_TLD_CTRL n.val) ∧ BitVec.getLsbD v 31 ∧
      s.bankHeld n (F.CHn_IMG_BANK_MTXB n.val) 1 (BitVec.toNat v / 4096 % 2)) :=
  ⟨⟨onP [(fenceFld 4 .a, 1)], .pf0, 4, by decide +kernel⟩,
   ⟨on, .pf0, 4, 1, (mapAddr 4 1 4095, F.CHn_IMG_BANK_MAPB 4, 0x000FFF3F), by decide, List.mem_append_left _ (List.mem_append_left _
      (List.mem_append_left _ (List.mem_map.2 ⟨4095, List.mem_range.2 (by decide), rfl⟩))), by decide +kernel⟩,
   ⟨on, .pf0, 4, 0, (chBase 4 + 0x90000 + 4 * 8191, F.CHn_IMG_BANK_MASKB 4, 0xFFFFFFFF), by decide, List.mem_append_right _
      (List.mem_map.2 ⟨8191, List.mem_range.2 (by decide), rfl⟩), by decide +kernel⟩,
   ⟨on, .pf0, 4, 0x80000001, by decide +kernel⟩⟩

theorem witness_TablesAndLoadsOfTheImagePath_2 :
    (∃ (s : State) (m : Master) (n : Fin 16) (v : Word), s.reaches m (A.CHn_IMG_TLD_CTRL n.val) ∧ BitVec.getLsbD v 31 ∧
      s.bankHeld n (F.CHn_IMG_BANK_MTXB n.val) 1 (BitVec.toNat v / 4096 % 2) = false ∧ (s.ch n).img.load = none ∧ 1 ≤
      BitVec.toNat v % 1024 ∧ BitVec.toNat v % 1024 ≤ 512) ∧
    (∃ (s : State) (n : Fin 16) (l : TableLoad) (k : Nat), (s.ch n).img.load = some l ∧ l.failTick = some k ∧ k + 10 * usTicks
      ≤ s.tick) ∧
    (∃ (s : State) (n : Fin 16) (l : TableLoad) (rows : List (List Word)), (s.ch n).img.load = some l ∧ l.failTick = none ∧
      s.dmaOk ∧ wholeRows rows ∧ rows.length = s.rowsLeft n l) :=
  ⟨⟨on, .pf0, 4, 0x80001200, by decide +kernel⟩,
   ⟨on.modImg 4 fun i => { i with load := some { mtx := 1, bank := 1, rows := 2, fails := 1, failTick := some 9996000 } }, 4, { mtx := 1, bank := 1, rows := 2, fails := 1, failTick := some 9996000 }, 9996000, by decide +kernel⟩,
   ⟨on.modImg 4 fun i => { i with load := some { mtx := 1, bank := 1, rows := 1, fails := 0, failTick := none } }, 4, { mtx := 1, bank := 1, rows := 1, fails := 0, failTick := none }, [List.replicate 512 5], by decide +kernel⟩⟩

theorem witness_TablesAndLoadsOfTheImagePath_3 :
    (∃ (s : State) (m : Master) (n : Fin 16) (c : Nat) (x : Nat × Word), c < 2 ∧ x ∈ segTableWord n c ∧ s.reaches m x.1 ∧
      s.bankHeld n (F.CHn_WAV_BANK_BANK n.val) 2 c = false) ∧
    (∃ (s : State) (m : Master) (n : Fin 16) (c : Nat) (x : Nat × Word), c < 2 ∧ x ∈ segTableWord n c ∧ s.reaches m x.1 ∧
      s.bankHeld n (F.CHn_WAV_BANK_BANK n.val) 2 c) ∧
    (∃ (s : State) (m : Master) (n : Fin 16) (c i : Nat), c < 2 ∧ i < 32 ∧ i % 4 < 3 ∧ s.reaches m (chBase n + 0xA2000 + 0x100 * c
      + 4 * i) ∧ s.bankHeld n (F.CHn_WAV_BANK_BANK n.val) 2 c = false) ∧
    (∃ (s : State) (m : Master) (n : Fin 16) (c i : Nat), c < 2 ∧ i < 32 ∧ i % 4 < 3 ∧ s.reaches m (chBase n + 0xA2000 + 0x100 * c
      + 4 * i) ∧ s.bankHeld n (F.CHn_WAV_BANK_BANK n.val) 2 c) :=
  ⟨⟨on, .pf0, 4, 1, (chBase 4 + 0xA1000 + 8 * 127 + 4, 0xFFFFFFFF), by decide, List.mem_flatMap.2 ⟨127, List.mem_range.2 (by decide),
      .tail _ (.head _)⟩, by decide +kernel⟩,
   ⟨on, .pf0, 4, 0, (chBase 4 + 0xA0000 + 8 * 127, 0x000F0FFF), by decide, List.mem_flatMap.2 ⟨127, List.mem_range.2 (by decide),
      .head _⟩, by decide +kernel⟩,
   ⟨on, .pf0, 4, 1, 30, by decide +kernel⟩,
   ⟨on, .pf0, 4, 0, 0, by decide +kernel⟩⟩

theorem witness_DutyLimiterDecidesWithinLimits :
    (∃ (s : State) (n : Fin 16) (l : Line) (rest : List Line) (j : Nat), s.chOn n ∧ (s.ch n).img.released = l :: rest ∧ (s.ch
      n).dut.dec = none ∧ (s.ch n).ft.decided = [] ∧ (∀ (k : Fin 16), s.dueEntries k (isDut n) = []) ∧ j < 4096) ∧
    (∃ (s : State) (n : Fin 16), !s.flag (F.CHn_DUT_CTRL_EN n.val)) ∧
    (∃ (s : State) (n : Fin 16) (l : Line) (j : Nat), s.flag (F.CHn_DUT_CTRL_EN n.val) ∧ (s.dutyOf n l).lvl = 0 ∧ j <
      (s.dutyOf n l).out.length) :=
  ⟨⟨(onP [(F.CHn_DUT_NLIM_NLIM 0, 100)]).modImg 0 fun i => { i with released := [l0] }, 0, l0, [], 4095, by decide +kernel⟩,
   ⟨onP [(F.CHn_DUT_CTRL_EN 0, 0)], 0, by decide +kernel⟩,
   ⟨onP [(F.CHn_DUT_CTRL_EN 0, 1), (F.CHn_DUT_NLIM_NLIM 0, 100), (F.CHn_DUT_HLIM_HLIM 0, 300)], 0, l0, 3, by decide +kernel⟩⟩

theorem witness_LinesAreDecidedWhenReached :
    (∃ (s : State) (n : Fin 16) (b : Band) (i : Nat) (d : DutyDec), s.pendingLine n = some (b, i, (s.ch n).work.decPage,
      d.line.l) ∧ s.booted ∧ s.chOn n ∧ s.wstate n = 1 ∧ (s.ch n).ft.armed ∧ ((s.releasedLines n (s.ch n).work.decPage
      d.line.l).any fun (x : Line) => x.l == d.line.l) ∧ ((s.ch n).ft.byCount || s.byTime n) ∧ s.earliestFire n ≤ s.tick + 14
      + s.fdly n ∧ (s.ch n).dut.dec = some d ∧ d.line.page = (s.ch n).work.decPage ∧ s.frameAcked n ∧ (s.ch n).ft.decided
      = [] ∧ ((s.ch n).work.afterLine d.line).1 = (s.ch n).work.decPage) ∧
    (∃ (s : State) (n : Fin 16) (b : Band) (i : Nat) (l : Nat), s.pendingLine n = some (b, i, (s.ch n).work.decPage, l) ∧
      s.booted ∧ s.chOn n ∧ s.wstate n = 1 ∧ (s.ch n).ft.armed ∧ ((s.releasedLines n (s.ch n).work.decPage l).any fun (x :
      Line) => x.l == l) ∧ ((s.ch n).ft.byCount || s.byTime n) ∧ s.earliestFire n ≤ s.tick + 14 + s.fdly n ∧
      !s.frameAcked n) ∧
    (∃ (s : State) (n : Fin 16) (b : Band) (i : Nat) (l : Nat), s.pendingLine n = some (b, i, (s.ch n).work.decPage, l) ∧
      s.booted ∧ s.chOn n ∧ s.wstate n = 1 ∧ (s.ch n).ft.armed ∧ ((s.releasedLines n (s.ch n).work.decPage l).any fun (x :
      Line) => x.l == l) ∧ ((s.ch n).ft.byCount || s.byTime n) ∧ s.tick + 14 + s.fdly n < s.earliestFire n) :=
  ⟨⟨(((inSt 0 1 []).modWork 0 fun w => { w with bands := [bImg], decPage := 1, decL := 1 }).modDut 0 fun d => { d with dec := some dec0 }).modCh 0 fun c => { c with ft := { c.ft with armed := true }, brg := { c.brg with acked := true, sent := true } }, 0, bImg, 1, dec0, by decide +kernel⟩,
   ⟨(((inSt 0 1 []).modWork 0 fun w => { w with bands := [bImg], decPage := 1, decL := 1 }).modDut 0 fun d => { d with dec := some dec0 }).modCh 0 fun c => { c with ft := { c.ft with armed := true } }, 0, bImg, 1, 1, by decide +kernel⟩,
   ⟨(((inSt 0 1 []).modWork 0 fun w => { w with bands := [bImg], decPage := 1, decL := 1 }).modDut 0 fun d => { d with dec := some dec0 }).modCh 0 fun c => { c with ft := { c.ft with armed := true }, wav := { c.wav with waveEnd := some 20000000 } }, 0, bImg, 1, 1, by decide +kernel⟩⟩

/-- CHn_FIRE is high for 20 ns, eight ticks, from its edge on (R148). -/
theorem test_firePin : [9999999, 10000000, 10000007, 10000008].map (fun (t : Nat) =>
    ({ on.modWav 0 fun w => { w with win := some { win0 with fireTick := 10000000 } } with tick := t } : State).firePin 0) =
    [false, true, true, false] := by decide +kernel

/-- An acknowledgement that waits in the same cycle counts (R178). -/
theorem test_frameAcked : (((linked 0 [] (some (fr0 1))).modBrg 0 fun b => { b with sent := true }).frameAcked 0 = false) ∧
    ({ (linked 0 [] (some (fr0 1))).modBrg 0 fun b => { b with sent := true } with
      pending := [.ack 0 false [468, 907, 555, 116]] } : State).frameAcked 0 := by decide +kernel

theorem witness_LinesFireAndWindowsClose_1 :
    (∃ (s : State) (n : Fin 16) (d : Decided), s.booted ∧ (s.ch n).ft.decided = [d] ∧ d.fireTick ≤ s.tick ∧ (∀ (k : Fin 16),
      s.dueEntries k (isDut n) = []) ∧ (s.inWindow n = true ∨ s.noneMet n = true) ∧ !d.duty.first) ∧
    (∃ (s : State) (n : Fin 16) (d : Decided), s.booted ∧ (s.ch n).ft.decided = [d] ∧ d.fireTick ≤ s.tick ∧ (∀ (k : Fin 16),
      s.dueEntries k (isDut n) = []) ∧ (s.inWindow n = true ∨ s.noneMet n = true) ∧ d.duty.first ∧ s.flag (F.CHn_DUT_CTRL_EN
      n.val) ∧ d.duty.nDem = 0 ∧ d.duty.nSup = 0 ∧ d.duty.lvl = 0 ∧ d.duty.out.length ≤ 4096 ∧ ((s.ch n).dut.count + 1) %
      s.nozWin n ≠ 0 ∧ ((s.ch n).dut.count + 1) % s.headWin n ≠ 0) ∧
    (∃ (s : State) (n : Fin 16) (w : Win) (k : Nat), (s.ch n).wav.win = some w ∧ w.startTicks[w.segDone + 1]? = some k ∧ k +
      w.segDly ≤ s.tick) ∧
    (∃ (s : State) (n : Fin 16) (w : Win), (s.ch n).wav.win = some w ∧ w.endTick ≤ s.tick ∧ !(s.ch n).brg.offPend ∧ !(s.ch
      n).brg.hpenHold ∧ s.pwr.flush = none ∧ s.noneMet n) :=
  ⟨⟨((inSt 0 1 [(F.CHn_WAV_CTRL_WV0EN 0, 1)]).modWork 0 fun w => { w with bands := [{ bImg with desc := { d0 with lines := 3 } }], firedPage := 1, firedL := 1 }).modFt 0 fun f => { f with decided := [decd0] }, 0, decd0, by decide +kernel⟩,
   ⟨(onP [(F.CHn_DUT_CTRL_EN 0, 1), (F.CHn_DUT_WEIGHT_CW3 0, 3), (F.CHn_DUT_NWIN_NWIN 0, 9), (F.CHn_DUT_HWIN_HWIN 0, 9)]).modFt 0 fun f => { f with decided := [{ decd0 with duty := { dec0 with first := true } }] }, 0, { decd0 with duty := { dec0 with first := true } }, by decide +kernel⟩,
   ⟨on.modWav 0 fun w => { w with win := some win0 }, 0, win0, 9999160, by decide +kernel⟩,
   ⟨on.modWav 0 fun w => { w with win := some win0 }, 0, win0, by decide +kernel⟩⟩

theorem witness_LinesFireAndWindowsClose_2 :
    ∃ (s : State) (n : Fin 16) (w : Win) (b : Band), (s.ch n).wav.win = some w ∧ w.endTick ≤ s.tick ∧ !(s.ch n).brg.offPend ∧
      !(s.ch n).brg.hpenHold ∧ s.pwr.flush = none ∧ b ∈ (s.ch n).work.bands ∧ b.state = BandState.firing ∧ b.met (s.maxDelay n
      b.page (s.pageDir n)) (s.ch n).work.firedPage (s.ch n).work.firedL :=
  ⟨(on.modWav 0 fun w => { w with win := some win0 }).modWork 0 fun w => { w with bands := [bImg], firedPage := 1, firedL := 2 }, 0, win0, bImg, by decide +kernel⟩

theorem witness_PagesArmFromTheirEvents_1 :
    (∃ (s : State) (i : Fin 8) (n : Fin 16), s.sosHeard n i ∧ s.readyToArm n ∧ s.armKind n = some 2 ∧ reached (s.linePos n)
      (pos16 (s.sosX n (s.sosCapture n) false)) = false ∧ s.spares n (chEvt n 2)) ∧
    (∃ (s : State) (i : Fin 8) (n : Fin 16), s.sosHeard n i ∧ s.readyToArm n ∧ s.armKind n = some 2 ∧ reached (s.linePos n)
      (pos16 (s.sosX n (s.sosCapture n) false))) ∧
    (∃ (s : State) (i : Fin 8) (n : Fin 16), s.sosHeard n i ∧ s.flag (F.CHn_FT_CTRL_FIRE_EN n.val) ∧ !(s.ch n).ft.waitMark ∧
      s.armKind n = none) ∧
    (∃ (s : State) (n : Fin 16) (b : Band), s.readyToArm n ∧ (∀ (k : Fin 16), s.dueEntries k (isPart (Part.ch n 3)) = []) ∧
      s.nextPageBand n = some b ∧ s.armKind n = some 0) :=
  ⟨⟨((inSt 0 1 [(F.CHn_FT_SOS_FEN 0, 1), (F.CHn_FT_SOS_SOSF 0, 7), (F.CHn_FT_CTRL_FIRE_EN 0, 1), (⟨A.CHn_FT_SOSOFSF_HI 0, 0, 32⟩, 5)]).modWork 0 fun w => { w with bands := [{ b0 .accepted with desc := { d0 with arm := 2 } }] }).modJnl 0 fun j => { j with recs := [], closed := true }, 7, 0, by decide +kernel⟩,
   ⟨(inSt 0 1 [(F.CHn_FT_SOS_FEN 0, 1), (F.CHn_FT_SOS_SOSF 0, 7), (F.CHn_FT_CTRL_FIRE_EN 0, 1)]).modWork 0 fun w => { w with bands := [{ b0 .accepted with desc := { d0 with arm := 2 } }] }, 7, 0, by decide +kernel⟩,
   ⟨inSt 0 1 [(F.CHn_FT_SOS_FEN 0, 1), (F.CHn_FT_SOS_SOSF 0, 7), (F.CHn_FT_CTRL_FIRE_EN 0, 1)], 7, 0, by decide +kernel⟩,
   ⟨((inSt 0 1 [(F.CHn_FT_CTRL_FIRE_EN 0, 1)]).modWork 0 fun w => { w with bands := [b0 .accepted] }).modFt 0 fun f => { f with decidedSince := true }, 0, b0 .accepted, by decide +kernel⟩⟩

theorem witness_PagesArmFromTheirEvents_2 :
    (∃ (s : State) (n : Fin 16), s.chOn n ∧ s.wstate n = 1) ∧
    (∃ (s : State) (n : Fin 16), s.chOn n ∧ (s.wstate n = 0 ∨ s.wstate n = 3)) :=
  ⟨⟨inSt 0 1 [], 0, by decide +kernel⟩,
   ⟨inSt 0 3 [], 0, by decide +kernel⟩⟩

theorem witness_EncodersCountAndFindFaults :
    (∃ (s : State) (e : Fin 4) (a : Bool) (b : Bool) (d : Nat), (s.bareEnc e fun (x : Nat) => false) ∧ s.get
      (F.POS_ENCe_CFG_FILT e.val) = 0 ∧ (s.fe fePos e).settled ∧ d < 4 ∧ quadIdx a b = (quadIdx (s.fe fePos e).a.acc (s.fe
      fePos e).b.acc + d) % 4 ∧ d ≠ 2) ∧
    (∃ (s : State) (e : Fin 4) (a : Bool) (b : Bool), (s.bareEnc e fun (x : Nat) => false) ∧ s.get (F.POS_ENCe_CFG_FILT e.val)
      = 0 ∧ (s.fe fePos e).settled ∧ quadIdx a b = (quadIdx (s.fe fePos e).a.acc (s.fe fePos e).b.acc + 2) % 4 ∧ (s.get
      (F.POS_ENCe_FLT_FLIM e.val) = 0 ∨ (s.fe fePos e).fc + 1 < s.get (F.POS_ENCe_FLT_FLIM e.val)) ∧
      s.tick < (s.encOf e).winTick + (s.get (F.POS_ENCe_FLT_FWIN e.val) + 1) * usTicks) ∧
    (∃ (s : State) (e : Fin 4) (a : Bool) (b : Bool), (s.bareEnc e fun (x : Nat) => false) ∧ s.get (F.POS_ENCe_CFG_FILT e.val)
      = 0 ∧ (s.fe fePos e).settled ∧ quadIdx a b = (quadIdx (s.fe fePos e).a.acc (s.fe fePos e).b.acc + 2) % 4 ∧ s.get
      (F.POS_ENCe_FLT_FLIM e.val) = 1 ∧ (s.encOf e).winTick + (s.get (F.POS_ENCe_FLT_FWIN e.val) + 1) * usTicks ≤ s.tick ∧
      !s.encFaulty e ∧ s.domOn 0) :=
  ⟨⟨encOn 3 [], 3, true, false, 1, by decide +kernel⟩,
   ⟨(encOn 3 [(F.POS_ENCe_FLT_FLIM 3, 2)]).modEnc 3 fun x => { x with winTick := 9999601 }, 3, true, true, by decide +kernel⟩,
   ⟨encOn 3 [(F.POS_ENCe_FLT_FLIM 3, 1)], 3, true, true, by decide +kernel⟩⟩

theorem witness_EncoderWindowsAndIndex_1 :
    (∃ (s : State) (e : Fin 4), (s.bareEnc e fun (x : Nat) => false) ∧ (s.fe fePos e).a.acc = false ∧ (s.fe fePos e).a.raw ∧
      (s.fe fePos e).a.tick + 2 * s.get (F.POS_ENCe_CFG_FILT e.val) ≤ s.tick) ∧
    (∃ (s : State) (e : Fin 4), s.plainEnc e ∧ (∀ (n : Fin 16), (s.fe (feCh n) e).en = false) ∧ (s.fe fePos e).settled ∧ (s.fe
      fePos e).z.acc = false ∧ s.get (F.POS_ENCe_CFG_FILT e.val) = 0 ∧ !s.flag (F.POS_ENCe_CFG_IDXGATE e.val) ∧ s.get
      (F.POS_ENCe_IDXNOM_NOM e.val) = 0) ∧
    (∃ (s : State) (e : Fin 4), s.plainEnc e ∧ (∀ (n : Fin 16), (s.fe (feCh n) e).en = false) ∧ (s.fe fePos e).settled ∧ (s.fe
      fePos e).z.acc = false ∧ s.get (F.POS_ENCe_CFG_FILT e.val) = 0 ∧ !s.flag (F.POS_ENCe_CFG_IDXGATE e.val) ∧ s.get
      (F.POS_ENCe_IDXNOM_NOM e.val) ≠ 0 ∧ (s.encOf e).idxChecked ∧ s.get (F.POS_ENCe_IDXCFG_POLICY e.val) = 0 ∧ s.get
      (F.POS_ENCe_IDXCFG_TOL e.val) < (cntDiff (s.fe fePos e).cnt (s.idxCap e)).natAbs ∧ s.get (F.POS_ENCe_IDXCFG_TOL e.val) <
      (((cntDiff (s.fe fePos e).cnt (s.idxCap e)).natAbs : Int) - (s.get (F.POS_ENCe_IDXNOM_NOM e.val) : Nat)).natAbs) ∧
    (∃ (s : State) (e : Fin 4), (s.encOf e).winTick + (s.get (F.POS_ENCe_FLT_FWIN e.val) + 1) * usTicks ≤ s.tick) :=
  ⟨⟨(encOn 1 [(F.POS_ENCe_CFG_FILT 1, 50)]).modFe fePos 1 fun f => { f with a := { raw := true, acc := false, tick := 9999900 } }, 1, by decide +kernel⟩,
   ⟨(encOn 1 []).modFe fePos 1 fun f => { f with cnt := 99 }, 1, by decide +kernel⟩,
   ⟨((encOn 1 [(F.POS_ENCe_IDXNOM_NOM 1, 1000), (F.POS_ENCe_IDXCFG_TOL 1, 2)]).modFe fePos 1 fun f => { f with cnt := 997 }).modEnc 1 fun x => { x with idxChecked := true }, 1, by decide +kernel⟩,
   ⟨onP [(F.POS_ENCe_STAT_FCOUNT 1, 3)], 1, by decide +kernel⟩⟩

theorem witness_EncoderWindowsAndIndex_2 :
    (∃ (s : State) (e : Fin 4), (s.encOf e).spdTick + (s.get (F.POS_ENCe_SPDCFG_SWIN e.val) + 1) * usTicks ≤ s.tick ∧ (s.encOf
      e).edges ≠ 0) ∧
    (∃ (s : State) (e : Fin 4) (m : Master), s.reaches m (A.POS_ENCe_STAT e.val) ∧ (s.get (F.POS_ENCe_FLT_FLIM e.val) = 0 ∨
      (s.fe fePos e).fc < s.get (F.POS_ENCe_FLT_FLIM e.val)) ∧ (s.encOf e).pending = false ∧ (s.encOf e).xpend = false ∧ !s.pairEn) ∧
    (∃ (s : State) (e : Fin 4) (m : Master), s.reaches m (A.POS_ENCe_STAT e.val) ∧ ((s.encOf e).pending = true ∨ (s.encOf
      e).xpend = true)) :=
  ⟨⟨on.modEnc 1 fun x => { x with edges := 0x1000005 }, 1, by decide +kernel⟩,
   ⟨onP [(F.POS_ENCe_STAT_FAULT 1, 1)], 1, .pf0, by decide +kernel⟩,
   ⟨(onP [(F.POS_ENCe_STAT_FAULT 1, 1)]).modEnc 1 fun x => { x with pending := true }, 1, .pf0, by decide +kernel⟩⟩

theorem witness_TrackersAreCrossChecked :
    (∃ (s : State) (e : Fin 4), s.domOn 4 ∧ s.feOn fePos e ∧ (∀ (k : Fin 4), k ≠ e → (!s.feOn fePos k) = true) ∧ (∀ (n : Fin
      16), s.trkLive e n = true → (!s.trkOff e n) = true)) ∧
    (∃ (s : State) (e : Fin 4) (n : Fin 16) (k : Fin 16), s.domOn 4 ∧ s.feOn fePos e ∧ (∀ (k : Fin 4), k ≠ e → (!s.feOn fePos
      k) = true) ∧ n ≠ k ∧ s.trkLive e n ∧ s.trkLive e k ∧ s.trkOff e n ∧ (∀ (j : Fin 16), j ≠ n → s.trkLive e j = true →
      (!s.trkOff e j) = true) ∧ (s.fe (feCh n) e).valid ∧ s.get F.POS_XCFG_XPERS ≤ (s.fe (feCh n) e).disagree + 1) :=
  ⟨⟨(encOn 0 []).modFe 4 0 fun f => { f with en := true }, 0, by decide +kernel⟩,
   ⟨((encOn 0 [(F.POS_XCFG_XTOL, 1), (F.POS_XCFG_XPERS, 2)]).modFe 4 0 fun f => { f with en := true, valid := true, cnt := 9, disagree := 1 }).modFe 5 0 fun f => { f with en := true, valid := true }, 0, 4, 5, by decide +kernel⟩⟩

theorem witness_FretsMatchAndEmulationCounts_1 :
    (∃ (s : State) (m : Master) (f : Fin 64), s.reaches m (A.POS_FRETf_CMP_LO f.val)) ∧
    (∃ (s : State) (m : Master) (f : Fin 64), s.reaches m (A.POS_FRETf_CMP_HI f.val)) ∧
    (∃ (s : State) (m : Master) (f : Fin 64), s.reaches m (A.POS_FRETf_CTRL f.val)) ∧
    (∃ (s : State) (e : Fin 4) (f : Fin 64), (s.bareEnc e fun (k : Nat) => k == f.val) ∧ s.get (F.POS_ENCe_CFG_FILT e.val) = 0
      ∧ (s.fe fePos e).settled ∧ !s.encFaulty e ∧ s.flag (F.POS_FRETf_CTRL_ARM f.val) ∧ s.get (F.POS_FRETf_CTRL_SRC f.val) =
      e.val ∧ s.flag (F.POS_FRETf_CTRL_EVT f.val) ∧ !s.flag (F.POS_FRETf_CTRL_RELOAD f.val) ∧ !s.flag (F.POS_FRETf_CTRL_PAGE
      f.val) ∧ s.get (F.POS_FRETf_CTRL_DIR f.val) = 0 ∧ !s.flag (F.POS_ENCe_CFG_DIRINV e.val) ∧ (s.fe fePos e).a.acc = false ∧
      (s.fe fePos e).b.acc = false ∧ s.fretCmp f.val = (s.fe fePos e).cnt + 1) :=
  ⟨⟨on, .pf0, 63, by decide +kernel⟩,
   ⟨on, .pf0, 63, by decide +kernel⟩,
   ⟨on, .pf0, 63, by decide +kernel⟩,
   ⟨encOn 2 [(F.POS_FRETf_CTRL_ARM 63, 1), (F.POS_FRETf_CTRL_SRC 63, 2), (F.POS_FRETf_CTRL_EVT 63, 1), (F.POS_FRETf_CMP_LO_CMP_L 63, 1)], 2, 63, by decide +kernel⟩⟩

theorem witness_FretsMatchAndEmulationCounts_2 :
    ∃ (s : State) (k : Fin 4), s.domOn 4 ∧ s.flag (F.POS_EMUm_CFG_EN k.val) ∧ !s.emuHold k ∧ s.get (F.POS_EMUm_STAT_BACKLOG
      k.val) ≠ 0 ∧ (s.emuOf k).lastTick + s.emuGap k ≤ s.tick :=
  ⟨onP [(F.POS_EMUm_CFG_EN 2, 1), (F.POS_EMUm_STAT_BACKLOG 2, 0xFFFF)], 2, by decide +kernel⟩

theorem witness_FramesGoOutByPriority_1 :
    (∃ (s : State) (n : Fin 16) (d : DutyDec), s.mayStart n ∧ (s.ch n).dut.dec = some d ∧ s.dataReady n ∧ (∀ (k : Fin 16),
      s.dueEntries k (isPart (Part.ch n 2)) = [])) ∧
    (∃ (s : State) (n : Fin 16) (x : Nat × Nat) (rest : List (Nat × Nat)), s.mayStart n ∧ !s.dataReady n ∧ (s.ch n).wav.words
      = x :: rest) ∧
    (∃ (s : State) (n : Fin 16) (a : Nat) (w : Word), s.mayStart n ∧ !s.dataReady n ∧ (s.ch n).wav.words = [] ∧ (s.ch
      n).brg.soft = some (a, w)) ∧
    (∃ (s : State) (n : Fin 16) (p : Nat), s.mayStart n ∧ !s.dataReady n ∧ !s.cfgDue n ∧ (s.ch n).brg.stat = some p ∧ s.get
      (F.CHn_FT_STAT_STATE n.val) ≠ 2) :=
  ⟨⟨(linked 0 [] none).modDut 0 fun d => { d with dec := some dec0 }, 0, dec0, by decide +kernel⟩,
   ⟨(linked 0 [] none).modWav 0 fun w => { w with words := [(1, 31), (0, 2)] }, 0, (1, 31), [(0, 2)], by decide +kernel⟩,
   ⟨(linked 0 [] none).modBrg 0 fun b => { b with soft := some (0x1000, 5) }, 0, 0x1000, 5, by decide +kernel⟩,
   ⟨(linked 0 [] none).modBrg 0 fun b => { b with stat := some 15 }, 0, 15, by decide +kernel⟩⟩

theorem witness_FramesGoOutByPriority_2 :
    ∃ (s : State) (n : Fin 16), s.mayStart n ∧ !s.dataReady n ∧ !s.cfgDue n ∧ !s.statDue n ∧ !(s.ch n).brg.offPend ∧ (s.ch
      n).brg.lastStart + usTicks ≤ s.tick :=
  ⟨linked 0 [] none, 0, by decide +kernel⟩

theorem witness_AnswersCompleteOrRepeatAFrame_1 :
    (∃ (s : State) (n : Fin 16) (rd : Bool) (syms : List (BitVec 10)) (c : Instr), s.hears n ∧ retMsg rd syms = none ∧ c ∈
      [Instr.ack n rd syms, Instr.nak n rd syms, Instr.statusMessage n rd syms, Instr.trdy n rd syms]) ∧
    (∃ (s : State) (n : Fin 16) (f : Frame) (rd : Bool) (syms : List (BitVec 10)) (fsn : Byte), (s.ch n).brg.outst = some f ∧
      s.hears n ∧ retMsg rd syms = some [1, fsn, 1] ∧ f.fsn = BitVec.toNat fsn ∧ f.typ = 1 ∧ f.masks = [] ∧ f.soft = none) ∧
    (∃ (s : State) (n : Fin 16) (f : Frame) (rd : Bool) (syms : List (BitVec 10)) (x : Byte) (fsn : Byte), (s.ch n).brg.outst
      = some f ∧ s.hears n ∧ retMsg rd syms = some [x, fsn, 1] ∧ isNak x ∧ f.typ = 1 ∧ f.retx < max 1 (s.get
      (F.CHn_BRG_CTRL_RETXMAX n.val))) ∧
    (∃ (s : State) (n : Fin 16) (f : Frame) (rd : Bool) (syms : List (BitVec 10)) (fsn : Byte) (pg : List Byte), (s.ch
      n).brg.outst = some f ∧ s.hears n ∧ retMsg rd syms = some (3 :: fsn :: 1 :: pg) ∧ pg.length = 16 ∧ f.fsn = BitVec.toNat
      fsn ∧ f.typ = 3) :=
  ⟨⟨linked 0 [] (some (fr0 3)), 0, false, [], .trdy 0 false [], by decide +kernel⟩,
   ⟨linked 0 [] (some (fr0 1)), 0, fr0 1, false, [468, 907, 555, 116], 7, by decide +kernel⟩,
   ⟨linked 0 [] (some (fr0 1)), 0, fr0 1, false, [315, 116, 468, 820], 0x12, 7, by decide +kernel⟩,
   ⟨linked 0 [] (some (fr0 3)), 0, fr0 3, false, [795, 116, 468, 628, 468, 724, 795, 171, 660, 411, 116, 916, 603, 340, 843, 212, 715, 452, 372, 849], 7, [0, 1, 2, 3, 4, 5, 6, 7, 8, 9, 10, 11, 12, 13, 14, 15], by decide +kernel⟩⟩

theorem witness_AnswersCompleteOrRepeatAFrame_2 :
    (∃ (s : State) (n : Fin 16) (f : Frame), (s.ch n).brg.outst = some f ∧ s.chOn n ∧ f.endTick + usTicks ≤ s.tick ∧ s.ackHere n
      f) ∧
    (∃ (s : State) (n : Fin 16) (f : Frame), (s.ch n).brg.outst = some f ∧ s.chOn n ∧ f.endTick + usTicks ≤ s.tick ∧ !s.ackHere n
      f ∧ f.retx < max 1 (s.get (F.CHn_BRG_CTRL_RETXMAX n.val))) ∧
    (∃ (s : State) (n : Fin 16) (f : Frame), (s.ch n).brg.outst = some f ∧ s.chOn n ∧ f.endTick + usTicks ≤ s.tick ∧ !s.ackHere n
      f ∧ max 1 (s.get (F.CHn_BRG_CTRL_RETXMAX n.val)) ≤ f.retx ∧ s.linkIsUp n ∧ s.wstate n = 1) :=
  ⟨⟨{ linked 0 [] (some (fr0 1)) with pending := [.ack 0 false [468, 907, 555, 116]] }, 0, fr0 1, by decide +kernel⟩,
   ⟨linked 0 [] (some (fr0 1)), 0, fr0 1, by decide +kernel⟩,
   ⟨linked 0 [(F.WRK_SCRn_STAT_STATE 0, 1), (F.CHn_BRG_CTRL_RETXMAX 0, 3)] (some { fr0 1 with retx := 3 }), 0, { fr0 1 with retx := 3 }, by decide +kernel⟩⟩

theorem witness_HeadBoardsAreIdentifiedAndTrained_1 :
    (∃ (s : State) (n : Fin 16), s.chOn n ∧ !(s.ch n).iso.isolated ∧ !s.flag (F.CHn_BRG_STAT_PRES n.val) ∧ s.flag
      (F.CHn_BRG_CTRL_LINK_EN n.val)) ∧
    (∃ (s : State) (n : Fin 16) (rec : List Byte), s.chOn n ∧ !(s.ch n).iso.isolated ∧ s.lstate n = 1 ∧ rec.length = 256 ∧
      fieldAt rec 0 4 = 1145653333 ∧ fieldAt rec 4 1 = 1 ∧ fieldAt rec 252 4 = (crc32 (bytesAt rec 0 252)).toNat ∧ fieldAt rec
      58 2 = s.get (F.CHn_IMG_GEOM_NNOZ n.val) ∧ !s.flag (F.CHn_BRG_HEXP_TYPECHK n.val)) ∧
    (∃ (s : State) (n : Fin 16) (rec : List Byte), s.chOn n ∧ !(s.ch n).iso.isolated ∧ s.lstate n = 1 ∧ rec.length = 256 ∧
      fieldAt rec 0 4 ≠ 1145653333) ∧
    (∃ (s : State) (n : Fin 16), s.chOn n ∧ !(s.ch n).iso.isolated ∧ s.lstate n = 1 ∧ (s.ch n).brg.i2cTries < 3) :=
  ⟨⟨onP [(F.CHn_BRG_CTRL_LINK_EN 9, 1)], 9, by decide +kernel⟩,
   ⟨onP [(F.CHn_BRG_STAT_LSTATE 9, 1), (F.CHn_IMG_GEOM_NNOZ 9, 4)], 9, idRec, by decide +kernel⟩,
   ⟨onP [(F.CHn_BRG_STAT_LSTATE 9, 1)], 9, leBytes 256 0, by decide +kernel⟩,
   ⟨(onP [(F.CHn_BRG_STAT_LSTATE 9, 1)]).modBrg 9 fun b => { b with i2cTries := 2 }, 9, by decide +kernel⟩⟩

theorem witness_HeadBoardsAreIdentifiedAndTrained_2 :
    (∃ (s : State) (n : Fin 16), s.chOn n ∧ !(s.ch n).iso.isolated ∧ s.lstate n = 1 ∧ (s.ch n).brg.i2cTries = 3) ∧
    (∃ (s : State) (n : Fin 16) (trim : List Byte), s.chOn n ∧ !(s.ch n).iso.isolated ∧ trim.length = 8192 ∧ (s.ch
      n).brg.trimPend) ∧
    (∃ (s : State) (n : Fin 16) (rd : Bool) (syms : List (BitVec 10)), s.chOn n ∧ !(s.ch n).iso.isolated ∧ s.lstate n = 2 ∧
      retMsg rd syms = some [5, 255, 1] ∧ (s.ch n).brg.phase = 1) ∧
    (∃ (s : State) (n : Fin 16), s.chOn n ∧ !(s.ch n).iso.isolated ∧ s.lstate n = 2 ∧ (s.ch n).brg.phase = 2 ∧ (s.ch
      n).brg.phaseTick + 10 * usTicks ≤ s.tick ∧ s.lanesFree n) :=
  ⟨⟨(onP [(F.CHn_BRG_STAT_LSTATE 9, 1)]).modBrg 9 fun b => { b with i2cTries := 3 }, 9, by decide +kernel⟩,
   ⟨on.modBrg 9 fun b => { b with trimPend := true }, 9, List.replicate 8192 0, by decide +kernel⟩,
   ⟨(onP [(F.CHn_BRG_STAT_LSTATE 9, 2)]).modBrg 9 fun b => { b with phase := 1, trdy := 3 }, 9, false, [667, 334, 555, 587], by decide +kernel⟩,
   ⟨(onP [(F.CHn_BRG_STAT_LSTATE 9, 2)]).modBrg 9 fun b => { b with phase := 2, phaseTick := 9996000 }, 9, by decide +kernel⟩⟩

theorem witness_HeadBoardsAreIdentifiedAndTrained_3 :
    (∃ (s : State) (n : Fin 16), s.chOn n ∧ !(s.ch n).iso.isolated ∧ s.lstate n = 2 ∧ (s.ch n).brg.trainTick + 5 * msTicks ≤
      s.tick) ∧
    (∃ (s : State) (n : Fin 16), s.chOn n ∧ !(s.ch n).iso.isolated ∧ s.lstate n = 4 ∧ s.flag (F.CHn_BRG_CTRL_AUTORT n.val) ∧
      s.flag (F.CHn_BRG_CTRL_LINK_EN n.val) ∧ (s.ch n).brg.downTick + msTicks ≤ s.tick) ∧
    (∃ (s : State) (n : Fin 16), s.chOn n ∧ !(s.ch n).iso.isolated ∧ s.linkIsUp n ∧ s.wstate n = 1 ∧ s.flag
      (F.CHn_BRG_STAT_PRES n.val)) :=
  ⟨⟨(onP [(F.CHn_BRG_STAT_LSTATE 9, 2)]).modBrg 9 fun b => { b with phase := 2, trainTick := 8000000 }, 9, by decide +kernel⟩,
   ⟨(onP [(F.CHn_BRG_STAT_LSTATE 9, 4), (F.CHn_BRG_CTRL_AUTORT 9, 1), (F.CHn_BRG_CTRL_LINK_EN 9, 1)]).modBrg 9 fun b => { b with downTick := 9600000 }, 9, by decide +kernel⟩,
   ⟨linked 9 [(F.WRK_SCRn_STAT_STATE 9, 1), (F.CHn_BRG_STAT_PRES 9, 1)] none, 9, by decide +kernel⟩⟩

theorem witness_SoftwareDrivesTheLink_1 :
    (∃ (s : State) (m : Master) (n : Fin 16) (v : Word), s.reaches m (A.CHn_BRG_CTRL n.val) ∧ BitVec.getLsbD v 0 ∧ s.lstate n
      = 0 ∧ s.flag (F.CHn_BRG_STAT_PRES n.val) ∧ !(s.ch n).iso.isolated) ∧
    (∃ (s : State) (m : Master) (n : Fin 16) (v : Word), s.reaches m (A.CHn_BRG_CTRL n.val) ∧ BitVec.getLsbD v 0 = false ∧ 1 ≤
      s.lstate n ∧ s.sevOf (chEvt n 2) ≤ 1) ∧
    (∃ (s : State) (m : Master) (n : Fin 16) (v : Word), s.reaches m (A.CHn_BRG_STATREQ n.val) ∧ BitVec.getLsbD v 31 ∧ !s.flag
      (F.CHn_BRG_STATREQ_BUSY n.val)) ∧
    (∃ (s : State) (m : Master) (n : Fin 16), s.reaches m (A.CHn_BRG_HCFG_DATA n.val) ∧ s.flag (F.CHn_BRG_HCFG_STAT_BUSY
      n.val)) :=
  ⟨⟨onP [(F.CHn_BRG_STAT_PRES 2, 1)], .pf0, 2, 0x73, by decide +kernel⟩,
   ⟨linked 2 [(F.WRK_SCRn_STAT_STATE 2, 1)] none, .pf0, 2, 0x72, by decide +kernel⟩,
   ⟨on, .pf0, 2, 0x8000000F, by decide +kernel⟩,
   ⟨onP [(F.CHn_BRG_HCFG_STAT_BUSY 2, 1)], .pf0, 2, by decide +kernel⟩⟩

theorem witness_SoftwareDrivesTheLink_2 :
    (∃ (s : State) (m : Master) (n : Fin 16), s.reaches m (A.CHn_BRG_HCFG_DATA n.val) ∧ !s.flag (F.CHn_BRG_HCFG_STAT_BUSY
      n.val) ∧ s.get (F.CHn_BRG_HCFG_ADDR_ADDR n.val) < 1024) ∧
    (∃ (s : State) (m : Master) (n : Fin 16), s.reaches m (A.CHn_BRG_HCFG_DATA n.val) ∧ !s.flag (F.CHn_BRG_HCFG_STAT_BUSY
      n.val) ∧ 1024 ≤ s.get (F.CHn_BRG_HCFG_ADDR_ADDR n.val) ∧ s.linkIsUp n) :=
  ⟨⟨onP [(F.CHn_BRG_HCFG_ADDR_ADDR 2, 0x3FF)], .pf0, 2, by decide +kernel⟩,
   ⟨onP [(F.CHn_BRG_HCFG_ADDR_ADDR 2, 0x400), (F.CHn_BRG_STAT_LSTATE 2, 3)], .pf0, 2, by decide +kernel⟩⟩

theorem witness_WritesAreStagedInSlots_1 :
    (∃ (s : State) (m : Master) (k : Fin 16), s.reads m A.CAPO_ALLOC ∧ s.freeTx = some k) ∧
    (∃ (s : State) (m : Master), s.reads m A.CAPO_ALLOC ∧ s.freeTx = none) ∧
    (∃ (s : State) (m : Master) (v : Word) (k : Fin 16), s.reaches m A.CAPO_BIND ∧ BitVec.toNat v % 16 = k.val) ∧
    (∃ (s : State) (m : Master) (a : Nat) (v : Word) (k : Fin 16), s.stages m a ∧ s.boundTo m = some k ∧ (s.flag
      (F.CAPO_TXt_CTRL_CLASS k.val) = true ∨ (!s.protects a (v &&& stMask a)) = true) ∧ (s.capoRoom a fun (x : Fin 16) => x ==
      k)) :=
  ⟨⟨slotIn 0 1 0 [] [], .pf0, 1, by decide +kernel⟩,
   ⟨puts on ((List.finRange 16).map fun t => (F.CAPO_TXt_STAT_STATE t, 1)), .sup, by decide +kernel⟩,
   ⟨slotIn 15 1 2 [] [], .sp, 0x1F, 15, by decide +kernel⟩,
   ⟨slotIn 15 1 0 [] [(F.CAPO_BIND_BOUND.bank 1, 1), (F.CAPO_BIND_TX.bank 1, 15)], .pf0, A.CHn_IMG_CTRL 3, 0xFFFFFFFF, 15, by decide +kernel⟩⟩

theorem witness_WritesAreStagedInSlots_2 :
    (∃ (s : State) (m : Master) (a : Nat) (v : Word) (k : Fin 16), s.stages m a ∧ s.boundTo m = some k ∧ !s.flag
      (F.CAPO_TXt_CTRL_CLASS k.val) ∧ s.protects a (v &&& stMask a)) ∧
    (∃ (s : State) (m : Master) (a : Nat) (v : Word) (k : Fin 16), s.stages m a ∧ s.boundTo m = some k ∧ !s.protects a (v &&&
      stMask a) ∧ (∃ (u : Fin 16), u ≠ k ∧ s.txHolds u a = true)) ∧
    (∃ (s : State) (m : Master) (a : Nat) (v : Word) (k : Fin 16) (c : Instr), s.stages m a ∧ s.boundTo m = none ∧ m ≠
      Master.sp ∧ !s.protects a (v &&& stMask a) ∧ s.freeTx = some k ∧ (s.capoRoom a fun (x : Fin 16) => false) ∧ blockOf a ≠
      5 ∧ c ∈ [Instr.implicitTransaction m a v, Instr.stagedWrite m a v]) :=
  ⟨⟨slotIn 15 1 0 [] [(F.CAPO_BIND_BOUND.bank 1, 1), (F.CAPO_BIND_TX.bank 1, 15)], .pf0, A.PROT_CFG, 1, 15, by decide +kernel⟩,
   ⟨(slotIn 15 1 0 [] [(F.CAPO_BIND_BOUND.bank 1, 1), (F.CAPO_BIND_TX.bank 1, 15), (F.CAPO_TXt_STAT_STATE 2, 1)]).modSlot 2 fun c => { c with entries := [e3] }, .pf0, A.CHn_IMG_CTRL 3, 4, 15, by decide +kernel⟩,
   ⟨on, .pf0, A.CHn_IMG_CTRL 3, 4, 0, .implicitTransaction .pf0 (A.CHn_IMG_CTRL 3) 4, by decide +kernel⟩⟩

theorem witness_SlotsVoteAndAbort_1 :
    (∃ (s : State) (k : Fin 16) (m : Master), s.plainTx k ∧ s.reaches m (A.CAPO_TXt_CMD k.val) ∧ s.ownsSlot m k ∧ s.txState k
      = 1 ∧ !s.txFormat k ∧ !s.txMisclass k ∧ !s.flag (F.CAPO_TXt_STAT_CONFLICT k.val) ∧ !s.flag (F.CAPO_TXt_STAT_FULL k.val)
      ∧ !s.flag (F.CAPO_TXt_CTRL_CLASS k.val)) ∧
    (∃ (s : State) (k : Fin 16) (m : Master), s.plainTx k ∧ s.reaches m (A.CAPO_TXt_CMD k.val) ∧ s.ownsSlot m k ∧ s.txState k
      = 1 ∧ !s.txFormat k ∧ !s.txMisclass k ∧ !s.flag (F.CAPO_TXt_STAT_CONFLICT k.val) ∧ !s.flag (F.CAPO_TXt_STAT_FULL k.val)
      ∧ s.flag (F.CAPO_TXt_CTRL_CLASS k.val) ∧ (∃ (u : Fin 16), s.txState u = 2)) ∧
    (∃ (s : State) (k : Fin 16) (m : Master), s.plainTx k ∧ s.reaches m (A.CAPO_TXt_CMD k.val) ∧ s.ownsSlot m k ∧ s.txState k
      = 1 ∧ !s.txFormat k ∧ !s.txMisclass k ∧ !s.flag (F.CAPO_TXt_STAT_CONFLICT k.val) ∧ !s.flag (F.CAPO_TXt_STAT_FULL k.val)
      ∧ s.flag (F.CAPO_TXt_CTRL_CLASS k.val) ∧ (∀ (u : Fin 16), s.txState u ≠ 2) ∧ s.mayPropose m) ∧
    (∃ (s : State) (k : Fin 16) (m : Master), s.plainTx k ∧ s.reaches m (A.CAPO_TXt_CMD k.val) ∧ s.ownsSlot m k ∧ s.txState k
      = 1 ∧ !s.txFormat k ∧ !s.txMisclass k ∧ !s.flag (F.CAPO_TXt_STAT_CONFLICT k.val) ∧ !s.flag (F.CAPO_TXt_STAT_FULL k.val)
      ∧ s.flag (F.CAPO_TXt_CTRL_CLASS k.val) ∧ (∀ (u : Fin 16), s.txState u ≠ 2) ∧ !s.mayPropose m) :=
  ⟨⟨slotIn 15 1 0 [e3] [], 15, .pf0, by decide +kernel⟩,
   ⟨slotIn 15 1 0 [⟨A.PROT_CFG, 1⟩] [(F.CAPO_TXt_CTRL_CLASS 15, 1), (F.CAPO_TXt_STAT_STATE 0, 2)], 15, .pf0, by decide +kernel⟩,
   ⟨slotIn 15 1 0 [⟨A.PROT_CFG, 1⟩] [(F.CAPO_TXt_CTRL_CLASS 15, 1), (F.PROT_ROLE_ADMIN, 1), (F.PROT_ROLE_PROPA, 1)], 15, .pf0, by decide +kernel⟩,
   ⟨slotIn 15 1 0 [⟨A.PROT_CFG, 1⟩] [(F.CAPO_TXt_CTRL_CLASS 15, 1)], 15, .pf0, by decide +kernel⟩⟩

theorem witness_SlotsVoteAndAbort_2 :
    (∃ (s : State) (k : Fin 16) (m : Master), s.plainTx k ∧ s.reaches m (A.CAPO_TXt_CMD k.val) ∧ s.ownsSlot m k ∧ 1 ≤
      s.txState k ∧ s.txState k ≤ 4 ∧ (s.slot k).cond ≠ some s.tick ∧ s.instant k = some (s.tick + 2)) ∧
    (∃ (s : State) (k : Fin 16) (m : Master), s.plainTx k ∧ s.reaches m (A.CAPO_TXt_CMD k.val) ∧ s.ownsSlot m k ∧ 6 ≤
      s.txState k) ∧
    (∃ (s : State) (k : Fin 16) (m : Master) (c : Instr), s.plainTx k ∧ s.reaches m (A.CAPO_TXt_CMD k.val) ∧ !s.ownsSlot m k ∧
      c ∈ [Instr.capoCommit m k, Instr.capoAbort m k, Instr.capoRelease m k]) ∧
    (∃ (s : State) (k : Fin 16) (p : Sys2Proof.Part) (ue : Bool), s.plainTx k ∧ s.domOn 1 ∧ s.txState k = 3 ∧ p ∈ s.txParts k
      ∧ p ∉ (s.slot k).voted ∧ s.tick < (s.slot k).startTick + s.voteTicks k ∧ s.voteReason k p ue = 0 ∧ (∀ q ∈ s.txParts k, q
      = p ∨ q ∈ (s.slot k).voted)) :=
  ⟨⟨(slotIn 15 4 1 [e3] []).modSlot 15 fun c => { c with cond := some 9999985 }, 15, .sup, by decide +kernel⟩,
   ⟨slotIn 15 7 0 [e3] [], 15, .pf0, by decide +kernel⟩,
   ⟨slotIn 15 6 1 [e3] [], 15, .pf0, .capoRelease .pf0 15, by decide +kernel⟩,
   ⟨slotIn 15 3 0 [e3] [], 15, .ch 3 1, false, by decide +kernel⟩⟩

theorem witness_SlotsVoteAndAbort_3 :
    (∃ (s : State) (k : Fin 16) (p : Sys2Proof.Part) (ue : Bool), s.plainTx k ∧ s.domOn 1 ∧ s.txState k = 3 ∧ p ∈ s.txParts k
      ∧ p ∉ (s.slot k).voted ∧ s.tick < (s.slot k).startTick + s.voteTicks k ∧ s.voteReason k p ue = 0 ∧ (∃ q ∈ s.txParts k, q
      ≠ p ∧ q ∉ (s.slot k).voted)) ∧
    (∃ (s : State) (k : Fin 16) (p : Sys2Proof.Part) (ue : Bool), s.plainTx k ∧ s.domOn 1 ∧ s.txState k = 3 ∧ p ∈ s.txParts k
      ∧ p ∉ (s.slot k).voted ∧ s.tick < (s.slot k).startTick + s.voteTicks k ∧ s.voteReason k p ue ≠ 0) ∧
    (∃ (s : State) (k : Fin 16) (p : Sys2Proof.Part) (ue : Bool), s.plainTx k ∧ s.domOn 1 ∧ (s.txState k = 3 ∨ s.txState k =
      4) ∧ p ∈ (s.slot k).voted ∧ (s.slot k).cond ≠ some s.tick ∧ s.instant k = none ∧ s.voteReason k p ue ≠ 0) ∧
    (∃ (s : State) (k : Fin 16), s.plainTx k ∧ s.domOn 1 ∧ s.txState k = 3 ∧ (s.slot k).startTick + s.voteTicks k ≤ s.tick) :=
  ⟨⟨slotIn 15 3 0 [⟨A.PROT_CFG, 1⟩, e3] [], 15, .ch 3 1, false, by decide +kernel⟩,
   ⟨slotIn 15 3 0 [e3] [], 15, .ch 3 1, true, by decide +kernel⟩,
   ⟨(slotIn 15 3 0 [e3] []).modSlot 15 fun c => { c with voted := [.ch 3 1] }, 15, .ch 3 1, true, by decide +kernel⟩,
   ⟨(slotIn 15 3 0 [e3] []).modSlot 15 fun c => { c with startTick := 9600000 }, 15, by decide +kernel⟩⟩

theorem witness_SlotsVoteAndAbort_5 :
    ∃ (s : State) (k : Fin 16) (p : Sys2Proof.Part) (i : Nat), s.plainTx k ∧ s.domOn 1 ∧ s.txState k = 4 ∧ p ∈ (s.slot k).voted ∧
      s.instant k = some i ∧ i ≤ s.tick :=
  ⟨(slotIn 15 4 0 [e3] []).modSlot 15 fun c => { c with voted := [.ch 3 1], cond := some 9999984 }, 15, .ch 3 1, 10000000, by decide +kernel⟩

theorem witness_SlotsVoteAndAbort_4 :
    ∃ (s : State) (k : Fin 16), s.plainTx k ∧ s.domOn 1 ∧ s.txState k = 4 ∧ s.get (F.CAPO_TXt_TMO_CMTTMO k.val) ≠ 0 ∧ (s.slot
      k).cond = none ∧ (s.slot k).startTick + s.get (F.CAPO_TXt_TMO_CMTTMO k.val) * msTicks ≤ s.tick :=
  ⟨(slotIn 15 4 0 [e3] [(F.CAPO_TXt_TMO_CMTTMO 15, 1)]).modSlot 15 fun c => { c with startTick := 9600000 }, 15, by decide +kernel⟩

/-- What the clauses on the application of a committed entry ask for in common. -/
def oneEntry (s : State) (k : Fin 16) (a : Nat) (w : Word) : Prop :=
  s.plainTx k ∧ s.ins.rounds = [] ∧ (s.slot k).entries = [⟨a, w⟩] ∧ (s.slot k).applied = [] ∧
  ∀ u : Fin 16, u ≠ k → s.txState u ≠ 4 ∧ s.txState u ≠ 5

theorem witness_CommittedEntriesApply_1 :
    (∃ s k w c, oneEntry s k A.PROT_CFG w ∧ s.domOn 1 ∧ s.txState k = 4 ∧ (s.slot k).cond = some c ∧ instantOf c ≤ s.tick ∧
      s.get (F.CAPO_TXt_CTRL_COND k) = 0 ∧ s.appliesNow A.PROT_CFG) ∧
    (∃ s k w c, oneEntry s k (A.THM_CHn_CFG 15) w ∧ s.domOn 1 ∧ s.txState k = 4 ∧ (s.slot k).cond = some c ∧ instantOf c ≤ s.tick ∧
      s.get (F.CAPO_TXt_CTRL_COND k) = 0 ∧ s.appliesNow (A.THM_CHn_CFG 15) ∧ hasStaged (A.THM_CHn_CFG 15)) ∧
    (∃ s k a w n, oneEntry s k a w ∧ s.txState k = 5 ∧ isPart (.ch n 1) a ∧ s.imgFree n) ∧
    (∃ s k a w n, oneEntry s k a w ∧ s.txState k = 5 ∧ isPart (.ch n 3) a ∧ s.ftFree n) :=
  ⟨⟨(slotIn 15 4 0 [⟨A.PROT_CFG, 0x55⟩] []).modSlot 15 fun c => { c with cond := some 9999984 }, 15, 0x55, 9999984, by unfold oneEntry; decide +kernel⟩,
   ⟨(slotIn 15 4 0 [⟨A.THM_CHn_CFG 15, 1⟩] []).modSlot 15 fun c => { c with cond := some 9999984 }, 15, 1, 9999984, by unfold oneEntry; decide +kernel⟩,
   ⟨slotIn 15 5 0 [e3] [], 15, A.CHn_IMG_CTRL 3, 0x4009, 3, by unfold oneEntry; decide +kernel⟩,
   ⟨slotIn 15 5 0 [⟨A.CHn_FT_CTRL 3, 1⟩] [], 15, A.CHn_FT_CTRL 3, 1, 3, by unfold oneEntry; decide +kernel⟩⟩

theorem witness_CommittedEntriesApply_2 :
    (∃ s k a w n d, oneEntry s k a w ∧ s.txState k = 5 ∧ isPart (.ch n 2) a ∧ hasStaged a ∧ s.mayStart n ∧ s.dataReady n ∧
      (s.ch n).dut.dec = some d) ∧
    (∃ s k a w n l rest, oneEntry s k a w ∧ s.txState k = 5 ∧ isDut n a ∧ hasStaged a ∧ s.chOn n ∧ (s.ch n).img.released =
      l :: rest ∧ (s.ch n).dut.dec = none ∧ (s.ch n).ft.decided = [] ∧ (s.ch n).dut.count % s.headWin n = 0) ∧
    (∃ s k a w m, ∃ e : Fin 4, oneEntry s k a w ∧ s.txState k = 5 ∧ isEmu m a ∧ s.singleEnc e ∧ (s.fe fePos e).settled ∧
      s.get (F.POS_ENCe_CFG_FILT e) = 0 ∧ s.get (F.POS_ENCe_CFG_MODE e) = 2 ∧ s.emuNextSrc m = e.val ∧
      (s.fe fePos e).a.acc = false ∧ (s.fe fePos e).b.acc = false) ∧
    (∃ s k a w i, oneEntry s k a w ∧ s.txState k = 5 ∧ blockOf a = 7 ∧ s.instant k = some i ∧ 4 * (i / 4 + 1) ≤ s.tick) ∧
    (∃ s k a w p, oneEntry s k a w ∧ s.txState k = 5 ∧ s.camOn ∧ s.insPort p a ∧ hasStaged a) :=
  ⟨⟨((linked 3 [(F.CAPO_TXt_STAT_STATE 15, 5)] none).modSlot 15 fun c => { c with entries := [⟨A.CHn_WAV_CTRL 3, 1⟩] }).modDut 3 fun d => { d with dec := some dec0 },
      15, A.CHn_WAV_CTRL 3, 1, 3, dec0, by unfold oneEntry; decide +kernel⟩,
   ⟨(slotIn 15 5 0 [⟨A.CHn_DUT_NLIM 3, 9⟩] []).modImg 3 fun i => { i with released := [l0] }, 15, A.CHn_DUT_NLIM 3, 9, 3, l0, [], by unfold oneEntry; decide +kernel⟩,
   ⟨puts (slotIn 15 5 0 [⟨A.POS_EMUm_CFG 3, 1⟩] []) [(F.POS_ENCe_CFG_EN 0, 1), (F.POS_ENCe_CFG_MODE 0, 2)], 15, A.POS_EMUm_CFG 3, 1, 3, 0, by unfold oneEntry; decide +kernel⟩,
   ⟨(slotIn 15 5 0 [⟨A.MOT_AXa_CTRL 1, 1⟩] []).modSlot 15 fun c => { c with cond := some 9999982 }, 15, A.MOT_AXa_CTRL 1, 1, 9999998, by unfold oneEntry; decide +kernel⟩,
   ⟨slotIn 15 5 0 [⟨A.INS_Pp_CFG 1, 1⟩] [], 15, A.INS_Pp_CFG 1, 1, 1, by unfold oneEntry; decide +kernel⟩⟩

theorem witness_TwoKeysConfirm_1 :
    (∃ (s : State) (m : Master) (v : Word) (k : Fin 16), s.confirms m k ∧ s.txState k = 2 ∧ s.plainTx k ∧ s.isParty m ∧
      !s.ownsSlot m k ∧ s.tick < (s.slot k).startTick + 1000 * msTicks ∧ BitVec.toNat (s.word (bankOf (masterBank m)
      A.PROT_CFM_LO)) + 2 ^ 32 * BitVec.toNat v = s.pair (A.CAPO_TXt_DIGEST_LO k.val) (A.CAPO_TXt_DIGEST_HI k.val)) ∧
    (∃ (s : State) (m : Master) (v : Word) (k : Fin 16), s.confirms m k ∧ s.txState k = 2 ∧ s.plainTx k ∧ s.isParty m ∧
      !s.ownsSlot m k ∧ s.tick < (s.slot k).startTick + 1000 * msTicks ∧ ¬BitVec.toNat (s.word (bankOf (masterBank m)
      A.PROT_CFM_LO)) + 2 ^ 32 * BitVec.toNat v = s.pair (A.CAPO_TXt_DIGEST_LO k.val) (A.CAPO_TXt_DIGEST_HI k.val)) ∧
    (∃ (s : State) (m : Master) (k : Fin 16), s.confirms m k ∧ s.txState k = 2 ∧ s.plainTx k ∧ s.isParty m ∧ !s.ownsSlot m k ∧
      (s.slot k).startTick + 1000 * msTicks ≤ s.tick) ∧
    (∃ (s : State) (m : Master) (k : Fin 16), s.confirms m k ∧ (s.ownsSlot m k = true ∨ (!s.isParty m) = true ∨ s.txState k ≠
      2)) :=
  ⟨⟨slotIn 15 2 0 [⟨A.PROT_CFG, 0x55⟩] [(F.PROT_CFMTX_TX.bank 4, 15), (F.PROT_ROLE_SPEN, 1), (F.CAPO_TXt_DIGEST_HI_DIG_H 15, 0x12)], .sp, 0x12, 15, by decide +kernel⟩,
   ⟨slotIn 15 2 0 [⟨A.PROT_CFG, 0x55⟩] [(F.PROT_CFMTX_TX.bank 4, 15), (F.PROT_ROLE_SPEN, 1), (F.CAPO_TXt_DIGEST_HI_DIG_H 15, 0x12)], .sp, 0x13, 15, by decide +kernel⟩,
   ⟨{ slotIn 15 2 0 [⟨A.PROT_CFG, 0x55⟩] [(F.PROT_CFMTX_TX.bank 4, 15), (F.PROT_ROLE_SPEN, 1)] with tick := 409999900 }, .sp, 15, by decide +kernel⟩,
   ⟨slotIn 15 2 0 [⟨A.PROT_CFG, 0x55⟩] [(F.PROT_CFMTX_TX.bank 1, 15), (F.PROT_ROLE_ADMIN, 1)], .pf0, 15, by decide +kernel⟩⟩

theorem witness_TwoKeysConfirm_2 :
    (∃ (s : State) (k : Fin 16), s.txState k = 2 ∧ (∀ (u : Fin 16), u ≠ k → s.txState u ≠ 2) ∧ s.plainTx k ∧ (s.slot
      k).startTick + 1000 * msTicks ≤ s.tick) ∧
    (∃ (s : State) (m : Master), s.reaches m A.PROT_CFMTX) ∧
    (∃ (s : State) (m : Master), s.reaches m A.PROT_CFM_LO) :=
  ⟨⟨{ slotIn 15 2 0 [⟨A.PROT_CFG, 0x55⟩] [] with tick := 409999900 }, 15, by decide +kernel⟩,
   ⟨on, .sp, by decide +kernel⟩,
   ⟨on, .sp, by decide +kernel⟩⟩

theorem witness_CamerasCaptureFramesAndLines_1 :
    (∃ (s : State) (p : Fin 2), s.camOn ∧ s.flag (F.INS_Pp_CFG_EN p.val) ∧ !s.inFrame p) ∧
    (∃ (s : State) (p : Fin 2) (f : CamFrame), (s.cam p).now = some f ∧ s.capturing p ∧ (s.cam p).cur = none ∧ (s.cam p).next
      < f.height ∧ (s.cam p).fifo.length < 4) ∧
    (∃ (s : State) (p : Fin 2) (f : CamFrame), (s.cam p).now = some f ∧ s.capturing p ∧ (s.cam p).cur = none ∧ (s.cam p).next
      < f.height ∧ 4 ≤ (s.cam p).fifo.length ∧ (s.cam p).raised.contains (73, f.frame) = false) ∧
    (∃ (s : State) (p : Fin 2) (f : CamFrame) (k : Nat) (time : Nat) (cs : List (CamSample × CamSample)), (s.cam p).now = some
      f ∧ s.capturing p ∧ (s.cam p).cur = some (k, time) ∧ f.width ≤ (pixelsOf (getBits (f.word 0) 3 1 == 1) cs).length ∧
      !f.bypass) :=
  ⟨⟨onP [(F.INS_Pp_CFG_EN 1, 1), (F.INS_Pp_ARM_LAD 1, 1), (F.INS_Pp_STAT_FRAMECNT 1, 65535)], 1, by decide +kernel⟩,
   ⟨inCam 1 cf0 fun c => { c with next := 1 }, 1, cf0, by decide +kernel⟩,
   ⟨inCam 1 cf0 fun c => { c with next := 1, fifo := [cl0, cl0, cl0, cl0] }, 1, cf0, by decide +kernel⟩,
   ⟨inCam 1 cf0 fun c => { c with next := 1, cur := some (0, 8) }, 1, cf0, 0, 8, [(smp, smp)], by decide +kernel⟩⟩

theorem witness_CamerasCaptureFramesAndLines_2 :
    (∃ (s : State) (p : Fin 2) (f : CamFrame) (k : Nat) (time : Nat) (cs : List (CamSample × CamSample)), (s.cam p).now = some
      f ∧ s.capturing p ∧ (s.cam p).cur = some (k, time) ∧ (pixelsOf (getBits (f.word 0) 3 1 == 1) cs).length < f.width) ∧
    (∃ (s : State) (p : Fin 2) (f : CamFrame), (s.cam p).now = some f ∧ s.capturing p ∧ (s.cam p).cur = none ∧ f.height ≤
      (s.cam p).next ∧ (∀ (k : Fin 16), s.dueEntries k (s.insPort p) = [])) ∧
    (∃ (s : State) (p : Fin 2) (f : CamFrame), (s.cam p).now = some f ∧ s.capturing p ∧ f.ftmo ≠ 0 ∧ (s.cam p).startTick +
      f.ftmo * msTicks ≤ s.tick) ∧
    (∃ (s : State) (p : Fin 2) (l : CamLine) (rest : List CamLine) (f : CamFrame), s.camOn ∧ s.ins.pipeTill ≤ s.tick ∧
      s.arbiter = some p ∧ (s.cam p).fifo = l :: rest ∧ (s.cam p).frameOf l.frame = some f ∧ f.point = 0) :=
  ⟨⟨inCam 1 cf0 fun c => { c with next := 1, cur := some (0, 8) }, 1, cf0, 0, 8, [({ smp with dval := false }, smp)], by decide +kernel⟩,
   ⟨inCam 1 cf0 fun c => { c with next := 2 }, 1, cf0, by decide +kernel⟩,
   ⟨inCam 1 cf0 fun c => { c with next := 1, startTick := 9600000 }, 1, cf0, by decide +kernel⟩,
   ⟨inCam 0 cf0 fun c => { c with next := 1, fifo := [cl0] }, 0, cl0, [], cf0, by decide +kernel⟩⟩

theorem witness_RegionsAreAnalysedOnce_1 :
    (∃ (s : State) (m : Master) (p : Fin 2), s.reaches m (A.INS_Pp_ARM p.val)) ∧
    (∃ (s : State) (m : Master), s.reaches m A.INS_TBLDATA ∧ s.get F.INS_TBLADDR_INDEX < tblLen (s.get F.INS_TBLADDR_TABLE) ∧
      !s.insBankHeld (s.get F.INS_TBLADDR_PORT) (s.get F.INS_TBLADDR_BANK)) ∧
    (∃ (s : State) (m : Master), s.reaches m A.INS_TBLDATA ∧ s.insBankHeld (s.get F.INS_TBLADDR_PORT) (s.get
      F.INS_TBLADDR_BANK)) ∧
    (∃ (s : State) (m : Master), s.reads m A.INS_TBLDATA ∧ s.get F.INS_TBLADDR_INDEX < tblLen (s.get F.INS_TBLADDR_TABLE)) :=
  ⟨⟨on, .pf0, 1, by decide +kernel⟩,
   ⟨onP [(F.INS_TBLADDR_INDEX, 49), (F.INS_TBLADDR_TABLE, 2), (F.INS_TBLADDR_BANK, 1), (F.INS_TBLADDR_PORT, 1)], .pf0, by decide +kernel⟩,
   ⟨onP [(F.INS_TBLADDR_INDEX, 49), (F.INS_TBLADDR_TABLE, 2)], .pf0, by decide +kernel⟩,
   ⟨onP [(F.INS_TBLADDR_INDEX, 49151), (F.INS_TBLADDR_TABLE, 0)], .pf0, by decide +kernel⟩⟩

theorem witness_RegionsAreAnalysedOnce_2 :
    (∃ (s : State) (n : Fin 16) (f : CamFrame) (l : LadSet), s.domOn 6 ∧ (s.cam 0).ladDue n.val = some (f, l)) ∧
    (∃ (s : State) (n : Fin 16) (f : CamFrame) (l : LadSet), s.domOn 6 ∧ (s.cam 0).densDue n.val = some (f, l) ∧ s.tunOn 4 =
      false ∧ !s.flag F.INS_RESBASE_LO_EN) :=
  ⟨⟨inCam 0 { cf0 with ended := true } id, 0, { cf0 with ended := true }, lad0, by decide +kernel⟩,
   ⟨inCam 0 { cf0 with ended := true } id, 0, { cf0 with ended := true }, lad0, by decide +kernel⟩⟩

theorem witness_HealingRoundsSwitchMaps :
    (∃ (s : State) (n : Fin 16) (k : Fin 16) (h : HealSet) (x : HealRes), s.mapSwitch n ∧ s.freeTx = some k ∧ s.domOn 6 ∧
      s.ins.pend = [h] ∧ s.setReady h ∧ h.chans = [x] ∧ x.n = n.val ∧ (∀ (j : Fin 16), (s.ch j).iso.nozTest = none) ∧ s.flag
      (F.INS_LADn_CFG_HEAL n.val) ∧ !(s.ch n).iso.isolated ∧ s.chOn n ∧ !(healPlan s n x).skipped ∧ (healPlan s n x).changed) ∧
    (∃ (s : State) (n : Fin 16) (k : Fin 16) (h : HealSet) (x : HealRes), s.mapSwitch n ∧ s.freeTx = some k ∧ s.domOn 6 ∧
      s.ins.pend = [h] ∧ s.setReady h ∧ h.chans = [x] ∧ x.n = n.val ∧ (∀ (j : Fin 16), (s.ch j).iso.nozTest = none) ∧ s.flag
      (F.INS_LADn_CFG_HEAL n.val) ∧ !(s.ch n).iso.isolated ∧ s.chOn n ∧ (healPlan s n x).skipped) ∧
    (∃ (s : State) (n : Fin 16) (k : Fin 16) (x : NozTest), s.mapSwitch n ∧ s.freeTx = some k ∧ (s.ch n).iso.nozTest = some x
      ∧ x.stage = 1 ∧ x.till ≤ s.tick) :=
  ⟨⟨healing [], 0, 0, hs0, hr0, by decide +kernel⟩,
   ⟨healing [(F.INS_LADn_HEALMAX_MAXNEW 0, 1), (F.CHn_IMG_GEOM_NNOZ 0, 2), (F.CHn_IMG_CTRL_DEVDEAD 0, 1)], 0, 0, hs0, hr0, by decide +kernel⟩,
   ⟨on.modIso 0 fun i => { i with nozTest := some { mbx := 16, header := 0, till := 9, saved := [], bank := 0, since := [], back := 0, newDead := 0, stage := 1, silent := false } }, 0, 0, { mbx := 16, header := 0, till := 9, saved := [], bank := 0, since := [], back := 0, newDead := 0, stage := 1, silent := false }, by decide +kernel⟩⟩

theorem witness_TunerMeasuresFilesAndApplies_1 :
    (∃ (c : Fin 5), 3 ≤ c.val) ∧
    (∃ (s : State) (c : Fin 5) (k : Fin 3), c.val = k.val ∧ s.tunOn c.val ∧ s.get F.THM_STAT_STEP < 2 ∧ s.tun.meas.get k =
      none ∧ (∀ (u : Nat), s.tun.last.get k = some u → u + 10 * msTicks * max 1 (s.get (F.TUN_CFGc_PER c.val)) ≤ s.tick) ∧
      !s.tunSkip (c.val) (s.tun.next.get k) ∧ (c.val = 1 → (!s.oscInUse (s.tun.next.get k)) = true)) ∧
    (∃ (s : State) (c : Fin 5) (k : Fin 3), c.val = k.val ∧ s.tunOn c.val ∧ s.get F.THM_STAT_STEP < 2 ∧ s.tun.meas.get k =
      none ∧ (∀ (u : Nat), s.tun.last.get k = some u → u + 10 * msTicks * max 1 (s.get (F.TUN_CFGc_PER c.val)) ≤ s.tick) ∧
      s.tunSkip (c.val) (s.tun.next.get k) ∧ s.tun.skipTick.get c = none) ∧
    (∃ (s : State) (k : Fin 3) (i : Nat) (temp : Int) (v : Int) (c : Instr), s.tun.meas.get k = some i ∧ s.tunOn k.val ∧
      s.tunTemp (k.val) i = some temp ∧ (s.tunRange (k.val) i).1 ≤ v ∧ v ≤ (s.tunRange (k.val) i).2 ∧ ((∃ (raw : Int), k = 0 ∧
      c = Instr.tunerMeasureDone 0 raw true ∧ v = toSigned 16 (ofSigned 16 raw)) ∨ (∃ (cnt : Nat), k = 1 ∧ c =
      Instr.oscGateDone cnt ∧ v = s.oscCode i cnt) ∨ ∃ (raw : Int), k = 2 ∧ c = Instr.tunerMeasureDone 2 raw true ∧ v =
      ↑(ofSigned 10 raw))) :=
  ⟨⟨4, by decide +kernel⟩,
   ⟨{ onP [(F.TUN_CFGc_EN 0, 1), (F.THM_STAT_STEP, 1)] with tun := { Tun.reset with next := Tun.reset.next.set 0 47 } }, 0, 0, by decide +kernel⟩,
   ⟨onP [(F.TUN_CFGc_EN 1, 1), (F.SYS_CLKSTAT_REFOK, 0)], 1, 1, by decide +kernel⟩,
   ⟨measuring 2 2 [(F.TUN_LIMc_MAX 2, 1023)], 2, 2, 300, 700, .tunerMeasureDone 2 700 true, by decide +kernel, by decide +kernel, by decide +kernel, by decide +kernel, by decide +kernel, .inr (.inr ⟨700, rfl, rfl, rfl⟩)⟩⟩

theorem witness_TunerMeasuresFilesAndApplies_2 :
    (∃ (s : State) (i : Nat), s.tun.meas.get 0 = some i) ∧
    (∃ (s : State) (c : Fin 5) (i : Nat) (w : Word) (x : Option Int), s.tun.pend.find? (fun y => y.1 == c.val && y.2.1 == i) =
      some (c.val, i, w, x) ∧ s.supRuns ∧ s.tunReady (c.val) i) ∧
    (∃ (s : State) (m : Master) (c : Nat) (i : Nat) (k : Nat), s.setAddr = some (c, i, k) ∧ s.reaches m A.TUN_SETDATA ∧
      !s.tunOn c ∧ s.flag F.TUN_SETADDR_AUTOINC) ∧
    (∃ (s : State) (m : Master) (c : Nat) (i : Nat) (k : Nat), s.setAddr = some (c, i, k) ∧ s.reads m A.TUN_SETDATA ∧ !s.flag
      F.TUN_SETADDR_AUTOINC) :=
  ⟨⟨measuring 0 7 [], 7, by decide +kernel⟩,
   ⟨{ on with tun := { Tun.reset with pend := [(1, 16, 0x80000800, some 300)] } }, 1, 16, 0x80000800, some 300, by decide +kernel⟩,
   ⟨onP [(F.TUN_SETADDR_CLASS, 4), (F.TUN_SETADDR_INST, 65535), (F.TUN_SETADDR_POINT, 7), (F.TUN_SETADDR_AUTOINC, 1)], .pf0, 4, 65535, 7, by decide +kernel⟩,
   ⟨onP [(F.TUN_SETADDR_CLASS, 2), (F.TUN_SETADDR_INST, 17)], .pf0, 2, 17, 0, by decide +kernel⟩⟩

theorem witness_AmplitudeLoopSetsTheScale :
    (∃ (s : State) (n : Fin 16) (before : List Nat) (adc : List Nat) (x : Meas) (rest : List Meas), (s.ch n).wav.meas = x ::
      rest ∧ s.chOn n ∧ x.over s.tick ∧ before.length = 16 ∧ ((before ++ adc).all fun (x : Nat) => decide (x < 4096)) ∧
      ((!x.clean) = true ∨ x.taken adc = [])) ∧
    (∃ (s : State) (n : Fin 16) (before : List Nat) (adc : List Nat) (x : Meas) (rest : List Meas), (s.ch n).wav.meas = x ::
      rest ∧ s.chOn n ∧ x.over s.tick ∧ before.length = 16 ∧ ((before ++ adc).all fun (x : Nat) => decide (x < 4096)) ∧
      x.clean ∧ x.taken adc ≠ [] ∧ (x.taken adc).contains 4095) ∧
    (∃ (s : State) (n : Fin 16) (before : List Nat) (adc : List Nat) (x : Meas) (rest : List Meas), (s.ch n).wav.meas = x ::
      rest ∧ s.chOn n ∧ x.over s.tick ∧ before.length = 16 ∧ ((before ++ adc).all fun (x : Nat) => decide (x < 4096)) ∧
      x.clean ∧ x.taken adc ≠ [] ∧ (x.taken adc).contains 4095 = false ∧ (if (s.ch n).wav.peakCfg = x.wfb then (s.ch
      n).wav.peaks else []).length + 1 < 2 ^ min 8 (getBits x.wfb 4 4)) ∧
    (∃ (s : State) (n : Fin 16) (before : List Nat) (adc : List Nat) (x : Meas) (rest : List Meas), (s.ch n).wav.meas = x ::
      rest ∧ s.chOn n ∧ x.over s.tick ∧ before.length = 16 ∧ ((before ++ adc).all fun (x : Nat) => decide (x < 4096)) ∧
      x.clean ∧ x.taken adc ≠ [] ∧ (x.taken adc).contains 4095 = false ∧ (if (s.ch n).wav.peakCfg = x.wfb then (s.ch
      n).wav.peaks else []) = [] ∧ getBits x.wfb 4 4 = 0 ∧ getBits x.wfb 0 2 = 1 ∧ s.flag (F.CHn_WAV_WFB_LOOP_EN n.val) ∧
      s.get (F.CHn_WAV_WFB_SRC n.val) = 0 ∧ s.supRuns ∧ !s.flag (F.TUN_CFGc_EN 3) ∧ getBits x.lim 0 16 ≤ getBits x.lim 16 16) :=
  ⟨⟨measured [] (meas0 false 0), 0, List.replicate 16 0, [100, 200], meas0 false 0, [], by decide +kernel⟩,
   ⟨measured [] (meas0 true 0), 0, List.replicate 16 0, [4095, 7], meas0 true 0, [], by decide +kernel⟩,
   ⟨measured [] (meas0 true 0x20), 0, List.replicate 16 0, [100, 200], meas0 true 0x20, [], by decide +kernel⟩,
   ⟨measured [(F.CHn_WAV_WFB_LOOP_EN 0, 1)] (meas0 true 1), 0, List.replicate 16 0, [2000, 7], meas0 true 1, [], by decide +kernel⟩⟩

theorem witness_SensorsMeasureAndFail_1 :
    (∃ (s : State) (k : Fin 48) (code : Nat), (s.lone k fun (x : Fin 16) => false) ∧ code < 65536 ∧ !s.flag (F.THM_TSs_CFG_EN
      k.val)) ∧
    (∃ (s : State) (k : Fin 48) (code : Nat), (s.lone k fun (x : Fin 16) => false) ∧ 0 < code ∧ code < 65535 ∧ s.measures k ∧
      !s.flag (F.THM_TSs_CFG_KIND k.val) ∧ s.get (F.THM_TSs_OFS_SOFS k.val) = 0) ∧
    (∃ (s : State) (k : Fin 48) (code : Nat) (v : Int), (s.lone k fun (x : Fin 16) => false) ∧ 0 < code ∧ code < 65535 ∧
      s.measures k ∧ s.thmTemp k code = some v) ∧
    (∃ (s : State) (k : Fin 48) (code : Nat), (s.lone k fun (x : Fin 16) => false) ∧ code ∈ [0, 65535] ∧ s.pwr.mainUp ∧ s.flag
      (F.THM_TSs_CFG_EN k.val)) :=
  ⟨⟨on, 39, 65535, by decide +kernel⟩,
   ⟨onP [(F.THM_TSs_CFG_EN 39, 1)], 39, 65534, by decide +kernel⟩,
   ⟨onP [(F.THM_TSs_CFG_EN 39, 1), (F.THM_TSs_CFG_DGAIN 39, 6803), (F.THM_TSs_OFS_SOFS 39, 24)], 39, 30648, 450, by decide +kernel⟩,
   ⟨onP [(F.THM_TSs_CFG_EN 39, 1)], 39, 65535, by decide +kernel⟩⟩

theorem witness_SensorsMeasureAndFail_2 :
    (∃ (s : State) (k : Fin 48) (m : Master) (v : Int), (s.lone k fun (x : Fin 16) => false) ∧ s.reaches m (A.THM_TSs_STAT
      k.val) ∧ s.flag (F.THM_TSs_STAT_FAIL k.val) ∧ (s.sens k).conv = some v ∧ -32768 ≤ v ∧ v < 32768 ∧ s.xcnt ≤ (s.sens
      k).agree) ∧
    (∃ (s : State) (k : Fin 48) (m : Master) (v : Int), (s.lone k fun (x : Fin 16) => false) ∧ s.reaches m (A.THM_TSs_STAT
      k.val) ∧ s.flag (F.THM_TSs_STAT_FAIL k.val) ∧ (s.sens k).conv = some v ∧ -32768 ≤ v ∧ v < 32768 ∧ (s.sens k).agree <
      s.xcnt) :=
  ⟨⟨modSens 39 (fun x => { x with conv := some 250, agree := 9 }) (onP [(F.THM_TSs_STAT_FAIL 39, 1), (F.THM_TSs_CFG_EN 39, 1)]), 39, .pf0, 250, by decide +kernel⟩,
   ⟨modSens 39 (fun x => { x with conv := some 250, agree := 0 }) (onP [(F.THM_TSs_STAT_FAIL 39, 1), (F.THM_TSs_CFG_EN 39, 1)]), 39, .pf0, 250, by decide +kernel⟩⟩

theorem witness_HeadLevelsHaltTheChannel :
    (∃ (s : State) (n : Fin 16) (k : Fin 48) (code : Nat) (v : Int), (s.lone k fun (x : Fin 16) => x == n) ∧ !s.flag
      (F.TUN_CFGc_EN 3) ∧ !s.flag (F.TUN_CFGc_EN 4) ∧ code < 65536 ∧ s.measures k ∧ s.thmTemp k code = some v) ∧
    (∃ (s : State) (n : Fin 16) (m : Master) (v : Word), s.reaches m A.THM_CHSTAT ∧ BitVec.getLsbD v n.val ∧ !s.headFb n ∧
      s.flag (F.THM_CHn_TEMP_VALID n.val)) ∧
    (∃ (s : State) (m : Master), !s.reaches m A.THM_CHSTAT) :=
  ⟨⟨onP [(F.THM_TSs_CFG_EN 2, 1), (F.THM_TSs_CFG_DGAIN 2, 6803), (F.THM_TSs_OFS_SOFS 2, 24), (F.THM_CHn_CFG_HSEN 6, 2), (F.WRK_SCRn_STAT_STATE 6, 1)], 6, 2, 30648, 450, by decide +kernel⟩,
   ⟨onP [(F.THM_CHSTAT_LIM.bit 6, 1), (F.THM_CHn_TEMP_VALID 6, 1), (F.THM_CHn_TEMP_TEMP 6, 200)], 6, .pf0, 0xFFFFFFFF, by decide +kernel⟩,
   ⟨on, .pf1, by decide +kernel⟩⟩

theorem witness_HeatersAreUpdated :
    ∃ (s : State), s.sevOf 94 ≤ 1 :=
  ⟨onP [(F.THM_CHn_CFG_HTREN 0, 1), (F.THM_CHn_HTR_DMAX 0, 1023), (F.THM_CHn_HTR_SET 0, 400), (F.THM_CHn_TEMP_VALID 0, 1), (F.THM_CHn_TEMP_TEMP 0, 300)], by decide +kernel⟩

theorem witness_ThermalShutdownEntersSafe_1 :
    (∃ (s : State) (x : Nat), (s.pwr.ramp = none → s.pwr.queue = []) ∧ s.thm.shutTick = some x ∧ (x + 200 * usTicks ≤ s.tick ∨
      ∀ (n : Fin 16), s.wstate n ≠ 1 ∧ s.atBoundary n = true)) ∧
    (∃ (s : State), (s.pwr.ramp = none → s.pwr.queue = []) ∧ s.pwr.mainUp) ∧
    (∃ (s : State) (x : Nat), s.thm.shutTick = some x ∧ s.tick < x + 200 * usTicks ∧ (∃ (n : Fin 16), s.wstate n = 1)) ∧
    (∃ (s : State), s.thm.shutTick = none) :=
  ⟨⟨{ on with thm := { Thm.reset with shutTick := some 9920000 } }, 9920000, by decide +kernel⟩,
   ⟨on, by decide +kernel⟩,
   ⟨{ inSt 3 1 [] with thm := { Thm.reset with shutTick := some 9920001 } }, 9920001, by decide +kernel⟩,
   ⟨on, by decide +kernel⟩⟩

theorem witness_ThermalShutdownEntersSafe_2 :
    (∃ (s : State), !s.pwr.mainUp) ∧
    (∃ (s : State) (m : Master) (v : Word), s.reaches m A.THM_STAT ∧ BitVec.getLsbD v 19 ∧ BitVec.getLsbD v 20 ∧
      BitVec.getLsbD v 21 = false ∧ s.getS F.THM_STAT_DIE < s.getS F.THM_DIELIM1_DSHUT - 100) ∧
    (∃ (s : State) (m : Master) (v : Word), s.reaches m A.THM_STAT ∧ BitVec.getLsbD v 19 ∧ BitVec.getLsbD v 20 ∧
      BitVec.getLsbD v 21 = false ∧ s.getS F.THM_DIELIM1_DSHUT - 100 ≤ s.getS F.THM_STAT_DIE) ∧
    (∃ (s : State) (m : Master), s.reaches m A.THM_TBLDATA ∧ s.get F.THM_TBLADDR_INDEX ≤ 131 ∧ s.booted) :=
  ⟨⟨{ on with pwr := { on.pwr with mainUp := false } }, by decide +kernel⟩,
   ⟨onP [(F.THM_STAT_DIE, 979), (F.THM_STAT_SHUT, 1)], .pf0, 0x180000, by decide +kernel⟩,
   ⟨onP [(F.THM_STAT_DIE, 980), (F.THM_STAT_SHUT, 1)], .pf0, 0x180000, by decide +kernel⟩,
   ⟨onP [(F.THM_TBLADDR_INDEX, 131), (F.THM_TSs_CFG_EN 0, 1), (F.THM_TSs_CFG_KIND 0, 1), (F.THM_TSs_CFG_TBL 0, 3)], .pf0, by decide +kernel⟩⟩

theorem witness_ProfilesMoveTheAxes :
    ∃ (s : State), s.domOn 5 ∧ s.sevOf 100 ≤ 1 ∧ s.motIdle ∧ (∀ (b : Fin 4), s.axRuns b = true → s.axMode b ≠ 2 ∧ (!s.flag
      (F.MOT_AXa_CTRL_DRV ↑b)) = true) :=
  ⟨axisOn 2 0 [(F.MOT_AXa_TGT_LO_TGT_L 2, 5000)], by decide +kernel⟩

theorem witness_GearsAndStepInputsMoveTheAxes_1 :
    (∃ (s : State) (x : Fin 4), !s.flag (F.MOT_AXa_CTRL_DRV x.val) ∧ s.axRuns x ∧ s.axMode x = 2 ∧ !s.gearBad x ∧ 0 < s.get
      (F.MOT_AXa_GDEN_DEN x.val) ∧ ((s.axis x).xg - (s.axis x).gearTick).natAbs ≤ s.get (F.MOT_AXa_VMAX_VMAX x.val) / 65536 + 1 ∧
      cntDiff (s.gearCount x) (s.axis x).gearCnt = 0 ∧ (s.axis x).r = 0) ∧
    (∃ (s : State) (x : Fin 4), !s.flag (F.MOT_AXa_CTRL_DRV x.val) ∧ s.axRuns x ∧ s.axMode x = 2 ∧ !s.gearBad x ∧ s.sevOf (96 +
      x.val) ≤ 1 ∧ 0 < s.get (F.MOT_AXa_GDEN_DEN x.val) ∧ s.get (F.MOT_AXa_VMAX_VMAX x.val) / 65536 + 1 < ((s.axis x).xg + floorDiv
      (cntDiff (s.gearCount x) (s.axis x).gearCnt * s.getS (F.MOT_AXa_GNUM_NUM x.val) + (s.axis x).r) (s.get
      (F.MOT_AXa_GDEN_DEN x.val)) - (s.axis x).gearTick).natAbs) ∧
    (∃ (s : State) (x : Fin 4), !s.flag (F.MOT_AXa_CTRL_DRV x.val) ∧ s.axRuns x ∧ s.axMode x = 2 ∧ s.gearBad x ∧ s.sevOf (96 +
      x.val) ≤ 1) ∧
    (∃ (s : State) (x : Fin 4), !s.flag (F.MOT_AXa_CTRL_DRV x.val) ∧ s.axRuns x ∧ s.axMode x = 3 ∧ (∀ (u : Nat), (s.axis
      x).siLast = some u → u + 80 ≤ s.tick)) ∧
    (∃ (s : State) (x : Fin 4) (u : Nat), !s.flag (F.MOT_AXa_CTRL_DRV x.val) ∧ s.axRuns x ∧ s.axMode x = 3 ∧ (s.axis x).siLast
      = some u ∧ s.tick < u + 80 ∧ s.sevOf (96 + x.val) ≤ 1) :=
  ⟨⟨axisOn 3 2 [(F.MOT_AXa_GDEN_DEN 3, 7), (F.MOT_AXa_GNUM_NUM 3, 3)], 3, by decide +kernel⟩,
   ⟨(axisOn 3 2 [(F.MOT_AXa_GDEN_DEN 3, 7), (F.MOT_AXa_GNUM_NUM 3, 3)]).modAxis 3 fun y => { y with xg := 2 }, 3, by decide +kernel⟩,
   ⟨axisOn 3 2 [(F.MOT_AXa_GDEN_GSRC 3, 5)], 3, by decide +kernel⟩,
   ⟨axisOn 3 3 [(F.MOT_AXa_SIN_SIRES 3, 4)], 3, by decide +kernel⟩,
   ⟨(axisOn 3 3 []).modAxis 3 fun a => { a with siLast := some 9999921 }, 3, 9999921, by decide +kernel⟩⟩

theorem witness_GearsAndStepInputsMoveTheAxes_2 :
    (∃ (s : State) (x : Fin 4) (u : Nat), !s.flag (F.MOT_AXa_CTRL_DRV x.val) ∧ s.axRuns x ∧ s.axMode x = 3 ∧ (s.axis x).siLast
      = some u ∧ (s.axis x).siB ≠ 0 ∧ (s.axis x).siN - (s.axis x).siB.natAbs < (s.tick - u) / 4 * (s.axis x).siN / (s.axis
      x).siT) ∧
    (∃ (s : State) (x : Fin 4), !s.flag (F.MOT_AXa_CTRL_DRV x.val) ∧ s.axRuns x ∧ s.axMode x = 3 ∧ (s.axis x).siB = 0) ∧
    (∃ (s : State) (x : Fin 4), !s.flag (F.MOT_AXa_CTRL_DRV x.val) ∧ !s.axRuns x) :=
  ⟨⟨(axisOn 3 3 []).modAxis 3 fun a => { a with siLast := some 9999600, siT := 100, siN := 16, siB := -16 }, 3, 9999600, by decide +kernel⟩,
   ⟨axisOn 3 3 [], 3, by decide +kernel⟩,
   ⟨on, 3, by decide +kernel⟩⟩

theorem witness_ChoppersFollowTheirReference_1 :
    (∃ (s : State) (x : Fin 4) (c : Coil), (!s.chopping x c) = true ∨ s.coilCycles x c < s.get (F.MOT_AXa_CHOP_TBLANK x.val)) ∧
    (∃ (s : State) (x : Fin 4) (c : Coil), s.chopping x c ∧ ((s.axis x).coil c).drive ∧ s.get (F.MOT_AXa_CHOP_TBLANK x.val) <
      s.coilCycles x c) ∧
    (∃ (s : State) (x : Fin 4) (c : Coil), s.chopping x c ∧ ((s.axis x).coil c).drive ∧ s.coilCycles x c = s.get
      (F.MOT_AXa_CHOP_TBLANK x.val) ∧ ((s.axis x).coil c).shortRun = 7 ∧ s.sevOf (96 + x.val) ≤ 1) ∧
    (∃ (s : State) (x : Fin 4) (c : Coil), s.chopping x c ∧ ((s.axis x).coil c).drive ∧ s.coilCycles x c < s.get
      (F.MOT_AXa_CHOP3_TDRVMAX x.val)) :=
  ⟨⟨chops 0 (coil0 true 9999961) [], 0, .a, by decide +kernel⟩,
   ⟨chops 0 (coil0 true 9999956) [], 0, .a, by decide +kernel⟩,
   ⟨chops 0 { coil0 true 9999960 with shortRun := 7 } [], 0, .a, by decide +kernel⟩,
   ⟨chops 0 (coil0 true 9999960) [], 0, .a, by decide +kernel⟩⟩

theorem witness_ChoppersFollowTheirReference_2 :
    (∃ (s : State) (x : Fin 4) (c : Coil), s.chopping x c ∧ ((s.axis x).coil c).drive ∧ s.get (F.MOT_AXa_CHOP3_TDRVMAX x.val)
      ≤ s.coilCycles x c ∧ ((s.axis x).coil c).openRun < 7) ∧
    (∃ (s : State) (x : Fin 4) (c : Coil), s.chopping x c ∧ ((s.axis x).coil c).drive ∧ s.get (F.MOT_AXa_CHOP3_TDRVMAX x.val)
      ≤ s.coilCycles x c ∧ ((s.axis x).coil c).openRun = 7 ∧ s.sevOf (96 + x.val) ≤ 1) ∧
    (∃ (s : State) (x : Fin 4) (c : Coil), s.chopping x c ∧ !((s.axis x).coil c).drive ∧ s.probeAt x c = none ∧ s.get
      (F.MOT_AXa_CHOP_TBLANK x.val) ≤ s.coilCycles x c) ∧
    (∃ (s : State) (x : Fin 4) (c : Coil), s.chopping x c ∧ !((s.axis x).coil c).drive ∧ s.get (F.MOT_AXa_CHOP2_TDMAX x.val) ≤
      s.coilCycles x c) :=
  ⟨⟨chops 0 (coil0 true 9960000) [], 0, .a, by decide +kernel⟩,
   ⟨chops 0 { coil0 true 9960000 with openRun := 7 } [], 0, .a, by decide +kernel⟩,
   ⟨chops 0 (coil0 false 9999960) [], 0, .a, by decide +kernel⟩,
   ⟨chops 0 (coil0 false 9980000) [], 0, .a, by decide +kernel⟩⟩

theorem witness_ChoppersFollowTheirReference_3 :
    (∃ (s : State) (x : Fin 4) (c : Coil) (p : Nat), s.chopping x c ∧ !((s.axis x).coil c).drive ∧ s.probeAt x c = some p ∧
      !((s.axis x).coil c).probed ∧ p ≤ s.coilCycles x c) ∧
    (∃ (s : State) (x : Fin 4) (c : Coil) (p : Nat), s.chopping x c ∧ !((s.axis x).coil c).drive ∧ s.probeAt x c = some p ∧
      !((s.axis x).coil c).probed ∧ s.coilCycles x c < p) :=
  ⟨⟨chops 0 { coil0 false 9999800 with prevDecay := some 100 } [(F.MOT_AXa_CHOP_ADAPT 0, 1), (ofsFld 0 .a, 31)], 0, .a, 50, by decide +kernel⟩,
   ⟨chops 0 { coil0 false 9999801 with prevDecay := some 100 } [(F.MOT_AXa_CHOP_ADAPT 0, 1)], 0, .a, 50, by decide +kernel⟩⟩

theorem witness_ChoppersFollowTheirReference_4 :
    ∃ (s : State) (x : Fin 4) (c : Coil) (p : Nat), s.chopping x c ∧ !((s.axis x).coil c).drive ∧ s.probeAt x c = some p ∧
      p - s.get (F.MOT_AXa_CHOP_TBLANK x.val) ≤ s.coilCycles x c ∧ s.coilCycles x c ≤ p :=
  ⟨chops 0 { coil0 false 9999800 with prevDecay := some 100 } [(F.MOT_AXa_CHOP_ADAPT 0, 1)], 0, .a, 50, by decide +kernel⟩

theorem witness_PulsesStandstillAndAxisWrites_1 :
    (∃ (s : State) (x : Fin 4), s.axRuns x ∧ s.flag (F.MOT_AXa_CTRL_DRV x.val) ∧ !s.flag (F.MOT_AXa_STAT_STAND x.val) ∧
      (s.axis x).outQ ≠ 0 ∧ (s.axis x).outDir = decide (0 < (s.axis x).outQ) ∧ (s.axis x).dirTick + 4 * s.get
      (F.MOT_AXa_SOUT_DIRSU x.val) ≤ s.tick ∧ (s.axis x).outTick = none) ∧
    (∃ (s : State) (x : Fin 4) (u : Nat), (s.axis x).outTick = some u ∧ s.tick < u + 8 * max 1 (s.get (F.MOT_AXa_SOUT_SPW
      x.val))) ∧
    (∃ (s : State) (x : Fin 4), s.domOn 5 ∧ s.flag (F.MOT_AXa_CTRL_EN x.val) ∧ 0 < s.get (F.MOT_AXa_STAND_TSTAND x.val) ∧
      (s.axis x).moveTick + s.get (F.MOT_AXa_STAND_TSTAND x.val) * msTicks ≤ s.tick) ∧
    (∃ (s : State) (x : Fin 4), s.domOn 5 ∧ s.flag (F.MOT_AXa_CTRL_EN x.val) ∧ 0 < s.get (F.MOT_AXa_STAND_TSTAND x.val) ∧
      s.tick < (s.axis x).moveTick + s.get (F.MOT_AXa_STAND_TSTAND x.val) * msTicks) :=
  ⟨⟨(axisOn 1 0 [(F.MOT_AXa_CTRL_DRV 1, 1)]).modAxis 1 fun a => { a with outQ := -2 }, 1, by decide +kernel⟩,
   ⟨on.modAxis 1 fun a => { a with outTick := some 9999921 }, 1, 9999921, by decide +kernel⟩,
   ⟨{ axisOn 1 0 [] with tick := 80000000 }, 1, by decide +kernel⟩,
   ⟨{ axisOn 1 0 [] with tick := 79999999 }, 1, by decide +kernel⟩⟩

theorem witness_PulsesStandstillAndAxisWrites_2 :
    (∃ (s : State) (x : Fin 4) (m : Master), s.reaches m (A.MOT_AXa_STAT x.val) ∧ (s.get (F.MOT_AXa_STAT_FCAUSE x.val) ≠ 4 ∨
      (!s.gearBad x) = true)) ∧
    (∃ (s : State) (x : Fin 4) (m : Master), s.reaches m (A.MOT_AXa_STAT x.val) ∧ s.get (F.MOT_AXa_STAT_FCAUSE x.val) = 4 ∧
      s.gearBad x) ∧
    (∃ (s : State) (m : Master) (k : Nat), k ≤ 256 ∧ s.reaches m (460800 + 4 * k) ∧ s.booted ∧ !s.wtabUsed) ∧
    (∃ (s : State) (m : Master) (k : Nat), k ≤ 256 ∧ s.reaches m (460800 + 4 * k) ∧ s.booted ∧ s.wtabUsed) :=
  ⟨⟨onP [(F.MOT_AXa_STAT_FCAUSE 1, 4), (F.MOT_AXa_STAT_FAULT 1, 1)], 1, .pf0, by decide +kernel⟩,
   ⟨onP [(F.MOT_AXa_STAT_FCAUSE 1, 4), (F.MOT_AXa_GDEN_GSRC 1, 5)], 1, .pf0, by decide +kernel⟩,
   ⟨on, .pf0, 256, by decide +kernel⟩,
   ⟨axisOn 1 0 [], .pf0, 256, by decide +kernel⟩⟩

theorem witness_EventsAreDeliveredAndCollected_1 :
    (∃ (s : State) (m : Master) (fn : Fin 2), s.domOn 0 ∧ ((m, fn) = (Master.pf0, 0) ∨ (m, fn) = (Master.pf1, 1))) ∧
    (∃ (s : State) (fn : Fin 2), s.domOn 0 ∧ s.host.linkUp ∧ s.host.bme ∧ !s.host.d3.get fn) ∧
    (∃ (s : State) (fn : Fin 2) (v : Fin 512), s.domOn 0 ∧ s.host.linkUp ∧ s.host.bme ∧ v.val < 64 ∧ !s.host.held fn) ∧
    (∃ (s : State) (m : Master) (w : Fin 16), s.reaches m (A.EVT_PENDw w.val)) :=
  ⟨⟨on, .pf1, 1, by decide +kernel⟩,
   ⟨{ on with host := { on.host with pba := on.host.pba.set 1 (1#512 <<< 63), fnMasked := on.host.fnMasked.set 1 false } }, 1, by decide +kernel⟩,
   ⟨{ on with host := { on.host with pba := on.host.pba.set 1 (1#512 <<< 63), msixEn := on.host.msixEn.set 1 true } }, 1, 63, by decide +kernel⟩,
   ⟨onP [(pendFld 511, 1)], .pf0, 15, by decide +kernel⟩⟩

theorem witness_EventsAreDeliveredAndCollected_2 :
    ∃ (s : State) (m : Master) (w : Fin 16), !s.reaches m (A.EVT_PENDw w.val) :=
  ⟨onP [(pendFld 511, 1)], .sp, 15, by decide +kernel⟩

theorem witness_ExpressDoorbellsAct :
    (∃ (s : State) (v : Word) (x : Instr × Fld), s.domOn 0 ∧ s.expIdle ∧ x ∈
      [(Instr.expStop v, F.WRK_EXP_LATCH_STOPL), (Instr.expInh v, F.WRK_EXP_LATCH_INHL)]) ∧
    (∃ (s : State) (r : ExpReg) (v : Word), s.domOn 0 ∧ s.host.expQ.length ≤ 16 ∧ (∀ c, s.pending.head? = some c →
      (expArrive r v s).isExpress c = false)) ∧
    (∃ (s : State), s.domOn 0 ∧ !s.hasMerged) ∧
    (∃ (s : State) (x : ExpReg) (y : Word) (q : List Instr), s.domOn 0 ∧ s.pending = .expressMerge x y :: q ∧
      s.host.expQ.length < 16) ∧
    (∃ (s : State) (x : ExpReg) (y : Word) (q : List Instr), s.domOn 0 ∧ s.pending = .expressMerge x y :: q ∧
      16 ≤ s.host.expQ.length) ∧
    (∃ (s : State) (e : Merge), s.domOn 0 ∧ s.host.expQ = [ExpEntry.merged e] ∧ s.host.merge = none) :=
  ⟨⟨on, 0x5AFE, (.expStop 0x5AFE, F.WRK_EXP_LATCH_STOPL), by decide +kernel⟩,
   ⟨{ on with pending := [.fabUe], host := { on.host with expQ := List.replicate 16 (.write .other 0) } }, .stop, 1, rfl, by decide +kernel, by
      intro c h; cases h; rfl⟩,
   ⟨on, by decide +kernel⟩,
   ⟨{ inSt 15 1 [] with pending := [.expressMerge .stop 1] }, .stop, 1, [], by decide +kernel⟩,
   ⟨{ on with pending := [.expressMerge .stop 1], host := { on.host with expQ := List.replicate 16 (.write .other 0) } }, .stop, 1, [], by decide +kernel⟩,
   ⟨{ inSt 2 1 [] with host := { on.host with expQ := [.merged { clr := 0, stop := 4, inh := 0, fetch := true, safe := false }] } }, { clr := 0, stop := 4, inh := 0, fetch := true, safe := false }, by decide +kernel⟩⟩

theorem witness_LinkAndHostErrors_1 :
    (∃ (s : State), s.domOn 0 ∧ !s.host.linkUp) ∧
    (∃ (s : State), s.domOn 0 ∧ s.host.linkUp ∧ ∀ n, (s.ch n).work.due.all fun r => !r.repost) ∧
    (∃ (s : State) (n : Fin 16) (x : Fin 19) (a : Nat) (bs : List Byte), s.domOn 0 ∧ x.val = n.val ∧ (s.ch n).work.lastRec =
      some (a, bs) ∧ (s.ch n).work.rewrite = none) ∧
    (∃ (s : State) (p : Fin 2) (x : Fin 19) (f : Nat), s.domOn 0 ∧ x.val = 16 + p.val ∧ s.domOn 6 ∧ (s.cam p).tapFrame = some f ∧
      (s.cam p).raised.contains (75, f) = false) :=
  ⟨⟨{ on with host := { on.host with linkUp := false } }, by decide +kernel⟩,
   ⟨on, by decide +kernel⟩,
   ⟨on.modWork 2 fun w => { w with lastRec := some (0x1000, [1]) }, 2, 2, 0x1000, [1], by decide +kernel⟩,
   ⟨on.modCam 1 fun c => { c with tapFrame := some 7 }, 1, 17, 7, by decide +kernel⟩⟩

theorem witness_LinkAndHostErrors_2 :
    (∃ (s : State) (n : Fin 16) (r : DueRec), s.domOn 0 ∧ s.host.linkUp ∧ (s.ch n).work.due = [r] ∧ r.repost ∧ (∀ k, k ≠ n →
      (s.ch k).work.due = []) ∧ State.canPost { s with host := { s.host with bme := true } } n) ∧
    (∃ (s : State) (n : Fin 16) (a : Nat) (x : Nat) (bs : List Byte), (s.ch n).work.rewrite = some (a, bs, x) ∧ s.dmaUp ∧ x +
      10 * usTicks ≤ s.tick ∧ (s.ch n).work.due = []) ∧
    (∃ (s : State) (n : Fin 16) (a : Nat) (x : Nat) (bs : List Byte), (s.ch n).work.rewrite = some (a, bs, x) ∧ s.tick < x +
      10 * usTicks) :=
  ⟨⟨{ (onP [(F.WRK_CMPn_TAIL_TAIL 3, 15), (F.WRK_CMPn_HEAD_HEAD 3, 5)]).modWork 3 fun w => { w with due := [{ due0 with repost := true }] } with
      host := { on.host with bme := false } }, 3, { due0 with repost := true }, by decide +kernel⟩,
   ⟨on.modWork 2 fun w => { w with rewrite := some (0x1000, [1], 9996000) }, 2, 0x1000, 9996000, [1], by decide +kernel⟩,
   ⟨on.modWork 2 fun w => { w with rewrite := some (0x1000, [1], 9996001) }, 2, 0x1000, 9996001, [1], by decide +kernel⟩⟩

theorem witness_MessagesAndLocksOfMailboxes_1 :
    (∃ (s : State) (p : Port) (m : Fin 48), s.domOn 0 ∧ isHostPort p ∧ s.accepts p m) ∧
    (∃ (s : State) (p : Port) (m : Fin 48), s.domOn 0 ∧ isHostPort p ∧ s.sendRes m p = 0 ∧ mbxReceiver m = Port.sup ∧ s.domOn
      3 = false ∧ (s.pwr.ramp = none → s.pwr.queue = [])) ∧
    (∃ (s : State) (p : Port) (m : Fin 48), s.domOn 0 ∧ isHostPort p ∧ s.sendRes m p ≠ 0) ∧
    (∃ (s : State) (p : Port) (m : Fin 48), s.domOn 0 ∧ isHostPort p = false ∧ s.portRuns p ∧ s.sendRes m p = 0) :=
  ⟨⟨banked 5 .pf0 0x2A60 on, .pf0, 5, by decide +kernel⟩,
   ⟨banked 33 .pf1 0x2A01 (onP [(⟨A.SYS_DOMSTAT_LO, 6, 2⟩, 0)]), .pf1, 33, by decide +kernel⟩,
   ⟨on, .pf1, 5, by decide +kernel⟩,
   ⟨(banked 21 (.seq 5) 0x80002A60 on).modMb 5 fun b => { b with views := b.views.set 0 { (b.views.get 0) with ackWait := true, tag := 0x2A } }, .seq 5, 21, by decide +kernel⟩⟩

theorem witness_MessagesAndLocksOfMailboxes_2 :
    (∃ (s : State) (p : Port) (m : Fin 48), s.domOn 0 ∧ isHostPort p = false ∧ s.portRuns p ∧ s.sendRes m p ≠ 0) ∧
    (∃ (s : State) (p : Port) (m : Fin 48), s.domOn 0 ∧ p ≠ mbxReceiver m) ∧
    (∃ (s : State) (m : Fin 48), s.domOn 0 ∧ (s.mb m).full ∧ s.boot.rstDue = none ∧ (s.mb m).held = []) ∧
    (∃ (s : State) (m : Fin 48) (msg : List Word) (rest : List (List Word)), s.domOn 0 ∧ (s.mb m).full ∧ s.boot.rstDue = none
      ∧ (s.mb m).held = msg :: rest ∧ (s.mb m).src.isSome) :=
  ⟨⟨on.modMb 47 fun b => { b with full := true }, .sup, 47, by decide +kernel⟩,
   ⟨on, .pf1, 16, by decide +kernel⟩,
   ⟨req 39 .pf0 [1] on, 39, by decide +kernel⟩,
   ⟨(req 16 (.seq 0) [0x80000001] on).modMb 16 (fun b => { b with held := [[0x80000101]] }), 16, [0x80000101], [], by decide +kernel⟩⟩

theorem witness_MessagesAndLocksOfMailboxes_3 :
    (∃ (s : State) (p : Port) (m : Fin 48), s.domOn 0 ∧ (s.view m p).ackWait ∧ (s.view m p).window ≠ 0 ∧ (s.view m p).sendTick
      + (s.view m p).window ≤ s.tick) ∧
    (∃ (s : State) (p : Port) (m : Fin 48), s.domOn 0 ∧ (s.view m p).ackWait ∧ (s.view m p).window ≠ 0 ∧ s.tick < (s.view m
      p).sendTick + (s.view m p).window) ∧
    (∃ (s : State) (p : Port) (m : Fin 48), s.domOn 0 ∧ hasLock m ∧ mbxSender m p ∧ (s.mb m).lock = none) ∧
    (∃ (s : State) (p : Port) (m : Fin 48) (q : Port), s.domOn 0 ∧ hasLock m ∧ (s.mb m).lock = some q ∧ q ≠ p) :=
  ⟨⟨on.modMb 32 fun b => { b with views := b.views.set 0 { (b.views.get 0) with ackWait := true, window := 9000000, sendTick := 1000000 } }, .pf0, 32, by decide +kernel⟩,
   ⟨on.modMb 32 fun b => { b with views := b.views.set 0 { (b.views.get 0) with ackWait := true, window := 9000000, sendTick := 1000001 } }, .pf0, 32, by decide +kernel⟩,
   ⟨on, .pf1, 39, by decide +kernel⟩,
   ⟨on.modMb 32 fun b => { b with lock := some .pf0 }, .pf1, 32, .pf0, by decide +kernel⟩⟩

theorem witness_MessagesAndLocksOfMailboxes_4 :
    (∃ (s : State) (p : Port) (m : Fin 48), s.domOn 0 ∧ (s.mb m).lock ≠ some p) ∧
    (∃ (s : State) (p : Port) (m : Fin 48), s.domOn 0 ∧ (s.mb m).lock = some p ∧ (s.mb m).full) ∧
    (∃ (s : State) (p : Port) (m : Fin 48), s.domOn 0 ∧ (s.mb m).lock = some p ∧ !(s.mb m).full ∧ !s.rxReset m ∧ (mbxReceiver
      m ≠ Port.sup ∨ s.domOn 3 = true)) :=
  ⟨⟨on.modMb 32 fun b => { b with lock := some .pf0 }, .pf1, 32, by decide +kernel⟩,
   ⟨(req 35 .pf1 [1] on).modMb 35 fun b => { b with lock := some .pf0 }, .pf0, 35, by decide +kernel⟩,
   ⟨(banked 35 .pf0 0x101 on).modMb 35 fun b => { b with lock := some .pf0 }, .pf0, 35, by decide +kernel⟩⟩

theorem witness_InquiriesAreAnswered_1 :
    (∃ (s : State) (m : Fin 48) (q : Port) (r : Fin 48) (n : Fin 16), s.asked m q 1 r ∧ mbxReceiver m = Port.seq n) ∧
    (∃ (s : State) (m : Fin 48) (q : Port) (r : Fin 48), s.asked m q 1 r ∧ mbxReceiver m = Port.sup ∧ s.booted) ∧
    (∃ (s : State) (m : Fin 48) (q : Port) (r : Fin 48), s.asked m q 16 r ∧ 15 < s.reqWord m 1) ∧
    (∃ (s : State) (m : Fin 48) (q : Port) (r : Fin 48) (n : Fin 16), s.asked m q 16 r ∧ chOf (s.reqWord m 1) = some n ∧ (∀ x
      ∈ (s.journal n).recs, x.desc.seq ≠ s.reqWord m 2)) :=
  ⟨⟨req 5 .pf0 [0x2A01] on, 5, .pf0, 21, 5, by decide +kernel⟩,
   ⟨req 32 .pf0 [0x2A01] on, 32, .pf0, 40, by decide +kernel⟩,
   ⟨req 33 .pf1 [0x2A10, 16] on, 33, .pf1, 45, by decide +kernel⟩,
   ⟨req 33 .pf1 [0x2A10, 15, 9] on, 33, .pf1, 45, 15, by decide +kernel⟩⟩

theorem witness_InquiriesAreAnswered_2 :
    (∃ (s : State) (m : Fin 48) (q : Port) (r : Fin 48) (n : Fin 16) (x : BandRec), s.asked m q 16 r ∧ chOf (s.reqWord m 1) =
      some n ∧ List.find? (fun (x : BandRec) => x.desc.seq == s.reqWord m 2) (s.journal n).recs.reverse = some x ∧ s.band? n
      x.desc.seq = none) ∧
    (∃ (s : State) (m : Fin 48) (q : Port) (r : Fin 48) (n : Fin 16) (c : Ckpt), s.asked m q 17 r ∧ chOf (s.reqWord m 1) =
      some n ∧ (s.journal n).ckpt = some c) ∧
    (∃ (s : State) (m : Fin 48) (r : Fin 48) (n : Fin 16), s.asked m Port.pf0 96 r ∧ m.val = n.val ∧ s.band? n (s.reqWord m 1)
      = none) ∧
    (∃ (s : State) (m : Fin 48) (r : Fin 48) (n : Fin 16) (b : Band), s.asked m Port.pf0 96 r ∧ m.val = n.val ∧ s.band? n
      (s.reqWord m 1) = some b) :=
  ⟨⟨journalled 2 { on.journal 2 with recs := [r0] } (req 33 .pf1 [0x2A10, 2, 1] on), 33, .pf1, 45, 2, r0, by decide +kernel⟩,
   ⟨journalled 2 { on.journal 2 with ckpts := [ckptWords k0] } (req 33 .pf1 [0x2A11, 2] on), 33, .pf1, 45, 2, k0, by decide +kernel⟩,
   ⟨req 2 .pf0 [0x2A60, 1] on, 2, 18, 2, by decide +kernel⟩,
   ⟨(req 2 .pf0 [0x2A60, 1] on).modWork 2 fun w => { w with bands := [bImg] }, 2, 18, 2, bImg, by decide +kernel⟩⟩

theorem witness_InquiriesAreAnswered_3 :
    (∃ (s : State) (m : Fin 48) (r : Fin 48) (n : Fin 16), s.asked m Port.pf0 97 r ∧ m.val = n.val) ∧
    (∃ (s : State) (m : Fin 48) (q : Port) (r : Fin 48), s.asked m q 80 r ∧ 1 < s.reqWord m 1) ∧
    (∃ (s : State) (m : Fin 48) (q : Port) (r : Fin 48) (sl : Slot), s.asked m q 80 r ∧ (s.reqWord m 1 = if sl = Slot.b then 1
      else 0) ∧ s.hdrCause sl ≠ 0) ∧
    (∃ (s : State) (m : Fin 48) (q : Port) (r : Fin 48) (n : Fin 16), s.asked m q 159 r ∧ chOf (s.reqWord m 1) = some n) :=
  ⟨⟨req 5 .pf0 [0x2A61] on, 5, 21, 5, by decide +kernel⟩,
   ⟨req 39 .pf1 [0x2A50, 2] on, 39, .pf1, 47, by decide +kernel⟩,
   ⟨req 39 .pf1 [0x2A50, 1] on, 39, .pf1, 47, .b, by decide +kernel⟩,
   ⟨req 39 .pf1 [0x2A9F, 15] on, 39, .pf1, 47, 15, by decide +kernel⟩⟩

theorem witness_InquiriesAreAnswered_4 :
    (∃ (s : State) (m : Fin 48) (q : Port) (r : Fin 48), s.serves m ∧ (s.mb m).src = some q ∧ (s.codes m).contains (hdrCode
      (BitVec.ofNat 32 (s.reqWord m 0))) = false ∧ (s.mb m).held = [] ∧ mbxOf (returnBox (m.val) q) = some r ∧ !(s.mb r).full) ∧
    (∃ (s : State) (m : Fin 48), !s.serves m) :=
  ⟨⟨req 0 .pf0 [0x2A10] on, 0, .pf0, 16, by decide +kernel⟩,
   ⟨on, 0, by decide +kernel⟩⟩

theorem witness_ServicesActAndAnswer_1 :
    (∃ (s : State) (m : Fin 48) (r : Fin 48), s.asked m Port.pf1 144 r) ∧
    (∃ (s : State) (m : Fin 48) (r : Fin 48), s.asked m Port.pf0 64 r ∧ s.reqWord m 1 ≠ 24151) ∧
    (∃ (s : State) (m : Fin 48) (r : Fin 48), s.asked m Port.pf0 64 r ∧ s.reqWord m 1 = 24151) ∧
    (∃ (s : State) (m : Fin 48) (msg : List Word), s.domOn 0 ∧ mbxReceiver m = Port.pf0 ∧ (s.mb m).full ∧ (s.mb m).src.isSome
      ∧ (s.mb m).held = [msg] ∧ s.boot.rstDue = some (m.val, 1)) :=
  ⟨⟨req 32 .pf1 [0x2A90] on, 32, 44, by decide +kernel⟩,
   ⟨req 32 .pf0 [0x2A40, 0x5E56] on, 32, 40, by decide +kernel⟩,
   ⟨req 32 .pf0 [0x2A40, 0x5E57] on, 32, 40, by decide +kernel⟩,
   ⟨{ (req 40 .sup [1] on).modMb 40 fun b => { b with held := [[7]] } with boot := { on.boot with rstDue := some (40, 1) } }, 40, [7], by decide +kernel⟩⟩

theorem witness_ServicesActAndAnswer_2 :
    (∃ (s : State) (m : Fin 48) (r : Fin 48), s.asked m Port.pf0 32 r ∧ (2 < s.reqWord m 1 ∨ tunInsts (s.reqWord m 1) ≤
      s.reqWord m 2)) ∧
    (∃ (s : State) (m : Fin 48) (r : Fin 48) (v : Int), s.asked m Port.pf0 32 r ∧ s.reqWord m 1 ≤ 2 ∧ s.reqWord m 2 < tunInsts
      (s.reqWord m 1) ∧ s.reqWord m 1 = 2 ∧ !s.tunSkip (s.reqWord m 1) (s.reqWord m 2) ∧ s.tunTemp (s.reqWord m 1) (s.reqWord
      m 2) = some v) ∧
    (∃ (s : State) (m : Fin 48) (r : Fin 48) (n : Fin 16), chOf (s.reqWord m 1) = some n ∧ s.asked m Port.pf0 144 r ∧ !(s.ch
      n).iso.isolated ∧ s.wstate n = 1) ∧
    (∃ (s : State) (m : Fin 48) (r : Fin 48) (n : Fin 16), chOf (s.reqWord m 1) = some n ∧ s.asked m Port.pf0 144 r ∧ !(s.ch
      n).iso.isolated ∧ s.wstate n ≠ 1 ∧ s.capoBusy n ∧ !s.isolWaited m) :=
  ⟨⟨req 33 .pf0 [0x2A20, 3, 0] on, 33, 41, by decide +kernel⟩,
   ⟨req 32 .pf0 [0x2A20, 2, 2] (measuring 2 2 []), 32, 40, 300, by decide +kernel⟩,
   ⟨req 33 .pf0 [0x2A90, 3] (inSt 3 1 []), 33, 41, 3, by decide +kernel⟩,
   ⟨req 33 .pf0 [0x2A90, 3] (slotIn 2 3 0 [e3] []), 33, 41, 3, by decide +kernel⟩⟩

theorem witness_ServicesActAndAnswer_3 :
    (∃ (s : State) (m : Fin 48) (r : Fin 48) (n : Fin 16), chOf (s.reqWord m 1) = some n ∧ s.asked m Port.pf0 144 r ∧ !(s.ch
      n).iso.isolated ∧ s.wstate n ≠ 1 ∧ !s.capoBusy n) ∧
    (∃ (s : State) (m : Fin 48) (r : Fin 48) (n : Fin 16), chOf (s.reqWord m 1) = some n ∧ s.asked m Port.pf0 145 r ∧ !s.cutShort ∧
      !(s.ch n).iso.isolated) ∧
    (∃ (s : State) (m : Fin 48) (r : Fin 48) (n : Fin 16) (res : Nat), chOf (s.reqWord m 1) = some n ∧ s.asked m Port.pf0 145
      r ∧ !s.cutShort ∧ (s.ch n).iso.isolated ∧ s.chOn n ∧ s.reqWord m 2 % 64 = 1 ∧ res % 2 = 1) ∧
    (∃ (s : State) (m : Fin 48) (r : Fin 48) (n : Fin 16), chOf (s.reqWord m 1) = some n ∧ s.asked m Port.pf0 146 r ∧
      s.pwr.ramp = none ∧ s.pwr.queue = [] ∧ !(s.ch n).iso.isolated ∧ s.reqWord m 2 ≤ 1) :=
  ⟨⟨req 33 .pf0 [0x2A90, 3] on, 33, 41, 3, by decide +kernel⟩,
   ⟨req 33 .pf0 [0x2A91, 3] on, 33, 41, 3, by decide +kernel⟩,
   ⟨req 33 .pf0 [0x2A91, 3, 1] (isolated 3 on), 33, 41, 3, 63, by decide +kernel⟩,
   ⟨req 33 .pf0 [0x2A92, 3] on, 33, 41, 3, by decide +kernel⟩⟩

theorem witness_ServicesActAndAnswer_4 :
    (∃ (s : State) (m : Fin 48) (r : Fin 48) (n : Fin 16), chOf (s.reqWord m 1) = some n ∧ s.asked m Port.pf0 146 r ∧
      s.pwr.ramp = none ∧ s.pwr.queue = [] ∧ (s.ch n).iso.isolated ∧ s.reqWord m 2 = 0 ∧ s.chOn n) ∧
    (∃ (s : State) (m : Fin 48) (r : Fin 48) (n : Fin 16), chOf (s.reqWord m 1) = some n ∧ s.asked m Port.pf0 146 r ∧
      s.pwr.ramp = none ∧ s.pwr.queue = [] ∧ (s.ch n).iso.isolated ∧ s.reqWord m 2 = 1 ∧ !s.chOn n ∧ !s.heldOff (8 + n.val) ∧
      (∀ x ∈ (s.ch n).iso.kept, x.1 ∈ keptRegs n)) ∧
    (∃ (s : State) (m : Fin 48) (r : Fin 48) (n : Fin 16) (sl : Slot), chOf (s.reqWord m 1) = some n ∧ s.asked m Port.pf0 147
      r ∧ (s.reqWord m 2 = if sl = Slot.b then 1 else 0) ∧ !s.cutShort ∧ !(s.ch n).iso.isolated) ∧
    (∃ (s : State) (m : Fin 48) (r : Fin 48) (n : Fin 16) (sl : Slot), chOf (s.reqWord m 1) = some n ∧ s.asked m Port.pf0 147
      r ∧ (s.reqWord m 2 = if sl = Slot.b then 1 else 0) ∧ !s.cutShort ∧ (s.ch n).iso.isolated ∧ s.chOn n ∧ s.slotCause sl ≠ 0) :=
  ⟨⟨req 33 .pf0 [0x2A92, 3] (isolated 3 on), 33, 41, 3, by decide +kernel⟩,
   ⟨req 33 .pf0 [0x2A92, 3, 1] (isolated 3 (onP [(⟨A.SYS_DOMSTAT_LO, 22, 2⟩, 0)])), 33, 41, 3, by decide +kernel⟩,
   ⟨req 33 .pf0 [0x2A93, 3, 1] on, 33, 41, 3, .b, by decide +kernel⟩,
   ⟨req 33 .pf0 [0x2A93, 3, 1] (isolated 3 on), 33, 41, 3, .b, by decide +kernel⟩⟩

theorem witness_ServicesActAndAnswer_5 :
    (∃ (s : State) (m : Fin 48) (r : Fin 48) (n : Fin 16), chOf (s.reqWord m 1) = some n ∧ s.asked m Port.pf0 147 r ∧
      (s.reqWord m 2 = if s.boot.slot = Slot.b then 1 else 0) ∧ !s.cutShort ∧ (s.ch n).iso.isolated ∧ s.chOn n ∧ s.slotCause
      s.boot.slot = 0 ∧ !(s.ch n).iso.untrained ∧ ((s.chanSects s.boot.slot n).all fun (x : Nat × Sect) => BitVec.ofNat 32 x.2.crc == crc32c (s.content s.boot.slot x.2)
      && s.sectFormatOk s.boot.slot x.1) ∧ chanLoadOk n (loadChannel n s.boot.slot (releaseMsg m s)) ∧ (loadChannel n
      s.boot.slot (releaseMsg m s)).mbx = (releaseMsg m s).mbx) ∧
    (∃ (s : State) (m : Fin 48) (r : Fin 48) (n : Fin 16), chOf (s.reqWord m 1) = some n ∧ s.asked m Port.pf0 148 r ∧ !(s.ch
      n).iso.isolated) ∧
    (∃ (s : State) (m : Fin 48) (r : Fin 48) (n : Fin 16), chOf (s.reqWord m 1) = some n ∧ s.asked m Port.pf0 148 r ∧ (s.ch
      n).iso.isolated ∧ !(s.ch n).iso.offSince ∧ !(s.ch n).iso.memLost) ∧
    (∃ (s : State) (m : Fin 48) (r : Fin 48) (n : Fin 16), chOf (s.reqWord m 1) = some n ∧ s.asked m Port.pf0 149 r ∧
      (s.reqWord m 2 < 1 ∨ 600 < s.reqWord m 2)) :=
  ⟨⟨req 33 .pf0 [0x2A93, 3, 0] (isolated 3 (flashed slotA (on.setWord (segAddr 3 0 0 0) 8))), 33, 41, 3, by decide +kernel⟩,
   ⟨req 33 .pf0 [0x2A94, 3] on, 33, 41, 3, by decide +kernel⟩,
   ⟨req 33 .pf0 [0x2A94, 3] (isolated 3 on), 33, 41, 3, by decide +kernel⟩,
   ⟨req 33 .pf0 [0x2A95, 3, 601] on, 33, 41, 3, by decide +kernel⟩⟩

theorem witness_ServicesActAndAnswer_6 :
    (∃ (s : State) (m : Fin 48) (r : Fin 48) (n : Fin 16), chOf (s.reqWord m 1) = some n ∧ s.asked m Port.pf0 149 r ∧ 1 ≤
      s.reqWord m 2 ∧ s.reqWord m 2 ≤ 600 ∧ s.flag (F.INS_LADn_CFG_EN n.val) ∧ s.flag (F.INS_LADn_CFG_HEAL n.val) ∧ (s.ch
      n).iso.nozTest.isSome) ∧
    (∃ (s : State) (m : Fin 48) (r : Fin 48) (n : Fin 16) (x : Fin 16), chOf (s.reqWord m 1) = some n ∧ s.asked m Port.pf0 149
      r ∧ 1 ≤ s.reqWord m 2 ∧ s.reqWord m 2 ≤ 600 ∧ s.flag (F.INS_LADn_CFG_EN n.val) ∧ s.flag (F.INS_LADn_CFG_HEAL n.val) ∧
      s.mayTest n ∧ s.freeTx = some x) ∧
    (∃ (s : State) (m : Fin 48) (r : Fin 48) (n : Fin 16), chOf (s.reqWord m 1) = some n ∧ s.asked m Port.pf0 150 r ∧ s.chOn
      n) ∧
    (∃ (s : State) (m : Fin 48) (r : Fin 48), s.asked m Port.pf0 152 r ∧ !s.flag F.FLT_SAFE_BSCAN ∧ s.reqWord m 1 ≠ 46538) :=
  ⟨⟨req 33 .pf0 [0x2A95, 3, 600] ((onP [(F.INS_LADn_CFG_EN 3, 1), (F.INS_LADn_CFG_HEAL 3, 1)]).modIso 3 fun i => { i with nozTest := some noz0 }), 33, 41, 3, by decide +kernel⟩,
   ⟨req 33 .pf0 [0x2A95, 3, 1] (onP [(F.INS_LADn_CFG_EN 3, 1), (F.INS_LADn_CFG_HEAL 3, 1)]), 33, 41, 3, 0, by decide +kernel⟩,
   ⟨req 33 .pf0 [0x2A96, 3] on, 33, 41, 3, by decide +kernel⟩,
   ⟨req 32 .pf0 [0x2A98, 0] on, 32, 40, by decide +kernel⟩⟩

theorem witness_ServicesActAndAnswer_7 :
    (∃ (s : State) (m : Fin 48) (r : Fin 48), s.asked m Port.pf0 152 r ∧ !s.flag F.FLT_SAFE_BSCAN ∧ s.reqWord m 1 = 46538 ∧ (∀
      (n : Fin 16), s.domState (8 + ↑n) = 0 ∨ (s.ch n).iso.isolated = true) ∧ (∀ (a : Fin 4), (!s.flag (F.MOT_AXa_CTRL_EN ↑a))
      = true)) ∧
    (∃ (s : State) (n : Fin 16), (s.ch n).work.seqUp) ∧
    (∃ (s : State) (n : Fin 16), s.chOn n ∧ !(s.ch n).work.seqUp ∧ (s.ch n).work.waitCmd = none) :=
  ⟨⟨req 32 .pf0 [0x2A98, 0xB5CA] (onP [(⟨A.SYS_DOMSTAT_LO, 0, 32⟩, 0xAAAA), (⟨A.SYS_DOMSTAT_HI, 0, 32⟩, 0)]), 32, 40, by decide +kernel⟩,
   ⟨on, 3, by decide +kernel⟩,
   ⟨on.modWork 3 (fun w => { w with seqUp := false }), 3, by decide +kernel⟩⟩

/-- A state in which a core mismatch of the supervisor comes next. -/
def cut (s : State) : State := { s with pending := [.supLockstep] }

theorem witness_ServicesActAndAnswer_8 :
    (∃ (s : State) (m r : Fin 48) (n : Fin 16), chOf (s.reqWord m 1) = some n ∧ s.asked m .pf0 0x90 r ∧ (s.ch n).iso.isolated) ∧
    (∃ (s : State) (m r : Fin 48) (n : Fin 16), chOf (s.reqWord m 1) = some n ∧ s.asked m .pf0 0x91 r ∧ s.cutShort ∧
      (s.ch n).iso.isolated ∧ s.chOn n ∧ bitAt (s.reqWord m 2) 1) ∧
    (∃ (s : State) (m r : Fin 48) (n : Fin 16), chOf (s.reqWord m 1) = some n ∧ s.asked m .pf0 0x92 r ∧ s.pwr.ramp = none ∧
      s.pwr.queue = [] ∧ (s.ch n).iso.isolated ∧ s.reqWord m 2 = 0 ∧ !s.chOn n) ∧
    (∃ (s : State) (m r : Fin 48) (n : Fin 16), chOf (s.reqWord m 1) = some n ∧ s.asked m .pf0 0x92 r ∧ s.pwr.ramp = none ∧
      s.pwr.queue = [] ∧ (s.ch n).iso.isolated ∧ s.reqWord m 2 = 1 ∧ s.chOn n ∧ !(s.ch n).iso.untrained) ∧
    (∃ (s : State) (m r : Fin 48) (n : Fin 16), chOf (s.reqWord m 1) = some n ∧ s.asked m .pf0 0x93 r ∧ s.cutShort ∧
      (s.ch n).iso.isolated ∧ s.chOn n) ∧
    (∃ (s : State) (m r : Fin 48) (n : Fin 16), chOf (s.reqWord m 1) = some n ∧ s.asked m .pf0 0x93 r ∧ !s.cutShort ∧
      (s.ch n).iso.isolated ∧ s.chOn n ∧ (s.ch n).iso.untrained) :=
  ⟨⟨req 33 .pf0 [0x2A90, 3] (isolated 3 on), 33, 41, 3, by decide +kernel⟩,
   ⟨cut (req 33 .pf0 [0x2A91, 3, 2] (isolated 3 on)), 33, 41, 3, by decide +kernel⟩,
   ⟨req 33 .pf0 [0x2A92, 3] (isolated 3 (onP [(⟨A.SYS_DOMSTAT_LO, 22, 2⟩, 3)])), 33, 41, 3, by decide +kernel⟩,
   ⟨req 33 .pf0 [0x2A92, 3, 1] (isolated 3 on), 33, 41, 3, by decide +kernel⟩,
   ⟨cut (req 33 .pf0 [0x2A93, 3, 1] (isolated 3 on)), 33, 41, 3, by decide +kernel⟩,
   ⟨(req 33 .pf0 [0x2A93, 3, 1] (isolated 3 on)).modIso 3 fun i => { i with untrained := true }, 33, 41, 3, by decide +kernel⟩⟩

theorem witness_FaultsClearWhenTheirCausesEnd_1 :
    (∃ (s : State) (m : Master) (hi : Bool), (∀ (n : Fin 16), s.wstate n ≠ 2) ∧ s.reaches m (if hi = true then A.FLT_STAT_HI
      else A.FLT_STAT_LO)) ∧
    (∃ (s : State) (m : Master) (v : Word), (∀ (n : Fin 16), s.wstate n ≠ 2) ∧ s.reaches m A.FLT_SAFE ∧ BitVec.getLsbD v 0 ∧
      s.flag F.FLT_SAFE_ACTIVE ∧ !s.safeMayEnd) ∧
    (∃ (s : State) (m : Master) (v : Word), (∀ (n : Fin 16), s.wstate n ≠ 2) ∧ s.reaches m A.FLT_SAFE ∧ BitVec.getLsbD v 0 ∧
      s.flag F.FLT_SAFE_ACTIVE ∧ s.safeMayEnd) ∧
    (∃ (s : State) (m : Master), (∀ (n : Fin 16), s.wstate n ≠ 2) ∧ s.reaches m A.PROT_STAT) :=
  ⟨⟨onP [(lineFld 36, 1), (lineFld 40, 1), (F.NVM_BOOTSTAT_FALLBACK, 1)], .pf0, true, by decide +kernel⟩,
   ⟨onP [(F.FLT_SAFE_ACTIVE, 1), (F.FLT_SAFE_BSCAN, 1)], .pf0, 1, by decide +kernel⟩,
   ⟨onP [(F.FLT_SAFE_ACTIVE, 1), (F.FLT_SAFE_KEY, 1)], .pf0, 1, by decide +kernel⟩,
   ⟨onP [(F.PROT_STAT_STOPN, 1), (F.PROT_STAT_SPWD, 1), (F.PROT_STAT_SPRST, 1), (F.PROT_STAT_NOKEY, 1)], .pf0, by decide +kernel⟩⟩

theorem witness_FaultsClearWhenTheirCausesEnd_2 :
    (∃ (s : State) (m : Master) (v : Word), (∀ (n : Fin 16), s.wstate n ≠ 2) ∧ s.reaches m A.PWR_MON_STAT ∧ BitVec.getLsbD v 0
      ∧ s.get F.PWR_MON_STAT_BELOW = 0 ∧ !s.flag F.PWR_MON_STAT_PFAIL) ∧
    (∃ (s : State) (m : Master) (v : Word), (∀ (n : Fin 16), s.wstate n ≠ 2) ∧ s.reaches m A.PWR_MON_STAT ∧ BitVec.getLsbD v 0
      ∧ (s.get F.PWR_MON_STAT_BELOW ≠ 0 ∨ s.flag F.PWR_MON_STAT_PFAIL = true)) :=
  ⟨⟨onP [(F.PWR_MON_STAT_WARN, 1)], .sup, 1, by decide +kernel⟩,
   ⟨onP [(F.PWR_MON_STAT_WARN, 1), (F.PWR_MON_STAT_PFAIL, 1)], .sup, 1, by decide +kernel⟩⟩

theorem witness_StopPathsTakeTheirActions_1 :
    (∃ (s : State), s.pwr.stopN) ∧
    (∃ (s : State) (m : Master) (v : Word), s.reaches m A.PROT_SAFEREQ ∧ BitVec.toNat v % 65536 ≠ 23294) ∧
    (∃ (s : State) (m : Master) (v : Word), s.reaches m A.PROT_SAFEREQ ∧ (m = Master.pf0 ∨ m = Master.sp) ∧ BitVec.toNat v %
      65536 = 23294) ∧
    (∃ (s : State), s.domOn 1 ∧ !s.pwr.stopN) :=
  ⟨⟨{ on with pwr := { on.pwr with stopN := true } }, by decide +kernel⟩,
   ⟨inSt 3 1 [], .sp, 0xFFFF5AFF, by decide +kernel⟩,
   ⟨inSt 3 1 [], .sp, 0xFFFF5AFE, by decide +kernel⟩,
   ⟨inSt 3 1 [], by decide +kernel⟩⟩

theorem witness_StopPathsTakeTheirActions_2 :
    (∃ (s : State), s.domOn 1 ∧ s.sp.running ∧ s.get F.PROT_CFG_SPWDOG ≠ 0 ∧ s.tick < s.sp.lastTick + s.get F.PROT_CFG_SPWDOG
      * msTicks) ∧
    (∃ (s : State), s.domOn 1 ∧ s.sp.running ∧ s.get F.PROT_CFG_SPWDOG ≠ 0 ∧ s.sp.lastTick + s.get F.PROT_CFG_SPWDOG * msTicks
      ≤ s.tick) :=
  ⟨⟨{ onP [(F.PROT_CFG_SPWDOG, 25)] with sp := { on.sp with running := true, lastTick := 1 } }, by decide +kernel⟩,
   ⟨{ onP [(F.PROT_CFG_SPWDOG, 25)] with sp := { on.sp with running := true } }, by decide +kernel⟩⟩

theorem witness_SafetyPortAnswersItsCommands_1 :
    (∃ (bs : List Byte) (s : State) (r : List Byte) (x : Instr × SpKind), s.domOn 1 ∧ s.sp.last = some (List.take 12 bs, r) ∧
      x ∈ [(Instr.spRead bs, SpKind.read), (Instr.spWrite bs, SpKind.write), (Instr.spStatus bs, SpKind.status)] ∧ spWf x.2 bs
      ∧ bs.length = 36) ∧
    (∃ (bs : List Byte) (s : State), s.domOn 1 ∧ (∀ (r : List Byte), s.sp.last ≠ some (List.take 12 bs, r)) ∧ spWf SpKind.read
      bs ∧ s.spReads (fieldAt bs 4 4)) ∧
    (∃ (bs : List Byte) (s : State) (x : Instr × SpKind × Bool), s.domOn 1 ∧ (∀ (r : List Byte), s.sp.last ≠ some (List.take
      12 bs, r)) ∧ x ∈
      [(Instr.spRead bs, SpKind.read, spMayRead (fieldAt bs 4 4)), (Instr.spWrite bs, SpKind.write, s.spWrites (fieldAt bs 4 4))]
      ∧ spWf x.2.1 bs ∧ !x.2.2) ∧
    (∃ (bs : List Byte) (s : State), s.domOn 1 ∧ (∀ (r : List Byte), s.sp.last ≠ some (List.take 12 bs, r)) ∧ spWf
      SpKind.write bs ∧ fieldAt bs 4 4 = A.PROT_SAFEREQ ∧ (BitVec.ofNat 32 (fieldAt bs 8 4)).toNat % 65536 = 23294) :=
  ⟨⟨spBytes 1 0 0, { on with sp := { on.sp with last := some ((spBytes 1 0 0).take 12, [1, 2]) } }, [1, 2], (.spRead (spBytes 1 0 0), .read), by decide +kernel⟩,
   ⟨spBytes 1 0 0, on, by decide +kernel, lastNone _ _ rfl, by decide +kernel⟩,
   ⟨spBytes 2 0 0, on, (.spWrite (spBytes 2 0 0), .write, false), by decide +kernel, lastNone _ _ rfl, by decide +kernel⟩,
   ⟨spBytes 2 A.PROT_SAFEREQ 0x5AFE, on, by decide +kernel, lastNone _ _ rfl, by decide +kernel⟩⟩

theorem witness_SafetyPortAnswersItsCommands_2 :
    (∃ (bs : List Byte) (s : State), s.domOn 1 ∧ (∀ (r : List Byte), s.sp.last ≠ some (List.take 12 bs, r)) ∧ spWf
      SpKind.write bs ∧ fieldAt bs 4 4 = A.PROT_CFM_LO) ∧
    (∃ (bs : List Byte) (s : State), s.domOn 1 ∧ (∀ (r : List Byte), s.sp.last ≠ some (List.take 12 bs, r)) ∧ spWf
      SpKind.status bs) ∧
    (∃ (bs : List Byte) (s : State), s.domOn 1 ∧ spWf SpKind.badCommand bs) ∧
    (∃ (bs : List Byte) (s : State), s.domOn 1 ∧ spWf SpKind.crcError bs ∧ s.sp.crcRun < 15) :=
  ⟨⟨spBytes 2 A.PROT_CFM_LO 5, on, by decide +kernel, lastNone _ _ rfl, by decide +kernel⟩,
   ⟨spBytes 3 0 0, on, by decide +kernel, lastNone _ _ rfl, by decide +kernel⟩,
   ⟨spBytes 4 0 0, on, by decide +kernel⟩,
   ⟨List.replicate 16 0, { on with sp := { on.sp with crcRun := 14 } }, by decide +kernel⟩⟩

theorem witness_SafetyPortAnswersItsCommands_3 :
    (∃ (bs : List Byte) (s : State), s.domOn 1 ∧ spWf SpKind.crcError bs ∧ 15 ≤ s.sp.crcRun) ∧
    (∃ (bs : List Byte) (s : State), s.domOn 1 ∧ spWf SpKind.early bs) :=
  ⟨⟨List.replicate 16 0, { on with sp := { on.sp with crcRun := 15 } }, by decide +kernel⟩,
   ⟨List.replicate 15 0, on, by decide +kernel⟩⟩

theorem witness_SlotsAreChosenByTheirHeaders :
    (∃ (s : State), s.boot.phase ≠ BootPhase.rom) ∧
    (∃ (s : State), !s.released) ∧
    (∃ (s : State) (sl : Slot), s.boot.phase = BootPhase.rom ∧ s.released ∧ s.boot.pref = 0 ∧ s.atRest ∧ s.slotCause sl = 0 ∧ s.slotCause
      (otherSlot sl) ≠ 0) ∧
    (∃ (s : State), s.boot.phase = BootPhase.rom ∧ s.released ∧ s.boot.pref = 0 ∧ s.atRest ∧ s.slotCause Slot.a = 0 ∧ s.slotCause Slot.b =
      0) ∧
    (∃ (s : State), s.boot.phase = BootPhase.rom ∧ s.released ∧ s.boot.pref = 0 ∧ s.atRest ∧ s.slotCause Slot.a ≠ 0 ∧ s.slotCause Slot.b ≠
      0) :=
  ⟨⟨on, by decide +kernel⟩,
   ⟨{ State.reset with pwr := { State.reset.pwr with relTick := none } }, by decide +kernel⟩,
   ⟨{ flashed slotA State.reset with tick := 800000 }, .a, by decide +kernel⟩,
   ⟨{ flashed slotAB State.reset with tick := 800000 }, by decide +kernel⟩,
   ⟨{ State.reset with tick := 800000 }, by decide +kernel⟩⟩

theorem witness_SectionsLoadUntilReady_1 :
    (∃ (s : State) (i : Nat) (k : Nat) (e : Sect), s.boot.phase = BootPhase.load i k ∧ (s.sects s.boot.slot)[i]? = some e ∧
      s.sectWaits e) ∧
    (∃ (s : State) (i : Nat) (k : Nat) (e : Sect), s.boot.phase = BootPhase.load i k ∧ (s.sects s.boot.slot)[i]? = some e ∧
      !s.sectWaits e ∧ k < 2) ∧
    (∃ (s : State) (i : Nat) (k : Nat) (e : Sect), s.boot.phase = BootPhase.load i k ∧ (s.sects s.boot.slot)[i]? = some e ∧
      !s.sectWaits e ∧ 2 ≤ k ∧ s.boot.fellBack) ∧
    (∃ (s : State) (i : Nat) (k : Nat) (e : Sect), s.boot.phase = BootPhase.load i k ∧ (s.sects s.boot.slot)[i]? = some e ∧
      !s.sectWaits e ∧ BitVec.ofNat 32 e.crc = crc32c (s.content s.boot.slot e) ∧ s.sectFormatOk s.boot.slot i) :=
  ⟨⟨ramping (4, true) (inLoad (put8 256 [0x11] slotA) 0 0), 0, 0, (inLoad (put8 256 [0x11] slotA) 0 0).sect .a 0, by decide +kernel⟩,
   ⟨inLoad slotA 0 1, 0, 1, (inLoad slotA 0 0).sect .a 0, by decide +kernel⟩,
   ⟨fellBack (inLoad slotA 0 2), 0, 2, (inLoad slotA 0 0).sect .a 0, by decide +kernel⟩,
   ⟨inLoad slotA 0 0, 0, 0, (inLoad slotA 0 0).sect .a 0, by decide +kernel⟩⟩

theorem witness_SectionsLoadUntilReady_2 :
    (∃ (s : State) (i : Nat) (k : Nat), s.boot.phase = BootPhase.load i k ∧ i < (s.sects s.boot.slot).length) ∧
    (∃ (s : State) (i : Nat) (k : Nat), s.boot.phase = BootPhase.load i k ∧ (s.sects s.boot.slot).length ≤ i ∧ !s.ramping ∧
      s.boot.trainMask &&& s.boot.chMask = 0 ∧ bytesAt (s.hdr s.boot.slot) 48 32 = sha256 (s.imgBytes s.boot.slot (hdrHlen
      (s.hdr s.boot.slot)) (hdrIlen (s.hdr s.boot.slot) - hdrHlen (s.hdr s.boot.slot))) ∧ (hdrChmask (s.hdr s.boot.slot) = 0 ∨
      ((s.sects s.boot.slot).any fun (x : Sect) => x.typ == 2) = true) ∧ hdrTunseed (s.hdr s.boot.slot) = 0 ∧ s.badBlock =
      none) ∧
    (∃ (s : State) (i : Nat) (k : Nat), s.boot.phase = BootPhase.load i k ∧ (s.sects s.boot.slot).length ≤ i ∧ !s.ramping ∧
      s.boot.trainMask &&& s.boot.chMask = 0 ∧ bytesAt (s.hdr s.boot.slot) 48 32 ≠ sha256 (s.imgBytes s.boot.slot (hdrHlen
      (s.hdr s.boot.slot)) (hdrIlen (s.hdr s.boot.slot) - hdrHlen (s.hdr s.boot.slot))) ∧ s.boot.fellBack) ∧
    (∃ (s : State), s.boot.phase = BootPhase.resume ∧ (∀ (n : Fin 16), (s.ch n).work.waitCmd = none)) :=
  ⟨⟨inLoad slotA 0 0, 0, 0, by decide +kernel⟩,
   ⟨(inLoad slotA0 1 0).put ⟨A.SYS_DOMSTAT_LO, 10, 2⟩ 0, 1, 0, by decide +kernel⟩,
   ⟨fellBack (inLoad (put8 48 [0] slotA) 1 0), 1, 0, by decide +kernel⟩,
   ⟨{ on with boot := { on.boot with phase := .resume } }, by decide +kernel⟩⟩

theorem witness_SectionsLoadUntilReady_3 :
    (∃ (s : State), s.boot.phase ≠ BootPhase.resume) ∧
    (∃ (s : State) (n : Fin 16), bitAt s.boot.trainMask n.val ∧ s.chOn n) ∧
    (∃ (s : State) (n : Fin 16), bitAt s.boot.trainMask n.val ∧ s.boot.trainTick + 40 * msTicks ≤ s.tick ∧ s.atRest ∧ bitAt
      s.boot.chMask n.val) ∧
    (∃ (s : State), s.tick < s.boot.trainTick + 40 * msTicks) :=
  ⟨⟨ramping (4, true) (inLoad (put8 256 [0x11] slotA) 0 0), by decide +kernel⟩,
   ⟨{ on with boot := { on.boot with trainMask := 0x8000 } }, 15, by decide +kernel⟩,
   ⟨{ on with tick := 16000000, boot := { on.boot with trainMask := 0x8000, chMask := 0x8000 } }, 15, by decide +kernel⟩,
   ⟨{ on with tick := 15999999, boot := { on.boot with trainMask := 0x8000 } }, by decide +kernel⟩⟩

theorem witness_FlashCommandsRunOrAreRefused_1 :
    (∃ (s : State) (m : Master) (c : Instr) (code : Nat) (sl : Slot), s.reaches m A.NVM_CMD ∧ (c, code, sl) ∈
      [(Instr.nvmRead m, 1, Slot.a), (Instr.nvmProgram m, 2, Slot.a), (Instr.nvmErase m, 3, Slot.a), (Instr.nvmVerify m Slot.a, 4, Slot.a), (Instr.nvmVerify m Slot.b, 4, Slot.b)]
      ∧ s.nvmRefusal code (s.get F.NVM_FADDR_FADDR) (s.get F.NVM_LEN_LEN) ≠ 0) ∧
    (∃ (s : State) (m : Master) (c : Instr) (code : Nat) (sl : Slot), s.reaches m A.NVM_CMD ∧ (c, code, sl) ∈
      [(Instr.nvmRead m, 1, Slot.a), (Instr.nvmProgram m, 2, Slot.a), (Instr.nvmErase m, 3, Slot.a), (Instr.nvmVerify m Slot.a, 4, Slot.a), (Instr.nvmVerify m Slot.b, 4, Slot.b)]
      ∧ s.nvmRefusal code (s.get F.NVM_FADDR_FADDR) (s.get F.NVM_LEN_LEN) = 0 ∧ s.pwr.nvwBelow = [] ∧ !s.flag
      F.PWR_MON_STAT_WARN) ∧
    (∃ (s : State) (m : Master) (c : Instr) (code : Nat) (sl : Slot), s.reaches m A.NVM_CMD ∧ (c, code, sl) ∈
      [(Instr.nvmRead m, 1, Slot.a), (Instr.nvmProgram m, 2, Slot.a), (Instr.nvmErase m, 3, Slot.a), (Instr.nvmVerify m Slot.a, 4, Slot.a), (Instr.nvmVerify m Slot.b, 4, Slot.b)]
      ∧ s.nvmRefusal code (s.get F.NVM_FADDR_FADDR) (s.get F.NVM_LEN_LEN) = 0 ∧ s.pwr.nvwBelow = [] ∧ s.flag
      F.PWR_MON_STAT_WARN ∧ (code = 2 ∨ code = 3)) ∧
    (∃ (s : State), s.boot.cmd = none) :=
  ⟨⟨on, .pf0, .nvmErase .pf0, 3, .a, by decide +kernel⟩,
   ⟨on, .pf0, .nvmVerify .pf0 .b, 4, .b, by decide +kernel⟩,
   ⟨onP [(F.PROT_CFG_FLASHWE, 1), (F.PWR_MON_STAT_WARN, 1), (F.NVM_FADDR_FADDR, 0x1000000), (F.NVM_LEN_LEN, 256)], .pf0, .nvmProgram .pf0, 2, .a, by decide +kernel⟩,
   ⟨on, by decide +kernel⟩⟩

theorem witness_FlashCommandsRunOrAreRefused_2 :
    (∃ (s : State) (k : NvmCmd), s.boot.cmd = some k ∧ k.code = 1 ∧ s.dmaUp) ∧
    (∃ (s : State) (k : NvmCmd) (data : List Byte), s.boot.cmd = some k ∧ k.code = 2 ∧ data.length = k.len ∧ s.dmaUp) ∧
    (∃ (s : State) (k : NvmCmd), s.boot.cmd = some k ∧ k.code = 3) ∧
    (∃ (s : State) (k : NvmCmd), s.boot.cmd = some k ∧ k.code = 4) :=
  ⟨⟨nvm 1 on, nvm0 1, by decide +kernel⟩,
   ⟨nvm 2 on, nvm0 2, List.replicate 4096 5, by decide +kernel⟩,
   ⟨nvm 3 on, nvm0 3, by decide +kernel⟩,
   ⟨nvm 4 on, nvm0 4, by decide +kernel⟩⟩

theorem witness_ResetsStartAnew_1 :
    (∃ (s : State), !s.pwr.standby) ∧
    (∃ (s : State), s.pwr.standby) ∧
    (∃ (s : State) (m : Master) (v : Word), s.reaches m A.SYS_DEVRST ∧ BitVec.toNat v % 65536 = 56919 ∧ s.nvOk) ∧
    (∃ (s : State) (m : Master) (v : Word), s.reaches m A.SYS_DEVRST ∧ BitVec.toNat v % 65536 = 56919 ∧ !s.nvOk) :=
  ⟨⟨on, by decide +kernel⟩,
   ⟨{ on with pwr := { on.pwr with standby := true } }, by decide +kernel⟩,
   ⟨on, .pf0, 0xFFFFDE57, by decide +kernel⟩,
   ⟨lowV, .pf0, 0xDE57, by decide +kernel⟩⟩

theorem witness_ResetsStartAnew_2 :
    (∃ (s : State) (m : Master) (v : Word), s.reaches m A.SYS_DEVRST ∧ BitVec.toNat v % 65536 ≠ 56919) ∧
    (∃ (x : Instr × Fld), x ∈ [(Instr.pcieFundamentalReset, F.SYS_RSTCAUSE_PERST), (Instr.hotReset, F.SYS_RSTCAUSE_HOTRST)]) ∧
    (∃ (s : State), s.domOn 0) ∧
    (∃ (s : State) (x : Instr × Bool × Nat), s.supRuns ∧ x ∈ [(Instr.supLockstep, true, 4), (Instr.supWdog, false, 5)]) :=
  ⟨⟨on, .pf0, 0xDE58, by decide +kernel⟩,
   ⟨(.hotReset, F.SYS_RSTCAUSE_HOTRST), by decide +kernel⟩,
   ⟨on, by decide +kernel⟩,
   ⟨on, (.supLockstep, true, 4), by decide +kernel⟩⟩

theorem witness_ResetsStartAnew_3 :
    (∃ (s : State), !s.supRuns) ∧
    (∃ (s : State), s.domOn 3 ∧ !s.boot.supUp) ∧
    (∃ (s : State), s.boot.supUp) :=
  ⟨⟨{ on with boot := { on.boot with supUp := false } }, by decide +kernel⟩,
   ⟨{ on with boot := { on.boot with supUp := false } }, by decide +kernel⟩,
   ⟨on, by decide +kernel⟩⟩

theorem witness_DomainsAndClocksSwitch_1 :
    (∃ (s : State) (d : Fin 24) (m : Master), s.pwr.ramp = none ∧ s.pwr.queue = [] ∧ s.reaches m A.PWR_DOMON ∧ !s.domOn d.val
      ∧ s.domRefusal (m == Master.pf0) (d.val) true = 0) ∧
    (∃ (s : State) (d : Fin 24) (m : Master), s.pwr.ramp = none ∧ s.pwr.queue = [] ∧ s.reaches m A.PWR_DOMON ∧ !s.domOn d.val
      ∧ d.val ≠ 3 ∧ s.domRefusal (m == Master.pf0) (d.val) true ≠ 0) ∧
    (∃ (s : State) (d : Fin 24) (m : Master), s.pwr.ramp = none ∧ s.pwr.queue = [] ∧ s.reaches m A.PWR_DOMOFF ∧ s.domOn d.val
      ∧ s.domRefusal (m == Master.pf0) (d.val) false = 0 ∧ s.domHalted d.val) ∧
    (∃ (s : State) (d : Fin 24) (m : Master), s.pwr.ramp = none ∧ s.pwr.queue = [] ∧ s.reaches m A.PWR_DOMOFF ∧ s.domOn d.val
      ∧ s.domRefusal (m == Master.pf0) (d.val) false ≠ 0) :=
  ⟨⟨onP [(⟨A.SYS_DOMSTAT_HI, 14, 2⟩, 0)], 23, .sup, by decide +kernel⟩,
   ⟨onP [(⟨A.SYS_DOMSTAT_HI, 14, 2⟩, 0)], 23, .pf0, by decide +kernel⟩,
   ⟨on, 23, .sup, by decide +kernel⟩,
   ⟨on, 0, .sup, by decide +kernel⟩⟩

theorem witness_DomainsAndClocksSwitch_2 :
    (∃ (s : State) (d : Fin 24) (on : Bool), s.pwr.ramp = some (d.val, on) ∧ s.pwr.queue = []) ∧
    (∃ (s : State) (d : Fin 24), s.pwr.ramp = some (d.val, true) ∧ s.pwr.queue = [] ∧ s.pwr.rampTick + msTicks ≤ s.tick) ∧
    (∃ (s : State) (d : Fin 24), s.pwr.ramp = some (d.val, true) ∧ s.pwr.queue = [] ∧ s.tick < s.pwr.rampTick + msTicks) :=
  ⟨⟨ramping (23, true) (onP [(⟨A.SYS_DOMSTAT_HI, 14, 2⟩, 1)]), 23, true, by decide +kernel⟩,
   ⟨ramping (23, true) (onP [(⟨A.SYS_DOMSTAT_HI, 14, 2⟩, 1)]), 23, by decide +kernel⟩,
   ⟨{ ramping (23, true) (onP [(⟨A.SYS_DOMSTAT_HI, 14, 2⟩, 1)]) with tick := 399999 }, 23, by decide +kernel⟩⟩

theorem witness_StandbyAndWake_1 :
    (∃ (s : State) (m : Master) (v : Word), s.reaches m A.PWR_STBY ∧ BitVec.toNat v % 65536 = 22491 ∧ (∀ (n : Fin 16),
      s.wstate n ≠ 1) ∧ s.nvOk) ∧
    (∃ (s : State) (m : Master) (v : Word), s.reaches m A.PWR_STBY ∧ BitVec.toNat v % 65536 = 22491 ∧ (∀ (n : Fin 16),
      s.wstate n ≠ 1) ∧ !s.nvOk) ∧
    (∃ (s : State) (m : Master) (v : Word) (n : Fin 16), s.reaches m A.PWR_STBY ∧ BitVec.toNat v % 65536 = 22491 ∧ s.wstate n
      = 1) ∧
    (∃ (s : State) (m : Master) (v : Word), s.reaches m A.PWR_STBY ∧ BitVec.toNat v % 65536 ≠ 22491) :=
  ⟨⟨on, .pf0, 0x57DB, by decide +kernel⟩,
   ⟨lowV, .pf0, 0x57DB, by decide +kernel⟩,
   ⟨inSt 3 1 [], .pf0, 0x57DB, 3, by decide +kernel⟩,
   ⟨on, .pf0, 0x57DA, by decide +kernel⟩⟩

theorem witness_StandbyAndWake_2 :
    (∃ (s : State), s.pwr.standby ∧ !s.pwr.supen ∧ s.flag F.PWR_WAKECFG_WAKEN ∧ .standby ∉ s.pwr.waits) ∧
    (∃ (s : State), s.flag F.PWR_WAKECFG_WAKEN ∧ .standby ∈ s.pwr.waits) ∧
    (∃ (s : State), s.pwr.standby ∧ !s.pwr.supen ∧ s.flag F.PWR_WAKECFG_TMR ∧ s.get F.PWR_WAKETMR_TICKS * 400000000 ≤ (s.tick
      - s.pwr.stbyTick) * 32768) ∧
    (∃ (s : State), (!s.flag F.PWR_WAKECFG_WAKEN) = true ∨ ((!s.pwr.standby) = true ∧ .standby ∉ s.pwr.waits)) ∧
    (∃ (s : State), (!s.flag F.PWR_WAKECFG_TMR) = true ∨ (!s.pwr.standby) = true) :=
  ⟨⟨{ onP [(F.PWR_WAKECFG_TMR, 1), (F.PWR_WAKETMR_TICKS, 819)] with pwr := { on.pwr with standby := true, supen := false } }, by decide +kernel⟩,
   ⟨boxed [.standby], by decide +kernel⟩,
   ⟨{ onP [(F.PWR_WAKECFG_TMR, 1), (F.PWR_WAKETMR_TICKS, 819)] with pwr := { on.pwr with standby := true, supen := false } }, by decide +kernel⟩,
   ⟨on, by decide +kernel⟩,
   ⟨on, by decide +kernel⟩⟩

theorem witness_StandbyAndWake_3 :
    (∃ (s : State), !s.pwr.mainUp) ∧
    (∃ (s : State), s.pwr.mainUp ∧ !s.pwr.standby) ∧
    (∃ (s : State), s.boot.phase = BootPhase.rom ∧ s.released ∧ !s.boot.resetN) ∧
    (∃ (s : State), s.boot.resetN) ∧
    (∃ (s : State), !s.released) :=
  ⟨⟨{ on with pwr := { on.pwr with mainUp := false } }, by decide +kernel⟩,
   ⟨{ on with pwr := { on.pwr with mainUp := true } }, by decide +kernel⟩,
   ⟨{ State.reset with tick := 800000 }, by decide +kernel⟩,
   ⟨on, by decide +kernel⟩,
   ⟨{ on with pwr := { on.pwr with relTick := none } }, by decide +kernel⟩⟩

theorem witness_SuppliesWarnAndFlush_1 :
    (∃ (s : State) (r : Rail), !s.flag (belowFld r)) ∧
    (∃ (s : State) (r : Rail), s.flag (belowFld r)) ∧
    (∃ (s : State), s.pwr.nvwBelow = []) ∧
    (∃ (s : State) (r : Rail), r ∈ s.pwr.nvwBelow) :=
  ⟨⟨inSt 3 1 [], .vdd33, by decide +kernel⟩,
   ⟨onP [(belowFld .vdd33, 1)], .vdd33, by decide +kernel⟩,
   ⟨on, by decide +kernel⟩,
   ⟨{ on with pwr := { on.pwr with nvwBelow := [.vdd] } }, .vdd, by decide +kernel⟩⟩

theorem witness_SuppliesWarnAndFlush_2 :
    (∃ (s : State), !s.flag F.PWR_MON_STAT_PFAIL) ∧
    (∃ (s : State) (k : Nat) (w : Bool), s.pwr.flush = some (k, w) ∧ s.nvOk ∧ (∀ (n : Fin 16), s.atBoundary n = true)) ∧
    (∃ (s : State) (k : Nat) (w : Bool) (n : Fin 16), s.pwr.flush = some (k, w) ∧ ((!s.nvOk) = true ∨ (!s.atBoundary n) =
      true)) ∧
    (∃ (s : State), s.pwr.flush = none) :=
  ⟨⟨inSt 3 1 [], by decide +kernel⟩,
   ⟨{ on with pwr := { on.pwr with flush := some (0, true) } }, 0, true, by decide +kernel⟩,
   ⟨{ lowV with pwr := { lowV.pwr with flush := some (0, true) } }, 0, true, 0, by decide +kernel⟩,
   ⟨on, by decide +kernel⟩⟩

theorem witness_SuppliesWarnAndFlush_4 :
    (∃ (s : State) (r : Rail), r ∉ s.pwr.broken) ∧ (∃ (s : State) (r : Rail), s.pwr.broken = [r]) :=
  ⟨⟨on, .vdd33, by decide +kernel⟩, ⟨{ on with pwr := { on.pwr with broken := [.vdd33] } }, .vdd33, by decide +kernel⟩⟩

theorem witness_SuppliesWarnAndFlush_3 :
    (∃ (s : State), (∀ (n : Fin 16), (s.ch n).work.waitCmd = none) ∧ s.pwr.waits = [] ∧ s.pwr.broken = []) ∧
    (∃ (s : State), (∀ (n : Fin 16), (s.ch n).work.waitCmd = none) ∧ s.pwr.waits = [] ∧ s.pwr.broken ≠ []) ∧
    (∃ (s : State) (p : Nat) (o : Bool), (∀ (n : Fin 16), (s.ch n).work.waitCmd = none) ∧ s.pwr.waits = [NvWait.slotPref p o] ∧
      s.pwr.broken = []) ∧
    (∃ (s : State) (r : List NvWait), (∀ (n : Fin 16), (s.ch n).work.waitCmd = none) ∧ s.pwr.waits = NvWait.deviceReset :: r) ∧
    (∃ (s : State) (r : List NvWait), (∀ (n : Fin 16), (s.ch n).work.waitCmd = none) ∧ s.pwr.waits = NvWait.standby :: r) :=
  ⟨⟨inSt 3 1 [], by decide +kernel⟩,
   ⟨{ on with pwr := { on.pwr with broken := [.vdd] } }, by decide +kernel⟩,
   ⟨boxed [.slotPref 2 true], 2, true, by decide +kernel⟩,
   ⟨boxed [.deviceReset, .standby], [.standby], by decide +kernel⟩,
   ⟨boxed [.standby], [], by decide +kernel⟩⟩

theorem witness_DomainsAndClocksSwitch_3 :
    (∃ (s : State), s.flag F.SYS_CLKSTAT_REFOK) ∧
    (∃ (s : State), !s.flag F.SYS_CLKSTAT_REFOK) ∧
    (∃ (s : State) (n : Fin 16), (s.ch n).iso.switchBack ∧ s.atBoundary n) ∧
    (∃ (s : State) (n : Fin 16), !s.atBoundary n) :=
  ⟨⟨onP [(F.SYS_CLKSTAT_REFOK, 1)], by decide +kernel⟩,
   ⟨onP [(F.SYS_CLKSTAT_REFOK, 0), (F.SYS_CLKSTAT_CHFB, 0xFFFF)], by decide +kernel⟩,
   ⟨(onP [(F.SYS_CLKSTAT_CHFB, 0xFFFF)]).modIso 15 fun i => { i with switchBack := true }, 15, by decide +kernel⟩,
   ⟨(inSt 15 1 []).modWav 15 fun w => { w with win := some { win0 with endTick := 10000001 } }, 15, by decide +kernel⟩⟩

theorem witness_DomainsAndClocksSwitch_4 :
    (∃ (s : State) (n : Fin 16), s.chOn n ∧ s.chTimeAt n s.tick ≤ s.devTime + 8) ∧
    (∃ (s : State) (d : Fin 24) (m : Master) (n : Fin 16), s.pwr.ramp = none ∧ s.pwr.queue = [] ∧ s.reaches m A.PWR_DOMOFF ∧
      s.domOn d.val ∧ s.domRefusal (m == .pf0) d false = 0 ∧ d.val = 8 + n.val ∧ !s.atBoundary n ∧ s.sevOf (chEvt n 2) ≤ 1 ∧
      s.wstate n = 1) :=
  ⟨⟨onP [(F.SYS_CLKSTAT_CHFB, 0xFFFF)], 15, by decide +kernel⟩,
   ⟨(inSt 15 1 []).modWav 15 fun w => { w with win := some { win0 with endTick := 10000001 } }, 23, .sup, 15, by decide +kernel⟩⟩

theorem witness_EpochTakesBothWords :
    (∃ (s : State) (m : Master), s.reaches m A.SYS_EPOCH_LO) ∧
    (∃ (s : State) (m : Master), s.reaches m A.SYS_EPOCH_HI) :=
  ⟨⟨on, .pf0, by decide +kernel⟩,
   ⟨onP [(⟨epochStage, 0, 32⟩, 77)], .pf0, by decide +kernel⟩⟩

theorem witness_RegistersFollowTheirTypes_1 :
    (∃ (s : State) (m : Master) (e : Fin 512), s.reaches m (A.EVT_ROUTEe e.val)) ∧
    (∃ (s : State) (m : Master) (w : Fin 16), s.reaches m (A.EVT_PENDw w.val)) ∧
    (∃ (s : State) (m : Master), s.reaches m A.SYS_BOOTCNT) ∧
    (∃ (s : State) (m : Master) (a : Nat), a < bar4Base ∧ !hasStaged a ∧ !s.reaches m a) :=
  ⟨⟨on, .sup, 511, by decide +kernel⟩,
   ⟨onP [(pendFld 511, 1)], .pf0, 15, by decide +kernel⟩,
   ⟨on, .pf0, by decide +kernel⟩,
   ⟨onP [(⟨A.SYS_DOMSTAT_LO, 4, 2⟩, 0)], .pf0, A.NVM_FADDR, by decide +kernel⟩⟩

theorem witness_RegistersFollowTheirTypes_2 :
    (∃ (s : State) (m : Master) (a : Nat) (h : Nat), highOf a = some h ∧ !isHigh a ∧ s.reads m a ∧ blockOf a ≠ 3) ∧
    (∃ (s : State) (m : Master) (a : Nat), highOf a = none ∧ !isHigh a ∧ s.reads m a ∧ blockOf a ≠ 3 ∧ a ∉
      [A.CAPO_ALLOC, A.INS_TBLDATA, A.TUN_SETDATA, A.THM_TBLDATA]) ∧
    (∃ (s : State) (m : Master) (a : Nat), a < bar4Base ∧ !s.reads m a) ∧
    (∃ (s : State), s.domOn 0 ∧ s.cfgRetries) ∧
    (∃ (s : State), s.domOn 0 ∧ !s.cfgRetries ∧ s.host.cfg.get 0 = []) :=
  ⟨⟨on, .pf1, A.SYS_TIME_LO, A.SYS_TIME_HI, by decide +kernel⟩,
   ⟨onP [(⟨A.SYS_CLKCNT, 0, 32⟩, 0x10002)], .pf0, A.SYS_CLKCNT, by decide +kernel⟩,
   ⟨onP [(⟨A.SYS_DOMSTAT_LO, 4, 2⟩, 0)], .pf0, A.NVM_FADDR, by decide +kernel⟩,
   ⟨State.reset, by decide +kernel⟩,
   ⟨on, by decide +kernel⟩⟩

theorem witness_RegistersFollowTheirTypes_3 :
    (∃ (s : State) (x : Instr × Nat), x ∈ [(Instr.fabRetry, 0), (Instr.jnlCe, 3)] ∧ List.find? (fun (p : Nat × Nat) => p.1 ==
      x.2) s.flt.lastRaise = none) ∧
    (∃ (s : State) (x : Instr × Nat) (y : Nat × Nat), x ∈ [(Instr.fabRetry, 0), (Instr.jnlCe, 3)] ∧ List.find? (fun (p : Nat ×
      Nat) => p.1 == x.2) s.flt.lastRaise = some y ∧ s.tick < y.2 + msTicks) :=
  ⟨⟨on, (.jnlCe, 3), by decide +kernel⟩,
   ⟨{ on with flt := { on.flt with lastRaise := [(3, 9999999)] } }, (.jnlCe, 3), (3, 9999999), by decide +kernel⟩⟩

end Sys2Proof.Tests
end Tests
end

namespace Sys2Proof.Machine

/-! ## Every step keeps the stores (R10, R12, R13; log 1) -/

/-- Whatever a command does, it is steady: each constructor by the law of its own meaning. -/
theorem exec_steady (c : Instr) (s : State) : OSteady s (exec c s) := by
  cases c with
  | powerOnReset => exact execPowerOnReset_steady s
  | brownOutReset r => exact execBrownOutReset_steady r s
  | deviceReset m v => exact execDeviceReset_steady m v s
  | pcieFundamentalReset => exact execPcieFundamentalReset_steady s
  | hotReset => exact execHotReset_steady s
  | flrPf0 => exact execFlrPf0_steady s
  | flrPf1 => exact execFlrPf1_steady s
  | supLockstep => exact execSupLockstep_steady s
  | supWdog => exact execSupWdog_steady s
  | supRestart => exact execSupRestart_steady s
  | pwrDomon m v => exact execPwrDomon_steady m v s
  | pwrDomoff m v => exact execPwrDomoff_steady m v s
  | domainRampDone => exact execDomainRampDone_steady s
  | pwrDomfail => exact execPwrDomfail_steady s
  | pwrStby m v => exact execPwrStby_steady m v s
  | wakeNWake => exact execWakeNWake_steady s
  | wakeTimer => exact execWakeTimer_steady s
  | mainRailsRise => exact execMainRailsRise_steady s
  | supplyWarning r => exact execSupplyWarning_steady r s
  | ledgerFlushComplete => exact execLedgerFlushComplete_steady s
  | nvw r => exact execNvw_steady r s
  | nvWriteResume => exact execNvWriteResume_steady s
  | supplyRecover r => exact execSupplyRecover_steady r s
  | supplyWarnClear m v => exact execSupplyWarnClear_steady m v s
  | clkRefloss => exact execClkRefloss_steady s
  | clkRefback => exact execClkRefback_steady s
  | clkPllfail p => exact execClkPllfail_steady p s
  | channelClockSwitchback n => exact execChannelClockSwitchback_steady n s
  | memoryRateChange n => exact execMemoryRateChange_steady n s
  | devtimeBroadcast => exact execDevtimeBroadcast_steady s
  | sysEpochLoWrite m v => exact execSysEpochLoWrite_steady m v s
  | sysEpochHiWrite m v => exact execSysEpochHiWrite_steady m v s
  | lowWordRead m a => exact execLowWordRead_steady m a s
  | rcRead m a => exact execRcRead_steady m a s
  | registerWrite m a v => exact execRegisterWrite_steady m a v s
  | fabRetry => exact execFabRetry_steady s
  | fabUe => exact execFabUe_steady s
  | jnlCe => exact execJnlCe_steady s
  | pidxWrite m n v => exact execPidxWrite_steady m n v s
  | descriptorFetch n bs => exact execDescriptorFetch_steady n bs s
  | descriptorCheck n => exact execDescriptorCheck_steady n s
  | rejectionRecordWrite n => exact execRejectionRecordWrite_steady n s
  | bandAccept n => exact execBandAccept_steady n s
  | jnlWrfail n => exact execJnlWrfail_steady n s
  | acceptRetry n => exact execAcceptRetry_steady n s
  | screrr n err => exact execScrerr_steady n err s
  | bandLoadStart n => exact execBandLoadStart_steady n s
  | imageDmaError n err got => exact execImageDmaError_steady n err got s
  | imageDmaRetry n => exact execImageDmaRetry_steady n s
  | bandLoadComplete n got => exact execBandLoadComplete_steady n got s
  | bandRelease n => exact execBandRelease_steady n s
  | bandRetire n => exact execBandRetire_steady n s
  | cmpHeadWrite m n v => exact execCmpHeadWrite_steady m n v s
  | checkpoint n => exact execCheckpoint_steady n s
  | cmdStart m n => exact execCmdStart_steady m n s
  | cmdStop m n => exact execCmdStop_steady m n s
  | cmdResume m n => exact execCmdResume_steady m n s
  | cmdRefire m n => exact execCmdRefire_steady m n s
  | cmdSkip m n => exact execCmdSkip_steady m n s
  | cmdAbandon m n => exact execCmdAbandon_steady m n s
  | cmdAbandonAll m n => exact execCmdAbandonAll_steady m n s
  | cmdRefetch m n => exact execCmdRefetch_steady m n s
  | cmdRebase m n => exact execCmdRebase_steady m n s
  | cmdSetseq m n => exact execCmdSetseq_steady m n s
  | lineScreen n ce imgUe mtxUe => exact execLineScreen_steady n ce imgUe mtxUe s
  | imageRefetchDone n imgUe => exact execImageRefetchDone_steady n imgUe s
  | pipeCompare n fa fb ra rb maskMis => exact execPipeCompare_steady n fa fb ra rb maskMis s
  | pipeRecompDone n fa fb ra rb maskMis imgUe mtxUe => exact execPipeRecompDone_steady n fa fb ra rb maskMis imgUe mtxUe s
  | katDone n okA okB maskMis => exact execKatDone_steady n okA okB maskMis s
  | arbitrationDone n f ok maskMis imgUe mtxUe => exact execArbitrationDone_steady n f ok maskMis imgUe mtxUe s
  | memScrub n ce ue => exact execMemScrub_steady n ce ue s
  | readmitRequest m n a b => exact execReadmitRequest_steady m n a b s
  | rescntClear m n => exact execRescntClear_steady m n s
  | tableWindowWrite m a v => exact execTableWindowWrite_steady m a v s
  | tableLoadGo m n v => exact execTableLoadGo_steady m n v s
  | tableLoadError n err rows => exact execTableLoadError_steady n err rows s
  | tableLoadRetry n => exact execTableLoadRetry_steady n s
  | tload n rows => exact execTload_steady n rows s
  | dutyDecide n perr => exact execDutyDecide_steady n perr s
  | lineDecide n => exact execLineDecide_steady n s
  | lineFire n => exact execLineFire_steady n s
  | segStrobe n => exact execSegStrobe_steady n s
  | firingWindowEnd n => exact execFiringWindowEnd_steady n s
  | wfbFrameMeasure n before adc => exact execWfbFrameMeasure_steady n before adc s
  | encoderTransition e a b z seen => exact execEncoderTransition_steady e a b z seen s
  | filterAccept e l fe => exact execFilterAccept_steady e l fe s
  | faultWindowEnd e => exact execFaultWindowEnd_steady e s
  | indexEvent e => exact execIndexEvent_steady e s
  | speedWindowEnd e => exact execSpeedWindowEnd_steady e s
  | xcheckSnapshot => exact execXcheckSnapshot_steady s
  | encFaultClear m e => exact execEncFaultClear_steady m e s
  | fretCmpLoWrite m f v => exact execFretCmpLoWrite_steady m f v s
  | fretCmpHiWrite m f v => exact execFretCmpHiWrite_steady m f v s
  | fretArm m f => exact execFretArm_steady m f s
  | fretDisarm m f => exact execFretDisarm_steady m f s
  | emuOutputCount k => exact execEmuOutputCount_steady k s
  | sosEvent i n => exact execSosEvent_steady i n s
  | pageArm n => exact execPageArm_steady n s
  | haltRequest n => exact execHaltRequest_steady n s
  | dataFrameSend n => exact execDataFrameSend_steady n s
  | cfgFrameSend n => exact execCfgFrameSend_steady n s
  | statFrameSend n => exact execStatFrameSend_steady n s
  | idleFrameSend n => exact execIdleFrameSend_steady n s
  | ack n rd syms => exact execAck_steady n rd syms s
  | nak n rd syms => exact execNak_steady n rd syms s
  | statusMessage n rd syms => exact execStatusMessage_steady n rd syms s
  | trdy n rd syms => exact execTrdy_steady n rd syms s
  | answerTimeout n => exact execAnswerTimeout_steady n s
  | returnLaneLoss n => exact execReturnLaneLoss_steady n s
  | headPresent n => exact execHeadPresent_steady n s
  | headRemoved n => exact execHeadRemoved_steady n s
  | identityReadDone n rec => exact execIdentityReadDone_steady n rec s
  | i2cRetry n => exact execI2cRetry_steady n s
  | trimReadDone n trim => exact execTrimReadDone_steady n trim s
  | trainIdleDone n => exact execTrainIdleDone_steady n s
  | trainTimeout n => exact execTrainTimeout_steady n s
  | autoRetrain n => exact execAutoRetrain_steady n s
  | linkEnWrite m n v => exact execLinkEnWrite_steady m n v s
  | statreqGo m n v => exact execStatreqGo_steady m n v s
  | hcfgDataWrite m n v => exact execHcfgDataWrite_steady m n v s
  | capoAlloc m => exact execCapoAlloc_steady m s
  | capoBind m v => exact execCapoBind_steady m v s
  | stagedWrite m a v => exact execStagedWrite_steady m a v s
  | implicitTransaction m a v => exact execImplicitTransaction_steady m a v s
  | capoCommit m t => exact execCapoCommit_steady m t s
  | capoAbort m t => exact execCapoAbort_steady m t s
  | capoRelease m t => exact execCapoRelease_steady m t s
  | capoVote t p eccUe => exact execCapoVote_steady t p eccUe s
  | voteWithdraw t p eccUe => exact execVoteWithdraw_steady t p eccUe s
  | votetmo t => exact execVotetmo_steady t s
  | cmttmo t => exact execCmttmo_steady t s
  | commitInstant => exact execCommitInstant_steady s
  | participantApply t p => exact execParticipantApply_steady t p s
  | protCfmHiWrite m v => exact execProtCfmHiWrite_steady m v s
  | confirmTimeout => exact execConfirmTimeout_steady s
  | frameStart p => exact execFrameStart_steady p s
  | lineStart p => exact execLineStart_steady p s
  | lineEnd p cycles => exact execLineEnd_steady p cycles s
  | frameEnd p => exact execFrameEnd_steady p s
  | frameTimeout p => exact execFrameTimeout_steady p s
  | pipelineTake => exact execPipelineTake_steady s
  | ladderAnalysis n printed => exact execLadderAnalysis_steady n printed s
  | densityProfile n => exact execDensityProfile_steady n s
  | healRound => exact execHealRound_steady s
  | ladArm m p => exact execLadArm_steady m p s
  | densArm m p => exact execDensArm_steady m p s
  | insTbldataWrite m v => exact execInsTbldataWrite_steady m v s
  | insTbldataRead m => exact execInsTbldataRead_steady m s
  | tunerSchedule c => exact execTunerSchedule_steady c s
  | tunerMeasureDone c raw ok => exact execTunerMeasureDone_steady c raw ok s
  | oscGateDone cnt => exact execOscGateDone_steady cnt s
  | tunerApply c i => exact execTunerApply_steady c i s
  | tunSetdataWrite m v => exact execTunSetdataWrite_steady m v s
  | tunSetdataRead m => exact execTunSetdataRead_steady m s
  | sensorConversion k code => exact execSensorConversion_steady k code s
  | thmShut => exact execThmShut_steady s
  | dieTrip => exact execDieTrip_steady s
  | heaterUpdate => exact execHeaterUpdate_steady s
  | thmTbldataWrite m v => exact execThmTbldataWrite_steady m v s
  | thmChstatClear m v => exact execThmChstatClear_steady m v s
  | sensorFailClear m k => exact execSensorFailClear_steady m k s
  | thmShutClear m v => exact execThmShutClear_steady m v s
  | profileTick => exact execProfileTick_steady s
  | gearMasterCount x => exact execGearMasterCount_steady x s
  | stepInput x dir => exact execStepInput_steady x dir s
  | stepinInterpolate x => exact execStepinInterpolate_steady x s
  | chopperComparator x c => exact execChopperComparator_steady x c s
  | chopperPhaseTimeout x c => exact execChopperPhaseTimeout_steady x c s
  | chopperProbe x c high => exact execChopperProbe_steady x c high s
  | stepOutputPulse x => exact execStepOutputPulse_steady x s
  | standstill x => exact execStandstill_steady x s
  | axisFaultClear m x => exact execAxisFaultClear_steady m x s
  | wtabWrite m k v => exact execWtabWrite_steady m k v s
  | evtPendClear m w v => exact execEvtPendClear_steady m w v s
  | msixUnmask fn vec => exact execMsixUnmask_steady fn vec s
  | expStop v => exact execExpStop_steady v s
  | expInh v => exact execExpInh_steady v s
  | expFetch v => exact execExpFetch_steady v s
  | expSafe v => exact execExpSafe_steady v s
  | expLatchClear v => exact execExpLatchClear_steady v s
  | expressMerge r v => exact execExpressMerge_steady r v s
  | expressMergedApply => exact execExpressMergedApply_steady s
  | pcieLinkDown => exact execPcieLinkDown_steady s
  | pcieLinkUp => exact execPcieLinkUp_steady s
  | bar0BadRequest m => exact execBar0BadRequest_steady m s
  | hostRequestMalformed fn poisoned reply => exact execHostRequestMalformed_steady fn poisoned reply s
  | ringWriteRejected t => exact execRingWriteRejected_steady t s
  | completionRewrite n ok => exact execCompletionRewrite_steady n ok s
  | mbxSend p m => exact execMbxSend_steady p m s
  | mbxSendInternal p m => exact execMbxSendInternal_steady p m s
  | mbxRelease p m => exact execMbxRelease_steady p m s
  | mbxLockRead p m => exact execMbxLockRead_steady p m s
  | mbxLockRelease p m => exact execMbxLockRelease_steady p m s
  | mbxGo p m => exact execMbxGo_steady p m s
  | mbxAcktmo p m => exact execMbxAcktmo_steady p m s
  | ping m => exact execPing_steady m s
  | bandrec m => exact execBandrec_steady m s
  | chkpt m => exact execChkpt_steady m s
  | tunnow m raw ok => exact execTunnow_steady m raw ok s
  | suprst m => exact execSuprst_steady m s
  | slotinfo m => exact execSlotinfo_steady m s
  | bandstate m => exact execBandstate_steady m s
  | bandlist m => exact execBandlist_steady m s
  | unknownCode m => exact execUnknownCode_steady m s
  | chisol m => exact execChisol_steady m s
  | chbist m res => exact execChbist_steady m res s
  | chpower m up trained => exact execChpower_steady m up trained s
  | chload m => exact execChload_steady m s
  | chjoin m => exact execChjoin_steady m s
  | noztest m => exact execNoztest_steady m s
  | noztestTimeout n => exact execNoztestTimeout_steady n s
  | seqrst m => exact execSeqrst_steady m s
  | bscan m tck => exact execBscan_steady m tck s
  | teststat m => exact execTeststat_steady m s
  | fltStatClear m hi v => exact execFltStatClear_steady m hi v s
  | parityScan bad => exact execParityScan_steady bad s
  | fltSafeClear m v => exact execFltSafeClear_steady m v s
  | stopn => exact execStopn_steady s
  | stopNRelease => exact execStopNRelease_steady s
  | protStatClear m v => exact execProtStatClear_steady m v s
  | protSafereq m v => exact execProtSafereq_steady m v s
  | spRead bs => exact execSpRead_steady bs s
  | spWrite bs => exact execSpWrite_steady bs s
  | spStatus bs => exact execSpStatus_steady bs s
  | spCrcError bs => exact execSpCrcError_steady bs s
  | spCsEarly bs => exact execSpCsEarly_steady bs s
  | safetyPortWatchdog => exact execSafetyPortWatchdog_steady s
  | safetyPortReset => exact execSafetyPortReset_steady s
  | slotSelect => exact execSlotSelect_steady s
  | sectionLoaded ok => exact execSectionLoaded_steady ok s
  | bootLoadComplete => exact execBootLoadComplete_steady s
  | memoryTrained n => exact execMemoryTrained_steady n s
  | memoryTrainTimeout n => exact execMemoryTrainTimeout_steady n s
  | bootReady => exact execBootReady_steady s
  | nvmRead m => exact execNvmRead_steady m s
  | nvmProgram m => exact execNvmProgram_steady m s
  | nvmErase m => exact execNvmErase_steady m s
  | nvmVerify m sl => exact execNvmVerify_steady m sl s
  | nvmDone err data => exact execNvmDone_steady err data s
  | busMasterEnable on => exact execBusMasterEnable_steady on s
  | correctableError fn err => exact execCorrectableError_steady fn err s
  | spBadCommand bs => exact execSpBadCommand_steady bs s
  | sequencerRestartDone n => exact execSequencerRestartDone_steady n s
  | vkeepLoss => exact execVkeepLoss_steady s
  | resetNRelease => exact execResetNRelease_steady s

theorem step_of_no_pending {s : State} (h : s.pending = []) : step s = .next s.passTick := by simp [step, h]

theorem step_of_pending {s : State} {c : Instr} {r : List Instr} (h : s.pending = c :: r) :
    step s = exec c { s with pending := r } := by simp [step, h]

/-- Settles O3: a step is either the passing of a tick, steady beside the clock (the model's choice, log 1), or the front
command, which is steady on the rest of the queue. -/
theorem everyStepKeepsTheStores : Obligations.EveryStepKeepsTheStores := by
  unfold Obligations.EveryStepKeepsTheStores
  intro s t h
  cases hp : s.pending with
  | nil =>
    rw [step_of_no_pending hp] at h
    obtain rfl := Host.Outcome.next.inj h
    obtain ⟨pending, tick, bar, latch⟩ := s.passTick_steady
    exact ⟨bar, latch, fun _ => ⟨pending.trans hp, tick⟩, fun _ _ e => (nomatch e)⟩
  | cons c r =>
    rw [step_of_pending hp] at h
    obtain ⟨pending, tick, bar, latch⟩ := (exec_steady c _).steady t h
    refine ⟨bar, latch, fun e => (nomatch e), fun c' r' e => ?_⟩
    obtain ⟨rfl, rfl⟩ := List.cons.inj e
    exact ⟨pending, tick⟩

end Sys2Proof.Machine

namespace Sys2Proof.Machine

/-! ## Registers by their field types (R10, R13, R300, R303, R433) -/

theorem regsBut_setWord (s : State) (a : Nat) (v : Word) : regsBut [a] s (s.setWord a v) := fun b hb =>
  s.word_setWord_ne v (by simpa using hb)

theorem onlyAt_setWord (s : State) (a : Nat) (v : Word) : onlyAt [a] s (s.setWord a v) := ⟨rfl, regsBut_setWord s a v⟩

/-- A register that is written the word it holds stays as it is, and with it every other. -/
theorem onlyAt_setWord_self (s : State) (a : Nat) : onlyAt [] s (s.setWord a (s.word a)) := by
  refine ⟨rfl, fun b _ => ?_⟩
  by_cases h : b = a
  · subst h; simp
  · exact s.word_setWord_ne _ h

/-! ### Writes -/

theorem exec_registerWrite (m : Master) (a : Nat) (v : Word) (s : State) :
    exec (.registerWrite m a v) s = .next (busWrite m a v s) := rfl

/-- A write to a register without staged fields and without an effect of its own acts by the type codes of its fields. -/
theorem registerWrite_plain {s : State} {m : Master} {a : Nat} {v : Word} (hb : a < bar4Base) (hs : hasStaged a = false)
    (hw : writeReg m a v s = plainWrite a v s) (hr : s.reaches m a = true) :
    exec (.registerWrite m a v) s = .next (plainWrite a v s) := by
  have hn : ¬ bar4Base ≤ a := Nat.not_le.2 hb
  simp [exec_registerWrite, busWrite, hn, hs, s.wr_reaches hr, hw]

/-- A write that does not reach its register is discarded. -/
theorem registerWrite_discarded {s : State} {m : Master} {a : Nat} (v : Word) (hb : a < bar4Base) (hs : hasStaged a = false)
    (hr : s.reaches m a = false) : idles (.registerWrite m a v) s := by
  have hn : ¬ bar4Base ≤ a := Nat.not_le.2 hb
  simp [idles, exec_registerWrite, busWrite, hn, hs, s.wr_not hr]

/-- The fields of a register in EVT by their types: a route is RW in its low byte, a word of pending bits is W1C. -/
theorem evtRoute_types (e : Fin 512) :
    A.EVT_ROUTEe e < bar4Base ∧ hasStaged (A.EVT_ROUTEe e) = false ∧ blockOf (A.EVT_ROUTEe e) = 1 ∧
    typMask (· == .rw) (A.EVT_ROUTEe e) = 0xFF#32 ∧ typMask (· == .w1c) (A.EVT_ROUTEe e) = 0 ∧
    typMask (· == .w1s) (A.EVT_ROUTEe e) = 0 := by
  revert e
  decide +kernel

theorem evtPend_types (w : Fin 16) :
    A.EVT_PENDw w < bar4Base ∧ hasStaged (A.EVT_PENDw w) = false ∧ blockOf (A.EVT_PENDw w) = 1 ∧
    typMask (· == .rw) (A.EVT_PENDw w) = 0 ∧ typMask (· == .w1c) (A.EVT_PENDw w) = BitVec.allOnes 32 ∧
    typMask (· == .w1s) (A.EVT_PENDw w) = 0 := by
  revert w
  decide +kernel

theorem bootCnt_types :
    A.SYS_BOOTCNT < bar4Base ∧ hasStaged A.SYS_BOOTCNT = false ∧ typMask (· == .rw) A.SYS_BOOTCNT = 0 ∧
    typMask (· == .w1c) A.SYS_BOOTCNT = 0 ∧ typMask (· == .w1s) A.SYS_BOOTCNT = 0 := by
  decide +kernel

/-- No register of EVT has an effect of its own. -/
theorem writeReg_evt {a : Nat} (h : blockOf a = 1) (m : Master) (v : Word) (s : State) :
    writeReg m a v s = plainWrite a v s := by
  simp only [writeReg, h]

theorem and_ones (w : Word) : w &&& 0xFFFFFFFF#32 = w := BitVec.and_allOnes

theorem evtRoute_write {s : State} {m : Master} (v : Word) (e : Fin 512) (hr : s.reaches m (A.EVT_ROUTEe e) = true) :
    does (.registerWrite m (A.EVT_ROUTEe e) v) s fun t =>
      t.word (A.EVT_ROUTEe e) = (s.word (A.EVT_ROUTEe e) &&& ~~~0xFF#32) ||| (v &&& 0xFF#32) ∧
      onlyAt [A.EVT_ROUTEe e] s t := by
  obtain ⟨hb, hs, hblk, rw, w1c, w1s⟩ := evtRoute_types e
  refine does_of (registerWrite_plain hb hs (writeReg_evt hblk m v s) hr) ⟨?_, onlyAt_setWord ..⟩
  simp [plainWrite, rw, w1c, w1s, and_ones]

theorem evtPend_write {s : State} {m : Master} (v : Word) (w : Fin 16) (hr : s.reaches m (A.EVT_PENDw w) = true) :
    does (.registerWrite m (A.EVT_PENDw w) v) s fun t =>
      t.word (A.EVT_PENDw w) = s.word (A.EVT_PENDw w) &&& ~~~v ∧ onlyAt [A.EVT_PENDw w] s t := by
  obtain ⟨hb, hs, hblk, rw, w1c, w1s⟩ := evtPend_types w
  refine does_of (registerWrite_plain hb hs (writeReg_evt hblk m v s) hr) ⟨?_, onlyAt_setWord ..⟩
  simp [plainWrite, rw, w1c, w1s, and_ones]

theorem bootCnt_write {s : State} {m : Master} (v : Word) (hr : s.reaches m A.SYS_BOOTCNT = true) :
    does (.registerWrite m A.SYS_BOOTCNT v) s (onlyAt [] s) := by
  obtain ⟨hb, hs, rw, w1c, w1s⟩ := bootCnt_types
  refine does_of (registerWrite_plain hb hs ?_ hr) ?_
  · simp [writeReg, blockOf, sysWrite, A.SYS_BOOTCNT, A.SYS_EPOCH_LO, A.SYS_EPOCH_HI, A.SYS_DEVRST]
  · have : plainWrite A.SYS_BOOTCNT v s = s.setWord A.SYS_BOOTCNT (s.word A.SYS_BOOTCNT) := by
      simp [plainWrite, rw, w1c, w1s, and_ones]
    exact this ▸ onlyAt_setWord_self s A.SYS_BOOTCNT

/-! ### Reads -/

theorem exec_lowWordRead (m : Master) (a : Nat) (s : State) : exec (.lowWordRead m a) s = .next (busRead m a s) := rfl
theorem exec_rcRead (m : Master) (a : Nat) (s : State) : exec (.rcRead m a) s = .next (busRead m a s) := rfl

theorem lt_bar4Base_of_reads {s : State} {m : Master} {a : Nat} (h : s.reads m a = true) : a < bar4Base := by
  simp only [State.reads, mayRead, inMap, Bool.and_eq_true, bne_iff_ne] at h
  obtain ⟨⟨⟨-, hmap⟩, -⟩, -⟩ := h
  by_contra hb
  have h1 : ¬ a < 0x100000 := by simp only [bar4Base] at hb; omega
  have h2 : ¬ a < 0x1000000 := by simp only [bar4Base] at hb; omega
  have h3 : ¬ a < 0x2000000 := by simp only [bar4Base] at hb; omega
  simp [blockOf, h1, h2, h3] at hmap

theorem busRead_reads {s : State} {m : Master} {a : Nat} (h : s.reads m a = true) :
    busRead m a s = (readEffect m a s).emit (.read m a (readWord m a s)) := by
  have hn : ¬ bar4Base ≤ a := Nat.not_le.2 (lt_bar4Base_of_reads h)
  unfold State.reads at h
  simp [busRead, hn, State.rd, h]

/-- A read of what a master does not reach gives 0 and does nothing. -/
theorem busRead_not_reads {s : State} {m : Master} {a : Nat} (hb : a < bar4Base) (h : s.reads m a = false) :
    busRead m a s = s.emit (.read m a 0) := by
  have hn : ¬ bar4Base ≤ a := Nat.not_le.2 hb
  unfold State.reads at h
  simp [busRead, hn, State.rd, h]

/-- Outside MBX a read neither sends nor locks. -/
theorem mbxReadEffect_of_block {a : Nat} (h : blockOf a ≠ 3) (m : Master) (s : State) : mbxReadEffect m a s = s := by
  have hw : regWin 0x31000 0x100 48 a = none := by
    unfold regWin
    refine dif_neg fun hin => h ?_
    have h1 : a < 0x100000 := by omega
    simp only [blockOf, h1, if_true]
    omega
  unfold mbxReadEffect
  rw [hw]
  split
  · contradiction
  · rfl

/-- Where neither MBX nor a data register is read, a read latches the high word and clears the RC fields. -/
theorem readEffect_plain {m : Master} {a : Nat} (s : State) (hm : blockOf a ≠ 3)
    (hd : a ∉ [A.CAPO_ALLOC, A.INS_TBLDATA, A.TUN_SETDATA, A.THM_TBLDATA]) :
    readEffect m a s = (match highOf a with
      | some h => setLatch m h (liveWord m h s) s
      | none => s).setWord a (s.word a &&& ~~~(typMask (· == FTyp.rc) a)) := by
  simp only [List.mem_cons, List.not_mem_nil, or_false, not_or] at hd
  obtain ⟨h1, h2, h3, h4⟩ := hd
  simp only [readEffect, h1, h2, h3, h4, if_false, mbxReadEffect_of_block hm]
  cases highOf a <;> rfl

/-- No data register is the low word of a 64-bit register. -/
theorem not_data_of_high {a h : Nat} (e : highOf a = some h) :
    a ∉ [A.CAPO_ALLOC, A.INS_TBLDATA, A.TUN_SETDATA, A.THM_TBLDATA] := by
  have hd : ∀ b ∈ [A.CAPO_ALLOC, A.INS_TBLDATA, A.TUN_SETDATA, A.THM_TBLDATA], highOf b = none := by decide +kernel
  intro ha
  simp [hd a ha] at e

/-- A latch reads as it was set, and no other changes. -/
theorem latched_setLatch (m k : Master) (a b : Nat) (w : Word) (s : State) :
    (setLatch m a w s).latched k b = if latchKey k b = latchKey m a then w else s.latched k b := sparseGet_set ..

/-- A read of a low word returns it and latches the high word for its master alone (R13). -/
theorem lowWord_read {s : State} {m : Master} {a h : Nat} (e : highOf a = some h) (hl : isHigh a = false)
    (hr : s.reads m a = true) (hm : blockOf a ≠ 3) :
    does (.lowWordRead m a) s fun t =>
      t.out = .read m a (liveWord m a s) :: s.out ∧ t.latched m h = liveWord m h s ∧
      ∀ k b, latchKey k b ≠ latchKey m h → t.latched k b = s.latched k b := by
  refine does_of ((exec_lowWordRead m a s).trans (by rw [busRead_reads hr])) ?_
  rw [readEffect_plain s hm (not_data_of_high e), e]
  refine ⟨by simp [State.emit, readWord, hl, setLatch], ?_, fun k b hk => ?_⟩
  · exact (latched_setLatch m m h h _ s).trans (if_pos rfl)
  · exact (latched_setLatch m k h b _ s).trans (if_neg hk)

/-- A read of a register that is no half of a 64-bit one returns it and clears its RC fields (R10). -/
theorem rc_read {s : State} {m : Master} {a : Nat} (e : highOf a = none) (hl : isHigh a = false) (hr : s.reads m a = true)
    (hm : blockOf a ≠ 3) (hd : a ∉ [A.CAPO_ALLOC, A.INS_TBLDATA, A.TUN_SETDATA, A.THM_TBLDATA]) :
    does (.rcRead m a) s fun t =>
      t.out = .read m a (liveWord m a s) :: s.out ∧ t.word a = s.word a &&& ~~~(typMask (· == .rc) a) ∧
      onlyAt [a] { s with out := t.out } t := by
  refine does_of ((exec_rcRead m a s).trans (by rw [busRead_reads hr])) ?_
  rw [readEffect_plain s hm hd, e]
  refine ⟨by simp [State.emit, readWord, hl], ?_, rfl, ?_⟩
  · exact s.word_setWord_same a _
  · exact regsBut_setWord s a _

/-! ### The configuration space -/

theorem cfg_read_retried {s : State} (h0 : s.domOn 0 = true) (hc : s.cfgRetries = true) :
    exec (.rcRead .pf0 cfgBase) s = .next (s.emit .configRetry) := by
  simp [exec_rcRead, busRead, hostRead, fnOf, cfgBase, bar4Base, h0, hc]

/-- The first word of a configuration space that nothing has written is the vendor and the device (R300). -/
theorem cfgWord_zero {s : State} (h : s.host.cfg.get 0 = []) : s.cfgWord 0 0 = 0x16401F5E := by
  have hd : cfgDefault 0 0 = 0x16401F5E := by decide +kernel
  simp [State.cfgWord, State.cfgStored, h, hd]

theorem cfg_read_identity {s : State} (h0 : s.domOn 0 = true) (hc : s.cfgRetries = false) (h : s.host.cfg.get 0 = []) :
    exec (.rcRead .pf0 cfgBase) s = .next (s.emit (.read .pf0 cfgBase 0x16401F5E)) := by
  simp [exec_rcRead, busRead, hostRead, fnOf, cfgBase, bar4Base, h0, hc, cfgWord_zero h]

/-! ### Events of the fabric -/

theorem raise_tells (s : State) {e : Nat} (h : e < 512) : raises e s (s.raise e) ∧ calm s (s.raise e) :=
  ⟨raise_pending s h, (RaiseFrame.raise s h).calm⟩

/-- An event of limited rate that has not been raised before is raised. -/
theorem raiseLimited_first {s : State} {e : Nat} (p : Nat) (h : e < 512)
    (hn : s.flt.lastRaise.find? (fun x => x.1 == e) = none) :
    raises e s (s.raiseLimited e p) ∧ calm s (s.raiseLimited e p) := by
  simp only [State.raiseLimited, hn]
  have noted : calm s { s with flt := { s.flt with lastRaise := (e, s.tick) :: s.flt.lastRaise } } := Calm.flt s _ rfl
  obtain ⟨hr, hc⟩ := raise_tells { s with flt := { s.flt with lastRaise := (e, s.tick) :: s.flt.lastRaise } } h
  exact ⟨hr, noted.trans hc⟩

/-- An event of limited rate is not raised again before its period is over. -/
theorem raiseLimited_again {s : State} {e p : Nat} {y : Nat × Nat}
    (hy : s.flt.lastRaise.find? (fun x => x.1 == e) = some y) (ht : s.tick < y.2 + p) : s.raiseLimited e p = s := by
  simp [State.raiseLimited, hy, ht]

/-- The two events of the fabric and the journal that are raised at most once per 1 ms (R433). -/
theorem exec_limited {x : Instr × Nat} (h : x ∈ [(Instr.fabRetry, 0), (.jnlCe, 3)]) (s : State) :
    x.2 < 512 ∧ exec x.1 s = .next (s.raiseLimited x.2 msTicks) := by
  simp only [List.mem_cons, List.not_mem_nil, or_false] at h
  obtain rfl | rfl := h
  · exact ⟨by decide, rfl⟩
  · exact ⟨by decide, rfl⟩

/-- Settles O60, clause by clause: writes by field type, reads with their latches and RC fields, the configuration space
(its numbering is that of log 151, the pairs those of log 62), the events of the fabric. -/
theorem registersFollowTheirTypes : Obligations.RegistersFollowTheirTypes := by
  unfold Obligations.RegistersFollowTheirTypes
  intro s
  simp only [Bool.not_eq_true']
  refine ⟨fun m v => ⟨evtRoute_write v, evtPend_write v, bootCnt_write v, fun a => registerWrite_discarded v⟩,
    fun m a => ⟨fun h => lowWord_read, rc_read, fun hb hr => (exec_rcRead m a s).trans (congrArg _ (busRead_not_reads hb hr))⟩,
    cfg_read_retried, cfg_read_identity, fun x hx r hr => ?_, does_of rfl (raise_tells s (by decide))⟩
  obtain ⟨hlt, hex⟩ := exec_limited hx s
  subst hr
  exact ⟨fun hn => does_of hex (raiseLimited_first _ hlt hn),
    fun y hy ht => hex.trans (congrArg _ (raiseLimited_again hy ht))⟩

end Sys2Proof.Machine

namespace Sys2Proof.Machine

/-! ## Supplies, warnings and the flush (R6, R53, R346 to R349, R355, R395) -/

/-! ### Registers that read alike -/

theorem State.word_of_bar {s t : State} (h : t.bar = s.bar) (a : Nat) : t.word a = s.word a := by
  simp only [State.word, h]

theorem State.word_withPwr (s : State) (p : Pwr) (a : Nat) : ({ s with pwr := p } : State).word a = s.word a :=
  State.word_of_bar rfl a

theorem State.get_of_word {s t : State} {f : Fld} (h : t.word f.addr = s.word f.addr) : t.get f = s.get f := by
  simp only [State.get, h]

theorem State.flag_of_word {s t : State} {f : Fld} (h : t.word f.addr = s.word f.addr) : t.flag f = s.flag f := by
  simp only [State.flag, State.get_of_word h]

/-- A domain's state is as before where both words of SYS_DOMSTAT are. -/
theorem State.domOn_of_word {s t : State} (lo : t.word A.SYS_DOMSTAT_LO = s.word A.SYS_DOMSTAT_LO)
    (hi : t.word A.SYS_DOMSTAT_HI = s.word A.SYS_DOMSTAT_HI) (d : Nat) : t.domOn d = s.domOn d := by
  have h : t.word (domFld d).addr = s.word (domFld d).addr := by
    unfold domFld
    split
    · exact lo
    · exact hi
  simp only [State.domOn, State.domState, State.get_of_word h]

/-- A write of PWR_MON_STAT switches no domain. -/
theorem State.domOn_put_monStat (s : State) {f : Fld} (h : f.addr = A.PWR_MON_STAT) (v d : Nat) :
    (s.put f v).domOn d = s.domOn d :=
  State.domOn_of_word (State.word_put_ne _ _ (by rw [h]; decide)) (State.word_put_ne _ _ (by rw [h]; decide)) d

theorem onlyAt_put (s : State) {f : Fld} {a : Nat} (v : Nat) (h : f.addr = a) : onlyAt [a] s (s.put f v) :=
  h ▸ onlyAt_setWord s f.addr _

/-! ### Actions on each channel -/

/-- What every channel's action keeps is kept. -/
theorem State.eachCh_inv {P : State → Prop} {f : Fin 16 → State → State} (h : ∀ n u, P u → P (f n u)) {s : State} (hs : P s) :
    P (s.eachCh f) := by
  unfold State.eachCh
  induction allCh generalizing s with
  | nil => exact hs
  | cons n l ih => exact ih (h n s hs)

/-- Actions that do nothing to a state do nothing to it in turn. -/
theorem State.eachCh_idle {s : State} {f : Fin 16 → State → State} (h : ∀ n, f n s = s) : s.eachCh f = s := by
  unfold State.eachCh
  induction allCh with
  | nil => rfl
  | cons n l ih => rw [List.foldl_cons, h n, ih]

/-- Channel n's own action leads from P to Q; what the actions of the channels before it keep is P, and of those behind it Q. -/
theorem State.eachCh_at {P Q : State → Prop} {f : Fin 16 → State → State} (n : Fin 16)
    (before : ∀ m u, m ≠ n → P u → P (f m u)) (own : ∀ u, P u → Q (f n u)) (behind : ∀ m u, m ≠ n → Q u → Q (f m u))
    {s : State} (h : P s) : Q (s.eachCh f) := by
  have others {R : State → Prop} (hR : ∀ m u, m ≠ n → R u → R (f m u)) (l : List (Fin 16)) (hl : n ∉ l) (u : State)
      (hu : R u) : R (l.foldl (fun s m => f m s) u) := by
    induction l generalizing u with
    | nil => exact hu
    | cons m l ih =>
      rw [List.mem_cons, not_or] at hl
      exact ih hl.2 _ (hR m u (Ne.symm hl.1) hu)
  obtain ⟨l₁, l₂, hl⟩ := List.append_of_mem (List.mem_finRange n)
  have hnd : (l₁ ++ n :: l₂).Nodup := hl ▸ List.nodup_finRange 16
  rw [List.nodup_middle, List.nodup_cons, List.mem_append, not_or] at hnd
  obtain ⟨⟨h₁, h₂⟩, -⟩ := hnd
  rw [State.eachCh, allCh, hl, List.foldl_append, List.foldl_cons]
  exact others behind l₂ h₂ _ (own _ (others before l₁ h₁ s h))

/-! ### The warning sequence -/

/-- No raise takes away a hold. -/
theorem RaiseFrame.held {s t : State} (h : RaiseFrame s t) {n : Fin 16} {c : Nat} (hs : held n c s) : held n c t := by
  refine ⟨?_, h.causes n c hs.2⟩
  rcases h.wst n with e | ⟨e, -⟩
  · exact e.trans hs.1
  · have := hs.1
    omega

/-- A channel in RUN or HELD stays in one of them over a raise. -/
theorem RaiseFrame.working {s t : State} (h : RaiseFrame s t) {n : Fin 16} (hs : s.wstate n = 1 ∨ s.wstate n = 2) :
    t.wstate n = 1 ∨ t.wstate n = 2 := by
  rcases h.wst n with e | ⟨-, e⟩ <;> omega

theorem holdAll_frame (c : Nat) (s : State) : RaiseFrame s (s.eachCh fun n s => s.hold n c) :=
  RaiseFrame.eachCh s _ fun n u => RaiseFrame.hold u n c

/-- Where every channel is given cause 2, every one in RUN or HELD is held with it. -/
theorem holdAll_allHeld (s : State) : allHeld s (s.eachCh fun n s => s.hold n 2) := fun n hn =>
  State.eachCh_at (P := fun u => u.wstate n = 1 ∨ u.wstate n = 2) (Q := held n 2) n
    (fun m u _ h => (RaiseFrame.hold u m 2).working h) (fun u h => hold_holds u n 2 h)
    (fun m u _ h => (RaiseFrame.hold u m 2).held h) hn

theorem endRec_keeps (s0 : State) (sl : Slot) (s : State) :
    (endRec s0 sl s).pwr = s.pwr ∧ (endRec s0 sl s).bar = s.bar := by
  unfold endRec setFailRec
  split
  · exact ⟨rfl, rfl⟩
  · cases sl <;> exact ⟨rfl, rfl⟩

theorem setFlash_keeps (a : Nat) (bs : List Byte) (s : State) :
    (setFlash a bs s).pwr = s.pwr ∧ (setFlash a bs s).bar = s.bar := by
  unfold setFlash
  constructor
  · rw [(endRec_keeps ..).1, (endRec_keeps ..).1]
  · rw [(endRec_keeps ..).2, (endRec_keeps ..).2]

/-- The end of a flash command shows in NVM_CMDSTAT, and beside it in what a raise changes. -/
theorem failNvm_frame (e : Nat) (s : State) : ∃ u, RaiseFrame u (failNvm e s) ∧ u.pwr = s.pwr ∧
    ∀ a, a ≠ A.NVM_CMDSTAT → u.word a = s.word a := by
  unfold failNvm
  split
  · exact ⟨s, RaiseFrame.refl s, rfl, fun _ _ => rfl⟩
  next c _ =>
    extract_lets unit k s0 s1 boot s2 s3
    have h1 : s1.pwr = s.pwr ∧ s1.bar = s.bar := by
      unfold s1
      split
      · exact setFlash_keeps ..
      · exact ⟨rfl, rfl⟩
    have h3 : s3.pwr = s.pwr ∧ ∀ a, a ≠ A.NVM_CMDSTAT → s3.word a = s.word a := by
      have h2 (a : Nat) : s2.word a = s.word a := State.word_of_bar h1.2 a
      unfold s3
      split
      · exact ⟨h1.1, fun a _ => h2 a⟩
      · exact ⟨h1.1, fun a ha => (State.word_put_ne s2 _ ha).trans (h2 a)⟩
    clear_value s3
    refine ⟨_, RaiseFrame.raise _ (by decide), h3.1, fun a ha => ?_⟩
    rw [State.word_put_ne _ _ ha, State.word_put_ne _ _ ha, State.word_put_ne _ _ ha, h3.2 a ha]

theorem abortNvm_frame (e : Nat) (s : State) : ∃ u, RaiseFrame u (abortNvm e s) ∧ u.pwr = s.pwr ∧
    ∀ a, a ≠ A.NVM_CMDSTAT → u.word a = s.word a := by
  unfold abortNvm
  split
  · exact failNvm_frame e s
  · exact ⟨s, RaiseFrame.refl s, rfl, fun _ _ => rfl⟩

/-- Clearing the marks changes the journal alone. -/
theorem clearMarks_eq (s : State) : ∃ j, clearMarks s = { s with jnl := j } := by
  unfold clearMarks
  split
  · refine State.eachCh_inv (P := fun u => ∃ j, u = { s with jnl := j }) ?_ ⟨s.jnl, rfl⟩
    rintro n u ⟨j, rfl⟩
    exact ⟨_, rfl⟩
  · exact ⟨s.jnl, rfl⟩

theorem clearMarks_pwr (s : State) : (clearMarks s).pwr = s.pwr := by
  obtain ⟨j, hj⟩ := clearMarks_eq s
  rw [hj]

theorem startFlush_isSome (w : Bool) (s : State) : (startFlush w s).pwr.flush.isSome = true := by
  unfold startFlush
  split
  · rfl
  · refine State.eachCh_inv (P := fun u => u.pwr.flush.isSome = true) (fun n u h => ?_) ?_
    · rwa [State.put_pwr]
    · rw [clearMarks_pwr]
      rfl

/-- The registers of the monitor as a warning sequence sets them, before a flash command ends and the event is raised. -/
def warnMarked (s : State) : State :=
  (((s.put F.PWR_MON_STAT_WARN 1).put F.PWR_MON_STAT_FLUSHDONE 0).put F.PWR_MON_FLUSH_HALTT 0).put F.PWR_MON_FLUSH_FLUSHT 0

theorem warnMarked_word (s : State) {a : Nat} (h : a ≠ A.PWR_MON_STAT) (h' : a ≠ A.PWR_MON_FLUSH) :
    (warnMarked s).word a = s.word a := by
  unfold warnMarked
  rw [State.word_put_ne _ _ h', State.word_put_ne _ _ h', State.word_put_ne _ _ h, State.word_put_ne _ _ h]

/-- In PWR_MON_STAT a warning sequence sets WARN, clears FLUSHDONE and leaves the other bits. -/
theorem warnMarked_stat (s : State) : (warnMarked s).flag F.PWR_MON_STAT_WARN = true ∧
    (warnMarked s).flag F.PWR_MON_STAT_FLUSHDONE = false ∧
    ∀ f : Fld, f.addr = A.PWR_MON_STAT → f.width = 1 → f.lo ≠ 0 → f.lo ≠ 3 → (warnMarked s).flag f = s.flag f := by
  have out (u : State) {f : Fld} (h : f.addr = A.PWR_MON_STAT) : ((u.put F.PWR_MON_FLUSH_HALTT 0).put
      F.PWR_MON_FLUSH_FLUSHT 0).flag f = u.flag f := by
    have hne : f.addr ≠ A.PWR_MON_FLUSH := by rw [h]; decide
    rw [State.flag_put_ne _ _ hne, State.flag_put_ne _ _ hne]
  refine ⟨(out _ rfl).trans ?_, (out _ rfl).trans ?_, fun f ha hw h0 h3 => (out _ ha).trans ?_⟩
  · rw [State.flag_put_other _ _ (.inr (by decide))]
    exact State.flag_put_one s (by decide) (by decide)
  · exact State.flag_put_zero _ (by decide)
  · rw [State.flag_put_other, State.flag_put_other]
    · simp only [F.PWR_MON_STAT_WARN]; omega
    · simp only [F.PWR_MON_STAT_FLUSHDONE]; omega

theorem supplyWarn_eq (s : State) : supplyWarn s = startFlush true
    (((abortNvm 5 { warnMarked s with pwr := { (warnMarked s).pwr with warnTick := s.tick } }).raise 19).eachCh
      fun n s => s.hold n 2) := by
  unfold supplyWarn warnMarked
  rfl

/-- A warning sequence begins: what it marks, its hold of every channel, its flush, its event; every quiet register outside
PWR_MON_STAT and NVM_CMDSTAT is as before. -/
theorem supplyWarn_warns (s : State) : warns s (supplyWarn s) ∧
    (∀ f : Fld, f.addr = A.PWR_MON_STAT → f.width = 1 → f.lo ≠ 0 → f.lo ≠ 3 → (supplyWarn s).flag f = s.flag f) ∧
    (supplyWarn s).word A.PWR_MON_CNT = s.word A.PWR_MON_CNT := by
  obtain ⟨u, hu, hpwr, hword⟩ := abortNvm_frame 5
    { warnMarked s with pwr := { (warnMarked s).pwr with warnTick := s.tick } }
  rw [supplyWarn_eq]
  generalize abortNvm 5 { warnMarked s with pwr := { (warnMarked s).pwr with warnTick := s.tick } } = b at hu ⊢
  have hr := RaiseFrame.raise b (e := 19) (by decide)
  have hh := holdAll_frame 2 (b.raise 19)
  have hf := RaiseFrame.startFlush true ((b.raise 19).eachCh fun n s => s.hold n 2)
  have flush := startFlush_isSome true ((b.raise 19).eachCh fun n s => s.hold n 2)
  generalize startFlush true ((b.raise 19).eachCh fun n s => s.hold n 2) = t at hf flush ⊢
  have hall : RaiseFrame u t := hu.trans (hr.trans (hh.trans hf))
  have marked {a : Nat} (h : a ≠ A.NVM_CMDSTAT) : u.word a = (warnMarked s).word a :=
    (hword a h).trans (State.word_withPwr _ _ a)
  have kept {a : Nat} (h1 : a ≠ A.NVM_CMDSTAT) (h2 : a ≠ A.PWR_MON_STAT) (h3 : a ≠ A.PWR_MON_FLUSH) : u.word a = s.word a :=
    (marked h1).trans (warnMarked_word s h2 h3)
  have stat {f : Fld} (h : f.addr = A.PWR_MON_STAT) : t.flag f = (warnMarked s).flag f := by
    have hs : u.word f.addr = (warnMarked s).word f.addr := marked (by rw [h]; decide)
    exact (hall.flag (by rw [h]; decide +kernel)).trans (State.flag_of_word hs)
  have dom : b.domOn 0 = s.domOn 0 := (hu.domOn 0).trans
    (State.domOn_of_word (kept (by decide) (by decide) (by decide)) (kept (by decide) (by decide) (by decide)) 0)
  have wst (n : Fin 16) : u.wstate n = s.wstate n := by
    refine State.get_of_word (kept ?_ ?_ ?_) <;>
      simp only [F.WRK_SCRn_STAT_STATE, A.WRK_SCRn_STAT, A.NVM_CMDSTAT, A.PWR_MON_STAT, A.PWR_MON_FLUSH] <;> omega
  obtain ⟨hwarn, hdone, hrest⟩ := warnMarked_stat s
  refine ⟨⟨(stat rfl).trans hwarn, (stat rfl).trans hdone, ?_, flush, fun h0 => ?_, fun n hn => ?_⟩,
    fun f ha hw h0 h3 => (stat ha).trans (hrest f ha hw h0 h3),
    (hall.word _ (by decide +kernel)).trans (kept (by decide) (by decide) (by decide))⟩
  · exact (congrArg Pwr.warnTick hall.pwr).trans (congrArg Pwr.warnTick hpwr)
  · exact (hh.trans hf).pend 19 (by decide) (raise_pending b (by decide) (dom.trans h0))
  · refine hf.held (holdAll_allHeld _ n ?_)
    exact (hu.trans hr).working (by rw [wst]; exact hn)

/-- A supply goes low: its bit of PWR_MON_STAT is set, its count goes up, and the warning sequence begins. -/
theorem supplyLow_warns (s : State) {f g : Fld} (hf : f.addr = A.PWR_MON_STAT) (hw : f.width = 1) (h0 : f.lo ≠ 0)
    (h3 : f.lo ≠ 3) (h32 : f.lo < 32) (hg : g.addr = A.PWR_MON_CNT) (gw : g.width = 16) (g32 : g.lo ≤ 16) :
    (supplyWarn ((s.put f 1).bump g 1)).flag f = true ∧ bumps g 65535 s (supplyWarn ((s.put f 1).bump g 1)) ∧
    warns s (supplyWarn ((s.put f 1).bump g 1)) := by
  obtain ⟨⟨warn, done, tick, flush, raised, halted⟩, stat, cnt⟩ := supplyWarn_warns ((s.put f 1).bump g 1)
  generalize supplyWarn ((s.put f 1).bump g 1) = t at *
  have kept {a : Nat} (h1 : a ≠ A.PWR_MON_STAT) (h2 : a ≠ A.PWR_MON_CNT) : ((s.put f 1).bump g 1).word a = s.word a := by
    rw [State.bump, State.word_put_ne _ _ (hg ▸ h2), State.word_put_ne _ _ (hf ▸ h1)]
  have dom : ((s.put f 1).bump g 1).domOn 0 = s.domOn 0 :=
    State.domOn_of_word (kept (by decide) (by decide)) (kept (by decide) (by decide)) 0
  have wst (n : Fin 16) : ((s.put f 1).bump g 1).wstate n = s.wstate n := by
    refine State.get_of_word (kept ?_ ?_) <;>
      simp only [F.WRK_SCRn_STAT_STATE, A.WRK_SCRn_STAT, A.PWR_MON_STAT, A.PWR_MON_CNT] <;> omega
  refine ⟨?_, ?_, warn, done, tick, flush, fun h => raised (dom.trans h), fun n hn => halted n (by rw [wst]; exact hn)⟩
  · rw [stat f hf hw h0 h3, State.bump, State.flag_put_ne _ _ (by rw [hf, hg]; decide)]
    exact State.flag_put_one s (by omega) (by omega)
  · have old : (s.put f 1).get g = s.get g := State.get_put_ne _ _ (by rw [hf, hg]; decide)
    have new : t.get g = ((s.put f 1).bump g 1).get g := State.get_of_word (by rw [hg]; exact cnt)
    rw [bumps, new, State.bump, State.get_put_same _ _ (by omega), old, gw]
    exact Nat.mod_eq_of_lt (Nat.lt_of_le_of_lt (Nat.min_le_right ..) (by decide))

theorem belowFld_bit (r : Rail) : (belowFld r).addr = A.PWR_MON_STAT ∧ (belowFld r).width = 1 ∧
    4 ≤ (belowFld r).lo ∧ (belowFld r).lo < 7 := by
  cases r <;> decide

theorem belowFld_lo_inj {q r : Rail} : (belowFld q).lo = (belowFld r).lo → q = r := by
  cases q <;> cases r <;> decide

theorem exec_supplyWarning (s : State) (r : Option Rail) : exec (.supplyWarning r) s = execSupplyWarning r s := rfl

/-- The warning of a rail (R346, R347). -/
theorem supplyWarning_rail {s : State} {r : Rail} (h : s.flag (belowFld r) = false) :
    does (.supplyWarning (some r)) s fun t =>
      t.flag (belowFld r) = true ∧ bumps F.PWR_MON_CNT_WARNCNT 65535 s t ∧ warns s t := by
  obtain ⟨addr, width, lo, hi⟩ := belowFld_bit r
  refine does_of (t := supplyWarn ((s.put (belowFld r) 1).bump F.PWR_MON_CNT_WARNCNT 1)) ?_
    (supplyLow_warns s addr width (by omega) (by omega) (by omega) rfl rfl (by decide))
  simp [exec_supplyWarning, execSupplyWarning, h]

/-- The warning of PFAIL_N (R346, R347). -/
theorem supplyWarning_pfail {s : State} (h : s.flag F.PWR_MON_STAT_PFAIL = false) :
    does (.supplyWarning none) s fun t =>
      t.flag F.PWR_MON_STAT_PFAIL = true ∧ bumps F.PWR_MON_CNT_PFAILCNT 65535 s t ∧ warns s t := by
  refine does_of (t := supplyWarn ((s.put F.PWR_MON_STAT_PFAIL 1).bump F.PWR_MON_CNT_PFAILCNT 1)) ?_
    (supplyLow_warns s rfl rfl (by decide) (by decide) (by decide) rfl rfl (by decide))
  simp [exec_supplyWarning, execSupplyWarning, h]

theorem supplyWarning_again {s : State} {r : Rail} (h : s.flag (belowFld r) = true) : idles (.supplyWarning (some r)) s := by
  simp [idles, exec_supplyWarning, execSupplyWarning, h]

end Sys2Proof.Machine

namespace Sys2Proof.Machine

/-! ### Below VNVW -/

theorem exec_nvw (s : State) (r : Rail) : exec (.nvw r) s = execNvw r s := rfl

/-- Below VNVW of the first rail nothing is written to the journal, and the event is raised (R348, R355). -/
theorem nvw_first {s : State} {r : Rail} (h : s.pwr.nvwBelow = []) : does (.nvw r) s fun t =>
    t.pwr.nvwBelow = [r] ∧ t.flag F.PWR_MON_STAT_NVWB = true ∧ t.nvOk = false ∧ raises 20 s t := by
  let u := (noteJnl { s with pwr := { s.pwr with nvwBelow := r :: s.pwr.nvwBelow } }).put F.PWR_MON_STAT_NVWB 1
  have hu : exec (.nvw r) s = .next (u.raise 20) := by simp [exec_nvw, execNvw, h, u]
  have frame := RaiseFrame.raise u (e := 20) (by decide)
  have low : (u.raise 20).pwr.nvwBelow = [r] := (congrArg Pwr.nvwBelow frame.pwr).trans (by simp [u, noteJnl, h])
  have dom : u.domOn 0 = s.domOn 0 := State.domOn_put_monStat _ rfl 1 0
  refine does_of hu ⟨low, ?_, by simp [State.nvOk, low], fun h0 => raise_pending u (by decide) (dom.trans h0)⟩
  exact (frame.flag (by decide +kernel)).trans (State.flag_put_one _ (by decide) (by decide))

theorem nvw_again {s : State} {r : Rail} (h : r ∈ s.pwr.nvwBelow) : idles (.nvw r) s := by
  simp [idles, exec_nvw, execNvw, h]

/-! ### The rails come back -/

/-- No rail comes back from its brown-out level where none that p names has been there. -/
theorem railsBack_none {p : Rail → Bool} {s : State} (h : ∀ r ∈ s.pwr.broken, p r = false) : railsBack p s = s := by
  have hl : (s.pwr.broken.filter fun r => !p r) = s.pwr.broken := List.filter_eq_self.2 fun r hr => by simp [h r hr]
  simp [railsBack, hl]

/-- The last rails come back: the internal reset is to be released 2 ms later (R395; the model's choice, log 171). -/
theorem railsBack_last {p : Rail → Bool} {s : State} (hb : s.pwr.broken ≠ []) (h : ∀ r ∈ s.pwr.broken, p r = true) :
    railsBack p s = releaseAt (s.tick + 2 * msTicks) { s with pwr := { s.pwr with broken := [] } } := by
  have hl : (s.pwr.broken.filter fun r => !p r) = [] := List.filter_eq_nil_iff.2 fun r hr => by simp [h r hr]
  simp [railsBack, hl, hb]

/-- Rails that come back change no register, and neither the phase of start-up nor standby. -/
theorem railsBack_keeps (p : Rail → Bool) (s : State) : (railsBack p s).bar = s.bar ∧
    (railsBack p s).boot.phase = s.boot.phase ∧ (railsBack p s).pwr.standby = s.pwr.standby := by
  unfold railsBack
  extract_lets left s1
  split <;> exact ⟨rfl, rfl, rfl⟩

/-- A rail recovers by itself: its bit goes, WARN stays (R346, R349). -/
theorem supplyRecover_rail (s : State) (r : Rail) : does (.supplyRecover (some r)) s fun t =>
    t.flag (belowFld r) = false ∧ (∀ q, q ≠ r → t.flag (belowFld q) = s.flag (belowFld q)) ∧
    t.flag F.PWR_MON_STAT_WARN = s.flag F.PWR_MON_STAT_WARN ∧ (r ∉ s.pwr.broken → onlyAt [A.PWR_MON_STAT] s t) ∧
    (s.pwr.broken = [r] → t.pwr.broken = [] ∧ t.pwr.mainUp = true ∧ t.pwr.relTick = some (s.tick + 2 * msTicks)) := by
  obtain ⟨addr, width, lo, hi⟩ := belowFld_bit r
  have flag (f : Fld) : (railsBack (· == r) (s.put (belowFld r) 0)).flag f = (s.put (belowFld r) 0).flag f :=
    State.flag_of_word (State.word_of_bar (railsBack_keeps ..).1 _)
  have hx : exec (.supplyRecover (some r)) s = .next (railsBack (· == r) (s.put (belowFld r) 0)) := rfl
  refine does_of hx ⟨?_, fun q hq => ?_, ?_, fun hr => ?_, fun hb => ?_⟩
  · exact (flag _).trans (State.flag_put_zero s (by omega))
  · obtain ⟨-, width', -, -⟩ := belowFld_bit q
    have hne : (belowFld q).lo ≠ (belowFld r).lo := fun e => hq (belowFld_lo_inj e)
    exact (flag _).trans (State.flag_put_other s 0 (by omega))
  · exact (flag _).trans (State.flag_put_other s 0 (.inr (Nat.le_trans (by decide) lo)))
  · rw [railsBack_none (s := s.put (belowFld r) 0) fun q hq => beq_false_of_ne fun (e : q = r) => hr (e ▸ hq)]
    exact onlyAt_put s 0 addr
  · rw [railsBack_last]
    · exact ⟨rfl, rfl, rfl⟩
    · simp [hb]
    · simp [hb]

/-- PFAIL_N is released; WARN stays (R346, R349). -/
theorem supplyRecover_pfail (s : State) : does (.supplyRecover none) s fun t =>
    t.flag F.PWR_MON_STAT_PFAIL = false ∧ t.flag F.PWR_MON_STAT_WARN = s.flag F.PWR_MON_STAT_WARN ∧
    onlyAt [A.PWR_MON_STAT] s t :=
  does_of rfl ⟨State.flag_put_zero s (by decide), State.flag_put_other s 0 (.inr (by decide)), onlyAt_put s 0 rfl⟩

/-! ### The flush -/

/-- What the completion of a flush does for one channel (R53). -/
def flushChan (n : Fin 16) (s : State) : State :=
  ((s.modJnl n fun j => { j with flush := some (s.ledPos n, s.ledSince n), flushUnc := s.get (F.CHn_LED_UNC_COUNT n) }).modWork n
    fun w => { w with flushedTo := s.get (F.CHn_LED_COUNT_COUNT n) }).put (F.CHn_LED_FLUSH_DONE n) 1

theorem completeFlush_eq (s : State) :
    completeFlush s = { s.eachCh flushChan with pwr := { (s.eachCh flushChan).pwr with flush := none } } := rfl

/-- Channel n and its part of the journal are as before, and every register but the flush marks. -/
structure LedSame (n : Fin 16) (s t : State) : Prop where
  ch : t.ch n = s.ch n
  journal : t.journal n = s.journal n
  word : ∀ a, (∀ m : Fin 16, a ≠ A.CHn_LED_FLUSH m) → t.word a = s.word a

namespace LedSame

variable {n : Fin 16} {s t : State}

/-- A register of a channel's ledger block that is not the flush mark. -/
theorem led (h : LedSame n s t) {b : Nat} (hb : 0x1060000 ≤ b) (hb' : b < 0x1062000) (hf : b ≠ 0x1060018) :
    t.word (b + n.val * 0x100000) = s.word (b + n.val * 0x100000) :=
  h.word _ fun m e => by
    simp only [A.CHn_LED_FLUSH] at e
    omega

theorem ledPos (h : LedSame n s t) : t.ledPos n = s.ledPos n := by
  have hs : t.word (A.CHn_LED_SEQ n) = s.word (A.CHn_LED_SEQ n) := h.led (by decide) (by decide) (by decide)
  have hl : t.word (A.CHn_LED_LINE n) = s.word (A.CHn_LED_LINE n) := h.led (by decide) (by decide) (by decide)
  have seq : t.get (F.CHn_LED_SEQ_SEQ n) = s.get (F.CHn_LED_SEQ_SEQ n) := State.get_of_word hs
  have line : t.get (F.CHn_LED_LINE_LINE n) = s.get (F.CHn_LED_LINE_LINE n) := State.get_of_word hl
  have state : t.get (F.CHn_LED_LINE_STATE n) = s.get (F.CHn_LED_LINE_STATE n) := State.get_of_word hl
  have dir : t.flag (F.CHn_LED_LINE_DIR n) = s.flag (F.CHn_LED_LINE_DIR n) := State.flag_of_word hl
  have sosk : t.flag (F.CHn_LED_LINE_SOSK n) = s.flag (F.CHn_LED_LINE_SOSK n) := State.flag_of_word hl
  simp only [State.ledPos, seq, line, state, dir, sosk]

theorem ledEntry (h : LedSame n s t) (j k : Nat) : t.ledEntry n j k = s.ledEntry n j k := by
  have slot (i : Nat) (hi : i < 16) : t.word (ledSlot n j + i) = s.word (ledSlot n j + i) :=
    h.word _ fun m e => by
      simp only [ledSlot, A.CHn_LED_FLUSH] at e
      omega
  simp only [State.ledEntry, State.bootOf, h.ch, slot 4 (by decide), slot 8 (by decide), slot 12 (by decide)]
  rw [← Nat.add_zero (ledSlot n j), slot 0 (by decide)]

theorem ledSince (h : LedSame n s t) : t.ledSince n = s.ledSince n := by
  have hc : t.word (A.CHn_LED_COUNT n) = s.word (A.CHn_LED_COUNT n) := h.led (by decide) (by decide) (by decide)
  have count : t.get (F.CHn_LED_COUNT_COUNT n) = s.get (F.CHn_LED_COUNT_COUNT n) := State.get_of_word hc
  simp only [State.ledSince, count, h.ch, h.ledEntry]

end LedSame

/-- The flush marks of two channels are different registers. -/
theorem flushMark_ne {m n : Fin 16} (h : m ≠ n) : A.CHn_LED_FLUSH n ≠ A.CHn_LED_FLUSH m := fun e => h (by
  simp only [A.CHn_LED_FLUSH] at e
  omega)

theorem flushChan_word (m : Fin 16) (u : State) {a : Nat} (h : a ≠ A.CHn_LED_FLUSH m) : (flushChan m u).word a = u.word a := by
  rw [flushChan, State.word_put_ne _ _ h, State.modWork_word, State.modJnl_word]

theorem flushChan_mark (n : Fin 16) (u : State) : (flushChan n u).flag (F.CHn_LED_FLUSH_DONE n) = true := by
  rw [flushChan]
  exact State.flag_put_one _ (Nat.le_of_ble_eq_true rfl) Nat.one_pos

theorem flushChan_journal_same (n : Fin 16) (u : State) : (flushChan n u).journal n = { u.journal n with
    flush := some (u.ledPos n, u.ledSince n), flushUnc := u.get (F.CHn_LED_UNC_COUNT n) } := by
  rw [flushChan, State.put_journal, State.modWork_journal, State.journal_modJnl_same]

theorem flushChan_journal_ne {m n : Fin 16} (h : n ≠ m) (u : State) : (flushChan m u).journal n = u.journal n := by
  rw [flushChan, State.put_journal, State.modWork_journal]
  exact vget_set_ne _ _ h

theorem flushChan_other {m n : Fin 16} (h : m ≠ n) {s u : State} (hu : LedSame n s u) : LedSame n s (flushChan m u) where
  ch := by
    rw [flushChan, State.put_ch, State.modWork, State.ch_modCh_ne _ _ h.symm, State.modJnl_ch, hu.ch]
  journal := (flushChan_journal_ne h.symm u).trans hu.journal
  word a ha := (flushChan_word m u (ha m)).trans (hu.word a ha)

theorem flushChan_own {n : Fin 16} {s u : State} (hu : LedSame n s u) : ledgerKept n s (flushChan n u) := by
  have hj := flushChan_journal_same n u
  refine ⟨flushChan_mark n u, ?_, ?_⟩
  · rw [hj, hu.ledPos, hu.ledSince]
  · rw [hj, hu.journal]

theorem flushChan_kept {m n : Fin 16} (h : m ≠ n) {s u : State} (hu : ledgerKept n s u) : ledgerKept n s (flushChan m u) := by
  obtain ⟨done, flush, recs⟩ := hu
  have hj := flushChan_journal_ne h.symm u
  have hw : (flushChan m u).word (F.CHn_LED_FLUSH_DONE n).addr = u.word (F.CHn_LED_FLUSH_DONE n).addr :=
    flushChan_word m u (flushMark_ne h)
  exact ⟨(State.flag_of_word hw).trans done, (congrArg ChJnl.flush hj).trans flush, (congrArg ChJnl.recs hj).trans recs⟩

theorem State.journal_withPwr (s : State) (p : Pwr) (n : Fin 16) : ({ s with pwr := p } : State).journal n = s.journal n := rfl

/-- The flush writes the ledger of every channel, and its mark (R53). -/
theorem completeFlush_kept (s : State) (n : Fin 16) : ledgerKept n s (completeFlush s) := by
  have h : ledgerKept n s (s.eachCh flushChan) :=
    State.eachCh_at (P := LedSame n s) n (fun _ _ h => flushChan_other h) (fun _ => flushChan_own)
      (fun _ _ h => flushChan_kept h) ⟨rfl, rfl, fun _ _ => rfl⟩
  obtain ⟨done, flush, recs⟩ := h
  rw [completeFlush_eq]
  have hj := State.journal_withPwr (s.eachCh flushChan) { (s.eachCh flushChan).pwr with flush := none } n
  exact ⟨(State.flag_of_word (State.word_withPwr _ _ _)).trans done, (congrArg ChJnl.flush hj).trans flush,
    (congrArg ChJnl.recs hj).trans recs⟩

/-- A ledger that has been flushed stays so while PWR_MON registers are written. -/
theorem ledgerKept_put {n : Fin 16} {s t : State} (h : ledgerKept n s t) {f : Fld} (hf : f.addr < 0x100000) (v : Nat) :
    ledgerKept n s (t.put f v) := by
  obtain ⟨done, flush, recs⟩ := h
  refine ⟨(State.flag_put_ne t v ?_).trans done, flush, recs⟩
  simp only [F.CHn_LED_FLUSH_DONE, A.CHn_LED_FLUSH]
  omega

theorem exec_ledgerFlushComplete (s : State) : exec .ledgerFlushComplete s = execLedgerFlushComplete s := rfl

theorem flush_completes {s : State} {k : Nat} {w : Bool} (hf : s.pwr.flush = some (k, w)) (hn : s.nvOk = true)
    (hb : ∀ n, s.atBoundary n = true) : does .ledgerFlushComplete s fun t =>
      t.pwr.flush = none ∧ (w = true → t.flag F.PWR_MON_STAT_FLUSHDONE = true) ∧ ∀ n, ledgerKept n s t := by
  have hall : allCh.all s.atBoundary = true := List.all_eq_true.2 fun n _ => hb n
  have kept := completeFlush_kept s
  cases w with
  | false =>
    refine does_of (t := completeFlush s) ?_ ⟨rfl, nofun, kept⟩
    simp [exec_ledgerFlushComplete, execLedgerFlushComplete, hf, hn, hall]
  | true =>
    refine does_of (t := ((completeFlush s).put F.PWR_MON_STAT_FLUSHDONE 1).put F.PWR_MON_FLUSH_FLUSHT
      (min 65535 ((s.tick - s.pwr.warnTick) / usTicks))) ?_ ⟨rfl, fun _ => ?_, fun n => ?_⟩
    · simp [exec_ledgerFlushComplete, execLedgerFlushComplete, hf, hn, hall]
    · exact (State.flag_put_ne _ _ (by decide)).trans (State.flag_put_one _ (by decide) (by decide))
    · exact ledgerKept_put (ledgerKept_put (kept n) (by decide) 1) (by decide) _

/-- A flush waits for the journal and for every channel's line boundary (R6). -/
theorem flush_waits {s : State} (n : Fin 16) (h : s.nvOk = false ∨ s.atBoundary n = false) :
    idles .ledgerFlushComplete s := by
  have hno : (s.nvOk && allCh.all s.atBoundary) = false := by
    rcases h with h | h
    · rw [h, Bool.false_and]
    · have hall : allCh.all s.atBoundary = false := List.all_eq_false.2 ⟨n, List.mem_finRange n, by simp [h]⟩
      rw [hall, Bool.and_false]
  cases h : s.pwr.flush <;> simp [idles, exec_ledgerFlushComplete, execLedgerFlushComplete, h, hno]

theorem flush_none {s : State} (h : s.pwr.flush = none) : idles .ledgerFlushComplete s := by
  simp [idles, exec_ledgerFlushComplete, execLedgerFlushComplete, h]

/-! ### Writes are possible again -/

/-- The state as non-volatile writes become possible: no rail is below VNVW, nothing waits, NVWB is clear. -/
def nvBack (s : State) : State :=
  { s with pwr := { s.pwr with nvwBelow := [], waits := [], jnlWas := none } }.put F.PWR_MON_STAT_NVWB 0

theorem nvBack_eq (s : State) : ∃ b, nvBack s =
    { s with bar := b, pwr := { s.pwr with nvwBelow := [], waits := [], jnlWas := none } } := ⟨_, rfl⟩
theorem nvBack_nvwb (s : State) : (nvBack s).flag F.PWR_MON_STAT_NVWB = false := State.flag_put_zero _ (by decide)
theorem nvBack_word (s : State) {a : Nat} (h : a ≠ A.PWR_MON_STAT) : (nvBack s).word a = s.word a := by
  rw [nvBack, State.word_put_ne _ _ h, State.word_withPwr]
theorem nvBack_pwr (s : State) : (nvBack s).pwr = { s.pwr with nvwBelow := [], waits := [], jnlWas := none } := State.put_pwr ..
theorem nvBack_boot (s : State) : (nvBack s).boot = s.boot := State.put_boot ..
theorem nvBack_tick (s : State) : (nvBack s).tick = s.tick := State.put_tick ..
theorem nvBack_ch (s : State) (n : Fin 16) : (nvBack s).ch n = s.ch n := State.put_ch ..
theorem nvBack_journal (s : State) (n : Fin 16) : (nvBack s).journal n = s.journal n := State.put_journal ..

/-- The journal can be written again wherever FAB is ON. -/
theorem nvBack_nvOk (s : State) : (nvBack s).nvOk = s.domOn 1 := by
  have hd : (nvBack s).domOn 1 = s.domOn 1 := State.domOn_put_monStat _ rfl 0 1
  simp [State.nvOk, hd, nvBack_pwr]

theorem State.word_withJnl (s : State) (j : Vector ChJnl 16) (a : Nat) : ({ s with jnl := j } : State).word a = s.word a := rfl

/-- While a flush is under way and the journal can be written, the marks of the flush before are cleared (R53). -/
theorem clearMarks_journal (s : State) (n : Fin 16) : (clearMarks s).journal n =
    { s.journal n with flush := if s.pwr.flush.isSome && s.nvOk then none else (s.journal n).flush } := by
  unfold clearMarks
  split
  · have other (m : Fin 16) (u : State) (hm : m ≠ n) :
        (u.modJnl m fun j => { j with flush := none }).journal n = u.journal n := vget_set_ne _ _ hm.symm
    refine State.eachCh_at (P := fun u => u.journal n = s.journal n)
      (Q := fun u => u.journal n = { s.journal n with flush := none }) n (fun m u hm hu => ?_) (fun u hu => ?_)
      (fun m u hm hu => ?_) rfl
    · exact (other m u hm).trans hu
    · rw [State.journal_modJnl_same, hu]
    · exact (other m u hm).trans hu
  · rfl

/-- With no command waiting, what waited for non-volatile writes is all that resumes. -/
theorem nvWriteResume_eq {s : State} (h : ∀ n, (s.ch n).work.waitCmd = none) : exec .nvWriteResume s =
    .next (railsBack (fun _ => true) (runWaits s.pwr.waits (clearMarks (nvBack s)))) := by
  have hc (n : Fin 16) : ((clearMarks (nvBack s)).ch n).work.waitCmd = none := by
    obtain ⟨j, hj⟩ := clearMarks_eq (nvBack s)
    rw [hj]
    exact (congrArg (fun c => c.work.waitCmd) (nvBack_ch s n)).trans (h n)
  have hidle : (clearMarks (nvBack s)).eachCh takeWaiting = clearMarks (nvBack s) :=
    State.eachCh_idle fun n => by simp [takeWaiting, hc n]
  show Host.Outcome.next (railsBack (fun _ => true) (runWaits s.pwr.waits ((clearMarks (nvBack s)).eachCh takeWaiting))) = _
  rw [hidle]

theorem resume_releases {s : State} (h : ∀ n, (s.ch n).work.waitCmd = none) (hw : s.pwr.waits = []) (hb : s.pwr.broken ≠ []) :
    does .nvWriteResume s fun t =>
      t.pwr.broken = [] ∧ t.pwr.mainUp = true ∧ t.pwr.relTick = some (s.tick + 2 * msTicks) := by
  refine does_of (nvWriteResume_eq h) ?_
  obtain ⟨j, hj⟩ := clearMarks_eq (nvBack s)
  have ht : (clearMarks (nvBack s)).tick = s.tick := by rw [hj]; exact nvBack_tick s
  have hp : (clearMarks (nvBack s)).pwr.broken ≠ [] := by rwa [clearMarks_pwr, nvBack_pwr]
  rw [hw, runWaits, railsBack_last hp fun _ _ => rfl, ht]
  exact ⟨rfl, rfl, rfl⟩

theorem resume_plain {s : State} (h : ∀ n, (s.ch n).work.waitCmd = none) (hw : s.pwr.waits = []) (hb : s.pwr.broken = []) :
    does .nvWriteResume s fun t => t.pwr = { s.pwr with nvwBelow := [], jnlWas := none } ∧
      t.flag F.PWR_MON_STAT_NVWB = false ∧ onlyAt [A.PWR_MON_STAT] { s with pwr := t.pwr, jnl := t.jnl } t ∧
      ∀ n, t.journal n = { s.journal n with
        flush := if s.pwr.flush.isSome && s.domOn 1 then none else (s.journal n).flush } := by
  refine does_of (nvWriteResume_eq h) ?_
  have hp : (clearMarks (nvBack s)).pwr = { s.pwr with nvwBelow := [], jnlWas := none } := by
    simp [clearMarks_pwr, nvBack_pwr, hw]
  have hno : ∀ r ∈ (clearMarks (nvBack s)).pwr.broken, (fun _ : Rail => true) r = false := by simp [hp, hb]
  have hjnl (n : Fin 16) := clearMarks_journal (nvBack s) n
  obtain ⟨j, hj⟩ := clearMarks_eq (nvBack s)
  rw [hw, runWaits, railsBack_none hno]
  have hword (a : Nat) : (clearMarks (nvBack s)).word a = (nvBack s).word a := by rw [hj, State.word_withJnl]
  refine ⟨hp, (State.flag_of_word (hword _)).trans (nvBack_nvwb s), ⟨?_, fun a ha => (hword a).trans ?_⟩, fun n => ?_⟩
  · obtain ⟨b, hb⟩ := nvBack_eq s
    rw [hj, hb]
  · exact nvBack_word s (by simpa using ha)
  · rw [hjnl, nvBack_journal, nvBack_nvOk, nvBack_pwr]

theorem resume_slotPref {s : State} (h : ∀ n, (s.ch n).work.waitCmd = none) {p : Nat} {o : Bool}
    (hw : s.pwr.waits = [.slotPref p o]) (hb : s.pwr.broken = []) : does .nvWriteResume s fun t =>
      t.boot = { s.boot with pref := p, once := o } ∧ t.pwr.waits = [] := by
  refine does_of (nvWriteResume_eq h) ?_
  obtain ⟨j, hj⟩ := clearMarks_eq (nvBack s)
  have hp : (setPref p o (clearMarks (nvBack s))).pwr = (nvBack s).pwr := clearMarks_pwr _
  have hboot : (setPref p o (clearMarks (nvBack s))).boot = { s.boot with pref := p, once := o } := by
    rw [hj, setPref, nvBack_boot]
  have hno : ∀ r ∈ (setPref p o (clearMarks (nvBack s))).pwr.broken, (fun _ : Rail => true) r = false := by
    simp [hp, nvBack_pwr, hb]
  rw [hw, runWaits, runWaits, railsBack_none hno]
  exact ⟨hboot, by rw [hp, nvBack_pwr]⟩

theorem startBoot_keeps (s : State) (f : Fld) : (startBoot s).flag f = s.flag f ∧ (startBoot s).boot.phase = .rom :=
  ⟨rfl, rfl⟩

theorem State.flag_withBoot (s : State) (b : Boot) (f : Fld) : ({ s with boot := b } : State).flag f = s.flag f := rfl

theorem deviceReset_starts (s : State) :
    (deviceReset s).flag F.SYS_RSTCAUSE_DEVRST = true ∧ (deviceReset s).boot.phase = .rom := by
  unfold deviceReset rstCause
  extract_lets s1
  obtain ⟨flag, phase⟩ := startBoot_keeps ((domsAtReset (dropSwitched (abortNvm 5 (haltAndFlush s)))).put F.SYS_RSTCAUSE_DEVRST 1)
    F.SYS_RSTCAUSE_DEVRST
  exact ⟨(State.flag_withBoot s1 _ _).trans (flag.trans (State.flag_put_one _ (by decide) (by decide))), phase⟩

theorem enterStandby_stands (s : State) : (enterStandby s).pwr.standby = true ∧ (enterStandby s).boot.phase = .held := by
  unfold enterStandby wake
  dsimp only
  split
  · split <;> exact ⟨rfl, rfl⟩
  · exact ⟨rfl, rfl⟩

/-- A device reset that waited happens (R348; the model's choice, log 142). -/
theorem resume_deviceReset {s : State} (h : ∀ n, (s.ch n).work.waitCmd = none) {r : List NvWait}
    (hw : s.pwr.waits = .deviceReset :: r) : does .nvWriteResume s fun t =>
      t.flag F.SYS_RSTCAUSE_DEVRST = true ∧ t.boot.phase = .rom := by
  refine does_of (nvWriteResume_eq h) ?_
  rw [hw, runWaits]
  obtain ⟨bar, phase, -⟩ := railsBack_keeps (fun _ => true) (deviceReset (clearMarks (nvBack s)))
  obtain ⟨cause, rom⟩ := deviceReset_starts (clearMarks (nvBack s))
  exact ⟨(State.flag_of_word (State.word_of_bar bar _)).trans cause, phase.trans rom⟩

/-- A standby that waited is entered (R348; the model's choice, log 142). -/
theorem resume_standby {s : State} (h : ∀ n, (s.ch n).work.waitCmd = none) {r : List NvWait}
    (hw : s.pwr.waits = .standby :: r) : does .nvWriteResume s fun t =>
      t.pwr.standby = true ∧ t.boot.phase = .held := by
  refine does_of (nvWriteResume_eq h) ?_
  rw [hw, runWaits]
  obtain ⟨-, phase, standby⟩ := railsBack_keeps (fun _ => true) (enterStandby (clearMarks (nvBack s)))
  obtain ⟨stands, held⟩ := enterStandby_stands (clearMarks (nvBack s))
  exact ⟨standby.trans stands, phase.trans held⟩

/-- Settles O58, clause by clause: the warnings, the rails below VNVW, the recovery of a supply, the flush, and what waited until
writes are possible again (the choices of logs 142 and 171 are the model's). -/
theorem suppliesWarnAndFlush : Obligations.SuppliesWarnAndFlush := by
  unfold Obligations.SuppliesWarnAndFlush
  intro s
  simp only [Bool.not_eq_true']
  refine ⟨?_, supplyWarning_pfail, supplyRecover_pfail s, fun k w hf => ⟨flush_completes hf, fun n => flush_waits n⟩,
    flush_none, fun h => ⟨resume_releases h, resume_plain h, fun _ _ => resume_slotPref h, fun _ => resume_deviceReset h,
      fun _ => resume_standby h⟩⟩
  rintro r _ rfl
  exact ⟨supplyWarning_rail, supplyWarning_again, supplyRecover_rail s r, nvw_first, nvw_again⟩

end Sys2Proof.Machine

namespace Sys2Proof.Machine

/-! ## The state at reset (R28, R31, R56, R305) -/

/-- At reset nothing is stored, so every word reads as its register at reset. -/
theorem reset_word (a : Nat) : State.reset.word a = regReset (a % 0x2000000) := rfl

theorem reset_domState (d : Fin 24) : State.reset.domState d = if d.val < 4 then 2 else 0 := by
  revert d
  decide +kernel

theorem reset_work (n : Fin 16) : State.reset.wstate n = 0 ∧ (State.reset.ch n).work.bands = [] ∧
    (State.reset.journal n).recs = [] := by
  revert n
  decide +kernel

theorem reset_mailbox (m : Fin 48) : (State.reset.mb m).full = false ∧ (State.reset.mb m).lock = none := by
  revert m
  decide +kernel

/-- The sixteen words of pending bits read 0 at reset. -/
theorem reset_pendWord (w : Fin 16) : State.reset.word (A.EVT_PENDw w) = 0 := by
  revert w
  decide +kernel

theorem reset_notPending (e : Fin 512) : State.reset.flag (pendFld e) = false := by
  have hw : State.reset.word (A.EVT_PENDw (e.val / 32)) = 0 := reset_pendWord ⟨e.val / 32, by omega⟩
  simp [State.flag, State.get, pendFld, hw, getBits]

/-- Settles O2: each clause is a closed fact of the empty stores and the reset values; retained registers are those of logs 3 and 4. -/
theorem resetIsAsTheTablesSay : Obligations.ResetIsAsTheTablesSay := by
  unfold Obligations.ResetIsAsTheTablesSay
  simp only [Bool.not_eq_true']
  exact ⟨rfl, rfl, rfl, rfl, reset_word, reset_domState, reset_work, reset_mailbox, reset_notPending,
    by decide +kernel, by decide +kernel, by decide +kernel, rfl⟩

end Sys2Proof.Machine

namespace Sys2Proof.Machine

/-! ## Standby and wake (R30, R348, R371, R402, R403) -/

/-! ### The key -/

theorem exec_pwrStby {s : State} {m : Master} (v : Word) (h : s.reaches m A.PWR_STBY = true) :
    exec (.pwrStby m v) s = .next (stbyWrite v s) := by
  show Host.Outcome.next (s.wr m A.PWR_STBY (stbyWrite v)) = _
  rw [State.wr_reaches h]

/-- The low half of a word is what a key is compared with. -/
theorem getBits_low (v : Word) : getBits v 0 16 = v.toNat % 65536 := by
  simp [getBits_eq]

/-- Waking changes the word of PWR_WAKESRC and SUPEN. -/
theorem wake_word (f : Fld) (s : State) {a : Nat} (h : a ≠ f.addr) : (wake f s).word a = s.word a := by
  unfold wake
  split
  · exact State.word_put_ne s 1 h
  · rfl

theorem wake_standby (f : Fld) (s : State) : (wake f s).pwr.standby = s.pwr.standby ∧
    (wake f s).pwr.stbyTick = s.pwr.stbyTick ∧ (wake f s).boot = s.boot := by
  unfold wake
  split <;> exact ⟨rfl, rfl, rfl⟩

/-- In standby a device that nothing has woken raises SUPEN as it wakes. -/
theorem wake_supen {f : Fld} {s : State} (h : s.pwr.standby = true) : (wake f s).pwr.supen = true := by
  unfold wake
  cases hs : s.pwr.supen <;> simp [h, hs]

theorem wake_awake {f : Fld} {s : State} (h : s.pwr.standby = false) : wake f s = s := by
  simp [wake, h]

/-- The state as every switched domain has gone off, the ledger flushed and the channels that were ON marked. -/
def switchedOff (s : State) : State :=
  ((markCycled s (dropSwitched (abortNvm 5 (haltAndFlush s)))).setWord A.SYS_DOMSTAT_LO 0).setWord A.SYS_DOMSTAT_HI 0

/-- The state in standby, before a wake that came while the entry waited takes effect. -/
def standing (s : State) : State :=
  { switchedOff s with
    pwr := { (switchedOff s).pwr with standby := true, supen := false, stbyTick := s.tick, flush := none },
    boot := { (switchedOff s).boot with phase := .held, supUp := false } }

theorem enterStandby_eq (s : State) :
    enterStandby s = if s.pwr.wakeDue then wake F.PWR_WAKESRC_WAKEN (standing s) else standing s := rfl

theorem standing_domStat (s : State) :
    (standing s).word A.SYS_DOMSTAT_LO = 0 ∧ (standing s).word A.SYS_DOMSTAT_HI = 0 := by
  have bar (a : Nat) : (standing s).word a = (switchedOff s).word a := State.word_of_bar rfl a
  rw [bar, bar, switchedOff, State.word_setWord_same, State.word_setWord_ne _ _ (by decide), State.word_setWord_same]
  exact ⟨rfl, rfl⟩

/-- Standby is entered with every switched domain OFF, SUPEN low unless a wake came meanwhile. -/
theorem enterStandby_off (s : State) : (enterStandby s).pwr.standby = true ∧
    (enterStandby s).pwr.supen = s.pwr.wakeDue ∧ (enterStandby s).pwr.stbyTick = s.tick ∧
    (enterStandby s).boot.phase = .held ∧ (enterStandby s).word A.SYS_DOMSTAT_LO = 0 ∧
    (enterStandby s).word A.SYS_DOMSTAT_HI = 0 := by
  obtain ⟨lo, hi⟩ := standing_domStat s
  rw [enterStandby_eq]
  cases s.pwr.wakeDue with
  | false => exact ⟨rfl, rfl, rfl, rfl, lo, hi⟩
  | true =>
    rw [if_pos rfl]
    obtain ⟨standby, tick, boot⟩ := wake_standby F.PWR_WAKESRC_WAKEN (standing s)
    exact ⟨standby, wake_supen rfl, tick, congrArg Boot.phase boot,
      (wake_word _ _ (by decide)).trans lo, (wake_word _ _ (by decide)).trans hi⟩

/-- What waits for non-volatile writes halts every channel and begins the flush (R348; the model's choice, log 142). -/
theorem haltAndWait_halts (w : NvWait) (s : State) : haltsFor w s (haltAndWait w s) := by
  have hold := holdAll_frame 2 s
  have frame := RaiseFrame.startFlush false (s.eachCh fun n s => s.hold n 2)
  have all := hold.trans frame
  have flush := startFlush_isSome false (s.eachCh fun n s => s.hold n 2)
  have halted : allHeld s (startFlush false (s.eachCh fun n s => s.hold n 2)) := fun n hn =>
    frame.held (holdAll_allHeld s n hn)
  unfold haltAndWait nvWait
  generalize startFlush false (s.eachCh fun n s => s.hold n 2) = t at *
  have waits : t.pwr.waits = s.pwr.waits := (congrArg Pwr.waits all.pwr :)
  have standby : t.pwr.standby = s.pwr.standby := (congrArg Pwr.standby all.pwr :)
  exact ⟨congrArg (· ++ [w]) waits, flush, halted, all.boot, standby⟩

theorem pwrStby_key {s : State} {m : Master} {v : Word} (h : s.reaches m A.PWR_STBY = true)
    (key : v.toNat % 65536 = 0x57DB) (idle : ∀ n, s.wstate n ≠ 1) :
    exec (.pwrStby m v) s = .next (if s.nvOk then enterStandby s else haltAndWait .standby s) := by
  have none : (allCh.any fun n => s.wstate n == 1) = false := List.any_eq_false.2 fun n _ => by simp [idle n]
  simp [exec_pwrStby v h, stbyWrite, getBits_low, key, none]

/-- A channel in RUN keeps the device from standby, which is recorded (R402). -/
theorem pwrStby_running {s : State} {m : Master} {v : Word} (h : s.reaches m A.PWR_STBY = true) (n : Fin 16)
    (key : v.toNat % 65536 = 0x57DB) (run : s.wstate n = 1) : does (.pwrStby m v) s fun t =>
      t.get F.PWR_DOMREF_CAUSE = 7 ∧ onlyAt [A.PWR_DOMREF] s t := by
  have some : (allCh.any fun n => s.wstate n == 1) = true :=
    List.any_eq_true.2 ⟨n, List.mem_finRange n, beq_iff_eq.2 run⟩
  refine does_of (t := s.put F.PWR_DOMREF_CAUSE 7) ?_ ⟨State.get_put_same s 7 (by decide), onlyAt_put s 7 rfl⟩
  simp [exec_pwrStby v h, stbyWrite, getBits_low, key, some]

theorem pwrStby_noKey {s : State} {m : Master} {v : Word} (h : s.reaches m A.PWR_STBY = true)
    (key : v.toNat % 65536 ≠ 0x57DB) : idles (.pwrStby m v) s := by
  simp [idles, exec_pwrStby v h, stbyWrite, getBits_low, key]

/-! ### Waking -/

/-- In standby, SUPEN being low, a wake raises it and is recorded (R403). -/
theorem wake_woken {f : Fld} {s : State} (hf : f.addr = A.PWR_WAKESRC) (h1 : f.lo + f.width ≤ 32) (h2 : 0 < f.width)
    (hs : s.pwr.standby = true) (hu : s.pwr.supen = false) : woken f s (wake f s) := by
  have h : wake f s = { s.put f 1 with pwr := { s.pwr with supen := true } } := by simp [wake, hs, hu]
  rw [h]
  exact ⟨State.flag_put_one s h1 h2, rfl, rfl, fun a ha => State.word_put_ne s 1 (by simpa [hf] using ha)⟩

theorem exec_wakeNWake (s : State) : exec .wakeNWake s = execWakeNWake s := rfl
theorem exec_wakeTimer (s : State) : exec .wakeTimer s = execWakeTimer s := rfl
theorem exec_mainRailsRise (s : State) : exec .mainRailsRise s = execMainRailsRise s := rfl

/-- While the entry to standby waits, WAKE_N is kept for its end. -/
theorem wakeN_waits {s : State} (h : s.flag F.PWR_WAKECFG_WAKEN = true) (hw : .standby ∈ s.pwr.waits) :
    exec .wakeNWake s = .next { s with pwr := { s.pwr with wakeDue := true } } := by
  simp [exec_wakeNWake, execWakeNWake, h, hw]

theorem wakeN_wakes {s : State} (hs : s.pwr.standby = true) (hu : s.pwr.supen = false)
    (h : s.flag F.PWR_WAKECFG_WAKEN = true) (hw : .standby ∉ s.pwr.waits) :
    does .wakeNWake s (woken F.PWR_WAKESRC_WAKEN s) := by
  refine does_of ?_ (wake_woken rfl (by decide) (by decide) hs hu)
  simp [exec_wakeNWake, execWakeNWake, h, hw]

theorem wakeN_idles {s : State}
    (h : s.flag F.PWR_WAKECFG_WAKEN = false ∨ (s.pwr.standby = false ∧ .standby ∉ s.pwr.waits)) : idles .wakeNWake s := by
  rcases h with h | ⟨hs, hw⟩
  · simp [idles, exec_wakeNWake, execWakeNWake, h]
  · simp [idles, exec_wakeNWake, execWakeNWake, hw, wake_awake hs]

theorem wakeTimer_wakes {s : State} (hs : s.pwr.standby = true) (hu : s.pwr.supen = false)
    (h : s.flag F.PWR_WAKECFG_TMR = true)
    (due : s.get F.PWR_WAKETMR_TICKS * 400000000 ≤ (s.tick - s.pwr.stbyTick) * 32768) :
    does .wakeTimer s (woken F.PWR_WAKESRC_TMR s) := by
  refine does_of ?_ (wake_woken rfl (by decide) (by decide) hs hu)
  simp [exec_wakeTimer, execWakeTimer, h, due]

theorem wakeTimer_idles {s : State} (h : s.flag F.PWR_WAKECFG_TMR = false ∨ s.pwr.standby = false) :
    idles .wakeTimer s := by
  rcases h with h | hs
  · simp [idles, exec_wakeTimer, execWakeTimer, h]
  · simp [idles, exec_wakeTimer, execWakeTimer, wake_awake hs]

theorem mainRails_wake {s : State} (hs : s.pwr.standby = true) (hu : s.pwr.supen = false) :
    does .mainRailsRise s (woken F.PWR_WAKESRC_SUPPLY s) := by
  obtain ⟨flag, supen, same, regs⟩ := wake_woken (f := F.PWR_WAKESRC_SUPPLY) rfl (by decide) (by decide) hs hu
  refine does_of (exec_mainRailsRise s) ⟨flag, supen, ?_, regs⟩
  rw [same]

theorem mainRails_awake {s : State} (hs : s.pwr.standby = false) :
    exec .mainRailsRise s = .next { s with pwr := { s.pwr with mainUp := true } } := by
  simp [exec_mainRailsRise, execMainRailsRise, wake_awake hs]

/-! ### The loss of VKEEP and the release of RESET_N -/

theorem exec_vkeepLoss (s : State) : exec .vkeepLoss s = execVkeepLoss s := rfl

/-- What the ledger of channel n holds is no longer valid (log 115). -/
def dropLedger (n : Fin 16) (s : State) : State :=
  s.modWork n fun w => { w with ledgerValid := false, flushedTo := 0, boots := [] }

/-- The state without what lies in AON. -/
def aonLost (s : State) : State :=
  { s with
    bar := sparseDrop (fun k => (domainOf (k % 0x2000000)).isNone) s.bar, thm := Thm.reset,
    tun := { s.tun with eff := [], ref := [] },
    pwr := { s.pwr with mainUp := false, nvwBelow := [], standby := false, supen := true } }

theorem vkeepLoss_eq {s : State} (h : s.pwr.mainUp = false) : exec .vkeepLoss s = .next
    (let u := ((aonLost s).eachCh dropLedger).setWord A.SYS_RSTCAUSE 1
    if s.pwr.standby then (u.setWord A.SYS_DOMSTAT_LO 0).setWord A.SYS_DOMSTAT_HI 0 else u) := by
  simp only [exec_vkeepLoss, execVkeepLoss, h, Bool.not_false, Bool.true_or, if_true]
  rfl

theorem dropLedgers_chans (s : State) : ∃ c, s.eachCh dropLedger = { s with chans := c } := by
  refine State.eachCh_inv (P := fun u => ∃ c, u = { s with chans := c }) ?_ ⟨s.chans, rfl⟩
  rintro n u ⟨c, rfl⟩
  exact ⟨_, rfl⟩

theorem dropLedgers_invalid (s : State) (n : Fin 16) : ((s.eachCh dropLedger).ch n).work.ledgerValid = false :=
  State.eachCh_at (P := fun _ => True) (Q := fun u => (u.ch n).work.ledgerValid = false) n (fun _ _ _ _ => trivial)
    (fun u _ => by simp [dropLedger]) (fun m u hm h => by simpa [dropLedger, State.modWork, hm.symm] using h) trivial

/-- A register of an always-on block reads its reset value once VKEEP is lost. -/
theorem aonLost_word (s : State) {a : Nat} (h : a < 0x2000000) (ha : domainOf a = none) :
    (aonLost s).word a = regReset a := by
  have hm : a % 0x2000000 = a := Nat.mod_eq_of_lt h
  show sparseGet barDefault (sparseDrop _ s.bar) a = _
  simp [sparseGet_drop, hm, ha, barDefault]

theorem vkeepLoss_loses {s : State} (h : s.pwr.mainUp = false) : does .vkeepLoss s fun t =>
    t.word A.SYS_RSTCAUSE = 1 ∧ (∀ n, (t.ch n).work.ledgerValid = false) ∧
    t.word A.PWR_MON_CNT = regReset A.PWR_MON_CNT ∧ t.jnl = s.jnl ∧ t.boot = s.boot ∧ t.pwr.supen = true ∧
    t.pwr.standby = false := by
  refine does_of (vkeepLoss_eq h) ?_
  have ledger := dropLedgers_invalid (aonLost s)
  have cnt : (aonLost s).word A.PWR_MON_CNT = regReset A.PWR_MON_CNT := aonLost_word s (by decide) (by decide)
  obtain ⟨c, hc⟩ := dropLedgers_chans (aonLost s)
  rw [hc] at ledger ⊢
  set u : State := ({ aonLost s with chans := c } : State).setWord A.SYS_RSTCAUSE 1 with hu
  have cause : u.word A.SYS_RSTCAUSE = 1 := State.word_setWord_same _ _ _
  have cnt : u.word A.PWR_MON_CNT = regReset A.PWR_MON_CNT := (State.word_setWord_ne _ _ (by decide)).trans cnt
  split
  · refine ⟨?_, ledger, ?_, rfl, rfl, rfl, rfl⟩
    · rw [State.word_setWord_ne _ _ (by decide), State.word_setWord_ne _ _ (by decide), cause]
    · rw [State.word_setWord_ne _ _ (by decide), State.word_setWord_ne _ _ (by decide), cnt]
  · exact ⟨cause, ledger, cnt, rfl, rfl, rfl, rfl⟩

theorem vkeepLoss_idles {s : State} (hm : s.pwr.mainUp = true) (hs : s.pwr.standby = false) : idles .vkeepLoss s := by
  simp [idles, exec_vkeepLoss, execVkeepLoss, hm, hs]

theorem exec_resetNRelease (s : State) : exec .resetNRelease s = execResetNRelease s := rfl

theorem resetN_starts {s : State} (hp : s.boot.phase = .rom) (hr : s.released = true) (hn : s.boot.resetN = false) :
    exec .resetNRelease s = .next { s with devBase := s.tick, boot := { s.boot with t0 := s.tick, resetN := true } } := by
  simp [exec_resetNRelease, execResetNRelease, hp, hr, hn]

theorem resetN_idles {s : State} (h : s.boot.resetN = true ∨ s.released = false) : idles .resetNRelease s := by
  rcases h with h | h <;> simp [idles, exec_resetNRelease, execResetNRelease, h]

/-- Settles O57, clause by clause: the key, the wake sources, the loss of VKEEP (log 115) and the release of RESET_N; what waits for
non-volatile writes is the model's choice (log 142). -/
theorem standbyAndWake : Obligations.StandbyAndWake := by
  unfold Obligations.StandbyAndWake
  intro s
  simp only [Bool.not_eq_true']
  refine ⟨fun m v hr => ⟨fun key idle => ⟨fun hn => does_of (pwrStby_key hr key idle) ?_, fun hn =>
      does_of (pwrStby_key hr key idle) ?_⟩, pwrStby_running hr, pwrStby_noKey hr⟩, wakeN_waits, fun hs hu =>
    ⟨wakeN_wakes hs hu, wakeTimer_wakes hs hu, mainRails_wake hs hu⟩, wakeN_idles, wakeTimer_idles, mainRails_awake,
    vkeepLoss_loses, vkeepLoss_idles, resetN_starts, resetN_idles⟩
  · rw [if_pos hn]
    exact enterStandby_off s
  · rw [hn]
    exact haltAndWait_halts .standby s

end Sys2Proof.Machine

namespace Sys2Proof.Machine

/-! ## Resets (R24, R28 to R30, R348, R349, R374, R395) -/

/-- A rise of the main supplies is a wake, and out of standby its cause is noted. -/
def wakeSeen (s : State) : State :=
  if s.pwr.standby then rstCause F.SYS_RSTCAUSE_WAKE (wake F.PWR_WAKESRC_SUPPLY s) else wake F.PWR_WAKESRC_SUPPLY s

/-- The state as the main supplies have risen through the power-on level, before the reset itself. -/
def suppliesRisen (s : State) : State :=
  { wakeSeen s with pwr := { (wakeSeen s).pwr with standby := false, broken := [], supen := true } }

theorem exec_powerOnReset (s : State) : exec .powerOnReset s =
    .next (releaseAt (s.tick + 2 * msTicks) (powerUp F.SYS_RSTCAUSE_POR (suppliesRisen s))) := rfl

theorem suppliesRisen_wake {s : State} (h : s.pwr.standby = true) : (suppliesRisen s).flag F.SYS_RSTCAUSE_WAKE = true := by
  have seen : (wakeSeen s).flag F.SYS_RSTCAUSE_WAKE = true := by
    rw [wakeSeen, if_pos h]
    exact State.flag_put_one _ (by decide) (by decide)
  exact (State.flag_of_word (State.word_of_bar rfl _)).trans seen

theorem suppliesRisen_jnlWas (s : State) : (suppliesRisen s).pwr.jnlWas = s.pwr.jnlWas := by
  show (wakeSeen s).pwr.jnlWas = _
  unfold wakeSeen wake
  split <;> split <;> rfl

/-! ### What the journal had not taken -/

/-- A register reads as before behind writes of others. -/
theorem word_foldl_setWord (l : List (Nat × Word)) (s : State) {a : Nat} (h : ∀ x ∈ l, x.1 ≠ a) :
    (l.foldl (fun (s : State) x => s.setWord x.1 x.2) s).word a = s.word a := by
  induction l generalizing s with
  | nil => rfl
  | cons x l ih =>
    obtain ⟨hx, hl⟩ := List.forall_mem_cons.1 h
    rw [List.foldl_cons, ih _ hl, State.word_setWord_ne _ _ hx.symm]

/-- What is lost of the journal lies in registers that the journal keeps, where what was noted of it names no other. -/
theorem loseUnwritten_word {s : State} {a : Nat} (ha : journalReg a = false)
    (h : ∀ j, s.pwr.jnlWas = some j → ∀ x ∈ j.regs, x.1 ≠ a) : (loseUnwritten s).word a = s.word a := by
  unfold loseUnwritten
  split
  next j hj =>
    refine (word_foldl_setWord j.regs { s with bar := sparseDrop (fun k => journalReg k) s.bar } (h j hj)).trans ?_
    show sparseGet barDefault (sparseDrop _ s.bar) a = _
    simp [sparseGet_drop, ha, State.word]
  · rfl

/-- The epoch starts anew, its staged low word with it (R26; log 140). -/
def epochCleared (s : State) : State :=
  ([A.SYS_EPOCH_LO, A.SYS_EPOCH_HI, A.SYS_EPOCHBASE_LO, A.SYS_EPOCHBASE_HI].foldl
    (fun (s : State) (a : Nat) => s.setWord a 0) s).setWord (bankOf 21 A.SYS_EPOCH_LO) 0

theorem epochCleared_rstCause (s : State) : (epochCleared s).word A.SYS_RSTCAUSE = s.word A.SYS_RSTCAUSE := by
  simp only [epochCleared, List.foldl_cons, List.foldl_nil]
  iterate 5 rw [State.word_setWord_ne _ _ (by decide)]

theorem dropSwitched_rstCause (s : State) : (dropSwitched s).word A.SYS_RSTCAUSE = s.word A.SYS_RSTCAUSE := by
  have hd : domainOf (A.SYS_RSTCAUSE % 0x2000000) = none := by decide
  show sparseGet barDefault (sparseDrop _ s.bar) A.SYS_RSTCAUSE = _
  simp [sparseGet_drop, hd, State.word]

theorem domsAtReset_rstCause (s : State) : (domsAtReset s).word A.SYS_RSTCAUSE = s.word A.SYS_RSTCAUSE := by
  rw [domsAtReset, State.word_setWord_ne _ _ (by decide), State.word_setWord_ne _ _ (by decide)]

theorem powerUp_bar (cause : Fld) (s : State) : (powerUp cause s).bar =
    (epochCleared (rstCause cause (domsAtReset (dropSwitched (loseUnwritten s))))).bar := rfl

/-- The power-up adds its cause to SYS_RSTCAUSE, and leaves the causes noted before where the journal's copy names no such register. -/
theorem powerUp_wake {s : State} (h : ∀ j, s.pwr.jnlWas = some j → ∀ x ∈ j.regs, x.1 ≠ A.SYS_RSTCAUSE) :
    (powerUp F.SYS_RSTCAUSE_POR s).flag F.SYS_RSTCAUSE_WAKE = s.flag F.SYS_RSTCAUSE_WAKE := by
  have doms : (domsAtReset (dropSwitched (loseUnwritten s))).word A.SYS_RSTCAUSE = s.word A.SYS_RSTCAUSE := by
    rw [domsAtReset_rstCause, dropSwitched_rstCause, loseUnwritten_word (by decide) h]
  rw [State.flag_of_word ((State.word_of_bar (powerUp_bar ..) _).trans (epochCleared_rstCause _)), rstCause,
    State.flag_put_other _ _ (.inl (by decide)), State.flag_of_word doms]

theorem releaseAt_flag (t : Nat) (s : State) (f : Fld) : (releaseAt t s).flag f = s.flag f :=
  State.flag_of_word (State.word_of_bar rfl _)

/-- A power-on reset out of standby sets WAKE in every state whose copy of the journal names no register but those the journal keeps, as
each copy does that the model takes (`jnlNow_regs`). Without that premise it does not: `not_resetsStartAnew`. -/
theorem powerOnReset_wake {s : State} (hs : s.pwr.standby = true)
    (h : ∀ j, s.pwr.jnlWas = some j → ∀ x ∈ j.regs, journalReg x.1 = true) :
    does .powerOnReset s fun t => t.flag F.SYS_RSTCAUSE_WAKE = true := by
  refine does_of (exec_powerOnReset s) ?_
  rw [releaseAt_flag, powerUp_wake, suppliesRisen_wake hs]
  rw [suppliesRisen_jnlWas]
  intro j hj x hx e
  have kept := h j hj x hx
  rw [e] at kept
  exact absurd kept (by decide)

theorem jnlNow_regs (s : State) : ∀ x ∈ s.jnlNow.regs, journalReg x.1 = true := fun x hx => by
  simpa using mem_sparseDrop (fun k => !journalReg k) s.bar x hx

/-- A device in standby whose copy of the journal, from before its writes were blocked, names SYS_RSTCAUSE. -/
def strayJournal : State :=
  { State.reset with pwr := { Pwr.reset with
      standby := true,
      jnlWas := some { sets := [], regs := [(A.SYS_RSTCAUSE, 0)], seed := 0, failA := none, failB := none } } }

/-- What the journal had not taken is put back behind the cause of the wake, and takes it away. -/
theorem strayJournal_loses_wake : (releaseAt (strayJournal.tick + 2 * msTicks)
    (powerUp F.SYS_RSTCAUSE_POR (suppliesRisen strayJournal))).flag F.SYS_RSTCAUSE_WAKE = false := by
  decide +kernel

/-- Refutes O55: the statement ranges over every state, and in `strayJournal` a power-on reset out of standby answers a state without
WAKE, for the words kept of the journal are written back after the cause of the wake was noted, and nothing in the statement says
that they are words of journal registers. -/
theorem not_resetsStartAnew : ¬ Obligations.ResetsStartAnew := by
  unfold Obligations.ResetsStartAnew
  intro h
  obtain ⟨⟨t, answer, -, -, -, -, -, wake⟩, -⟩ := h strayJournal
  rw [exec_powerOnReset] at answer
  obtain rfl := Host.Outcome.next.inj answer
  have lost := strayJournal_loses_wake
  rw [wake rfl] at lost
  exact Bool.noConfusion lost

end Sys2Proof.Machine

namespace Sys2Proof.Machine

/-! ## The next line of a page under way (R69, R73, R75, R81) -/

/-! ### What screening reads -/

/-- Behind the same entries two stores read alike wherever they did. -/
theorem sparseGet_append {w : Nat} {d : Nat → BitVec w} (l : Sparse w) {m m' : Sparse w} {a : Nat}
    (h : sparseGet d m' a = sparseGet d m a) : sparseGet d (l ++ m') a = sparseGet d (l ++ m) a := by
  induction l with
  | nil => exact h
  | cons x l ih => simp only [List.cons_append, sparseGet, ih]

/-- An image line that a count names is one of the channel's bands. -/
theorem imgLineAt_mem {bands : List Band} {pg : Nat} {l : Int} {b : Band} {bs : List Byte}
    (h : imgLineAt bands pg l = some (b, bs)) : b ∈ bands := by
  unfold imgLineAt at h
  split at h
  next c hc =>
    have mem := List.mem_of_find?_eq_some hc
    dsimp only at h
    split at h
    · contradiction
    · obtain ⟨y, -, hy⟩ := Option.map_eq_some_iff.1 h
      obtain ⟨rfl, -⟩ := Prod.mk.inj hy
      exact mem
  · contradiction

/-- The state under image settings kept for the pages begun under them. -/
def underOld (n : Fin 16) (x : OldImg) (s : State) : State :=
  { s with bar := x.regs ++ sparseDrop (imgOwn n) s.bar }.modImg n fun i => { i with mtx := x.mtx }

theorem imgFor_some {s : State} {n : Fin 16} {pg : Nat} {x : OldImg}
    (h : ((s.ch n).img.old.find? fun x => decide (pg < x.page)) = some x) : s.imgFor n pg = underOld n x s := by
  simp only [State.imgFor, h, underOld]

theorem imgFor_none {s : State} {n : Fin 16} {pg : Nat}
    (h : ((s.ch n).img.old.find? fun x => decide (pg < x.page)) = none) : s.imgFor n pg = s := by
  simp only [State.imgFor, h]

/-- Under kept settings a register reads alike wherever it did. -/
theorem underOld_word {s t : State} {n : Fin 16} (x : OldImg) {a : Nat} (h : t.word a = s.word a) :
    (underOld n x t).word a = (underOld n x s).word a := by
  refine sparseGet_append x.regs ?_
  rw [sparseGet_drop, sparseGet_drop]
  split
  · rfl
  · exact h

theorem imgFor_bands (s : State) (n : Fin 16) (pg : Nat) : ((s.imgFor n pg).ch n).work.bands = (s.ch n).work.bands := by
  cases h : (s.ch n).img.old.find? fun x => decide (pg < x.page) with
  | none => rw [imgFor_none h]
  | some x =>
    rw [imgFor_some h, underOld, State.ch_modImg_same]
    rfl

/-- Two states that differ in the error counts of channel n alone. -/
abbrev EccOnly (n : Fin 16) (s t : State) : Prop := onlyAt [A.CHn_IMG_ECC n] s t

namespace EccOnly

variable {n : Fin 16} {s t : State}

theorem bump (s : State) (n : Fin 16) (k : Nat) : EccOnly n s (s.bump (F.CHn_IMG_ECC_CE n) k) := onlyAt_put s _ rfl

theorem ch (h : EccOnly n s t) (k : Fin 16) : t.ch k = s.ch k := congrArg (fun u => u.ch k) h.1

/-- A register of the channel's window that is not the register of the error counts. -/
theorem word (h : EccOnly n s t) {a b : Nat} (ha : a = b + n.val * 0x100000) (hb : b ≠ 0x101006C) : t.word a = s.word a :=
  h.2 a fun e => by
    simp only [List.mem_singleton, A.CHn_IMG_ECC] at e
    omega

theorem get (h : EccOnly n s t) {f : Fld} {b : Nat} (hf : f.addr = b + n.val * 0x100000) (hb : b ≠ 0x101006C) :
    t.get f = s.get f := State.get_of_word (h.word hf hb)

theorem flag (h : EccOnly n s t) {f : Fld} {b : Nat} (hf : f.addr = b + n.val * 0x100000) (hb : b ≠ 0x101006C) :
    t.flag f = s.flag f := State.flag_of_word (h.word hf hb)

/-- A word of the channel's table windows. -/
theorem table (h : EccOnly n s t) {o : Nat} (ho : 0x80000 ≤ o) : t.word (chBase n + o) = s.word (chBase n + o) :=
  h.word (b := 0x1000000 + o) (by simp only [chBase]; omega) (by omega)

theorem mapWord (h : EccOnly n s t) (j : Nat) : t.mapWord n j = s.mapWord n j := by
  have bank : t.mapBank n = s.mapBank n := h.get rfl (by decide)
  simp only [State.mapWord, bank, mapAddr, Nat.add_assoc]
  exact h.table (by omega)

theorem dead (h : EccOnly n s t) (j : Nat) : t.dead n j = s.dead n j := by
  have dev : t.flag (F.CHn_IMG_CTRL_DEVDEAD n) = s.flag (F.CHn_IMG_CTRL_DEVDEAD n) := h.flag rfl (by decide)
  simp only [State.dead, h.mapWord, dev]

theorem rowOf (h : EccOnly n s t) (j : Nat) : t.rowOf n j = s.rowOf n j := by
  have rows : t.get (F.CHn_IMG_GEOM_NROWS n) = s.get (F.CHn_IMG_GEOM_NROWS n) := h.get rfl (by decide)
  simp only [State.rowOf, h.mapWord, rows]

theorem nnoz (h : EccOnly n s t) : t.get (F.CHn_IMG_GEOM_NNOZ n) = s.get (F.CHn_IMG_GEOM_NNOZ n) := h.get rfl (by decide)

theorem sadw (h : EccOnly n s t) (k : Nat) : t.sadw n k = s.sadw n k := by
  have left : t.get (F.CHn_IMG_SADDLE_SADL n) = s.get (F.CHn_IMG_SADDLE_SADL n) := h.get rfl (by decide)
  have right : t.get (F.CHn_IMG_SADDLE_SADR n) = s.get (F.CHn_IMG_SADDLE_SADR n) := h.get rfl (by decide)
  have bank : t.get (F.CHn_IMG_BANK_SADB n) = s.get (F.CHn_IMG_BANK_SADB n) := h.get rfl (by decide)
  have entry (b : Nat) (r : Bool) (i : Nat) : t.word (sadAddr n b r i) = s.word (sadAddr n b r i) := by
    simp only [sadAddr, Nat.add_assoc]
    exact h.table (by omega)
  simp only [State.sadw, left, right, h.nnoz, bank, entry]

theorem corrected (h : EccOnly n s t) (bs : List Byte) (k : Nat) : t.corrected n bs k = s.corrected n bs k := by
  have bank : t.get (F.CHn_IMG_BANK_LUTB n) = s.get (F.CHn_IMG_BANK_LUTB n) := h.get rfl (by decide)
  have entry (b c : Nat) : t.word (lutAddr n b c) = s.word (lutAddr n b c) := by
    simp only [lutAddr, Nat.add_assoc]
    exact h.table (by omega)
  simp only [State.corrected, bank, entry, h.mapWord, h.sadw]

theorem shares (h : EccOnly n s t) (b : Band) (bs : List Byte) (j : Nat) : t.shares n b bs j = s.shares n b bs j := by
  have w1 : t.get (F.CHn_IMG_CMPW_W1 n) = s.get (F.CHn_IMG_CMPW_W1 n) := h.get rfl (by decide)
  have w2 : t.get (F.CHn_IMG_CMPW_W2 n) = s.get (F.CHn_IMG_CMPW_W2 n) := h.get rfl (by decide)
  simp only [State.shares, w1, w2, h.nnoz, h.dead, h.corrected]

theorem cell (h : EccOnly n s t) (m x y : Nat) : t.cell n m x y = s.cell n m x y := by
  have bank : t.mtxBank n = s.mtxBank n := h.get rfl (by decide)
  simp only [State.cell, h.ch, bank]

theorem pageDelays (h : EccOnly n s t) (pg : Nat) (back : Bool) : t.pageDelays n pg back = s.pageDelays n pg back := by
  have fwd (r : Nat) : t.get (F.CHn_FT_ROWDLYr_DLYF n r) = s.get (F.CHn_FT_ROWDLYr_DLYF n r) :=
    h.get (b := 0x1030040 + r * 4) (by simp only [F.CHn_FT_ROWDLYr_DLYF, A.CHn_FT_ROWDLYr]; omega) (by omega)
  have bwd (r : Nat) : t.get (F.CHn_FT_ROWDLYr_DLYB n r) = s.get (F.CHn_FT_ROWDLYr_DLYB n r) :=
    h.get (b := 0x1030040 + r * 4) (by simp only [F.CHn_FT_ROWDLYr_DLYB, A.CHn_FT_ROWDLYr]; omega) (by omega)
  simp only [State.pageDelays, State.rowDelays, h.ch, fwd, bwd]

/-- The set-up of one of the four matrices. -/
theorem matrix (h : EccOnly n s t) {m : Nat} (hm : m < 4) :
    t.get (F.CHn_IMG_MTXOFFm_XOFF n m) = s.get (F.CHn_IMG_MTXOFFm_XOFF n m) ∧
    t.get (F.CHn_IMG_MTXOFFm_YOFF n m) = s.get (F.CHn_IMG_MTXOFFm_YOFF n m) ∧
    t.get (F.CHn_IMG_MTXGEOMm_MW n m) = s.get (F.CHn_IMG_MTXGEOMm_MW n m) ∧
    t.get (F.CHn_IMG_MTXGEOMm_MH n m) = s.get (F.CHn_IMG_MTXGEOMm_MH n m) := by
  have off : t.word (A.CHn_IMG_MTXOFFm n m) = s.word (A.CHn_IMG_MTXOFFm n m) :=
    h.word (b := 0x1010024 + m * 8) (by simp only [A.CHn_IMG_MTXOFFm]; omega) (by omega)
  have geom : t.word (A.CHn_IMG_MTXGEOMm n m) = s.word (A.CHn_IMG_MTXGEOMm n m) :=
    h.word (b := 0x1010020 + m * 8) (by simp only [A.CHn_IMG_MTXGEOMm]; omega) (by omega)
  exact ⟨State.get_of_word off, State.get_of_word off, State.get_of_word geom, State.get_of_word geom⟩

theorem screenNoz (h : EccOnly n s t) (hm : ∀ b ∈ (s.ch n).work.bands, b.desc.mtx < 4) (back : Bool) (pg l j : Nat) :
    t.screenNoz n back pg l j = s.screenNoz n back pg l j := by
  simp only [State.screenNoz, h.pageDelays, h.rowOf, h.ch]
  split
  · rfl
  next b bs hb =>
    have mem : b ∈ (s.ch n).work.bands := imgLineAt_mem hb
    obtain ⟨xoff, yoff, mw, mh⟩ := h.matrix (hm b mem)
    simp only [h.dead, h.corrected, h.shares, h.cell, xoff, yoff, mw, mh]

/-- The codes of a line, every band naming one of the four matrices. -/
theorem screenLine (h : EccOnly n s t) (hm : ∀ b ∈ (s.ch n).work.bands, b.desc.mtx < 4) (back : Bool) (pg l : Nat) :
    t.screenLine n back pg l = s.screenLine n back pg l := by
  simp only [State.screenLine, h.nnoz]
  exact List.map_congr_left fun j _ => h.screenNoz hm back pg l j

/-- The states as the lines of a page are screened differ in the error counts alone, too. -/
theorem imgFor (h : EccOnly n s t) (pg : Nat) : EccOnly n (s.imgFor n pg) (t.imgFor n pg) := by
  have ch := h.ch n
  cases hx : (s.ch n).img.old.find? fun x => decide (pg < x.page) with
  | none =>
    rw [imgFor_none hx, imgFor_none (by rwa [ch])]
    exact h
  | some x =>
    rw [imgFor_some hx, imgFor_some (by rwa [ch])]
    obtain ⟨same, regs⟩ := h
    generalize t.bar = b at same
    subst same
    exact ⟨rfl, fun a ha => underOld_word x (regs a ha)⟩

end EccOnly

theorem exec_lineScreen (n : Fin 16) (ce : Nat) (iu : Bool) (mu : Option (Fin 4)) (s : State) :
    exec (.lineScreen n ce iu mu) s = execLineScreen n ce iu mu s := rfl

/-- Inside a page under way LINE_SCREEN counts the corrected words and puts the line in the pipes (R75). -/
theorem lineScreen_inside {n : Fin 16} {ce : Nat} {x : Band × Nat × Nat × Nat} {s : State} (next : s.screenNext n = some x)
    (may : s.mayScreen n x = true) (inside : x.2.1 ≠ 0) (started : (s.ch n).img.started = true) :
    exec (.lineScreen n ce false none) s =
      .next (startJob n x (s.ch n).img.scrDir .screened .screened (s.bump (F.CHn_IMG_ECC_CE n) ce)) := by
  simp only [State.mayScreen, Bool.and_eq_true, Bool.not_eq_true', beq_iff_eq, decide_eq_true_eq, Option.isNone_iff_eq_none,
    Bool.or_eq_true] at may
  obtain ⟨⟨⟨⟨⟨⟨ready, on⟩, joined⟩, run⟩, handed⟩, lead⟩, job⟩ := may
  have opens : s.opensPage n x = false := by simp [State.opensPage, inside]
  simp [exec_lineScreen, execLineScreen, next, job, ready, on, joined, run, handed, lead, opens, inside, started, unreadable,
    countKat]

/-- The line that enters the pipes, with its codes under the settings of its page (R69, R85). -/
theorem startJob_job (n : Fin 16) (x : Band × Nat × Nat × Nat) (back : Bool) (st after : Stage) (s : State) :
    ∃ j, ((startJob n x back st after s).ch n).img.job = some j ∧ j.stage = st ∧ j.line.seq = x.1.desc.seq ∧
      j.line.line = x.2.1 ∧ j.line.codes = ((s.imgFor n x.2.2.1).screenLine n back x.2.2.1 x.2.2.2).map (·.1) := by
  simp [startJob]

theorem startJob_get (n : Fin 16) (x : Band × Nat × Nat × Nat) (back : Bool) (st after : Stage) (s : State) (f : Fld) :
    (startJob n x back st after s).get f = s.get f := State.modImg_get ..

/-- Beside the error counts, only the channel whose line enters the pipes changes. -/
theorem EccOnly.startJob {n : Fin 16} {s t : State} (h : EccOnly n s t) (x : Band × Nat × Nat × Nat) (back : Bool)
    (st after : Stage) : onlyChAt n [A.CHn_IMG_ECC n] s (Machine.startJob n x back st after t) := by
  have ch := h.ch
  obtain ⟨same, regs⟩ := h
  refine ⟨?_, fun k hk => (State.ch_modCh_ne t _ hk).trans (ch k), fun a ha => (State.modImg_word ..).trans (regs a ha)⟩
  generalize t.bar = b at same
  subst same
  rfl

/-- The count of corrected words goes up, and stops at its largest value. -/
theorem get_bump_ce (s : State) (n : Fin 16) (k : Nat) : (s.bump (F.CHn_IMG_ECC_CE n) k).get (F.CHn_IMG_ECC_CE n) =
    min (s.get (F.CHn_IMG_ECC_CE n) + k) 65535 := by
  have fits : (F.CHn_IMG_ECC_CE n).lo + (F.CHn_IMG_ECC_CE n).width ≤ 32 := by simp [F.CHn_IMG_ECC_CE]
  rw [State.bump, State.get_put_same _ _ fits]
  simp only [F.CHn_IMG_ECC_CE]
  omega

/-- The clause of O11 that `strayMatrix` refutes holds in every state whose bands name one of the four matrices. -/
theorem lineScreen_screens {n : Fin 16} {ce : Nat} {x : Band × Nat × Nat × Nat} {s : State} (next : s.screenNext n = some x)
    (may : s.mayScreen n x = true) (inside : x.2.1 ≠ 0) (started : (s.ch n).img.started = true)
    (four : ∀ b ∈ (s.ch n).work.bands, b.desc.mtx < 4) :
    does (.lineScreen n ce false none) s fun t => (∃ j, (t.ch n).img.job = some j ∧ j.stage = .screened ∧
      j.line.seq = x.1.desc.seq ∧ j.line.line = x.2.1 ∧
      j.line.codes = ((s.imgFor n x.2.2.1).screenLine n (s.ch n).img.scrDir x.2.2.1 x.2.2.2).map (·.1)) ∧
      t.get (F.CHn_IMG_ECC_CE n) = min (s.get (F.CHn_IMG_ECC_CE n) + ce) 65535 ∧ onlyChAt n [A.CHn_IMG_ECC n] s t := by
  have counted := EccOnly.bump s n ce
  have line := (counted.imgFor x.2.2.1).screenLine (by rwa [imgFor_bands]) (s.ch n).img.scrDir x.2.2.1 x.2.2.2
  obtain ⟨j, job, stage, seq, index, codes⟩ :=
    startJob_job n x (s.ch n).img.scrDir .screened .screened (s.bump (F.CHn_IMG_ECC_CE n) ce)
  refine does_of (lineScreen_inside next may inside started) ⟨⟨j, job, stage, seq, index, codes.trans (by rw [line])⟩, ?_, ?_⟩
  · rw [startJob_get, get_bump_ce]
  · exact counted.startJob x _ _ _

/-! ### A band that names a matrix there is not -/

/-- The offsets of a tenth matrix, of which there is none, lie where the words found in error are counted. -/
theorem offsets_of_matrix_nine (n : Nat) : A.CHn_IMG_MTXOFFm n 9 = A.CHn_IMG_ECC n := by
  simp only [A.CHn_IMG_MTXOFFm, A.CHn_IMG_ECC]
  omega

/-- A released band of two lines, one nozzle wide, that names matrix 9. -/
def strayBand : Band :=
  { desc := { seq := 1, lines := 2, fmt := 0, mtx := 9, pass := 0, pstart := true, pend := true, irq := false, arm := 0, buf := 0,
              stride := 64, width := 1, tag := 0 },
    state := .released, l0 := 0, page := 1, accTime := 0, accBoot := 1, abandoned := false, reinst := false, fired := 0,
    npart := 0, hadPart := false, lastTime := 0, lastBoot := 1, first := 0, img := [[0], [0]], fails := 0, failTick := none,
    needRefetch := false, failed := false }

/-- Channel 0 in RUN behind READY with line 0 of that band screened. ACTWR makes matrix 9 two columns wide, with every threshold of
the left one at its largest and of the right one at 0; the one nozzle's value is 1023. -/
def strayMatrix : State :=
  let s := [(domFld 8, 2), (F.WRK_SCRn_STAT_STATE 0, 1), (F.CHn_IMG_GEOM_NNOZ 0, 1), (F.CHn_IMG_STAT_ACTWR 0, 1),
    (⟨mapAddr 0 0 0, 8, 12⟩, 1024), (⟨lutAddr 0 0 0, 0, 10⟩, 1023)].foldl
    (fun (s : State) (x : Fld × Nat) => s.put x.1 x.2) State.reset
  ({ s with boot := { s.boot with phase := .ready } }.modWork 0 fun w => { w with bands := [strayBand] }).modImg 0 fun i =>
    { i with started := true, scrPage := 1, scrL := 1, mtx := [(mtxKey 0 9 0 0, 0x3FFFFFFF)] }

/-- The codes of the line in the pipes of channel n, where a command answers a next state with one. -/
def pipeCodes (n : Fin 16) (o : Host.Outcome State Fault Refusal) : Option (List Nat) :=
  match o with
  | .next t => (t.ch n).img.job.map fun j => j.line.codes
  | _ => none

theorem strayMatrix_mayScreen : strayMatrix.screenNext 0 = some (strayBand, 1, 1, 1) ∧
    strayMatrix.mayScreen 0 (strayBand, 1, 1, 1) = true ∧ (strayMatrix.ch 0).img.started = true := by
  decide +kernel

/-- Before the corrected word is counted the nozzle's cell is in the left column of the matrix. -/
theorem strayMatrix_line : ((strayMatrix.imgFor 0 1).screenLine 0 (strayMatrix.ch 0).img.scrDir 1 1).map (·.1) = [0] := by
  decide +kernel

/-- Once it is counted, the cell is in the right column. -/
theorem strayMatrix_codes : pipeCodes 0 (exec (.lineScreen 0 1 false none) strayMatrix) = some [3] := by
  decide +kernel

/-- Refutes O11: the statement ranges over every state, and in `strayMatrix` a band names matrix 9 (a descriptor as `descOf` reads it
names 0 to 3), whose offsets are the register of the error counts (`offsets_of_matrix_nine`). The corrected word that LINE_SCREEN
counts moves them before the line is screened, so the line's codes are not those of the state before. With every band naming one of the
four matrices they are (`lineScreen_screens`). -/
theorem not_screeningOfALineBegins : ¬ Obligations.ScreeningOfALineBegins := by
  unfold Obligations.ScreeningOfALineBegins
  intro h
  obtain ⟨next, may, started⟩ := strayMatrix_mayScreen
  obtain ⟨lines, -⟩ := h strayMatrix
  obtain ⟨inside, -⟩ := lines 0 1 (strayBand, 1, 1, 1) next may
  obtain ⟨⟨t, answer, ⟨j, job, -, -, -, codes⟩, -⟩, -⟩ := inside Nat.one_ne_zero started
  have screened := strayMatrix_codes
  rw [answer] at screened
  have three : j.line.codes = [3] := by simpa [pipeCodes, job] using screened
  have zero : j.line.codes = [0] := codes.trans strayMatrix_line
  exact absurd (three.symm.trans zero) (by decide)

end Sys2Proof.Machine

namespace Sys2Proof.Machine

/-! ## Descriptors: the producer index, the fetch and the check (R33, R34, R38, R41) -/

/-! ### What the work path's registers are to an event -/

theorem quiet_cidx (n : Fin 16) : quiet (A.WRK_SCRn_CIDX n) = true := by
  revert n
  decide +kernel

/-! ### Frames of single updates -/

theorem chBut_modCh (s : State) (n : Fin 16) (f : Chan → Chan) : chBut n s (s.modCh n f) := fun _ hk =>
  State.ch_modCh_ne s f hk

theorem onlyCh_modCh (s : State) (n : Fin 16) (f : Chan → Chan) : onlyCh n s (s.modCh n f) := ⟨rfl, chBut_modCh s n f⟩

theorem onlyCh_refl (n : Fin 16) (s : State) : onlyCh n s s := ⟨rfl, fun _ _ => rfl⟩

/-! ### The producer index and the fetch -/

theorem pidxWrite_sets {s : State} {m : Master} {n : Fin 16} (v : Word) (h : s.reaches m (A.WRK_SCRn_PIDX n) = true) :
    does (.pidxWrite m n v) s fun t =>
      t.get (F.WRK_SCRn_PIDX_PIDX n) = v.toNat % 2 ^ 12 ∧ onlyAt [A.WRK_SCRn_PIDX n] s t := by
  have written : exec (.pidxWrite m n v) s = .next (s.put (F.WRK_SCRn_PIDX_PIDX n) v.toNat) :=
    congrArg Host.Outcome.next (State.wr_reaches h)
  exact does_of written ⟨State.get_put_same _ _ (by simp [F.WRK_SCRn_PIDX_PIDX]), onlyAt_put s _ rfl⟩

theorem exec_descriptorFetch (n : Fin 16) (bs : List Byte) (s : State) :
    exec (.descriptorFetch n bs) s = execDescriptorFetch n bs s := rfl

/-- The 64 bytes at CIDX are taken within the limits of R34, and left where a limit is reached. -/
theorem descriptorFetch_within {s : State} {n : Fin 16} {bs : List Byte} (len : bs.length = 64) (may : s.mayFetch n = true) :
    does (.descriptorFetch n bs) s fun t =>
      (if (s.ch n).work.bands.length < 64 ∧ s.bandUse n + (descOf bs).imageSize ≤ bandSpace then
        (t.ch n).work = { (s.ch n).work with fetched := some bs } else t.ch n = s.ch n) ∧ onlyCh n s t := by
  by_cases room : (s.ch n).work.bands.length < 64 ∧ s.bandUse n + (descOf bs).imageSize ≤ bandSpace
  · refine does_of (t := s.modWork n fun w => { w with fetched := some bs }) ?_ ?_
    · simp [exec_descriptorFetch, execDescriptorFetch, len, may, room]
    · rw [if_pos room]
      exact ⟨by simp, onlyCh_modCh ..⟩
  · refine does_of (t := s) ?_ ?_
    · simp only [exec_descriptorFetch, execDescriptorFetch, len, may]
      rw [if_neg (by simpa using room)]
      rfl
    · rw [if_neg room]
      exact ⟨rfl, onlyCh_refl n s⟩

/-! ### The check -/

/-- CIDX has gone one entry on in the ring. -/
theorem advanceCidx_moves (n : Fin 16) (s : State) :
    (advanceCidx n s).get (F.WRK_SCRn_CIDX_CIDX n) = (s.get (F.WRK_SCRn_CIDX_CIDX n) + 1) % s.scrSize n % 2 ^ 12 :=
  State.get_put_same _ _ (by simp [F.WRK_SCRn_CIDX_CIDX])

/-- The registers that an event leaves alone and a list does not name. -/
theorem quiet_of_but {as : List Nat} {a : Nat} (h : (quiet a && !as.contains a) = true) : quiet a = true ∧ a ∉ as := by
  simpa using h

/-- Whether the ring is full rests on its two indices and its size. -/
theorem State.cmpFull_congr {s t : State} {n : Fin 16} (tail : t.word (A.WRK_CMPn_TAIL n) = s.word (A.WRK_CMPn_TAIL n))
    (head : t.word (A.WRK_CMPn_HEAD n) = s.word (A.WRK_CMPn_HEAD n)) (log : (t.ch n).work.cmpLog = (s.ch n).work.cmpLog) :
    t.cmpFull n = s.cmpFull n := by
  have tail' : t.get (F.WRK_CMPn_TAIL_TAIL n) = s.get (F.WRK_CMPn_TAIL_TAIL n) := State.get_of_word tail
  have head' : t.get (F.WRK_CMPn_HEAD_HEAD n) = s.get (F.WRK_CMPn_HEAD_HEAD n) := State.get_of_word head
  simp only [State.cmpFull, tail', head', log]

/-- A record that falls due joins the queue; what a full ring then raises is an event. -/
theorem queueDue_frame (n : Fin 16) (r : DueRec) (s : State) :
    RaiseFrame (s.modWork n fun w => { w with due := w.due ++ [r] }) (queueDue n r s) := by
  unfold queueDue
  dsimp only
  split
  · exact RaiseFrame.raiseCh _ n (by decide)
  · exact RaiseFrame.refl _

theorem queueDue_room {n : Fin 16} {s : State} (r : DueRec) (h : s.cmpFull n = false) :
    queueDue n r s = s.modWork n fun w => { w with due := w.due ++ [r] } := by
  have room : (s.modWork n fun w => { w with due := w.due ++ [r] }).cmpFull n = false := by
    rw [← h]
    exact State.cmpFull_congr rfl rfl (by simp)
  simp only [queueDue, room, Bool.false_eq_true, if_false]

theorem exec_descriptorCheck (n : Fin 16) (s : State) : exec (.descriptorCheck n) s = execDescriptorCheck n s := rfl

/-- A descriptor that passes the check goes on to its acceptance. -/
theorem descriptorCheck_passes {s : State} {n : Fin 16} {bs : List Byte} (hf : (s.ch n).work.fetched = some bs)
    (pass : checkDesc (s.journal n) bs = 0) : does (.descriptorCheck n) s fun t =>
      (t.ch n).work = { (s.ch n).work with fetched := none, accepting := some (descOf bs) } ∧ onlyCh n s t := by
  refine does_of (t := (s.modWork n fun w => { w with fetched := none }).modWork n fun w =>
    { w with accepting := some (descOf bs) }) ?_ ⟨by simp, rfl, fun k hk => ?_⟩
  · simp [exec_descriptorCheck, execDescriptorCheck, hf, pass]
  · simp [State.modWork, hk]

/-- The state in which the rejection record of a descriptor falls due: none is fetched, and CIDX has passed it. -/
def rejected (n : Fin 16) (s : State) : State := advanceCidx n (s.modWork n fun w => { w with fetched := none })

theorem rejected_cmpFull (n : Fin 16) (s : State) : (rejected n s).cmpFull n = s.cmpFull n :=
  State.cmpFull_congr (State.word_put_ne _ _ (by simp [F.WRK_SCRn_CIDX_CIDX, A.WRK_CMPn_TAIL, A.WRK_SCRn_CIDX]))
    (State.word_put_ne _ _ (by simp [F.WRK_SCRn_CIDX_CIDX, A.WRK_CMPn_HEAD, A.WRK_SCRn_CIDX]))
    (by simp [rejected, advanceCidx])

/-- A descriptor that fails the check is passed over, and its rejection record queued. -/
theorem descriptorCheck_fails {s : State} {n : Fin 16} {bs : List Byte} (hf : (s.ch n).work.fetched = some bs)
    (fail : checkDesc (s.journal n) bs ≠ 0) : does (.descriptorCheck n) s fun t => s.cidxMoved t n ∧
      (!s.cmpFull n → (t.ch n).work = { (s.ch n).work with
        fetched := none, due := (s.ch n).work.due ++ [s.rejectRec bs (checkDesc (s.journal n) bs)] }) ∧
      calmBut [A.WRK_SCRn_CIDX n] s t := by
  have meaning : exec (.descriptorCheck n) s =
      .next (queueDue n (s.rejectRec bs (checkDesc (s.journal n) bs)) (rejected n s)) := by
    simp [exec_descriptorCheck, execDescriptorCheck, hf, fail, rejected]
  have frame := queueDue_frame n (s.rejectRec bs (checkDesc (s.journal n) bs)) (rejected n s)
  refine does_of meaning ⟨?_, fun room => ?_, ?_⟩
  · rw [State.cidxMoved, frame.get (quiet_cidx n)]
    exact (advanceCidx_moves n _).trans (by simp [State.scrSize])
  · rw [queueDue_room _ (by rw [rejected_cmpFull]; simpa using room)]
    simp [rejected, advanceCidx]
  · have moved : calmBut [A.WRK_SCRn_CIDX n] s (rejected n s) :=
      (Calm.work s n _).trans (Calm.put _ _ (by simp [F.WRK_SCRn_CIDX_CIDX]))
    exact (moved.trans (Calm.work _ n _)).trans (Calm.of_frame frame fun a h => (quiet_of_but h).1)

/-- Settles O5: the three commands that bring a descriptor in. -/
theorem descriptorsEnterInOrder : Obligations.DescriptorsEnterInOrder := by
  unfold Obligations.DescriptorsEnterInOrder
  exact fun s => ⟨fun m n v => pidxWrite_sets v, fun n bs => descriptorFetch_within,
    fun n bs hf => ⟨descriptorCheck_passes hf, descriptorCheck_fails hf⟩⟩

end Sys2Proof.Machine

namespace Sys2Proof.Machine

/-! ## Acceptance by the journal record (R39, R40, R53) -/

/-! ### Updates within one channel -/

namespace onlyChJnlAt

variable {n : Fin 16} {as : List Nat}

theorem trans {s t u : State} (h : onlyChJnlAt n as s t) (k : onlyChJnlAt n as t u) : onlyChJnlAt n as s u := by
  obtain ⟨same, chans, jnls, regs⟩ := h
  obtain ⟨same', chans', jnls', regs'⟩ := k
  refine ⟨?_, fun m hm => (chans' m hm).trans (chans m hm), fun m hm => (jnls' m hm).trans (jnls m hm),
    fun a ha => (regs' a ha).trans (regs a ha)⟩
  rw [same', same]

theorem modCh (s : State) (n : Fin 16) (f : Chan → Chan) : onlyChJnlAt n as s (s.modCh n f) :=
  ⟨rfl, chBut_modCh s n f, fun _ _ => rfl, fun _ _ => rfl⟩

theorem modJnl (s : State) (n : Fin 16) (f : ChJnl → ChJnl) : onlyChJnlAt n as s (s.modJnl n f) :=
  ⟨rfl, fun _ _ => rfl, fun _ hk => vget_set_ne _ _ hk, fun _ _ => rfl⟩

theorem put (s : State) {f : Fld} (v : Nat) (h : f.addr ∈ as) : onlyChJnlAt n as s (s.put f v) :=
  ⟨rfl, fun _ _ => rfl, fun _ _ => rfl, fun _ ha => State.word_put_ne _ _ fun e => ha (e ▸ h)⟩

end onlyChJnlAt

/-! ### A commit condition that is noted -/

/-- A condition that occurs is noted in slots, and nothing else changes (R204). -/
theorem capoCond_eq (cond arg : Nat) (s : State) : capoCond cond arg s = { s with capo := (capoCond cond arg s).capo } := by
  have slots (ts : List (Fin 16)) (f : State → Fin 16 → State) (h : ∀ u t, ∃ c, f u t = { u with capo := c }) (u : State) :
      ∃ c, ts.foldl f u = { u with capo := c } := by
    induction ts generalizing u with
    | nil => exact ⟨u.capo, rfl⟩
    | cons t ts ih =>
      obtain ⟨c, hc⟩ := h u t
      rw [List.foldl_cons, hc]
      exact ih _
  obtain ⟨c, hc⟩ : ∃ c, capoCond cond arg s = { s with capo := c } := slots _ _ (fun u t => by
    dsimp only
    split
    · exact ⟨_, rfl⟩
    · exact ⟨u.capo, rfl⟩) s
  rw [hc]

/-- That a channel has become ready to arm is noted in slots, and nothing else changes. -/
theorem noteReady_eq (n : Fin 16) (s0 s : State) : noteReady n s0 s = { s with capo := (noteReady n s0 s).capo } := by
  unfold noteReady
  split
  · exact capoCond_eq 2 n s
  · rfl

/-- A channel that is not ready to arm has not become so. -/
theorem noteReady_of_not {n : Fin 16} {s0 s : State} (h : s.readyToArm n = false) : noteReady n s0 s = s := by
  simp [noteReady, h]

theorem noteReady_ch (n : Fin 16) (s0 s : State) (k : Fin 16) : (noteReady n s0 s).ch k = s.ch k := by
  rw [noteReady_eq]
  rfl

theorem noteReady_journal (n : Fin 16) (s0 s : State) (k : Fin 16) : (noteReady n s0 s).journal k = s.journal k := by
  rw [noteReady_eq]
  rfl

theorem noteReady_word (n : Fin 16) (s0 s : State) (a : Nat) : (noteReady n s0 s).word a = s.word a := by
  rw [noteReady_eq]
  rfl

theorem noteReady_get (n : Fin 16) (s0 s : State) (f : Fld) : (noteReady n s0 s).get f = s.get f :=
  State.get_of_word (noteReady_word ..)

theorem noteReady_flag (n : Fin 16) (s0 s : State) (f : Fld) : (noteReady n s0 s).flag f = s.flag f :=
  State.flag_of_word (noteReady_word ..)

/-- What only channel n, its part of the journal and some registers have changed, it is after the note, slots apart. -/
theorem onlyChJnlAt.noteReady {n : Fin 16} {as : List Nat} {s t : State} (h : onlyChJnlAt n as s t) (s0 : State) :
    onlyChJnlAt n as { s with capo := (noteReady n s0 t).capo } (noteReady n s0 t) := by
  obtain ⟨same, chans, jnls, regs⟩ := h
  refine ⟨?_, fun k hk => (noteReady_ch ..).trans (chans k hk), fun k hk => (noteReady_journal ..).trans (jnls k hk),
    fun a ha => (noteReady_word ..).trans (regs a ha)⟩
  rw [noteReady_eq, same]

/-! ### The record -/

/-- The arming latches that may go are the channel's own, and no register changes. -/
theorem dropLatches_eq (n : Fin 16) (s : State) : ∃ g : Ft → Ft, dropLatches n s = s.modFt n g := by
  unfold dropLatches
  split
  · exact ⟨_, rfl⟩
  · exact ⟨_, rfl⟩
  · exact ⟨_, rfl⟩
  · refine ⟨id, ?_⟩
    have same : s.chans.set n.val (s.chans.get n) = s.chans := Vector.set_getElem_self n.isLt
    exact congrArg (fun c => { s with chans := c }) same.symm

/-- The journal and the band of an acceptance, before CIDX and the latches follow. -/
def bandTaken (n : Fin 16) (d : Desc) (s : State) : State :=
  (s.modJnl n fun j =>
    { j with recs := (j.recs ++ [s.acceptRec n d]).drop (j.recs.length + 1 - 512), setSeq := none, closed := false }).modWork n
    fun w => { w with accepting := none, pageNo := (s.ch n).work.pageNo + (if d.pstart then 1 else 0),
                      bands := w.bands ++ [(s.acceptRec n d).toBand ((s.ch n).work.pageNo + (if d.pstart then 1 else 0))] }

theorem acceptBand_eq (n : Fin 16) (d : Desc) (s : State) :
    acceptBand n d s = dropLatches n (advanceCidx n (bandTaken n d s)) := rfl

/-- The newest record of the journal is the one just written. -/
theorem bandTaken_newest (n : Fin 16) (d : Desc) (s : State) :
    ((bandTaken n d s).journal n).recs.getLast? = some (s.acceptRec n d) := by
  have recs : ((bandTaken n d s).journal n).recs =
      ((s.journal n).recs ++ [s.acceptRec n d]).drop ((s.journal n).recs.length + 1 - 512) := by simp [bandTaken]
  have short : ¬ ((s.journal n).recs ++ [s.acceptRec n d]).length ≤ (s.journal n).recs.length + 1 - 512 := by
    rw [List.length_append, List.length_singleton]
    omega
  rw [recs, List.getLast?_drop, if_neg short, List.getLast?_concat]

theorem exec_bandAccept (n : Fin 16) (s : State) : exec (.bandAccept n) s = execBandAccept n s := rfl

/-- BAND_ACCEPT with no failed write in the way: the record, then the band, then CIDX. -/
theorem bandAccept_accepts {s : State} {n : Fin 16} {d : Desc} (acc : (s.ch n).work.accepting = some d) (nv : s.nvOk = true)
    (gap : s.acceptGap n = true) (well : (s.ch n).work.accFailTick = none) :
    does (.bandAccept n) s fun t => (t.journal n).recs.getLast? = some (s.acceptRec n d) ∧ (t.journal n).lastSeq = d.seq ∧
      (t.journal n).openPage = !d.pend ∧ s.cidxMoved t n ∧
      (∃ pg, (t.ch n).work.bands = (s.ch n).work.bands ++ [(s.acceptRec n d).toBand pg]) ∧ (t.ch n).work.accepting = none ∧
      onlyChJnlAt n [A.WRK_SCRn_CIDX n] { s with capo := t.capo } t := by
  have meaning : exec (.bandAccept n) s = .next (noteReady n s (acceptBand n d s)) := by
    simp [exec_bandAccept, execBandAccept, acc, nv, gap, well]
  obtain ⟨g, latches⟩ := dropLatches_eq n (advanceCidx n (bandTaken n d s))
  have taken : acceptBand n d s = (advanceCidx n (bandTaken n d s)).modFt n g := (acceptBand_eq n d s).trans latches
  have newest := bandTaken_newest n d s
  have jnl : (acceptBand n d s).journal n = (bandTaken n d s).journal n := by rw [taken]; rfl
  have work : ((acceptBand n d s).ch n).work = ((bandTaken n d s).ch n).work := by rw [taken]; simp [advanceCidx]
  have only : onlyChJnlAt n [A.WRK_SCRn_CIDX n] s (acceptBand n d s) := by
    rw [taken]
    exact (((onlyChJnlAt.modJnl s n _).trans (.modCh _ n _)).trans (.put _ _ (by simp [F.WRK_SCRn_CIDX_CIDX]))).trans
      (.modCh _ n _)
  refine does_of meaning ⟨?_, ?_, ?_, ?_, ⟨(s.ch n).work.pageNo + (if d.pstart then 1 else 0), ?_⟩, ?_, only.noteReady s⟩
  · rw [noteReady_journal, jnl, newest]
  · rw [noteReady_journal, jnl, ChJnl.lastSeq, newest]
    simp [bandTaken, State.acceptRec]
  · rw [noteReady_journal, jnl, ChJnl.openPage, newest]
    simp [bandTaken, State.acceptRec]
  · rw [State.cidxMoved, noteReady_get, taken, State.modFt_get, advanceCidx_moves]
    simp [bandTaken, State.scrSize]
  · rw [noteReady_ch, work]
    simp [bandTaken]
  · rw [noteReady_ch, work]
    simp [bandTaken]

/-! ### A write that fails -/

/-- What no reaction changes of a channel's work: every field but those a hold, an inhibit or a PARTIAL line touches. -/
theorem RaiseFrame.workField {α : Type} {s t : State} (h : RaiseFrame s t) (n : Fin 16) (g : Work → α)
    (indep : ∀ (w : Work) c b d p l q k r, g { w with
      causes := c, bands := b, due := d, decPage := p, decL := l, firedPage := q, firedL := k, refire := r } = g w) :
    g (t.ch n).work = g (s.ch n).work :=
  (indep ..).symm.trans (congrArg g (h.work n))

theorem exec_jnlWrfail (n : Fin 16) (s : State) : exec (.jnlWrfail n) s = execJnlWrfail n s := rfl
theorem exec_acceptRetry (n : Fin 16) (s : State) : exec (.acceptRetry n) s = execAcceptRetry n s := rfl

/-- A failed write of the record keeps the descriptor, notes the time and raises FAB's line. -/
theorem jnlWrfail_waits {s : State} {n : Fin 16} (acc : (s.ch n).work.accepting.isSome = true) (nv : s.nvOk = true)
    (well : (s.ch n).work.accFailTick = none) (host : s.domOn 0 = true) :
    does (.jnlWrfail n) s fun t => (t.ch n).work.accFailTick = some s.tick ∧
      (t.ch n).work.accepting = (s.ch n).work.accepting ∧ t.flag (pendFld 2) ∧ calm s t := by
  generalize hu : (s.modWork n fun w => { w with accFailTick := some s.tick }) = u
  have meaning : exec (.jnlWrfail n) s = .next (u.raise 2) := by
    simp [exec_jnlWrfail, execJnlWrfail, acc, nv, well, hu]
  generalize ht : u.raise 2 = t at meaning
  have frame : RaiseFrame u t := ht ▸ RaiseFrame.raise u (by decide)
  have tick : (t.ch n).work.accFailTick = (u.ch n).work.accFailTick := frame.workField n _ fun _ _ _ _ _ _ _ _ _ => rfl
  have kept : (t.ch n).work.accepting = (u.ch n).work.accepting := frame.workField n _ fun _ _ _ _ _ _ _ _ _ => rfl
  refine does_of meaning ⟨tick.trans (by simp [← hu]), kept.trans (by simp [← hu]), ht ▸ raise_pending u (by decide) (hu ▸ host), ?_⟩
  exact Calm.trans (hu ▸ Calm.work s n _) frame.calm

/-- After 1 ms the write may start again. -/
theorem acceptRetry_clears {s : State} {n : Fin 16} {k : Nat} (failed : (s.ch n).work.accFailTick = some k)
    (late : k + msTicks ≤ s.tick) : does (.acceptRetry n) s fun t =>
      (t.ch n).work = { (s.ch n).work with accFailTick := none } ∧ onlyCh n s t := by
  refine does_of (t := s.modWork n fun w => { w with accFailTick := none }) ?_ ⟨by simp, onlyCh_modCh ..⟩
  simp [exec_acceptRetry, execAcceptRetry, failed, late]

/-- Settles O6: the record that accepts, the write that fails, the retry. -/
theorem acceptanceIsJournalledFirst : Obligations.AcceptanceIsJournalledFirst := by
  unfold Obligations.AcceptanceIsJournalledFirst
  exact fun s => ⟨fun n d => bandAccept_accepts, fun n => jnlWrfail_waits, fun n k => acceptRetry_clears⟩

end Sys2Proof.Machine

namespace Sys2Proof.Machine

/-! ## The release of bands (R44, R45; log 165) -/

/-! ### What the end of a band rests on -/

/-- An update of the work of a channel that leaves the work as it is leaves the state as it is. -/
theorem State.modWork_idle {s : State} {n : Fin 16} {f : Work → Work} (h : f (s.ch n).work = (s.ch n).work) :
    s.modWork n f = s := by
  have chan : { s.ch n with work := f (s.ch n).work } = s.ch n := by rw [h]
  have same : s.chans.set n.val (s.ch n) = s.chans := Vector.set_getElem_self n.isLt
  rw [State.modWork, State.modCh, chan, same]

/-- The largest row delay of a page rests on the row delays, the number of rows and what the channel keeps of earlier settings. -/
theorem State.maxDelay_congr {s t : State} {n : Fin 16} (rows : t.word (A.CHn_IMG_GEOM n) = s.word (A.CHn_IMG_GEOM n))
    (rowDly : ∀ r, r < 8 → t.word (A.CHn_FT_ROWDLYr n r) = s.word (A.CHn_FT_ROWDLYr n r))
    (old : (t.ch n).img.old = (s.ch n).img.old) (dly : (t.ch n).ft.pageDly = (s.ch n).ft.pageDly) (pg : Nat) (back : Bool) :
    t.maxDelay n pg back = s.maxDelay n pg back := by
  have now : t.rowDelays n back = s.rowDelays n back := by
    refine List.map_congr_left fun r hr => ?_
    have bwd : t.get (F.CHn_FT_ROWDLYr_DLYB n r) = s.get (F.CHn_FT_ROWDLYr_DLYB n r) :=
      State.get_of_word (rowDly r (List.mem_range.1 hr))
    have fwd : t.get (F.CHn_FT_ROWDLYr_DLYF n r) = s.get (F.CHn_FT_ROWDLYr_DLYF n r) :=
      State.get_of_word (rowDly r (List.mem_range.1 hr))
    rw [bwd, fwd]
  have page : t.pageDelays n pg back = s.pageDelays n pg back := by simp only [State.pageDelays, dly, now]
  have nrows : (t.imgFor n pg).word (A.CHn_IMG_GEOM n) = (s.imgFor n pg).word (A.CHn_IMG_GEOM n) := by
    cases h : (s.ch n).img.old.find? fun x => decide (pg < x.page) with
    | none => rw [imgFor_none h, imgFor_none (by rwa [old]), rows]
    | some x =>
      rw [imgFor_some h, imgFor_some (by rwa [old])]
      exact underOld_word x rows
  have geom : (t.imgFor n pg).get (F.CHn_IMG_GEOM_NROWS n) = (s.imgFor n pg).get (F.CHn_IMG_GEOM_NROWS n) :=
    State.get_of_word nrows
  simp only [State.maxDelay, State.maxOf, geom, page]

/-- Changes of a channel's work leave the largest row delays alone. -/
theorem State.maxDelay_modWork (s : State) (n : Fin 16) (f : Work → Work) (pg : Nat) (back : Bool) :
    (s.modWork n f).maxDelay n pg back = s.maxDelay n pg back :=
  State.maxDelay_congr (s := s) (t := s.modWork n f) (n := n) rfl (fun _ _ => rfl) (by simp) (by simp) pg back

/-- A band with a ledger entry as R44 has it: RELEASED no more, but FIRING. -/
def Band.noted (pg l : Nat) (b : Band) : Band :=
  if b.state = .released ∧ b.hasEntry pg l then { b with state := .firing } else b

theorem noteFiring_eq (n : Fin 16) (s : State) :
    noteFiring n s = s.modWork n fun w => { w with bands := w.bands.map (Band.noted w.firedPage w.firedL) } := rfl

/-- A band that is noted as FIRING is the same band, neither DONE nor RETIRED. -/
theorem Band.noted_cases (pg l : Nat) (b : Band) :
    b.noted pg l = b ∨ b.noted pg l = { b with state := .firing } ∧ b.state = .released := by
  unfold Band.noted
  split
  next h => exact .inr ⟨rfl, h.1⟩
  next => exact .inl rfl

/-- Where no band has all its lines and owed rows fired or resolved, R45 ends none: bands are at most noted as FIRING. -/
theorem checkDone_noneMet {n : Fin 16} {s : State} (h : s.noneMet n = true) : checkDone n s = noteFiring n s := by
  have none : (((noteFiring n s).ch n).work.bands.filter fun b => b.state == .firing && b.met
      ((noteFiring n s).maxDelay n b.page ((noteFiring n s).pageDir n)) ((noteFiring n s).ch n).work.firedPage
      ((noteFiring n s).ch n).work.firedL) = [] := by
    simp only [noteFiring_eq, State.maxDelay_modWork, State.ch_modWork_same, List.filter_eq_nil_iff, List.mem_map,
      Bool.and_eq_true, beq_iff_eq, not_and]
    rintro b' ⟨b, hb, rfl⟩ firing
    have open' : ¬ b.met (s.maxDelay n b.page (s.pageDir n)) (s.ch n).work.firedPage (s.ch n).work.firedL = true := by
      have all := List.all_eq_true.1 h b hb
      rcases Band.noted_cases (s.ch n).work.firedPage (s.ch n).work.firedL b with e | ⟨-, e⟩
      · rw [e] at firing
        simpa [firing] using all
      · simpa [e] using all
    rcases Band.noted_cases (s.ch n).work.firedPage (s.ch n).work.firedL b with e | ⟨e, -⟩
    · rw [e]
      exact open'
    · rw [e]
      exact open'
  unfold checkDone
  dsimp only
  rw [none]
  rfl

/-! ### A release where SEQs tell the bands apart -/

theorem exec_bandRelease (n : Fin 16) (s : State) : exec (.bandRelease n) s = execBandRelease n s := rfl

/-- The state in which band `seq` has been handed over. -/
def handedOver (n : Fin 16) (seq : Nat) (s : State) : State := modBand n seq (fun x => { x with state := .released }) s

theorem bandRelease_hands {s : State} {n : Fin 16} {b : Band} (next : firstNot Band.isOut (s.ch n).work.bands = some b)
    (ready : b.state = .ready) (run : s.wstate n = 1) (works : s.seqWorks n = true) :
    exec (.bandRelease n) s = .next (settleDone n (handedOver n b.desc.seq s)) := by
  simp [exec_bandRelease, execBandRelease, next, ready, run, works, handedOver]

/-- The clause of O7 that `twinBands` refutes holds in every state where no other band has the SEQ of the one released. -/
theorem bandRelease_releases {s : State} {n : Fin 16} {b : Band} (next : firstNot Band.isOut (s.ch n).work.bands = some b)
    (ready : b.state = .ready) (run : s.wstate n = 1) (works : s.seqWorks n = true)
    (own : ∀ x ∈ (s.ch n).work.bands, x.desc.seq = b.desc.seq → x = b)
    (calmly : s.inWindow n = true ∨ (s.noneMet n = true ∧
      ∀ x ∈ (s.ch n).work.bands, x = b ∨ x.state = .released → (!s.begun n x) = true)) :
    exec (.bandRelease n) s = .next (handedOver n b.desc.seq s) := by
  rw [bandRelease_hands next ready run works]
  generalize hu : handedOver n b.desc.seq s = u
  have window : u.inWindow n = s.inWindow n := by simp [← hu, handedOver, modBand, State.inWindow]
  unfold settleDone
  rw [window]
  rcases calmly with inside | ⟨unmet, unbegun⟩
  · rw [if_pos inside]
  · split
    · rfl
    have bands : (u.ch n).work.bands =
        (s.ch n).work.bands.map fun x => if x.desc.seq = b.desc.seq then { x with state := .released } else x := by
      simp [← hu, handedOver, modBand]
    have fired : (u.ch n).work.firedPage = (s.ch n).work.firedPage ∧ (u.ch n).work.firedL = (s.ch n).work.firedL := by
      simp [← hu, handedOver, modBand]
    have unmet' : u.noneMet n = true := by
      have delay (pg : Nat) (back : Bool) : u.maxDelay n pg back = s.maxDelay n pg back :=
        hu ▸ State.maxDelay_modWork s n _ pg back
      have dir : u.pageDir n = s.pageDir n := hu ▸ rfl
      simp only [State.noneMet, State.noneMetAt, bands, fired, delay, dir, List.all_map, List.all_eq_true] at unmet ⊢
      intro x hx
      have all := unmet x hx
      by_cases e : x.desc.seq = b.desc.seq
      · obtain rfl := own x hx e
        simpa [ready, Band.met] using all
      · simpa [e] using all
    have noted : noteFiring n u = u := by
      rw [noteFiring_eq]
      refine State.modWork_idle ?_
      have each : (u.ch n).work.bands.map (Band.noted (u.ch n).work.firedPage (u.ch n).work.firedL) = (u.ch n).work.bands := by
        rw [bands, List.map_map, fired.1, fired.2]
        refine List.map_congr_left fun x hx => ?_
        by_cases e : x.desc.seq = b.desc.seq
        · obtain rfl := own x hx e
          have none := unbegun x hx (.inl rfl)
          have unheard : Band.hasEntry { x with state := .released } (s.ch n).work.firedPage (s.ch n).work.firedL = false := by
            show x.hasEntry _ _ = false
            simpa [State.begun] using none
          simp [Band.noted, unheard]
        · have none := fun r => unbegun x hx (.inr r)
          simp only [State.begun, Bool.not_eq_true'] at none
          simp only [Function.comp, e, if_false, Band.noted]
          exact if_neg fun h => by simp [none h.1] at h
      rw [each]
    rw [checkDone_noneMet unmet', noted]

/-! ### Two bands of one SEQ -/

/-- One of two bands of SEQ 1 in page 1, in a state and from a page line count on. -/
def twinBand (st : BandState) (l0 : Nat) : Band :=
  { desc := { seq := 1, lines := 2, fmt := 0, mtx := 0, pass := 0, pstart := false, pend := false, irq := false, arm := 0, buf := 0,
              stride := 64, width := 1, tag := 0 },
    state := st, l0 := l0, page := 1, accTime := 0, accBoot := 1, abandoned := false, reinst := false, fired := 0,
    npart := 0, hadPart := false, lastTime := 0, lastBoot := 1, first := 0, img := [], fails := 0, failTick := none,
    needRefetch := false, failed := false }

/-- Channel 0 in RUN with the first band FIRING, one of its two lines fired, and the second READY. -/
def twinBands : State :=
  ((State.reset.put (domFld 8) 2).put (F.WRK_SCRn_STAT_STATE 0) 1).modWork 0 fun w =>
    { w with bands := [twinBand .firing 0, twinBand .ready 2], firedPage := 1, firedL := 1 }

/-- The states of the bands of channel n, where a command answers a next state. -/
def bandStates (n : Fin 16) (o : Host.Outcome State Fault Refusal) : List BandState :=
  match o with
  | .next t => (t.ch n).work.bands.map (·.state)
  | _ => []

theorem twinBands_ready : firstNot Band.isOut (twinBands.ch 0).work.bands = some (twinBand .ready 2) ∧
    twinBands.wstate 0 = 1 ∧ twinBands.seqWorks 0 = true ∧ twinBands.noneMet 0 = true ∧
    ∀ x ∈ (twinBands.ch 0).work.bands, x = twinBand .ready 2 ∨ x.state = .released → (!twinBands.begun 0 x) = true := by
  decide +kernel

/-- As the second one is released, the first one is RELEASED again by its SEQ and, with a ledger entry, FIRING at once. -/
theorem twinBands_released : bandStates 0 (exec (.bandRelease 0) twinBands) = [.firing, .released] := by
  decide +kernel

theorem twinBands_handedOver : bandStates 0 (.next (handedOver 0 1 twinBands)) = [.released, .released] := by
  decide +kernel

/-- Refutes O7: the statement ranges over every state, and in `twinBands` a band that fires has the SEQ of the one released. Its clause
of the release expects RELEASED of both, but the one with a ledger entry is FIRING (log 165). Where SEQs tell the bands apart the clause
holds (`bandRelease_releases`). -/
theorem not_bandsLoadAndReleaseInOrder : ¬ Obligations.BandsLoadAndReleaseInOrder := by
  unfold Obligations.BandsLoadAndReleaseInOrder
  intro h
  obtain ⟨next, run, works, unmet, unbegun⟩ := twinBands_ready
  obtain ⟨-, -, release, -⟩ := h twinBands
  obtain ⟨hands, -⟩ := release 0 (twinBand .ready 2) next rfl run works
  have both : bandStates 0 (exec (.bandRelease 0) twinBands) = [.released, .released] := by
    rw [hands (.inr ⟨unmet, unbegun⟩)]
    exact twinBands_handedOver
  exact absurd (twinBands_released.symm.trans both) (by decide)

end Sys2Proof.Machine

namespace Sys2Proof.Machine

/-! ## Records, retirement, head writes and checkpoints (R41, R46, R48, R49, R53, R54) -/

/-! ### What an event reads of registers beside its own -/

theorem State.sevOf_of_word {s t : State} {e : Nat} (h : t.word (A.FLT_SEVw (e / 8)) = s.word (A.FLT_SEVw (e / 8))) :
    t.sevOf e = s.sevOf e := by
  have same : t.get (F.FLT_SEVw_SEVi (e / 8) (e % 8)) = s.get (F.FLT_SEVw_SEVi (e / 8) (e % 8)) := State.get_of_word h
  simp only [State.sevOf, same]

theorem State.domOn_zero_of_word {s t : State} (h : t.word A.SYS_DOMSTAT_LO = s.word A.SYS_DOMSTAT_LO) : t.domOn 0 = s.domOn 0 := by
  have same : t.get (domFld 0) = s.get (domFld 0) := State.get_of_word h
  simp only [State.domOn, State.domState, same]

theorem State.dmaUp_host {s : State} (h : s.dmaUp = true) : s.domOn 0 = true := by
  simp only [State.dmaUp, Bool.and_eq_true] at h
  exact h.2

theorem State.canPost_dmaUp {s : State} {n : Fin 16} (h : s.canPost n = true) : s.dmaUp = true := by
  simp only [State.canPost, Bool.and_eq_true] at h
  exact h.1.1.1

/-! ### A record goes out -/

theorem quiet_cmpTail (n : Fin 16) : quiet (A.WRK_CMPn_TAIL n) = true := by
  revert n
  decide +kernel

/-- No register of WRK or of a channel is one that an event of severity S0 or S1 writes. -/
theorem toldReg_high {a : Nat} (h : 0xC0000 ≤ a) : toldReg a = false := by
  have hb : blockOf a ≠ 1 := by
    unfold blockOf
    split
    · omega
    · split
      · decide
      · split <;> omega
  have low : ∀ x, x < 0xC0000 → a ≠ x := fun x hx => by omega
  have log : ¬ a < 0x20C00 := by omega
  simp [toldReg, fltReg, hb, log, low A.FLT_STAT_LO (by decide), low A.FLT_STAT_HI (by decide), low A.FLT_SAFE (by decide),
    low A.FLT_FIRST (by decide), low A.FLT_FIRSTTIME_LO (by decide), low A.FLT_FIRSTTIME_HI (by decide),
    low A.FLT_LOGCNT (by decide)]

theorem postRecord_out (n : Fin 16) (r : DueRec) (s : State) : (postRecord n r s).out = .hostWrite ((s.ch n).work.cmpBase +
    32 * s.get (F.WRK_CMPn_TAIL_TAIL n)) (recBytes r (s.flag (F.WRK_CMPn_TAIL_PHASE n))) :: s.out := rfl

theorem postRecord_tail (n : Fin 16) (r : DueRec) (s : State) : (postRecord n r s).get (F.WRK_CMPn_TAIL_TAIL n) =
    (s.get (F.WRK_CMPn_TAIL_TAIL n) + 1) % ringSize (s.ch n).work.cmpLog % 2 ^ 12 := by
  unfold postRecord
  dsimp only
  rw [State.modWork_get, State.get_put_other _ _ (.inr (by simp [F.WRK_CMPn_TAIL_TAIL, F.WRK_CMPn_TAIL_PHASE]))]
  exact State.get_put_same _ _ (by simp [F.WRK_CMPn_TAIL_TAIL])

theorem postRecord_word (n : Fin 16) (r : DueRec) (s : State) {a : Nat} (h : a ≠ A.WRK_CMPn_TAIL n) :
    (postRecord n r s).word a = s.word a := by
  unfold postRecord
  dsimp only
  rw [State.modWork_word, State.word_put_ne _ _ h, State.word_put_ne _ _ h, State.emit_word]

theorem postRecord_work (n : Fin 16) (r : DueRec) (s : State) : ((postRecord n r s).ch n).work = { (s.ch n).work with
    unread := (s.ch n).work.unread ++ [(r.seq, r.reject)],
    lastRec := some ((s.ch n).work.cmpBase + 32 * s.get (F.WRK_CMPn_TAIL_TAIL n),
      recBytes r (s.flag (F.WRK_CMPn_TAIL_PHASE n))) } := by
  simp [postRecord]

theorem postRecord_chBut (n : Fin 16) (r : DueRec) (s : State) : chBut n s (postRecord n r s) := fun k hk => by
  simp [postRecord, State.modWork, hk]

theorem postRecord_calm (n : Fin 16) (r : DueRec) (s : State) : calmBut [A.WRK_CMPn_TAIL n] s (postRecord n r s) := by
  unfold postRecord
  dsimp only
  refine ((Calm.emit s _).trans ((Calm.put _ _ ?_).trans (Calm.put _ _ ?_))).trans (Calm.work _ n _)
  · simp [F.WRK_CMPn_TAIL_TAIL]
  · simp [F.WRK_CMPn_TAIL_PHASE]

theorem postRecord_sevOf (n : Fin 16) (r : DueRec) (s : State) (e : Nat) (h : e < 512) : (postRecord n r s).sevOf e = s.sevOf e :=
  State.sevOf_of_word (postRecord_word n r s (by simp only [A.FLT_SEVw, A.WRK_CMPn_TAIL]; omega))

theorem postRecord_domOn (n : Fin 16) (r : DueRec) (s : State) : (postRecord n r s).domOn 0 = s.domOn 0 :=
  State.domOn_zero_of_word (postRecord_word n r s (by simp only [A.SYS_DOMSTAT_LO, A.WRK_CMPn_TAIL]; omega))

/-- A record written stays written over what an event does. -/
theorem recWritten_of_frame {s u t : State} {n : Fin 16} {r : DueRec} (ring : (u.ch n).work.cmpBase = (s.ch n).work.cmpBase ∧
    (u.ch n).work.cmpLog = (s.ch n).work.cmpLog) (word : u.word (A.WRK_CMPn_TAIL n) = s.word (A.WRK_CMPn_TAIL n))
    (frame : RaiseFrame (postRecord n r u) t) : s.recWritten t n r := by
  have tail : u.get (F.WRK_CMPn_TAIL_TAIL n) = s.get (F.WRK_CMPn_TAIL_TAIL n) := State.get_of_word word
  have phase : u.flag (F.WRK_CMPn_TAIL_PHASE n) = s.flag (F.WRK_CMPn_TAIL_PHASE n) := State.flag_of_word word
  refine ⟨frame.mem_out ?_, ?_⟩
  · rw [postRecord_out, ring.1, tail, phase]
    exact List.mem_cons_self
  · rw [frame.get (quiet_cmpTail n), postRecord_tail, ring.2, tail]

/-! ### The record of a rejected descriptor -/

theorem exec_rejectionRecordWrite (n : Fin 16) (s : State) : exec (.rejectionRecordWrite n) s = execRejectionRecordWrite n s := rfl

/-- The record at the head of the queue has left it. -/
def dueTaken (n : Fin 16) (rest : List DueRec) (s : State) : State := s.modWork n fun w => { w with due := rest }

theorem rejectionRecordWrite_writes {s : State} {n : Fin 16} {r : DueRec} {rest : List DueRec}
    (due : (s.ch n).work.due = r :: rest) (room : s.canPost n = true) (rej : r.reject = true) (sev : s.sevOf (chEvt n 1) ≤ 1) :
    does (.rejectionRecordWrite n) s fun t => s.recWritten t n r ∧ t.flag (pendFld (chEvt n 1)) ∧ (t.ch n).work.due = rest ∧
      chBut n s t ∧ t.jnl = s.jnl ∧ calmBut [A.WRK_CMPn_TAIL n] s t := by
  have lt := RaiseFrame.chEvt_lt n (k := 1) (by decide)
  have on : s.domOn 0 = true := State.dmaUp_host (State.canPost_dmaUp room)
  generalize hu : dueTaken n rest s = u
  have meaning : exec (.rejectionRecordWrite n) s = .next ((postRecord n r u).raise (chEvt n 1)) := by
    simp [exec_rejectionRecordWrite, execRejectionRecordWrite, due, rej, room, ← hu, State.raiseCh, dueTaken]
  have told := Told.raise (postRecord n r u) lt (by
    rw [postRecord_sevOf n r u _ lt]
    exact hu ▸ sev)
  have frame := RaiseFrame.raise (postRecord n r u) lt
  have host : (postRecord n r u).domOn 0 = true := by
    rw [postRecord_domOn, ← hu]
    exact on
  refine does_of meaning ⟨recWritten_of_frame (by simp [← hu, dueTaken]) (hu ▸ rfl) frame, raise_pending _ lt host, ?_,
    fun k hk => ?_, ?_, ?_⟩
  · rw [told.ch, postRecord_work]
    simp [← hu, dueTaken]
  · rw [told.ch, postRecord_chBut n r u k hk]
    simp [← hu, dueTaken, State.modWork, hk]
  · rw [told.jnl]
    exact hu ▸ rfl
  · have taken : calmBut [A.WRK_CMPn_TAIL n] s u := hu ▸ Calm.work s n _
    exact (taken.trans (postRecord_calm n r u)).trans (Calm.of_frame frame fun a h => (quiet_of_but h).1)

/-! ### Retirement -/

theorem exec_bandRetire (n : Fin 16) (s : State) : exec (.bandRetire n) s = execBandRetire n s := rfl

/-- What RETIRED puts into a band's record of the journal (R53; TSTAMP and BOOT are log 22). -/
def BandRec.retired (d : DueRec) (r : BandRec) : BandRec :=
  { r with state := .retired, status := d.status, npart := d.npart, nfired := d.nfired, time := d.time, boot := d.boot }

/-- The journal has the band RETIRED, and its record leaves the queue as the band leaves the bands. -/
def retiredFirst (n : Fin 16) (r : DueRec) (rest : List DueRec) (s : State) : State :=
  (modRec n r.seq (BandRec.retired r) s).modWork n fun w => { w with due := rest, bands := w.bands.filter fun b => b.desc.seq != r.seq }

theorem retireBand_eq (n : Fin 16) (r : DueRec) (rest : List DueRec) (s : State) : retireBand n r rest s =
    if r.irq || r.status != 0 then (postRecord n r (retiredFirst n r rest s)).raise (chEvt n 0)
    else postRecord n r (retiredFirst n r rest s) := rfl

theorem bandRetire_retires {s : State} {n : Fin 16} {r : DueRec} {rest : List DueRec} (due : (s.ch n).work.due = r :: rest)
    (room : s.canPost n = true) (band : r.reject = false) (new : r.repost = false) (nv : s.nvOk = true)
    (sev : s.sevOf (chEvt n 0) ≤ 1) : does (.bandRetire n) s fun t =>
      s.recWritten t n r ∧ (t.journal n).recs = (s.journal n).recs.map (fun x => if x.desc.seq = r.seq ∧ x.state ≠ .retired then
        { x with state := .retired, status := r.status, npart := r.npart, nfired := r.nfired, time := r.time, boot := r.boot }
        else x) ∧ (r.irq ∨ r.status ≠ 0 → t.flag (pendFld (chEvt n 0))) ∧ (t.ch n).work.due = rest ∧
      (t.ch n).work.bands = (s.ch n).work.bands.filter (fun b => b.desc.seq != r.seq) ∧ chBut n s t ∧ jnlBut n s t ∧
      quietBut [A.WRK_CMPn_TAIL n] s t := by
  have lt := RaiseFrame.chEvt_lt n (k := 0) (by decide)
  have meaning : exec (.bandRetire n) s = .next (retireBand n r rest s) := by
    simp [exec_bandRetire, execBandRetire, due, band, new, nv, room]
  rw [retireBand_eq] at meaning
  have on : s.domOn 0 = true := State.dmaUp_host (State.canPost_dmaUp room)
  generalize hu : retiredFirst n r rest s = u at meaning
  have posted : chBut n s (postRecord n r u) ∧ (postRecord n r u).jnl = u.jnl := by
    refine ⟨fun k hk => ?_, rfl⟩
    rw [postRecord_chBut n r u k hk]
    simp [← hu, retiredFirst, modRec, State.modWork, hk]
  have told : ∀ t, t = (if r.irq || r.status != 0 then (postRecord n r u).raise (chEvt n 0) else postRecord n r u) →
      Told (postRecord n r u) t ∧ RaiseFrame (postRecord n r u) t := by
    rintro t rfl
    split
    · refine ⟨Told.raise _ lt ?_, RaiseFrame.raise _ lt⟩
      rw [postRecord_sevOf n r u _ lt]
      exact hu ▸ sev
    · exact ⟨Told.refl _, RaiseFrame.refl _⟩
  have host : (postRecord n r u).domOn 0 = true := by
    rw [postRecord_domOn, ← hu]
    exact on
  have raised : (r.irq ∨ r.status ≠ 0) → (if r.irq || r.status != 0 then (postRecord n r u).raise (chEvt n 0)
      else postRecord n r u).flag (pendFld (chEvt n 0)) = true := fun h => by
    rw [if_pos (by simpa using h)]
    exact raise_pending _ lt host
  generalize ht : (if r.irq || r.status != 0 then (postRecord n r u).raise (chEvt n 0) else postRecord n r u) = t
    at meaning raised
  obtain ⟨only, frame⟩ := told t ht.symm
  refine does_of meaning ⟨recWritten_of_frame (by simp [← hu, retiredFirst, modRec]) (hu ▸ rfl) frame, ?_, raised, ?_, ?_,
    fun k hk => ?_, fun k hk => ?_, fun a qa ha => ?_⟩
  · rw [only.journal, State.journal, posted.2, ← hu]
    show ((modRec n r.seq (BandRec.retired r) s).journal n).recs = _
    rw [modRec, State.journal_modJnl_same]
    rfl
  · rw [only.ch, postRecord_work]
    simp [← hu, retiredFirst]
  · rw [only.ch, postRecord_work]
    simp [← hu, retiredFirst, modRec]
  · rw [only.ch, posted.1 k hk]
  · rw [only.journal, State.journal, posted.2, ← hu]
    exact vget_set_ne _ _ hk
  · rw [frame.word a qa, postRecord_word n r u (by simpa using ha)]
    exact hu ▸ rfl

/-! ### A write of the head index -/

namespace onlyChAt

variable {n : Fin 16} {as : List Nat}

theorem refl (n : Fin 16) (as : List Nat) (s : State) : onlyChAt n as s s := ⟨rfl, fun _ _ => rfl, fun _ _ => rfl⟩

theorem trans {s t u : State} (h : onlyChAt n as s t) (k : onlyChAt n as t u) : onlyChAt n as s u := by
  obtain ⟨same, chans, regs⟩ := h
  obtain ⟨same', chans', regs'⟩ := k
  refine ⟨?_, fun m hm => (chans' m hm).trans (chans m hm), fun a ha => (regs' a ha).trans (regs a ha)⟩
  rw [same', same]

theorem modCh (s : State) (n : Fin 16) (f : Chan → Chan) : onlyChAt n as s (s.modCh n f) := ⟨rfl, chBut_modCh s n f, fun _ _ => rfl⟩

theorem put (s : State) (n : Fin 16) {f : Fld} (v : Nat) (h : f.addr ∈ as) : onlyChAt n as s (s.put f v) :=
  ⟨rfl, fun _ _ => rfl, fun _ ha => State.word_put_ne _ _ fun e => ha (e ▸ h)⟩

end onlyChAt

/-- A queue with no record to be posted again posts none. -/
theorem postReposts_none {n : Fin 16} {s : State} (k : Nat) (h : ((s.ch n).work.due.all fun r => !r.repost) = true) :
    postReposts n k s = s := by
  cases k with
  | zero => rfl
  | succ k =>
    unfold postReposts
    split
    next r rest due =>
      have new : r.repost = false := by simpa [due] using (List.all_eq_true.1 h) r (by simp [due])
      simp [new]
    next => rfl

theorem cmpHeadWrite_consumes {s : State} {m : Master} {n : Fin 16} {v : Word} {k z : Nat}
    (reach : s.reaches m (A.WRK_CMPn_HEAD n) = true) (new : ((s.ch n).work.due.all fun r => !r.repost) = true)
    (hk : k = v.toNat % 2 ^ 12) (hz : z = ringSize (s.ch n).work.cmpLog) :
    does (.cmpHeadWrite m n v) s fun t => t.get (F.WRK_CMPn_HEAD_HEAD n) = k ∧
      (t.ch n).work = consume ((k + z - s.get (F.WRK_CMPn_HEAD_HEAD n) % z) % z) (s.ch n).work ∧
      onlyChAt n [A.WRK_CMPn_HEAD n] s t := by
  subst hz
  have head : (s.put (F.WRK_CMPn_HEAD_HEAD n) v.toNat).get (F.WRK_CMPn_HEAD_HEAD n) = k :=
    (State.get_put_same _ _ (by simp [F.WRK_CMPn_HEAD_HEAD])).trans hk.symm
  have meaning : exec (.cmpHeadWrite m n v) s = .next (headWrite n v s) :=
    congrArg Host.Outcome.next (State.wr_reaches reach)
  unfold headWrite at meaning
  dsimp only at meaning
  rw [head, postReposts_none _ (by simpa [consume] using new)] at meaning
  refine does_of meaning ⟨by rw [State.modWork_get, head], by simp, ?_⟩
  exact (onlyChAt.put s n _ (by simp [F.WRK_CMPn_HEAD_HEAD])).trans (.modCh _ n _)

/-! ### A checkpoint -/

theorem exec_checkpoint (n : Fin 16) (s : State) : exec (.checkpoint n) s = execCheckpoint n s := rfl

theorem ckptWords_length (c : Ckpt) : (ckptWords c).length = 4 := by simp [ckptWords]

/-- However a write is cut off, the slot holds four words. -/
theorem cutSlot_length (s : State) (old : List (BitVec 64)) {new : List (BitVec 64)} (h : new.length = 4) :
    (cutSlot s old new).length = 4 := by
  simp [cutSlot, h]
  omega

/-- What a checkpoint slot holds after it was written, cut off or not. -/
def State.slotAfter (s : State) (n : Fin 16) : List (BitVec 64) :=
  if s.slotCut then cutSlot s (if (s.journal n).ckpts.length < 1024 then [] else (s.journal n).ckpts.headD []) (ckptWords (s.ckptNow n))
  else ckptWords (s.ckptNow n)

theorem State.slotAfter_length (s : State) (n : Fin 16) : (s.slotAfter n).length = 4 := by
  unfold State.slotAfter
  split
  · exact cutSlot_length s _ (ckptWords_length _)
  · exact ckptWords_length _

/-- The channel's part of the journal with the slot written. -/
def slotWritten (n : Fin 16) (s : State) (j : ChJnl) : ChJnl :=
  { j with ckpts := (j.ckpts ++ [s.slotAfter n]).drop (j.ckpts.length + 1 - 1024),
           ckptUnc := if s.slotCut then j.ckptUnc else s.get (F.CHn_LED_UNC_COUNT n) }

theorem slotWritten_ckpts (n : Fin 16) (s : State) (j : ChJnl) :
    (slotWritten n s j).ckpts = (j.ckpts ++ [s.slotAfter n]).drop (j.ckpts.length + 1 - 1024) := by
  simp only [slotWritten]

theorem State.journal_free (s : State) (n : Fin 16) (f : Nat) : ({ s with free := f } : State).journal n = s.journal n := rfl

/-- The state with a checkpoint made, f being the free values taken. -/
def checkpointed (n : Fin 16) (f : Nat) (s : State) : State :=
  (({ s with free := f } : State).modJnl n fun j => slotWritten n s j).modWork n fun w =>
    { w with ckptTick := s.tick, fireTicks := w.fireTicks.filter fun t => decide (s.tick < t + msTicks) }

theorem checkpoint_makes {s : State} {n : Fin 16} (st : s.wstate n = 1 ∨ s.wstate n = 2) (nv : s.nvOk = true)
    (works : s.seqWorks n = true) (due : (s.ch n).work.ckptTick + msTicks ≤ s.tick) :
    does (.checkpoint n) s fun t => (∃ w, (t.journal n).ckpts.getLast? = some w ∧ w.length = 4 ∧
      (!s.slotCut → w = ckptWords (s.ckptNow n))) ∧ (t.ch n).work.ckptTick = s.tick ∧
      onlyChJnlAt n [] { s with free := t.free } t := by
  have meaning : exec (.checkpoint n) s = .next (checkpointed n (if s.slotCut then s.free + 7 else s.free) s) := by
    rw [exec_checkpoint, execCheckpoint, if_pos ⟨st, nv, works, due⟩]
    simp only [checkpointed, slotWritten, State.slotAfter]
    cases s.slotCut
    · rfl
    · rfl
  generalize (if s.slotCut then s.free + 7 else s.free) = f at meaning
  have recs : ((checkpointed n f s).journal n).ckpts =
      ((s.journal n).ckpts ++ [s.slotAfter n]).drop ((s.journal n).ckpts.length + 1 - 1024) := by
    rw [checkpointed, State.modWork_journal, State.journal_modJnl_same, slotWritten_ckpts]
    exact congrArg (fun j : ChJnl => (j.ckpts ++ [s.slotAfter n]).drop (j.ckpts.length + 1 - 1024)) (s.journal_free n f)
  have short : ¬ ((s.journal n).ckpts ++ [s.slotAfter n]).length ≤ (s.journal n).ckpts.length + 1 - 1024 := by
    rw [List.length_append, List.length_singleton]
    omega
  refine does_of meaning ⟨⟨s.slotAfter n, ?_, s.slotAfter_length n, fun whole => ?_⟩, by simp [checkpointed], ?_⟩
  · rw [recs, List.getLast?_drop, if_neg short, List.getLast?_concat]
  · have uncut : s.slotCut = false := by simpa using whole
    simp [State.slotAfter, uncut]
  · unfold checkpointed State.modWork
    exact (onlyChJnlAt.modJnl ({ s with free := f } : State) n (slotWritten n s)).trans (.modCh _ n _)

/-- Settles O8: the two records, the head index, the checkpoint. -/
theorem recordsAreWrittenInOrder : Obligations.RecordsAreWrittenInOrder := by
  unfold Obligations.RecordsAreWrittenInOrder
  exact fun s => ⟨fun n r rest due room => ⟨rejectionRecordWrite_writes due room,
    fun band new => bandRetire_retires due room (by simpa using band) (by simpa using new)⟩,
    fun m n v k z => cmpHeadWrite_consumes, fun n => checkpoint_makes⟩

end Sys2Proof.Machine

namespace Sys2Proof.Machine

/-! ## ABANDON_ALL while a line is in its firing window (R52, R58, R62, R328) -/

/-- Channel 0 HELD by STOP with a line in its firing window, and HELD of severity S3. -/
def heldInWindow : State :=
  let s := [(domFld 0, 2), (domFld 1, 2), (domFld 8, 2), (F.WRK_SCRn_STAT_STATE 0, 2), (F.WRK_SCRn_STAT_HCAUSE 0, 1),
    (F.FLT_SEVw_SEVi (chEvt 0 2 / 8) (chEvt 0 2 % 8), 3)].foldl
    (fun (s : State) (x : Fld × Nat) => s.put x.1 x.2) State.reset
  ({ s with boot := { s.boot with phase := .ready } }.modWork 0 fun w => { w with causes := [1] }).modWav 0 fun w =>
    { w with win := some { seq := 1, line := 0, slot := 0, fireTick := 0, segDly := 0, endTick := 100, tab := 0, bank := 0,
                           segDone := 0, startTicks := [] } }

/-- Whether a command answers a next state in which channel n has a PARTIAL line. -/
def leavesPartial (n : Fin 16) (o : Host.Outcome State Fault Refusal) : Bool :=
  match o with
  | .next t => t.flag (F.CHn_LED_PLINE_PEND n)
  | _ => false

theorem heldInWindow_takes : heldInWindow.commands .pf0 0 = true ∧ heldInWindow.nvOk = true ∧ heldInWindow.wstate 0 = 2 := by
  decide +kernel

/-- HELD tells of the HCAUSE that changes; its reaction inhibits the channel and makes the line in the window PARTIAL. -/
theorem heldInWindow_partial : leavesPartial 0 (exec (.cmdAbandonAll .pf0 0) heldInWindow) = true := by
  decide +kernel

/-- Refutes O10: its clause on ABANDON_ALL has no PARTIAL line afterwards, whatever the severity of HELD is. In `heldInWindow` it is S3:
HELD, raised because HCAUSE changes (R62), inhibits the channel (R328), and the line still in its firing window becomes PARTIAL (R52)
after the command has cleared CHn_LED_PLINE. -/
theorem not_commandsGiveUpAndMoveWork : ¬ Obligations.CommandsGiveUpAndMoveWork := by
  unfold Obligations.CommandsGiveUpAndMoveWork
  intro h
  obtain ⟨takes, nv, st⟩ := heldInWindow_takes
  obtain ⟨-, abandonAll, -⟩ := h heldInWindow .pf0 0 takes nv
  obtain ⟨t, answer, -, -, -, -, -, -, noPartial, -⟩ := abandonAll (.inl st)
  have partialLine := heldInWindow_partial
  rw [answer] at partialLine
  have none : t.flag (F.CHn_LED_PLINE_PEND 0) = false := by simpa using noPartial
  exact absurd (none.symm.trans partialLine) (by decide)

end Sys2Proof.Machine

namespace Sys2Proof.Machine

/-! ## What reactions leave of commands, of records due and of kept messages

Beside what `RaiseFrame` says of a raise and its reactions: they leave CMDRES, the records due and what the bands are, and they
keep back no message for a vector that is open. -/

/-- A band's descriptor and state: what reactions leave of it, which only count its PARTIAL lines. -/
def Band.core (b : Band) : Desc × BandState := (b.desc, b.state)

/-- A message on a vector of a function would be sent at once. -/
def Endpoint.open (h : Endpoint) (fn : Fin 2) (v : Nat) : Prop :=
  h.held fn = false ∧ bit512 (h.vecMasked.get fn) v = false ∧ h.linkUp = true ∧ h.bme = true

/-- What reactions leave as it was of CMDRES, of the bands and records due and of the messages kept. -/
structure Reacts (s t : State) : Prop where
  res : ∀ n : Fin 16, t.get (F.WRK_SCRn_STAT_CMDRES n) = s.get (F.WRK_SCRn_STAT_CMDRES n)
  due : ∀ n, (t.ch n).work.due = (s.ch n).work.due
  bands : ∀ n, (t.ch n).work.bands.map Band.core = (s.ch n).work.bands.map Band.core
  host : { t.host with pba := s.host.pba } = s.host
  pba : ∀ fn v, v < 512 → s.host.open fn v → bit512 (s.host.pba.get fn) v = false → bit512 (t.host.pba.get fn) v = false

/-- A register that holds no CMDRES. -/
abbrev NoRes (a : Nat) : Prop := ∀ m : Fin 16, a ≠ A.WRK_SCRn_STAT m

theorem NoRes.of_far {a : Nat} (h : a < 0xC0000 ∨ 0xD0000 ≤ a) : NoRes a := fun m e => by
  have := m.isLt
  unfold A.WRK_SCRn_STAT at e
  omega

theorem bit512_set (b : BitVec 512) (v : Nat) {i : Nat} (h : i < 512) : bit512 (setBit512 b v true) i = (bit512 b i || decide (i = v)) := by
  simp only [bit512, setBit512, if_true, BitVec.getLsbD_or, BitVec.getLsbD_shiftLeft, BitVec.getLsbD_one]
  by_cases e : i = v
  · simp [e, show v < 512 from e ▸ h]
  · by_cases l : i < v
    · simp [e, l]
    · simp [e, l, show ¬ i - v = 0 by omega]

theorem bit512_clear (b : BitVec 512) (v : Nat) {i : Nat} (h : i < 512) :
    bit512 (setBit512 b v false) i = (bit512 b i && !decide (i = v)) := by
  simp only [bit512, setBit512, Bool.false_eq_true, if_false, BitVec.getLsbD_and, BitVec.getLsbD_not, BitVec.getLsbD_shiftLeft,
    BitVec.getLsbD_one]
  by_cases e : i = v
  · simp [e, show v < 512 from e ▸ h]
  · by_cases l : i < v
    · simp [e, l, h]
    · simp [e, l, h, show ¬ i - v = 0 by omega]

theorem open_of_host {g h : Endpoint} (e : { h with pba := g.pba } = g) {fn : Fin 2} {v : Nat} (o : g.open fn v) : h.open fn v := by
  rw [← e] at o
  exact o

namespace Reacts

variable {s t u : State} {rs : Nat → State → State}

theorem refl (s : State) : Reacts s s := ⟨fun _ => rfl, fun _ => rfl, fun _ => rfl, rfl, fun _ _ _ _ h => h⟩

theorem trans (h : Reacts s t) (k : Reacts t u) : Reacts s u where
  res n := (k.res n).trans (h.res n)
  due n := (k.due n).trans (h.due n)
  bands n := (k.bands n).trans (h.bands n)
  host := by rw [← h.host, ← k.host]
  pba fn v b o c := k.pba fn v b (open_of_host h.host o) (h.pba fn v b o c)

/-- Neither the registers nor the channels nor the host's side change. -/
theorem of_same (bar : t.bar = s.bar) (chans : t.chans = s.chans) (host : t.host = s.host) : Reacts s t where
  res n := by simp only [State.get, State.word, bar]
  due n := by simp only [State.ch, chans]
  bands n := by simp only [State.ch, chans]
  host := by rw [host]
  pba fn v _ _ c := by rw [host]; exact c

theorem setWord (s : State) {a : Nat} (v : Word) (far : NoRes a) : Reacts s (s.setWord a v) :=
  { refl s with res := fun n => State.get_setWord_ne s v (far n).symm }

theorem put (s : State) {f : Fld} (v : Nat) (far : NoRes f.addr) : Reacts s (s.put f v) := setWord s _ far

theorem setPair (s : State) {lo hi : Nat} (v : Nat) (l : NoRes lo) (h : NoRes hi) : Reacts s (s.setPair lo hi v) :=
  (setWord s _ l).trans (setWord _ _ h)

/-- A field is written that lies below CMDRES in its register. -/
theorem putBelow (s : State) {f : Fld} (v : Nat) (low : f.lo + f.width ≤ 6) :
    Reacts s (s.put f v) :=
  { refl s with
    res := fun m => by
      by_cases e : (F.WRK_SCRn_STAT_CMDRES m).addr = f.addr
      · exact State.get_put_other s v (Or.inl low)
      · exact State.get_put_ne _ _ e }

/-- A channel is changed, but neither its records due nor what its bands are. -/
theorem modCh (s : State) (n : Fin 16) (g : Chan → Chan) (due : (g (s.ch n)).work.due = (s.ch n).work.due)
    (bands : (g (s.ch n)).work.bands.map Band.core = (s.ch n).work.bands.map Band.core) : Reacts s (s.modCh n g) :=
  { refl s with
    due := fun k => by
      by_cases e : k = n
      · subst e; simpa using due
      · simp [e]
    bands := fun k => by
      by_cases e : k = n
      · subst e; simpa using bands
      · simp [e] }

theorem modWork (s : State) (n : Fin 16) (g : Work → Work) (due : (g (s.ch n).work).due = (s.ch n).work.due)
    (bands : (g (s.ch n).work).bands.map Band.core = (s.ch n).work.bands.map Band.core) : Reacts s (s.modWork n g) :=
  modCh s n _ due bands

theorem modFt (s : State) (n : Fin 16) (g : Ft → Ft) : Reacts s (s.modFt n g) := modCh s n _ rfl rfl
theorem modWav (s : State) (n : Fin 16) (g : Wav → Wav) : Reacts s (s.modWav n g) := modCh s n _ rfl rfl
theorem modImg (s : State) (n : Fin 16) (g : Img → Img) : Reacts s (s.modImg n g) := modCh s n _ rfl rfl
theorem modDut (s : State) (n : Fin 16) (g : Dut → Dut) : Reacts s (s.modDut n g) := modCh s n _ rfl rfl
theorem modBrg (s : State) (n : Fin 16) (g : Brg → Brg) : Reacts s (s.modBrg n g) := modCh s n _ rfl rfl

theorem foldl {α : Type} (l : List α) (g : State → α → State) (h : ∀ s a, Reacts s (g s a)) (s : State) : Reacts s (l.foldl g s) := by
  induction l generalizing s with
  | nil => exact refl s
  | cons a l ih => exact (h s a).trans (ih _)

theorem eachCh (s : State) (g : Fin 16 → State → State) (h : ∀ n s, Reacts s (g n s)) : Reacts s (s.eachCh g) :=
  foldl _ _ (fun s n => h n s) s

/-- A step of an `if` reacts as its branches do. -/
theorem ite {c : Prop} [Decidable c] {a b : State} (ha : Reacts s a) (hb : Reacts s b) : Reacts s (if c then a else b) := by
  split
  · exact ha
  · exact hb

theorem emit (s : State) (o : Output) : Reacts s (s.emit o) := of_same rfl rfl rfl

/-! ### Delivery -/

theorem msix (s : State) (fn : Fin 2) (vec : Nat) : Reacts s (s.msix fn vec) := by
  unfold State.msix
  dsimp only
  split
  next back =>
    refine { refl s with pba := fun g v b o c => ?_ }
    by_cases e : g = fn
    · subst e
      obtain ⟨free, clear, up, bme⟩ := o
      have other : v ≠ vec := by
        rintro rfl
        simp [free, clear, up, bme] at back
      simp only [vget_set_same]
      rw [bit512_set _ _ b, c, decide_eq_false other]
      rfl
    · simpa only [vget_set_ne _ _ e] using c
  next => exact of_same rfl rfl rfl

theorem evtRaise (s : State) {e : Nat} (h : e < 512) : Reacts s (s.evtRaise e) := by
  have step : ∀ (u : State) (b : Bool) (fn : Fin 2) (v : Nat), Reacts u (if b then u.msix fn v else u) := fun u b fn v =>
    ite (msix u fn v) (refl u)
  unfold State.evtRaise
  dsimp only
  have far : NoRes (A.EVT_PENDw (e / 32)) := .of_far (.inl (by unfold A.EVT_PENDw; omega))
  exact ite (trans (put s 1 far) ((step _ _ _ _).trans (step _ _ _ _))) (refl s)

/-! ### Holds -/

/-- HCAUSE is written. -/
theorem putCause (s : State) (n : Fin 16) (c : Nat) : Reacts s (s.put (F.WRK_SCRn_STAT_HCAUSE n) c) :=
  putBelow s c (Nat.le_succ 5)

/-- The work state is written. -/
theorem putState (s : State) (n : Fin 16) (v : Nat) : Reacts s (s.put (F.WRK_SCRn_STAT_STATE n) v) :=
  putBelow s v (Nat.le_add_right 2 4)

theorem showCause (hrs : ∀ e s, e < 512 → Reacts s (rs e s)) (n : Fin 16) (c : Nat) (s : State) : Reacts s (showCause rs n c s) :=
  ite (refl s) ((putCause s n c).trans (hrs _ _ (RaiseFrame.chEvt_lt n (by decide))))

theorem addCause (n : Fin 16) (c : Nat) (s : State) : Reacts s (addCause n c s) := modWork s n _ rfl rfl

theorem enterHeld (n : Fin 16) (s : State) : Reacts s (enterHeld n s) :=
  (putState s n 2).trans ((put _ _ (ftStat n).2.2.1).trans (modFt _ n _))

theorem holdWith (hrs : ∀ e s, e < 512 → Reacts s (rs e s)) (n : Fin 16) (c : Nat) (s : State) : Reacts s (holdWith rs n c s) := by
  refine ite ?_ (ite ((addCause n c s).trans (showCause hrs n _ _)) (refl s))
  exact ((enterHeld n s).trans (addCause n c _)).trans
    ((putCause _ n _).trans (hrs _ _ (RaiseFrame.chEvt_lt n (by decide))))

/-- A band counts a PARTIAL line. -/
theorem modBand (n : Fin 16) (q : Nat) (f : Band → Band) (s : State) (core : ∀ b, (f b).core = b.core) : Reacts s (modBand n q f s) := by
  refine modWork s n _ rfl ?_
  dsimp only
  rw [List.map_map]
  refine List.map_congr_left fun b _ => ?_
  simp only [Function.comp_apply]
  split
  · exact core b
  · rfl

theorem noRes_led (n : Fin 16) {a : Nat} (h : 0x1000000 ≤ a) : NoRes (a + n.val * 0x100000) := .of_far (.inr (by omega))

theorem partialPending (hrs : ∀ e s, e < 512 → Reacts s (rs e s)) (n : Fin 16) (q l : Nat) (s : State) :
    Reacts s (partialPending rs n q l s) := by
  unfold Machine.partialPending
  dsimp only
  refine trans ?_ (holdWith hrs n 3 _)
  refine trans ?_ (hrs _ _ (RaiseFrame.chEvt_lt n (by decide)))
  have counted : Reacts s (Machine.modBand n q (fun b => { b with npart := b.npart + 1, hadPart := true })
      (((s.put (F.CHn_LED_PSEQ_SEQ n) q).put (F.CHn_LED_PLINE_LINE n) l).put (F.CHn_LED_PLINE_PEND n) 1)) := by
    refine trans ?_ (modBand n q _ _ fun _ => rfl)
    refine trans ?_ (put _ 1 (noRes_led n (a := 0x1060010) (by decide)))
    exact (put s q (noRes_led n (a := 0x106000C) (by decide))).trans (put _ l (noRes_led n (a := 0x1060010) (by decide)))
  refine counted.trans ?_
  split
  · exact modWork _ n _ rfl rfl
  · exact refl _

theorem cutWindow (hrs : ∀ e s, e < 512 → Reacts s (rs e s)) (n : Fin 16) (s : State) : Reacts s (cutWindow rs n s) := by
  unfold Machine.cutWindow
  split
  · refine trans ?_ (partialPending hrs n _ _ _)
    refine trans ?_ (emit _ _)
    refine trans ?_ (modWav _ n _)
    refine trans (put s 1 (.of_far (.inr ?_))) (put _ 1 (noRes_led n (a := 0x1060004) (by decide)))
    unfold ledLastState ledSlot
    dsimp only
    omega
  · exact refl s

theorem cancelDecided (n : Fin 16) (s : State) : Reacts s (cancelDecided n s) := by
  unfold Machine.cancelDecided Machine.restartScreen
  split
  · refine trans ?_ ((modImg _ n _).trans ((modDut _ n _).trans (modBrg _ n _)))
    exact (modFt s n _).trans ((modWork _ n _ rfl rfl).trans (put _ _ (ftStat n).2.2.1))
  · exact refl _

theorem dropHpen (n : Fin 16) (s : State) : Reacts s (dropHpen n s) :=
  ite ((modBrg s n _).trans (put _ 0 (brgStat n).2.2.1)) (refl s)

theorem noteHalted (n : Fin 16) (s : State) : Reacts s (noteHalted n s) := by
  unfold Machine.noteHalted
  dsimp only
  split
  · exact (dropHpen n s).trans (put _ _ monFlush.2.2.1)
  · exact dropHpen n s

theorem inhibitWith (hrs : ∀ e s, e < 512 → Reacts s (rs e s)) (c : Nat) (n : Fin 16) (s : State) : Reacts s (inhibitWith rs c n s) := by
  unfold Machine.inhibitWith
  refine trans ?_ (holdWith hrs n c _)
  refine (cutWindow hrs n s).trans ((cancelDecided n _).trans ?_)
  exact ite (refl _) (noteHalted n _)

/-! ### The safe state -/

theorem clearMarks (s : State) : Reacts s (clearMarks s) :=
  ite (eachCh _ _ fun n u => of_same (s := u) (t := u.modJnl n _) rfl rfl rfl) (refl s)

theorem startFlush (w : Bool) (s : State) : Reacts s (startFlush w s) := by
  have under (u : State) (x : Option (Nat × Bool)) : Reacts u { u with pwr := { u.pwr with flush := x } } := of_same rfl rfl rfl
  unfold Machine.startFlush
  split
  · exact under s _
  · refine (under s _).trans ((clearMarks _).trans (eachCh _ _ fun n u => ?_))
    exact put (f := F.CHn_LED_FLUSH_DONE n) u 0 (noRes_led n (a := 0x1060018) (by decide))

theorem heaterOff (n : Fin 16) (s : State) : Reacts s (heaterOff n s) := by
  have far : NoRes (A.THM_CHn_HTRSTAT n) := .of_far (.inl (by have := n.isLt; unfold A.THM_CHn_HTRSTAT; omega))
  unfold Machine.heaterOff
  dsimp only
  refine trans ?_ (of_same (s := (s.put (F.THM_CHn_HTRSTAT_DUTY n) 0).put (F.THM_CHn_HTRSTAT_FORCED0 n) 1) rfl rfl rfl)
  exact (put s 0 far).trans (put _ 1 far)

theorem stopAxis (a : Fin 4) (s : State) : Reacts s (stopAxis a s) := by
  have ha := a.isLt
  have far {x : Nat} (h : x < 0x80000) : NoRes x := .of_far (.inl (by omega))
  unfold Machine.stopAxis Machine.setTgt
  dsimp only
  have stat : NoRes (A.MOT_AXa_STAT a) := far (by unfold A.MOT_AXa_STAT; omega)
  refine trans ?_ (put (f := F.MOT_AXa_STAT_OBACK a) _ _ stat)
  refine trans ?_ (put (f := F.MOT_AXa_STAT_STOPPED a) _ _ stat)
  refine trans ?_ (put (f := F.MOT_AXa_TGT_HI_TGT_H a) _ _ (far (by simp only [F.MOT_AXa_TGT_HI_TGT_H, A.MOT_AXa_TGT_HI]; omega)))
  refine trans ?_ (put (f := F.MOT_AXa_TGT_LO_TGT_L a) _ _ (far (by simp only [F.MOT_AXa_TGT_LO_TGT_L, A.MOT_AXa_TGT_LO]; omega)))
  exact of_same rfl rfl rfl

theorem safeWith (hrs : ∀ e s, e < 512 → Reacts s (rs e s)) {c : Fld} (hc : NoRes c.addr) (s : State) : Reacts s (safeWith rs c s) := by
  unfold Machine.safeWith
  dsimp only
  refine ite (put s 1 hc) ?_
  refine trans ?_ (startFlush _ _)
  refine trans ?_ (hrs _ _ (by decide))
  refine trans ?_ (foldl _ _ (fun u a => ite (stopAxis a u) (refl u)) _)
  refine trans ?_ (eachCh _ _ fun n u => (inhibitWith hrs 2 n u).trans (heaterOff n _))
  refine trans ((put (f := F.FLT_SAFE_ACTIVE) s 1 (.of_far (by decide))).trans (put _ 1 hc)) ?_
  exact ite (put (f := F.WRK_CTRL_FETCH_EN) _ 0 (by decide +kernel)) (refl _)

/-! ### The collector -/

theorem logRaise (e v : Nat) (s : State) : Reacts s (logRaise e v s) := by
  have := Nat.mod_lt (s.get F.FLT_LOGCNT_COUNT) (show 0 < 64 by decide)
  have far {k : Nat} (hk : k < 16) : NoRes (0x20800 + 16 * (s.get F.FLT_LOGCNT_COUNT % 64) + k) := .of_far (.inl (by omega))
  unfold Machine.logRaise
  dsimp only
  exact (setWord s _ (far (k := 0) (by decide))).trans ((setWord _ _ (far (by decide))).trans
    ((setPair _ _ (far (by decide)) (far (by decide))).trans (put (f := F.FLT_LOGCNT_COUNT) _ _ (.of_far (by decide)))))

theorem latchLine (e v : Nat) (s : State) : Reacts s (latchLine e v s) := by
  have line : Reacts s (match lineOf e with
      | some i => s.put (lineFld i) 1
      | none => s) := by
    split
    · refine put s 1 (.of_far (.inl ?_))
      unfold lineFld
      split <;> simp [A.FLT_STAT_LO, A.FLT_STAT_HI]
    · exact refl s
  refine line.trans (ite (refl _) ?_)
  refine trans ?_ (setPair _ _ (.of_far (by decide)) (.of_far (by decide)))
  refine trans ?_ (put (f := F.FLT_FIRST_VALID) _ _ (.of_far (by decide)))
  exact (put (f := F.FLT_FIRST_SRC) _ _ (.of_far (by decide))).trans (put (f := F.FLT_FIRST_SEV) _ _ (.of_far (by decide)))

theorem reactTo (hrs : ∀ e s, e < 512 → Reacts s (rs e s)) (e v : Nat) (s : State) : Reacts s (reactTo rs e v s) := by
  have flt (f : Flt) : Reacts s { s with flt := f } := of_same rfl rfl rfl
  have safe : NoRes F.FLT_SAFE_SEV4.addr := .of_far (by decide)
  unfold Machine.reactTo
  split
  · exact refl s
  · refine ite ((flt _).trans (safeWith hrs safe _)) ?_
    split
    · exact refl s
    · exact ite (refl s) (ite ((flt _).trans (holdWith hrs ..)) (ite ((flt _).trans (inhibitWith hrs ..)) (refl s)))

theorem collect (hrs : ∀ e s, e < 512 → Reacts s (rs e s)) (e : Nat) (s : State) : Reacts s (collect rs e s) := by
  have noted : Reacts s (noteHalt e s) := ite (of_same rfl rfl rfl) (refl s)
  unfold Machine.collect
  dsimp only
  exact ite (refl s) (ite (noted.trans (logRaise ..)) ((noted.trans (logRaise ..)).trans ((latchLine ..).trans (reactTo hrs ..))))

theorem raiseN (k : Nat) : ∀ (e : Nat) (s : State), e < 512 → Reacts s (raiseN k e s) := by
  induction k with
  | zero => exact fun e s h => (evtRaise s h).trans (collect (fun _ u _ => refl u) e _)
  | succ k ih => exact fun e s h => (evtRaise s h).trans (collect ih e _)

/-- What a raise leaves of commands, of records due and of kept messages. -/
theorem raise (s : State) {e : Nat} (h : e < 512) : Reacts s (s.raise e) := raiseN 6 e s h

theorem raiseCh (s : State) (n : Fin 16) {k : Nat} (h : k < 24) : Reacts s (s.raiseCh n k) := raise s (RaiseFrame.chEvt_lt n h)

theorem hold (s : State) (n : Fin 16) (c : Nat) : Reacts s (s.hold n c) := holdWith (raiseN 6) n c s

end Reacts

end Sys2Proof.Machine

namespace Sys2Proof.Machine

/-! ## Link loss and return, Bus Master Enable, rejected writes (R55, R304, R305) -/

/-! ### Kept messages are sent -/

/-- One message that a function keeps is sent, or kept on. -/
def pbaSend (fn : Fin 2) (v : Nat) (s : State) : State :=
  if bit512 (s.host.pba.get fn) v then
    { s with host := { s.host with pba := s.host.pba.set fn (setBit512 (s.host.pba.get fn) v false) } }.msix fn v
  else s

theorem flushPba_eq (fn : Fin 2) (s : State) : flushPba fn s = (List.range 512).foldl (fun s v => pbaSend fn v s) s := by
  unfold flushPba
  rfl

/-- What sending kept messages of function fn leaves as it was: all but its PBA and the outputs, which grow. -/
structure Flushed (fn : Fin 2) (s t : State) : Prop where
  same : t = { s with host := { s.host with pba := t.host.pba }, out := t.out }
  out : s.out <:+ t.out
  other : ∀ g, g ≠ fn → t.host.pba.get g = s.host.pba.get g
  clear : ∀ v, v < 512 → s.host.open fn v → bit512 (s.host.pba.get fn) v = false → bit512 (t.host.pba.get fn) v = false

namespace Flushed

variable {fn : Fin 2} {s t u : State}

theorem refl (fn : Fin 2) (s : State) : Flushed fn s s := ⟨rfl, List.suffix_refl _, fun _ _ => rfl, fun _ _ _ h => h⟩

theorem host (h : Flushed fn s t) : { t.host with pba := s.host.pba } = s.host := by rw [h.same]

theorem same_trans {g : Fin 2} (h : Flushed fn s t) (k : Flushed g t u) :
    u = { s with host := { s.host with pba := u.host.pba }, out := u.out } := by rw [k.same, h.same]

theorem trans (h : Flushed fn s t) (k : Flushed fn t u) : Flushed fn s u where
  same := h.same_trans k
  out := h.out.trans k.out
  other g e := (k.other g e).trans (h.other g e)
  clear v b o c := k.clear v b (open_of_host h.host o) (h.clear v b o c)

end Flushed

/-- A message that is kept and whose vector is open is sent. -/
theorem msix_open {s : State} {fn : Fin 2} {v : Nat} (o : s.host.open fn v) : s.msix fn v = s.emit (.msix fn v) := by
  obtain ⟨free, clear, up, bme⟩ := o
  simp [State.msix, free, clear, up, bme]

/-- The message of vector v no longer waits. -/
def unkept (fn : Fin 2) (v : Nat) (s : State) : State :=
  { s with host := { s.host with pba := s.host.pba.set fn (setBit512 (s.host.pba.get fn) v false) } }

theorem unkept_open {fn : Fin 2} {v : Nat} {s : State} (o : s.host.open fn v) : (unkept fn v s).host.open fn v := o

theorem unkept_bit (fn : Fin 2) (v : Nat) (s : State) {i : Nat} (b : i < 512) :
    bit512 ((unkept fn v s).host.pba.get fn) i = (bit512 (s.host.pba.get fn) i && !decide (i = v)) := by
  simp only [unkept, vget_set_same, bit512_clear _ _ b]

theorem msix_bit (fn : Fin 2) (v : Nat) (s : State) {i : Nat} (b : i < 512) (e : i ≠ v) :
    bit512 ((s.msix fn v).host.pba.get fn) i = bit512 (s.host.pba.get fn) i := by
  unfold State.msix
  dsimp only
  split
  · simp only [vget_set_same, bit512_set _ _ b, e, decide_false, Bool.or_false]
  · rfl

/-- A message that is kept is sent where its vector is open; the others stay. -/
theorem pbaSend_sends (fn : Fin 2) (v : Nat) (s : State) :
    (∀ i, i < 512 → i ≠ v → bit512 ((pbaSend fn v s).host.pba.get fn) i = bit512 (s.host.pba.get fn) i) ∧
    (v < 512 → s.host.open fn v → bit512 ((pbaSend fn v s).host.pba.get fn) v = false ∧
      (bit512 (s.host.pba.get fn) v = true → .msix fn v ∈ (pbaSend fn v s).out)) := by
  by_cases kept : bit512 (s.host.pba.get fn) v = true
  · have moved : pbaSend fn v s = (unkept fn v s).msix fn v := if_pos kept
    rw [moved]
    refine ⟨fun i b e => ?_, fun b o => ?_⟩
    · rw [msix_bit fn v _ b e, unkept_bit fn v s b, decide_eq_false e, Bool.not_false, Bool.and_true]
    · rw [msix_open (unkept_open o)]
      refine ⟨(unkept_bit fn v s b).trans ?_, fun _ => List.mem_cons_self⟩
      rw [decide_eq_true rfl, Bool.not_true, Bool.and_false]
  · have idle : pbaSend fn v s = s := if_neg kept
    rw [idle]
    exact ⟨fun _ _ _ => rfl, fun _ _ => ⟨by simpa using kept, fun k => absurd k kept⟩⟩

theorem msix_same (s : State) (fn : Fin 2) (v : Nat) :
    s.msix fn v = { s with host := { s.host with pba := (s.msix fn v).host.pba }, out := (s.msix fn v).out } := by
  unfold State.msix
  dsimp only
  split
  · rfl
  · rfl

theorem msix_other (s : State) (fn : Fin 2) (v : Nat) {g : Fin 2} (e : g ≠ fn) :
    (s.msix fn v).host.pba.get g = s.host.pba.get g := by
  unfold State.msix
  dsimp only
  split
  · exact vget_set_ne _ _ e
  · rfl

theorem pbaSend_flushed (fn : Fin 2) (v : Nat) (s : State) : Flushed fn s (pbaSend fn v s) where
  same := by
    unfold pbaSend
    split
    · exact msix_same (unkept fn v s) fn v
    · rfl
  out := by
    unfold pbaSend
    split
    · exact (RaiseFrame.msix (unkept fn v s) fn v).out
    · exact List.suffix_refl _
  other g e := by
    unfold pbaSend
    split
    · exact (msix_other (unkept fn v s) fn v e).trans (vget_set_ne _ _ e)
    · rfl
  clear i b o c := by
    obtain ⟨stay, sent⟩ := pbaSend_sends fn v s
    by_cases e : i = v
    · subst e
      exact (sent b o).1
    · exact (stay i b e).trans c

/-- What sending kept messages leaves, in a fold over vectors. -/
theorem pbaSend_foldl_flushed (fn : Fin 2) (l : List Nat) (s : State) : Flushed fn s (l.foldl (fun s v => pbaSend fn v s) s) := by
  induction l generalizing s with
  | nil => exact .refl fn s
  | cons v l ih => exact (pbaSend_flushed fn v s).trans (ih _)

/-- The messages of a list of vectors are sent where they are kept and their vectors open. -/
theorem pbaSend_foldl_sends {fn : Fin 2} {v : Nat} (b : v < 512) (l : List Nat) (s : State) (m : v ∈ l) (o : s.host.open fn v) :
    bit512 ((l.foldl (fun s v => pbaSend fn v s) s).host.pba.get fn) v = false ∧
    (bit512 (s.host.pba.get fn) v = true → .msix fn v ∈ (l.foldl (fun s v => pbaSend fn v s) s).out) := by
  induction l generalizing s with
  | nil => cases m
  | cons a l ih =>
    obtain ⟨stay, sent⟩ := pbaSend_sends fn a s
    have o' := open_of_host (pbaSend_flushed fn a s).host o
    rw [List.foldl_cons]
    by_cases e : v = a
    · subst e
      obtain ⟨clear, out⟩ := sent b o
      have rest := pbaSend_foldl_flushed fn l (pbaSend fn v s)
      exact ⟨rest.clear v b o' clear, fun k => rest.out.subset (out k)⟩
    · obtain ⟨clear, out⟩ := ih _ (by simpa [e] using m) o'
      exact ⟨clear, fun k => out ((stay v b e).trans k)⟩

theorem flushPba_flushed (fn : Fin 2) (s : State) : Flushed fn s (flushPba fn s) := by
  rw [flushPba_eq]
  exact pbaSend_foldl_flushed fn _ s

theorem flushPba_sends {fn : Fin 2} {v : Nat} {s : State} (b : v < 512) (o : s.host.open fn v) :
    bit512 ((flushPba fn s).host.pba.get fn) v = false ∧
    (bit512 (s.host.pba.get fn) v = true → .msix fn v ∈ (flushPba fn s).out) := by
  rw [flushPba_eq]
  exact pbaSend_foldl_sends b _ s (List.mem_range.2 b) o

/-! ### What the return of DMA leaves -/

/-- What the return of DMA leaves of the host's side: messages for open vectors are not kept again, and what was sent or is pending
stays so. -/
structure HostKept (s t : State) : Prop where
  host : { t.host with pba := s.host.pba } = s.host
  out : s.out <:+ t.out
  pba : ∀ fn v, v < 512 → s.host.open fn v → bit512 (s.host.pba.get fn) v = false → bit512 (t.host.pba.get fn) v = false
  pend : ∀ e, e < 512 → s.flag (pendFld e) = true → t.flag (pendFld e) = true

namespace HostKept

variable {s t u : State}

theorem refl (s : State) : HostKept s s := ⟨rfl, List.suffix_refl _, fun _ _ _ _ h => h, fun _ _ h => h⟩

theorem trans (h : HostKept s t) (k : HostKept t u) : HostKept s u where
  host := by rw [← h.host, ← k.host]
  out := h.out.trans k.out
  pba fn v b o c := k.pba fn v b (open_of_host h.host o) (h.pba fn v b o c)
  pend e b p := k.pend e b (h.pend e b p)

theorem linkUp (h : HostKept s t) : t.host.linkUp = s.host.linkUp := by rw [← h.host]
theorem wasUp (h : HostKept s t) : t.host.wasUp = s.host.wasUp := by rw [← h.host]
theorem bme (h : HostKept s t) : t.host.bme = s.host.bme := by rw [← h.host]

theorem raise (s : State) {e : Nat} (h : e < 512) : HostKept s (s.raise e) :=
  ⟨(Reacts.raise s h).host, (RaiseFrame.raise s h).out, (Reacts.raise s h).pba, (RaiseFrame.raise s h).pend⟩

theorem of_flushed {fn : Fin 2} (h : Flushed fn s t) : HostKept s t where
  host := h.host
  out := h.out
  pba g v b o c := by
    by_cases e : g = fn
    · subst e
      exact h.clear v b o c
    · rw [h.other g e]
      exact c
  pend e _ p := by
    rw [h.same]
    exact p

theorem postRecord (n : Fin 16) (r : DueRec) (s : State) : HostKept s (postRecord n r s) where
  host := rfl
  out := List.suffix_cons _ _
  pba _ _ _ _ c := c
  pend e b p := by
    have other : (pendFld e).addr ≠ A.WRK_CMPn_TAIL n := by
      simp only [pendFld, A.EVT_PENDw, A.WRK_CMPn_TAIL]
      omega
    exact (State.flag_of_word (postRecord_word n r s other)).trans p

theorem postReposts (n : Fin 16) (k : Nat) (s : State) : HostKept s (postReposts n k s) := by
  induction k generalizing s with
  | zero => exact refl s
  | succ k ih =>
    have retire := RaiseFrame.chEvt_lt n (k := 0) (by decide)
    have full := RaiseFrame.chEvt_lt n (k := 5) (by decide)
    unfold Machine.postReposts
    split
    next r rest _ =>
      have taken : HostKept s (dueTaken n rest s) := ⟨rfl, List.suffix_refl _, fun _ _ _ _ c => c, fun _ _ p => p⟩
      have posted : HostKept s (Machine.postRecord n r (dueTaken n rest s)) := taken.trans (postRecord n r _)
      dsimp only
      split
      · refine trans ?_ (ih _)
        split
        · exact posted.trans (raise _ retire)
        · exact posted
      · split
        · exact raise s full
        · exact refl s
    next => exact refl s

theorem foldl {α : Type} (l : List α) (f : State → α → State) (h : ∀ s a, HostKept s (f s a)) (s : State) : HostKept s (l.foldl f s) := by
  induction l generalizing s with
  | nil => exact refl s
  | cons a l ih => exact (h s a).trans (ih _)

end HostKept

/-- Bus Master Enable stands. -/
def mastered (s : State) : State := { s with host := { s.host with bme := true } }

/-- Messages sent change no channel. -/
theorem State.ch_of_sent {s t : State} {h : Endpoint} {o : List Output} (same : t = { s with host := h, out := o }) (n : Fin 16) :
    t.ch n = s.ch n := by
  subst same
  rfl

theorem State.sent_mastered {s t : State} {h : Endpoint} {o : List Output} (same : t = { mastered s with host := h, out := o }) :
    t = { s with host := t.host, out := t.out } := by
  subst same
  rfl

/-- Both functions' kept messages have been sent. -/
@[irreducible] def flushBoth (s : State) : State := flushPba 1 (flushPba 0 s)

theorem dmaBack_eq (s : State) : dmaBack s = (flushBoth s).eachCh fun n s => postReposts n (s.ch n).work.due.length s := by
  unfold dmaBack flushBoth
  rfl

theorem flushBoth_same (s : State) : flushBoth s =
    { s with host := { s.host with pba := (flushBoth s).host.pba }, out := (flushBoth s).out } := by
  unfold flushBoth
  exact (flushPba_flushed 0 s).same_trans (flushPba_flushed 1 _)

theorem flushBoth_ch (s : State) (n : Fin 16) : (flushBoth s).ch n = s.ch n := State.ch_of_sent (flushBoth_same s) n

theorem flushBoth_kept (s : State) : HostKept s (flushBoth s) := by
  unfold flushBoth
  exact (HostKept.of_flushed (flushPba_flushed 0 s)).trans (.of_flushed (flushPba_flushed 1 _))

/-- What was kept for open vectors of both functions has been sent. -/
theorem flushBoth_sends {fn : Fin 2} {v : Nat} {s : State} (b : v < 512) (o : s.host.open fn v) :
    bit512 ((flushBoth s).host.pba.get fn) v = false ∧ (bit512 (s.host.pba.get fn) v = true → .msix fn v ∈ (flushBoth s).out) := by
  have zero := flushPba_flushed 0 s
  have one := flushPba_flushed 1 (flushPba 0 s)
  have sent0 (o : s.host.open 0 v) := flushPba_sends b o
  have sent1 (o : (flushPba 0 s).host.open 1 v) := flushPba_sends b o
  unfold flushBoth
  generalize flushPba 0 s = u at *
  generalize flushPba 1 u = t at *
  obtain rfl | rfl : fn = 0 ∨ fn = 1 := by omega
  · obtain ⟨clear, out⟩ := sent0 o
    rw [one.other 0 (by decide)]
    exact ⟨clear, fun k => one.out.subset (out k)⟩
  · obtain ⟨clear, out⟩ := sent1 (open_of_host zero.host o)
    rw [zero.other 1 (by decide)] at out
    exact ⟨clear, out⟩

theorem dmaBack_kept (s : State) : HostKept (flushBoth s) (dmaBack s) := by
  rw [dmaBack_eq]
  exact HostKept.foldl _ _ (fun u n => HostKept.postReposts n _ u) _

/-- What was kept has been sent when DMA has come back. -/
theorem dmaBack_keptSent {s u : State} {fn : Fin 2}
    (host : { u.host with linkUp := s.host.linkUp, wasUp := s.host.wasUp, bme := s.host.bme } = s.host)
    (up : u.host.linkUp = true) (bme : u.host.bme = true) (free : u.host.held fn = false)
    {t : State} (h : HostKept (flushBoth u) t) : keptSent fn s t := by
  intro v b unmasked
  rw [← host] at unmasked ⊢
  have o : u.host.open fn v := ⟨free, unmasked, up, bme⟩
  obtain ⟨clear, out⟩ := flushBoth_sends b o
  exact ⟨h.pba fn v b (open_of_host (flushBoth_kept u).host o) clear, fun k => h.out.subset (out k)⟩

/-! ### The link and Bus Master Enable -/

theorem exec_pcieLinkDown (s : State) : exec .pcieLinkDown s = .next { s with host := { s.host with linkUp := false } } := rfl
theorem exec_pcieLinkUp (s : State) : exec .pcieLinkUp s = execPcieLinkUp s := rfl
theorem exec_busMasterEnable (on : Bool) (s : State) : exec (.busMasterEnable on) s = execBusMasterEnable on s := rfl

/-- The link stands. -/
def linked (s : State) : State := { s with host := { s.host with linkUp := true, wasUp := true } }

theorem pcieLinkUp_returns {s : State} (on : s.domOn 0 = true) (down : s.host.linkUp = false) :
    does .pcieLinkUp s fun t => t.host.linkUp ∧ t.host.wasUp ∧ (s.host.wasUp → t.flag (pendFld 126)) ∧
      (!s.host.wasUp → s.host.bme → ∀ fn, !s.host.held fn → keptSent fn s t) := by
  have meaning : exec .pcieLinkUp s = .next (dmaBack (if s.host.wasUp then (linked s).raise 126 else linked s)) := by
    simp [exec_pcieLinkUp, execPcieLinkUp, on, down, linked]
  have raised : HostKept (linked s) (if s.host.wasUp then (linked s).raise 126 else linked s) := by
    split
    · exact .raise _ (by decide)
    · exact .refl _
  have back (u : State) : HostKept u (dmaBack u) := (flushBoth_kept u).trans (dmaBack_kept u)
  have kept := raised.trans (back _)
  have err : s.host.wasUp = true → (dmaBack ((linked s).raise 126)).flag (pendFld 126) = true := fun _ =>
    (back _).pend 126 (by decide) (raise_pending (linked s) (by decide) on)
  have sent (bme : s.host.bme = true) (fn : Fin 2) (free : s.host.held fn = false) : keptSent fn s (dmaBack (linked s)) :=
    dmaBack_keptSent (u := linked s) rfl rfl bme free (dmaBack_kept _)
  refine does_of meaning ⟨kept.linkUp.trans rfl, kept.wasUp.trans rfl, fun was => ?_, fun first bme fn free => ?_⟩
  · rw [if_pos was]
    exact err was
  · have new : ¬ s.host.wasUp = true := by simpa using first
    rw [if_neg new]
    exact sent bme fn (Bool.eq_false_of_not_eq_true' free)

theorem exec_busMasterEnable_on {s : State} (on : s.domOn 0 = true) : exec (.busMasterEnable true) s = .next (dmaBack (mastered s)) := by
  simp [exec_busMasterEnable, execBusMasterEnable, on, setBme, mastered]

theorem busMasterEnable_clears {s : State} (on : s.domOn 0 = true) : does (.busMasterEnable false) s fun t =>
    t.host = { s.host with bme := false } ∧ t = { s with host := t.host } :=
  ⟨{ s with host := { s.host with bme := false } }, by simp [exec_busMasterEnable, execBusMasterEnable, on, setBme], rfl, rfl⟩

/-- With no record to be posted again, the return of DMA only sends messages. -/
theorem dmaBack_none {s : State} (none : ∀ n, ((s.ch n).work.due.all fun r => !r.repost) = true) : dmaBack s = flushBoth s := by
  rw [dmaBack_eq]
  refine State.eachCh_idle fun n => postReposts_none _ ?_
  rw [flushBoth_ch]
  exact none n

theorem busMasterEnable_sends {s : State} (on : s.domOn 0 = true) (up : s.host.linkUp = true)
    (none : ∀ n, ((s.ch n).work.due.all fun r => !r.repost) = true) : does (.busMasterEnable true) s fun t => t.host.bme ∧
      t = { s with host := t.host, out := t.out } ∧ ∀ fn, !s.host.held fn → keptSent fn s t := by
  refine does_of (exec_busMasterEnable_on on) ?_
  rw [dmaBack_none (s := mastered s) none]
  refine ⟨(flushBoth_kept (mastered s)).bme, ?_, fun fn free => ?_⟩
  · exact State.sent_mastered (flushBoth_same (mastered s))
  · exact dmaBack_keptSent (u := mastered s) rfl up rfl (Bool.eq_false_of_not_eq_true' free) (.refl _)

/-! ### A record that is posted again -/

/-- The record posted again, with RETIRE where it is due. -/
def posted (n : Fin 16) (r : DueRec) (s : State) : State :=
  if r.irq || r.status != 0 then (postRecord n r s).raiseCh n 0 else postRecord n r s

theorem posted_frame (n : Fin 16) (r : DueRec) (s : State) : RaiseFrame (postRecord n r s) (posted n r s) := by
  unfold posted
  split
  · exact RaiseFrame.raiseCh _ n (by decide)
  · exact .refl _

theorem posted_due (n : Fin 16) (r : DueRec) (s : State) (k : Fin 16) : ((posted n r s).ch k).work.due = (s.ch k).work.due := by
  have react : Reacts (postRecord n r s) (posted n r s) := Reacts.ite (Reacts.raiseCh _ n (by decide)) (.refl _)
  rw [react.due k]
  by_cases e : k = n
  · subst e
    rw [postRecord_work]
  · rw [postRecord_chBut n r s k e]

theorem postReposts_one {n : Fin 16} {r : DueRec} {s : State} (due : (s.ch n).work.due = [r]) (again : r.repost = true)
    (room : s.canPost n = true) : postReposts n 1 s = posted n r (dueTaken n [] s) := by
  simp only [postReposts, due, again, room, Bool.and_true, if_true]
  rfl

/-- With one record to be posted again, the return of DMA sends messages and writes it. -/
theorem dmaBack_one {n : Fin 16} {r : DueRec} {s : State} (due : (s.ch n).work.due = [r]) (again : r.repost = true)
    (others : ∀ k, k ≠ n → (s.ch k).work.due = []) (room : (flushBoth s).canPost n = true) :
    dmaBack s = posted n r (dueTaken n [] (flushBoth s)) := by
  have due' : ((flushBoth s).ch n).work.due = [r] := by rw [flushBoth_ch, due]
  have others' (k : Fin 16) (e : k ≠ n) : ((flushBoth s).ch k).work.due = [] := by rw [flushBoth_ch, others k e]
  rw [dmaBack_eq]
  generalize flushBoth s = u at *
  have idle {m : Fin 16} {x : State} (none : (x.ch m).work.due = []) : postReposts m (x.ch m).work.due.length x = x := by
    rw [none]
    rfl
  refine State.eachCh_at (P := fun x => x = u) (Q := fun x => x = posted n r (dueTaken n [] u)) n (fun m x e h => ?_) (fun x h => ?_)
    (fun m x e h => ?_) rfl
  · exact (idle (h ▸ others' m e)).trans h
  · subst h
    rw [due']
    exact postReposts_one due' again room
  · refine (idle ?_).trans h
    rw [h, posted_due]
    simpa [dueTaken, State.modWork, e] using others' m e

theorem State.canPost_of_sent {s t : State} {b : Vector (BitVec 512) 2} {o : List Output}
    (same : t = { s with host := { s.host with pba := b }, out := o }) (n : Fin 16) : t.canPost n = s.canPost n := by
  subst same
  rfl

theorem State.word_of_sent {s t : State} {h : Endpoint} {o : List Output} (same : t = { s with host := h, out := o }) (a : Nat) :
    t.word a = s.word a := by
  subst same
  rfl

theorem ch_dueTaken (n : Fin 16) (rest : List DueRec) (s : State) :
    ((dueTaken n rest s).ch n).work = { (s.ch n).work with due := rest } := by simp [dueTaken]

theorem posted_written {s u : State} {n : Fin 16} {r : DueRec} (ch : u.ch n = s.ch n)
    (word : u.word (A.WRK_CMPn_TAIL n) = s.word (A.WRK_CMPn_TAIL n)) : s.recWritten (posted n r (dueTaken n [] u)) n r := by
  have ring : ((dueTaken n [] u).ch n).work = { (s.ch n).work with due := [] } := by rw [ch_dueTaken, ch]
  exact recWritten_of_frame (u := dueTaken n [] u) (by rw [ring]; exact ⟨rfl, rfl⟩) word (posted_frame n r (dueTaken n [] u))

theorem busMasterEnable_reposts {s : State} {n : Fin 16} {r : DueRec} (on : s.domOn 0 = true) (due : (s.ch n).work.due = [r])
    (again : r.repost = true) (others : ∀ k, k ≠ n → (s.ch k).work.due = []) (room : (mastered s).canPost n = true) :
    does (.busMasterEnable true) s fun t => s.recWritten t n r ∧ (t.ch n).work.due = [] ∧ t.host.bme := by
  have same := flushBoth_same (mastered s)
  have all := dmaBack_one (s := mastered s) due again others ((State.canPost_of_sent same n).trans room)
  have kept := (flushBoth_kept (mastered s)).trans (dmaBack_kept (mastered s))
  have ch := flushBoth_ch (mastered s) n
  have word := State.word_of_sent same (A.WRK_CMPn_TAIL n)
  refine does_of (exec_busMasterEnable_on on) ⟨?_, ?_, kept.bme⟩
  · rw [all]
    exact posted_written ch word
  · rw [all, posted_due, ch_dueTaken]

/-! ### A rejected write -/

/-- An error logged changes the configuration space alone, and of the state it reads nothing else. -/
theorem aerSet_congr (fn : Fin 2) (cor : Bool) (bit : Nat) {s t : State} (h : t.host = s.host) :
    aerSet fn cor bit t = { t with host := (aerSet fn cor bit s).host } := by
  have first : t.cfgStored fn 0x104 = s.cfgStored fn 0x104 := by simp only [State.cfgStored, h]
  unfold aerSet
  rw [first]
  cases cor with
  | true => simp only [if_true, cfgStore, State.cfgStored, h]
  | false =>
    simp only [Bool.false_eq_true, if_false]
    cases s.cfgStored fn 0x104 == 0 with
    | true => simp only [if_true, cfgStore, State.cfgStored, h]
    | false => simp only [Bool.false_eq_true, if_false, cfgStore, State.cfgStored, h]

theorem aerLog_on {fn : Fin 2} {cor : Bool} {bit : Nat} {s : State} (on : s.domOn 0 = true) :
    aerLog fn cor bit s = (aerSet fn cor bit s).raise 126 := if_pos on

theorem exec_ringWriteRejected (x : Fin 19) (s : State) : exec (.ringWriteRejected x) s = execRingWriteRejected x s := rfl

/-- HOST_ERR is raised of a rejected write that the AER logs. -/
theorem aerSet_hostErr {s : State} (on : s.domOn 0 = true) (fn : Fin 2) (cor : Bool) (bit : Nat) :
    hostErr (aerSet fn cor bit s) ((aerSet fn cor bit s).raise 126) := by
  refine ⟨raise_pending _ (by decide) ?_, (RaiseFrame.raise _ (by decide)).calm⟩
  rw [aerSet_congr fn cor bit rfl]
  exact on

/-- The record a is to be written again. -/
def rewriting (n : Fin 16) (a : Nat) (bs : List Byte) (k : Nat) (s : State) : State :=
  s.modWork n fun w => { w with rewrite := some (a, bs, k) }

theorem rewriting_work (n : Fin 16) (a : Nat) (bs : List Byte) (k : Nat) (s : State) :
    ((rewriting n a bs k s).ch n).work.rewrite = some (a, bs, k) := by simp [rewriting]

theorem ringWriteRejected_keeps {s : State} {n : Fin 16} {x : Fin 19} {a : Nat} {bs : List Byte} (on : s.domOn 0 = true)
    (ring : x.val = n.val) (last : (s.ch n).work.lastRec = some (a, bs)) (new : (s.ch n).work.rewrite = none) :
    does (.ringWriteRejected x) s fun t => (t.ch n).work.rewrite = some (a, bs, s.tick) ∧ hostErr (aerSet 0 false 20 s) t := by
  have which : chOf x.val = some n := by simp [chOf, ring]
  obtain ⟨err, quiets⟩ := aerSet_hostErr on 0 false 20
  have meaning : exec (.ringWriteRejected x) s = .next (rewriting n a bs s.tick ((aerSet 0 false 20 s).raise 126)) := by
    simp [exec_ringWriteRejected, execRingWriteRejected, aerLog_on on, which, last, new, rewriting]
  exact does_of meaning ⟨rewriting_work .., err, quiets.trans (Calm.work _ n _)⟩

/-! ### A rejected tap record -/

theorem tap_quiet (p : Fin 2) : quiet (A.INS_Pp_TAPTAIL p) = true ∧ quiet (A.INS_Pp_CNT2 p) = true ∧ quiet (A.INS_Pp_TAPSIZE p) = true := by
  revert p
  decide +kernel

/-- TAIL of port p back before the last record, the drop counted. -/
def tapUndone (p : Fin 2) (s : State) : State :=
  ((s.put (F.INS_Pp_TAPTAIL_TAIL p) ((s.get (F.INS_Pp_TAPTAIL_TAIL p) + 4095) % 2 ^ s.get (F.INS_Pp_TAPSIZE_LOG2 p))).put
    (F.INS_Pp_TAPTAIL_PHASE p) (b2n (if s.get (F.INS_Pp_TAPTAIL_TAIL p) = 0 then !s.flag (F.INS_Pp_TAPTAIL_PHASE p)
      else s.flag (F.INS_Pp_TAPTAIL_PHASE p)))).bump (F.INS_Pp_CNT2_TAPDROP p) 1

theorem tapRejected_eq {p : Fin 2} {f : Nat} {s : State} (on : s.domOn 6 = true) (last : (s.cam p).tapFrame = some f) :
    tapRejected p s = camEvent p 75 f (tapUndone p s) := by
  simp only [tapRejected, on, last]
  rfl

theorem tapUndone_word (p : Fin 2) (s : State) {a : Nat} (tail : a ≠ A.INS_Pp_TAPTAIL p) (cnt : a ≠ A.INS_Pp_CNT2 p) :
    (tapUndone p s).word a = s.word a := by
  unfold tapUndone State.bump
  rw [State.word_put_ne _ _ cnt, State.word_put_ne _ _ tail, State.word_put_ne _ _ tail]

theorem tap_apart (p : Fin 2) : A.INS_Pp_TAPTAIL p ≠ A.INS_Pp_CNT2 p := by
  unfold A.INS_Pp_TAPTAIL A.INS_Pp_CNT2
  omega

theorem tapUndone_tail (p : Fin 2) (s : State) : (tapUndone p s).get (F.INS_Pp_TAPTAIL_TAIL p) =
    (s.get (F.INS_Pp_TAPTAIL_TAIL p) + 4095) % 2 ^ s.get (F.INS_Pp_TAPSIZE_LOG2 p) % 2 ^ 12 := by
  unfold tapUndone State.bump
  rw [State.get_put_ne _ _ (tap_apart p), State.get_put_other _ _ (.inr (by simp [F.INS_Pp_TAPTAIL_TAIL, F.INS_Pp_TAPTAIL_PHASE]))]
  exact State.get_put_same _ _ (by simp [F.INS_Pp_TAPTAIL_TAIL])

theorem tapUndone_drop (p : Fin 2) (s : State) : bumps (F.INS_Pp_CNT2_TAPDROP p) 65535 s (tapUndone p s) := by
  unfold bumps tapUndone State.bump
  rw [State.get_put_same _ _ (by simp [F.INS_Pp_CNT2_TAPDROP]), State.get_put_ne _ _ (tap_apart p).symm,
    State.get_put_ne _ _ (tap_apart p).symm]
  simp only [F.INS_Pp_CNT2_TAPDROP]
  omega

/-- An event of a frame is raised, or has been. -/
theorem camEvent_frame (p : Fin 2) (f : Nat) (s : State) : ∃ u, RaiseFrame u (camEvent p 75 f s) ∧ u.bar = s.bar ∧
    ((s.cam p).raised.contains (75, f) = false → s.domOn 0 = true → (camEvent p 75 f s).flag (pendFld 75) = true) := by
  unfold camEvent
  by_cases known : (s.cam p).raised.contains (75, f) = true
  · rw [if_pos known]
    exact ⟨s, .refl s, rfl, fun new => absurd (known.symm.trans new) (by decide)⟩
  · rw [if_neg known]
    exact ⟨_, RaiseFrame.raise _ (by decide), rfl, fun _ on => raise_pending _ (by decide) on⟩

theorem ringWriteRejected_drops {s : State} {p : Fin 2} {x : Fin 19} {f : Nat} (on : s.domOn 0 = true) (port : x.val = 16 + p.val)
    (ins : s.domOn 6 = true) (last : (s.cam p).tapFrame = some f) : does (.ringWriteRejected x) s fun t =>
      bumps (F.INS_Pp_CNT2_TAPDROP p) 65535 s t ∧ t.flag (pendFld 126) ∧ t.get (F.INS_Pp_TAPTAIL_TAIL p) =
        (s.get (F.INS_Pp_TAPTAIL_TAIL p) + 4095) % 2 ^ s.get (F.INS_Pp_TAPSIZE_LOG2 p) % 2 ^ 12 ∧
        ((s.cam p).raised.contains (75, f) = false → t.flag (pendFld 75)) := by
  obtain ⟨tailQ, cntQ, sizeQ⟩ := tap_quiet p
  obtain ⟨err, calmly⟩ := aerSet_hostErr on 0 false 20
  have logged := aerSet_congr (t := s) 0 false 20 rfl
  have meaning : exec (.ringWriteRejected x) s = .next (tapRejected p ((aerSet 0 false 20 s).raise 126)) := by
    have p01 : p = 0 ∨ p = 1 := by omega
    rw [exec_ringWriteRejected, execRingWriteRejected, aerLog_on on]
    simp only [port]
    rcases p01 with rfl | rfl
    · rfl
    · rfl
  have frame := RaiseFrame.raise (aerSet 0 false 20 s) (e := 126) (by decide)
  generalize (aerSet 0 false 20 s).raise 126 = v at meaning err frame
  have word {a : Nat} (q : quiet a = true) : v.word a = s.word a := (frame.word a q).trans (by rw [logged]; rfl)
  have cam : v.cam p = s.cam p := by
    simp only [State.cam, frame.ins]
    rw [logged]
  have dom (d : Nat) : v.domOn d = s.domOn d := (frame.domOn d).trans (by rw [logged]; rfl)
  rw [tapRejected_eq ((dom 6).trans ins) ((congrArg CamPort.tapFrame cam).trans last)] at meaning
  obtain ⟨u, raised, bar, told⟩ := camEvent_frame p f (tapUndone p v)
  have read (g : Fld) : u.get g = (tapUndone p v).get g := by simp only [State.get, State.word, bar]
  have tail : v.get (F.INS_Pp_TAPTAIL_TAIL p) = s.get (F.INS_Pp_TAPTAIL_TAIL p) := State.get_of_word (word tailQ)
  have size : v.get (F.INS_Pp_TAPSIZE_LOG2 p) = s.get (F.INS_Pp_TAPSIZE_LOG2 p) := State.get_of_word (word sizeQ)
  have drop : v.get (F.INS_Pp_CNT2_TAPDROP p) = s.get (F.INS_Pp_CNT2_TAPDROP p) := State.get_of_word (word cntQ)
  have far (e : Nat) (h : e < 512) : (pendFld e).addr ≠ A.INS_Pp_TAPTAIL p ∧ (pendFld e).addr ≠ A.INS_Pp_CNT2 p := by
    simp only [pendFld, A.EVT_PENDw, A.INS_Pp_TAPTAIL, A.INS_Pp_CNT2]
    omega
  refine does_of meaning ⟨?_, raised.pend 126 (by decide) ?_, ?_, fun new => told ?_ ?_⟩
  · have counted := tapUndone_drop p v
    unfold bumps at counted ⊢
    rw [raised.get (f := F.INS_Pp_CNT2_TAPDROP p) cntQ, read, counted, drop]
  · obtain ⟨a, b⟩ := far 126 (by decide)
    have same : (tapUndone p v).flag (pendFld 126) = v.flag (pendFld 126) := State.flag_of_word (tapUndone_word p v a b)
    have kept : u.flag (pendFld 126) = (tapUndone p v).flag (pendFld 126) := by simp only [State.flag, read]
    rw [kept, same]
    exact err
  · rw [raised.get (f := F.INS_Pp_TAPTAIL_TAIL p) tailQ, read, tapUndone_tail, tail, size]
  · exact (congrArg (fun c : CamPort => c.raised.contains (75, f)) cam).trans new
  · refine (State.domOn_zero_of_word (tapUndone_word p v ?_ ?_)).trans ((dom 0).trans on)
    · simp only [A.SYS_DOMSTAT_LO, A.INS_Pp_TAPTAIL]
      omega
    · simp only [A.SYS_DOMSTAT_LO, A.INS_Pp_CNT2]
      omega

/-! ### A record written again after a rejection -/

theorem exec_completionRewrite (n : Fin 16) (ok : Bool) (s : State) : exec (.completionRewrite n ok) s = execCompletionRewrite n ok s := rfl

theorem completionRewrite_accepted {s : State} {n : Fin 16} {a x : Nat} {bs : List Byte}
    (waits : (s.ch n).work.rewrite = some (a, bs, x)) (up : s.dmaUp = true) (due : x + 10 * usTicks ≤ s.tick)
    (empty : (s.ch n).work.due = []) : does (.completionRewrite n true) s fun t => (t.ch n).work.rewrite = none ∧
      t.out = .hostWrite a bs :: s.out ∧ onlyCh n { s with out := t.out } t := by
  have meaning : exec (.completionRewrite n true) s =
      .next ((s.emit (.hostWrite a bs)).modWork n fun w => { w with rewrite := none }) := by
    rw [exec_completionRewrite, execCompletionRewrite]
    simp only [waits, up, due, empty, and_self, if_true, List.length_nil]
    rfl
  exact does_of meaning ⟨by simp, rfl, onlyCh_modCh (s.emit (.hostWrite a bs)) n _⟩

theorem completionRewrite_rejected {s : State} {n : Fin 16} {a x : Nat} {bs : List Byte}
    (waits : (s.ch n).work.rewrite = some (a, bs, x)) (up : s.dmaUp = true) (due : x + 10 * usTicks ≤ s.tick) :
    does (.completionRewrite n false) s fun t => (t.ch n).work.rewrite = some (a, bs, s.tick) ∧ .hostWrite a bs ∈ t.out ∧
      hostErr (aerSet 0 false 20 s) t := by
  have on : s.domOn 0 = true := State.dmaUp_host up
  generalize hu : rewriting n a bs s.tick (s.emit (.hostWrite a bs)) = u
  have meaning : exec (.completionRewrite n false) s = .next ((aerSet 0 false 20 u).raise 126) := by
    rw [exec_completionRewrite, execCompletionRewrite]
    simp only [waits, up, due, and_self, if_true, Bool.false_eq_true, if_false]
    subst hu
    exact congrArg Host.Outcome.next (aerLog_on on)
  have onU : u.domOn 0 = true := hu ▸ on
  have host : u.host = s.host := hu ▸ rfl
  obtain ⟨err, calmly⟩ := aerSet_hostErr onU 0 false 20
  have frame := RaiseFrame.raise (aerSet 0 false 20 u) (e := 126) (by decide)
  have logged := aerSet_congr 0 false 20 host
  have logged' := aerSet_congr (t := s) 0 false 20 rfl
  have work := frame.workField n Work.rewrite fun _ _ _ _ _ _ _ _ _ => rfl
  refine does_of meaning ⟨work.trans ?_, frame.mem_out ?_, err, Calm.trans ?_ calmly⟩
  · rw [logged, ← hu]
    exact rewriting_work ..
  · rw [logged, ← hu]
    exact List.mem_cons_self
  · rw [logged, logged']
    have calmW : calm s u := hu ▸ (Calm.emit s _).trans (Calm.work _ n _)
    exact { calmW with host := rfl }

/-- Settles O45: link and bus mastering, the rejected write of a record and of a tap record, the writing again. -/
theorem linkAndHostErrors : Obligations.LinkAndHostErrors := by
  unfold Obligations.LinkAndHostErrors
  intro s
  refine ⟨⟨_, exec_pcieLinkDown s, rfl, rfl⟩, fun on => ⟨fun down => pcieLinkUp_returns on (by simpa using down),
    busMasterEnable_clears on, busMasterEnable_sends on, fun n r up due again others room =>
      busMasterEnable_reposts on due again others room, fun n x a bs => ringWriteRejected_keeps on,
    fun p x f => ringWriteRejected_drops on⟩, fun n a x bs waits => ⟨fun up due =>
      ⟨completionRewrite_accepted waits up due, completionRewrite_rejected waits up due⟩, fun early => ?_⟩⟩
  have late : ¬ (s.dmaUp = true ∧ x + 10 * usTicks ≤ s.tick) := fun h => by omega
  unfold idles
  rw [exec_completionRewrite, execCompletionRewrite]
  simp only [waits, if_neg late]

end Sys2Proof.Machine

namespace Sys2Proof.Machine

/-! ## Lines fire and windows close (R44, R45, R48, R50, R51, R93, R95 to R97, R100, R104) -/

/-! ### A segment boundary -/

theorem exec_segStrobe (n : Fin 16) (s : State) : exec (.segStrobe n) s = execSegStrobe n s := rfl

theorem segStrobe_strobes {s : State} {n : Fin 16} {w : Win} {k : Nat} (win : (s.ch n).wav.win = some w)
    (next : w.startTicks[w.segDone + 1]? = some k) (due : k + w.segDly ≤ s.tick) : does (.segStrobe n) s fun t =>
      t.out = .seg n.val :: s.out ∧ (t.ch n).wav = { (s.ch n).wav with win := some { w with segDone := w.segDone + 1 } } ∧
      onlyCh n { s with out := t.out } t := by
  have meaning : exec (.segStrobe n) s =
      .next ((s.modWav n fun v => { v with win := some { w with segDone := w.segDone + 1 } }).emit (.seg n.val)) := by
    simp [exec_segStrobe, execSegStrobe, win, next, due]
  have only := onlyCh_modCh s n fun c => { c with wav := { c.wav with win := some { w with segDone := w.segDone + 1 } } }
  exact does_of meaning ⟨rfl, by simp [State.modWav], rfl, only.2⟩

/-! ### The end of the firing window -/

theorem exec_firingWindowEnd (n : Fin 16) (s : State) : exec (.firingWindowEnd n) s = execFiringWindowEnd n s := rfl

/-- The firing window of channel n is over. -/
def lineOver (n : Fin 16) (w : Win) (s : State) : State :=
  s.modWav n fun v => { v with win := none, lastFrameEnd := some (w.endTick - w.segDly) }

theorem exec_firingWindowEnd_over {s : State} {n : Fin 16} {w : Win} (win : (s.ch n).wav.win = some w) (late : w.endTick ≤ s.tick) :
    exec (.firingWindowEnd n) s = .next (settleOff n (noteHalted n (checkDone n (lineOver n w s)))) := by
  simp [exec_firingWindowEnd, execFiringWindowEnd, win, late, lineOver]

/-- The end of a window changes nothing of bands and row delays. -/
theorem lineOver_maxDelay (n : Fin 16) (w : Win) (s : State) (pg : Nat) (back : Bool) :
    (lineOver n w s).maxDelay n pg back = s.maxDelay n pg back :=
  State.maxDelay_congr (s := s) (t := lineOver n w s) (n := n) rfl (fun _ _ => rfl) (by simp [lineOver, State.modWav])
    (by simp [lineOver, State.modWav]) pg back

theorem lineOver_work (n : Fin 16) (w : Win) (s : State) : ((lineOver n w s).ch n).work = (s.ch n).work := by
  simp [lineOver, State.modWav]

theorem lineOver_noneMet (n : Fin 16) (w : Win) (s : State) : (lineOver n w s).noneMet n = s.noneMet n := by
  simp only [State.noneMet, State.noneMetAt, lineOver_maxDelay, lineOver_work]
  rfl

/-- A channel that neither drops HPEN nor halts for a supply warning comes to its line boundary without more. -/
theorem noteHalted_idle {s : State} {n : Fin 16} (pen : (s.ch n).brg.hpenHold = false) (flush : s.pwr.flush = none) :
    noteHalted n s = s := by simp [noteHalted, dropHpen, pen, flush]

theorem settleOff_idle {s : State} {n : Fin 16} (pend : (s.ch n).brg.offPend = false) : settleOff n s = s := by simp [settleOff, pend]

theorem firingWindowEnd_closes {s : State} {n : Fin 16} {w : Win} (win : (s.ch n).wav.win = some w) (late : w.endTick ≤ s.tick)
    (off : (s.ch n).brg.offPend = false) (pen : (s.ch n).brg.hpenHold = false) (flush : s.pwr.flush = none)
    (open' : s.noneMet n = true) : does (.firingWindowEnd n) s fun t => (t.ch n).wav =
      { (s.ch n).wav with win := none, lastFrameEnd := some (w.endTick - w.segDly) } ∧ onlyCh n s t := by
  have meaning := exec_firingWindowEnd_over win late
  have brg : ((noteFiring n (lineOver n w s)).ch n).brg = (s.ch n).brg := by simp [noteFiring_eq, lineOver, State.modWav]
  rw [checkDone_noneMet ((lineOver_noneMet n w s).trans open'), noteHalted_idle ((congrArg Brg.hpenHold brg).trans pen) flush,
    settleOff_idle ((congrArg Brg.offPend brg).trans off)] at meaning
  refine does_of meaning ⟨by simp [noteFiring_eq, lineOver, State.modWav], ?_⟩
  have closed := onlyCh_modCh s n fun c => { c with wav := { c.wav with win := none, lastFrameEnd := some (w.endTick - w.segDly) } }
  exact ⟨rfl, fun k hk => (chBut_modCh (lineOver n w s) n _ k hk).trans (closed.2 k hk)⟩

/-! ### A band that is complete -/

/-- Of a band complete at the end of a window: its record is due, and every band of its SEQ is DONE. -/
def Completed (n : Fin 16) (b : Band) (t : State) : Prop :=
  Band.record b ∈ (t.ch n).work.due ∧ ∀ c ∈ (t.ch n).work.bands.map Band.core, c.1.seq = b.desc.seq → c.2 = .done

/-- Reactions leave a complete band so. -/
theorem Completed.react {n : Fin 16} {b : Band} {s t : State} (h : Completed n b s) (k : Reacts s t) : Completed n b t := by
  unfold Completed
  rw [k.due n, k.bands n]
  exact h

theorem Completed.bands {n : Fin 16} {b : Band} {t : State} (h : Completed n b t) : ∀ x ∈ (t.ch n).work.bands,
    x.desc.seq = b.desc.seq → x.state = .done := fun x m e => h.2 x.core (List.mem_map_of_mem m) e

/-- A band goes to DONE and its record falls due. -/
def bandDone (n : Fin 16) (s : State) (b : Band) : State :=
  queueDue n { b with state := .done }.record (modBand n b.desc.seq (fun b => { b with state := .done }) s)

/-- What the end of a band does before its record meets a full ring. -/
def bandEnded (n : Fin 16) (b : Band) (s : State) : State :=
  (modBand n b.desc.seq (fun b => { b with state := .done }) s).modWork n fun w => { w with due := w.due ++ [b.record] }

theorem bandDone_reacts (n : Fin 16) (s : State) (b : Band) : Reacts (bandEnded n b s) (bandDone n s b) :=
  Reacts.ite (Reacts.raiseCh _ n (by decide)) (.refl _)

theorem bandEnded_due (n : Fin 16) (b : Band) (s : State) : ((bandEnded n b s).ch n).work.due = (s.ch n).work.due ++ [b.record] := by
  simp [bandEnded, modBand]

theorem bandEnded_bands (n : Fin 16) (b : Band) (s : State) : ((bandEnded n b s).ch n).work.bands =
    (s.ch n).work.bands.map fun x => if x.desc.seq = b.desc.seq then { x with state := .done } else x := by
  simp [bandEnded, modBand]

theorem bandDone_completes (n : Fin 16) (b : Band) (s : State) : Completed n b (bandDone n s b) := by
  refine Completed.react ⟨?_, ?_⟩ (bandDone_reacts n s b)
  · rw [bandEnded_due]
    exact List.mem_append_right _ List.mem_cons_self
  · rw [bandEnded_bands]
    simp only [List.map_map, List.mem_map, Function.comp_apply]
    rintro c ⟨x, -, rfl⟩ own
    split at own
    next e => simp [e, Band.core]
    next e => exact absurd own e

theorem bandDone_keeps {n : Fin 16} {b : Band} {s : State} (c : Band) (h : Completed n b s) : Completed n b (bandDone n s c) := by
  refine Completed.react ⟨?_, ?_⟩ (bandDone_reacts n s c)
  · rw [bandEnded_due]
    exact List.mem_append_left _ h.1
  · rw [bandEnded_bands]
    simp only [List.map_map, List.mem_map, Function.comp_apply]
    rintro k ⟨x, m, rfl⟩ own
    split at own
    next e => simp [e, Band.core]
    next e =>
      rw [if_neg e]
      exact h.bands x m own

/-- A step that establishes a property which the others keep does so in a fold over a list that holds it. -/
theorem foldl_reaches {α : Type} {P : State → Prop} {g : State → α → State} {a : α} {l : List α} (m : a ∈ l)
    (own : ∀ s, P (g s a)) (keep : ∀ s c, P s → P (g s c)) (s : State) : P (l.foldl g s) := by
  induction l using List.reverseRecOn with
  | nil => cases m
  | append_singleton l c ih =>
    rw [List.foldl_append, List.foldl_cons, List.foldl_nil]
    rcases List.mem_append.1 m with h | h
    · exact keep _ c (ih h)
    · exact List.mem_singleton.1 h ▸ own _

theorem bandDone_frame (n : Fin 16) (s : State) (b : Band) : RaiseFrame s (bandDone n s b) :=
  (RaiseFrame.modBand n _ _ s).trans ((RaiseFrame.modWork _ n _ rfl fun _ m => m).trans (queueDue_frame n _ _))

/-- The bands that R45 ends now. -/
def readyBands (n : Fin 16) (s : State) : List Band :=
  (s.ch n).work.bands.filter fun b =>
    b.state == .firing && b.met (s.maxDelay n b.page (s.pageDir n)) (s.ch n).work.firedPage (s.ch n).work.firedL

theorem checkDone_eq (n : Fin 16) (s : State) :
    checkDone n s = (readyBands n (noteFiring n s)).foldl (bandDone n) (noteFiring n s) := rfl

theorem checkDone_frame (n : Fin 16) (s : State) : RaiseFrame s (checkDone n s) := by
  rw [checkDone_eq]
  exact (RaiseFrame.modWork s n _ rfl fun _ m => m).trans (RaiseFrame.foldl _ _ (bandDone_frame n) _)

/-- A FIRING band with all its lines and owed rows fired or resolved is complete. -/
theorem checkDone_completes {n : Fin 16} {s : State} {b : Band} (m : b ∈ (s.ch n).work.bands) (firing : b.state = .firing)
    (met : b.met (s.maxDelay n b.page (s.pageDir n)) (s.ch n).work.firedPage (s.ch n).work.firedL = true) :
    Completed n b (checkDone n s) := by
  rw [checkDone_eq]
  refine foldl_reaches ?_ (bandDone_completes n b) (fun s c => bandDone_keeps c) _
  have noted : b.noted (s.ch n).work.firedPage (s.ch n).work.firedL = b := by simp [Band.noted, firing]
  simp only [readyBands, noteFiring_eq, State.maxDelay_modWork, State.ch_modWork_same, List.mem_filter, List.mem_map]
  refine ⟨⟨b, m, noted⟩, ?_⟩
  rw [firing]
  exact met

theorem RaiseFrame.offPend {s t : State} (h : RaiseFrame s t) (n : Fin 16) : (t.ch n).brg.offPend = (s.ch n).brg.offPend := by
  rw [← h.brg n]

theorem firingWindowEnd_completes {s : State} {n : Fin 16} {w : Win} {b : Band} (win : (s.ch n).wav.win = some w)
    (late : w.endTick ≤ s.tick) (off : (s.ch n).brg.offPend = false) (m : b ∈ (s.ch n).work.bands) (firing : b.state = .firing)
    (met : b.met (s.maxDelay n b.page (s.pageDir n)) (s.ch n).work.firedPage (s.ch n).work.firedL = true) :
    does (.firingWindowEnd n) s fun t => Band.record b ∈ (t.ch n).work.due ∧
      ∀ x ∈ (t.ch n).work.bands, x.desc.seq = b.desc.seq → x.state = .done := by
  have meaning := exec_firingWindowEnd_over win late
  have work := lineOver_work n w s
  have done : Completed n b (checkDone n (lineOver n w s)) := by
    refine checkDone_completes (work ▸ m) firing ?_
    rw [lineOver_maxDelay, work]
    exact met
  have frame := (checkDone_frame n (lineOver n w s)).trans (RaiseFrame.noteHalted n _)
  have brg := frame.offPend n
  have same : ((lineOver n w s).ch n).brg.offPend = (s.ch n).brg.offPend := by simp [lineOver, State.modWav]
  rw [settleOff_idle (brg.trans (same.trans off))] at meaning
  have ended := done.react (Reacts.noteHalted n _)
  exact does_of meaning ⟨ended.1, ended.bands⟩

/-- Only channel n, registers and outputs change. -/
def Fires (n : Fin 16) (s t : State) : Prop := t = { s with bar := t.bar, chans := t.chans, out := t.out } ∧ chBut n s t

namespace Fires

variable {n : Fin 16}

theorem refl (n : Fin 16) (s : State) : Fires n s s := ⟨rfl, fun _ _ => rfl⟩

theorem trans {s t u : State} (h : Fires n s t) (k : Fires n t u) : Fires n s u := by
  obtain ⟨same, but⟩ := h
  obtain ⟨same', but'⟩ := k
  exact ⟨by rw [same', same], fun m e => (but' m e).trans (but m e)⟩

theorem setWord (n : Fin 16) (s : State) (a : Nat) (v : Word) : Fires n s (s.setWord a v) := ⟨rfl, fun _ _ => rfl⟩
theorem put (s : State) (f : Fld) (v : Nat) : Fires n s (s.put f v) := ⟨rfl, fun _ _ => rfl⟩
theorem modCh (s : State) (n : Fin 16) (f : Chan → Chan) : Fires n s (s.modCh n f) := ⟨rfl, chBut_modCh s n f⟩
theorem modWork (s : State) (n : Fin 16) (f : Work → Work) : Fires n s (s.modWork n f) := modCh s n _
theorem modDut (s : State) (n : Fin 16) (f : Dut → Dut) : Fires n s (s.modDut n f) := modCh s n _
theorem emit (s : State) (o : Output) : Fires n s (s.emit o) := ⟨rfl, fun _ _ => rfl⟩

end Fires

/-! ### A ledger entry -/

/-- A register of channel n's ledger: its position or an entry. -/
def ledReg (n : Fin 16) (a : Nat) : Prop := 0x1060000 + n.val * 0x100000 ≤ a ∧ a < 0x1062000 + n.val * 0x100000

/-- A ledger entry with the position moved to it, COUNT apart. -/
def ledWritten (n : Fin 16) (seq line st fl time : Nat) (dir sosk : Bool) (s : State) : State :=
  let a := ledSlot n (s.get (F.CHn_LED_COUNT_COUNT n))
  (((((noteBoot n s).setWord a (BitVec.ofNat 32 seq)).setWord (a + 4) (BitVec.ofNat 32 (line % 2 ^ 24 + 2 ^ 24 * (st % 4 + fl)))).setPair
    (a + 8) (a + 12) time).put (F.CHn_LED_SEQ_SEQ n) seq).setWord (A.CHn_LED_LINE n)
    (BitVec.ofNat 32 (line % 2 ^ 24 + 2 ^ 24 * (st % 4 + 4 * b2n dir + 8 * b2n sosk)))

section
variable (n : Fin 16) (seq line st fl time : Nat) (dir sosk : Bool) (s : State)

theorem ledAppend_eq : ledAppend n seq line st fl time dir sosk s =
    (ledWritten n seq line st fl time dir sosk s).wrapAdd (F.CHn_LED_COUNT_COUNT n) 1 := rfl

theorem ledSlot_range (j : Nat) : ledSlot n j + 15 < 0x1062000 + n.val * 0x100000 ∧ 0x1061000 + n.val * 0x100000 ≤ ledSlot n j := by
  unfold ledSlot
  omega

/-- Beside LED_SEQ, LED_LINE and the slot, every register reads as before. -/
theorem ledWritten_word {a : Nat} (seqR : a ≠ A.CHn_LED_SEQ n) (lineR : a ≠ A.CHn_LED_LINE n)
    (slot : a < 0x1061000 + n.val * 0x100000 ∨ 0x1062000 + n.val * 0x100000 ≤ a) :
    (ledWritten n seq line st fl time dir sosk s).word a = s.word a := by
  have range := ledSlot_range n (s.get (F.CHn_LED_COUNT_COUNT n))
  unfold ledWritten State.setPair
  dsimp only
  generalize ledSlot n (s.get (F.CHn_LED_COUNT_COUNT n)) = b at range
  rw [State.word_setWord_ne _ _ lineR, State.word_put_ne _ _ seqR, State.word_setWord_ne _ _ (by omega),
    State.word_setWord_ne _ _ (by omega), State.word_setWord_ne _ _ (by omega), State.word_setWord_ne _ _ (by omega)]
  exact State.modWork_word _ _ _ _

theorem ledAppend_word {a : Nat} (h : ¬ ledReg n a) : (ledAppend n seq line st fl time dir sosk s).word a = s.word a := by
  unfold ledReg at h
  rw [ledAppend_eq, State.wrapAdd, State.word_put_ne _ _ (by simp only [F.CHn_LED_COUNT_COUNT, A.CHn_LED_COUNT]; omega)]
  refine ledWritten_word n seq line st fl time dir sosk s ?_ ?_ (by omega)
  · unfold A.CHn_LED_SEQ
    omega
  · unfold A.CHn_LED_LINE
    omega

theorem ledAppend_count : (ledAppend n seq line st fl time dir sosk s).get (F.CHn_LED_COUNT_COUNT n) =
    (s.get (F.CHn_LED_COUNT_COUNT n) + 1) % 2 ^ 32 := by
  have before : (ledWritten n seq line st fl time dir sosk s).get (F.CHn_LED_COUNT_COUNT n) = s.get (F.CHn_LED_COUNT_COUNT n) := by
    refine State.get_of_word (ledWritten_word n seq line st fl time dir sosk s ?_ ?_ (.inl ?_))
    · simp only [F.CHn_LED_COUNT_COUNT, A.CHn_LED_COUNT, A.CHn_LED_SEQ]
      omega
    · simp only [F.CHn_LED_COUNT_COUNT, A.CHn_LED_COUNT, A.CHn_LED_LINE]
      omega
    · simp only [F.CHn_LED_COUNT_COUNT, A.CHn_LED_COUNT]
      omega
  rw [ledAppend_eq, State.wrapAdd, State.get_put_same _ _ (by simp [F.CHn_LED_COUNT_COUNT]), before]
  rfl

theorem ledAppend_seq : (ledAppend n seq line st fl time dir sosk s).get (F.CHn_LED_SEQ_SEQ n) = seq % 2 ^ 32 := by
  rw [ledAppend_eq, State.wrapAdd, State.get_put_ne _ _ (by simp [F.CHn_LED_COUNT_COUNT, F.CHn_LED_SEQ_SEQ, A.CHn_LED_COUNT, A.CHn_LED_SEQ])]
  unfold ledWritten
  rw [State.get_setWord_ne _ _ (by simp [F.CHn_LED_SEQ_SEQ, A.CHn_LED_LINE, A.CHn_LED_SEQ])]
  exact State.get_put_same _ _ (by simp [F.CHn_LED_SEQ_SEQ])

/-- What LED_LINE holds of the entry. -/
theorem ledAppend_lineWord : (ledAppend n seq line st fl time dir sosk s).word (A.CHn_LED_LINE n) =
    BitVec.ofNat 32 (line % 2 ^ 24 + 2 ^ 24 * (st % 4 + 4 * b2n dir + 8 * b2n sosk)) := by
  rw [ledAppend_eq, State.wrapAdd, State.word_put_ne _ _ (by simp [F.CHn_LED_COUNT_COUNT, A.CHn_LED_COUNT, A.CHn_LED_LINE])]
  exact State.word_setWord_same _ _ _

theorem ledAppend_line : (ledAppend n seq line st fl time dir sosk s).get (F.CHn_LED_LINE_LINE n) = line % 2 ^ 24 := by
  have same : (ledAppend n seq line st fl time dir sosk s).word (F.CHn_LED_LINE_LINE n).addr = _ := ledAppend_lineWord ..
  rw [State.get, same, getBits_eq]
  simp only [F.CHn_LED_LINE_LINE, BitVec.toNat_ofNat, Nat.pow_zero, Nat.div_one]
  omega

theorem ledAppend_state (small : st < 4) : (ledAppend n seq line st fl time dir sosk s).get (F.CHn_LED_LINE_STATE n) = st := by
  have same : (ledAppend n seq line st fl time dir sosk s).word (F.CHn_LED_LINE_STATE n).addr = _ := ledAppend_lineWord ..
  have d : b2n dir < 2 := by cases dir <;> decide
  have k : b2n sosk < 2 := by cases sosk <;> decide
  rw [State.get, same, getBits_eq]
  simp only [F.CHn_LED_LINE_STATE, BitVec.toNat_ofNat]
  omega

/-- The entry begins with its SEQ. -/
theorem ledAppend_slot : (ledAppend n seq line st fl time dir sosk s).word (ledSlot n (s.get (F.CHn_LED_COUNT_COUNT n))) =
    BitVec.ofNat 32 seq := by
  have range := ledSlot_range n (s.get (F.CHn_LED_COUNT_COUNT n))
  unfold ledAppend State.wrapAdd State.setPair
  dsimp only
  generalize ledSlot n (s.get (F.CHn_LED_COUNT_COUNT n)) = b at range ⊢
  refine (State.word_put_ne _ _ (by simp only [F.CHn_LED_COUNT_COUNT, A.CHn_LED_COUNT]; omega)).trans ?_
  rw [State.word_setWord_ne _ _ (by unfold A.CHn_LED_LINE; omega), State.word_put_ne _ _ (by simp only [F.CHn_LED_SEQ_SEQ, A.CHn_LED_SEQ]; omega),
    State.word_setWord_ne _ _ (by omega), State.word_setWord_ne _ _ (by omega), State.word_setWord_ne _ _ (by omega)]
  exact State.word_setWord_same _ _ _

theorem ledWritten_ch (k : Fin 16) : (ledWritten n seq line st fl time dir sosk s).ch k = (noteBoot n s).ch k := by
  unfold ledWritten State.setPair
  dsimp only
  rw [State.setWord_ch, State.put_ch, State.setWord_ch, State.setWord_ch, State.setWord_ch, State.setWord_ch]

theorem ledAppend_ch (k : Fin 16) : (ledAppend n seq line st fl time dir sosk s).ch k = (noteBoot n s).ch k := by
  rw [ledAppend_eq, State.wrapAdd, State.put_ch, ledWritten_ch]

theorem ledWritten_out : (ledWritten n seq line st fl time dir sosk s).out = s.out := by
  unfold ledWritten State.setPair
  dsimp only
  rw [State.setWord_out, State.put_out, State.setWord_out, State.setWord_out, State.setWord_out, State.setWord_out]
  rfl

theorem ledAppend_out : (ledAppend n seq line st fl time dir sosk s).out = s.out := by
  rw [ledAppend_eq, State.wrapAdd, State.put_out, ledWritten_out]

theorem ledAppend_fires : Fires n s (ledAppend n seq line st fl time dir sosk s) := by
  unfold ledAppend State.wrapAdd State.setPair noteBoot State.modWork
  dsimp only
  refine .trans ?_ (.put _ _ _)
  refine .trans ?_ (.setWord _ _ _ _)
  refine .trans ?_ (.put _ _ _)
  refine .trans ?_ (.setWord _ _ _ _)
  refine .trans ?_ (.setWord _ _ _ _)
  refine .trans ?_ (.setWord _ _ _ _)
  refine .trans ?_ (.setWord _ _ _ _)
  exact .modCh s n _

end

/-- A ledger entry of a line: the registers of the ledger, the count of entries, what is kept beside. -/
structure Ledged (n : Fin 16) (seq line st : Nat) (s t : State) : Prop where
  fires : Fires n s t
  word : ∀ a, ¬ ledReg n a → t.word a = s.word a
  count : t.get (F.CHn_LED_COUNT_COUNT n) = (s.get (F.CHn_LED_COUNT_COUNT n) + 1) % 2 ^ 32
  seqR : t.get (F.CHn_LED_SEQ_SEQ n) = seq % 2 ^ 32
  lineR : t.get (F.CHn_LED_LINE_LINE n) = line % 2 ^ 24
  state : t.get (F.CHn_LED_LINE_STATE n) = st
  slot : t.word (ledSlot n (s.get (F.CHn_LED_COUNT_COUNT n))) = BitVec.ofNat 32 seq
  ch : t.ch n = (noteBoot n s).ch n
  out : t.out = s.out

theorem ledAppend_ledged (n : Fin 16) (seq line : Nat) {st : Nat} (fl time : Nat) (dir sosk : Bool) (s : State) (small : st < 4) :
    Ledged n seq line st s (ledAppend n seq line st fl time dir sosk s) where
  fires := ledAppend_fires ..
  word _ h := ledAppend_word (h := h) ..
  count := ledAppend_count ..
  seqR := ledAppend_seq ..
  lineR := ledAppend_line ..
  state := ledAppend_state (small := small) ..
  slot := ledAppend_slot ..
  ch := ledAppend_ch ..
  out := ledAppend_out ..

/-! ### What a FIRE edge enters -/

/-- FIRE is up and no line is decided any more. -/
def edge (n : Fin 16) (s : State) : State := (s.modFt n fun f => { f with decided := [] }).emit (.fire n.val)

/-- A line's ledger entry. -/
def lineEntry (n : Fin 16) (d : Decided) (s : State) : State :=
  ledAppend n d.duty.line.seq d.duty.line.line (if d.refired then 2 else 0) d.flags (s.chTimeAt n d.fireTick) d.dir d.sosk (edge n s)

/-- Its band and the maps in use count the line. -/
def lineCounted (n : Fin 16) (d : Decided) (s : State) : State := bandFired n d (passMaps n d.duty.line.page d.fireTick s)

theorem fire_eq (n : Fin 16) (d : Decided) (s : State) : fire n d s =
    chargeDuty n d.duty (applyDuty n (startWave n d (lineCounted n d (lineEntry n d (settleDone n s))))) := rfl

theorem lineEntry_ledged (n : Fin 16) (d : Decided) (s : State) :
    Ledged n d.duty.line.seq d.duty.line.line (if d.refired then 2 else 0) (edge n s) (lineEntry n d s) :=
  ledAppend_ledged n _ _ _ _ _ _ _ (by split <;> decide)

/-- What the FIRE edge enters before its waveform starts: the ledger's registers, the outputs, the channel. -/
structure Entered (n : Fin 16) (d : Decided) (s t : State) : Prop where
  fires : Fires n s t
  word : ∀ a, ¬ ledReg n a → t.word a = s.word a
  count : t.get (F.CHn_LED_COUNT_COUNT n) = (s.get (F.CHn_LED_COUNT_COUNT n) + 1) % 2 ^ 32
  seqR : t.get (F.CHn_LED_SEQ_SEQ n) = d.duty.line.seq % 2 ^ 32
  lineR : t.get (F.CHn_LED_LINE_LINE n) = d.duty.line.line % 2 ^ 24
  state : t.get (F.CHn_LED_LINE_STATE n) = if d.refired then 2 else 0
  slot : t.word (ledSlot n (s.get (F.CHn_LED_COUNT_COUNT n))) = BitVec.ofNat 32 d.duty.line.seq
  out : t.out = .fire n.val :: s.out
  ft : (t.ch n).ft = { (s.ch n).ft with decided := [] }
  wav : (t.ch n).wav = (s.ch n).wav
  dut : (t.ch n).dut = (s.ch n).dut
  due : (t.ch n).work.due = (s.ch n).work.due
  fired : ((t.ch n).work.firedPage, (t.ch n).work.firedL) = if d.refired then ((s.ch n).work.decPage, (s.ch n).work.decL)
    else (d.duty.line.page, d.duty.line.l + 1)

section
variable (n : Fin 16) (d : Decided) (s : State)

theorem lineCounted_word (a : Nat) : (lineCounted n d s).word a = s.word a := rfl
theorem lineCounted_get (f : Fld) : (lineCounted n d s).get f = s.get f := rfl
theorem lineCounted_out : (lineCounted n d s).out = s.out := rfl
theorem edge_word (a : Nat) : (edge n s).word a = s.word a := rfl
theorem edge_get (f : Fld) : (edge n s).get f = s.get f := rfl
theorem edge_out : (edge n s).out = .fire n.val :: s.out := rfl
theorem edge_fires : Fires n s (edge n s) := (Fires.modCh s n _).trans (.emit _ _)

theorem lineCounted_fires : Fires n s (lineCounted n d s) := by
  unfold lineCounted bandFired passMaps modBand State.modWork State.modImg
  exact .trans (.modCh s n _) (.trans (.modCh _ n _) (.modCh _ n _))

theorem lineCounted_ft : ((lineCounted n d s).ch n).ft = (s.ch n).ft := by
  simp [lineCounted, bandFired, passMaps, modBand, State.modImg, State.modWork]
theorem lineCounted_wav : ((lineCounted n d s).ch n).wav = (s.ch n).wav := by
  simp [lineCounted, bandFired, passMaps, modBand, State.modImg, State.modWork]
theorem lineCounted_dut : ((lineCounted n d s).ch n).dut = (s.ch n).dut := by
  simp [lineCounted, bandFired, passMaps, modBand, State.modImg, State.modWork]
theorem lineCounted_due : ((lineCounted n d s).ch n).work.due = (s.ch n).work.due := by
  simp [lineCounted, bandFired, passMaps, modBand, State.modImg, State.modWork]
theorem lineCounted_fired : (((lineCounted n d s).ch n).work.firedPage, ((lineCounted n d s).ch n).work.firedL) =
    if d.refired then ((s.ch n).work.decPage, (s.ch n).work.decL) else (d.duty.line.page, d.duty.line.l + 1) := by
  simp [lineCounted, bandFired, passMaps, modBand, State.modImg, State.modWork]

/-- The channel with FIRE up, as its entry finds it. -/
theorem edge_ch : (noteBoot n (edge n s)).ch n = { (s.ch n) with
    ft := { (s.ch n).ft with decided := [] },
    work := { (s.ch n).work with boots := (s.boot.bootCnt :: (s.ch n).work.boots).take 256 } } := by
  unfold noteBoot edge State.modWork State.modFt
  rw [State.ch_modCh_same, State.emit_ch, State.ch_modCh_same]
  rfl

end

theorem lineEntered (n : Fin 16) (d : Decided) (s : State) : Entered n d s (lineCounted n d (lineEntry n d s)) := by
  have led := lineEntry_ledged n d s
  generalize lineEntry n d s = t at led
  have ch := led.ch.trans (edge_ch n s)
  exact {
    fires := (edge_fires n s).trans (led.fires.trans (lineCounted_fires n d t))
    word := fun a h => by rw [lineCounted_word, led.word a h, edge_word]
    count := by rw [lineCounted_get, led.count, edge_get]
    seqR := by rw [lineCounted_get, led.seqR]
    lineR := by rw [lineCounted_get, led.lineR]
    state := by rw [lineCounted_get, led.state]
    slot := by rw [← edge_get, lineCounted_word, led.slot]
    out := by rw [lineCounted_out, led.out, edge_out]
    ft := by rw [lineCounted_ft, ch]
    wav := by rw [lineCounted_wav, ch]
    dut := by rw [lineCounted_dut, ch]
    due := by rw [lineCounted_due, ch]
    fired := by rw [lineCounted_fired, ch] }

/-! ### What a FIRE edge reads of the waveform -/

/-- All but the ledger of channel n, its scales and the status of its waveforms reads as before. -/
def FireKeeps (n : Fin 16) (s t : State) : Prop :=
  ∀ a, ¬ ledReg n a → a ≠ A.CHn_WAV_SCALE n → a ≠ A.CHn_WAV_STAT n → t.word a = s.word a

namespace FireKeeps

variable {n : Fin 16} {s t u : State}

theorem trans (h : FireKeeps n s t) (k : FireKeeps n t u) : FireKeeps n s u := fun a l c w => (k a l c w).trans (h a l c w)

/-- A register of a channel's window outside the ledger that is neither of the two. -/
theorem word (h : FireKeeps n s t) {b : Nat} (out : b < 0x1060000 ∨ 0x1062000 ≤ b) (scale : b ≠ 0x102001C) (stat : b ≠ 0x1020034) :
    t.word (b + n.val * 0x100000) = s.word (b + n.val * 0x100000) := by
  refine h _ ?_ ?_ ?_
  · unfold ledReg
    omega
  · unfold A.CHn_WAV_SCALE
    omega
  · unfold A.CHn_WAV_STAT
    omega

theorem get (h : FireKeeps n s t) {f : Fld} {b : Nat} (a : f.addr = b + n.val * 0x100000) (out : b < 0x1060000 ∨ 0x1062000 ≤ b)
    (scale : b ≠ 0x102001C) (stat : b ≠ 0x1020034) : t.get f = s.get f :=
  State.get_of_word (by rw [a]; exact h.word out scale stat)

theorem flag (h : FireKeeps n s t) {f : Fld} {b : Nat} (a : f.addr = b + n.val * 0x100000) (out : b < 0x1060000 ∨ 0x1062000 ≤ b)
    (scale : b ≠ 0x102001C) (stat : b ≠ 0x1020034) : t.flag f = s.flag f := by
  rw [State.flag, h.get a out scale stat, State.flag]

theorem bank (h : FireKeeps n s t) : t.get (F.CHn_WAV_BANK_BANK n) = s.get (F.CHn_WAV_BANK_BANK n) :=
  h.get (b := 0x1020008) rfl (by decide) (by decide) (by decide)

theorem wdly (h : FireKeeps n s t) : t.get (F.CHn_WAV_DLY_WDLY n) = s.get (F.CHn_WAV_DLY_WDLY n) :=
  h.get (b := 0x1020004) rfl (by decide) (by decide) (by decide)

theorem segdly (h : FireKeeps n s t) : t.get (F.CHn_WAV_DLY_SEGDLY n) = s.get (F.CHn_WAV_DLY_SEGDLY n) :=
  h.get (b := 0x1020004) rfl (by decide) (by decide) (by decide)

theorem src (h : FireKeeps n s t) : t.get (F.CHn_WAV_WFB_SRC n) = s.get (F.CHn_WAV_WFB_SRC n) :=
  h.get (b := 0x1020020) rfl (by decide) (by decide) (by decide)

theorem portEn (h : FireKeeps n s t) (p : Nat) : t.portEn n p = s.portEn n p := by
  have zero : t.flag (F.CHn_WAV_CTRL_WV0EN n) = s.flag (F.CHn_WAV_CTRL_WV0EN n) :=
    h.flag (b := 0x1020000) rfl (by decide) (by decide) (by decide)
  have one : t.flag (F.CHn_WAV_CTRL_WV1EN n) = s.flag (F.CHn_WAV_CTRL_WV1EN n) :=
    h.flag (b := 0x1020000) rfl (by decide) (by decide) (by decide)
  rw [State.portEn, zero, one, State.portEn]

theorem tabOf (h : FireKeeps n s t) (q : Nat) : t.tabOf n q = s.tabOf n q := by
  have sel : t.flag (F.CHn_WAV_SEL_PASSSEL n) = s.flag (F.CHn_WAV_SEL_PASSSEL n) :=
    h.flag (b := 0x102000C) rfl (by decide) (by decide) (by decide)
  have tab : t.get (F.CHn_WAV_SEL_TAB n) = s.get (F.CHn_WAV_SEL_TAB n) := h.get (b := 0x102000C) rfl (by decide) (by decide) (by decide)
  have pass : t.word (A.CHn_WAV_PASSTAB n) = s.word (A.CHn_WAV_PASSTAB n) := h.word (b := 0x1020010) (by decide) (by decide) (by decide)
  rw [State.tabOf, sel, tab, pass, State.tabOf]

theorem segDurs (h : FireKeeps n s t) (bank tab : Nat) : t.segDurs n bank tab = s.segDurs n bank tab := by
  have dur (k : Nat) : t.segDur n bank tab k = s.segDur n bank tab k := by
    have same : t.word (segAddr n bank tab k) = s.word (segAddr n bank tab k) := by
      have addr : segAddr n bank tab k = (0x10A0000 + 0x1000 * bank + 0x100 * tab + 8 * k) + n.val * 0x100000 := by
        unfold segAddr chBase
        omega
      rw [addr]
      exact h.word (by omega) (by omega) (by omega)
    rw [State.segDur, same, State.segDur]
  simp only [State.segDurs, funext dur]

theorem waveEndOf (h : FireKeeps n s t) (k pass : Nat) : t.waveEndOf n k pass = s.waveEndOf n k pass := by
  simp only [State.waveEndOf, h.wdly, h.segdly, h.bank, h.tabOf, h.segDurs]

end FireKeeps

/-! ### The waveform starts -/

/-- A scale that waits takes effect on the port that is fed back, if it is enabled. -/
def scaled (n : Fin 16) (s : State) : State :=
  match (s.ch n).wav.newScale with
  | some v =>
    if s.portEn n (s.get (F.CHn_WAV_WFB_SRC n)) then
      (s.put (if s.get (F.CHn_WAV_WFB_SRC n) = 0 then F.CHn_WAV_SCALE_SC0 n else F.CHn_WAV_SCALE_SC1 n) v).modWav n fun x =>
        { x with newScale := none }
    else s
  | none => s

theorem scale_addr (n : Fin 16) (k : Nat) :
    (if k = 0 then F.CHn_WAV_SCALE_SC0 n else F.CHn_WAV_SCALE_SC1 n).addr = A.CHn_WAV_SCALE n := by
  split
  · rfl
  · rfl

theorem scaled_word (n : Fin 16) (s : State) {a : Nat} (scale : a ≠ A.CHn_WAV_SCALE n) : (scaled n s).word a = s.word a := by
  unfold scaled
  split
  · split
    · rw [State.modWav_word]
      exact State.word_put_ne _ _ (by rw [scale_addr]; exact scale)
    · rfl
  · rfl

theorem scaled_keeps (n : Fin 16) (s : State) : FireKeeps n s (scaled n s) := fun _ _ scale _ => scaled_word n s scale

theorem scaled_fires (n : Fin 16) (s : State) : Fires n s (scaled n s) := by
  unfold scaled
  split
  · split
    · exact .trans (.put s _ _) (.modCh _ n _)
    · exact .refl n s
  · exact .refl n s

/-- Of the channel, only the scale that waits may go. -/
theorem scaled_ch (n : Fin 16) (s : State) : (scaled n s).out = s.out ∧
    ∃ x, (scaled n s).ch n = { (s.ch n) with wav := { (s.ch n).wav with newScale := x } } := by
  unfold scaled
  split
  · split
    · refine ⟨rfl, none, ?_⟩
      rw [State.ch_modWav_same, State.put_ch]
    · exact ⟨rfl, (s.ch n).wav.newScale, rfl⟩
  · exact ⟨rfl, (s.ch n).wav.newScale, rfl⟩

theorem scaled_scale {n : Fin 16} {s : State} {v : Nat} (waits : (s.ch n).wav.newScale = some v)
    (en : s.portEn n (s.get (F.CHn_WAV_WFB_SRC n)) = true) : ((scaled n s).ch n).wav.newScale = none ∧
      (scaled n s).get (if s.get (F.CHn_WAV_WFB_SRC n) = 0 then F.CHn_WAV_SCALE_SC0 n else F.CHn_WAV_SCALE_SC1 n) = v % 65536 := by
  have taken : scaled n s = (s.put (if s.get (F.CHn_WAV_WFB_SRC n) = 0 then F.CHn_WAV_SCALE_SC0 n else F.CHn_WAV_SCALE_SC1 n) v).modWav n
      fun x => { x with newScale := none } := by
    unfold scaled
    rw [waits]
    exact if_pos en
  have field : (if s.get (F.CHn_WAV_WFB_SRC n) = 0 then F.CHn_WAV_SCALE_SC0 n else F.CHn_WAV_SCALE_SC1 n).lo ≤ 16 ∧
      (if s.get (F.CHn_WAV_WFB_SRC n) = 0 then F.CHn_WAV_SCALE_SC0 n else F.CHn_WAV_SCALE_SC1 n).width = 16 := by
    split
    · exact ⟨by simp [F.CHn_WAV_SCALE_SC0], rfl⟩
    · exact ⟨by simp [F.CHn_WAV_SCALE_SC1], rfl⟩
  rw [taken]
  generalize (if s.get (F.CHn_WAV_WFB_SRC n) = 0 then F.CHn_WAV_SCALE_SC0 n else F.CHn_WAV_SCALE_SC1 n) = f at field
  refine ⟨by rw [State.ch_modWav_same], ?_⟩
  rw [State.modWav_get, State.get_put_same _ _ (by omega), field.2]
  norm_num

/-- The firing window that a FIRE edge opens, the scale having taken effect in s1. -/
def State.winOf (s s1 : State) (n : Fin 16) (d : Decided) : Win :=
  { seq := d.duty.line.seq, line := d.duty.line.line, slot := (s.get (F.CHn_LED_COUNT_COUNT n) + 255) % 256, fireTick := d.fireTick,
    segDly := s.get (F.CHn_WAV_DLY_SEGDLY n), endTick := s1.waveEndOf n d.fireTick d.duty.line.pass, tab := s.tabOf n d.duty.line.pass,
    bank := s.get (F.CHn_WAV_BANK_BANK n), segDone := 0,
    startTicks := startsFrom (d.fireTick + s.get (F.CHn_WAV_DLY_WDLY n))
      (s.segDurs n (s.get (F.CHn_WAV_BANK_BANK n)) (s.tabOf n d.duty.line.pass)) }

/-- The frames that start with it. -/
def State.framesOf (s s1 : State) (n : Fin 16) (d : Decided) : List PortFrame :=
  let t0 := d.fireTick + s.get (F.CHn_WAV_DLY_WDLY n)
  s1.framesAt n (s.get (F.CHn_WAV_BANK_BANK n)) (s.tabOf n d.duty.line.pass) (s.phaseAt n t0) (t0 + s.phaseAt n t0)
    (s.segDurs n (s.get (F.CHn_WAV_BANK_BANK n)) (s.tabOf n d.duty.line.pass))

/-- The end of the frame before. -/
def State.frameEnd (s : State) (n : Fin 16) : Option Nat :=
  match (s.ch n).wav.win with
  | some w => some (w.endTick - w.segDly)
  | none => (s.ch n).wav.lastFrameEnd

/-- The waveform engine with the window open. -/
def waving (s s1 : State) (n : Fin 16) (d : Decided) (x : Wav) : Wav :=
  { x with
    win := some (s.winOf s1 n d), lastFrameEnd := s.frameEnd n, waveEnd := some (s1.waveEndOf n d.fireTick d.duty.line.pass),
    frames := (x.frames.filter fun f => decide (s.tick < f.start + 8 * f.lanes.length)) ++ s.framesOf s1 n d,
    meas := s1.measAt n (s.tabOf n d.duty.line.pass) (d.fireTick + s.get (F.CHn_WAV_DLY_WDLY n) +
      s.phaseAt n (d.fireTick + s.get (F.CHn_WAV_DLY_WDLY n))) (s.frameEnd n) }

theorem startWave_eq (n : Fin 16) (d : Decided) (s : State) : startWave n d s =
    (s.framesOf (scaled n s) n d).foldl (fun (u : State) (f : PortFrame) => u.emit (.wave n.val f.port (s.tabOf n d.duty.line.pass)
      (s.phaseAt n (d.fireTick + s.get (F.CHn_WAV_DLY_WDLY n))) f.lanes))
      (((scaled n s).modWav n (waving s (scaled n s) n d)).put (F.CHn_WAV_STAT_FLEN n)
        (total (s.segDurs n (s.get (F.CHn_WAV_BANK_BANK n)) (s.tabOf n d.duty.line.pass)))) := rfl

theorem foldl_emit {α : Type} (g : α → Output) (l : List α) (s : State) :
    l.foldl (fun (u : State) x => u.emit (g x)) s = { s with out := (l.map g).reverse ++ s.out } := by
  induction l generalizing s with
  | nil => rfl
  | cons a l ih => rw [List.foldl_cons, ih, List.map_cons, List.reverse_cons, List.append_assoc]; rfl

/-- What the start of a waveform brings: its window, its frames, the scale; the outputs before it stay. -/
structure Waved (n : Fin 16) (d : Decided) (s t : State) : Prop where
  fires : Fires n s t
  keeps : FireKeeps n s t
  out : ∀ o ∈ s.out, o ∈ t.out
  ft : (t.ch n).ft = (s.ch n).ft
  dut : (t.ch n).dut = (s.ch n).dut
  work : (t.ch n).work = (s.ch n).work
  led : ∀ a, ledReg n a → t.word a = s.word a
  win : ∃ w, (t.ch n).wav.win = some w ∧ w.fireTick = d.fireTick ∧ w.seq = d.duty.line.seq ∧ w.line = d.duty.line.line ∧
    w.tab = s.tabOf n d.duty.line.pass ∧ w.endTick = s.waveEndOf n d.fireTick d.duty.line.pass ∧ w.segDone = 0 ∧
    w.startTicks = startsFrom (d.fireTick + s.get (F.CHn_WAV_DLY_WDLY n)) (s.segDurs n (s.get (F.CHn_WAV_BANK_BANK n)) w.tab)
  frames : ∀ p, p < 2 → s.portEn n p = true → ∃ f ∈ (t.ch n).wav.frames, f.port = p ∧ f.start = d.fireTick +
    s.get (F.CHn_WAV_DLY_WDLY n) + s.phaseAt n (d.fireTick + s.get (F.CHn_WAV_DLY_WDLY n))
  scale : ∀ v, (s.ch n).wav.newScale = some v → s.portEn n (s.get (F.CHn_WAV_WFB_SRC n)) = true → (t.ch n).wav.newScale = none ∧
    t.get (if s.get (F.CHn_WAV_WFB_SRC n) = 0 then F.CHn_WAV_SCALE_SC0 n else F.CHn_WAV_SCALE_SC1 n) = v % 65536

theorem framesAt_mem {s : State} {n : Fin 16} {p : Nat} (port : p < 2) (en : s.portEn n p = true) (bank tab phi t : Nat) (ds : List Nat) :
    ∃ f ∈ s.framesAt n bank tab phi t ds, f.port = p ∧ f.start = t := by
  refine ⟨{ port := p, start := t, lanes := s.frameOf n p bank tab phi ds }, List.mem_map_of_mem (List.mem_filter.2 ⟨?_, en⟩), rfl, rfl⟩
  obtain rfl | rfl : p = 0 ∨ p = 1 := by omega
  · decide
  · decide

/-- The state with the window open and the frame's length noted, before its frames go out. -/
def waveOpen (n : Fin 16) (d : Decided) (s : State) : State :=
  ((scaled n s).modWav n (waving s (scaled n s) n d)).put (F.CHn_WAV_STAT_FLEN n)
    (total (s.segDurs n (s.get (F.CHn_WAV_BANK_BANK n)) (s.tabOf n d.duty.line.pass)))

theorem startWave_open (n : Fin 16) (d : Decided) (s : State) : ∃ os, startWave n d s =
    { waveOpen n d s with out := os ++ (waveOpen n d s).out } := by
  rw [startWave_eq, foldl_emit]
  exact ⟨_, rfl⟩

theorem waveOpen_waved (n : Fin 16) (d : Decided) (s : State) : Waved n d s (waveOpen n d s) := by
  have keeps := scaled_keeps n s
  have fires := scaled_fires n s
  obtain ⟨out, x, ch⟩ := scaled_ch n s
  have scale := fun v => scaled_scale (n := n) (s := s) (v := v)
  have led := fun a => scaled_word n s (a := a)
  unfold waveOpen
  generalize scaled n s = u at *
  generalize total _ = len
  have wav : (((u.modWav n (waving s u n d)).put (F.CHn_WAV_STAT_FLEN n) len).ch n).wav = waving s u n d (u.ch n).wav := by
    rw [State.put_ch, State.ch_modWav_same]
  have word {a : Nat} (h : a ≠ A.CHn_WAV_STAT n) : ((u.modWav n (waving s u n d)).put (F.CHn_WAV_STAT_FLEN n) len).word a = u.word a :=
    (State.word_put_ne _ _ h).trans (State.modWav_word ..)
  exact {
    fires := fires.trans (.trans (.modCh u n _) (.put _ _ _))
    keeps := fun a l c w => (word w).trans (keeps a l c w)
    out := fun o m => by
      rw [State.put_out, State.modWav_out, out]
      exact m
    ft := by rw [State.put_ch, State.ch_modWav_same, ch]
    dut := by rw [State.put_ch, State.ch_modWav_same, ch]
    work := by rw [State.put_ch, State.ch_modWav_same, ch]
    led := fun a l => by
      unfold ledReg at l
      refine (word ?_).trans (led a ?_)
      · unfold A.CHn_WAV_STAT
        omega
      · unfold A.CHn_WAV_SCALE
        omega
    win := ⟨s.winOf u n d, by rw [wav]; rfl, rfl, rfl, rfl, rfl, keeps.waveEndOf _ _, rfl, rfl⟩
    frames := fun p port en => by
      rw [wav]
      obtain ⟨f, m, own⟩ := framesAt_mem port ((keeps.portEn p).trans en) _ _ _ _ _
      exact ⟨f, List.mem_append_right _ m, own⟩
    scale := fun v waits en => by
      obtain ⟨gone, took⟩ := scale v waits en
      rw [wav]
      refine ⟨gone, (State.get_of_word (word ?_)).trans took⟩
      rw [scale_addr]
      simp [A.CHn_WAV_SCALE, A.CHn_WAV_STAT] }

theorem startWave_waved (n : Fin 16) (d : Decided) (s : State) : Waved n d s (startWave n d s) := by
  obtain ⟨os, e⟩ := startWave_open n d s
  have h := waveOpen_waved n d s
  rw [e]
  generalize waveOpen n d s = u at h
  exact { h with
    fires := h.fires.trans ⟨rfl, fun _ _ => rfl⟩
    out := fun o m => List.mem_append_right os (h.out o m) }

/-! ### Settings of the duty limiter, and the windows of its counters -/

theorem State.dueEntries_congr {s t : State} {k : Fin 16} (capo : t.capo = s.capo)
    (stat : t.word (A.CAPO_TXt_STAT k) = s.word (A.CAPO_TXt_STAT k)) (q : Nat → Bool) : t.dueEntries k q = s.dueEntries k q := by
  have st : t.txState k = s.txState k := State.get_of_word stat
  simp only [State.dueEntries, st, State.slot, capo]

/-- With no setting of the limiter committed and waiting, none applies. -/
theorem applyDuty_idle {n : Fin 16} {s : State} (none : ∀ k, s.dueEntries k (isDut n) = []) : applyDuty n s = s := by
  have idle : ∀ hook, applyAll (isDut n) hook s = s := fun hook => by
    unfold applyAll applyIn
    refine if_neg ?_
    simp [none]
  unfold applyDuty
  split
  · exact idle _
  · rfl

/-- A register that ends with a window of the duty counters: HCOUNT or a nozzle's counter. -/
def dutReg (n : Fin 16) (a : Nat) : Prop :=
  a = A.CHn_DUT_HCOUNT n ∨ 0x10E0000 + n.val * 0x100000 ≤ a ∧ a < 0x10E4000 + n.val * 0x100000

theorem clearNozzles_word {n : Fin 16} (s : State) {a : Nat} (h : ¬ dutReg n a) : (clearNozzles n s).word a = s.word a := by
  have out : (decide (dutAddr n 0 ≤ a) && decide (a < dutAddr n 4096)) = false := by
    unfold dutReg at h
    unfold dutAddr chBase
    simp only [Bool.and_eq_false_iff, decide_eq_false_iff_not]
    omega
  exact (sparseGet_drop ..).trans (by rw [out]; rfl)

/-- What the end of the counting windows leaves: all but their counters and the mark of an event raised. -/
structure Ended (n : Fin 16) (s t : State) : Prop where
  fires : Fires n s t
  out : t.out = s.out
  word : ∀ a, ¬ dutReg n a → t.word a = s.word a
  ch : ∃ r, t.ch n = { (s.ch n) with dut := { (s.ch n).dut with raised := r } }

theorem Ended.of_bar {n : Fin 16} {s t : State} (same : t = { s with bar := t.bar }) (word : ∀ a, ¬ dutReg n a → t.word a = s.word a) :
    Ended n s t where
  fires := ⟨by rw [same], fun k _ => by rw [same]; rfl⟩
  out := by rw [same]
  word := word
  ch := ⟨(s.ch n).dut.raised, by rw [same]; rfl⟩

theorem Ended.headOver {n : Fin 16} {s t : State} (h : Ended n s t) :
    Ended n s ((t.put (F.CHn_DUT_HCOUNT_HCNT n) 0).modDut n fun d => { d with raised := false }) where
  fires := h.fires.trans ((Fires.put t _ 0).trans (.modCh _ n _))
  out := by rw [State.modDut_out, State.put_out, h.out]
  word a o := by
    rw [State.modDut_word, State.word_put_ne _ _ fun e => o (.inl e)]
    exact h.word a o
  ch := by
    obtain ⟨r, ch⟩ := h.ch
    exact ⟨false, by rw [State.ch_modDut_same, State.put_ch, ch]⟩

theorem endWindows_ended (n : Fin 16) (s : State) : Ended n s (endWindows n s) := by
  have first : Ended n s (if (s.ch n).dut.count % s.nozWin n = 0 then clearNozzles n s else s) := by
    split
    · exact .of_bar rfl fun a h => clearNozzles_word s h
    · exact .of_bar rfl fun _ _ => rfl
  unfold endWindows
  dsimp only
  generalize (if (s.ch n).dut.count % s.nozWin n = 0 then clearNozzles n s else s) = u at first ⊢
  split
  · exact first.headOver
  · exact first

/-! ### The fired line -/

theorem State.modWork_congr {s : State} {n : Fin 16} {f g : Work → Work} (h : f (s.ch n).work = g (s.ch n).work) :
    s.modWork n f = s.modWork n g := by simp only [State.modWork, State.modCh, h]

/-- A FIRE edge inside a window, or where no band is complete, first notes at most which bands are FIRING. -/
theorem settleDone_open {n : Fin 16} {s : State} (h : s.inWindow n = true ∨ s.noneMet n = true) :
    ∃ g : List Band → List Band, settleDone n s = s.modWork n fun w => { w with bands := g w.bands } := by
  unfold settleDone
  by_cases win : s.inWindow n = true
  · rw [if_pos win]
    exact ⟨id, (State.modWork_idle rfl).symm⟩
  · rw [if_neg win, checkDone_noneMet (h.resolve_left win), noteFiring_eq]
    exact ⟨List.map (Band.noted (s.ch n).work.firedPage (s.ch n).work.firedL), State.modWork_congr rfl⟩

/-- The line has fired, its charge apart. -/
def firedUp (n : Fin 16) (d : Decided) (s : State) : State := startWave n d (lineCounted n d (lineEntry n d s))

/-- The fired line is counted. -/
def dutCounted (n : Fin 16) (s : State) : State := s.modDut n fun x => { x with count := x.count + 1 }

theorem Entered.keeps {n : Fin 16} {d : Decided} {s t : State} (h : Entered n d s t) : FireKeeps n s t := fun a l _ _ => h.word a l

theorem firedUp_keeps (n : Fin 16) (d : Decided) (s : State) : FireKeeps n s (firedUp n d s) :=
  (lineEntered n d s).keeps.trans (startWave_waved n d _).keeps

theorem firedUp_fires (n : Fin 16) (d : Decided) (s : State) : Fires n s (firedUp n d s) :=
  (lineEntered n d s).fires.trans (startWave_waved n d _).fires

theorem firedUp_dut (n : Fin 16) (d : Decided) (s : State) : ((firedUp n d s).ch n).dut = (s.ch n).dut :=
  (startWave_waved n d _).dut.trans (lineEntered n d s).dut

/-- A register of the ledger keeps what the entry wrote. -/
theorem Waved.ledGet {n : Fin 16} {d : Decided} {s t : State} (h : Waved n d s t) {f : Fld} (l : ledReg n f.addr) : t.get f = s.get f :=
  State.get_of_word (h.led _ l)

theorem firedUp_fired (n : Fin 16) (d : Decided) (s : State) : lineFired n d s (dutCounted n (firedUp n d s)) := by
  have e := lineEntered n d s
  have w := startWave_waved n d (lineCounted n d (lineEntry n d s))
  unfold firedUp
  generalize lineCounted n d (lineEntry n d s) = p at e w
  generalize startWave n d p = t at w
  have k := e.keeps
  have phase (x : Nat) : p.phaseAt n x = s.phaseAt n x := by simp only [State.phaseAt, e.wav]
  have led {b : Nat} (h : b < 0x2000) : ledReg n (0x1060000 + b + n.val * 0x100000) := by
    unfold ledReg
    omega
  have slot := ledSlot_range n (s.get (F.CHn_LED_COUNT_COUNT n))
  obtain ⟨win, open', fireTick, seq, line, tab, endTick, segDone, starts⟩ := w.win
  have fires : Fires n s (dutCounted n t) := (e.fires.trans w.fires).trans (.modDut t n _)
  have ch : (dutCounted n t).ch n = { (t.ch n) with dut := { (t.ch n).dut with count := (t.ch n).dut.count + 1 } } :=
    State.ch_modDut_same ..
  have get (f : Fld) : (dutCounted n t).get f = t.get f := State.modDut_get ..
  refine ⟨?_, ?_, ?_, ?_, ?_, ?_, ?_, ⟨win, ?_, fireTick, seq, line, ?_, ?_, segDone, ?_⟩, fun q port en => ?_, fun v waits en => ?_,
    ?_, ?_, ?_, fires.1, fires.2⟩
  · rw [ch, w.ft, e.ft]
  · rw [dutCounted, State.modDut_out]
    exact w.out _ (e.out ▸ List.mem_cons_self)
  · rw [get, w.ledGet (f := F.CHn_LED_COUNT_COUNT n) (led (b := 8) (by decide)), e.count]
  · rw [get, w.ledGet (f := F.CHn_LED_SEQ_SEQ n) (led (b := 0) (by decide)), e.seqR]
  · rw [get, w.ledGet (f := F.CHn_LED_LINE_LINE n) (led (b := 4) (by decide)), e.lineR]
  · rw [get, w.ledGet (f := F.CHn_LED_LINE_STATE n) (led (b := 4) (by decide)), e.state]
  · rw [dutCounted, State.modDut_word, w.led _ (by unfold ledReg; omega), e.slot]
  · rw [ch, open']
  · rw [tab, k.tabOf]
  · rw [endTick, k.waveEndOf]
  · rw [starts, k.wdly, k.bank, k.segDurs]
  · rw [ch, ← k.wdly, ← phase]
    exact w.frames q port ((k.portEn q).trans en)
  · rw [ch, get, ← k.src]
    exact w.scale v (by rw [e.wav, waits]) (by rw [k.portEn, k.src, en])
  · rw [ch, w.work, e.fired]
  · rw [ch, w.work, e.due]
  · rw [ch, w.dut, e.dut]

/-- The end of counting windows takes nothing from a fired line. -/
theorem lineFired.ended {n : Fin 16} {d : Decided} {s t u : State} (h : lineFired n d s t) (k : Ended n t u) : lineFired n d s u := by
  obtain ⟨ft, out, count, seq, line, state, slot, win, frames, scale, fired, due, dut, same, but⟩ := h
  obtain ⟨r, ch⟩ := k.ch
  have fires := Fires.trans ⟨same, but⟩ k.fires
  have get {f : Fld} (o : ¬ dutReg n f.addr) : u.get f = t.get f := State.get_of_word (k.word _ o)
  have far {b : Nat} (h : b < 0x1050018 ∨ 0x1050018 < b ∧ b < 0x10E0000) : ¬ dutReg n (b + n.val * 0x100000) := by
    unfold dutReg A.CHn_DUT_HCOUNT
    omega
  have range := ledSlot_range n (s.get (F.CHn_LED_COUNT_COUNT n))
  rw [lineFired, ch]
  refine ⟨ft, k.out ▸ out, ?_, ?_, ?_, ?_, ?_, win, frames, fun v waits en => ?_, fired, due, dut, fires.1, fires.2⟩
  · rw [get (f := F.CHn_LED_COUNT_COUNT n) (far (b := 0x1060008) (by decide)), count]
  · rw [get (f := F.CHn_LED_SEQ_SEQ n) (far (b := 0x1060000) (by decide)), seq]
  · rw [get (f := F.CHn_LED_LINE_LINE n) (far (b := 0x1060004) (by decide)), line]
  · rw [get (f := F.CHn_LED_LINE_STATE n) (far (b := 0x1060004) (by decide)), state]
  · rw [k.word _ (by unfold dutReg A.CHn_DUT_HCOUNT; omega), slot]
  · obtain ⟨gone, took⟩ := scale v waits en
    refine ⟨gone, (get ?_).trans took⟩
    rw [scale_addr]
    exact far (b := 0x102001C) (by decide)

/-- Which bands were noted as FIRING before makes no difference to what fired. -/
theorem lineFired.settled {n : Fin 16} {d : Decided} {s t : State} {g : List Band → List Band}
    (h : lineFired n d (s.modWork n fun w => { w with bands := g w.bands }) t) : lineFired n d s t := by
  have keeps : FireKeeps n s (s.modWork n fun w => { w with bands := g w.bands }) := fun _ _ _ _ => State.modWork_word ..
  obtain ⟨ft, out, count, seq, line, state, slot, win, frames, scale, fired, due, dut, same, but⟩ := h
  have fires := (Fires.modWork s n _).trans ⟨same, but⟩
  simp only [State.ch_modWork_same, State.modWork_get, keeps.tabOf, keeps.waveEndOf, keeps.segDurs, keeps.portEn, State.phaseAt] at *
  exact ⟨ft, out, count, seq, line, state, slot, win, frames, scale, fired, due, dut, fires.1, fires.2⟩

theorem exec_lineFire (n : Fin 16) (s : State) : exec (.lineFire n) s = execLineFire n s := rfl

theorem FireKeeps.dueEntries {n : Fin 16} {s t : State} (h : FireKeeps n s t) (f : Fires n s t) (k : Fin 16) (q : Nat → Bool) :
    t.dueEntries k q = s.dueEntries k q := by
  have low : A.CAPO_TXt_STAT k < 0x1000000 := by
    unfold A.CAPO_TXt_STAT
    omega
  refine State.dueEntries_congr (by rw [f.1]) (h _ ?_ ?_ ?_) q
  · unfold ledReg
    omega
  · unfold A.CHn_WAV_SCALE
    omega
  · unfold A.CHn_WAV_STAT
    omega

/-- With nothing due of the limiter's settings, the FIRE edge charges the line and nothing applies before. -/
theorem exec_lineFire_fires {s : State} {n : Fin 16} {d : Decided} (up : s.booted = true) (dec : (s.ch n).ft.decided = [d])
    (due : d.fireTick ≤ s.tick) (none : ∀ k, s.dueEntries k (isDut n) = []) (open' : s.inWindow n = true ∨ s.noneMet n = true) :
    ∃ g : List Band → List Band, exec (.lineFire n) s =
      .next (chargeDuty n d.duty (firedUp n d (s.modWork n fun w => { w with bands := g w.bands }))) := by
  obtain ⟨g, settled⟩ := settleDone_open open'
  refine ⟨g, ?_⟩
  have keeps := firedUp_keeps n d (s.modWork n fun w => { w with bands := g w.bands })
  have fires := firedUp_fires n d (s.modWork n fun w => { w with bands := g w.bands })
  have idle := applyDuty_idle (n := n) (s := firedUp n d (s.modWork n fun w => { w with bands := g w.bands })) fun k =>
    (keeps.dueEntries fires k _).trans (none k)
  rw [exec_lineFire, execLineFire, dec]
  simp only [up, due, and_self, if_true]
  rw [fire_eq, settled]
  exact congrArg (fun x => Host.Outcome.next (chargeDuty n d.duty x)) idle

theorem lineFire_fires {s : State} {n : Fin 16} {d : Decided} (up : s.booted = true) (dec : (s.ch n).ft.decided = [d])
    (due : d.fireTick ≤ s.tick) (none : ∀ k, s.dueEntries k (isDut n) = []) (open' : s.inWindow n = true ∨ s.noneMet n = true)
    (again : d.duty.first = false) : does (.lineFire n) s fun t => lineFired n d s t := by
  obtain ⟨g, meaning⟩ := exec_lineFire_fires up dec due none open'
  have fired := firedUp_fired n d (s.modWork n fun w => { w with bands := g w.bands })
  have free (u : State) : chargeDuty n d.duty u = endWindows n (dutCounted n u) := by simp [chargeDuty, again, dutCounted]
  rw [free] at meaning
  exact does_of meaning (fired.ended (endWindows_ended n _)).settled

/-! ### The charge -/

/-- Charging nozzles writes the counters from a nozzle on, nothing else. -/
theorem chargeNozzles_word (n : Fin 16) (w : Nat → Nat) (cs : List Nat) (j : Nat) (s : State) {a : Nat} (h : a < dutAddr n j) :
    (chargeNozzles n w cs j s).word a = s.word a := by
  have step : dutAddr n j < dutAddr n (j + 1) := by
    unfold dutAddr
    omega
  induction cs generalizing j s with
  | nil => rfl
  | cons c cs ih =>
    unfold chargeNozzles
    rw [ih (j + 1) _ (h.trans step) (by unfold dutAddr; omega)]
    split
    · rfl
    · exact State.word_setWord_ne _ _ (Nat.ne_of_lt h)

/-- A counter once charged. -/
theorem nozCnt_charged (n : Fin 16) (j v : Nat) (s : State) :
    (if v = 0 then s else s.setWord (dutAddr n j) (BitVec.ofNat 32 (min 65535 (s.nozCnt n j + v)))).nozCnt n j =
      min 65535 (s.nozCnt n j + v) := by
  have small : s.nozCnt n j < 65536 := Nat.mod_lt _ (by decide)
  split
  next zero => omega
  next =>
    rw [State.nozCnt, State.word_setWord_same, BitVec.toNat_ofNat]
    omega

theorem chargeNozzles_counts (n : Fin 16) (w : Nat → Nat) (cs : List Nat) (j : Nat) (s : State) (i : Nat) (h : i < cs.length) :
    (chargeNozzles n w cs j s).nozCnt n (j + i) = min 65535 (s.nozCnt n (j + i) + w cs[i]) := by
  induction cs generalizing j s i with
  | nil => cases h
  | cons c cs ih =>
    have apart {k : Nat} (l : j < k) : dutAddr n j < dutAddr n k := by
      unfold dutAddr
      omega
    unfold chargeNozzles
    cases i with
    | zero =>
      have kept := chargeNozzles_word n w cs (j + 1)
        (if w c = 0 then s else s.setWord (dutAddr n j) (BitVec.ofNat 32 (min 65535 (s.nozCnt n j + w c)))) (apart (Nat.lt_succ_self j))
      simp only [Nat.add_zero, List.getElem_cons_zero]
      rw [State.nozCnt, kept]
      exact nozCnt_charged n j (w c) s
    | succ i =>
      have own := ih (j + 1) (if w c = 0 then s else s.setWord (dutAddr n j) (BitVec.ofNat 32 (min 65535 (s.nozCnt n j + w c)))) i
        (Nat.lt_of_succ_lt_succ h)
      rw [Nat.add_right_comm, Nat.add_assoc] at own
      rw [own, List.getElem_cons_succ]
      congr 2
      split
      · rfl
      · rw [State.nozCnt, State.word_setWord_ne _ _ (Nat.ne_of_gt (apart (by omega))), State.nozCnt]

/-- The registers of the limiter read as before over a FIRE edge. -/
theorem FireKeeps.weight {n : Fin 16} {s t : State} (h : FireKeeps n s t) : t.weight n = s.weight n := by
  have one : t.get (F.CHn_DUT_WEIGHT_CW1 n) = s.get (F.CHn_DUT_WEIGHT_CW1 n) := h.get (b := 0x1050004) rfl (by decide) (by decide) (by decide)
  have two : t.get (F.CHn_DUT_WEIGHT_CW2 n) = s.get (F.CHn_DUT_WEIGHT_CW2 n) := h.get (b := 0x1050004) rfl (by decide) (by decide) (by decide)
  have three : t.get (F.CHn_DUT_WEIGHT_CW3 n) = s.get (F.CHn_DUT_WEIGHT_CW3 n) := h.get (b := 0x1050004) rfl (by decide) (by decide) (by decide)
  funext c
  simp only [State.weight, one, two, three]

theorem FireKeeps.nozCnt {n : Fin 16} {s t : State} (h : FireKeeps n s t) (j : Nat) : t.nozCnt n j = s.nozCnt n j := by
  have addr : dutAddr n j = (0x10E0000 + 4 * j) + n.val * 0x100000 := by
    unfold dutAddr chBase
    omega
  have same : t.word (dutAddr n j) = s.word (dutAddr n j) := by
    rw [addr]
    exact h.word (by omega) (by omega) (by omega)
  rw [State.nozCnt, same, State.nozCnt]

/-- A line's weights charged, with no demotion, suppression or end of a window. -/
def charged (n : Fin 16) (d : DutyDec) (s : State) : State :=
  dutCounted n ((((chargeNozzles n (s.weight n) d.out 0 s).bump (F.CHn_DUT_HCOUNT_HCNT n) (lineWeight (s.weight n) d.out 0)).bump
    (F.CHn_DUT_NACT_DEM n) 0).bump (F.CHn_DUT_NACT_SUP n) 0)

theorem charged_word (n : Fin 16) (d : DutyDec) (s : State) {a : Nat} (low : a < 0x10E0000 + n.val * 0x100000)
    (head : a ≠ A.CHn_DUT_HCOUNT n) (act : a ≠ A.CHn_DUT_NACT n) : (charged n d s).word a = s.word a := by
  unfold charged dutCounted State.bump
  rw [State.modDut_word, State.word_put_ne _ _ act, State.word_put_ne _ _ act, State.word_put_ne _ _ head]
  exact chargeNozzles_word n _ _ 0 s (by unfold dutAddr chBase; omega)

theorem charged_head (n : Fin 16) (d : DutyDec) (s : State) : (charged n d s).get (F.CHn_DUT_HCOUNT_HCNT n) =
    min (s.get (F.CHn_DUT_HCOUNT_HCNT n) + lineWeight (s.weight n) d.out 0) (2 ^ 32 - 1) := by
  have apart : (F.CHn_DUT_HCOUNT_HCNT n).addr ≠ A.CHn_DUT_NACT n := by
    simp [F.CHn_DUT_HCOUNT_HCNT, A.CHn_DUT_HCOUNT, A.CHn_DUT_NACT]
  have before : (chargeNozzles n (s.weight n) d.out 0 s).get (F.CHn_DUT_HCOUNT_HCNT n) = s.get (F.CHn_DUT_HCOUNT_HCNT n) :=
    State.get_of_word (chargeNozzles_word n _ _ 0 s (by simp only [F.CHn_DUT_HCOUNT_HCNT, A.CHn_DUT_HCOUNT, dutAddr, chBase]; omega))
  unfold charged dutCounted State.bump
  rw [State.modDut_get, State.get_put_ne _ _ apart, State.get_put_ne _ _ apart, State.get_put_same _ _ (by simp [F.CHn_DUT_HCOUNT_HCNT]),
    before]
  generalize s.get (F.CHn_DUT_HCOUNT_HCNT n) + lineWeight (s.weight n) d.out 0 = k
  simp only [F.CHn_DUT_HCOUNT_HCNT]
  omega

theorem charged_nozzle (n : Fin 16) (d : DutyDec) (s : State) (j : Nat) (h : j < d.out.length) :
    (charged n d s).nozCnt n j = min 65535 (s.nozCnt n j + s.weight n d.out[j]) := by
  have far {a : Nat} (l : a < 0x10E0000 + n.val * 0x100000) : dutAddr n j ≠ a := by
    unfold dutAddr chBase
    omega
  have counted := chargeNozzles_counts n (s.weight n) d.out 0 s j h
  rw [Nat.zero_add] at counted
  rw [← counted]
  unfold charged dutCounted State.bump State.nozCnt
  rw [State.modDut_word, State.word_put_ne _ _ (far (by simp only [F.CHn_DUT_NACT_SUP, A.CHn_DUT_NACT]; omega)),
    State.word_put_ne _ _ (far (by simp only [F.CHn_DUT_NACT_DEM, A.CHn_DUT_NACT]; omega)),
    State.word_put_ne _ _ (far (by simp only [F.CHn_DUT_HCOUNT_HCNT, A.CHn_DUT_HCOUNT]; omega))]

/-- Charging nozzles changes registers alone. -/
theorem chargeNozzles_ch (n : Fin 16) (w : Nat → Nat) (cs : List Nat) (j : Nat) (s : State) (k : Fin 16) :
    (chargeNozzles n w cs j s).ch k = s.ch k := by
  induction cs generalizing j s with
  | nil => rfl
  | cons c cs ih =>
    unfold chargeNozzles
    rw [ih]
    split
    · rfl
    · exact State.setWord_ch ..

theorem charged_count (n : Fin 16) (d : DutyDec) (s : State) : ((charged n d s).ch n).dut.count = (s.ch n).dut.count + 1 := by
  unfold charged dutCounted State.bump
  rw [State.ch_modDut_same, State.put_ch, State.put_ch, State.put_ch, chargeNozzles_ch]

theorem countHead_idle {n : Fin 16} {d : DutyDec} {s : State} (lvl : d.lvl = 0) : countHead n d s = s := if_pos lvl

theorem raiseAct_idle {n : Fin 16} {d : DutyDec} {s : State} (dem : d.nDem = 0) (sup : d.nSup = 0) (lvl : d.lvl = 0) :
    raiseAct n d s = s := if_neg (by omega)

theorem countNozzles_idle {n : Fin 16} {d : DutyDec} {s : State} (dem : d.nDem = 0) (sup : d.nSup = 0) :
    countNozzles n d s = (s.bump (F.CHn_DUT_NACT_DEM n) 0).bump (F.CHn_DUT_NACT_SUP n) 0 := by
  unfold countNozzles
  dsimp only
  rw [dem, sup]
  exact if_neg (by decide)

theorem chargeDuty_charges {n : Fin 16} {d : DutyDec} {s : State} (first : d.first = true) (en : s.flag (F.CHn_DUT_CTRL_EN n) = true)
    (dem : d.nDem = 0) (sup : d.nSup = 0) (lvl : d.lvl = 0) (noz : ((s.ch n).dut.count + 1) % s.nozWin n ≠ 0)
    (head : ((s.ch n).dut.count + 1) % s.headWin n ≠ 0) : chargeDuty n d s = charged n d s := by
  have windows : (charged n d s).nozWin n = s.nozWin n ∧ (charged n d s).headWin n = s.headWin n := by
    have nw : (charged n d s).get (F.CHn_DUT_NWIN_NWIN n) = s.get (F.CHn_DUT_NWIN_NWIN n) := State.get_of_word (charged_word n d s
      (by simp only [F.CHn_DUT_NWIN_NWIN, A.CHn_DUT_NWIN]; omega) (by simp [F.CHn_DUT_NWIN_NWIN, A.CHn_DUT_NWIN, A.CHn_DUT_HCOUNT])
      (by simp [F.CHn_DUT_NWIN_NWIN, A.CHn_DUT_NWIN, A.CHn_DUT_NACT]))
    have hw : (charged n d s).get (F.CHn_DUT_HWIN_HWIN n) = s.get (F.CHn_DUT_HWIN_HWIN n) := State.get_of_word (charged_word n d s
      (by simp only [F.CHn_DUT_HWIN_HWIN, A.CHn_DUT_HWIN]; omega) (by simp [F.CHn_DUT_HWIN_HWIN, A.CHn_DUT_HWIN, A.CHn_DUT_HCOUNT])
      (by simp [F.CHn_DUT_HWIN_HWIN, A.CHn_DUT_HWIN, A.CHn_DUT_NACT]))
    simp only [State.nozWin, State.headWin, nw, hw, and_self]
  have quietly : chargeDuty n d s = endWindows n (charged n d s) := by
    unfold chargeDuty
    dsimp only
    rw [if_neg (by simp [en, first]), raiseAct_idle dem sup lvl, countHead_idle lvl, countNozzles_idle dem sup]
    unfold charged dutCounted
    rfl
  rw [quietly]
  unfold endWindows
  dsimp only
  rw [charged_count, windows.1, windows.2, if_neg noz, if_neg head]

theorem lineFire_charges {s : State} {n : Fin 16} {d : Decided} (up : s.booted = true) (dec : (s.ch n).ft.decided = [d])
    (due : d.fireTick ≤ s.tick) (none : ∀ k, s.dueEntries k (isDut n) = []) (open' : s.inWindow n = true ∨ s.noneMet n = true)
    (first : d.duty.first = true) (en : s.flag (F.CHn_DUT_CTRL_EN n) = true) (dem : d.duty.nDem = 0) (sup : d.duty.nSup = 0)
    (lvl : d.duty.lvl = 0) (noz : ((s.ch n).dut.count + 1) % s.nozWin n ≠ 0) (head : ((s.ch n).dut.count + 1) % s.headWin n ≠ 0) :
    does (.lineFire n) s fun t => t.get (F.CHn_DUT_HCOUNT_HCNT n) =
      min (s.get (F.CHn_DUT_HCOUNT_HCNT n) + lineWeight (s.weight n) d.duty.out 0) (2 ^ 32 - 1) ∧
      ∀ (j : Nat) (h : j < d.duty.out.length), t.nozCnt n j = min 65535 (s.nozCnt n j + s.weight n d.duty.out[j]) := by
  obtain ⟨g, meaning⟩ := exec_lineFire_fires up dec due none open'
  have settled : FireKeeps n s (s.modWork n fun w => { w with bands := g w.bands }) := fun _ _ _ _ => State.modWork_word ..
  have keeps := settled.trans (firedUp_keeps n d (s.modWork n fun w => { w with bands := g w.bands }))
  have dut := firedUp_dut n d (s.modWork n fun w => { w with bands := g w.bands })
  rw [show ((s.modWork n fun w => { w with bands := g w.bands }).ch n).dut = (s.ch n).dut by rw [State.ch_modWork_same]] at dut
  generalize firedUp n d (s.modWork n fun w => { w with bands := g w.bands }) = u at meaning keeps dut
  have ctrl : u.flag (F.CHn_DUT_CTRL_EN n) = s.flag (F.CHn_DUT_CTRL_EN n) := keeps.flag (b := 0x1050000) rfl (by decide) (by decide) (by decide)
  have nw : u.nozWin n = s.nozWin n := congrArg (· + 1) (keeps.get (b := 0x1050008) rfl (by decide) (by decide) (by decide))
  have hw : u.headWin n = s.headWin n := congrArg (· + 1) (keeps.get (b := 0x1050010) rfl (by decide) (by decide) (by decide))
  have count : u.get (F.CHn_DUT_HCOUNT_HCNT n) = s.get (F.CHn_DUT_HCOUNT_HCNT n) :=
    keeps.get (b := 0x1050018) rfl (by decide) (by decide) (by decide)
  rw [chargeDuty_charges first (ctrl.trans en) dem sup lvl (by rw [dut, nw]; exact noz) (by rw [dut, hw]; exact head)] at meaning
  refine does_of meaning ⟨?_, fun j h => ?_⟩
  · rw [charged_head, count, keeps.weight]
  · rw [charged_nozzle n d.duty u j h, keeps.nozCnt, keeps.weight]

/-- Settles O16: the FIRE edge and its charge, SEG, the end of the window. -/
theorem linesFireAndWindowsClose : Obligations.LinesFireAndWindowsClose := by
  unfold Obligations.LinesFireAndWindowsClose
  intro s
  refine ⟨fun n d up dec due none open' => ⟨fun again => ?_, fun first en dem sup lvl _ noz head => ?_⟩, fun n w win =>
    ⟨fun k next due => segStrobe_strobes win next due, fun late off pen flush => ⟨fun open' => ?_, fun b m firing met => ?_⟩⟩⟩
  · exact lineFire_fires up dec due none open' (Bool.eq_false_of_not_eq_true' again)
  · exact lineFire_charges up dec due none open' first en dem sup lvl noz head
  · exact firingWindowEnd_closes win late (Bool.eq_false_of_not_eq_true' off) (Bool.eq_false_of_not_eq_true' pen) flush open'
  · exact firingWindowEnd_completes win late (Bool.eq_false_of_not_eq_true' off) m firing met

end Sys2Proof.Machine

namespace Sys2Proof.Machine

/-! ## START, STOP, RESUME, REFIRE and SKIP (R52, R55 to R58, R62, R157) -/

/-! ### A command that is taken at once -/

theorem exec_cmdStart (m : Master) (n : Fin 16) (s : State) : exec (.cmdStart m n) s = .next (cmdWrite m n 1 s) := rfl
theorem exec_cmdStop (m : Master) (n : Fin 16) (s : State) : exec (.cmdStop m n) s = .next (cmdWrite m n 2 s) := rfl
theorem exec_cmdResume (m : Master) (n : Fin 16) (s : State) : exec (.cmdResume m n) s = .next (cmdWrite m n 3 s) := rfl
theorem exec_cmdRefire (m : Master) (n : Fin 16) (s : State) : exec (.cmdRefire m n) s = .next (cmdWrite m n 4 s) := rfl
theorem exec_cmdSkip (m : Master) (n : Fin 16) (s : State) : exec (.cmdSkip m n) s = .next (cmdWrite m n 5 s) := rfl
theorem exec_cmdAbandon (m : Master) (n : Fin 16) (s : State) : exec (.cmdAbandon m n) s = .next (cmdWrite m n 6 s) := rfl
theorem exec_cmdAbandonAll (m : Master) (n : Fin 16) (s : State) : exec (.cmdAbandonAll m n) s = .next (cmdWrite m n 7 s) := rfl
theorem exec_cmdRefetch (m : Master) (n : Fin 16) (s : State) : exec (.cmdRefetch m n) s = .next (cmdWrite m n 8 s) := rfl
theorem exec_cmdRebase (m : Master) (n : Fin 16) (s : State) : exec (.cmdRebase m n) s = .next (cmdWrite m n 9 s) := rfl

theorem domainOf_cmd (n : Fin 16) : domainOf (A.WRK_SCRn_CMD n) = some 0 := by
  revert n
  decide +kernel

/-- A master that reaches WRK does so with HOST ON. -/
theorem State.commands_host {s : State} {m : Master} {n : Fin 16} (h : s.commands m n = true) : s.domOn 0 = true := by
  simp only [State.commands, State.reaches, State.powered, domainOf_cmd, Bool.and_eq_true] at h
  exact h.1.2

/-- A command that need not wait for the journal is executed. -/
theorem cmdWrite_runs {s : State} {m : Master} {n : Fin 16} {code : Nat} (h : s.commands m n = true)
    (now : s.cmdJournals n code (s.argSeq n) (s.argAddr n) = false) :
    cmdWrite m n code s = noteReady n s (runCmd code (s.argSeq n) (s.argAddr n) n s) := by
  simp only [State.commands, State.takes, Bool.and_eq_true, Bool.not_eq_true'] at h
  obtain ⟨reach, ⟨⟨⟨up, on⟩, seq⟩, free⟩, joined⟩ := h
  rw [cmdWrite, State.wr_reaches reach, cmdTake, if_neg (by simp [joined]), if_neg (by simp [on]), if_neg (by simp [free]), takeCmd,
    if_neg (by simp [State.cmdWaits, seq, up, now])]

theorem State.commands_joined {s : State} {m : Master} {n : Fin 16} (h : s.commands m n = true) : (s.ch n).iso.isolated = false := by
  simp only [State.commands, State.takes, Bool.and_eq_true, Bool.not_eq_true'] at h
  exact h.2.2

theorem State.cmdJournals_not {s : State} {n : Fin 16} {code seq addr : Nat} (h : code ≤ 5 ∨ code = 8) :
    s.cmdJournals n code seq addr = false := by
  have : code = 0 ∨ code = 1 ∨ code = 2 ∨ code = 3 ∨ code = 4 ∨ code = 5 ∨ code = 8 := by omega
  rcases this with rfl | rfl | rfl | rfl | rfl | rfl | rfl <;> simp [State.cmdJournals]

theorem readyToArm_run {s : State} {n : Fin 16} (h : s.wstate n ≠ 1) : s.readyToArm n = false := by simp [State.readyToArm, h]

/-- CMDRES is put beside the other fields of WRK_SCRn_STAT. -/
theorem cmdRes_state (n : Fin 16) (v : Nat) (s : State) : (cmdRes n v s).wstate n = s.wstate n :=
  State.get_put_other _ _ (.inr (by simp [F.WRK_SCRn_STAT_STATE, F.WRK_SCRn_STAT_CMDRES]))

theorem cmdRes_cause (n : Fin 16) (v : Nat) (s : State) :
    (cmdRes n v s).get (F.WRK_SCRn_STAT_HCAUSE n) = s.get (F.WRK_SCRn_STAT_HCAUSE n) :=
  State.get_put_other _ _ (.inr (by simp [F.WRK_SCRn_STAT_HCAUSE, F.WRK_SCRn_STAT_CMDRES]))

theorem cmdRes_word (n : Fin 16) (v : Nat) (s : State) {a : Nat} (h : a ≠ A.WRK_SCRn_STAT n) : (cmdRes n v s).word a = s.word a :=
  State.word_put_ne _ _ h

theorem cmdRes_ch (n : Fin 16) (v : Nat) (s : State) (k : Fin 16) : (cmdRes n v s).ch k = s.ch k := rfl

theorem cmdRes_done (n : Fin 16) (s : State) : (cmdRes n 0 s).cmdDone n := State.get_put_same _ _ (by simp [F.WRK_SCRn_STAT_CMDRES])

/-- WRK_SCRn_STAT is no quiet register. -/
theorem loud_scrStat (n : Fin 16) : quiet (A.WRK_SCRn_STAT n) = false := by
  have m := mem_chans n (a := A.WRK_SCRn_STAT n) (.inl rfl)
  simp [quiet, m]

theorem cmdRes_calm (n : Fin 16) (v : Nat) (s : State) : calm s (cmdRes n v s) := Calm.put _ _ (loud_scrStat n)

/-! ### Commands refused in IDLE -/

theorem cmdWrite_refused {s : State} {m : Master} {n : Fin 16} {code : Nat} (h : s.commands m n = true) (idle : s.wstate n = 0)
    (one : 2 ≤ code ∧ code ≤ 9) : cmdWrite m n code s = s.put (F.WRK_SCRn_STAT_CMDRES n) 1 := by
  have joined := State.commands_joined h
  have codes : code = 2 ∨ code = 3 ∨ code = 4 ∨ code = 5 ∨ code = 6 ∨ code = 7 ∨ code = 8 ∨ code = 9 := by omega
  have now : s.cmdJournals n code (s.argSeq n) (s.argAddr n) = false := by
    rcases codes with rfl | rfl | rfl | rfl | rfl | rfl | rfl | rfl <;> simp [State.cmdJournals, idle]
  have refused : runCmd code (s.argSeq n) (s.argAddr n) n s = cmdRes n 1 s := by
    rcases codes with rfl | rfl | rfl | rfl | rfl | rfl | rfl | rfl <;>
      simp [runCmd, joined, runStop, runResume, State.mayResume, runRefire, runSkip, runAbandon, runAbandonAll, runRefetch, runRebase,
        cmdIf, idle]
  rw [cmdWrite_runs h now, refused, noteReady_of_not (readyToArm_run (by rw [cmdRes_state, idle]; decide)), cmdRes]

/-! ### STOP -/

theorem cmdStop_stops {s : State} {m : Master} {n : Fin 16} (h : s.commands m n = true) (run : s.wstate n = 1) :
    does (.cmdStop m n) s fun t => held n 1 t ∧ t.cmdDone n ∧ calm s t := by
  have joined := State.commands_joined h
  have stop : held n 1 (cmdRes n 0 (s.hold n 1)) := by
    obtain ⟨state, cause⟩ := hold_holds s n 1 (.inl run)
    exact ⟨(cmdRes_state ..).trans state, by rw [cmdRes_ch]; exact cause⟩
  have meaning : exec (.cmdStop m n) s = .next (cmdRes n 0 (s.hold n 1)) := by
    rw [exec_cmdStop, cmdWrite_runs h (State.cmdJournals_not (.inl (by decide)))]
    have ran : runCmd 2 (s.argSeq n) (s.argAddr n) n s = cmdRes n 0 (s.hold n 1) := by simp [runCmd, joined, runStop, cmdIf, run]
    rw [ran, noteReady_of_not (readyToArm_run (by rw [stop.1]; decide))]
  exact does_of meaning ⟨stop, cmdRes_done .., (RaiseFrame.hold s n 1).calm.trans (cmdRes_calm ..)⟩

/-! ### Pages and pending lines -/

/-- A change of a band that leaves its lines and whether it is over. -/
structure LinesKept (g : Band → Band) : Prop where
  desc : ∀ b, (g b).desc = b.desc
  page : ∀ b, (g b).page = b.page
  l0 : ∀ b, (g b).l0 = b.l0
  ended : ∀ b, ((g b).state = .done ∨ (g b).state = .retired) ↔ (b.state = .done ∨ b.state = .retired)

theorem LinesKept.total {g : Band → Band} (k : LinesKept g) (b : Band) (md : Nat) : (g b).total md = b.total md := by
  rw [Band.total, k.desc, Band.total]

theorem LinesKept.id : LinesKept id := ⟨fun _ => rfl, fun _ => rfl, fun _ => rfl, fun _ => Iff.rfl⟩

theorem LinesKept.noted (pg l : Nat) : LinesKept (Band.noted pg l) := by
  have both (b : Band) : b.noted pg l = b ∨ b.noted pg l = { b with state := .firing } ∧ b.state = .released := Band.noted_cases pg l b
  refine ⟨fun b => ?_, fun b => ?_, fun b => ?_, fun b => ?_⟩
  all_goals rcases both b with e | ⟨e, r⟩
  all_goals simp [e]
  all_goals simp [r]

theorem nextLineOf_map {g : Band → Band} (k : LinesKept g) (md : Nat → Nat) (pg cnt : Nat) (bs : List Band) :
    nextLineOf md pg cnt (bs.map g) = (nextLineOf md pg cnt bs).map fun x => (g x.1, x.2) := by
  induction bs with
  | nil => rfl
  | cons b bs ih =>
    simp only [List.map_cons, nextLineOf, k.ended, k.page, k.l0, k.total, ih]
    split
    · rfl
    · split
      · rfl
      · rw [apply_ite (Option.map fun x : Band × Nat × Nat × Nat => (g x.1, x.2))]
        rfl

/-- What the pending line and the end of a page rest on is as before, bands apart, which keep their lines. -/
structure SameLines (n : Fin 16) (g : Band → Band) (s t : State) : Prop where
  kept : LinesKept g
  bands : (t.ch n).work.bands = (s.ch n).work.bands.map g
  decPage : (t.ch n).work.decPage = (s.ch n).work.decPage
  decL : (t.ch n).work.decL = (s.ch n).work.decL
  delay : ∀ pg back, t.maxDelay n pg back = s.maxDelay n pg back
  dir : t.pageDir n = s.pageDir n

theorem SameLines.pendingLine {n : Fin 16} {g : Band → Band} {s t : State} (h : SameLines n g s t) :
    t.pendingLine n = (s.pendingLine n).map fun x => (g x.1, x.2) := by
  simp only [State.pendingLine, h.bands, h.decPage, h.decL, h.delay, h.dir, nextLineOf_map h.kept]

theorem SameLines.pageOver {n : Fin 16} {g : Band → Band} {s t : State} (h : SameLines n g s t) (jnl : t.journal n = s.journal n) :
    t.pageOver n = s.pageOver n := by
  unfold State.pageOver
  rw [h.pendingLine, jnl, h.decPage]
  cases s.pendingLine n with
  | none => rfl
  | some x => rfl

/-! ### START -/

/-- The requirement "Fault cleared" reads no register of WRK and none of a channel. -/
theorem State.faultCleared_congr {s t : State} (n : Fin 16) (flt : t.flt = s.flt)
    (word : ∀ a, a < 0xC0000 ∨ 0xD0000 ≤ a ∧ a < 0x1000000 → t.word a = s.word a) : t.faultCleared n = s.faultCleared n := by
  have flag {f : Fld} (h : f.addr < 0xC0000 ∨ 0xD0000 ≤ f.addr ∧ f.addr < 0x1000000) : t.flag f = s.flag f := State.flag_of_word (word _ h)
  have get {f : Fld} (h : f.addr < 0xC0000 ∨ 0xD0000 ≤ f.addr ∧ f.addr < 0x1000000) : t.get f = s.get f := State.get_of_word (word _ h)
  have line (i : Nat) : t.flag (lineFld i) = s.flag (lineFld i) := flag (.inl (by
    unfold lineFld
    split
    · exact (by decide : A.FLT_STAT_LO < 0xC0000)
    · exact (by decide : A.FLT_STAT_HI < 0xC0000)))
  have exp : 0xD0000 ≤ A.WRK_EXP_LATCH ∧ A.WRK_EXP_LATCH < 0x1000000 := by decide
  have thm : A.THM_CHSTAT < 0xC0000 := by decide
  have s2 : t.holdsS2 n = s.holdsS2 n := by rw [State.holdsS2, flt, State.holdsS2]
  have s3 : t.holdsS3 n = s.holdsS3 n := by rw [State.holdsS3, flt, State.holdsS3]
  unfold State.faultCleared
  rw [line, line, s2, s3, flag (f := F.FLT_SAFE_ACTIVE) (by decide), flag (f := F.WRK_EXP_LATCH_STOPL.bit n) (.inr exp),
    flag (f := F.WRK_EXP_LATCH_INHL.bit n) (.inr exp), flag (f := F.THM_CHSTAT_LIM.bit n) (.inl thm),
    flag (f := F.THM_CHSTAT_CRIT.bit n) (.inl thm), flag (f := F.PWR_MON_STAT_WARN) (by decide),
    flag (f := F.PROT_STAT_STOPN) (by decide), get (f := F.PROT_CFG_STOPNACT) (by decide), flag (f := F.PROT_STAT_SPWD) (by decide),
    get (f := F.PROT_CFG_SPTOACT) (by decide)]

/-- What START takes over of the rings and lays aside. -/
def ringsTaken (n : Fin 16) (sl cl : Nat) (s : State) : State :=
  s.modWork n fun w =>
    { w with awaitStart := false, cmpBase := s.pair (A.WRK_CMPn_BASE_LO n) (A.WRK_CMPn_BASE_HI n), cmpLog := cl, scrLog := sl,
             fetchStop := false, fetched := none, accepting := none, accFailTick := none, ckptTick := s.tick, causes := [] }

/-- The registers of WRK as START from IDLE sets them. -/
def startRegs (n : Fin 16) (s : State) : State :=
  ((cmdRes n 0 (s.put (F.WRK_SCRn_STAT_STATE n) 1)).put (F.WRK_SCRn_STAT_HCAUSE n) 0).put (F.WRK_SCRn_CIDX_CIDX n) 0

/-- Whether an open page keeps its direction over START. -/
def startDir (n : Fin 16) (goes : Bool) (dir : Nat) (s : State) : State := if goes then s.put (F.CHn_FT_STAT_DIR n) dir else s

/-- The fire timing as START leaves it. -/
def startFire (n : Fin 16) (h : BitVec 64) (sosk : Bool) (st : Nat) (s : State) : State :=
  (s.modFt n fun f => { f with decidedSince := false, armed := false, waitMark := false, waitArm := false, armedSince := false, h := h,
                               sosk := sosk }).put (F.CHn_FT_STAT_STATE n) st

theorem startTake_eq {n : Fin 16} {s : State} (idle : s.wstate n = 0) (sl cl : Nat) : ∃ h sosk st, startTake n sl cl s =
    startFire n h sosk st (startDir n (!s.pageOver n) (s.get (F.CHn_LED_LINE_DIR n)) (startRegs n (ringsTaken n sl cl s))) := by
  refine ⟨(startDir n (!s.pageOver n) (s.get (F.CHn_LED_LINE_DIR n)) (startRegs n (ringsTaken n sl cl s))).q n,
    if !s.pageOver n then s.flag (F.CHn_LED_LINE_SOSK n) else false, if s.flag (F.CHn_FT_CTRL_FIRE_EN n) then 1 else 0, ?_⟩
  unfold startTake
  dsimp only
  rw [idle]
  rfl

/-- What START changes of a channel before holds and open pages are looked at. -/
structure Started (n : Fin 16) (sl : Nat) (s t : State) : Prop where
  only : onlyChAt n [A.WRK_SCRn_STAT n, A.WRK_SCRn_CIDX n, A.CHn_FT_STAT n] s t
  state : t.wstate n = 1
  done : t.cmdDone n
  cidx : t.get (F.WRK_SCRn_CIDX_CIDX n) = 0
  base : (t.ch n).work.cmpBase = s.pair (A.WRK_CMPn_BASE_LO n) (A.WRK_CMPn_BASE_HI n)
  log : (t.ch n).work.scrLog = sl
  lines : s.pageOver n = true → SameLines n id s t

theorem ftStat_apart (n : Fin 16) : A.CHn_FT_STAT n ≠ A.WRK_SCRn_STAT n ∧ A.CHn_FT_STAT n ≠ A.WRK_SCRn_CIDX n ∧
    A.WRK_SCRn_STAT n ≠ A.WRK_SCRn_CIDX n := by
  have := n.isLt
  unfold A.CHn_FT_STAT A.WRK_SCRn_STAT A.WRK_SCRn_CIDX
  omega

/-- The registers of WRK read as START sets them, whatever it sets of the fire timing. -/
theorem startFire_word (n : Fin 16) (h : BitVec 64) (sosk : Bool) (st : Nat) (goes : Bool) (dir : Nat) (s : State) {a : Nat}
    (far : a ≠ A.CHn_FT_STAT n) : (startFire n h sosk st (startDir n goes dir s)).word a = s.word a := by
  refine (State.word_put_ne _ _ far).trans ((State.modFt_word ..).trans ?_)
  unfold startDir
  split
  · exact State.word_put_ne _ _ far
  · rfl

theorem startRegs_state (n : Fin 16) (s : State) : (startRegs n s).wstate n = 1 := by
  refine (State.get_put_ne _ _ (ftStat_apart n).2.2).trans ?_
  refine (State.get_put_other _ _ (.inr (by simp [F.WRK_SCRn_STAT_STATE, F.WRK_SCRn_STAT_HCAUSE]))).trans ?_
  refine (cmdRes_state n 0 _).trans ?_
  exact State.get_put_same _ _ (by simp [F.WRK_SCRn_STAT_STATE])

theorem startRegs_done (n : Fin 16) (s : State) : (startRegs n s).get (F.WRK_SCRn_STAT_CMDRES n) = 0 := by
  refine (State.get_put_ne _ _ (ftStat_apart n).2.2).trans ?_
  refine (State.get_put_other _ _ (.inl (by simp [F.WRK_SCRn_STAT_CMDRES, F.WRK_SCRn_STAT_HCAUSE]))).trans ?_
  exact cmdRes_done n _

theorem startRegs_cidx (n : Fin 16) (s : State) : (startRegs n s).get (F.WRK_SCRn_CIDX_CIDX n) = 0 :=
  State.get_put_same _ _ (by simp [F.WRK_SCRn_CIDX_CIDX])

/-- A page's direction is that of before where START does not write it. -/
theorem startFire_dir (n : Fin 16) (h : BitVec 64) (sosk : Bool) (st dir : Nat) (s : State) :
    (startFire n h sosk st (startDir n false dir s)).pageDir n = s.pageDir n :=
  (State.flag_put_other _ _ (.inl (by simp [F.CHn_FT_STAT_STATE, F.CHn_FT_STAT_DIR]))).trans (State.modFt_flag ..)

theorem startRegs_word (n : Fin 16) (s : State) {a : Nat} (far : 0x1000000 ≤ a) : (startRegs n s).word a = s.word a := by
  have := n.isLt
  have stat : a ≠ A.WRK_SCRn_STAT n := by
    unfold A.WRK_SCRn_STAT
    omega
  have cidx : a ≠ A.WRK_SCRn_CIDX n := by
    unfold A.WRK_SCRn_CIDX
    omega
  exact (State.word_put_ne _ _ cidx).trans ((State.word_put_ne _ _ stat).trans ((cmdRes_word n 0 _ stat).trans (State.word_put_ne _ _ stat)))

theorem startRegs_ch (n : Fin 16) (s : State) : (startRegs n s).ch n = s.ch n := by
  unfold startRegs cmdRes
  rw [State.put_ch, State.put_ch, State.put_ch, State.put_ch]

theorem startFire_ch (n : Fin 16) (h : BitVec 64) (sosk : Bool) (st : Nat) (goes : Bool) (dir : Nat) (s : State) :
    (startFire n h sosk st (startDir n goes dir s)).ch n = { (s.ch n) with ft := { (s.ch n).ft with
      decidedSince := false, armed := false, waitMark := false, waitArm := false, armedSince := false, h := h, sosk := sosk } } := by
  unfold startFire startDir
  rw [State.put_ch, State.ch_modFt_same]
  split
  · rw [State.put_ch]
  · rfl

theorem ringsTaken_ch (n : Fin 16) (sl cl : Nat) (s : State) : (ringsTaken n sl cl s).ch n = { (s.ch n) with work := { (s.ch n).work with
    awaitStart := false, cmpBase := s.pair (A.WRK_CMPn_BASE_LO n) (A.WRK_CMPn_BASE_HI n), cmpLog := cl, scrLog := sl,
    fetchStop := false, fetched := none, accepting := none, accFailTick := none, ckptTick := s.tick, causes := [] } } :=
  State.ch_modWork_same ..

theorem startTake_started {n : Fin 16} {s : State} (idle : s.wstate n = 0) (sl cl : Nat) : Started n sl s (startTake n sl cl s) := by
  obtain ⟨h, sosk, st, e⟩ := startTake_eq idle sl cl
  obtain ⟨apartStat, apartCidx, -⟩ := ftStat_apart n
  rw [e]
  have word {a : Nat} (far : a ≠ A.CHn_FT_STAT n) := startFire_word n h sosk st (!s.pageOver n) (s.get (F.CHn_LED_LINE_DIR n))
    (startRegs n (ringsTaken n sl cl s)) far
  have regs : onlyChAt n [A.WRK_SCRn_STAT n, A.WRK_SCRn_CIDX n, A.CHn_FT_STAT n] s (startRegs n (ringsTaken n sl cl s)) := by
    unfold startRegs cmdRes ringsTaken State.modWork
    refine .trans ?_ (.put _ n _ (by simp [F.WRK_SCRn_CIDX_CIDX]))
    refine .trans ?_ (.put _ n _ (by simp [F.WRK_SCRn_STAT_HCAUSE]))
    refine .trans ?_ (.put _ n _ (by simp [F.WRK_SCRn_STAT_CMDRES]))
    refine .trans ?_ (.put _ n _ (by simp [F.WRK_SCRn_STAT_STATE]))
    exact .modCh s n _
  have dir (u : State) (goes : Bool) (k : Nat) : onlyChAt n [A.WRK_SCRn_STAT n, A.WRK_SCRn_CIDX n, A.CHn_FT_STAT n] u (startDir n goes k u) := by
    unfold startDir
    split
    · exact .put u n _ (by simp [F.CHn_FT_STAT_DIR])
    · exact .refl ..
  have ch := startFire_ch n h sosk st (!s.pageOver n) (s.get (F.CHn_LED_LINE_DIR n)) (startRegs n (ringsTaken n sl cl s))
  have rings := ringsTaken_ch n sl cl s
  exact {
    only := (regs.trans (dir _ _ _)).trans (.trans (.modCh _ n _) (.put _ n _ (by simp [F.CHn_FT_STAT_STATE])))
    state := (State.get_of_word (word apartStat.symm)).trans (startRegs_state n _)
    done := (State.get_of_word (word apartStat.symm)).trans (startRegs_done n _)
    cidx := (State.get_of_word (word apartCidx.symm)).trans (startRegs_cidx n _)
    base := by rw [ch, startRegs_ch, rings]
    log := by rw [ch, startRegs_ch, rings]
    lines := fun done => {
      kept := .id
      bands := by rw [ch, startRegs_ch, rings, List.map_id]
      decPage := by rw [ch, startRegs_ch, rings]
      decL := by rw [ch, startRegs_ch, rings]
      delay := State.maxDelay_congr ((word (by simp [A.CHn_IMG_GEOM, A.CHn_FT_STAT])).trans (startRegs_word n _ (by
          unfold A.CHn_IMG_GEOM
          omega)))
        (fun r _ => (word (by unfold A.CHn_FT_ROWDLYr A.CHn_FT_STAT; omega)).trans (startRegs_word n _ (by
          unfold A.CHn_FT_ROWDLYr
          omega)))
        (by rw [ch, startRegs_ch, rings]) (by rw [ch, startRegs_ch, rings])
      dir := by
        rw [done]
        exact (startFire_dir ..).trans (State.flag_of_word (startRegs_word n _ (by
          simp only [F.CHn_FT_STAT_DIR, A.CHn_FT_STAT]
          omega))) } }

/-! ### What a re-armed page leaves of START -/

/-- CMDRES, CIDX and the rings taken over are as before. -/
structure CmdKept (n : Fin 16) (s t : State) : Prop where
  res : t.get (F.WRK_SCRn_STAT_CMDRES n) = s.get (F.WRK_SCRn_STAT_CMDRES n)
  cidx : t.get (F.WRK_SCRn_CIDX_CIDX n) = s.get (F.WRK_SCRn_CIDX_CIDX n)
  base : (t.ch n).work.cmpBase = (s.ch n).work.cmpBase
  log : (t.ch n).work.scrLog = (s.ch n).work.scrLog

namespace CmdKept

variable {n : Fin 16} {s t u : State}

theorem refl (n : Fin 16) (s : State) : CmdKept n s s := ⟨rfl, rfl, rfl, rfl⟩

theorem trans (h : CmdKept n s t) (k : CmdKept n t u) : CmdKept n s u :=
  ⟨k.res.trans h.res, k.cidx.trans h.cidx, k.base.trans h.base, k.log.trans h.log⟩

theorem ite {c : Prop} [Decidable c] (h : CmdKept n s t) (k : CmdKept n s u) : CmdKept n s (if c then t else u) := by
  split
  · exact h
  · exact k

theorem of_reaction (f : RaiseFrame s t) (r : Reacts s t) : CmdKept n s t where
  res := r.res n
  cidx := f.get (quiet_cidx n)
  base := f.workField n (·.cmpBase) fun _ _ _ _ _ _ _ _ _ => rfl
  log := f.workField n (·.scrLog) fun _ _ _ _ _ _ _ _ _ => rfl

theorem ft (s : State) (g : Ft → Ft) : CmdKept n s (s.modFt n g) := ⟨rfl, rfl, by simp, by simp⟩

theorem work (s : State) (g : Work → Work) (base : (g (s.ch n).work).cmpBase = (s.ch n).work.cmpBase)
    (log : (g (s.ch n).work).scrLog = (s.ch n).work.scrLog) : CmdKept n s (s.modWork n g) :=
  ⟨rfl, rfl, by simp [base], by simp [log]⟩

theorem put (s : State) {f : Fld} (v : Nat) (stat : f.addr ≠ A.WRK_SCRn_STAT n) (cidx : f.addr ≠ A.WRK_SCRn_CIDX n) :
    CmdKept n s (s.put f v) :=
  ⟨State.get_put_ne _ _ stat.symm, State.get_put_ne _ _ cidx.symm, rfl, rfl⟩

/-- A field of a register of the channel's own block. -/
theorem putCh (s : State) {f : Fld} (v : Nat) (own : 0xD0000 ≤ f.addr) : CmdKept n s (s.put f v) := by
  have := n.isLt
  refine put s v (fun e => ?_) (fun e => ?_)
  · unfold A.WRK_SCRn_STAT at e
    omega
  · unfold A.WRK_SCRn_CIDX at e
    omega

theorem bandDone (n : Fin 16) (s : State) (b : Band) : CmdKept n s (bandDone n s b) where
  res := (bandDone_reacts n s b).res n
  cidx := (bandDone_frame n s b).get (quiet_cidx n)
  base := (bandDone_frame n s b).workField n (·.cmpBase) fun _ _ _ _ _ _ _ _ _ => rfl
  log := (bandDone_frame n s b).workField n (·.scrLog) fun _ _ _ _ _ _ _ _ _ => rfl

theorem settleDone (n : Fin 16) (s : State) : CmdKept n s (settleDone n s) := by
  have all (l : List Band) : ∀ s, CmdKept n s (l.foldl (Machine.bandDone n) s) := by
    induction l with
    | nil => exact refl n
    | cons b l ih => exact fun s => (bandDone n s b).trans (ih _)
  refine ite (refl n s) ?_
  rw [checkDone_eq]
  exact (work s _ rfl rfl).trans (all _ _)

theorem checkUnderrun (n : Fin 16) (s : State) : CmdKept n s (checkUnderrun n s) :=
  ite (of_reaction (.hold s n 5) (.hold s n 5)) (refl n s)

theorem setKind (n : Fin 16) (k : Bool × Bool) (s : State) : CmdKept n s (setKind n k s) :=
  (putCh s _ (by simp only [F.CHn_FT_STAT_DIR, A.CHn_FT_STAT]; omega)).trans (ft _ _)

theorem waitMarkAt (n : Fin 16) (pg l : Nat) (s : State) : CmdKept n s (waitMarkAt n pg l s) := (ft _ _).trans (work _ _ rfl rfl)

theorem putFtState (n : Fin 16) (v : Nat) (s : State) : CmdKept n s (s.put (F.CHn_FT_STAT_STATE n) v) :=
  putCh s _ (by simp only [F.CHn_FT_STAT_STATE, A.CHn_FT_STAT]; omega)

theorem fixDelays (n : Fin 16) (pg : Nat) (back : Bool) (s : State) : CmdKept n s (fixDelays n pg back s) := by
  unfold Machine.fixDelays
  exact ft s _

theorem rearmAt (n : Fin 16) (x : BitVec 80) (s : State) : CmdKept n s (rearmAt n x s) := by
  refine .trans ?_ (checkUnderrun n _)
  have begun : CmdKept n s (((s.put (F.CHn_FT_STAT_STATE n) 2).put (F.CHn_FT_LINES_LINES n) 0).modFt n fun f =>
      { f with h := s.q n, x := x, armed := true, excursion := false, waitMark := false, waitArm := false, armedSince := true }) :=
    ((putFtState n 2 s).trans (putCh _ _ (by simp only [F.CHn_FT_LINES_LINES, A.CHn_FT_LINES]; omega))).trans (ft _ _)
  split
  · exact begun.trans ((work _ _ rfl rfl).trans (fixDelays n _ _ _))
  · exact begun

/-- Re-arming, whatever it comes to, leaves what START took over. -/
theorem rearm (n : Fin 16) (s : State) : CmdKept n s (rearm n s) := by
  refine (settleDone n s).trans ?_
  unfold Machine.rearm
  dsimp only
  generalize Machine.settleDone n s = u
  have wait : CmdKept n u ((u.modFt n fun f => { f with armed := false, waitMark := false, waitArm := false }).put
      (F.CHn_FT_STAT_STATE n) 1) := (ft u _).trans (putFtState n 1 _)
  refine ite (wait.trans ((ft _ _).trans (putFtState n 0 _))) ?_
  split
  · exact ite wait (ite (wait.trans (waitMarkAt n _ _ _)) (rearmAt n _ u))
  · refine ite (ite (wait.trans ((work _ _ rfl rfl).trans (setKind n _ _))) wait) (ite ?_ ?_)
    · exact .trans (ite (wait.trans (ft _ _)) wait) (waitMarkAt n _ _ _)
    · exact .trans (ite (ft _ _) (refl n u)) (rearmAt n _ _)

end CmdKept

theorem onlyChAt.noteReady {n : Fin 16} {as : List Nat} {s t : State} (h : onlyChAt n as s t) (s0 : State) :
    onlyChAt n as { s with capo := (noteReady n s0 t).capo } (noteReady n s0 t) := by
  obtain ⟨same, chans, regs⟩ := h
  refine ⟨?_, fun k hk => (noteReady_ch ..).trans (chans k hk), fun a ha => (noteReady_word ..).trans (regs a ha)⟩
  rw [noteReady_eq, same]

theorem onlyChAt.journal {n : Fin 16} {as : List Nat} {s t : State} (h : onlyChAt n as s t) (k : Fin 16) :
    t.journal k = s.journal k := by
  rw [h.1]
  rfl

/-- What START leaves as it was of the requirement "Fault cleared". -/
theorem startTake_faultCleared {n : Fin 16} {sl cl : Nat} {s : State} (h : Started n sl s (startTake n sl cl s)) :
    (startTake n sl cl s).faultCleared n = s.faultCleared n := by
  obtain ⟨same, -, regs⟩ := h.only
  refine State.faultCleared_congr n (by rw [same]) fun a far => regs a ?_
  have := n.isLt
  simp only [List.mem_cons, List.not_mem_nil, or_false]
  unfold A.WRK_SCRn_STAT A.WRK_SCRn_CIDX A.CHn_FT_STAT
  omega

/-- The page of a channel that START has put in RUN is re-armed where one is open. -/
def startArm (n : Fin 16) (s : State) : State := if ¬ s.pageOver n ∧ s.wstate n = 1 then rearm n s else s

theorem runStart_takes {n : Fin 16} {s : State} (idle : s.wstate n = 0) (scr : 4 ≤ s.get (F.WRK_SCRn_SIZE_SCR_LOG2 n))
    (scr' : s.get (F.WRK_SCRn_SIZE_SCR_LOG2 n) ≤ 12) (cmp : 4 ≤ s.get (F.WRK_SCRn_SIZE_CMP_LOG2 n))
    (cmp' : s.get (F.WRK_SCRn_SIZE_CMP_LOG2 n) ≤ 12) (causes : (s.ch n).work.causes = []) (due : (s.ch n).work.due = [])
    (clear : s.faultCleared n = true) : runStart n s =
      startArm n (startTake n (s.get (F.WRK_SCRn_SIZE_SCR_LOG2 n)) (s.get (F.WRK_SCRn_SIZE_CMP_LOG2 n)) s) := by
  have cleared := (startTake_faultCleared (startTake_started idle (s.get (F.WRK_SCRn_SIZE_SCR_LOG2 n))
    (s.get (F.WRK_SCRn_SIZE_CMP_LOG2 n)))).trans clear
  unfold runStart
  dsimp only
  rw [if_neg (by omega), if_neg (by omega), causes, due, List.foldl_nil, if_pos cleared, idle]
  simp only [List.length_nil, postReposts, startArm]
  simp

theorem cmdStart_starts {s : State} {m : Master} {n : Fin 16} (h : s.commands m n = true) (idle : s.wstate n = 0)
    (scr : 4 ≤ s.get (F.WRK_SCRn_SIZE_SCR_LOG2 n)) (scr' : s.get (F.WRK_SCRn_SIZE_SCR_LOG2 n) ≤ 12)
    (cmp : 4 ≤ s.get (F.WRK_SCRn_SIZE_CMP_LOG2 n)) (cmp' : s.get (F.WRK_SCRn_SIZE_CMP_LOG2 n) ≤ 12)
    (causes : (s.ch n).work.causes = []) (due : (s.ch n).work.due = []) (clear : s.faultCleared n = true) :
    does (.cmdStart m n) s fun t => t.cmdDone n ∧ t.get (F.WRK_SCRn_CIDX_CIDX n) = 0 ∧
      (t.ch n).work.cmpBase = s.pair (A.WRK_CMPn_BASE_LO n) (A.WRK_CMPn_BASE_HI n) ∧
      (t.ch n).work.scrLog = s.get (F.WRK_SCRn_SIZE_SCR_LOG2 n) ∧ (s.pageOver n → t.wstate n = 1 ∧
        onlyChAt n [A.WRK_SCRn_STAT n, A.WRK_SCRn_CIDX n, A.CHn_FT_STAT n] { s with capo := t.capo } t) := by
  have taken := runStart_takes idle scr scr' cmp cmp' causes due clear
  have started := startTake_started idle (s.get (F.WRK_SCRn_SIZE_SCR_LOG2 n)) (s.get (F.WRK_SCRn_SIZE_CMP_LOG2 n))
  generalize startTake n (s.get (F.WRK_SCRn_SIZE_SCR_LOG2 n)) (s.get (F.WRK_SCRn_SIZE_CMP_LOG2 n)) s = u at taken started
  have meaning : exec (.cmdStart m n) s = .next (noteReady n s (startArm n u)) := by
    rw [exec_cmdStart, cmdWrite_runs h (State.cmdJournals_not (.inl (by decide))), ← taken]
    simp [runCmd, State.commands_joined h]
  have kept : CmdKept n u (startArm n u) := .ite (.rearm n u) (.refl n u)
  refine does_of meaning ⟨?_, ?_, ?_, ?_, fun done => ?_⟩
  · exact (noteReady_get ..).trans (kept.res.trans started.done)
  · exact (noteReady_get ..).trans (kept.cidx.trans started.cidx)
  · rw [noteReady_ch, kept.base, started.base]
  · rw [noteReady_ch, kept.log, started.log]
  · have still : u.pageOver n = true := ((started.lines done).pageOver (started.only.journal n)).trans done
    rw [startArm, if_neg fun open' => open'.1 still]
    exact ⟨(noteReady_get ..).trans started.state, started.only.noteReady s⟩

/-! ### HCAUSE becomes 0 -/

theorem stat_high (n : Fin 16) : 0xC0000 ≤ A.WRK_SCRn_STAT n := by
  unfold A.WRK_SCRn_STAT
  omega

/-- HCAUSE has become 0, and HELD, of severity S0 or S1, has told of it where it was another. -/
structure CauseGone (n : Fin 16) (s t : State) : Prop where
  frame : RaiseFrame s t
  word : ∀ a, 0xC0000 ≤ a → a ≠ A.WRK_SCRn_STAT n → t.word a = s.word a
  state : t.wstate n = s.wstate n
  cause : t.get (F.WRK_SCRn_STAT_HCAUSE n) = 0
  ch : ∀ k, t.ch k = s.ch k
  journal : ∀ k, t.journal k = s.journal k
  idle : s.get (F.WRK_SCRn_STAT_HCAUSE n) = 0 → t = s
  told : s.get (F.WRK_SCRn_STAT_HCAUSE n) ≠ 0 → raises (chEvt n 2) s t

theorem causeGone_refl {n : Fin 16} {s : State} (h : s.get (F.WRK_SCRn_STAT_HCAUSE n) = 0) : CauseGone n s s :=
  ⟨.refl s, fun _ _ _ => rfl, rfl, h, fun _ => rfl, fun _ => rfl, fun _ => rfl, fun e => absurd h e⟩

theorem showCause_gone {n : Fin 16} {s : State} (sev : s.sevOf (chEvt n 2) ≤ 1) : CauseGone n s (showCause (raiseN 6) n 0 s) := by
  have ev := RaiseFrame.chEvt_lt n (k := 2) (by decide)
  by_cases e : s.get (F.WRK_SCRn_STAT_HCAUSE n) = 0
  · rw [showCause, if_pos e.symm]
    exact causeGone_refl e
  · rw [showCause, if_neg (Ne.symm e)]
    have apart {a : Nat} (h : a < 0xC0000) : a ≠ A.WRK_SCRn_STAT n := by
      have := stat_high n
      omega
    have put := RaiseFrame.putCause s n 0
    have state : (s.put (F.WRK_SCRn_STAT_HCAUSE n) 0).wstate n = s.wstate n :=
      State.get_put_other _ _ (.inr (by simp [F.WRK_SCRn_STAT_STATE, F.WRK_SCRn_STAT_HCAUSE]))
    have cause : (s.put (F.WRK_SCRn_STAT_HCAUSE n) 0).get (F.WRK_SCRn_STAT_HCAUSE n) = 0 :=
      State.get_put_same _ _ (by simp [F.WRK_SCRn_STAT_HCAUSE])
    have word {a : Nat} (h : a ≠ A.WRK_SCRn_STAT n) : (s.put (F.WRK_SCRn_STAT_HCAUSE n) 0).word a = s.word a :=
      State.word_put_ne _ _ h
    have host : (s.put (F.WRK_SCRn_STAT_HCAUSE n) 0).domOn 0 = s.domOn 0 := State.domOn_zero_of_word (word (apart (by decide)))
    have sev' : (s.put (F.WRK_SCRn_STAT_HCAUSE n) 0).sevOf (chEvt n 2) ≤ 1 :=
      (State.sevOf_of_word (word (apart (by unfold A.FLT_SEVw; omega)))).trans_le sev
    have ch (k : Fin 16) : (s.put (F.WRK_SCRn_STAT_HCAUSE n) 0).ch k = s.ch k := rfl
    have jnl (k : Fin 16) : (s.put (F.WRK_SCRn_STAT_HCAUSE n) 0).journal k = s.journal k := rfl
    generalize s.put (F.WRK_SCRn_STAT_HCAUSE n) 0 = u at *
    have told : Told u (raiseN 6 (chEvt n 2) u) := Told.raise u ev sev'
    have high := toldReg_high (stat_high n)
    exact {
      frame := put.trans (.raiseN 6 _ u ev)
      word := fun a h h' => (told.word a (toldReg_high h)).trans (word h')
      state := (told.get high).trans state
      cause := (told.get high).trans cause
      ch := fun k => (told.ch k).trans (ch k)
      journal := fun k => (told.journal k).trans (jnl k)
      idle := fun h => absurd h e
      told := fun _ on => raise_pending u ev (host.trans on) }

/-! ### RESUME -/

/-- The channel is in RUN with no cause of a hold, before HCAUSE shows it. -/
def resumed (n : Fin 16) (s : State) : State :=
  (s.modWork n fun w => { w with causes := [], fetchStop := false }).put (F.WRK_SCRn_STAT_STATE n) 1

theorem pendFld_low {e : Nat} (h : e < 512) : (pendFld e).addr < 0xC0000 := by
  simp only [pendFld, A.EVT_PENDw]
  omega

/-- With no line pending on a page that is over, re-arming writes the channel's fire timing only. -/
structure Rearmed (n : Fin 16) (s t : State) : Prop where
  only : onlyChAt n [A.CHn_FT_STAT n] s t
  calm : calm s t
  causes : (t.ch n).work.causes = (s.ch n).work.causes

theorem Rearmed.trans {n : Fin 16} {s t u : State} (h : Rearmed n s t) (k : Rearmed n t u) : Rearmed n s u :=
  ⟨h.only.trans k.only, h.calm.trans k.calm, k.causes.trans h.causes⟩

theorem loud_ftStat (n : Fin 16) : quiet (A.CHn_FT_STAT n) = false := by
  have m := mem_chans n (a := A.CHn_FT_STAT n) (.inr (.inl rfl))
  simp [quiet, m]

theorem Rearmed.ft (n : Fin 16) (s : State) (g : Ft → Ft) : Rearmed n s (s.modFt n g) := ⟨.modCh s n _, Calm.ft s n g, by simp⟩

theorem Rearmed.put (n : Fin 16) (s : State) (v : Nat) : Rearmed n s (s.put (F.CHn_FT_STAT_STATE n) v) :=
  ⟨.put s n _ (by simp [F.CHn_FT_STAT_STATE]), Calm.put _ _ (loud_ftStat n), by rw [State.put_ch]⟩

theorem Rearmed.bands (n : Fin 16) (s : State) (g : List Band → List Band) :
    Rearmed n s (s.modWork n fun w => { w with bands := g w.bands }) := ⟨.modCh s n _, Calm.work s n _, by simp⟩

/-- Outside a window with no band complete, and inside one, at most which bands are FIRING is noted. -/
theorem settleDone_notes {n : Fin 16} {s : State} (h : s.noneMet n = true ∨ s.inWindow n = true) :
    settleDone n s = s ∨ settleDone n s = noteFiring n s := by
  unfold settleDone
  by_cases win : s.inWindow n = true
  · exact .inl (if_pos win)
  · rw [if_neg win]
    exact .inr (checkDone_noneMet (h.resolve_right win))

theorem SameLines.refl (n : Fin 16) (s : State) : SameLines n id s s :=
  ⟨.id, (List.map_id _).symm, rfl, rfl, fun _ _ => rfl, rfl⟩

theorem SameLines.noteFiring (n : Fin 16) (s : State) :
    SameLines n (Band.noted (s.ch n).work.firedPage (s.ch n).work.firedL) s (noteFiring n s) := by
  rw [noteFiring_eq]
  exact ⟨.noted .., by simp, by simp, by simp, fun _ _ => State.maxDelay_modWork .., rfl⟩

theorem rearm_rearmed {n : Fin 16} {s : State} (met : s.noneMet n = true ∨ s.inWindow n = true) (none : s.pendingLine n = Option.none)
    (done : s.pageOver n = true) : Rearmed n s (rearm n s) := by
  obtain ⟨settled, none', done'⟩ : Rearmed n s (settleDone n s) ∧ (settleDone n s).pendingLine n = Option.none ∧
      (settleDone n s).pageOver n = true := by
    rcases settleDone_notes met with e | e
    · rw [e]
      exact ⟨⟨.refl .., .refl .., rfl⟩, none, done⟩
    · have same := SameLines.noteFiring n s
      rw [e]
      exact ⟨.bands n s _, by rw [same.pendingLine, none]; rfl, (same.pageOver rfl).trans done⟩
  refine settled.trans ?_
  unfold rearm
  dsimp only
  generalize settleDone n s = u at none' done' ⊢
  rw [none']
  dsimp only
  rw [if_pos done']
  have wait := (Rearmed.ft n u fun f => { f with armed := false, waitMark := false, waitArm := false }).trans (.put n _ 1)
  split
  · exact wait.trans ((Rearmed.ft n _ _).trans (.put n _ 0))
  · exact wait


theorem SameLines.noneMetAt {n : Fin 16} {g : Band → Band} {s t : State} (h : SameLines n g s t) (pg l : Nat) :
    t.noneMetAt n pg l = s.noneMetAt n pg l := by
  simp only [State.noneMetAt, h.bands, h.delay, h.dir, List.all_map]
  refine congrArg (fun p => List.all _ p) (funext fun b => ?_)
  have ended := h.kept.ended b
  rw [Bool.eq_iff_iff]
  simp only [Function.comp_apply, Bool.or_eq_true, beq_iff_eq, Band.met, h.kept.page, h.kept.l0, h.kept.desc, ended]

/-- What a note of slots leaves as it was, the slots apart. -/
theorem Calm.noteReady {n : Fin 16} {s t : State} (h : calm s t) (s0 : State) :
    calm { s with capo := (noteReady n s0 t).capo } (noteReady n s0 t) := by
  rw [noteReady_eq n s0 t]
  generalize (Machine.noteReady n s0 t).capo = c
  exact { h with capo := rfl }

theorem resumed_only (n : Fin 16) (s : State) : onlyChAt n [A.WRK_SCRn_STAT n, A.CHn_FT_STAT n] s (resumed n s) :=
  (onlyChAt.modCh s n _).trans (.put _ n _ (by simp [F.WRK_SCRn_STAT_STATE]))

theorem resumed_word (n : Fin 16) (s : State) {a : Nat} (h : a ≠ A.WRK_SCRn_STAT n) : (resumed n s).word a = s.word a :=
  (State.word_put_ne _ _ h).trans (State.modWork_word ..)

theorem resumed_state (n : Fin 16) (s : State) : (resumed n s).wstate n = 1 := State.get_put_same _ _ (by simp [F.WRK_SCRn_STAT_STATE])

theorem resumed_cause (n : Fin 16) (s : State) : (resumed n s).get (F.WRK_SCRn_STAT_HCAUSE n) = s.get (F.WRK_SCRn_STAT_HCAUSE n) :=
  (State.get_put_other _ _ (.inl (by simp [F.WRK_SCRn_STAT_STATE, F.WRK_SCRn_STAT_HCAUSE]))).trans (State.modWork_get ..)

theorem resumed_ch (n : Fin 16) (s : State) :
    (resumed n s).ch n = { (s.ch n) with work := { (s.ch n).work with causes := [], fetchStop := false } } := by
  rw [resumed, State.put_ch, State.ch_modWork_same]

theorem resumed_calm (n : Fin 16) (s : State) : calm s (resumed n s) := (Calm.work s n _).trans (Calm.put _ _ (loud_scrStat n))

/-- Neither RESUME nor its event touches what the pending line rests on. -/
theorem resumed_lines {n : Fin 16} {s t : State} (gone : CauseGone n (resumed n s) t) : SameLines n id s t := by
  have := n.isLt
  have word {a : Nat} (h : 0x1000000 ≤ a) : t.word a = s.word a := by
    have ne : a ≠ A.WRK_SCRn_STAT n := by
      unfold A.WRK_SCRn_STAT
      omega
    exact (gone.word a (by omega) ne).trans (resumed_word n s ne)
  exact {
    kept := .id
    bands := by rw [gone.ch, resumed_ch, List.map_id]
    decPage := by rw [gone.ch, resumed_ch]
    decL := by rw [gone.ch, resumed_ch]
    delay := State.maxDelay_congr (word (by unfold A.CHn_IMG_GEOM; omega)) (fun r _ => word (by unfold A.CHn_FT_ROWDLYr; omega))
      (by rw [gone.ch, resumed_ch]) (by rw [gone.ch, resumed_ch])
    dir := State.flag_of_word (word (by simp only [F.CHn_FT_STAT_DIR, A.CHn_FT_STAT]; omega)) }

theorem cmdResume_resumes {s : State} {m : Master} {n : Fin 16} (h : s.commands m n = true) (may : s.mayResume n = true)
    (sev : s.sevOf (chEvt n 2) ≤ 1) (none : s.pendingLine n = Option.none) (done : s.pageOver n = true)
    (met : s.noneMet n = true ∨ s.inWindow n = true) : does (.cmdResume m n) s fun t =>
      t.wstate n = 1 ∧ t.get (F.WRK_SCRn_STAT_HCAUSE n) = 0 ∧ t.cmdDone n ∧ (t.ch n).work.causes = [] ∧
      (s.get (F.WRK_SCRn_STAT_HCAUSE n) ≠ 0 → raises (chEvt n 2) s t) ∧ calm { s with capo := t.capo } t ∧ chBut n s t ∧
      (s.get (F.WRK_SCRn_STAT_HCAUSE n) = 0 → onlyChAt n [A.WRK_SCRn_STAT n, A.CHn_FT_STAT n] { s with capo := t.capo } t) := by
  have low {a : Nat} (b : a < 0xC0000) : a ≠ A.WRK_SCRn_STAT n := by
    have := stat_high n
    omega
  have gone : CauseGone n (resumed n s) (showCause (raiseN 6) n 0 (resumed n s)) :=
    showCause_gone ((State.sevOf_of_word (resumed_word n s (low (by unfold A.FLT_SEVw; have := n.isLt; unfold chEvt; omega)))).trans_le sev)
  have ran : runCmd 3 (s.argSeq n) (s.argAddr n) n s = cmdRes n 0 (rearm n (showCause (raiseN 6) n 0 (resumed n s))) := by
    have run := gone.state.trans (resumed_state n s)
    simp only [runCmd, State.commands_joined h, runResume, cmdIf, may]
    exact congrArg (cmdRes n 0) (if_pos run)
  generalize showCause (raiseN 6) n 0 (resumed n s) = v at gone ran
  have same := resumed_lines gone
  have rearmed : Rearmed n v (rearm n v) := by
    refine rearm_rearmed ?_ (by rw [same.pendingLine, none]; rfl) ?_
    · refine met.imp (fun e => ?_) (fun e => ?_)
      · rw [State.noneMet, same.noneMetAt, gone.ch, resumed_ch]
        exact e
      · rw [State.inWindow, gone.ch, resumed_ch, gone.frame.tick]
        exact e
    · exact (same.pageOver ((gone.journal n).trans ((resumed_only n s).journal n))).trans done
  generalize rearm n v = w at rearmed ran
  obtain ⟨only, rearmedCalm, causes⟩ := rearmed
  obtain ⟨wsame, wchans, wregs⟩ := only
  have stat : A.WRK_SCRn_STAT n ∉ [A.CHn_FT_STAT n] := by simpa using (ftStat_apart n).1.symm
  have meaning : exec (.cmdResume m n) s = .next (noteReady n s (cmdRes n 0 w)) := by
    rw [exec_cmdResume, cmdWrite_runs h (State.cmdJournals_not (.inl (by decide))), ran]
  refine does_of meaning ⟨?_, ?_, ?_, ?_, fun c on => ?_, ?_, fun k hk => ?_, fun c => ?_⟩
  · exact (noteReady_get ..).trans ((cmdRes_state ..).trans ((State.get_of_word (wregs _ stat)).trans
      (gone.state.trans (resumed_state n s))))
  · exact (noteReady_get ..).trans ((cmdRes_cause ..).trans ((State.get_of_word (wregs _ stat)).trans gone.cause))
  · exact (noteReady_get ..).trans (cmdRes_done ..)
  · rw [noteReady_ch, cmdRes_ch, causes, gone.ch, resumed_ch]
  · have ev := pendFld_low (RaiseFrame.chEvt_lt n (k := 2) (by decide))
    have far : (pendFld (chEvt n 2)).addr ∉ [A.CHn_FT_STAT n] := by
      simp only [List.mem_singleton]
      unfold A.CHn_FT_STAT
      omega
    have told := gone.told (by rwa [resumed_cause]) ((State.domOn_zero_of_word (resumed_word n s (low (by decide)))).trans on)
    rw [noteReady_flag, State.flag_of_word (cmdRes_word n 0 w (low ev)), State.flag_of_word (wregs _ far)]
    exact told
  · exact (((resumed_calm n s).trans gone.frame.calm).trans (rearmedCalm.trans (cmdRes_calm n 0 w))).noteReady s
  · rw [noteReady_ch, cmdRes_ch, wchans k hk, gone.ch]
    exact (resumed_only n s).2.1 k hk
  · have v_eq := gone.idle ((resumed_cause n s).trans c)
    have rest : onlyChAt n [A.WRK_SCRn_STAT n, A.CHn_FT_STAT n] v w :=
      ⟨wsame, wchans, fun a ha => wregs a fun e => ha (List.mem_cons_of_mem _ e)⟩
    rw [v_eq] at rest
    exact (((resumed_only n s).trans rest).trans (.put w n 0 (by simp [F.WRK_SCRn_STAT_CMDRES]))).noteReady s

/-! ### A cause is resolved by a command -/

/-- The only cause of a HELD channel is resolved: HCAUSE has become 0, HELD is pending, and beside what the event writes only the
causes have changed. -/
structure Resolved (n : Fin 16) (s t : State) : Prop where
  state : t.wstate n = 2
  cause : t.get (F.WRK_SCRn_STAT_HCAUSE n) = 0
  pend : t.flag (pendFld (chEvt n 2)) = true
  word : ∀ a, 0xC0000 ≤ a → a ≠ A.WRK_SCRn_STAT n → t.word a = s.word a
  calm : calm s t
  work : (t.ch n).work = { (s.ch n).work with causes := [] }
  chans : chBut n s t

/-- What the resolution of a cause starts from. -/
structure HeldBy (n : Fin 16) (c : Nat) (s : State) : Prop where
  host : s.domOn 0 = true
  state : s.wstate n = 2
  sev : s.sevOf (chEvt n 2) ≤ 1
  cause : s.get (F.WRK_SCRn_STAT_HCAUSE n) = c
  causes : (s.ch n).work.causes = [c]

/-- It does not rest on the registers of the ledger or of the fire timing, nor on other fields of the work. -/
theorem HeldBy.congr {n : Fin 16} {c : Nat} {s t : State} (h : HeldBy n c s) (word : ∀ a, a < 0x1000000 → t.word a = s.word a)
    (causes : (t.ch n).work.causes = (s.ch n).work.causes) : HeldBy n c t := by
  have stat : t.word (A.WRK_SCRn_STAT n) = s.word (A.WRK_SCRn_STAT n) := word _ (by unfold A.WRK_SCRn_STAT; omega)
  exact {
    host := (State.domOn_zero_of_word (word _ (by decide))).trans h.host
    state := (State.get_of_word stat).trans h.state
    sev := (State.sevOf_of_word (word _ (by unfold A.FLT_SEVw chEvt; omega))).trans_le h.sev
    cause := (State.get_of_word stat).trans h.cause
    causes := causes.trans h.causes }

theorem dropCause_resolves {n : Fin 16} {c : Nat} {s : State} (h : HeldBy n c s) (ne : c ≠ 0) : Resolved n s (dropCause n c s) := by
  obtain ⟨host, state, sev, cause, causes⟩ := h
  have dropped : dropCause n c s = showCause (raiseN 6) n 0 (s.modWork n fun w => { w with causes := w.causes.filter (· != c) }) := by
    have none : (s.modWork n fun w => { w with causes := w.causes.filter (· != c) }).lowestCause n = 0 := by
      simp [State.lowestCause, causes]
    rw [dropCause, refreshHoldWith, none]
    exact if_pos state
  have work : ((s.modWork n fun w => { w with causes := w.causes.filter (· != c) }).ch n).work = { (s.ch n).work with causes := [] } := by
    simp [causes]
  have start : onlyCh n s (s.modWork n fun w => { w with causes := w.causes.filter (· != c) }) := onlyCh_modCh s n _
  have calm : calm s (s.modWork n fun w => { w with causes := w.causes.filter (· != c) }) := Calm.work s n _
  have word (a : Nat) : (s.modWork n fun w => { w with causes := w.causes.filter (· != c) }).word a = s.word a := State.modWork_word ..
  rw [dropped]
  generalize (s.modWork n fun w => { w with causes := w.causes.filter (· != c) }) = u at *
  have gone : CauseGone n u (showCause (raiseN 6) n 0 u) := showCause_gone ((State.sevOf_of_word (word _)).trans_le sev)
  exact {
    state := gone.state.trans ((State.get_of_word (word _)).trans state)
    cause := gone.cause
    pend := gone.told (by rwa [State.get_of_word (word _), cause]) ((State.domOn_zero_of_word (word _)).trans host)
    word := fun a h h' => (gone.word a h h').trans (word a)
    calm := calm.trans gone.frame.calm
    work := by rw [gone.ch, work]
    chans := fun k hk => (gone.ch k).trans (start.2 k hk) }

/-- A HELD channel with no cause left, a command done and HELD pending. -/
def heldFree (n : Fin 16) (t : State) : Prop :=
  (t.ch n).work.causes = [] ∧ t.wstate n = 2 ∧ t.get (F.WRK_SCRn_STAT_HCAUSE n) = 0 ∧ t.cmdDone n ∧ t.flag (pendFld (chEvt n 2)) = true

theorem Resolved.heldFree {n : Fin 16} {s t : State} (h : Resolved n s t) : heldFree n (cmdRes n 0 t) := by
  have ne : (pendFld (chEvt n 2)).addr ≠ A.WRK_SCRn_STAT n := by
    have := pendFld_low (RaiseFrame.chEvt_lt n (k := 2) (by decide))
    have := stat_high n
    omega
  exact ⟨by rw [cmdRes_ch, h.work], (cmdRes_state ..).trans h.state, (cmdRes_cause ..).trans h.cause, cmdRes_done n t,
    (State.flag_of_word (cmdRes_word n 0 t ne)).trans h.pend⟩

/-- A command that leaves its channel HELD makes it ready for nothing. -/
theorem cmdWrite_held {s t : State} {m : Master} {n : Fin 16} {code : Nat} (h : s.commands m n = true) (c : code ≤ 5)
    (ran : runCmd code (s.argSeq n) (s.argAddr n) n s = cmdRes n 0 t) (held : t.wstate n = 2) :
    cmdWrite m n code s = cmdRes n 0 t := by
  rw [cmdWrite_runs h (State.cmdJournals_not (.inl c)), ran,
    noteReady_of_not (readyToArm_run (by rw [cmdRes_state, held]; decide))]

/-! ### REFIRE -/

theorem cmdRefire_certain {s : State} {m : Master} {n : Fin 16} (h : s.commands m n = true) (by6 : HeldBy n 6 s) :
    does (.cmdRefire m n) s fun t => heldFree n t ∧ t.get (F.CHn_LED_UNC_COUNT n) = 0 ∧ calm s t := by
  have high : 0x1000000 ≤ A.CHn_LED_UNC n := by
    unfold A.CHn_LED_UNC
    omega
  have free : (s.put (F.CHn_LED_UNC_COUNT n) 0).get (F.CHn_LED_UNC_COUNT n) = 0 := State.get_put_same _ _ (by simp [F.CHn_LED_UNC_COUNT])
  have calm : calm s (s.put (F.CHn_LED_UNC_COUNT n) 0) := Calm.put _ _ (loud_chan n (b := 0x1060014) (by decide) (by decide) (by decide +kernel)).1
  have held : HeldBy n 6 (s.put (F.CHn_LED_UNC_COUNT n) 0) := by6.congr (fun a low => State.word_put_ne _ _ (by
    rintro rfl
    exact absurd low (by simpa [F.CHn_LED_UNC_COUNT] using high))) (by rw [State.put_ch])
  have ran : runCmd 4 (s.argSeq n) (s.argAddr n) n s = cmdRes n 0 (dropCause n 6 (s.put (F.CHn_LED_UNC_COUNT n) 0)) := by
    simp [runCmd, State.commands_joined h, runRefire, cmdIf, by6.state, by6.cause]
  generalize s.put (F.CHn_LED_UNC_COUNT n) 0 = u at *
  have done := dropCause_resolves held (by decide)
  generalize dropCause n 6 u = v at *
  have meaning : exec (.cmdRefire m n) s = .next (cmdRes n 0 v) := by
    rw [exec_cmdRefire, cmdWrite_held h (by decide) ran done.state]
  have apart : A.CHn_LED_UNC n ≠ A.WRK_SCRn_STAT n := by
    unfold A.CHn_LED_UNC A.WRK_SCRn_STAT
    omega
  refine does_of meaning ⟨done.heldFree, ?_, (calm.trans done.calm).trans (cmdRes_calm ..)⟩
  exact (State.get_of_word ((cmdRes_word n 0 v apart).trans (done.word _ (by omega) apart))).trans free

theorem pend_calm (n : Fin 16) (s : State) : calm s (s.put (F.CHn_LED_PLINE_PEND n) 0) :=
  Calm.put _ _ (loud_chan n (b := 0x1060010) (by decide) (by decide) (by decide +kernel)).1

/-- The PARTIAL line of a band that goes on becomes the pending one. -/
def refiring (n : Fin 16) (b : Band) (s : State) : State :=
  let seq := s.get (F.CHn_LED_PSEQ_SEQ n)
  let line := s.get (F.CHn_LED_PLINE_LINE n)
  let back := b.page ≠ (s.ch n).work.decPage
  let s2 := (s.put (F.CHn_LED_PLINE_PEND n) 0).modWork n fun w =>
    { w with refire := some (seq, line), skipTo := some (laterOf (b.page, b.l0 + line + 1) (w.decPage, w.decL)),
             skipKind := if back then some (s.pageKind n) else w.skipKind, decPage := b.page, decL := b.l0 + line }
  restartScreen n (if back then setKind n (s.ledKind n) s2 else s2)

theorem refirePartial_eq {n : Fin 16} {b : Band} {s : State} (band : s.band? n (s.get (F.CHn_LED_PSEQ_SEQ n)) = some b)
    (firing : b.state = .firing) : refirePartial n s = dropCause n 3 (refiring n b s) := by
  unfold refirePartial
  dsimp only
  rw [band]
  simp only [firing, reduceCtorEq, or_self, if_false]
  rfl

/-- What REFIRE of the PARTIAL line does before cause 3 goes. -/
structure Refiring (n : Fin 16) (s t : State) : Prop where
  word : ∀ a, a ≠ A.CHn_LED_PLINE n → a ≠ A.CHn_FT_STAT n → t.word a = s.word a
  pend : t.flag (F.CHn_LED_PLINE_PEND n) = false
  refire : (t.ch n).work.refire = some (s.get (F.CHn_LED_PSEQ_SEQ n), s.get (F.CHn_LED_PLINE_LINE n))
  causes : (t.ch n).work.causes = (s.ch n).work.causes
  calm : calm s t
  chans : chBut n s t

theorem restartScreen_word (n : Fin 16) (s : State) (a : Nat) : (restartScreen n s).word a = s.word a := by
  rw [restartScreen, State.modBrg_word, State.modDut_word, State.modImg_word]

theorem restartScreen_work (n : Fin 16) (s : State) : ((restartScreen n s).ch n).work = (s.ch n).work := by
  simp [restartScreen]

theorem restartScreen_chans (n : Fin 16) (s : State) : chBut n s (restartScreen n s) := by
  intro k hk
  simp [restartScreen, State.modBrg, State.modDut, State.modImg, hk]

theorem setKind_word (n : Fin 16) (k : Bool × Bool) (s : State) {a : Nat} (h : a ≠ A.CHn_FT_STAT n) : (setKind n k s).word a = s.word a :=
  (State.modFt_word ..).trans (State.word_put_ne _ _ h)

theorem setKind_work (n : Fin 16) (k : Bool × Bool) (s : State) : ((setKind n k s).ch n).work = (s.ch n).work := by
  rw [setKind, State.ch_modFt_same, State.put_ch]

theorem setKind_calm (n : Fin 16) (k : Bool × Bool) (s : State) : calm s (setKind n k s) :=
  (Calm.put _ _ (loud_ftStat n)).trans (Calm.ft _ n _)

/-- Other channels are as before a change of this one that follows a write of a register. -/
theorem chBut_put_modCh (n : Fin 16) (f : Fld) (v : Nat) (g : Chan → Chan) (s : State) : chBut n s ((s.put f v).modCh n g) :=
  fun k hk => (chBut_modCh _ n g k hk).trans (State.put_ch s f v k)

theorem Refiring.restart {n : Fin 16} {s t : State} (h : Refiring n s t) : Refiring n s (restartScreen n t) where
  word a pline ftStat := (restartScreen_word ..).trans (h.word a pline ftStat)
  pend := (State.flag_of_word (restartScreen_word ..)).trans h.pend
  refire := by rw [restartScreen_work, h.refire]
  causes := by rw [restartScreen_work, h.causes]
  calm := h.calm.trans (RaiseFrame.restartScreen n t).calm
  chans k hk := (restartScreen_chans n t k hk).trans (h.chans k hk)

theorem Refiring.kind {n : Fin 16} {s t : State} (h : Refiring n s t) (x : Bool × Bool) : Refiring n s (setKind n x t) where
  word a pline ftStat := (setKind_word n x t ftStat).trans (h.word a pline ftStat)
  pend := (State.flag_of_word (setKind_word n x t (by
    simp only [F.CHn_LED_PLINE_PEND, A.CHn_LED_PLINE, A.CHn_FT_STAT]
    omega))).trans h.pend
  refire := by rw [setKind_work, h.refire]
  causes := by rw [setKind_work, h.causes]
  calm := h.calm.trans (setKind_calm n x t)
  chans k hk := (chBut_put_modCh n _ _ _ t k hk).trans (h.chans k hk)

theorem refiring_refires (n : Fin 16) (b : Band) (s : State) : Refiring n s (refiring n b s) := by
  unfold refiring
  dsimp only
  refine Refiring.restart ?_
  have begun (g : Work → Work) (refire : (g (s.ch n).work).refire = some (s.get (F.CHn_LED_PSEQ_SEQ n), s.get (F.CHn_LED_PLINE_LINE n)))
      (causes : (g (s.ch n).work).causes = (s.ch n).work.causes) :
      Refiring n s ((s.put (F.CHn_LED_PLINE_PEND n) 0).modWork n g) :=
    { word := fun a pline _ => (State.modWork_word ..).trans (State.word_put_ne _ _ pline)
      pend := (State.modWork_flag ..).trans (by simp [State.flag, State.get_put_same, F.CHn_LED_PLINE_PEND])
      refire := by rw [State.ch_modWork_same, State.put_ch, refire]
      causes := by rw [State.ch_modWork_same, State.put_ch, causes]
      calm := (pend_calm n s).trans (Calm.work _ n _)
      chans := chBut_put_modCh n _ _ _ s }
  split
  · exact (begun _ rfl rfl).kind _
  · exact begun _ rfl rfl

theorem cmdRefire_partial {s : State} {m : Master} {n : Fin 16} {b : Band} (h : s.commands m n = true) (by3 : HeldBy n 3 s)
    (band : s.band? n (s.get (F.CHn_LED_PSEQ_SEQ n)) = some b) (firing : b.state = .firing) :
    does (.cmdRefire m n) s fun t => heldFree n t ∧
      (t.ch n).work.refire = some (s.get (F.CHn_LED_PSEQ_SEQ n), s.get (F.CHn_LED_PLINE_LINE n)) ∧
      t.flag (F.CHn_LED_PLINE_PEND n) = false ∧ quietBut [] s t ∧ chBut n s t := by
  have refires := refiring_refires n b s
  have ran : runCmd 4 (s.argSeq n) (s.argAddr n) n s = cmdRes n 0 (dropCause n 3 (refiring n b s)) := by
    simp [runCmd, State.commands_joined h, runRefire, cmdIf, by3.state, by3.cause, refirePartial_eq band firing]
  generalize refiring n b s = u at *
  have held : HeldBy n 3 u := by3.congr (fun a low => refires.word a (by unfold A.CHn_LED_PLINE; omega) (by unfold A.CHn_FT_STAT; omega))
    refires.causes
  have done := dropCause_resolves held (by decide)
  generalize dropCause n 3 u = v at *
  have meaning : exec (.cmdRefire m n) s = .next (cmdRes n 0 v) := by
    rw [exec_cmdRefire, cmdWrite_held h (by decide) ran done.state]
  have apart : A.CHn_LED_PLINE n ≠ A.WRK_SCRn_STAT n := by
    unfold A.CHn_LED_PLINE A.WRK_SCRn_STAT
    omega
  refine does_of meaning ⟨done.heldFree, ?_, ?_, fun a q _ => ?_, fun k hk => ?_⟩
  · rw [cmdRes_ch, done.work, refires.refire]
  · exact (State.flag_of_word ((cmdRes_word n 0 v apart).trans (done.word _ (by unfold A.CHn_LED_PLINE; omega) apart))).trans refires.pend
  · exact ((refires.calm.trans done.calm).trans (cmdRes_calm n 0 v)).word a q
  · exact (cmdRes_ch ..).trans ((done.chans k hk).trans (refires.chans k hk))

/-! ### SKIP -/

/-- A SKIPPED entry dates the bands of its SEQ. -/
def Band.dated (s : State) (seq : Nat) (b : Band) : Band :=
  if b.desc.seq = seq then { b with lastTime := s.devTime, lastBoot := s.boot.bootCnt } else b

theorem LinesKept.dated (s : State) (seq : Nat) : LinesKept (Band.dated s seq) := by
  have same (b : Band) : b.dated s seq = { b with lastTime := (b.dated s seq).lastTime, lastBoot := (b.dated s seq).lastBoot } := by
    unfold Band.dated
    split <;> rfl
  refine ⟨fun b => ?_, fun b => ?_, fun b => ?_, fun b => ?_⟩
  all_goals rw [same]

theorem skipEntry_eq (n : Fin 16) (seq line : Nat) (dir sosk : Bool) (s : State) : skipEntry n seq line dir sosk s =
    (ledAppend n seq line 3 0 (s.chTimeAt n s.tick) dir sosk s).modWork n fun w => { w with bands := w.bands.map (Band.dated s seq) } := rfl

theorem skipEntry_ch (n : Fin 16) (seq line : Nat) (dir sosk : Bool) (s : State) : (skipEntry n seq line dir sosk s).ch n =
    { (s.ch n) with work := { (s.ch n).work with
      boots := (s.boot.bootCnt :: (s.ch n).work.boots).take 256, bands := (s.ch n).work.bands.map (Band.dated s seq) } } := by
  rw [skipEntry_eq, State.ch_modWork_same, ledAppend_ch, noteBoot, State.ch_modWork_same]

theorem skipEntry_word (n : Fin 16) (seq line : Nat) (dir sosk : Bool) (s : State) (a : Nat) :
    (skipEntry n seq line dir sosk s).word a = (ledAppend n seq line 3 0 (s.chTimeAt n s.tick) dir sosk s).word a := by
  rw [skipEntry_eq, State.modWork_word]

theorem skipEntry_calm (n : Fin 16) (seq line : Nat) (dir sosk : Bool) (s : State) : calm s (skipEntry n seq line dir sosk s) := by
  rw [skipEntry_eq]
  exact ((Calm.work s n _).trans (RaiseFrame.ledAppend n _ _ _ _ _ _ _ s).calm).trans (Calm.work _ n _)

/-- Where the lines fired or resolved stand once a PARTIAL line is resolved. -/
def State.resolvedTo (s : State) (n : Fin 16) (seq line : Nat) : Nat × Nat :=
  match s.band? n seq with
  | some b => laterOf (b.page, b.l0 + line + 1) ((s.ch n).work.decPage, (s.ch n).work.decL)
  | none => ((s.ch n).work.firedPage, (s.ch n).work.firedL)

theorem State.skipTo_eq (s : State) (n : Fin 16) :
    s.skipTo n = s.resolvedTo n (s.get (F.CHn_LED_PSEQ_SEQ n)) (s.get (F.CHn_LED_PLINE_LINE n)) := rfl

theorem resolvePartial_eq (n : Fin 16) (seq line : Nat) (s : State) : resolvePartial n seq line s = s.modWork n fun w =>
    { w with firedPage := (s.resolvedTo n seq line).1, firedL := (s.resolvedTo n seq line).2 } := by
  cases band : s.band? n seq with
  | some b =>
    simp only [resolvePartial, State.resolvedTo, band]
    exact State.modWork_congr rfl
  | none =>
    simp only [resolvePartial, State.resolvedTo, band]
    exact (State.modWork_idle rfl).symm

theorem State.resolvedTo_congr {s t : State} {n : Fin 16} {g : Band → Band} (k : LinesKept g)
    (bands : (t.ch n).work.bands = (s.ch n).work.bands.map g) (decPage : (t.ch n).work.decPage = (s.ch n).work.decPage)
    (decL : (t.ch n).work.decL = (s.ch n).work.decL) (firedPage : (t.ch n).work.firedPage = (s.ch n).work.firedPage)
    (firedL : (t.ch n).work.firedL = (s.ch n).work.firedL) (seq line : Nat) : t.resolvedTo n seq line = s.resolvedTo n seq line := by
  have band : t.band? n seq = (s.band? n seq).map g := by
    simp only [State.band?, bands, List.find?_map, Function.comp_def, k.desc]
  unfold State.resolvedTo
  rw [band, decPage, decL, firedPage, firedL]
  cases s.band? n seq with
  | none => rfl
  | some b => simp only [Option.map_some, k.page, k.l0]

/-- The PARTIAL line has its SKIPPED entry and is resolved, before bands that this ends are looked for. -/
def skipping (n : Fin 16) (s : State) : State :=
  resolvePartial n (s.get (F.CHn_LED_PSEQ_SEQ n)) (s.get (F.CHn_LED_PLINE_LINE n))
    ((skipEntry n (s.get (F.CHn_LED_PSEQ_SEQ n)) (s.get (F.CHn_LED_PLINE_LINE n)) (s.flag (F.CHn_LED_LINE_DIR n))
      (s.flag (F.CHn_LED_LINE_SOSK n)) s).put (F.CHn_LED_PLINE_PEND n) 0)

theorem skipPartial_eq (n : Fin 16) (s : State) : skipPartial n s = dropCause n 3 (checkDone n (skipping n s)) := rfl

/-- What SKIP of the PARTIAL line does before cause 3 goes. -/
structure Skipped (n : Fin 16) (s t : State) : Prop where
  word : ∀ a, ¬ ledReg n a → t.word a = s.word a
  seq : t.get (F.CHn_LED_SEQ_SEQ n) = s.get (F.CHn_LED_PSEQ_SEQ n)
  line : t.get (F.CHn_LED_LINE_LINE n) = s.get (F.CHn_LED_PLINE_LINE n)
  state : t.get (F.CHn_LED_LINE_STATE n) = 3
  count : t.get (F.CHn_LED_COUNT_COUNT n) = (s.get (F.CHn_LED_COUNT_COUNT n) + 1) % 2 ^ 32
  pend : t.flag (F.CHn_LED_PLINE_PEND n) = false
  causes : (t.ch n).work.causes = (s.ch n).work.causes
  calm : calm s t

theorem ledReg_apart {n : Fin 16} {a : Nat} (h : ¬ ledReg n a) : a ≠ A.CHn_LED_PLINE n := by
  rintro rfl
  exact h ⟨by unfold A.CHn_LED_PLINE; omega, by unfold A.CHn_LED_PLINE; omega⟩

theorem pline_apart (n : Fin 16) : A.CHn_LED_SEQ n ≠ A.CHn_LED_PLINE n ∧ A.CHn_LED_LINE n ≠ A.CHn_LED_PLINE n ∧
    A.CHn_LED_COUNT n ≠ A.CHn_LED_PLINE n := by
  unfold A.CHn_LED_SEQ A.CHn_LED_LINE A.CHn_LED_COUNT A.CHn_LED_PLINE
  omega

theorem skipping_eq (n : Fin 16) (s : State) : skipping n s =
    ((skipEntry n (s.get (F.CHn_LED_PSEQ_SEQ n)) (s.get (F.CHn_LED_PLINE_LINE n)) (s.flag (F.CHn_LED_LINE_DIR n))
      (s.flag (F.CHn_LED_LINE_SOSK n)) s).put (F.CHn_LED_PLINE_PEND n) 0).modWork n fun w =>
        { w with firedPage := (s.skipTo n).1, firedL := (s.skipTo n).2 } := by
  have ch := skipEntry_ch n (s.get (F.CHn_LED_PSEQ_SEQ n)) (s.get (F.CHn_LED_PLINE_LINE n)) (s.flag (F.CHn_LED_LINE_DIR n))
    (s.flag (F.CHn_LED_LINE_SOSK n)) s
  rw [skipping, resolvePartial_eq, s.skipTo_eq]
  generalize skipEntry n (s.get (F.CHn_LED_PSEQ_SEQ n)) (s.get (F.CHn_LED_PLINE_LINE n)) (s.flag (F.CHn_LED_LINE_DIR n))
    (s.flag (F.CHn_LED_LINE_SOSK n)) s = e at ch ⊢
  rw [State.resolvedTo_congr (s := s) (LinesKept.dated s (s.get (F.CHn_LED_PSEQ_SEQ n))) (by rw [State.put_ch, ch])
    (by rw [State.put_ch, ch]) (by rw [State.put_ch, ch]) (by rw [State.put_ch, ch]) (by rw [State.put_ch, ch])]

theorem skipping_ch (n : Fin 16) (s : State) : (skipping n s).ch n = { (s.ch n) with work := { (s.ch n).work with
    boots := (s.boot.bootCnt :: (s.ch n).work.boots).take 256,
    bands := (s.ch n).work.bands.map (Band.dated s (s.get (F.CHn_LED_PSEQ_SEQ n))),
    firedPage := (s.skipTo n).1, firedL := (s.skipTo n).2 } } := by
  rw [skipping_eq, State.ch_modWork_same, State.put_ch, skipEntry_ch]

/-- Beside PEND, the registers are those that the entry leaves. -/
theorem skipping_word (n : Fin 16) (s : State) {a : Nat} (h : a ≠ A.CHn_LED_PLINE n) : (skipping n s).word a =
    (ledAppend n (s.get (F.CHn_LED_PSEQ_SEQ n)) (s.get (F.CHn_LED_PLINE_LINE n)) 3 0 (s.chTimeAt n s.tick)
      (s.flag (F.CHn_LED_LINE_DIR n)) (s.flag (F.CHn_LED_LINE_SOSK n)) s).word a := by
  rw [skipping_eq, State.modWork_word, State.word_put_ne _ _ h, skipEntry_word]

theorem skipping_skips (n : Fin 16) (s : State) : Skipped n s (skipping n s) where
  word a h := (skipping_word n s (ledReg_apart h)).trans (ledAppend_word (h := h) ..)
  seq := (State.get_of_word (skipping_word n s (pline_apart n).1)).trans
    ((ledAppend_seq ..).trans (Nat.mod_eq_of_lt (s.get_lt (F.CHn_LED_PSEQ_SEQ n))))
  line := (State.get_of_word (skipping_word n s (pline_apart n).2.1)).trans
    ((ledAppend_line ..).trans (Nat.mod_eq_of_lt (s.get_lt (F.CHn_LED_PLINE_LINE n))))
  state := (State.get_of_word (skipping_word n s (pline_apart n).2.1)).trans (ledAppend_state (small := by decide) ..)
  count := (State.get_of_word (skipping_word n s (pline_apart n).2.2)).trans (ledAppend_count ..)
  pend := by
    rw [skipping_eq, State.modWork_flag, State.flag, State.get_put_same _ _ (by simp [F.CHn_LED_PLINE_PEND])]
    simp
  causes := by rw [skipping_ch]
  calm := by
    rw [skipping_eq]
    exact ((skipEntry_calm n _ _ _ _ s).trans (pend_calm n _)).trans (Calm.work _ n _)

theorem skipping_lines (n : Fin 16) (s : State) : SameLines n (Band.dated s (s.get (F.CHn_LED_PSEQ_SEQ n))) s (skipping n s) where
  kept := .dated ..
  bands := by rw [skipping_ch]
  decPage := by rw [skipping_ch]
  decL := by rw [skipping_ch]
  delay := State.maxDelay_congr ((skipping_skips n s).word _ (by unfold ledReg A.CHn_IMG_GEOM; omega))
    (fun r _ => (skipping_skips n s).word _ (by unfold ledReg A.CHn_FT_ROWDLYr; omega)) (by rw [skipping_ch]) (by rw [skipping_ch])
  dir := State.flag_of_word ((skipping_skips n s).word _ (by simp only [ledReg, F.CHn_FT_STAT_DIR, A.CHn_FT_STAT]; omega))

theorem skipping_noneMet {n : Fin 16} {s : State} (h : s.noneMetAt n (s.skipTo n).1 (s.skipTo n).2 = true) :
    (skipping n s).noneMet n = true := by
  rw [State.noneMet, (skipping_lines n s).noneMetAt, skipping_ch]
  exact h

/-- The note of bands as FIRING beside. -/
theorem Skipped.noted {n : Fin 16} {s t : State} (h : Skipped n s t) : Skipped n s (noteFiring n t) := by
  rw [noteFiring_eq]
  exact { h with causes := by rw [State.ch_modWork_same, h.causes], calm := h.calm.trans (Calm.work t n _) }

theorem cmdSkip_skips {s : State} {m : Master} {n : Fin 16} (h : s.commands m n = true) (by3 : HeldBy n 3 s)
    (met : s.noneMetAt n (s.skipTo n).1 (s.skipTo n).2 = true) : does (.cmdSkip m n) s fun t => heldFree n t ∧
      t.get (F.CHn_LED_SEQ_SEQ n) = s.get (F.CHn_LED_PSEQ_SEQ n) ∧ t.get (F.CHn_LED_LINE_LINE n) = s.get (F.CHn_LED_PLINE_LINE n) ∧
      t.get (F.CHn_LED_LINE_STATE n) = 3 ∧ t.get (F.CHn_LED_COUNT_COUNT n) = (s.get (F.CHn_LED_COUNT_COUNT n) + 1) % 2 ^ 32 ∧
      t.flag (F.CHn_LED_PLINE_PEND n) = false ∧ calm s t := by
  have skipped := (skipping_skips n s).noted
  have ran : runCmd 5 (s.argSeq n) (s.argAddr n) n s = cmdRes n 0 (dropCause n 3 (noteFiring n (skipping n s))) := by
    simp [runCmd, State.commands_joined h, runSkip, cmdIf, by3.state, by3.cause, skipPartial_eq,
      checkDone_noneMet (skipping_noneMet met)]
  generalize noteFiring n (skipping n s) = u at *
  have held : HeldBy n 3 u := by3.congr (fun a low => skipped.word a (by unfold ledReg; omega)) skipped.causes
  have done := dropCause_resolves held (by decide)
  generalize dropCause n 3 u = v at *
  have meaning : exec (.cmdSkip m n) s = .next (cmdRes n 0 v) := by
    rw [exec_cmdSkip, cmdWrite_held h (by decide) ran done.state]
  have led {a : Nat} (h : 0x1000000 ≤ a) : (cmdRes n 0 v).word a = u.word a := by
    have apart : a ≠ A.WRK_SCRn_STAT n := by
      unfold A.WRK_SCRn_STAT
      omega
    exact (cmdRes_word n 0 v apart).trans (done.word a (by omega) apart)
  have seqR := led (a := A.CHn_LED_SEQ n) (by unfold A.CHn_LED_SEQ; omega)
  have lineR := led (a := A.CHn_LED_LINE n) (by unfold A.CHn_LED_LINE; omega)
  have countR := led (a := A.CHn_LED_COUNT n) (by unfold A.CHn_LED_COUNT; omega)
  have plineR := led (a := A.CHn_LED_PLINE n) (by unfold A.CHn_LED_PLINE; omega)
  exact does_of meaning ⟨done.heldFree, (State.get_of_word seqR).trans skipped.seq, (State.get_of_word lineR).trans skipped.line,
    (State.get_of_word lineR).trans skipped.state, (State.get_of_word countR).trans skipped.count,
    (State.flag_of_word plineR).trans skipped.pend, (skipped.calm.trans done.calm).trans (cmdRes_calm n 0 v)⟩

/-! ### The commands together -/

theorem idle_refuses {s : State} {m : Master} {n : Fin 16} (h : s.commands m n = true) (idle : s.wstate n = 0) :
    ∀ c ∈ [Instr.cmdStop m n, .cmdResume m n, .cmdRefire m n, .cmdSkip m n, .cmdAbandon m n, .cmdAbandonAll m n, .cmdRefetch m n,
      .cmdRebase m n], exec c s = .next (s.put (F.WRK_SCRn_STAT_CMDRES n) 1) := by
  simp only [List.forall_mem_cons, List.not_mem_nil, false_imp_iff, implies_true, and_true, exec_cmdStop, exec_cmdResume,
    exec_cmdRefire, exec_cmdSkip, exec_cmdAbandon, exec_cmdAbandonAll, exec_cmdRefetch, exec_cmdRebase]
  refine ⟨?_, ?_, ?_, ?_, ?_, ?_, ?_, ?_⟩
  all_goals rw [cmdWrite_refused h idle (by decide)]

/-- Settles O9: START, STOP, RESUME, the two REFIREs and SKIP one by one, and the commands refused in IDLE. -/
theorem commandsStartHoldAndResolve : Obligations.CommandsStartHoldAndResolve := by
  unfold Obligations.CommandsStartHoldAndResolve
  intro s m n h
  refine ⟨cmdStart_starts h, cmdStop_stops h, ?_, ?_, idle_refuses h⟩
  · rintro may sev none done - met c rfl
    exact cmdResume_resumes h may sev none done met
  · intro state sev c cause causes
    have by' : HeldBy n c s := ⟨State.commands_host h, state, sev, cause, causes⟩
    refine ⟨?_, ?_, ?_⟩
    · rintro b rfl band firing
      simpa [heldFree] using cmdRefire_partial h by' band firing
    · rintro rfl
      exact cmdRefire_certain h by'
    · rintro rfl met
      simpa [heldFree] using cmdSkip_skips h by' met

end Sys2Proof.Machine

namespace Sys2Proof.Machine

/-! ## Tables and matrix loads of the image path (R76, R80, R82 to R84, R87, R88, R107, R304) -/

/-! ### Readmission requests and residue counts -/

theorem onlyAt.trans {as : List Nat} {s t u : State} (h : onlyAt as s t) (k : onlyAt as t u) : onlyAt as s u :=
  ⟨by rw [k.1, h.1], fun a ha => (k.2 a ha).trans (h.2 a ha)⟩

/-- The fields of the status of the pipes lie within one register. -/
theorem pipeFld_fits (n : Fin 16) (p : Pipe) : (fenceFld n p).lo + (fenceFld n p).width ≤ 32 ∧
    (rescntFld n p).lo + (rescntFld n p).width ≤ 32 ∧ (readmFld n p).lo + (readmFld n p).width ≤ 32 := by
  cases p
  · exact ⟨Nat.le_of_ble_eq_true rfl, Nat.le_of_ble_eq_true rfl, Nat.le_of_ble_eq_true rfl⟩
  · exact ⟨Nat.le_of_ble_eq_true rfl, Nat.le_of_ble_eq_true rfl, Nat.le_of_ble_eq_true rfl⟩

theorem pipeFld_addr (n : Fin 16) (p : Pipe) : (fenceFld n p).addr = A.CHn_IMG_PIPESTAT n ∧
    (rescntFld n p).addr = A.CHn_IMG_PIPESTAT n ∧ (readmFld n p).addr = A.CHn_IMG_PIPESTAT n := by
  cases p
  · exact ⟨rfl, rfl, rfl⟩
  · exact ⟨rfl, rfl, rfl⟩

/-- In their register the fences lie below the requests, and these below the counts. -/
theorem pipeFld_order (n : Fin 16) (p q : Pipe) : (fenceFld n p).lo + (fenceFld n p).width ≤ (readmFld n q).lo ∧
    (readmFld n p).lo + (readmFld n p).width ≤ (rescntFld n q).lo ∧
    (fenceFld n p).lo + (fenceFld n p).width ≤ (rescntFld n q).lo := by
  cases p <;> cases q <;> exact ⟨Nat.le_of_ble_eq_true rfl, Nat.le_of_ble_eq_true rfl, Nat.le_of_ble_eq_true rfl⟩

theorem rescntFld_apart (n : Fin 16) : (rescntFld n .a).lo + (rescntFld n .a).width ≤ (rescntFld n .b).lo :=
  Nat.le_of_ble_eq_true rfl

theorem exec_readmitRequest (m : Master) (n : Fin 16) (a b : Bool) (s : State) :
    exec (.readmitRequest m n a b) s = execReadmitRequest m n a b s := rfl

theorem readmitRequest_takes {s : State} {m : Master} {n : Fin 16} (reach : s.reaches m (A.CHn_IMG_PIPESTAT n) = true)
    (fenced : s.flag (fenceFld n .a) = true) : does (.readmitRequest m n true false) s fun t =>
      t.flag (readmFld n .a) ∧ onlyAt [A.CHn_IMG_PIPESTAT n] s t := by
  have taken : exec (.readmitRequest m n true false) s = .next (s.put (readmFld n .a) 1) := by
    simp [exec_readmitRequest, execReadmitRequest, State.wr_reaches reach, requestReadmit, fenced]
  exact does_of taken ⟨State.flag_put_one s (pipeFld_fits n .a).2.2 Nat.one_pos, onlyAt_put s 1 (pipeFld_addr n .a).2.2⟩

theorem exec_rescntClear {s : State} {m : Master} {n : Fin 16} (reach : s.reaches m (A.CHn_IMG_PIPESTAT n) = true) :
    exec (.rescntClear m n) s = .next (clearRescnt n s) := congrArg Host.Outcome.next (State.wr_reaches reach)

theorem clearRescnt_clears (n : Fin 16) (s : State) : (clearRescnt n s).get (rescntFld n .a) = 0 ∧
    (clearRescnt n s).get (rescntFld n .b) = 0 ∧ (clearRescnt n s).flag (fenceFld n .a) = s.flag (fenceFld n .a) ∧
    onlyAt [A.CHn_IMG_PIPESTAT n] s (clearRescnt n s) := by
  unfold clearRescnt
  refine ⟨?_, State.get_put_same _ 0 (pipeFld_fits n .b).2.1, ?_, ?_⟩
  · rw [State.get_put_other _ 0 (.inr (rescntFld_apart n)), State.get_put_same s 0 (pipeFld_fits n .a).2.1, Nat.zero_mod]
  · rw [State.flag_put_other _ 0 (.inr (pipeFld_order n .a .b).2.2), State.flag_put_other s 0 (.inr (pipeFld_order n .a .a).2.2)]
  · exact (onlyAt_put s 0 (pipeFld_addr n .a).2.1).trans (onlyAt_put _ 0 (pipeFld_addr n .b).2.1)

/-! ### Words of the table windows -/

theorem exec_tableWindowWrite (m : Master) (a : Nat) (v : Word) (s : State) :
    exec (.tableWindowWrite m a v) s = execTableWindowWrite m a v s := rfl

theorem tableWindowWrite_own {s : State} {m : Master} {n : Fin 16} {a : Nat} (v : Word)
    (chan : chOf ((a - 0x1000000) / 0x100000) = some n) (within : isTable a = true ∧ a % 4 = 0) (reach : s.reaches m a = true) :
    exec (.tableWindowWrite m a v) s = .next (tableWrite n (a % 0x100000) v s) := by
  rw [exec_tableWindowWrite, execTableWindowWrite, chan]
  dsimp only
  rw [if_pos within, State.wr_reaches reach]

theorem chOf_window (n : Fin 16) {o : Nat} (own : o < 0x100000) : chOf ((chBase n + o - 0x1000000) / 0x100000) = some n := by
  have index : (chBase n + o - 0x1000000) / 0x100000 = n.val := by
    unfold chBase
    omega
  rw [index]
  exact dif_pos n.isLt

theorem offset_window (n : Fin 16) {o : Nat} (own : o < 0x100000) : (chBase n + o) % 0x100000 = o := by
  unfold chBase
  omega

theorem isTable_window (n : Fin 16) {o : Nat} (table : 0x80000 ≤ o) (own : o < 0x100000) (word : o % 4 = 0) :
    isTable (chBase n + o) = true ∧ (chBase n + o) % 4 = 0 := by
  have lt := n.isLt
  simp only [isTable, offset_window n own, Bool.and_eq_true, decide_eq_true_eq]
  unfold chBase
  omega

/-- A word at offset o of channel n's window reaches the table there. -/
theorem tableWindowWrite_reaches {s : State} {m : Master} {n : Fin 16} {o : Nat} (v : Word) (table : 0x80000 ≤ o)
    (own : o < 0x100000) (word : o % 4 = 0) (reach : s.reaches m (chBase n + o) = true) :
    exec (.tableWindowWrite m (chBase n + o) v) s = .next (tableWrite n o v s) := by
  rw [tableWindowWrite_own v (chOf_window n own) (isTable_window n table own word) reach, offset_window n own]

/-- A word of a bank that is held is discarded (R83, R107). -/
theorem tableWrite_held {s : State} {n : Fin 16} {o bank : Nat} {x : Tab} {mask : Word} (v : Word)
    (tab : tabAt o = some (x, bank, mask)) (held : s.bankHeld n (tabBank n x).1 (tabBank n x).2 bank = true) :
    tableWrite n o v s = s.put (if (tabBank n x).2 = 1 then F.CHn_IMG_STAT_ACTWR n else F.CHn_WAV_STAT_ACTWR n) 1 := by
  simp only [tableWrite, tab, held, if_true]

/-- A word of a bank that is not held is stored, cut to the bits of its entry (R83, R107). -/
theorem tableWrite_free {s : State} {n : Fin 16} {o bank : Nat} {x : Tab} {mask : Word} (v : Word)
    (tab : tabAt o = some (x, bank, mask)) (plain : x ≠ .mask) (free : s.bankHeld n (tabBank n x).1 (tabBank n x).2 bank = false) :
    tableWrite n o v s = s.setWord (chBase n + o) (v &&& mask) := by
  simp only [tableWrite, tab, free, plain, false_and, if_false, Bool.false_eq_true]

theorem discards_put (s : State) {f : Fld} (fits : f.lo + f.width ≤ 32) (some : 0 < f.width) : discards f s (s.put f 1) :=
  ⟨State.flag_put_one s fits some, onlyAt_put s 1 rfl⟩

/-- Where the words of the tables of the image path lie. -/
theorem imgTableWord_tab {n : Fin 16} {c : Nat} (bank : c < 2) {x : Nat × Fld × Word} (mem : x ∈ imgTableWord n c) :
    ∃ o k, x.1 = chBase n + o ∧ 0x80000 ≤ o ∧ o < 0x100000 ∧ o % 4 = 0 ∧ tabAt o = some (k, c, x.2.2) ∧
      tabBank n k = (x.2.1, 1) := by
  simp only [imgTableWord, List.mem_append, List.mem_map, List.mem_range] at mem
  obtain ((⟨k, lt, rfl⟩ | ⟨k, lt, rfl⟩) | ⟨k, lt, rfl⟩) | ⟨k, lt, rfl⟩ := mem
  · refine ⟨0x80000 + 0x4000 * c + 4 * k, .map, by omega, by omega, by omega, by omega, ?_, rfl⟩
    rw [tabAt, if_pos (by omega)]
    simp only [Option.some.injEq, Prod.mk.injEq, true_and, and_true]
    omega
  · refine ⟨0x88000 + 0x400 * c + 4 * k, .lut, by omega, by omega, by omega, by omega, ?_, rfl⟩
    rw [tabAt, if_neg (by omega), if_pos (by omega)]
    simp only [Option.some.injEq, Prod.mk.injEq, true_and, and_true]
    omega
  · refine ⟨0x88800 + 0x800 * c + 4 * k, .sad, by omega, by omega, by omega, by omega, ?_, rfl⟩
    rw [tabAt, if_neg (by omega), if_neg (by omega), if_pos (by omega)]
    simp only [Option.some.injEq, Prod.mk.injEq, true_and, and_true]
    omega
  · refine ⟨0x90000 + 0x8000 * c + 4 * k, .pass, by omega, by omega, by omega, by omega, ?_, rfl⟩
    rw [tabAt, if_neg (by omega), if_neg (by omega), if_neg (by omega), if_pos (by omega)]
    simp only [Option.some.injEq, Prod.mk.injEq, true_and, and_true]
    omega

/-- The table behind an offset of the segment tables. -/
theorem tabAt_seg {o : Nat} (seg : 0xA0000 ≤ o ∧ o < 0xA2000 ∧ o % 0x1000 < 0x400) :
    tabAt o = some (.seg, (o - 0xA0000) / 0x1000, if o % 8 < 4 then 0x000F0FFF else 0xFFFFFFFF) := by
  rw [tabAt, if_neg (by omega), if_neg (by omega), if_neg (by omega), if_neg (by omega), if_pos seg]

/-- Where the words of the segment tables lie. -/
theorem segTableWord_tab {n : Fin 16} {c : Nat} (bank : c < 2) {x : Nat × Word} (mem : x ∈ segTableWord n c) :
    ∃ o, x.1 = chBase n + o ∧ 0x80000 ≤ o ∧ o < 0x100000 ∧ o % 4 = 0 ∧ tabAt o = some (.seg, c, x.2) := by
  simp only [segTableWord, List.mem_flatMap, List.mem_range, List.mem_cons, List.not_mem_nil, or_false] at mem
  obtain ⟨k, lt, rfl | rfl⟩ := mem
  · refine ⟨0xA0000 + 0x1000 * c + 8 * k, by omega, by omega, by omega, by omega, ?_⟩
    rw [tabAt_seg (by omega), if_pos (by omega)]
    simp only [Option.some.injEq, Prod.mk.injEq, true_and, and_true]
    omega
  · refine ⟨0xA0000 + 0x1000 * c + 8 * k + 4, by omega, by omega, by omega, by omega, ?_⟩
    rw [tabAt_seg (by omega), if_neg (by omega)]
    simp only [Option.some.injEq, Prod.mk.injEq, true_and, and_true]
    omega

/-- A mask word of a segment: three of four words have bits (R88). -/
theorem tabAt_mask {c i : Nat} (bank : c < 2) (lt : i < 32) (bits : i % 4 < 3) :
    tabAt (0xA2000 + 0x100 * c + 4 * i) = some (.mask, c, 0xFFFFFFFF) := by
  rw [tabAt, if_neg (by omega), if_neg (by omega), if_neg (by omega), if_neg (by omega), if_neg (by omega), if_pos (by omega),
    if_pos (by omega)]
  simp only [Option.some.injEq, Prod.mk.injEq, true_and, and_true]
  omega

/-- A word of a table without masks goes into a bank that is not held, and is discarded in one that is (R83, R107). -/
theorem tableWindowWrite_goes {s : State} {m : Master} {n : Fin 16} {o c : Nat} {x : Tab} {mask : Word} {f g : Fld} {sub : Fin 7}
    (v : Word) (table : 0x80000 ≤ o) (own : o < 0x100000) (word : o % 4 = 0) (tab : tabAt o = some (x, c, mask)) (plain : x ≠ .mask)
    (active : tabBank n x = (f, sub)) (flag : (if sub = 1 then F.CHn_IMG_STAT_ACTWR n else F.CHn_WAV_STAT_ACTWR n) = g)
    (fits : g.lo + g.width ≤ 32) (wide : 0 < g.width) (reach : s.reaches m (chBase n + o) = true) :
    (s.bankHeld n f sub c = false → does (.tableWindowWrite m (chBase n + o) v) s fun t =>
      t.word (chBase n + o) = v &&& mask ∧ onlyAt [chBase n + o] s t) ∧
    (s.bankHeld n f sub c → does (.tableWindowWrite m (chBase n + o) v) s (discards g s)) := by
  have written := tableWindowWrite_reaches v table own word reach
  refine ⟨fun free => ?_, fun held => ?_⟩
  · rw [tableWrite_free v tab plain (by rwa [active])] at written
    exact does_of written ⟨State.word_setWord_same .., onlyAt_setWord ..⟩
  · rw [tableWrite_held v tab (by rwa [active]), active, flag] at written
    exact does_of written (discards_put s fits wide)

theorem imgTable_goes {s : State} {m : Master} {n : Fin 16} {c : Nat} (v : Word) (bank : c < 2) {x : Nat × Fld × Word}
    (mem : x ∈ imgTableWord n c) (reach : s.reaches m x.1 = true) :
    (s.bankHeld n x.2.1 1 c = false → does (.tableWindowWrite m x.1 v) s fun t => t.word x.1 = v &&& x.2.2 ∧ onlyAt [x.1] s t) ∧
    (s.bankHeld n x.2.1 1 c → does (.tableWindowWrite m x.1 v) s (discards (F.CHn_IMG_STAT_ACTWR n) s)) := by
  obtain ⟨o, k, addr, table, own, word, tab, active⟩ := imgTableWord_tab bank mem
  have plain : k ≠ .mask := by
    rintro rfl
    exact absurd (congrArg Prod.snd active) (by simp [tabBank])
  rw [addr] at reach ⊢
  exact tableWindowWrite_goes v table own word tab plain active (if_pos rfl) (Nat.le_of_ble_eq_true rfl) Nat.one_pos reach

theorem segTable_goes {s : State} {m : Master} {n : Fin 16} {c : Nat} (v : Word) (bank : c < 2) {x : Nat × Word}
    (mem : x ∈ segTableWord n c) (reach : s.reaches m x.1 = true) :
    (s.bankHeld n (F.CHn_WAV_BANK_BANK n) 2 c = false → does (.tableWindowWrite m x.1 v) s fun t =>
      t.word x.1 = v &&& x.2 ∧ onlyAt [x.1] s t) ∧
    (s.bankHeld n (F.CHn_WAV_BANK_BANK n) 2 c → does (.tableWindowWrite m x.1 v) s (discards (F.CHn_WAV_STAT_ACTWR n) s)) := by
  obtain ⟨o, addr, table, own, word, tab⟩ := segTableWord_tab bank mem
  rw [addr] at reach ⊢
  exact tableWindowWrite_goes v table own word tab (by decide) rfl (if_neg (by decide)) (Nat.le_of_ble_eq_true rfl) Nat.one_pos reach

/-- A mask word of a segment waits for its CFG frame, once (R107, R171). -/
def maskQueued (n : Fin 16) (c i : Nat) (s : State) : State :=
  s.modWav n fun w => { w with words := if w.words.contains (c, i) then w.words else w.words ++ [(c, i)] }

theorem maskQueued_words (n : Fin 16) (c i : Nat) (s : State) : ((maskQueued n c i s).ch n).wav.words =
    if (s.ch n).wav.words.contains (c, i) then (s.ch n).wav.words else (s.ch n).wav.words ++ [(c, i)] := by
  rw [maskQueued, State.ch_modWav_same]

theorem maskQueued_word (n : Fin 16) (c i : Nat) (s : State) (a : Nat) : (maskQueued n c i s).word a = s.word a := by
  rw [maskQueued, State.modWav_word]

theorem onlyChAt.setWord (s : State) (n : Fin 16) (a : Nat) (v : Word) : onlyChAt n [a] s (s.setWord a v) :=
  ⟨rfl, fun k _ => State.setWord_ch s a v k, regsBut_setWord s a v⟩

theorem maskQueued_only (n : Fin 16) (as : List Nat) (c i : Nat) (s : State) : onlyChAt n as s (maskQueued n c i s) := by
  unfold maskQueued
  exact .modCh s n _

theorem tableWrite_mask {s : State} {n : Fin 16} {o c i : Nat} (v : Word) (tab : tabAt o = some (.mask, c, 0xFFFFFFFF))
    (bits : o % 16 < 12) (index : o % 0x80 / 4 = i) (free : s.bankHeld n (F.CHn_WAV_BANK_BANK n) 2 c = false) :
    tableWrite n o v s = maskQueued n c i (s.setWord (chBase n + o) v) := by
  have cut : v &&& 0xFFFFFFFF = v := and_ones v
  simp only [tableWrite, tab, tabBank, free, bits, index, and_self, if_true, Bool.false_eq_true, if_false, cut, maskQueued]

/-- A mask word goes into a bank that is not held and is queued, and is discarded in one that is (R107). -/
theorem maskWrite_goes {s : State} {m : Master} {n : Fin 16} {o c i : Nat} (v : Word) (table : 0x80000 ≤ o) (own : o < 0x100000)
    (word : o % 4 = 0) (tab : tabAt o = some (.mask, c, 0xFFFFFFFF)) (bits : o % 16 < 12) (index : o % 0x80 / 4 = i)
    (reach : s.reaches m (chBase n + o) = true) :
    (s.bankHeld n (F.CHn_WAV_BANK_BANK n) 2 c = false → does (.tableWindowWrite m (chBase n + o) v) s fun t =>
      t.word (chBase n + o) = v ∧
      (t.ch n).wav.words = (if (s.ch n).wav.words.contains (c, i) then (s.ch n).wav.words else (s.ch n).wav.words ++ [(c, i)]) ∧
      onlyChAt n [chBase n + o] s t) ∧
    (s.bankHeld n (F.CHn_WAV_BANK_BANK n) 2 c → does (.tableWindowWrite m (chBase n + o) v) s
      (discards (F.CHn_WAV_STAT_ACTWR n) s)) := by
  have written := tableWindowWrite_reaches v table own word reach
  refine ⟨fun free => ?_, fun held => ?_⟩
  · rw [tableWrite_mask v tab bits index free] at written
    refine does_of written ⟨?_, ?_, (onlyChAt.setWord s n _ v).trans (maskQueued_only ..)⟩
    · rw [maskQueued_word, State.word_setWord_same]
    · rw [maskQueued_words, State.setWord_ch]
  · rw [tableWrite_held v tab held] at written
    exact does_of written (discards_put s (Nat.le_of_ble_eq_true rfl) Nat.one_pos)

theorem maskWord_goes {s : State} {m : Master} {n : Fin 16} {c i a : Nat} (v : Word) (bank : c < 2) (lt : i < 32) (bits : i % 4 < 3)
    (addr : a = chBase n + 0xA2000 + 0x100 * c + 4 * i) (reach : s.reaches m a = true) :
    (s.bankHeld n (F.CHn_WAV_BANK_BANK n) 2 c = false → does (.tableWindowWrite m a v) s fun t => t.word a = v ∧
      (t.ch n).wav.words = (if (s.ch n).wav.words.contains (c, i) then (s.ch n).wav.words else (s.ch n).wav.words ++ [(c, i)]) ∧
      onlyChAt n [a] s t) ∧
    (s.bankHeld n (F.CHn_WAV_BANK_BANK n) 2 c → does (.tableWindowWrite m a v) s (discards (F.CHn_WAV_STAT_ACTWR n) s)) := by
  have tab := tabAt_mask bank lt bits
  generalize ho : 0xA2000 + 0x100 * c + 4 * i = o at tab
  obtain rfl : a = chBase n + o := by omega
  exact maskWrite_goes v (by omega) (by omega) (by omega) tab (by omega) (by omega) reach

/-! ### GO -/

/-- What slots vote rests on the slots and their registers. -/
theorem State.votedWords_congr {s t : State} (capo : t.capo = s.capo)
    (stat : ∀ k : Fin 16, t.word (A.CAPO_TXt_STAT k) = s.word (A.CAPO_TXt_STAT k)) (p : Part) (a : Nat) :
    t.votedWords p a = s.votedWords p a := by
  have state : t.txState = s.txState := funext fun k => State.get_of_word (stat k)
  have slot : t.slot = s.slot := by
    funext k
    rw [State.slot, capo, State.slot]
  unfold State.votedWords
  rw [state, slot]
theorem State.bankHeld_congr {s t : State} (n : Fin 16) {f : Fld} (sub : Fin 7) (bank : Nat) (boot : t.boot = s.boot)
    (capo : t.capo = s.capo) (active : t.word f.addr = s.word f.addr)
    (stat : ∀ k : Fin 16, t.word (A.CAPO_TXt_STAT k) = s.word (A.CAPO_TXt_STAT k)) :
    t.bankHeld n f sub bank = s.bankHeld n f sub bank := by
  rw [State.bankHeld, boot, State.get_of_word active, State.votedWords_congr capo stat, State.bankHeld]

/-- The settings of CHn_IMG_TLD_CTRL are taken from a word. -/
def tldSet (n : Fin 16) (v : Word) (s : State) : State :=
  ((s.put (F.CHn_IMG_TLD_CTRL_ROWS n) v.toNat).put (F.CHn_IMG_TLD_CTRL_MTX n) (v.toNat / 1024)).put
    (F.CHn_IMG_TLD_CTRL_BANK n) (v.toNat / 4096)

theorem exec_tableLoadGo (m : Master) (n : Fin 16) (v : Word) (s : State) :
    exec (.tableLoadGo m n v) s = .next (s.wr m (A.CHn_IMG_TLD_CTRL n) (tldWrite n v)) := rfl

theorem tableLoadGo_reaches {s : State} {m : Master} {n : Fin 16} {v : Word} (reach : s.reaches m (A.CHn_IMG_TLD_CTRL n) = true)
    (go : v.getLsbD 31 = true) : exec (.tableLoadGo m n v) s = .next (tableGo n (tldSet n v s)) := by
  rw [exec_tableLoadGo, State.wr_reaches reach, tldWrite, if_pos go, tldSet]

theorem tldSet_only (n : Fin 16) (v : Word) (s : State) : onlyAt [A.CHn_IMG_TLD_CTRL n] s (tldSet n v s) := by
  have put (u : State) {f : Fld} (w : Nat) (h : f.addr = A.CHn_IMG_TLD_CTRL n) : onlyAt [A.CHn_IMG_TLD_CTRL n] u (u.put f w) :=
    onlyAt_put u w h
  exact ((put s _ rfl).trans (put _ _ rfl)).trans (put _ _ rfl)

/-- The fields of the control register that a word sets. -/
theorem tldSet_fields (n : Fin 16) (v : Word) (s : State) : (tldSet n v s).get (F.CHn_IMG_TLD_CTRL_ROWS n) = v.toNat % 1024 ∧
    (tldSet n v s).get (F.CHn_IMG_TLD_CTRL_MTX n) = v.toNat / 1024 % 4 ∧
    (tldSet n v s).get (F.CHn_IMG_TLD_CTRL_BANK n) = v.toNat / 4096 % 2 := by
  unfold tldSet
  refine ⟨?_, ?_, ?_⟩
  · rw [State.get_put_other _ _ (.inr (Nat.le_of_ble_eq_true rfl)), State.get_put_other _ _ (.inr (Nat.le_of_ble_eq_true rfl)),
      State.get_put_same s _ (Nat.le_of_ble_eq_true rfl)]
    simp [F.CHn_IMG_TLD_CTRL_ROWS]
  · rw [State.get_put_other _ _ (.inr (Nat.le_of_ble_eq_true rfl)), State.get_put_same _ _ (Nat.le_of_ble_eq_true rfl)]
    simp [F.CHn_IMG_TLD_CTRL_MTX]
  · rw [State.get_put_same _ _ (Nat.le_of_ble_eq_true rfl)]
    simp [F.CHn_IMG_TLD_CTRL_BANK]

theorem tldSet_ch (n : Fin 16) (v : Word) (s : State) (k : Fin 16) : (tldSet n v s).ch k = s.ch k := by
  rw [tldSet, State.put_ch, State.put_ch, State.put_ch]

theorem tldSet_bankHeld (n : Fin 16) (v : Word) (s : State) (bank : Nat) :
    (tldSet n v s).bankHeld n (F.CHn_IMG_BANK_MTXB n) 1 bank = s.bankHeld n (F.CHn_IMG_BANK_MTXB n) 1 bank := by
  have set := tldSet_only n v s
  generalize tldSet n v s = t at set
  obtain ⟨same, regs⟩ := set
  have apart {a : Nat} (h : a ≠ A.CHn_IMG_TLD_CTRL n) : t.word a = s.word a := regs a (by simpa using h)
  refine State.bankHeld_congr n 1 bank (by rw [same]) (by rw [same]) (apart ?_) fun k => apart ?_
  · simp only [F.CHn_IMG_BANK_MTXB, A.CHn_IMG_BANK, A.CHn_IMG_TLD_CTRL]
    omega
  · simp only [A.CAPO_TXt_STAT, A.CHn_IMG_TLD_CTRL]
    omega

/-- The load that GO begins, BUSY with no row done (R84). -/
def loadBegun (n : Fin 16) (l : TableLoad) (s : State) : State :=
  (((s.modImg n fun i => { i with load := some l }).put (F.CHn_IMG_TLD_STAT_BUSY n) 1).put (F.CHn_IMG_TLD_STAT_ERR n) 0).put
    (F.CHn_IMG_TLD_STAT_DONE n) 0

theorem loadBegun_load (n : Fin 16) (l : TableLoad) (s : State) : ((loadBegun n l s).ch n).img.load = some l := by
  rw [loadBegun, State.put_ch, State.put_ch, State.put_ch, State.ch_modImg_same]

theorem loadBegun_stat (n : Fin 16) (l : TableLoad) (s : State) : (loadBegun n l s).flag (F.CHn_IMG_TLD_STAT_BUSY n) = true ∧
    (loadBegun n l s).get (F.CHn_IMG_TLD_STAT_DONE n) = 0 := by
  unfold loadBegun
  refine ⟨?_, ?_⟩
  · rw [State.flag_put_other _ _ (.inr (Nat.le_of_ble_eq_true rfl)), State.flag_put_other _ _ (.inr (Nat.le_of_ble_eq_true rfl)),
      State.flag_put_one _ (Nat.le_of_ble_eq_true rfl) Nat.one_pos]
  · rw [State.get_put_same _ _ (Nat.le_of_ble_eq_true rfl), Nat.zero_mod]

/-- The status of matrix loads is written. -/
theorem onlyChAt.tldStat {as : List Nat} {n : Fin 16} (mem : A.CHn_IMG_TLD_STAT n ∈ as) (s : State) {f : Fld} (v : Nat)
    (addr : f.addr = A.CHn_IMG_TLD_STAT n) : onlyChAt n as s (s.put f v) := .put s n v (addr ▸ mem)

theorem onlyChAt.modImg {as : List Nat} {n : Fin 16} (s : State) (g : Img → Img) : onlyChAt n as s (s.modImg n g) := .modCh s n _

theorem loadBegun_only {as : List Nat} {n : Fin 16} (mem : A.CHn_IMG_TLD_STAT n ∈ as) (l : TableLoad) (s : State) :
    onlyChAt n as s (loadBegun n l s) :=
  (((onlyChAt.modImg s _).trans (.tldStat mem _ 1 rfl)).trans (.tldStat mem _ 0 rfl)).trans (.tldStat mem _ 0 rfl)

theorem tableGo_begins {s : State} {n : Fin 16} {bank rows : Nat} (hb : s.get (F.CHn_IMG_TLD_CTRL_BANK n) = bank)
    (hr : s.get (F.CHn_IMG_TLD_CTRL_ROWS n) = rows) (free : s.bankHeld n (F.CHn_IMG_BANK_MTXB n) 1 bank = false)
    (idle : (s.ch n).img.load = none) (some : 1 ≤ rows) (most : rows ≤ 512) : tableGo n s = loadBegun n
      { mtx := s.get (F.CHn_IMG_TLD_CTRL_MTX n), bank := bank, rows := rows, fails := 0, failTick := none } s := by
  have fit : ¬ ((s.ch n).img.load.isSome = true ∨ rows = 0 ∨ 512 < rows) := by
    rw [idle]
    simp only [Option.isSome_none, Bool.false_eq_true, false_or]
    omega
  simp only [tableGo, hb, hr, free, Bool.false_eq_true, if_false, if_neg fit, loadBegun]

theorem tableGo_refuses {s : State} {n : Fin 16} {bank : Nat} (hb : s.get (F.CHn_IMG_TLD_CTRL_BANK n) = bank)
    (held : s.bankHeld n (F.CHn_IMG_BANK_MTXB n) 1 bank = true) : tableGo n s = s.put (F.CHn_IMG_TLD_STAT_ERR n) 1 := by
  simp only [tableGo, hb, held, if_true]

theorem tableLoadGo_held {s : State} {m : Master} {n : Fin 16} {v : Word} (reach : s.reaches m (A.CHn_IMG_TLD_CTRL n) = true)
    (go : v.getLsbD 31 = true) (held : s.bankHeld n (F.CHn_IMG_BANK_MTXB n) 1 (v.toNat / 4096 % 2) = true) :
    does (.tableLoadGo m n v) s fun t => t.get (F.CHn_IMG_TLD_STAT_ERR n) = 1 ∧ (t.ch n).img.load = (s.ch n).img.load := by
  obtain ⟨-, -, bank⟩ := tldSet_fields n v s
  have meaning := tableLoadGo_reaches reach go
  rw [tableGo_refuses bank ((tldSet_bankHeld ..).trans held)] at meaning
  refine does_of meaning ⟨?_, ?_⟩
  · rw [State.get_put_same _ _ (Nat.le_of_ble_eq_true rfl)]
    simp [F.CHn_IMG_TLD_STAT_ERR]
  · rw [State.put_ch, tldSet_ch]

theorem tableLoadGo_begins {s : State} {m : Master} {n : Fin 16} {v : Word} (reach : s.reaches m (A.CHn_IMG_TLD_CTRL n) = true)
    (go : v.getLsbD 31 = true) (free : s.bankHeld n (F.CHn_IMG_BANK_MTXB n) 1 (v.toNat / 4096 % 2) = false)
    (idle : (s.ch n).img.load = none) (least : 1 ≤ v.toNat % 1024) (most : v.toNat % 1024 ≤ 512) :
    does (.tableLoadGo m n v) s fun t => (t.ch n).img.load = some {
      mtx := v.toNat / 1024 % 4, bank := v.toNat / 4096 % 2, rows := v.toNat % 1024, fails := 0, failTick := none } ∧
      t.flag (F.CHn_IMG_TLD_STAT_BUSY n) ∧ t.get (F.CHn_IMG_TLD_STAT_DONE n) = 0 ∧
      onlyChAt n [A.CHn_IMG_TLD_CTRL n, A.CHn_IMG_TLD_STAT n] s t := by
  obtain ⟨rows, mtx, bank⟩ := tldSet_fields n v s
  have begun := tableGo_begins bank rows ((tldSet_bankHeld ..).trans free) ((congrArg (·.img.load) (tldSet_ch n v s n)).trans idle)
    least most
  rw [mtx] at begun
  have meaning := tableLoadGo_reaches reach go
  rw [begun] at meaning
  obtain ⟨same, regs⟩ := tldSet_only n v s
  have set : onlyChAt n [A.CHn_IMG_TLD_CTRL n, A.CHn_IMG_TLD_STAT n] s (tldSet n v s) :=
    ⟨by rw [same], fun k _ => tldSet_ch n v s k, fun a out => regs a fun h => out (List.mem_append_left [_] h)⟩
  exact does_of meaning ⟨loadBegun_load .., (loadBegun_stat ..).1, (loadBegun_stat ..).2,
    set.trans (loadBegun_only (.tail _ (.head _)) ..)⟩

end Sys2Proof.Machine
namespace Sys2Proof.Machine

/-! ### Registers of a channel's window that no event writes -/

/-- The registers of a channel's window that events write are those of its ledger, its fire timing state and its link state. -/
theorem quiet_window {a b : Nat} (n : Fin 16) (addr : a = b + n.val * 0x100000) (lo : 0x1000000 ≤ b) (hi : b < 0x1100000)
    (led : b < 0x1060000 ∨ 0x1070000 ≤ b) (ft : b ≠ 0x1030060) (brg : b ≠ 0x104000C) : quiet a = true := by
  have lt := n.isLt
  have block : blockOf a ≠ 1 ∧ blockOf a ≠ 22 := by
    rw [addr, blockOf_chan n lo hi]
    omega
  have flt : fltReg a = false := by
    simp only [fltReg, A.FLT_STAT_LO, A.FLT_STAT_HI, A.FLT_SAFE, A.FLT_FIRST, A.FLT_FIRSTTIME_LO, A.FLT_FIRSTTIME_HI, A.FLT_LOGCNT,
      List.contains_cons, List.contains_nil, Bool.or_false, Bool.or_eq_false_iff, beq_eq_false_iff_ne, Bool.and_eq_false_iff,
      decide_eq_false_iff_not]
    omega
  have react : a ∉ reactRegs := by
    simp only [reactRegs, List.mem_append, List.mem_cons, List.mem_flatMap, List.not_mem_nil, or_false, not_or, not_exists, not_and,
      A.WRK_CTRL, A.PWR_MON_FLUSH, A.WRK_SCRn_STAT, A.CHn_FT_STAT, A.THM_CHn_HTRSTAT, A.CHn_BRG_STAT, A.MOT_AXa_TGT_LO,
      A.MOT_AXa_TGT_HI, A.MOT_AXa_STAT]
    refine ⟨⟨by omega, by omega, fun m _ => ?_⟩, fun x _ => ?_⟩
    · have := m.isLt
      omega
    · have := x.isLt
      omega
  simp [quiet, flt, react, block]

/-- A register of the image path in a channel's window. -/
theorem quiet_img {a b : Nat} (n : Fin 16) (addr : a = b + n.val * 0x100000) (own : 0x1010000 ≤ b ∧ b < 0x1020000) : quiet a = true :=
  quiet_window n addr (by omega) (by omega) (by omega) (by omega) (by omega)

theorem quiet_tldStat (n : Fin 16) : quiet (A.CHn_IMG_TLD_STAT n) = true := quiet_img n (b := 0x101007C) rfl (by decide)

/-- Over a reaction a field of a quiet register reads as before. -/
theorem RaiseFrame.getAt {s t : State} (h : RaiseFrame s t) {f : Fld} {a : Nat} (q : quiet a = true) (addr : f.addr = a) :
    t.get f = s.get f := State.get_of_word (by rw [addr, h.word a q])

theorem RaiseFrame.flagAt {s t : State} (h : RaiseFrame s t) {f : Fld} {a : Nat} (q : quiet a = true) (addr : f.addr = a) :
    t.flag f = s.flag f := State.flag_of_word (by rw [addr, h.word a q])

/-- No pending bit lies in a register of a channel's window. -/
theorem pend_below {e : Nat} (h : e < 512) : (pendFld e).addr < 0x1000000 := by
  simp only [pendFld, A.EVT_PENDw]
  omega

/-- What no reaction changes of a channel's image path: every field but those that giving up a decided line touches. -/
theorem RaiseFrame.imgField {α : Type} {s t : State} (h : RaiseFrame s t) (n : Fin 16) (g : Img → α)
    (indep : ∀ (i : Img) j r x, g { i with job := j, released := r, started := x } = g i) : g (t.ch n).img = g (s.ch n).img :=
  (indep ..).symm.trans (congrArg g (h.img n))

/-! ### A load that fails, is tried again, is complete -/

namespace onlyChAt

variable {n : Fin 16} {as : List Nat} {s t : State}

theorem quietBut (h : onlyChAt n as s t) : quietBut as s t := fun a _ out => h.2.2 a out

/-- A register below the channel windows is as before where the registers written lie in them. -/
theorem below (h : onlyChAt n as s t) (win : ∀ a ∈ as, 0x1000000 ≤ a) {a : Nat} (low : a < 0x1000000) : t.word a = s.word a :=
  h.2.2 a fun m => by
    have := win a m
    omega

end onlyChAt

/-- The status of matrix loads lies in the channel's window. -/
theorem tldStat_high (n : Fin 16) : ∀ a ∈ [A.CHn_IMG_TLD_STAT n], 0x1000000 ≤ a := by
  simp only [List.mem_singleton, forall_eq, A.CHn_IMG_TLD_STAT]
  omega

/-- A load that a third failed read ends (R84). -/
def loadGivenUp (n : Fin 16) (l : TableLoad) (s : State) : State :=
  ((s.modImg n fun i => { i with load := none, badMtx := (l.bank, l.mtx) :: i.badMtx }).put (F.CHn_IMG_TLD_STAT_BUSY n) 0).put
    (F.CHn_IMG_TLD_STAT_ERR n) 3

/-- A load that waits for its next try (R304). -/
def loadWaiting (n : Fin 16) (l : TableLoad) (k : Nat) (s : State) : State :=
  s.modImg n fun i => { i with load := some { l with fails := l.fails + 1, failTick := some k } }

/-- A load whose last rows have arrived (R84, R86). -/
def loadComplete (n : Fin 16) (l : TableLoad) (s : State) : State :=
  ((s.modImg n fun i => { i with load := none, badMtx := i.badMtx.filter (·.1 != l.bank),
                                 ueTables := i.ueTables.filter (· != (l.bank, l.mtx)) }).put (F.CHn_IMG_TLD_STAT_BUSY n) 0).put
    (F.CHn_IMG_TLD_STAT_ERR n) 0

theorem loadRows_only (n : Fin 16) (l : TableLoad) (rows : List (List Word)) (s : State) :
    onlyChAt n [A.CHn_IMG_TLD_STAT n] s (loadRows n l rows s) := (onlyChAt.modImg s _).trans (.tldStat (.head _) _ _ rfl)

theorem loadGivenUp_only (n : Fin 16) (l : TableLoad) (s : State) : onlyChAt n [A.CHn_IMG_TLD_STAT n] s (loadGivenUp n l s) :=
  ((onlyChAt.modImg s _).trans (.tldStat (.head _) _ 0 rfl)).trans (.tldStat (.head _) _ 3 rfl)

theorem loadWaiting_only (n : Fin 16) (as : List Nat) (l : TableLoad) (k : Nat) (s : State) : onlyChAt n as s (loadWaiting n l k s) :=
  onlyChAt.modImg s _

theorem loadComplete_only (n : Fin 16) (l : TableLoad) (s : State) : onlyChAt n [A.CHn_IMG_TLD_STAT n] s (loadComplete n l s) :=
  ((onlyChAt.modImg s _).trans (.tldStat (.head _) _ 0 rfl)).trans (.tldStat (.head _) _ 0 rfl)

theorem loadRows_mtx (n : Fin 16) (l : TableLoad) (rows : List (List Word)) (s : State) : ((loadRows n l rows s).ch n).img.mtx =
    storeRows l.bank l.mtx (s.get (F.CHn_IMG_TLD_STAT_DONE n)) rows (s.ch n).img.mtx := by
  rw [loadRows, State.put_ch, State.ch_modImg_same]

theorem loadGivenUp_load (n : Fin 16) (l : TableLoad) (s : State) : ((loadGivenUp n l s).ch n).img.load = none := by
  rw [loadGivenUp, State.put_ch, State.put_ch, State.ch_modImg_same]

theorem loadGivenUp_err (n : Fin 16) (l : TableLoad) (s : State) : (loadGivenUp n l s).get (F.CHn_IMG_TLD_STAT_ERR n) = 3 := by
  rw [loadGivenUp, State.get_put_same _ _ (Nat.le_of_ble_eq_true rfl)]
  simp [F.CHn_IMG_TLD_STAT_ERR]

theorem loadWaiting_load (n : Fin 16) (l : TableLoad) (k : Nat) (s : State) :
    ((loadWaiting n l k s).ch n).img.load = some { l with fails := l.fails + 1, failTick := some k } := by
  rw [loadWaiting, State.ch_modImg_same]

theorem loadComplete_img (n : Fin 16) (l : TableLoad) (s : State) : ((loadComplete n l s).ch n).img = { (s.ch n).img with
    load := none, badMtx := (s.ch n).img.badMtx.filter (·.1 != l.bank),
    ueTables := (s.ch n).img.ueTables.filter (· != (l.bank, l.mtx)) } := by
  rw [loadComplete, State.put_ch, State.put_ch, State.ch_modImg_same]

theorem loadComplete_idle (n : Fin 16) (l : TableLoad) (s : State) :
    (loadComplete n l s).flag (F.CHn_IMG_TLD_STAT_BUSY n) = false := by
  rw [loadComplete, State.flag_put_other _ _ (.inr (Nat.le_of_ble_eq_true rfl)), State.flag_put_zero _ (Nat.le_of_ble_eq_true rfl)]

/-- What TLOAD says once a load has ended, and what it leaves. -/
structure LoadTold (n : Fin 16) (s t u : State) : Prop where
  tload : u.flag (pendFld (chEvt n 11)) = true
  frame : RaiseFrame t u
  quiet : quietBut [A.CHn_IMG_TLD_STAT n] s u

theorem loadTold {n : Fin 16} {s t : State} (host : s.domOn 0 = true) (own : onlyChAt n [A.CHn_IMG_TLD_STAT n] s t) :
    LoadTold n s t (t.raiseCh n 11) where
  tload := raise_pending t (RaiseFrame.chEvt_lt n (by decide))
    ((State.domOn_zero_of_word (own.below (tldStat_high n) (by decide))).trans host)
  frame := RaiseFrame.raiseCh t n (by decide)
  quiet a q out := ((RaiseFrame.raiseCh t n (by decide)).word a q).trans (own.quietBut a q out)

theorem State.dmaOk_host {s : State} (h : s.dmaOk = true) : s.domOn 0 = true := by
  simp only [State.dmaOk, Bool.and_eq_true] at h
  exact State.dmaUp_host h.1

/-- An error on a read is logged and told of; of the registers that no event writes none changes (R304). -/
theorem aerLog_tells {s : State} (host : s.domOn 0 = true) (bit : Nat) : (aerLog 0 false bit s).flag (pendFld 126) = true ∧
    (aerLog 0 false bit s).tick = s.tick ∧ quietBut [] s (aerLog 0 false bit s) ∧ (aerLog 0 false bit s).domOn 0 = true := by
  obtain ⟨told, calm⟩ := aerSet_hostErr host 0 false bit
  rw [aerLog_on host]
  have word (a : Nat) : (aerSet 0 false bit s).word a = s.word a := by rw [aerSet_congr 0 false bit rfl]; rfl
  have tick : (aerSet 0 false bit s).tick = s.tick := by rw [aerSet_congr 0 false bit rfl]
  have quiet : quietBut [] s ((aerSet 0 false bit s).raise 126) := fun a q _ => (calm.word a q).trans (word a)
  exact ⟨told, calm.tick.trans tick, quiet,
    (State.domOn_zero_of_word (quiet A.SYS_DOMSTAT_LO (by decide +kernel) List.not_mem_nil)).trans host⟩

/-- A read of a load fails without a row: it waits, or the third failure in succession ends it with TLOAD (R84). -/
theorem exec_tableLoadError {s : State} {n : Fin 16} {l : TableLoad} (load : (s.ch n).img.load = some l) (well : l.failTick = none)
    (dma : s.dmaOk = true) (err : ReadErr) : exec (.tableLoadError n err []) s =
      .next (if 3 ≤ l.fails + 1 then (loadGivenUp n l (loadRows n l [] (aerLog 0 false (readErrBit err) s))).raiseCh n 11
        else loadWaiting n l s.tick (loadRows n l [] (aerLog 0 false (readErrBit err) s))) := by
  show execTableLoadError n err [] s = _
  simp only [execTableLoadError, load, dma, well, and_self, if_true, wholeRows, List.all_nil, List.length_nil, Nat.zero_le, decide_true,
    Bool.and_self, nextIf_true, List.isEmpty_nil, loadGivenUp, loadWaiting]

theorem tableLoadError_tells {s : State} {n : Fin 16} {l : TableLoad} (load : (s.ch n).img.load = some l) (well : l.failTick = none)
    (dma : s.dmaOk = true) (err : ReadErr) : does (.tableLoadError n err []) s fun t => t.flag (pendFld 126) ∧
      quietBut [A.CHn_IMG_TLD_STAT n] s t ∧
      (l.fails < 2 → (t.ch n).img.load = some { l with fails := l.fails + 1, failTick := some s.tick }) ∧
      (2 ≤ l.fails → (t.ch n).img.load = none ∧ t.get (F.CHn_IMG_TLD_STAT_ERR n) = 3 ∧ t.flag (pendFld (chEvt n 11))) := by
  have meaning := exec_tableLoadError load well dma err
  obtain ⟨told, tick, quiet, host⟩ := aerLog_tells (State.dmaOk_host dma) (readErrBit err)
  generalize aerLog 0 false (readErrBit err) s = u at meaning told tick quiet host
  have rows := loadRows_only n l [] u
  have pend {v : State} (own : onlyChAt n [A.CHn_IMG_TLD_STAT n] u v) : v.flag (pendFld 126) = true :=
    (State.flag_of_word (own.below (tldStat_high n) (pend_below (by decide)))).trans told
  by_cases third : 3 ≤ l.fails + 1
  · rw [if_pos third] at meaning
    have own := rows.trans (loadGivenUp_only n l _)
    obtain ⟨tload, frame, kept⟩ := loadTold host own
    refine does_of meaning ⟨frame.pend 126 (by decide) (pend own), fun a q out => (kept a q out).trans (quiet a q List.not_mem_nil),
      fun few => by omega, fun _ => ⟨?_, (frame.getAt (quiet_tldStat n) rfl).trans (loadGivenUp_err ..), tload⟩⟩
    exact (frame.imgField n (·.load) fun _ _ _ _ => rfl).trans (loadGivenUp_load ..)
  · rw [if_neg third] at meaning
    have own := rows.trans (loadWaiting_only n _ l s.tick _)
    exact does_of meaning ⟨pend own, fun a q out => (own.quietBut a q out).trans (quiet a q List.not_mem_nil),
      fun _ => loadWaiting_load .., fun many => by omega⟩

theorem tableLoadRetry_retries {s : State} {n : Fin 16} {l : TableLoad} {k : Nat} (load : (s.ch n).img.load = some l)
    (failed : l.failTick = some k) (late : k + 10 * usTicks ≤ s.tick) : does (.tableLoadRetry n) s fun t =>
      (t.ch n).img = { (s.ch n).img with load := some { l with failTick := none } } ∧ onlyCh n s t := by
  have meaning : exec (.tableLoadRetry n) s = .next (s.modImg n fun i => { i with load := some { l with failTick := none } }) := by
    show execTableLoadRetry n s = _
    simp only [execTableLoadRetry, load, failed, if_pos late]
  exact does_of meaning ⟨by simp, onlyCh_modCh ..⟩

theorem exec_tload {s : State} {n : Fin 16} {l : TableLoad} {rows : List (List Word)} (load : (s.ch n).img.load = some l)
    (well : l.failTick = none) (dma : s.dmaOk = true) (whole : wholeRows rows = true) (last : rows.length = s.rowsLeft n l) :
    exec (.tload n rows) s = .next ((loadComplete n l (loadRows n l rows s)).raiseCh n 11) := by
  show execTload n rows s = _
  simp only [execTload, load, whole, last, beq_self_eq_true, Bool.and_self, nextIf_true, dma, well, and_self, if_true, loadComplete]

theorem tload_completes {s : State} {n : Fin 16} {l : TableLoad} {rows : List (List Word)} (load : (s.ch n).img.load = some l)
    (well : l.failTick = none) (dma : s.dmaOk = true) (whole : wholeRows rows = true) (last : rows.length = s.rowsLeft n l) :
    does (.tload n rows) s fun t => (t.ch n).img.load = none ∧
      (t.ch n).img.mtx = storeRows l.bank l.mtx (s.get (F.CHn_IMG_TLD_STAT_DONE n)) rows (s.ch n).img.mtx ∧
      (∀ x ∈ (t.ch n).img.badMtx, x.1 ≠ l.bank) ∧ !t.flag (F.CHn_IMG_TLD_STAT_BUSY n) ∧
      t.flag (pendFld (chEvt n 11)) ∧ quietBut [A.CHn_IMG_TLD_STAT n] s t := by
  obtain ⟨tload, frame, kept⟩ := loadTold (State.dmaOk_host dma) ((loadRows_only n l rows s).trans (loadComplete_only n l _))
  have done := loadComplete_img n l (loadRows n l rows s)
  refine does_of (exec_tload load well dma whole last) ⟨?_, ?_, ?_, ?_, tload, kept⟩
  · exact (frame.imgField n (·.load) fun _ _ _ _ => rfl).trans (by rw [done])
  · exact (frame.imgField n (·.mtx) fun _ _ _ _ => rfl).trans (by rw [done, ← loadRows_mtx])
  · rw [frame.imgField n (·.badMtx) fun _ _ _ _ => rfl, done]
    intro x mem
    simpa using (List.mem_filter.1 mem).2
  · rw [frame.flagAt (quiet_tldStat n) rfl, loadComplete_idle]
    rfl

/-- Settles O13: readmission and counts, the words of every table by the bank they go into, GO, and the end of a load. -/
theorem tablesAndLoadsOfTheImagePath : Obligations.TablesAndLoadsOfTheImagePath := by
  unfold Obligations.TablesAndLoadsOfTheImagePath
  intro s
  refine ⟨fun m n reach => ⟨readmitRequest_takes reach, does_of (exec_rescntClear reach) (clearRescnt_clears n s)⟩, ?_, ?_, ?_⟩
  · intro m n c v bank
    exact ⟨fun x mem reach => imgTable_goes v bank mem reach, fun x mem reach => segTable_goes v bank mem reach,
      fun i lt bits a addr reach => maskWord_goes v bank lt bits addr reach⟩
  · exact fun m n v reach go => ⟨tableLoadGo_held reach go, tableLoadGo_begins reach go⟩
  · exact fun n l load => ⟨tableLoadError_tells load, fun k => tableLoadRetry_retries load, fun rows => tload_completes load⟩

end Sys2Proof.Machine

namespace Sys2Proof.Machine

/-! ## The comparator, the recompute, the known-answer test and the arbiter (R74, R76 to R81; log 175) -/

/-! ### A channel that has decided no line keeps its lines -/

/-- Where channel n has decided no line, it still has decided none and its image path is as before. -/
structure LinesStay (n : Fin 16) (s t : State) : Prop where
  decided : (s.ch n).ft.decided = [] → (t.ch n).ft.decided = []
  img : (s.ch n).ft.decided = [] → (t.ch n).img = (s.ch n).img

namespace LinesStay

variable {n : Fin 16} {s t u : State} {rs : Nat → State → State}

theorem refl (n : Fin 16) (s : State) : LinesStay n s s := ⟨id, fun _ => rfl⟩

theorem trans (h : LinesStay n s t) (k : LinesStay n t u) : LinesStay n s u :=
  ⟨fun none => k.decided (h.decided none), fun none => (k.img (h.decided none)).trans (h.img none)⟩

theorem of_ch (h : t.ch n = s.ch n) : LinesStay n s t :=
  ⟨fun none => by rwa [h], fun _ => by rw [h]⟩

theorem of_chans (h : t.chans = s.chans) : LinesStay n s t := of_ch (by rw [State.ch, h, State.ch])

theorem ite {c : Prop} [Decidable c] (h : LinesStay n s t) (k : LinesStay n s u) : LinesStay n s (if c then t else u) := by
  split
  · exact h
  · exact k

theorem foldl {α : Type} (l : List α) (g : State → α → State) (h : ∀ s a, LinesStay n s (g s a)) (s : State) :
    LinesStay n s (l.foldl g s) := by
  induction l generalizing s with
  | nil => exact refl n s
  | cons a l ih => exact (h s a).trans (ih _)

theorem eachCh (s : State) (g : Fin 16 → State → State) (h : ∀ k s, LinesStay n s (g k s)) : LinesStay n s (s.eachCh g) :=
  foldl _ _ (fun s k => h k s) s

theorem put (s : State) (f : Fld) (v : Nat) : LinesStay n s (s.put f v) := of_ch (State.put_ch ..)

/-- A channel is changed, but neither its image path nor, where it has decided none, its decided lines. -/
theorem modCh (s : State) (k : Fin 16) (g : Chan → Chan) (dec : (s.ch k).ft.decided = [] → (g (s.ch k)).ft.decided = [])
    (img : (g (s.ch k)).img = (s.ch k).img) : LinesStay n s (s.modCh k g) := by
  by_cases e : n = k
  · subst e
    have own := State.ch_modCh_same s n g
    exact ⟨fun none => by rw [own, dec none], fun _ => by rw [own, img]⟩
  · exact of_ch (State.ch_modCh_ne _ _ e)

theorem modFt (s : State) (k : Fin 16) (g : Ft → Ft) (dec : (s.ch k).ft.decided = [] → (g (s.ch k).ft).decided = []) :
    LinesStay n s (s.modFt k g) := modCh s k _ dec rfl

theorem modWork (s : State) (k : Fin 16) (g : Work → Work) : LinesStay n s (s.modWork k g) := modCh s k _ id rfl

theorem modWav (s : State) (k : Fin 16) (g : Wav → Wav) : LinesStay n s (s.modWav k g) := modCh s k _ id rfl

theorem modBrg (s : State) (k : Fin 16) (g : Brg → Brg) : LinesStay n s (s.modBrg k g) := modCh s k _ id rfl

/-! ### Holds -/

theorem addCause (k : Fin 16) (c : Nat) (s : State) : LinesStay n s (addCause k c s) := modWork s k _

theorem enterHeld (k : Fin 16) (s : State) : LinesStay n s (enterHeld k s) :=
  ((put s _ 2).trans (put _ _ 3)).trans (modFt _ k _ id)

theorem modBand (k : Fin 16) (q : Nat) (f : Band → Band) (s : State) : LinesStay n s (modBand k q f s) := modWork s k _

theorem restartScreen_other {k : Fin 16} (apart : n ≠ k) (s : State) : (restartScreen k s).ch n = s.ch n :=
  (State.ch_modCh_ne _ _ apart).trans ((State.ch_modCh_ne _ _ apart).trans (State.ch_modCh_ne _ _ apart))

/-- The channel whose line is given up has decided one. -/
theorem cancelDecided (k : Fin 16) (s : State) : LinesStay n s (cancelDecided k s) := by
  unfold Machine.cancelDecided
  split
  next d ds dec =>
    by_cases e : n = k
    · subst e
      have some : (s.ch n).ft.decided ≠ [] := by
        rw [dec]
        exact List.cons_ne_nil d ds
      exact ⟨fun none => absurd none some, fun none => absurd none some⟩
    · refine .trans ?_ (of_ch (restartScreen_other e _))
      exact (modFt s k _ fun _ => rfl).trans ((modWork _ k _).trans (put _ _ _))
  next => exact refl n s

theorem dropHpen (k : Fin 16) (s : State) : LinesStay n s (dropHpen k s) := ite ((modBrg s k _).trans (put _ _ 0)) (refl n s)

theorem noteHalted (k : Fin 16) (s : State) : LinesStay n s (noteHalted k s) := by
  unfold Machine.noteHalted
  dsimp only
  split
  · exact (dropHpen k s).trans (put _ _ _)
  · exact dropHpen k s

theorem heaterOff (k : Fin 16) (s : State) : LinesStay n s (heaterOff k s) := of_chans rfl

theorem stopAxis (a : Fin 4) (s : State) : LinesStay n s (stopAxis a s) := of_chans rfl

theorem startFlush (w : Bool) (s : State) : LinesStay n s (startFlush w s) := by
  have marks (u : State) : LinesStay n u (clearMarks u) := by
    obtain ⟨j, same⟩ := clearMarks_eq u
    exact of_chans (by rw [same])
  have under (x : Option (Nat × Bool)) : LinesStay n s { s with pwr := { s.pwr with flush := x } } := of_chans rfl
  unfold Machine.startFlush
  split
  · exact under _
  · exact ((under _).trans (marks _)).trans (eachCh _ _ fun k u => put u _ 0)

section

variable (hrs : ∀ e s, e < 512 → LinesStay n s (rs e s))
include hrs

theorem showCause (k : Fin 16) (c : Nat) (s : State) : LinesStay n s (showCause rs k c s) :=
  ite (refl n s) ((put s _ c).trans (hrs _ _ (RaiseFrame.chEvt_lt k (by decide))))

theorem holdWith (k : Fin 16) (c : Nat) (s : State) : LinesStay n s (holdWith rs k c s) := by
  unfold Machine.holdWith
  dsimp only
  refine ite ?_ (ite ((addCause k c s).trans (showCause hrs k _ _)) (refl n s))
  refine .trans ?_ (hrs _ _ (RaiseFrame.chEvt_lt k (by decide)))
  exact ((enterHeld k s).trans (addCause k c _)).trans (put _ _ _)

theorem partialPending (k : Fin 16) (q l : Nat) (s : State) : LinesStay n s (partialPending rs k q l s) := by
  unfold Machine.partialPending
  dsimp only
  refine .trans ?_ ((hrs _ _ (RaiseFrame.chEvt_lt k (by decide))).trans (holdWith hrs k 3 _))
  have counted : LinesStay n s (Machine.modBand k q (fun b => { b with npart := b.npart + 1, hadPart := true })
      (((s.put (F.CHn_LED_PSEQ_SEQ k) q).put (F.CHn_LED_PLINE_LINE k) l).put (F.CHn_LED_PLINE_PEND k) 1)) :=
    ((put s _ q).trans (put _ _ l)).trans ((put _ _ 1).trans (modBand k q _ _))
  refine counted.trans ?_
  split
  · exact modWork _ k _
  · exact refl n _

theorem cutWindow (k : Fin 16) (s : State) : LinesStay n s (cutWindow rs k s) := by
  unfold Machine.cutWindow
  split
  · refine .trans ?_ (partialPending hrs k _ _ _)
    exact ((put s _ 1).trans (put _ _ 1)).trans ((modWav _ k _).trans (of_ch (State.emit_ch ..)))
  · exact refl n s

theorem inhibitWith (c : Nat) (k : Fin 16) (s : State) : LinesStay n s (inhibitWith rs c k s) := by
  unfold Machine.inhibitWith
  refine .trans ?_ (holdWith hrs k c _)
  exact ((cutWindow hrs k s).trans (cancelDecided k _)).trans (ite (refl n _) (noteHalted k _))

/-! ### The safe state and the collector -/

theorem safeWith (c : Fld) (s : State) : LinesStay n s (safeWith rs c s) := by
  unfold Machine.safeWith
  dsimp only
  refine ite (put s c 1) (.trans ?_ (startFlush false _))
  refine .trans ?_ (hrs _ _ (by decide))
  refine .trans ?_ (foldl _ _ (fun u a => ite (stopAxis a u) (refl n u)) _)
  refine .trans ?_ (eachCh _ _ fun k u => (inhibitWith hrs 2 k u).trans (heaterOff k _))
  exact ((put s _ 1).trans (put _ c 1)).trans (ite (put _ _ 0) (refl n _))

theorem reactTo (e v : Nat) (s : State) : LinesStay n s (reactTo rs e v s) := by
  have flt (f : Flt) : LinesStay n s { s with flt := f } := of_chans rfl
  unfold Machine.reactTo
  split
  · exact refl n s
  · refine ite ((flt _).trans (safeWith hrs _ _)) ?_
    split
    · exact refl n s
    · exact ite (refl n s) (ite ((flt _).trans (holdWith hrs ..)) (ite ((flt _).trans (inhibitWith hrs ..)) (refl n s)))

theorem collect (e : Nat) (s : State) : LinesStay n s (collect rs e s) := by
  have logged (v : Nat) : LinesStay n s (logRaise e v (noteHalt e s)) :=
    have noted : LinesStay n s (noteHalt e s) := ite (of_chans rfl) (refl n s)
    noted.trans (of_chans (Told.logRaise e v _).chans)
  exact ite (refl n s) (ite (logged _) ((logged _).trans ((of_chans (Told.latchLine e _ _).chans).trans (reactTo hrs ..))))

end

theorem raiseN (k : Nat) : ∀ (e : Nat) (s : State), e < 512 → LinesStay n s (raiseN k e s) := by
  induction k with
  | zero => exact fun e s h => (of_chans (Told.evtRaise s h).chans).trans (collect (fun _ u _ => refl n u) e _)
  | succ k ih => exact fun e s h => (of_chans (Told.evtRaise s h).chans).trans (collect ih e _)

theorem raise (s : State) {e : Nat} (h : e < 512) : LinesStay n s (s.raise e) := raiseN 6 e s h

theorem hold (s : State) (k : Fin 16) (c : Nat) : LinesStay n s (s.hold k c) := holdWith (raiseN 6) k c s

end LinesStay

/-- An event that gives up no decided line of channel n leaves the lines of its image path. -/
theorem raise_img {s : State} {n : Fin 16} {e : Nat} (lt : e < 512) (spares : s.spares n e = true) :
    ((s.raise e).ch n).img = (s.ch n).img := by
  simp only [State.spares, Bool.or_eq_true, decide_eq_true_eq, List.isEmpty_iff] at spares
  obtain sev | none := spares
  · rw [(Told.raise s lt sev).ch n]
  · exact (LinesStay.raise s lt).img none

end Sys2Proof.Machine

namespace Sys2Proof.Machine

/-! ### The comparator's own steps, and what it tells of them -/

/-- A step within the image path of channel n: no register below the channel windows changes, no other channel and no decided line. -/
structure PathStep (n : Fin 16) (s t : State) : Prop where
  word : ∀ a, a < 0x1000000 → t.word a = s.word a
  decided : (t.ch n).ft.decided = (s.ch n).ft.decided

namespace PathStep

variable {n : Fin 16} {s t u : State}

theorem refl (n : Fin 16) (s : State) : PathStep n s s := ⟨fun _ _ => rfl, rfl⟩

theorem trans (h : PathStep n s t) (k : PathStep n t u) : PathStep n s u :=
  ⟨fun a low => (k.word a low).trans (h.word a low), k.decided.trans h.decided⟩

theorem put (s : State) {f : Fld} {b : Nat} (v : Nat) (addr : f.addr = b + n.val * 0x100000) (high : 0x1000000 ≤ b) :
    PathStep n s (s.put f v) :=
  ⟨fun a low => State.word_put_ne s v (by omega), by rw [State.put_ch]⟩

theorem modImg (s : State) (g : Img → Img) : PathStep n s (s.modImg n g) := by
  refine ⟨fun a _ => State.modImg_word .., ?_⟩
  rw [State.ch_modImg_same]

theorem host (h : PathStep n s t) : t.domOn 0 = s.domOn 0 := State.domOn_zero_of_word (h.word _ (by decide))

theorem wstate (h : PathStep n s t) : t.wstate n = s.wstate n := State.get_of_word (h.word (A.WRK_SCRn_STAT n) (by
  unfold A.WRK_SCRn_STAT
  omega))

theorem spares (h : PathStep n s t) {e : Nat} (lt : e < 512) : t.spares n e = s.spares n e := by
  have sev : t.sevOf e = s.sevOf e := State.sevOf_of_word (h.word _ (by
    unfold A.FLT_SEVw
    omega))
  rw [State.spares, sev, h.decided, State.spares]

end PathStep

/-- Event k of channel n has been told of, after a step from s to t, and no line of the channel has been given up. -/
structure PathTold (n : Fin 16) (k : Nat) (s t u : State) : Prop where
  img : (u.ch n).img = (t.ch n).img
  told : raises (chEvt n k) s u
  frame : RaiseFrame t u

theorem PathStep.told {n : Fin 16} {s t : State} (h : PathStep n s t) {k : Nat} (lt : k < 24)
    (spares : s.spares n (chEvt n k) = true) : PathTold n k s t (t.raiseCh n k) where
  img := raise_img (RaiseFrame.chEvt_lt n lt) ((h.spares (RaiseFrame.chEvt_lt n lt)).trans spares)
  told on := raise_pending t (RaiseFrame.chEvt_lt n lt) (h.host.trans on)
  frame := RaiseFrame.raiseCh t n lt

theorem quiet_pipeStat (n : Fin 16) : quiet (A.CHn_IMG_PIPESTAT n) = true := quiet_img n (b := 0x1010060) rfl (by decide)
theorem quiet_recomp (n : Fin 16) : quiet (A.CHn_IMG_RECOMP n) = true := quiet_img n (b := 0x1010064) rfl (by decide)
theorem quiet_imgStat (n : Fin 16) : quiet (A.CHn_IMG_STAT n) = true := quiet_img n (b := 0x1010068) rfl (by decide)

theorem PathStep.pipe {n : Fin 16} (s : State) {f : Fld} (v : Nat) (addr : f.addr = A.CHn_IMG_PIPESTAT n) : PathStep n s (s.put f v) :=
  .put s v (b := 0x1010060) addr (by decide)

/-- Beside its channel an update of one channel alone changes nothing. -/
theorem onlyCh.word {n : Fin 16} {s t : State} (h : onlyCh n s t) (a : Nat) : t.word a = s.word a := by rw [h.1]; rfl

/-! ### The pass mask (R74) -/

/-- The offsets, within the windows of the channels, of what the pass mask reads: the settings of the image path up to the pass mask's,
and the tables of the pass mask. -/
def maskOfs (b : Nat) : Prop := (0x1010000 ≤ b ∧ b < 0x1010060) ∨ (0x1090000 ≤ b ∧ b < 0x10A0000)

/-- What the pass mask of channel n reads is as before. -/
def MaskSame (n : Fin 16) (s t : State) : Prop := ∀ b, maskOfs b → t.word (b + n.val * 0x100000) = s.word (b + n.val * 0x100000)

namespace MaskSame

variable {n : Fin 16} {s t u : State}

theorem trans (h : MaskSame n s t) (k : MaskSame n t u) : MaskSame n s u := fun b m => (k b m).trans (h b m)

theorem of_frame (h : RaiseFrame s t) : MaskSame n s t := fun b m => by
  have own : (0x1010000 ≤ b ∧ b < 0x1010060) ∨ (0x1090000 ≤ b ∧ b < 0x10A0000) := m
  exact h.word _ (quiet_window n rfl (by omega) (by omega) (by omega) (by omega) (by omega))

/-- A status register of the image path is written. -/
theorem put (s : State) {f : Fld} {b : Nat} (v : Nat) (addr : f.addr = b + n.val * 0x100000) (stat : 0x1010060 ≤ b ∧ b < 0x1010080) :
    MaskSame n s (s.put f v) := fun c m => by
  have own : (0x1010000 ≤ c ∧ c < 0x1010060) ∨ (0x1090000 ≤ c ∧ c < 0x10A0000) := m
  exact State.word_put_ne s v (by omega)

/-- A pass above 15 is in no entry of the table, which has four bits for it (R74). -/
theorem maskCode (h : MaskSame n s t) (l j p c : Nat) : t.maskCode n l j p c = s.maskCode n l j p c := by
  have cfg : t.word (A.CHn_IMG_PASSCFG n) = s.word (A.CHn_IMG_PASSCFG n) := h 0x1010050 (.inl (by decide))
  have banks : t.word (A.CHn_IMG_BANK n) = s.word (A.CHn_IMG_BANK n) := h 0x1010008 (.inl (by decide))
  have en : t.flag (F.CHn_IMG_PASSCFG_MASK_EN n) = s.flag (F.CHn_IMG_PASSCFG_MASK_EN n) := State.flag_of_word cfg
  have yoff : t.get (F.CHn_IMG_PASSCFG_MYOFF n) = s.get (F.CHn_IMG_PASSCFG_MYOFF n) := State.get_of_word cfg
  have bank : t.get (F.CHn_IMG_BANK_MASKB n) = s.get (F.CHn_IMG_BANK_MASKB n) := State.get_of_word banks
  by_cases listed : p < 16
  · have xoff : t.pxoff n p = s.pxoff n p := by
      have addr : A.CHn_IMG_PXOFFq n (p / 4) = 0x1010040 + p / 4 * 4 + n.val * 0x100000 := by
        unfold A.CHn_IMG_PXOFFq
        omega
      rw [State.pxoff, addr, h _ (.inl (by omega)), ← addr, State.pxoff]
    have entry (x y : Nat) : t.word (passAddr n (s.get (F.CHn_IMG_BANK_MASKB n)) (x % 256) (y % 256)) =
        s.word (passAddr n (s.get (F.CHn_IMG_BANK_MASKB n)) (x % 256) (y % 256)) := by
      have two : s.get (F.CHn_IMG_BANK_MASKB n) < 2 := s.get_lt _
      have addr : passAddr n (s.get (F.CHn_IMG_BANK_MASKB n)) (x % 256) (y % 256) =
          0x1090000 + 0x8000 * s.get (F.CHn_IMG_BANK_MASKB n) + 4 * ((256 * (y % 256) + x % 256) / 8) + n.val * 0x100000 := by
        unfold passAddr chBase
        omega
      rw [addr]
      exact h _ (.inr (by omega))
    simp only [State.maskCode, en, yoff, bank, xoff, entry]
  · have none (w : Word) (lo : Nat) : getBits w lo 4 ≠ p := by
      have := getBits_lt w lo 4
      omega
    simp only [State.maskCode, en, if_neg (none _ _)]

theorem imgFor (h : MaskSame n s t) (old : (t.ch n).img.old = (s.ch n).img.old) (pg : Nat) :
    MaskSame n (s.imgFor n pg) (t.imgFor n pg) := by
  cases hx : (s.ch n).img.old.find? fun x => decide (pg < x.page) with
  | none =>
    rw [imgFor_none hx, imgFor_none (by rwa [old])]
    exact h
  | some x =>
    rw [imgFor_some hx, imgFor_some (by rwa [old])]
    exact fun b m => underOld_word x (h b m)

theorem releasedLine (h : MaskSame n s t) (old : (t.ch n).img.old = (s.ch n).img.old) (j : Job) (codes : List Nat) (single : Bool) :
    Machine.releasedLine t n j codes single = Machine.releasedLine s n j codes single := by
  simp only [Machine.releasedLine, (h.imgFor old j.line.page).maskCode]

theorem mtxBank (h : MaskSame n s t) (old : (t.ch n).img.old = (s.ch n).img.old) (pg : Nat) :
    (t.imgFor n pg).mtxBank n = (s.imgFor n pg).mtxBank n :=
  State.get_of_word (h.imgFor old pg 0x1010008 (.inl (by decide)))

end MaskSame

/-! ### Release -/

/-- Where the mask lookups agree, a line's codes leave through the pass mask, and nothing else changes (R74). -/
theorem release_eq (n : Fin 16) (j : Job) (codes : List Nat) (single : Bool) (s : State) : release n j codes single 0 s =
    s.modImg n fun i => { i with job := none, scrPage := ((s.ch n).work.afterLine j.line).1, scrL := ((s.ch n).work.afterLine j.line).2,
                                 released := i.released ++ [releasedLine s n j codes single] } := rfl

theorem release_releases (n : Fin 16) (j : Job) (codes : List Nat) (single : Bool) (s : State) :
    released n (releasedLine s n j codes single) s (release n j codes single 0 s) ∧ onlyCh n s (release n j codes single 0 s) := by
  rw [release_eq]
  refine ⟨?_, onlyCh_modCh ..⟩
  rw [released, State.ch_modImg_same]
  exact ⟨rfl, rfl⟩

theorem PathStep.release (n : Fin 16) (j : Job) (codes : List Nat) (single : Bool) (s : State) :
    PathStep n s (release n j codes single 0 s) := by
  rw [release_eq]
  exact .modImg s _

/-! ### Fences and residue counts (R76, R78) -/

/-- Pipe p is fenced, the channel has told of it, and the lines on their way stay (R76, R87). -/
structure Fenced (n : Fin 16) (p : Pipe) (s t : State) : Prop where
  fenced : t.flag (fenceFld n p) = true
  other : ∀ q, q ≠ p → t.flag (fenceFld n q) = s.flag (fenceFld n q)
  count : ∀ q, t.get (rescntFld n q) = s.get (rescntFld n q)
  img : (t.ch n).img = (s.ch n).img
  told : raises (chEvt n 7) s t
  mask : MaskSame n s t

theorem fenceFld_apart (n : Fin 16) {p q : Pipe} (h : q ≠ p) : (fenceFld n p).lo + (fenceFld n p).width ≤ (fenceFld n q).lo ∨
    (fenceFld n q).lo + (fenceFld n q).width ≤ (fenceFld n p).lo := by
  cases p <;> cases q
  · contradiction
  · exact .inl (Nat.le_of_ble_eq_true rfl)
  · exact .inr (Nat.le_of_ble_eq_true rfl)
  · contradiction

theorem fenceFld_width (n : Fin 16) (p : Pipe) : 0 < (fenceFld n p).width := by
  cases p
  · exact Nat.one_pos
  · exact Nat.one_pos

/-- Neither pipe of channel n is fenced. -/
def State.bothScreen (s : State) (n : Fin 16) : Prop := ∀ p, s.flag (fenceFld n p) = false

theorem fence_eq {n : Fin 16} {s : State} (p : Pipe) (both : s.bothScreen n) :
    fence n p s = (s.put (fenceFld n p) 1).raiseCh n 7 := by
  simp only [fence, both _, Bool.false_eq_true, or_self, if_false]

theorem fence_fences {n : Fin 16} {s : State} (p : Pipe) (both : s.bothScreen n) (spares : s.spares n (chEvt n 7) = true) :
    Fenced n p s (fence n p s) := by
  obtain ⟨addr, -, -⟩ := pipeFld_addr n p
  obtain ⟨img, told, frame⟩ := (PathStep.pipe s 1 addr).told (by decide) spares
  have mask : MaskSame n s (s.put (fenceFld n p) 1) := .put s 1 (b := 0x1010060) addr (by decide)
  rw [fence_eq p both]
  refine ⟨?_, fun q ne => ?_, fun q => ?_, img.trans (by rw [State.put_ch]), told, mask.trans (.of_frame frame)⟩
  · rw [frame.flagAt (quiet_pipeStat n) addr, State.flag_put_one s (pipeFld_fits n p).1 (fenceFld_width n p)]
  · rw [frame.flagAt (quiet_pipeStat n) (pipeFld_addr n q).1, State.flag_put_other s 1 (fenceFld_apart n ne)]
  · rw [frame.getAt (quiet_pipeStat n) (pipeFld_addr n q).2.1, State.get_put_other s 1 (.inl (pipeFld_order n p q).2.2)]

/-- A line released once a pipe is fenced stands for the other pipe alone (R76). -/
theorem fence_releases {n : Fin 16} {s : State} {p : Pipe} (j : Job) (codes : List Nat) (both : s.bothScreen n)
    (spares : s.spares n (chEvt n 7) = true) :
    (release n j codes true 0 (fence n p s)).flag (fenceFld n p) = true ∧
    (∀ q, q ≠ p → (release n j codes true 0 (fence n p s)).flag (fenceFld n q) = false) ∧
    released n (releasedLine s n j codes true) s (release n j codes true 0 (fence n p s)) ∧
    raises (chEvt n 7) s (release n j codes true 0 (fence n p s)) := by
  have f := fence_fences p both spares
  generalize fence n p s = u at f
  obtain ⟨rel, only⟩ := release_releases n j codes true u
  rw [f.mask.releasedLine (by rw [f.img]), released, f.img] at rel
  have flag (g : Fld) : (release n j codes true 0 u).flag g = u.flag g := State.flag_of_word (only.word _)
  exact ⟨(flag _).trans f.fenced, fun q ne => (flag _).trans ((f.other q ne).trans (both q)), rel, fun on => (flag _).trans (f.told on)⟩

/-- A residue failure of pipe p is counted, and fences the pipe from FENCE_LIM on (R76). -/
theorem residueFail_counts {n : Fin 16} {s : State} (p : Pipe) (both : s.bothScreen n) (spares : s.spares n (chEvt n 7) = true) :
    bumps (rescntFld n p) 15 s (residueFail n p s) ∧ (residueFail n p s).flag (fenceFld n p) =
      decide (max 1 (s.get (F.CHn_IMG_CTRL_FENCE_LIM n)) ≤ (residueFail n p s).get (rescntFld n p)) ∧
    ((residueFail n p s).ch n).img = (s.ch n).img := by
  obtain ⟨-, addr, -⟩ := pipeFld_addr n p
  have count : (s.bump (rescntFld n p) 1).get (rescntFld n p) = min (s.get (rescntFld n p) + 1) 15 := by
    rw [State.bump, State.get_put_same _ _ (pipeFld_fits n p).2.1]
    cases p
    · exact Nat.mod_eq_of_lt (Nat.lt_succ_of_le (Nat.min_le_right _ _))
    · exact Nat.mod_eq_of_lt (Nat.lt_succ_of_le (Nat.min_le_right _ _))
  have step : PathStep n s (s.bump (rescntFld n p) 1) := .pipe s _ addr
  have open' : (s.bump (rescntFld n p) 1).bothScreen n := fun q =>
    (State.flag_put_other s _ (.inr (pipeFld_order n q p).2.2)).trans (both q)
  have img : ((s.bump (rescntFld n p) 1).ch n).img = (s.ch n).img := by rw [State.bump, State.put_ch]
  unfold residueFail
  dsimp only
  generalize s.bump (rescntFld n p) 1 = u at *
  by_cases reached : max 1 (s.get (F.CHn_IMG_CTRL_FENCE_LIM n)) ≤ u.get (rescntFld n p)
  · have f := fence_fences p open' ((step.spares (RaiseFrame.chEvt_lt n (by decide))).trans spares)
    rw [if_pos reached]
    exact ⟨(f.count p).trans count, by rw [f.fenced, f.count, decide_eq_true reached], f.img.trans img⟩
  · rw [if_neg reached]
    exact ⟨count, by rw [open' p, decide_eq_false reached], img⟩

/-! ### A line that is computed again, or withheld (R76, R79) -/

theorem recomp_fits (n : Fin 16) : (F.CHn_IMG_RECOMP_RECOMP n).lo + (F.CHn_IMG_RECOMP_RECOMP n).width ≤ 32 ∧
    (F.CHn_IMG_RECOMP_KAT n).lo + (F.CHn_IMG_RECOMP_KAT n).width ≤ 32 :=
  ⟨Nat.le_of_ble_eq_true rfl, Nat.le_of_ble_eq_true rfl⟩

/-- A count of 16 bits goes up by one. -/
theorem get_bump_word (s : State) {f : Fld} (fits : f.lo + f.width ≤ 32) (width : f.width = 16) :
    (s.bump f 1).get f = min (s.get f + 1) 65535 := by
  rw [State.bump, State.get_put_same s _ fits, width]
  omega

theorem setJob_ch (n : Fin 16) (j : Job) (s : State) : ((setJob n j s).ch n).img = { (s.ch n).img with job := some j } := by
  rw [setJob, State.ch_modImg_same]

theorem setJob_word (n : Fin 16) (j : Job) (s : State) (a : Nat) : (setJob n j s).word a = s.word a := State.modImg_word ..

/-- A line is computed again, counted and told of. -/
theorem recompute_goesOn {n : Fin 16} {s : State} {j j' : Job} (st : Stage) (line : j'.line = j.line)
    (spares : s.spares n (chEvt n 8) = true) : goesOn n j st s (recompute n j' st s) ∧ raises (chEvt n 8) s (recompute n j' st s) ∧
      bumps (F.CHn_IMG_RECOMP_RECOMP n) 65535 s (recompute n j' st s) := by
  have step : PathStep n s (setJob n { j' with stage := st } (s.bump (F.CHn_IMG_RECOMP_RECOMP n) 1)) :=
    (PathStep.put s _ (b := 0x1010064) rfl (by decide)).trans (.modImg _ _)
  obtain ⟨img, told, frame⟩ := step.told (by decide) spares
  have job := setJob_ch n { j' with stage := st } (s.bump (F.CHn_IMG_RECOMP_RECOMP n) 1)
  have count : (setJob n { j' with stage := st } (s.bump (F.CHn_IMG_RECOMP_RECOMP n) 1)).get (F.CHn_IMG_RECOMP_RECOMP n) =
      min (s.get (F.CHn_IMG_RECOMP_RECOMP n) + 1) 65535 :=
    (State.get_of_word (setJob_word ..)).trans (get_bump_word s (recomp_fits n).1 rfl)
  refine ⟨⟨⟨{ j' with stage := st }, (congrArg Img.job img).trans (by rw [job]), rfl, line⟩,
    (congrArg Img.released img).trans ?_⟩, told,
    (frame.getAt (quiet_recomp n) rfl).trans count⟩
  rw [job, State.bump, State.put_ch]

/-- The severity of PIPE_UNRES is S2 at least, so that where its reactions spare a decided line there is none (R79). -/
theorem unres_spares {n : Fin 16} {s : State} (spares : s.spares n (chEvt n 9) = true) : (s.ch n).ft.decided = [] := by
  have floor : sevFloor (chEvt n 9) = 2 := by
    have kind : (chEvt n 9 - 128) % 24 = 9 := by
      unfold chEvt
      omega
    have own : ¬ chEvt n 9 < 128 := by
      unfold chEvt
      omega
    simp only [sevFloor, own, kind, if_false, true_or, if_true]
  have sev : 2 ≤ s.sevOf (chEvt n 9) := by
    have other : chEvt n 9 ≠ 16 ∧ chEvt n 9 ≠ 93 := by
      unfold chEvt
      omega
    rw [State.sevOf, sevEffective, if_neg other.1, if_neg other.2, floor]
    exact Nat.le_max_left ..
  simp only [State.spares, Bool.or_eq_true, decide_eq_true_eq, List.isEmpty_iff] at spares
  exact spares.resolve_left (by omega)

/-- The line in the pipes is given up. -/
def jobGone (n : Fin 16) (s : State) : State := s.modImg n fun i => { i with job := none }

theorem jobGone_img (n : Fin 16) (s : State) : ((jobGone n s).ch n).img = { (s.ch n).img with job := none } := by
  rw [jobGone, State.ch_modImg_same]

theorem jobGone_word (n : Fin 16) (s : State) (a : Nat) : (jobGone n s).word a = s.word a := State.modImg_word ..

theorem jobGone_step (n : Fin 16) (s : State) : PathStep n s (jobGone n s) := .modImg s _

theorem withhold_eq (n : Fin 16) (s : State) : withhold n s = ((jobGone n s).raiseCh n 9).hold n 2 := rfl

theorem withhold_withholds {n : Fin 16} {s : State} (run : s.wstate n = 1) (spares : s.spares n (chEvt n 9) = true) :
    ((withhold n s).ch n).img = { (s.ch n).img with job := none } ∧ held n 2 (withhold n s) ∧ raises (chEvt n 9) s (withhold n s) ∧
      quietBut [] s (withhold n s) := by
  have step := jobGone_step n s
  have undecided : ((jobGone n s).ch n).ft.decided = [] := step.decided.trans (unres_spares spares)
  have lt := RaiseFrame.chEvt_lt n (k := 9) (by decide)
  obtain ⟨-, told, frame⟩ := step.told (by decide) spares
  have stay : LinesStay n (jobGone n s) (((jobGone n s).raiseCh n 9).hold n 2) := (LinesStay.raise _ lt).trans (.hold _ n 2)
  have halt : RaiseFrame ((jobGone n s).raiseCh n 9) (((jobGone n s).raiseCh n 9).hold n 2) := .hold _ n 2
  rw [withhold_eq]
  exact ⟨(stay.img undecided).trans (jobGone_img n s), hold_holds _ n 2 (frame.working (.inl (step.wstate.trans run))),
    fun on => halt.pend _ lt (told on), fun a q _ => ((frame.trans halt).word a q).trans (jobGone_word n s a)⟩

end Sys2Proof.Machine

namespace Sys2Proof.Machine

/-! ### The end of the test of readmission (R80) -/

/-- What the end of the test of pipe p leaves: the other pipe's fence and request, counts that are 0, and what has been told. -/
structure ReadmitKept (n : Fin 16) (p : Pipe) (s t : State) : Prop where
  fence : ∀ q, q ≠ p → t.flag (fenceFld n q) = s.flag (fenceFld n q)
  request : ∀ q, q ≠ p → t.flag (readmFld n q) = s.flag (readmFld n q)
  zero : ∀ q, s.get (rescntFld n q) = 0 → t.get (rescntFld n q) = 0
  pend : ∀ e, e < 512 → s.flag (pendFld e) = true → t.flag (pendFld e) = true
  host : t.domOn 0 = s.domOn 0

theorem readmFld_apart (n : Fin 16) {p q : Pipe} (h : q ≠ p) : (readmFld n p).lo + (readmFld n p).width ≤ (readmFld n q).lo ∨
    (readmFld n q).lo + (readmFld n q).width ≤ (readmFld n p).lo := by
  cases p <;> cases q
  · contradiction
  · exact .inl (Nat.le_of_ble_eq_true rfl)
  · exact .inr (Nat.le_of_ble_eq_true rfl)
  · contradiction

/-- The request of pipe p is gone. -/
def requestGone (n : Fin 16) (p : Pipe) (s : State) : State := s.put (readmFld n p) 0

theorem requestGone_step (n : Fin 16) (p : Pipe) (s : State) : PathStep n s (requestGone n p s) := .pipe s 0 (pipeFld_addr n p).2.2

theorem requestGone_request (n : Fin 16) (p : Pipe) (s : State) : (requestGone n p s).flag (readmFld n p) = false :=
  State.flag_put_zero s (pipeFld_fits n p).2.2

theorem requestGone_fence (n : Fin 16) (p q : Pipe) (s : State) : (requestGone n p s).flag (fenceFld n q) = s.flag (fenceFld n q) :=
  State.flag_put_other s 0 (.inr (pipeFld_order n q p).1)

theorem requestGone_kept (n : Fin 16) (p : Pipe) (s : State) : ReadmitKept n p s (requestGone n p s) where
  fence _ _ := requestGone_fence ..
  request _ ne := State.flag_put_other s 0 (readmFld_apart n ne)
  zero q zero := (State.get_put_other s 0 (.inl (pipeFld_order n p q).2.1)).trans zero
  pend _ lt set := (State.flag_of_word ((requestGone_step n p s).word _ (pend_below lt))).trans set
  host := (requestGone_step n p s).host

/-- Pipe p is in use again, with both residue counts cleared. -/
def rejoined (n : Fin 16) (p : Pipe) (s : State) : State := clearRescnt n ((requestGone n p s).put (fenceFld n p) 0)

theorem clearRescnt_keeps {n : Fin 16} {f : Fld} (low : ∀ q, f.lo + f.width ≤ (rescntFld n q).lo) (s : State) :
    (clearRescnt n s).flag f = s.flag f :=
  (State.flag_put_other _ 0 (.inr (low .b))).trans (State.flag_put_other s 0 (.inr (low .a)))

theorem rejoined_step (n : Fin 16) (p : Pipe) (s : State) : PathStep n s (rejoined n p s) :=
  ((requestGone_step n p s).trans (.pipe _ 0 (pipeFld_addr n p).1)).trans
    ((PathStep.pipe _ 0 (pipeFld_addr n .a).2.1).trans (.pipe _ 0 (pipeFld_addr n .b).2.1))

theorem rejoined_count (n : Fin 16) (p q : Pipe) (s : State) : (rejoined n p s).get (rescntFld n q) = 0 := by
  obtain ⟨a, b, -, -⟩ := clearRescnt_clears n ((requestGone n p s).put (fenceFld n p) 0)
  cases q
  · exact a
  · exact b

theorem rejoined_request (n : Fin 16) (p q : Pipe) (s : State) :
    (rejoined n p s).flag (readmFld n q) = (requestGone n p s).flag (readmFld n q) := by
  rw [rejoined, clearRescnt_keeps fun r => (pipeFld_order n q r).2.1, State.flag_put_other _ 0 (.inl (pipeFld_order n p q).1)]

theorem rejoined_fence (n : Fin 16) (p : Pipe) (s : State) : (rejoined n p s).flag (fenceFld n p) = false := by
  rw [rejoined, clearRescnt_keeps fun r => (pipeFld_order n p r).2.2, State.flag_put_zero _ (pipeFld_fits n p).1]

theorem rejoined_other (n : Fin 16) {p q : Pipe} (ne : q ≠ p) (s : State) :
    (rejoined n p s).flag (fenceFld n q) = s.flag (fenceFld n q) := by
  rw [rejoined, clearRescnt_keeps fun r => (pipeFld_order n q r).2.2, State.flag_put_other _ 0 (fenceFld_apart n ne),
    requestGone_fence]

theorem readmit_stays {n : Fin 16} {p : Pipe} {ok : Bool} {s : State} (h : (s.readmits n p && ok) = false) :
    readmit n p ok s = requestGone n p s := by
  unfold readmit
  cases waits : s.readmits n p with
  | false => rfl
  | true =>
    rw [waits, Bool.true_and] at h
    rw [h]
    rfl

theorem readmit_rejoins {n : Fin 16} {p : Pipe} {ok : Bool} {s : State} (h : (s.readmits n p && ok) = true) :
    readmit n p ok s = (rejoined n p s).raiseCh n 12 := by
  obtain ⟨waits, passed⟩ := Bool.and_eq_true_iff.1 h
  simp only [readmit, waits, passed, Bool.not_true, Bool.false_eq_true, if_false, if_true, rejoined, clearRescnt, requestGone]

theorem readmit_readmits (n : Fin 16) (p : Pipe) (ok : Bool) (s : State) : readmitted n p ok s (readmit n p ok s) ∧
    ReadmitKept n p s (readmit n p ok s) := by
  cases h : s.readmits n p && ok with
  | false =>
    rw [readmit_stays h]
    refine ⟨⟨requestGone_request n p s, ?_, fun waits passed => ?_⟩, requestGone_kept n p s⟩
    · rw [requestGone_fence, h, Bool.not_false, Bool.and_true]
    · rw [waits, passed] at h
      contradiction
  | true =>
    rw [readmit_rejoins h]
    have step := rejoined_step n p s
    have frame : RaiseFrame (rejoined n p s) ((rejoined n p s).raiseCh n 12) := .raiseCh _ n (by decide)
    have q := quiet_pipeStat n
    have count (r : Pipe) : ((rejoined n p s).raiseCh n 12).get (rescntFld n r) = 0 :=
      (frame.getAt q (pipeFld_addr n r).2.1).trans (rejoined_count n p r s)
    refine ⟨⟨?_, ?_, fun _ _ => ⟨count .a, count .b, fun on => ?_⟩⟩, ?_⟩
    · rw [frame.flagAt q (pipeFld_addr n p).2.2, rejoined_request, requestGone_request]
    · rw [frame.flagAt q (pipeFld_addr n p).1, rejoined_fence, h, Bool.not_true, Bool.and_false]
    · exact raise_pending _ (RaiseFrame.chEvt_lt n (by decide)) (step.host.trans on)
    · refine ⟨fun r ne => ?_, fun r ne => ?_, fun r _ => count r, fun e lt set => ?_, (frame.domOn 0).trans step.host⟩
      · rw [frame.flagAt q (pipeFld_addr n r).1, rejoined_other n ne]
      · rw [frame.flagAt q (pipeFld_addr n r).2.2, rejoined_request, (requestGone_kept n p s).request r ne]
      · exact frame.pend e lt ((State.flag_of_word (step.word _ (pend_below lt))).trans set)

/-- The end of the other pipe's test leaves what this one's has brought. -/
theorem readmitted.before {n : Fin 16} {p q : Pipe} {ok : Bool} {s u v : State} (h : readmitted n p ok s u) (ne : p ≠ q)
    (k : ReadmitKept n q u v) : readmitted n p ok s v := by
  obtain ⟨request, fence, rejoin⟩ := h
  refine ⟨(k.request p ne).trans request, (k.fence p ne).trans fence, fun waits passed => ?_⟩
  obtain ⟨a, b, told⟩ := rejoin waits passed
  exact ⟨k.zero _ a, k.zero _ b, fun on => k.pend _ (RaiseFrame.chEvt_lt n (by decide)) (told on)⟩

/-- What the end of this pipe's test brings does not depend on the other one's. -/
theorem readmitted.behind {n : Fin 16} {p q : Pipe} {ok : Bool} {s u v : State} (h : readmitted n p ok u v) (ne : p ≠ q)
    (k : ReadmitKept n q s u) : readmitted n p ok s v := by
  obtain ⟨request, fence, rejoin⟩ := h
  have waiting : u.readmits n p = s.readmits n p := by rw [State.readmits, k.fence p ne, k.request p ne, State.readmits]
  rw [waiting, k.fence p ne] at fence
  rw [waiting] at rejoin
  refine ⟨request, fence, fun waits passed => ?_⟩
  obtain ⟨a, b, told⟩ := rejoin waits passed
  exact ⟨a, b, fun on => told (k.host.trans on)⟩

theorem readmitted.of_word {n : Fin 16} {p : Pipe} {ok : Bool} {s v t : State} (h : readmitted n p ok s v)
    (word : ∀ a, t.word a = v.word a) : readmitted n p ok s t := by
  obtain ⟨request, fence, rejoin⟩ := h
  refine ⟨(State.flag_of_word (word _)).trans request, (State.flag_of_word (word _)).trans fence, fun waits passed => ?_⟩
  obtain ⟨a, b, told⟩ := rejoin waits passed
  exact ⟨(State.get_of_word (word _)).trans a, (State.get_of_word (word _)).trans b,
    fun on => (State.flag_of_word (word _)).trans (told on)⟩

/-! ### A word that cannot be corrected (R81) -/

theorem PathStep.stat {n : Fin 16} (s : State) {f : Fld} (v : Nat) (addr : f.addr = A.CHn_IMG_STAT n) : PathStep n s (s.put f v) :=
  .put s v (b := 0x1010068) addr (by decide)

theorem PathStep.ecc {n : Fin 16} (s : State) {f : Fld} (v : Nat) (addr : f.addr = A.CHn_IMG_ECC n) : PathStep n s (s.put f v) :=
  .put s v (b := 0x101006C) addr (by decide)

theorem imgStat_ne_ecc (n : Fin 16) : A.CHn_IMG_STAT n ≠ A.CHn_IMG_ECC n := by
  unfold A.CHn_IMG_STAT A.CHn_IMG_ECC
  omega

/-- What a bad image word that is counted leaves, and its mark. -/
structure ImageMarked (n : Fin 16) (s t : State) : Prop where
  mark : t.flag (F.CHn_IMG_STAT_IMGUE n) = true
  only : onlyChAt n [A.CHn_IMG_ECC n, A.CHn_IMG_STAT n] s t
  step : PathStep n s t
  mask : MaskSame n s t
  img : (t.ch n).img = (s.ch n).img

theorem imageUe_marks (n : Fin 16) (s : State) : ImageMarked n s (imageUe n s) where
  mark := by
    rw [imageUe, State.bump, State.flag_put_ne _ _ (imgStat_ne_ecc n), State.flag_put_one s (Nat.le_of_ble_eq_true rfl) Nat.one_pos]
  only := (onlyChAt.put s n 1 (.tail _ (.head _))).trans (.put _ n _ (.head _))
  step := (PathStep.stat s 1 rfl).trans (.ecc _ _ rfl)
  mask := (MaskSame.put s 1 (b := 0x1010068) rfl (by decide)).trans (.put _ _ (b := 0x101006C) rfl (by decide))
  img := by rw [imageUe, State.bump, State.put_ch, State.put_ch]

theorem readsWith_image (n : Fin 16) (j : Job) (after : Stage) (done : State → State) (s : State) :
    readsWith n j after ⟨true, none⟩ done s = setJob n { j with stage := .refetch, after := after } (imageUe n s) := rfl

/-- With a bad image word the line waits for a refetch (R81). -/
theorem readsWith_imageBad (n : Fin 16) (j : Job) (after : Stage) (done : State → State) (s : State) :
    imageBad n after s (readsWith n j after ⟨true, none⟩ done s) := by
  have marks := imageUe_marks n s
  rw [readsWith_image]
  generalize imageUe n s = u at marks
  refine ⟨⟨{ j with stage := .refetch, after := after }, ?_, rfl, rfl⟩, (State.flag_of_word (setJob_word ..)).trans marks.mark,
    marks.only.trans (.modImg u _)⟩
  rw [setJob_ch]

/-- A bad word of a matrix, noted before the channel is halted. -/
def matrixNoted (n : Fin 16) (bank m : Nat) (s : State) : State :=
  (s.put (F.CHn_IMG_STAT_MTXUE n) 1).modImg n fun i => { i with ueTables := (bank, m) :: i.ueTables }

theorem matrixUe_eq (n : Fin 16) (bank m : Nat) (s : State) : matrixUe n bank m s = ((matrixNoted n bank m s).raiseCh n 10).hold n 2 := rfl

theorem matrixNoted_word (n : Fin 16) (bank m : Nat) (s : State) (a : Nat) :
    (matrixNoted n bank m s).word a = (s.put (F.CHn_IMG_STAT_MTXUE n) 1).word a := State.modImg_word ..

theorem matrixNoted_tables (n : Fin 16) (bank m : Nat) (s : State) : (bank, m) ∈ ((matrixNoted n bank m s).ch n).img.ueTables := by
  rw [matrixNoted, State.ch_modImg_same]
  exact .head _

/-- What a bad word of a matrix brings: the channel halts and tells of it (R81, R87). -/
structure MatrixMarked (n : Fin 16) (bank m : Nat) (s t : State) : Prop where
  held : held n 2 t
  told : raises (chEvt n 10) s t
  mark : t.flag (F.CHn_IMG_STAT_MTXUE n) = true
  image : t.flag (F.CHn_IMG_STAT_IMGUE n) = s.flag (F.CHn_IMG_STAT_IMGUE n)
  tables : (bank, m) ∈ (t.ch n).img.ueTables
  quiet : quietBut [A.CHn_IMG_STAT n] s t

theorem matrixUe_marks {n : Fin 16} {s : State} (bank m : Nat) (run : s.wstate n = 1) :
    MatrixMarked n bank m s (matrixUe n bank m s) := by
  have step : PathStep n s (matrixNoted n bank m s) := (PathStep.stat s 1 rfl).trans (.modImg _ _)
  have word := matrixNoted_word n bank m s
  have tables := matrixNoted_tables n bank m s
  rw [matrixUe_eq]
  generalize matrixNoted n bank m s = u at *
  have lt := RaiseFrame.chEvt_lt n (k := 10) (by decide)
  have told : RaiseFrame u (u.raiseCh n 10) := .raiseCh u n (by decide)
  have halt : RaiseFrame (u.raiseCh n 10) ((u.raiseCh n 10).hold n 2) := .hold _ n 2
  have frame := told.trans halt
  refine ⟨hold_holds _ n 2 (told.working (.inl (step.wstate.trans run))),
    fun on => halt.pend _ lt (raise_pending u lt (step.host.trans on)),
    ?_, ?_, ?_, fun a q out => ?_⟩
  · rw [frame.flagAt (quiet_imgStat n) rfl, State.flag_of_word (word _), State.flag_put_one s (Nat.le_of_ble_eq_true rfl) Nat.one_pos]
  · rw [frame.flagAt (quiet_imgStat n) rfl, State.flag_of_word (word _), State.flag_put_other s 1 (.inl (Nat.le_of_ble_eq_true rfl))]
  · rwa [frame.imgField n (·.ueTables) fun _ _ _ _ => rfl]
  · have apart : a ≠ A.CHn_IMG_STAT n := by simpa using out
    rw [frame.word a q, word]
    exact State.word_put_ne s 1 apart

/-- Of the words a computation could not read, the image word where there is one. -/
def imageNoted (n : Fin 16) (iu : Bool) (s : State) : State := if iu then imageUe n s else s

theorem imageNoted_step (n : Fin 16) (iu : Bool) (s : State) : PathStep n s (imageNoted n iu s) ∧ MaskSame n s (imageNoted n iu s) ∧
    (((imageNoted n iu s).ch n).img = (s.ch n).img) ∧
    (∀ a, a ∉ [A.CHn_IMG_ECC n, A.CHn_IMG_STAT n] → (imageNoted n iu s).word a = s.word a) ∧
    (iu = true → (imageNoted n iu s).flag (F.CHn_IMG_STAT_IMGUE n) = true) := by
  cases iu with
  | false => exact ⟨.refl n s, fun _ _ => rfl, rfl, fun _ _ => rfl, fun e => Bool.noConfusion e⟩
  | true =>
    have marks := imageUe_marks n s
    exact ⟨marks.step, marks.mask, marks.img, marks.only.2.2, fun _ => marks.mark⟩

theorem readsWith_matrix (n : Fin 16) (j : Job) (after : Stage) (iu : Bool) (m : Fin 4) (done : State → State) (s : State) :
    readsWith n j after ⟨iu, some m⟩ done s = jobGone n (matrixUe n (((imageNoted n iu s).imgFor n j.line.page).mtxBank n) m.val
      ((imageNoted n iu s).bump (F.CHn_IMG_ECC_UE n) 1)) := by
  simp only [readsWith, unreadable, imageNoted, jobGone, Option.isSome_some, if_true]

theorem jobGone_job (n : Fin 16) (s : State) : ((jobGone n s).ch n).img.job = none := congrArg Img.job (jobGone_img n s)

theorem jobGone_tables (n : Fin 16) (s : State) : ((jobGone n s).ch n).img.ueTables = (s.ch n).img.ueTables := by
  rw [jobGone_img]

theorem held.jobGone {n : Fin 16} {s : State} {c : Nat} (h : held n c s) : held n c (jobGone n s) := by
  obtain ⟨state, cause⟩ := h
  refine ⟨(State.get_of_word (jobGone_word ..)).trans state, ?_⟩
  rw [Machine.jobGone, State.ch_modImg_same]
  exact cause

/-- With a bad matrix word the line is given up and the channel halts (R81). -/
theorem readsWith_readFails {n : Fin 16} {s : State} (j : Job) (after : Stage) (iu : Bool) (m : Fin 4) (done : State → State)
    (run : s.wstate n = 1) : readFails n j.line.page iu m s (readsWith n j after ⟨iu, some m⟩ done s) := by
  obtain ⟨step, mask, img, kept, mark⟩ := imageNoted_step n iu s
  rw [readsWith_matrix, mask.mtxBank (by rw [img])]
  generalize imageNoted n iu s = u at *
  have counted : PathStep n u (u.bump (F.CHn_IMG_ECC_UE n) 1) := .ecc u _ rfl
  have image : (u.bump (F.CHn_IMG_ECC_UE n) 1).flag (F.CHn_IMG_STAT_IMGUE n) = u.flag (F.CHn_IMG_STAT_IMGUE n) :=
    State.flag_put_ne u _ (imgStat_ne_ecc n)
  have ecc {a : Nat} (out : a ≠ A.CHn_IMG_ECC n) : (u.bump (F.CHn_IMG_ECC_UE n) 1).word a = u.word a := State.word_put_ne u _ out
  have noted := step.trans counted
  generalize u.bump (F.CHn_IMG_ECC_UE n) 1 = v at *
  have marked := matrixUe_marks ((s.imgFor n j.line.page).mtxBank n) m.val (noted.wstate.trans run)
  generalize matrixUe n ((s.imgFor n j.line.page).mtxBank n) m.val v = w at *
  have flag (f : Fld) : (jobGone n w).flag f = w.flag f := State.flag_of_word (jobGone_word ..)
  refine ⟨⟨jobGone_job n w, marked.held.jobGone, (flag _).trans marked.mark,
    fun on => (flag _).trans (marked.told (noted.host.trans on)),
    fun a q out => ?_⟩, (jobGone_tables n w).symm ▸ marked.tables, fun bad => ?_⟩
  · have apart : a ≠ A.CHn_IMG_ECC n ∧ a ≠ A.CHn_IMG_STAT n := by simpa using out
    rw [jobGone_word, marked.quiet a q (by simpa using apart.2), ecc apart.1, kept a out]
  · rw [flag, marked.image, image, mark bad]

end Sys2Proof.Machine

namespace Sys2Proof.Machine

/-! ### What the comparator makes of two outputs (R76, R78) -/

@[simp] theorem overlay_nil (codes : List Nat) : overlay codes [] = codes := rfl

/-- The line that leaves does not depend on the outputs noted with it. -/
theorem release_outputs (n : Fin 16) (j : Job) (fa fb : List (Nat × Nat)) (ra rb : Bool) :
    release n (j.outputs fa fb ra rb) = release n j := rfl

section

variable {n : Fin 16} {s : State} {j : Job} {fa fb : List (Nat × Nat)} {again : State → State}

theorem compareLine_both {j' : Job} (both : s.bothScreen n) : compareLine n j' 0 again s = compareTwo n j' 0 again s := by
  simp only [compareLine, both _, Bool.false_eq_true, if_false]

theorem compareTwo_alike (alike : overlay j.line.codes fa = overlay j.line.codes fb) :
    compareTwo n (j.outputs fa fb true true) 0 again s = release n j (overlay j.line.codes fa) false 0 s := by
  rw [← release_outputs n j fa fb true true]
  exact if_pos (beq_iff_eq.2 alike)

theorem compareTwo_differ (differ : overlay j.line.codes fa ≠ overlay j.line.codes fb) :
    compareTwo n (j.outputs fa fb true true) 0 again s = recompute n (j.outputs fa fb true true) .recompute s :=
  if_neg (mt beq_iff_eq.1 differ)

theorem compareTwo_differ_aFails (differ : overlay j.line.codes fa ≠ overlay j.line.codes fb) :
    compareTwo n (j.outputs fa fb false true) 0 again s = release n j (overlay j.line.codes fb) true 0 (fence n .a s) := by
  rw [← release_outputs n j fa fb false true]
  exact if_neg (mt beq_iff_eq.1 differ)

/-- Of two equal outputs the residue of one fails: x names the pipe, with what the checks of A and of B say. -/
theorem compareTwo_alike_oneFails (alike : overlay j.line.codes fa = overlay j.line.codes fb) {x : Pipe × Bool × Bool}
    (mem : x ∈ [(Pipe.a, false, true), (.b, true, false)]) : compareTwo n (j.outputs fa fb x.2.1 x.2.2) 0 again s =
      residueFail n x.1 (release n j (overlay j.line.codes fa) true 0 s) := by
  rw [← release_outputs n j fa fb x.2.1 x.2.2]
  simp only [List.mem_cons, List.not_mem_nil, or_false] at mem
  obtain rfl | rfl := mem
  · rw [alike]
    exact if_pos (beq_iff_eq.2 alike)
  · exact if_pos (beq_iff_eq.2 alike)

/-- The pipe x.1 is fenced and x.2 screens alone. -/
theorem compareLine_alone {x : Pipe × Pipe} (mem : x ∈ [(Pipe.a, Pipe.b), (.b, .a)]) (fenced : s.flag (fenceFld n x.1) = true)
    (screens : s.flag (fenceFld n x.2) = false) : compareLine n (j.outputs fa fb true true) 0 again s =
      release n j (overlay j.line.codes (if x.2 = .a then fa else fb)) true 0 s := by
  rw [← release_outputs n j fa fb true true]
  simp only [List.mem_cons, List.not_mem_nil, or_false] at mem
  obtain rfl | rfl := mem
  · exact if_pos fenced
  · exact (if_neg (Bool.eq_false_iff.1 screens)).trans (if_pos fenced)

theorem compareLine_bothFail : compareLine n (j.outputs fa fb false false) 0 again s = again s := by
  unfold compareLine
  split
  · rfl
  · split
    · rfl
    · rfl

/-- A line that leaves though the residue of pipe p has failed (R76). -/
theorem residueFail_release (p : Pipe) (j : Job) (codes : List Nat) (both : s.bothScreen n)
    (spares : s.spares n (chEvt n 7) = true) :
    released n (releasedLine s n j codes true) s (residueFail n p (release n j codes true 0 s)) ∧
    bumps (rescntFld n p) 15 s (residueFail n p (release n j codes true 0 s)) ∧
    (residueFail n p (release n j codes true 0 s)).flag (fenceFld n p) = decide (max 1 (s.get (F.CHn_IMG_CTRL_FENCE_LIM n)) ≤
      (residueFail n p (release n j codes true 0 s)).get (rescntFld n p)) := by
  have step := PathStep.release n j codes true s
  obtain ⟨rel, only⟩ := release_releases n j codes true s
  generalize release n j codes true 0 s = u at *
  have get (f : Fld) : u.get f = s.get f := State.get_of_word (only.word _)
  have both' : u.bothScreen n := fun q => (State.flag_of_word (only.word _)).trans (both q)
  obtain ⟨count, fenced, img⟩ := residueFail_counts p both' ((step.spares (RaiseFrame.chEvt_lt n (by decide))).trans spares)
  rw [bumps, get] at count
  rw [get] at fenced
  exact ⟨⟨(congrArg Img.released img).trans rel.1, (congrArg Img.job img).trans rel.2⟩, count, fenced⟩

end

/-! ### The known-answer test and the arbiter (R77) -/

/-- The known-answer test is counted, and the line goes on as job j. -/
theorem katCounted (n : Fin 16) (j : Job) (s : State) :
    ((setJob n j (s.bump (F.CHn_IMG_RECOMP_KAT n) 1)).ch n).img = { (s.ch n).img with job := some j } ∧
    bumps (F.CHn_IMG_RECOMP_KAT n) 65535 s (setJob n j (s.bump (F.CHn_IMG_RECOMP_KAT n) 1)) ∧
    onlyChAt n [A.CHn_IMG_RECOMP n] s (setJob n j (s.bump (F.CHn_IMG_RECOMP_KAT n) 1)) := by
  refine ⟨?_, ?_, (onlyChAt.put s n _ (.head _)).trans (.modImg _ _)⟩
  · rw [setJob_ch, State.bump, State.put_ch]
  · exact (State.get_of_word (setJob_word ..)).trans (get_bump_word s (recomp_fits n).2 rfl)

/-- A pipe whose output is the arbiter's agrees with it. -/
theorem kept_self (j : Job) (codes : List Nat) : kept j codes codes = true :=
  List.all_eq_true.2 fun _ _ => Bool.or_eq_true_iff.2 (.inr (beq_self_eq_true _))

theorem arbitrated_agree {n : Fin 16} {j : Job} {s : State} (outA : j.outA = j.line.codes) (outB : j.outB = j.line.codes)
    (resA : j.resA = true) (resB : j.resB = true) :
    arbitrated n j j.line.codes true 0 s = release n j j.line.codes false 0 s := by
  simp only [arbitrated, outA, outB, kept_self, resA, resB, Bool.not_true, Bool.false_eq_true, if_false, Bool.and_true, if_true]

/-! ### The commands at their stages -/

theorem exec_pipeCompare (n : Fin 16) (fa fb : List (Nat × Nat)) (ra rb : Bool) (mis : Nat) (s : State) :
    exec (.pipeCompare n fa fb ra rb mis) s = execPipeCompare n fa fb ra rb mis s := rfl

theorem exec_pipeRecompDone (n : Fin 16) (fa fb : List (Nat × Nat)) (ra rb : Bool) (mis : Nat) (iu : Bool) (mu : Option (Fin 4))
    (s : State) : exec (.pipeRecompDone n fa fb ra rb mis iu mu) s = execPipeRecompDone n fa fb ra rb mis iu mu s := rfl

theorem exec_katDone (n : Fin 16) (okA okB : Bool) (mis : Nat) (s : State) :
    exec (.katDone n okA okB mis) s = execKatDone n okA okB mis s := rfl

theorem exec_arbitrationDone (n : Fin 16) (f : List (Nat × Nat)) (ok : Bool) (mis : Nat) (iu : Bool) (mu : Option (Fin 4))
    (s : State) : exec (.arbitrationDone n f ok mis iu mu) s = execArbitrationDone n f ok mis iu mu s := rfl

theorem readsWith_clean (n : Fin 16) (j : Job) (after : Stage) (done : State → State) (s : State) :
    readsWith n j after ⟨false, none⟩ done s = done s := rfl

/-- A reading that meets a bad word: one of the image waits, one of a matrix halts the channel (R81). -/
theorem badReading {n : Fin 16} {j : Job} {s : State} {c : Bool → Option (Fin 4) → Instr} (done : State → State)
    (runs : ∀ iu mu, exec (c iu mu) s = .next (readsWith n j j.stage ⟨iu, mu⟩ done s)) :
    does (c true none) s (imageBad n j.stage s) ∧
    (s.wstate n = 1 → ∀ iu m, does (c iu (some m)) s (readFails n j.line.page iu m s)) :=
  ⟨⟨_, runs true none, readsWith_imageBad n j j.stage done s⟩,
    fun run iu m => ⟨_, runs iu (some m), readsWith_readFails j j.stage iu m done run⟩⟩

section

variable {n : Fin 16} {s : State} {j : Job} (job : (s.ch n).img.job = some j)
include job

theorem pipeCompare_runs (stage : j.stage = .screened) (fa fb : List (Nat × Nat)) (ra rb : Bool) :
    exec (.pipeCompare n fa fb ra rb 0) s =
      .next (compareLine n (j.outputs fa fb ra rb) 0 (recompute n (j.outputs fa fb ra rb) .freshRead) s) := by
  rw [exec_pipeCompare, execPipeCompare, job]
  exact congrArg _ (if_pos stage)

theorem pipeRecompDone_runs (stage : j.stage = .freshRead ∨ j.stage = .recompute) (fa fb : List (Nat × Nat)) (ra rb iu : Bool)
    (mu : Option (Fin 4)) : exec (.pipeRecompDone n fa fb ra rb 0 iu mu) s =
      .next (readsWith n j j.stage ⟨iu, mu⟩ (recomputed n j (j.outputs fa fb ra rb) 0) s) := by
  rw [exec_pipeRecompDone, execPipeRecompDone, job]
  exact congrArg _ (if_pos stage)

theorem arbitrationDone_runs (stage : j.stage = .arbitrate) (f : List (Nat × Nat)) (ok : Bool) (mis : Nat) (iu : Bool)
    (mu : Option (Fin 4)) : exec (.arbitrationDone n f ok mis iu mu) s =
      .next (readsWith n j j.stage ⟨iu, mu⟩ (arbitrated n j (overlay j.line.codes f) ok mis) s) := by
  rw [exec_arbitrationDone, execArbitrationDone, job]
  exact congrArg _ (if_pos stage)

theorem katDone_bFails (stage : j.stage = .kat) :
    exec (.katDone n true false 0) s = .next (release n j j.outA true 0 (fence n .b s)) := by
  rw [exec_katDone, execKatDone, job]
  simp only [stage, reduceCtorEq, if_false, if_true, Bool.not_false, Bool.and_true]

theorem katDone_bothPass (stage : j.stage = .kat) :
    exec (.katDone n true true 0) s = .next (setJob n { j with stage := .arbitrate } (s.bump (F.CHn_IMG_RECOMP_KAT n) 1)) := by
  rw [exec_katDone, execKatDone, job]
  simp only [stage, reduceCtorEq, if_false, if_true, Bool.not_true, Bool.and_false, Bool.false_eq_true]

/-- The test of readmission is over: the line is screened, and no page waits for a test (R80). -/
theorem katDone_readmits (stage : j.stage = .readmit) (okA okB : Bool) (mis : Nat) :
    exec (.katDone n okA okB mis) s = .next ((setJob n { j with stage := .screened }
      (readmit n .b okB (readmit n .a okA s))).modImg n fun i => { i with katPage := none }) := by
  rw [exec_katDone, execKatDone, job]
  exact congrArg _ (if_pos stage)

/-! ### The clauses -/

theorem screened_bothPipes (both : s.bothScreen n) (spares : ∀ e, s.spares n (chEvt n e) = true) (stage : j.stage = .screened) :
    (does (.pipeCompare n [] [] true true 0) s fun t => released n (releasedLine s n j j.line.codes false) s t ∧ onlyCh n s t) ∧
    ∀ fa fb, overlay j.line.codes fa ≠ overlay j.line.codes fb →
      (does (.pipeCompare n fa fb true true 0) s fun t => goesOn n j .recompute s t ∧ raises (chEvt n 8) s t ∧
        bumps (F.CHn_IMG_RECOMP_RECOMP n) 65535 s t) ∧
      does (.pipeCompare n fa fb false true 0) s fun t => t.flag (fenceFld n .a) ∧ !t.flag (fenceFld n .b) ∧
        released n (releasedLine s n j (overlay j.line.codes fb) true) s t ∧ raises (chEvt n 7) s t := by
  have runs := pipeCompare_runs job stage
  refine ⟨⟨_, runs .., ?_⟩, fun fa fb differ => ⟨⟨_, runs .., ?_⟩, ⟨_, runs .., ?_⟩⟩⟩
  · rw [compareLine_both both, compareTwo_alike rfl]
    exact release_releases ..
  · rw [compareLine_both both, compareTwo_differ differ]
    exact recompute_goesOn .recompute rfl (spares 8)
  · rw [compareLine_both both, compareTwo_differ_aFails differ]
    obtain ⟨fenced, other, rel, told⟩ := fence_releases (p := .a) j (overlay j.line.codes fb) both (spares 7)
    exact ⟨fenced, by rw [other .b Pipe.noConfusion]; rfl, rel, told⟩

theorem screened_oneResidueFails (both : s.bothScreen n) (spares : ∀ e, s.spares n (chEvt n e) = true) (stage : j.stage = .screened)
    (fa fb : List (Nat × Nat)) (alike : overlay j.line.codes fa = overlay j.line.codes fb) (x : Pipe × Bool × Bool)
    (mem : x ∈ [(Pipe.a, false, true), (.b, true, false)]) : does (.pipeCompare n fa fb x.2.1 x.2.2 0) s fun t =>
      released n (releasedLine s n j (overlay j.line.codes fa) true) s t ∧ bumps (rescntFld n x.1) 15 s t ∧
      t.flag (fenceFld n x.1) = decide (max 1 (s.get (F.CHn_IMG_CTRL_FENCE_LIM n)) ≤ t.get (rescntFld n x.1)) := by
  refine ⟨_, pipeCompare_runs job stage .., ?_⟩
  rw [compareLine_both both, compareTwo_alike_oneFails alike mem]
  exact residueFail_release x.1 j _ both (spares 7)

theorem kat_verdicts (both : s.bothScreen n) (spares : ∀ e, s.spares n (chEvt n e) = true) (stage : j.stage = .kat) :
    (does (.katDone n true false 0) s fun t => t.flag (fenceFld n .b) ∧ released n (releasedLine s n j j.outA true) s t) ∧
    does (.katDone n true true 0) s fun t => (t.ch n).img.job = some { j with stage := .arbitrate } ∧
      onlyChAt n [A.CHn_IMG_RECOMP n] s t := by
  obtain ⟨fenced, -, rel, -⟩ := fence_releases (p := .b) j j.outA both (spares 7)
  obtain ⟨img, -, only⟩ := katCounted n { j with stage := .arbitrate } s
  exact ⟨⟨_, katDone_bFails job stage, fenced, rel⟩, ⟨_, katDone_bothPass job stage, congrArg Img.job img, only⟩⟩

theorem screened_onePipe (spares : ∀ e, s.spares n (chEvt n e) = true) (x : Pipe × Pipe) (mem : x ∈ [(Pipe.a, Pipe.b), (.b, .a)])
    (fenced : s.flag (fenceFld n x.1) = true) (screens : s.flag (fenceFld n x.2) = false) (stage : j.stage = .screened)
    (fa fb : List (Nat × Nat)) :
    (does (.pipeCompare n fa fb true true 0) s fun t => onlyCh n s t ∧
      released n (releasedLine s n j (overlay j.line.codes (if x.2 = .a then fa else fb)) true) s t) ∧
    does (.pipeCompare n fa fb false false 0) s fun t => goesOn n j .freshRead s t ∧
      bumps (F.CHn_IMG_RECOMP_RECOMP n) 65535 s t := by
  refine ⟨⟨_, pipeCompare_runs job stage .., ?_⟩, ⟨_, pipeCompare_runs job stage .., ?_⟩⟩
  · rw [compareLine_alone mem fenced screens]
    exact (release_releases ..).symm
  · rw [compareLine_bothFail]
    obtain ⟨goes, -, count⟩ := recompute_goesOn (j := j) (j' := j.outputs fa fb false false) .freshRead rfl (spares 8)
    exact ⟨goes, count⟩

theorem freshRead_fails (spares : ∀ e, s.spares n (chEvt n e) = true) (stage : j.stage = .freshRead) (run : s.wstate n = 1)
    (fa fb : List (Nat × Nat)) : does (.pipeRecompDone n fa fb false false 0 false none) s fun t =>
      (t.ch n).img = { (s.ch n).img with job := none } ∧ held n 2 t ∧ raises (chEvt n 9) s t ∧ quietBut [] s t := by
  refine ⟨_, pipeRecompDone_runs job (.inl stage) .., ?_⟩
  rw [readsWith_clean, recomputed, if_pos stage, compareLine_bothFail]
  exact withhold_withholds run (spares 9)

theorem readmit_tested (stage : j.stage = .readmit) (okA okB : Bool) (mis : Nat) : does (.katDone n okA okB mis) s fun t =>
    (t.ch n).img.job = some { j with stage := .screened } ∧ readmitted n .a okA s t ∧ readmitted n .b okB s t := by
  obtain ⟨a, keptB⟩ := readmit_readmits n .a okA s
  obtain ⟨b, keptA⟩ := readmit_readmits n .b okB (readmit n .a okA s)
  refine ⟨_, katDone_readmits job stage okA okB mis, ?_⟩
  generalize readmit n .b okB (readmit n .a okA s) = u at *
  have word (k : Nat) : ((setJob n { j with stage := .screened } u).modImg n fun i => { i with katPage := none }).word k = u.word k :=
    (State.modImg_word ..).trans (setJob_word ..)
  refine ⟨?_, (a.before Pipe.noConfusion keptA).of_word word, (b.behind Pipe.noConfusion keptB).of_word word⟩
  rw [State.ch_modImg_same, setJob_ch]

theorem recompute_ends (stage : j.stage = .recompute) :
    (does (.pipeRecompDone n [] [] true true 0 false none) s fun t =>
      released n (releasedLine s n j j.line.codes false) s t ∧ onlyCh n s t) ∧
    ∀ fa fb, overlay j.line.codes fa ≠ overlay j.line.codes fb → does (.pipeRecompDone n fa fb true true 0 false none) s fun t =>
      goesOn n j .kat s t ∧ bumps (F.CHn_IMG_RECOMP_KAT n) 65535 s t ∧ onlyChAt n [A.CHn_IMG_RECOMP n] s t := by
  have again : j.stage ≠ .freshRead := by
    rw [stage]
    exact Stage.noConfusion
  refine ⟨⟨_, pipeRecompDone_runs job (.inr stage) .., ?_⟩,
    fun fa fb differ => ⟨_, pipeRecompDone_runs job (.inr stage) .., ?_⟩⟩
  · rw [readsWith_clean, recomputed, if_neg again, if_pos ⟨rfl, rfl, rfl⟩, release_outputs]
    exact release_releases ..
  · obtain ⟨img, count, only⟩ := katCounted n { j.outputs fa fb true true with stage := .kat } s
    rw [readsWith_clean, recomputed, if_neg again, if_neg fun same => differ same.1]
    exact ⟨⟨⟨_, congrArg Img.job img, rfl, rfl⟩, (congrArg Img.released img).trans rfl⟩, count, only⟩

theorem arbiter_verdicts (spares : ∀ e, s.spares n (chEvt n e) = true) (stage : j.stage = .arbitrate) :
    (s.wstate n = 1 → ∀ f mis, does (.arbitrationDone n f false mis false none) s fun t =>
      (t.ch n).img = { (s.ch n).img with job := none } ∧ held n 2 t ∧ raises (chEvt n 9) s t ∧ quietBut [] s t) ∧
    (j.outA = j.line.codes → j.outB = j.line.codes → j.resA → j.resB →
      does (.arbitrationDone n [] true 0 false none) s fun t =>
        released n (releasedLine s n j j.line.codes false) s t ∧ onlyCh n s t) := by
  refine ⟨fun run f mis => ⟨_, arbitrationDone_runs job stage .., ?_⟩, fun outA outB resA resB =>
    ⟨_, arbitrationDone_runs job stage .., ?_⟩⟩
  · rw [readsWith_clean]
    exact withhold_withholds run (spares 9)
  · rw [readsWith_clean, overlay_nil, arbitrated_agree outA outB resA resB]
    exact release_releases ..

theorem badReadings (c : Bool → Option (Fin 4) → Instr)
    (reads : ((j.stage = .recompute ∨ j.stage = .freshRead) ∧ c = .pipeRecompDone n [] [] true true 0) ∨
      (j.stage = .arbitrate ∧ c = .arbitrationDone n [] true 0)) :
    does (c true none) s (imageBad n j.stage s) ∧
    (s.wstate n = 1 → ∀ iu m, does (c iu (some m)) s (readFails n j.line.page iu m s)) := by
  obtain ⟨stage, rfl⟩ | ⟨stage, rfl⟩ := reads
  · exact badReading _ fun iu mu => pipeRecompDone_runs job stage.symm [] [] true true iu mu
  · exact badReading _ fun iu mu => arbitrationDone_runs job stage [] true 0 iu mu

end

/-- Settles O12: each stage of a line has its own command, whose outcome is a release, a fence, a count, a stage or a halt, and the
effect of each of these is a lemma of its own. -/
theorem comparatorReleasesOrFences : Obligations.ComparatorReleasesOrFences := by
  unfold Obligations.ComparatorReleasesOrFences
  intro s n j job spares
  refine ⟨fun a b => ?_, fun x mem fenced screens => screened_onePipe job spares x mem fenced (Bool.eq_false_of_not_eq_true' screens),
    freshRead_fails job spares, readmit_tested job, recompute_ends job, arbiter_verdicts job spares, badReadings job⟩
  have both : s.bothScreen n := fun p => by
    cases p
    · exact Bool.eq_false_of_not_eq_true' a
    · exact Bool.eq_false_of_not_eq_true' b
  exact ⟨screened_bothPipes job both spares, screened_oneResidueFails job both spares, kat_verdicts job both spares⟩

end Sys2Proof.Machine

namespace Sys2Proof.Machine

/-! ## The duty limiter's decision (R103, R105) -/

/-! ### What its two stages leave of a line's weight -/

theorem demoteTo_fits (w : Nat → Nat) {budget : Nat} (rest : w 0 ≤ budget) (c : Nat) : w (demoteTo w budget c) ≤ budget := by
  induction c with
  | zero => exact rest
  | succ c ih =>
    unfold demoteTo
    split
    · exact ih
    · omega

/-- What the nozzle stage leaves of a code fits the nozzle's budget, suppressed or demoted. -/
theorem nozStage_fits (w : Nat → Nat) (suppress : Bool) {budget : Nat} (rest : w 0 ≤ budget) (c : Nat) :
    w (nozStage w suppress budget c) ≤ budget := by
  unfold nozStage
  split
  · cases suppress
    · exact demoteTo_fits w rest c
    · exact rest
  · omega

/-- A demoted line weighs at level 0 what the line weighed at the level it was demoted to. -/
theorem lineWeight_demoted (w : Nat → Nat) (codes : List Nat) (lvl : Nat) :
    lineWeight w (codes.map (demoteLvl · lvl)) 0 = lineWeight w codes lvl := List.foldl_map

/-- At level 3 nothing prints. -/
theorem lineWeight_suppressed {w : Nat → Nat} (rest : w 0 = 0) (codes : List Nat) : lineWeight w codes 3 = 0 := by
  show codes.foldl (fun k _ => k + w 0) 0 = 0
  rw [rest]
  exact List.foldl_fixed codes

/-- The codes that the nozzle stage leaves of line l. -/
def State.nozCodes (s : State) (n : Fin 16) (l : Line) : List Nat :=
  l.codes.mapIdx fun j c => nozStage (s.weight n) (s.flag (F.CHn_DUT_CTRL_NPOL n)) (s.get (F.CHn_DUT_NLIM_NLIM n) - s.nozCnt n j) c

/-- What the head may still print in its window. -/
def State.headLeft (s : State) (n : Fin 16) : Nat := s.get (F.CHn_DUT_HLIM_HLIM n) - s.get (F.CHn_DUT_HCOUNT_HCNT n)

/-- The level that the head stage takes on codes: the first of its policy that fits what is left. -/
def State.headLvl (s : State) (n : Fin 16) (codes : List Nat) : Nat :=
  ((if s.flag (F.CHn_DUT_CTRL_HPOL n) then [0, 3] else [0, 1, 2, 3]).find? fun v =>
    lineWeight (s.weight n) codes v ≤ s.headLeft n).getD 3

theorem State.dutyOf_line (s : State) (n : Fin 16) (l : Line) : (s.dutyOf n l).line = l := by
  unfold State.dutyOf
  split <;> rfl

theorem State.dutyOf_off {s : State} {n : Fin 16} (off : s.flag (F.CHn_DUT_CTRL_EN n) = false) (l : Line) :
    (s.dutyOf n l).out = l.codes := by
  rw [State.dutyOf, if_pos (by rw [off]; rfl)]

theorem State.dutyOf_on {s : State} {n : Fin 16} (en : s.flag (F.CHn_DUT_CTRL_EN n) = true) (l : Line) :
    (s.dutyOf n l).lvl = s.headLvl n (s.nozCodes n l) ∧
    (s.dutyOf n l).out = (s.nozCodes n l).map (demoteLvl · (s.headLvl n (s.nozCodes n l))) := by
  rw [State.dutyOf, if_neg (by rw [en]; decide)]
  exact ⟨rfl, rfl⟩

/-- The level found fits; level 3, which stands where none is found, prints nothing. -/
theorem State.headLvl_fits (s : State) (n : Fin 16) (codes : List Nat) :
    lineWeight (s.weight n) codes (s.headLvl n codes) ≤ s.headLeft n := by
  unfold State.headLvl
  cases found : (if s.flag (F.CHn_DUT_CTRL_HPOL n) then [0, 3] else [0, 1, 2, 3]).find? fun v =>
      lineWeight (s.weight n) codes v ≤ s.headLeft n with
  | none =>
    rw [Option.getD_none, lineWeight_suppressed rfl]
    exact Nat.zero_le _
  | some v =>
    have fits := List.find?_some found
    exact of_decide_eq_true fits

theorem State.dutyOf_headFits {s : State} {n : Fin 16} (en : s.flag (F.CHn_DUT_CTRL_EN n) = true) (l : Line) :
    lineWeight (s.weight n) (s.dutyOf n l).out 0 ≤ s.headLeft n := by
  rw [(State.dutyOf_on en l).2, lineWeight_demoted]
  exact s.headLvl_fits n _

/-- Where the head stage takes nothing away, every code fits its nozzle's budget. -/
theorem State.dutyOf_nozzleFits {s : State} {n : Fin 16} (en : s.flag (F.CHn_DUT_CTRL_EN n) = true) (l : Line)
    (whole : (s.dutyOf n l).lvl = 0) (j : Nat) (h : j < (s.dutyOf n l).out.length) :
    s.weight n (s.dutyOf n l).out[j] ≤ s.get (F.CHn_DUT_NLIM_NLIM n) - s.nozCnt n j := by
  obtain ⟨lvl, out⟩ := State.dutyOf_on en l
  have codes : (s.dutyOf n l).out = s.nozCodes n l := by
    rw [out, ← lvl, whole]
    exact List.map_id _
  simp only [codes, State.nozCodes, List.getElem_mapIdx]
  exact nozStage_fits _ _ (Nat.zero_le _) _

/-! ### A counter with a parity error -/

/-- Nozzle j's counter holds NLIM, and PERR is set. -/
def counterFull (n : Fin 16) (j : Nat) (s : State) : State :=
  (s.setWord (dutAddr n j) (BitVec.ofNat 32 (s.get (F.CHn_DUT_NLIM_NLIM n)))).put (F.CHn_DUT_STAT_PERR n) 1

theorem dutyParity_one {n : Fin 16} {j : Nat} (own : j < 4096) (s : State) : dutyParity n [j] s = (counterFull n j s).raiseCh n 16 := by
  simp only [dutyParity, List.isEmpty_cons, Bool.false_eq_true, if_false, List.foldl_cons, List.foldl_nil, Nat.mod_eq_of_lt own,
    counterFull]

theorem dutAddr_window (n : Fin 16) (j : Nat) : dutAddr n j = 0x10E0000 + 4 * j + n.val * 0x100000 := by
  unfold dutAddr chBase
  omega

theorem quiet_dutAddr (n : Fin 16) {j : Nat} (own : j < 4096) : quiet (dutAddr n j) = true :=
  quiet_window n (dutAddr_window n j) (by omega) (by omega) (by omega) (by omega) (by omega)

theorem quiet_dutStat (n : Fin 16) : quiet (A.CHn_DUT_STAT n) = true :=
  quiet_window n (b := 0x1050024) rfl (by decide) (by decide) (by decide) (by decide) (by decide)

theorem dutAddr_ne_stat (n : Fin 16) (j : Nat) : dutAddr n j ≠ A.CHn_DUT_STAT n := by
  unfold dutAddr chBase A.CHn_DUT_STAT
  omega

theorem onlyAt.setWord {as : List Nat} (s : State) {a : Nat} (v : Word) (mem : a ∈ as) : onlyAt as s (s.setWord a v) :=
  ⟨rfl, fun _ out => State.word_setWord_ne s v fun e => out (e ▸ mem)⟩

theorem counterFull_only (n : Fin 16) (j : Nat) (s : State) : onlyAt [dutAddr n j, A.CHn_DUT_STAT n] s (counterFull n j s) :=
  (onlyAt.setWord s _ (.head _)).trans (.setWord _ _ (.tail _ (.head _)))

theorem counterFull_counter (n : Fin 16) (j : Nat) (s : State) : (counterFull n j s).nozCnt n j = s.get (F.CHn_DUT_NLIM_NLIM n) := by
  have fits : s.get (F.CHn_DUT_NLIM_NLIM n) < 65536 := s.get_lt _
  rw [State.nozCnt, counterFull, State.word_put_ne _ 1 (dutAddr_ne_stat n j), State.word_setWord_same, BitVec.toNat_ofNat]
  omega

theorem counterFull_mark (n : Fin 16) (j : Nat) (s : State) : (counterFull n j s).flag (F.CHn_DUT_STAT_PERR n) = true :=
  State.flag_put_one _ (Nat.le_of_ble_eq_true rfl) Nat.one_pos

theorem counterFull_domOn (n : Fin 16) (j : Nat) (s : State) : (counterFull n j s).domOn 0 = s.domOn 0 := by
  refine State.domOn_zero_of_word ((counterFull_only n j s).2 _ ?_)
  simp only [List.mem_cons, List.not_mem_nil, or_false, dutAddr, chBase, A.CHn_DUT_STAT, A.SYS_DOMSTAT_LO]
  omega

/-! ### The decision -/

theorem exec_dutyDecide (n : Fin 16) (perr : List Nat) (s : State) : exec (.dutyDecide n perr) s = execDutyDecide n perr s := rfl

/-- The limiter holds its decision on line l, which has left the released lines. -/
def dutyTaken (n : Fin 16) (l : Line) (rest : List Line) (s : State) : State :=
  ((s.modImg n fun i => { i with released := rest }).modDut n fun d => { d with dec := some (s.dutyOf n l) }).modBrg n fun b =>
    { b with sent := false, acked := false, retxed := false }

theorem dutyTaken_ch (n : Fin 16) (l : Line) (rest : List Line) (s : State) : (dutyTaken n l rest s).ch n = { (s.ch n) with
    img := { (s.ch n).img with released := rest }, dut := { (s.ch n).dut with dec := some (s.dutyOf n l) },
    brg := { (s.ch n).brg with sent := false, acked := false, retxed := false } } := by
  simp only [dutyTaken, State.ch_modBrg_same, State.ch_modDut_same, State.ch_modImg_same]

theorem dutyTaken_word (n : Fin 16) (l : Line) (rest : List Line) (s : State) (a : Nat) : (dutyTaken n l rest s).word a = s.word a := rfl

theorem onlyCh.trans {n : Fin 16} {s t u : State} (h : onlyCh n s t) (k : onlyCh n t u) : onlyCh n s u :=
  ⟨by rw [k.1, h.1], fun m hm => (k.2 m hm).trans (h.2 m hm)⟩

theorem dutyTaken_only (n : Fin 16) (l : Line) (rest : List Line) (s : State) : onlyCh n s (dutyTaken n l rest s) := by
  unfold dutyTaken
  exact ((onlyCh_modCh s n _).trans (onlyCh_modCh _ n _)).trans (onlyCh_modCh _ n _)

section

variable {s : State} {n : Fin 16} {l : Line} {rest : List Line} (on : s.chOn n = true)
  (released : (s.ch n).img.released = l :: rest) (free : (s.ch n).dut.dec = none) (fired : (s.ch n).ft.decided = [])
  (settled : ∀ k, s.dueEntries k (isDut n) = [])
include on released free fired settled

/-- With no decision held and no line decided, the limiter takes the oldest released line. -/
theorem exec_dutyDecide_takes (perr : List Nat) : exec (.dutyDecide n perr) s = .next (dutyTaken n l rest (dutyParity n perr s)) := by
  simp only [exec_dutyDecide, execDutyDecide, released, free, fired, on, if_true, applyDuty_idle settled, dutyTaken]

theorem dutyDecide_takes : does (.dutyDecide n []) s fun t => (t.ch n).img = { (s.ch n).img with released := rest } ∧
    (t.ch n).dut = { (s.ch n).dut with dec := some (s.dutyOf n l) } ∧
    (t.ch n).brg = { (s.ch n).brg with sent := false, acked := false, retxed := false } ∧ onlyCh n s t := by
  refine does_of (exec_dutyDecide_takes on released free fired settled []) ⟨?_, ?_, ?_, dutyTaken_only n l rest s⟩
  all_goals rw [show dutyParity n [] s = s from rfl, dutyTaken_ch]

theorem dutyDecide_parity {j : Nat} (own : j < 4096) : does (.dutyDecide n [j]) s fun t =>
      t.nozCnt n j = s.get (F.CHn_DUT_NLIM_NLIM n) ∧ t.flag (F.CHn_DUT_STAT_PERR n) ∧ raises (chEvt n 16) s t ∧
      (∃ d, (t.ch n).dut.dec = some d ∧ d.line = l) ∧ quietBut [dutAddr n j, A.CHn_DUT_STAT n] s t := by
  have meaning := exec_dutyDecide_takes on released free fired settled [j]
  rw [dutyParity_one own] at meaning
  have frame := RaiseFrame.raiseCh (counterFull n j s) n (k := 16) (by decide)
  have word {a : Nat} (q : quiet a = true) :
      (dutyTaken n l rest ((counterFull n j s).raiseCh n 16)).word a = (counterFull n j s).word a :=
    (dutyTaken_word ..).trans (frame.word a q)
  refine does_of meaning ⟨?_, ?_, fun host => ?_,
    ⟨((counterFull n j s).raiseCh n 16).dutyOf n l, by rw [dutyTaken_ch], State.dutyOf_line _ n l⟩, fun a q out => ?_⟩
  · rw [State.nozCnt, word (quiet_dutAddr n own)]
    exact counterFull_counter n j s
  · exact (State.flag_of_word (word (quiet_dutStat n))).trans (counterFull_mark n j s)
  · exact (State.flag_of_word (dutyTaken_word ..)).trans
      (raise_pending _ (RaiseFrame.chEvt_lt n (by decide)) ((counterFull_domOn n j s).trans host))
  · exact (word q).trans ((counterFull_only n j s).2 a out)

end

/-- Settles O14: the limiter takes the oldest released line, a parity error fills its nozzle's counter, and what it decides fits the
budgets of head and nozzle. -/
theorem dutyLimiterDecidesWithinLimits : Obligations.DutyLimiterDecidesWithinLimits := by
  unfold Obligations.DutyLimiterDecidesWithinLimits
  refine fun s => ⟨fun n l rest on released free fired settled => ⟨dutyDecide_takes on released free fired settled,
    fun j own => dutyDecide_parity on released free fired settled own⟩, fun n l => ⟨fun off => ?_, fun en => ?_⟩⟩
  · exact State.dutyOf_off (Bool.eq_false_of_not_eq_true' off) l
  · exact ⟨State.dutyOf_headFits en l, State.dutyOf_nozzleFits en l⟩

end Sys2Proof.Machine

namespace Sys2Proof.Machine

/-! ## Pending lines are decided (R97, R143, R146, R148, R178) -/

/-! ### What reactions leave of the link's state -/

/-- Of the state register of channel n's link every field but HPEN reads as before. -/
structure LinkStat (n : Fin 16) (s t : State) : Prop where
  get : ∀ f : Fld, f.addr = A.CHn_BRG_STAT n → f.lo + f.width ≤ 4 ∨ 5 ≤ f.lo → t.get f = s.get f

namespace LinkStat

variable {n : Fin 16} {s t u : State} {rs : Nat → State → State}

theorem refl (n : Fin 16) (s : State) : LinkStat n s s := ⟨fun _ _ _ => rfl⟩

theorem trans (h : LinkStat n s t) (k : LinkStat n t u) : LinkStat n s u :=
  ⟨fun f addr bits => (k.get f addr bits).trans (h.get f addr bits)⟩

theorem of_word (h : t.word (A.CHn_BRG_STAT n) = s.word (A.CHn_BRG_STAT n)) : LinkStat n s t :=
  ⟨fun _ addr _ => State.get_of_word (by rw [addr, h])⟩

theorem of_bar (h : t.bar = s.bar) : LinkStat n s t := of_word (State.word_of_bar h _)

theorem of_told (h : Told s t) : LinkStat n s t := of_word (h.word _ (toldReg_high (by
  unfold A.CHn_BRG_STAT
  omega)))

theorem ite {c : Prop} [Decidable c] (h : LinkStat n s t) (k : LinkStat n s u) : LinkStat n s (if c then t else u) := by
  split
  · exact h
  · exact k

theorem foldl {α : Type} (l : List α) (g : State → α → State) (h : ∀ s a, LinkStat n s (g s a)) (s : State) :
    LinkStat n s (l.foldl g s) := by
  induction l generalizing s with
  | nil => exact refl n s
  | cons a l ih => exact (h s a).trans (ih _)

theorem eachCh (s : State) (g : Fin 16 → State → State) (h : ∀ k s, LinkStat n s (g k s)) : LinkStat n s (s.eachCh g) :=
  foldl _ _ (fun s k => h k s) s

theorem modCh (s : State) (k : Fin 16) (g : Chan → Chan) : LinkStat n s (s.modCh k g) := of_bar rfl
theorem modWork (s : State) (k : Fin 16) (g : Work → Work) : LinkStat n s (s.modWork k g) := modCh s k _
theorem modFt (s : State) (k : Fin 16) (g : Ft → Ft) : LinkStat n s (s.modFt k g) := modCh s k _
theorem modWav (s : State) (k : Fin 16) (g : Wav → Wav) : LinkStat n s (s.modWav k g) := modCh s k _
theorem modBrg (s : State) (k : Fin 16) (g : Brg → Brg) : LinkStat n s (s.modBrg k g) := modCh s k _
theorem emit (s : State) (o : Output) : LinkStat n s (s.emit o) := of_bar rfl

/-- A register is written that is the state of no link: those lie at one offset within the channels' windows. -/
theorem put (s : State) {f : Fld} (v : Nat) (apart : f.addr % 0x100000 ≠ 0x4000C) : LinkStat n s (s.put f v) :=
  of_word (State.word_put_ne s v fun e => apart (by
    rw [← e]
    unfold A.CHn_BRG_STAT
    omega))

theorem putHpen (k : Fin 16) (s : State) (v : Nat) : LinkStat n s (s.put (F.CHn_BRG_STAT_HPEN k) v) := by
  refine ⟨fun f addr bits => ?_⟩
  by_cases own : f.addr = A.CHn_BRG_STAT k
  · exact State.get_put_other s v bits.symm
  · exact State.get_put_ne s v own

/-! #### Holds -/

theorem enterHeld (k : Fin 16) (s : State) : LinkStat n s (enterHeld k s) := by
  refine ((put s (f := F.WRK_SCRn_STAT_STATE k) 2 ?_).trans (put _ (f := F.CHn_FT_STAT_STATE k) 3 ?_)).trans (modFt _ k _)
  · simp only [F.WRK_SCRn_STAT_STATE, A.WRK_SCRn_STAT]
    omega
  · simp only [F.CHn_FT_STAT_STATE, A.CHn_FT_STAT]
    omega

theorem putCause (k : Fin 16) (c : Nat) (s : State) : LinkStat n s (s.put (F.WRK_SCRn_STAT_HCAUSE k) c) := by
  refine put s c ?_
  simp only [F.WRK_SCRn_STAT_HCAUSE, A.WRK_SCRn_STAT]
  omega

theorem cancelDecided (k : Fin 16) (s : State) : LinkStat n s (cancelDecided k s) := by
  unfold Machine.cancelDecided
  split
  next d ds dec =>
    refine .trans ?_ (of_word (restartScreen_word k _ _))
    refine ((modFt s k _).trans (modWork _ k _)).trans (put _ (f := F.CHn_FT_STAT_DIR k) _ ?_)
    simp only [F.CHn_FT_STAT_DIR, A.CHn_FT_STAT]
    omega
  next => exact refl n s

theorem dropHpen (k : Fin 16) (s : State) : LinkStat n s (dropHpen k s) :=
  ite ((modBrg s k _).trans (putHpen k _ 0)) (refl n s)

theorem noteHalted (k : Fin 16) (s : State) : LinkStat n s (noteHalted k s) := by
  unfold Machine.noteHalted
  dsimp only
  split
  · exact (dropHpen k s).trans (put (f := F.PWR_MON_FLUSH_HALTT) _ _ (by decide))
  · exact dropHpen k s

theorem heaterOff (k : Fin 16) (s : State) : LinkStat n s (heaterOff k s) := by
  have far : A.THM_CHn_HTRSTAT k % 0x100000 ≠ 0x4000C := by
    unfold A.THM_CHn_HTRSTAT
    omega
  have thermal (u : State) (x : Thm) : LinkStat n u { u with thm := x } := of_bar rfl
  exact ((put s (f := F.THM_CHn_HTRSTAT_DUTY k) 0 far).trans (put _ (f := F.THM_CHn_HTRSTAT_FORCED0 k) 1 far)).trans (thermal _ _)

theorem stopAxis (a : Fin 4) (s : State) : LinkStat n s (stopAxis a s) := by
  have ha := a.isLt
  have stat : A.MOT_AXa_STAT a % 0x100000 ≠ 0x4000C := by
    unfold A.MOT_AXa_STAT
    omega
  have axes (g : Axis → Axis) : LinkStat n s (s.modAxis a g) := of_bar rfl
  unfold Machine.stopAxis setTgt
  dsimp only
  refine .trans (.trans (.trans (.trans (axes _) (put (f := F.MOT_AXa_TGT_LO_TGT_L a) _ _ ?_))
    (put (f := F.MOT_AXa_TGT_HI_TGT_H a) _ _ ?_)) (put (f := F.MOT_AXa_STAT_STOPPED a) _ 1 stat))
    (put (f := F.MOT_AXa_STAT_OBACK a) _ 0 stat)
  · simp only [F.MOT_AXa_TGT_LO_TGT_L, A.MOT_AXa_TGT_LO]
    omega
  · simp only [F.MOT_AXa_TGT_HI_TGT_H, A.MOT_AXa_TGT_HI]
    omega

theorem startFlush (w : Bool) (s : State) : LinkStat n s (startFlush w s) := by
  have marks (u : State) : LinkStat n u (clearMarks u) := by
    obtain ⟨j, same⟩ := clearMarks_eq u
    exact of_bar (by rw [same])
  have under (x : Option (Nat × Bool)) : LinkStat n s { s with pwr := { s.pwr with flush := x } } := of_bar rfl
  unfold Machine.startFlush
  split
  · exact under _
  · refine ((under _).trans (marks _)).trans (eachCh _ _ fun k u => ?_)
    refine put (f := F.CHn_LED_FLUSH_DONE k) u 0 ?_
    simp only [F.CHn_LED_FLUSH_DONE, A.CHn_LED_FLUSH]
    omega

section

variable (hrs : ∀ e s, e < 512 → LinkStat n s (rs e s))
include hrs

theorem showCause (k : Fin 16) (c : Nat) (s : State) : LinkStat n s (showCause rs k c s) :=
  ite (refl n s) ((putCause k c s).trans (hrs _ _ (RaiseFrame.chEvt_lt k (by decide))))

theorem holdWith (k : Fin 16) (c : Nat) (s : State) : LinkStat n s (holdWith rs k c s) := by
  have noted (u : State) : LinkStat n u (addCause k c u) := modWork u k _
  unfold Machine.holdWith
  dsimp only
  refine ite ?_ (ite ((noted s).trans (showCause hrs k _ _)) (refl n s))
  refine .trans ?_ (hrs _ _ (RaiseFrame.chEvt_lt k (by decide)))
  exact ((enterHeld k s).trans (noted _)).trans (putCause k _ _)

theorem partialPending (k : Fin 16) (q l : Nat) (s : State) : LinkStat n s (partialPending rs k q l s) := by
  have line : A.CHn_LED_PLINE k % 0x100000 ≠ 0x4000C := by
    unfold A.CHn_LED_PLINE
    omega
  have seq : A.CHn_LED_PSEQ k % 0x100000 ≠ 0x4000C := by
    unfold A.CHn_LED_PSEQ
    omega
  have counted : LinkStat n s (modBand k q (fun b => { b with npart := b.npart + 1, hadPart := true })
      (((s.put (F.CHn_LED_PSEQ_SEQ k) q).put (F.CHn_LED_PLINE_LINE k) l).put (F.CHn_LED_PLINE_PEND k) 1)) :=
    (((put s q seq).trans (put _ l line)).trans (put _ 1 line)).trans (modWork _ k _)
  unfold Machine.partialPending
  dsimp only
  refine .trans ?_ ((hrs _ _ (RaiseFrame.chEvt_lt k (by decide))).trans (holdWith hrs k 3 _))
  refine counted.trans ?_
  split
  · exact modWork _ k _
  · exact refl n _

theorem cutWindow (k : Fin 16) (s : State) : LinkStat n s (cutWindow rs k s) := by
  have last : (ledLastState s k).addr % 0x100000 ≠ 0x4000C := by
    unfold ledLastState ledSlot
    dsimp only
    omega
  have line : A.CHn_LED_LINE k % 0x100000 ≠ 0x4000C := by
    unfold A.CHn_LED_LINE
    omega
  unfold Machine.cutWindow
  split
  · refine .trans ?_ (partialPending hrs k _ _ _)
    exact ((put s 1 last).trans (put (f := F.CHn_LED_LINE_STATE k) _ 1 line)).trans ((modWav _ k _).trans (emit _ _))
  · exact refl n s

theorem inhibitWith (c : Nat) (k : Fin 16) (s : State) : LinkStat n s (inhibitWith rs c k s) := by
  unfold Machine.inhibitWith
  refine .trans ?_ (holdWith hrs k c _)
  exact ((cutWindow hrs k s).trans (cancelDecided k _)).trans (ite (refl n _) (noteHalted k _))

/-! #### The safe state and the collector -/

theorem safeWith {c : Fld} (far : c.addr % 0x100000 ≠ 0x4000C) (s : State) : LinkStat n s (safeWith rs c s) := by
  unfold Machine.safeWith
  dsimp only
  refine ite (put s 1 far) (.trans ?_ (startFlush false _))
  refine .trans ?_ (hrs _ _ (by decide))
  refine .trans ?_ (foldl _ _ (fun u a => ite (stopAxis a u) (refl n u)) _)
  refine .trans ?_ (eachCh _ _ fun k u => (inhibitWith hrs 2 k u).trans (heaterOff k _))
  refine .trans (.trans (put (f := F.FLT_SAFE_ACTIVE) s 1 (by decide)) (put _ 1 far)) ?_
  exact ite (put (f := F.WRK_CTRL_FETCH_EN) _ 0 (by decide)) (refl n _)

theorem reactTo (e v : Nat) (s : State) : LinkStat n s (reactTo rs e v s) := by
  have flt (f : Flt) : LinkStat n s { s with flt := f } := of_bar rfl
  unfold Machine.reactTo
  split
  · exact refl n s
  · refine ite ((flt _).trans (safeWith hrs (by decide) _)) ?_
    split
    · exact refl n s
    · exact ite (refl n s) (ite ((flt _).trans (holdWith hrs ..)) (ite ((flt _).trans (inhibitWith hrs ..)) (refl n s)))

theorem collect (e : Nat) (s : State) : LinkStat n s (collect rs e s) := by
  have logged (v : Nat) : LinkStat n s (logRaise e v (noteHalt e s)) :=
    have noted : LinkStat n s (noteHalt e s) := ite (of_bar rfl) (refl n s)
    noted.trans (of_told (Told.logRaise e v _))
  exact ite (refl n s) (ite (logged _) ((logged _).trans ((of_told (Told.latchLine e _ _)).trans (reactTo hrs ..))))

end

theorem raiseN (k : Nat) : ∀ (e : Nat) (s : State), e < 512 → LinkStat n s (raiseN k e s) := by
  induction k with
  | zero => exact fun e s h => (of_told (Told.evtRaise s h)).trans (collect (fun _ u _ => refl n u) e _)
  | succ k ih => exact fun e s h => (of_told (Told.evtRaise s h)).trans (collect ih e _)

theorem raiseCh (s : State) (k : Fin 16) {e : Nat} (lt : e < 24) : LinkStat n s (s.raiseCh k e) :=
  raiseN 6 _ s (RaiseFrame.chEvt_lt k lt)

theorem hold (s : State) (k : Fin 16) (c : Nat) : LinkStat n s (s.hold k c) := holdWith (raiseN 6) k c s

end LinkStat

/-! ### The line is reached -/

theorem exec_lineDecide (n : Fin 16) (s : State) : exec (.lineDecide n) s = execLineDecide n s := rfl

/-- What the decision tick of line l of page pg does. -/
def decideAt (n : Fin 16) (pg l : Nat) (s : State) : State :=
  if s.tick + 14 + s.fdly n < s.earliestFire n then overlapHalt n s
  else match (s.ch n).dut.dec with
    | some d =>
      if d.line.page = pg ∧ d.line.l = l ∧ s.frameAcked n ∧ (s.ch n).ft.decided.isEmpty then noteReady n s (decide' n d s)
      else lateHalt n s
    | none => lateHalt n s

theorem exec_lineDecide_reached {s : State} {n : Fin 16} {b : Band} {i pg l : Nat} (pend : s.pendingLine n = some (b, i, pg, l))
    (up : s.booted = true) (on : s.chOn n = true) (run : s.wstate n = 1) (armed : (s.ch n).ft.armed = true)
    (page : (s.ch n).work.decPage = pg) (ready : ((s.releasedLines n pg l).any fun x => x.l == l) = true)
    (due : ((s.ch n).ft.byCount || s.byTime n) = true) : exec (.lineDecide n) s = .next (decideAt n pg l s) := by
  simp only [exec_lineDecide, execLineDecide, pend, up, on, run, armed, page, ready, due, Bool.and_self, beq_self_eq_true, if_true]
  rfl

theorem decideAt_early {s : State} {n : Fin 16} (pg l : Nat) (early : s.tick + 14 + s.fdly n < s.earliestFire n) :
    decideAt n pg l s = overlapHalt n s := if_pos early

theorem decideAt_unacked {s : State} {n : Fin 16} (pg l : Nat) (apart : s.earliestFire n ≤ s.tick + 14 + s.fdly n)
    (unacked : s.frameAcked n = false) : decideAt n pg l s = lateHalt n s := by
  rw [decideAt, if_neg (Nat.not_lt.2 apart)]
  split
  · exact if_neg fun ⟨_, _, acked, _⟩ => by simp [unacked] at acked
  · rfl

theorem decideAt_ready {s : State} {n : Fin 16} {pg l : Nat} {d : DutyDec} (apart : s.earliestFire n ≤ s.tick + 14 + s.fdly n)
    (dec : (s.ch n).dut.dec = some d) (page : d.line.page = pg) (line : d.line.l = l) (acked : s.frameAcked n = true)
    (free : (s.ch n).ft.decided = []) : decideAt n pg l s = noteReady n s (decide' n d s) := by
  simp only [decideAt, if_neg (Nat.not_lt.2 apart), dec, page, line, acked, free, List.isEmpty_nil, and_self, if_true]

/-! ### The decision -/

/-- The line that waits for its FIRE edge once duty d is decided (R148). -/
def State.decidedOf (s : State) (n : Fin 16) (d : DutyDec) : Decided :=
  { duty := d, fireTick := s.tick + 14 + s.fdly n, refired := (s.ch n).work.refire == some (d.line.seq, d.line.line),
    retx := (s.ch n).brg.retxed, altEnc := s.get (F.CHn_FT_CTRL_SRC n) == 4 && (s.pairOf (feCh n)).onSec,
    dir := s.pageDir n, sosk := (s.ch n).ft.sosk }

/-- The line of duty d is decided and the channel goes on with the next one; neither is its condition noted nor has its page ended. -/
def wentOn (n : Fin 16) (d : DutyDec) (s : State) : State :=
  let next := (s.ch n).work.afterLine d.line
  ((((s.modFt n fun f => { f with
    x := f.x + BitVec.ofNat 80 (linesOn d.line next) * s.pitch n, decided := [s.decidedOf n d], decidedSince := true }).modDut n fun x =>
    { x with dec := none }).modBrg n fun b => { b with sent := false, acked := false, retxed := false }).modWork n fun w =>
    { w with decPage := next.1, decL := next.2, refire := none }).wrapAdd (F.CHn_FT_LINES_LINES n) 1

theorem decide'_samePage {n : Fin 16} {d : DutyDec} {s : State} (same : ((s.ch n).work.afterLine d.line).1 = d.line.page) :
    decide' n d s = endPage n (capoCond 1 n (wentOn n d s)) := by
  unfold decide' wentOn State.decidedOf
  dsimp only
  rw [if_pos same]

theorem wentOn_ch (n : Fin 16) (d : DutyDec) (s : State) : (wentOn n d s).ch n = { (s.ch n) with
    ft := { (s.ch n).ft with
      x := (s.ch n).ft.x + BitVec.ofNat 80 (linesOn d.line ((s.ch n).work.afterLine d.line)) * s.pitch n,
      decided := [s.decidedOf n d], decidedSince := true }
    dut := { (s.ch n).dut with dec := none }
    brg := { (s.ch n).brg with sent := false, acked := false, retxed := false }
    work := { (s.ch n).work with
      decPage := ((s.ch n).work.afterLine d.line).1, decL := ((s.ch n).work.afterLine d.line).2, refire := none } } := by
  rw [wentOn, State.wrapAdd_ch, State.ch_modWork_same, State.ch_modBrg_same, State.ch_modDut_same, State.ch_modFt_same]

theorem wentOn_lines (n : Fin 16) (d : DutyDec) (s : State) :
    (wentOn n d s).get (F.CHn_FT_LINES_LINES n) = (s.get (F.CHn_FT_LINES_LINES n) + 1) % 2 ^ 32 :=
  State.get_put_same _ _ (Nat.le_of_ble_eq_true rfl)

theorem wentOn_only (n : Fin 16) (d : DutyDec) (s : State) {as : List Nat} (lines : A.CHn_FT_LINES n ∈ as) :
    onlyChAt n as s (wentOn n d s) := by
  unfold wentOn State.modFt State.modDut State.modBrg State.modWork State.wrapAdd
  exact ((((onlyChAt.modCh s n _).trans (.modCh _ n _)).trans (.modCh _ n _)).trans (.modCh _ n _)).trans (.put _ n _ lines)

/-- The slots are no part of what a channel and registers are. -/
theorem onlyChAt.withCapo {n : Fin 16} {as : List Nat} {s t : State} (h : onlyChAt n as s t) (c : Vector CapoSlot 16) :
    onlyChAt n as { s with capo := c } { t with capo := c } := by
  obtain ⟨same, chans, regs⟩ := h
  exact ⟨by rw [same], fun k hk => chans k hk, fun a ha => regs a ha⟩

/-- The end of a page disarms the channel at most. -/
theorem endPage_ch (n : Fin 16) (s : State) : ∃ armed excursion, (endPage n s).ch n =
    { (s.ch n) with ft := { (s.ch n).ft with armed := armed, excursion := excursion } } := by
  unfold endPage
  split
  · refine ⟨false, false, ?_⟩
    rw [State.put_ch, State.ch_modFt_same]
  · exact ⟨_, _, rfl⟩

theorem endPage_only (n : Fin 16) (s : State) {as : List Nat} (stat : A.CHn_FT_STAT n ∈ as) : onlyChAt n as s (endPage n s) := by
  unfold endPage State.modFt
  split
  · exact (onlyChAt.modCh s n _).trans (.put _ n 1 stat)
  · exact .refl n as s

/-- A line decided with its page going on (R143, R146, R148). -/
theorem decide'_decides {s : State} {n : Fin 16} {d : DutyDec} (same : ((s.ch n).work.afterLine d.line).1 = d.line.page) :
    lineDecided n d.line.l d.line.page d ((s.ch n).work.afterLine d.line) s (noteReady n s (decide' n d s)) := by
  have on : linesOn d.line ((s.ch n).work.afterLine d.line) = ((s.ch n).work.afterLine d.line).2 - d.line.l := if_pos same
  have went := wentOn_ch n d s
  have lines := wentOn_lines n d s
  have only := wentOn_only n d s (as := [A.CHn_FT_LINES n, A.CHn_FT_STAT n]) (.head _)
  rw [decide'_samePage same]
  generalize wentOn n d s = u at *
  obtain ⟨c, noted⟩ : ∃ c, capoCond 1 n u = { u with capo := c } := ⟨_, capoCond_eq 1 n u⟩
  rw [noted]
  obtain ⟨armed, excursion, ch⟩ := endPage_ch n { u with capo := c }
  have apart : A.CHn_FT_LINES n ∉ [A.CHn_FT_STAT n] := by
    simp only [List.mem_singleton, A.CHn_FT_LINES, A.CHn_FT_STAT]
    omega
  have counted := (endPage_only n { u with capo := c } (List.mem_singleton_self _)).2.2 _ apart
  have ended := (only.withCapo c).trans (endPage_only n { u with capo := c } (.tail _ (.head _)))
  generalize endPage n { u with capo := c } = v at *
  rw [show State.ch { u with capo := c } n = u.ch n from rfl, went] at ch
  refine ⟨⟨s.decidedOf n d, ?_, rfl, rfl, rfl⟩, ?_, ?_, ?_, (noteReady_get ..).trans ((State.get_of_word counted).trans lines),
    ended.noteReady s⟩
  all_goals rw [noteReady_ch, ch]
  · rw [on]
  · rw [same]

/-! ### The halts -/

/-- A channel in RUN that tells of an event and is halted with cause 2. -/
theorem raiseHold_halts {u : State} {n : Fin 16} {k : Nat} (lt : k < 24) (run : u.wstate n = 1) :
    held n 2 ((u.raiseCh n k).hold n 2) ∧ raises (chEvt n k) u ((u.raiseCh n k).hold n 2) ∧
    RaiseFrame u ((u.raiseCh n k).hold n 2) := by
  have told : RaiseFrame u (u.raiseCh n k) := .raiseCh u n lt
  have halt : RaiseFrame (u.raiseCh n k) ((u.raiseCh n k).hold n 2) := .hold _ n 2
  exact ⟨hold_holds _ n 2 (told.working (.inl run)),
    fun on => halt.pend _ (RaiseFrame.chEvt_lt n lt) (raise_pending u (RaiseFrame.chEvt_lt n lt) on), told.trans halt⟩

/-- Reactions leave the line position. -/
theorem RaiseFrame.linePos {s t : State} (h : RaiseFrame s t) (n : Fin 16) : (t.ch n).ft.x = (s.ch n).ft.x := by
  have kept := congrArg Ft.x (h.ft n)
  exact kept

/-- A register of the waveform engine in a channel's window. -/
theorem quiet_wav {a b : Nat} (n : Fin 16) (addr : a = b + n.val * 0x100000) (own : 0x1020000 ≤ b ∧ b < 0x1030000) : quiet a = true :=
  quiet_window n addr (by omega) (by omega) (by omega) (by omega) (by omega)

theorem quiet_wavStat (n : Fin 16) : quiet (A.CHn_WAV_STAT n) = true := quiet_wav n (b := 0x1020034) rfl (by decide)

theorem quiet_brgCnt2 (n : Fin 16) : quiet (A.CHn_BRG_CNT2 n) = true :=
  quiet_window n (b := 0x1040018) rfl (by decide) (by decide) (by decide) (by decide) (by decide)

/-- A line too early for the waveform before it (R97). -/
theorem overlapHalt_halts {s : State} {n : Fin 16} (run : s.wstate n = 1) : (overlapHalt n s).flag (F.CHn_WAV_STAT_OVERLAP n) ∧
    held n 2 (overlapHalt n s) ∧ ((overlapHalt n s).ch n).ft.x = (s.ch n).ft.x ∧ raises (chEvt n 15) s (overlapHalt n s) ∧
    calmBut [A.CHn_WAV_STAT n] s (overlapHalt n s) := by
  have pos : ((s.put (F.CHn_WAV_STAT_OVERLAP n) 1).ch n).ft.x = (s.ch n).ft.x := by rw [State.put_ch]
  have mark := State.flag_put_one s (f := F.CHn_WAV_STAT_OVERLAP n) (Nat.le_of_ble_eq_true rfl) Nat.one_pos
  have step : PathStep n s (s.put (F.CHn_WAV_STAT_OVERLAP n) 1) := .put s 1 (b := 0x1020034) rfl (by decide)
  have calm : calmBut [A.CHn_WAV_STAT n] s (s.put (F.CHn_WAV_STAT_OVERLAP n) 1) := Calm.put s 1 (by simp [F.CHn_WAV_STAT_OVERLAP])
  obtain ⟨halted, told, frame⟩ := raiseHold_halts (k := 15) (by decide) (step.wstate.trans run)
  exact ⟨(frame.flagAt (quiet_wavStat n) rfl).trans mark, halted, (frame.linePos n).trans pos,
    fun on => told (step.host.trans on), calm.trans (Calm.of_frame frame fun a h => (quiet_of_but h).1)⟩

/-- LATE is set and the line counted, before the channel halts. -/
def lateMarked (n : Fin 16) (s : State) : State := (s.put (F.CHn_BRG_STAT_LATE n) 1).bump (F.CHn_BRG_CNT2_LATECNT n) 1

theorem brgStat_ne_cnt2 (n : Fin 16) : A.CHn_BRG_STAT n ≠ A.CHn_BRG_CNT2 n := by
  unfold A.CHn_BRG_STAT A.CHn_BRG_CNT2
  omega

theorem State.bump_one (s : State) {f : Fld} (h : f.lo + f.width ≤ 32) : bumps f (2 ^ f.width - 1) s (s.bump f 1) := by
  have pos : 0 < 2 ^ f.width := Nat.two_pow_pos _
  rw [bumps, State.bump, State.get_put_same s _ h]
  exact Nat.mod_eq_of_lt (by omega)

theorem lateMarked_late (n : Fin 16) (s : State) : (lateMarked n s).flag (F.CHn_BRG_STAT_LATE n) = true :=
  (State.flag_put_ne _ _ (brgStat_ne_cnt2 n)).trans (State.flag_put_one s (Nat.le_of_ble_eq_true rfl) Nat.one_pos)

theorem lateMarked_count (n : Fin 16) (s : State) : bumps (F.CHn_BRG_CNT2_LATECNT n) 255 s (lateMarked n s) := by
  have before : (s.put (F.CHn_BRG_STAT_LATE n) 1).get (F.CHn_BRG_CNT2_LATECNT n) = s.get (F.CHn_BRG_CNT2_LATECNT n) :=
    State.get_put_ne s 1 (brgStat_ne_cnt2 n).symm
  have counted := State.bump_one (s.put (F.CHn_BRG_STAT_LATE n) 1) (f := F.CHn_BRG_CNT2_LATECNT n) (Nat.le_of_ble_eq_true rfl)
  rw [bumps, before] at counted
  exact counted

theorem lateMarked_calm (n : Fin 16) (s : State) : calmBut [A.CHn_BRG_STAT n, A.CHn_BRG_CNT2 n] s (lateMarked n s) :=
  Calm.trans (Calm.put s 1 (by simp [F.CHn_BRG_STAT_LATE])) (Calm.put _ _ (by simp [F.CHn_BRG_CNT2_LATECNT]))

/-- A line not acknowledged (R178). -/
theorem lateHalt_halts {s : State} {n : Fin 16} (run : s.wstate n = 1) : (lateHalt n s).flag (F.CHn_BRG_STAT_LATE n) ∧
    held n 2 (lateHalt n s) ∧ bumps (F.CHn_BRG_CNT2_LATECNT n) 255 s (lateHalt n s) ∧
    ((lateHalt n s).ch n).ft.x = (s.ch n).ft.x ∧ raises (chEvt n 21) s (lateHalt n s) ∧
    calmBut [A.CHn_BRG_STAT n, A.CHn_BRG_CNT2 n] s (lateHalt n s) := by
  have step : PathStep n s (lateMarked n s) :=
    (PathStep.put s 1 (b := 0x104000C) rfl (by decide)).trans (.put _ _ (b := 0x1040018) rfl (by decide))
  obtain ⟨halted, told, frame⟩ := raiseHold_halts (k := 21) (by decide) (step.wstate.trans run)
  have pos : ((lateMarked n s).ch n).ft.x = (s.ch n).ft.x := by rw [lateMarked, State.bump_ch, State.put_ch]
  have link : LinkStat n (lateMarked n s) (lateHalt n s) := (LinkStat.raiseCh _ n (by decide)).trans (.hold _ n 2)
  have late : (lateHalt n s).flag (F.CHn_BRG_STAT_LATE n) = (lateMarked n s).flag (F.CHn_BRG_STAT_LATE n) := by
    rw [State.flag, link.get _ rfl (.inr (Nat.le_of_ble_eq_true rfl)), State.flag]
  exact ⟨late.trans (lateMarked_late n s), halted, (frame.getAt (quiet_brgCnt2 n) rfl).trans (lateMarked_count n s),
    (frame.linePos n).trans pos, fun on => told (step.host.trans on),
    (lateMarked_calm n s).trans (Calm.of_frame frame fun a h => (quiet_of_but h).1)⟩

/-- Settles O15: in the tick in which its line is reached the channel decides it, or halts as the line overlaps the one before or was
not acknowledged. -/
theorem linesAreDecidedWhenReached : Obligations.LinesAreDecidedWhenReached := by
  unfold Obligations.LinesAreDecidedWhenReached
  intro s n b i pg l pend up on run armed page ready due
  have meaning := exec_lineDecide_reached pend up on run armed page ready due
  refine ⟨fun apart => ⟨?_, fun unacked => ?_⟩, fun early => ?_⟩
  · rintro d q dec rfl rfl acked free rfl same
    rw [decideAt_ready apart dec rfl rfl acked free] at meaning
    exact does_of meaning (decide'_decides same)
  · rw [decideAt_unacked pg l apart (Bool.eq_false_of_not_eq_true' unacked)] at meaning
    exact does_of meaning (lateHalt_halts run)
  · rw [decideAt_early pg l early] at meaning
    exact does_of meaning (overlapHalt_halts run)

end Sys2Proof.Machine

namespace Sys2Proof.Machine

/-! ## The amplitude loop (R99, R100, R107; log 144 to 146, 156) -/

/-! ### The new scale -/

theorem clampI_within {lo hi : Int} (range : lo ≤ hi) (v : Int) : lo ≤ clampI lo hi v ∧ clampI lo hi v ≤ hi := by
  unfold clampI
  split
  · omega
  · split <;> omega

/-- Held within a range that has c, a value is no farther from c than it was. -/
theorem clampI_near {lo hi c d v : Int} (low : lo ≤ c) (high : c ≤ hi) (above : c - d ≤ v) (below : v ≤ c + d) :
    c - d ≤ clampI lo hi v ∧ clampI lo hi v ≤ c + d := by
  unfold clampI
  split
  · omega
  · split <;> omega

/-- The new scale lies within its limits, and where the present one does no farther from it than a step (R100). -/
theorem newScaleOf_within (pk target sc step : Nat) {lo hi : Nat} (range : lo ≤ hi) :
    lo ≤ (newScaleOf pk target sc step lo hi).1 ∧ (newScaleOf pk target sc step lo hi).1 ≤ hi ∧
    (lo ≤ sc → sc ≤ hi →
      (newScaleOf pk target sc step lo hi).1 ≤ sc + step ∧ sc ≤ (newScaleOf pk target sc step lo hi).1 + step) := by
  unfold newScaleOf
  dsimp only
  generalize (if pk = 0 then (hi : Int) else (sc * (target * 16) + pk / 2) / pk) = new
  have stepped := clampI_within (lo := (sc : Int) - step) (hi := sc + step) (by omega) new
  generalize clampI ((sc : Int) - step) (sc + step) new = v at stepped
  have within := clampI_within (lo := lo) (hi := hi) (by omega) v
  refine ⟨by omega, by omega, fun low high => ?_⟩
  have near := clampI_near (lo := lo) (hi := hi) (by omega) (by omega) stepped.1 stepped.2
  omega

/-! ### The frame that was measured -/

theorem exec_wfbFrameMeasure (n : Fin 16) (before adc : List Nat) (s : State) :
    exec (.wfbFrameMeasure n before adc) s = execWfbFrameMeasure n before adc s := rfl

/-- The oldest frame waits no longer. -/
def measTaken (n : Fin 16) (rest : List Meas) (s : State) : State := s.modWav n fun w => { w with meas := rest }

/-- What the samples of frame x's window give. -/
def measure (n : Fin 16) (x : Meas) (before taken : List Nat) (s : State) : State :=
  if !x.clean || taken.isEmpty then s
  else if taken.contains 4095 then (s.put (F.CHn_WAV_STAT_WFBSAT n) 1).raiseCh n 14
  else peakDone n x (framePeak before taken) s

theorem exec_wfbFrameMeasure_over {s : State} {n : Fin 16} {before adc : List Nat} {x : Meas} {rest : List Meas}
    (meas : (s.ch n).wav.meas = x :: rest) (on : s.chOn n = true) (ended : x.over s.tick = true) (len : before.length = 16)
    (codes : (before ++ adc).all (· < 4096) = true) :
    exec (.wfbFrameMeasure n before adc) s = .next (measure n x before (x.taken adc) (measTaken n rest s)) := by
  rw [exec_wfbFrameMeasure, execWfbFrameMeasure, len, codes, meas]
  simp only [beq_self_eq_true, Bool.and_self, nextIf_true, on, ended, Bool.not_true, Bool.or_self, Bool.false_eq_true, if_false]
  rfl

theorem measure_none {n : Fin 16} {x : Meas} {taken : List Nat} (none : x.clean = false ∨ taken = []) (before : List Nat) (s : State) :
    measure n x before taken s = s := if_pos (by
  obtain h | h := none
  · rw [h]
    rfl
  · rw [h]
    exact Bool.or_true _)

theorem measure_saturated {n : Fin 16} {x : Meas} {taken : List Nat} (clean : x.clean = true) (some : taken ≠ [])
    (sat : taken.contains 4095 = true) (before : List Nat) (s : State) :
    measure n x before taken s = (s.put (F.CHn_WAV_STAT_WFBSAT n) 1).raiseCh n 14 := by
  rw [measure, if_neg (by simpa [clean] using some), if_pos sat]

theorem measure_peak {n : Fin 16} {x : Meas} {taken : List Nat} (clean : x.clean = true) (some : taken ≠ [])
    (below : taken.contains 4095 = false) (before : List Nat) (s : State) :
    measure n x before taken s = peakDone n x (framePeak before taken) s := by
  rw [measure, if_neg (by simpa [clean] using some), if_neg (by rw [below]; decide)]

theorem measTaken_wav (n : Fin 16) (rest : List Meas) (s : State) :
    ((measTaken n rest s).ch n).wav = { (s.ch n).wav with meas := rest } := by
  rw [measTaken, State.ch_modWav_same]

theorem measTaken_only (n : Fin 16) (rest : List Meas) (s : State) : onlyCh n s (measTaken n rest s) := by
  unfold measTaken
  exact onlyCh_modCh s n _

/-! ### A saturated sample -/

/-- Reactions leave the peaks of the mean. -/
theorem RaiseFrame.peaks {s t : State} (h : RaiseFrame s t) (n : Fin 16) : (t.ch n).wav.peaks = (s.ch n).wav.peaks := by
  have kept := congrArg Wav.peaks (h.wav n)
  exact kept

/-- A frame with a saturated sample gives no peak and is reported (R100). -/
theorem wfbFrameMeasure_saturated {s : State} {n : Fin 16} {before adc : List Nat} {x : Meas} {rest : List Meas}
    (meaning : exec (.wfbFrameMeasure n before adc) s = .next (measure n x before (x.taken adc) (measTaken n rest s)))
    (clean : x.clean = true) (some : x.taken adc ≠ []) (sat : (x.taken adc).contains 4095 = true) :
    does (.wfbFrameMeasure n before adc) s fun t => t.flag (F.CHn_WAV_STAT_WFBSAT n) ∧
      (t.ch n).wav.peaks = (s.ch n).wav.peaks ∧ raises (chEvt n 14) s t ∧ calmBut [A.CHn_WAV_STAT n] s t := by
  rw [measure_saturated clean some sat] at meaning
  have frame := RaiseFrame.raiseCh ((measTaken n rest s).put (F.CHn_WAV_STAT_WFBSAT n) 1) n (k := 14) (by decide)
  have mark := State.flag_put_one (measTaken n rest s) (f := F.CHn_WAV_STAT_WFBSAT n) (Nat.le_of_ble_eq_true rfl) Nat.one_pos
  have host : ((measTaken n rest s).put (F.CHn_WAV_STAT_WFBSAT n) 1).domOn 0 = s.domOn 0 :=
    State.domOn_zero_of_word (State.word_put_ne _ 1 (by simp only [F.CHn_WAV_STAT_WFBSAT, A.CHn_WAV_STAT, A.SYS_DOMSTAT_LO]; omega))
  have calm : calmBut [A.CHn_WAV_STAT n] s ((measTaken n rest s).put (F.CHn_WAV_STAT_WFBSAT n) 1) :=
    Calm.trans (Calm.wav s n _) (Calm.put _ 1 (by simp [F.CHn_WAV_STAT_WFBSAT]))
  refine does_of meaning ⟨(frame.flagAt (quiet_wavStat n) rfl).trans mark, ?_,
    fun on => raise_pending _ (RaiseFrame.chEvt_lt n (by decide)) (host.trans on),
    calm.trans (Calm.of_frame frame fun a h => (quiet_of_but h).1)⟩
  rw [frame.peaks, State.put_ch, measTaken_wav]

/-! ### The mean of the peaks -/

/-- The peaks that frame x's joins: those of frames under the same settings (log 145). -/
def State.peaksFor (s : State) (n : Fin 16) (x : Meas) : List Nat :=
  if (s.ch n).wav.peakCfg = x.wfb then (s.ch n).wav.peaks else []

theorem measTaken_peaksFor (n : Fin 16) (rest : List Meas) (s : State) (x : Meas) :
    (measTaken n rest s).peaksFor n x = s.peaksFor n x := by
  simp only [State.peaksFor, measTaken_wav]

theorem peakDone_joins {s : State} {n : Fin 16} {x : Meas} (more : (s.peaksFor n x).length + 1 < 2 ^ min 8 (getBits x.wfb 4 4))
    (pk : Nat) : peakDone n x pk s = s.modWav n fun w => { w with peaks := pk :: s.peaksFor n x, peakCfg := x.wfb } := if_pos more

/-- The mean of a single peak is that peak, and no peak waits any longer. -/
def meanTaken (n : Fin 16) (pk : Nat) (s : State) : State :=
  (s.modWav n fun w => { w with peaks := [] }).put (F.CHn_WAV_WFBPK_PEAK n) pk

theorem peakDone_single {s : State} {n : Fin 16} {x : Meas} (none : s.peaksFor n x = []) (one : getBits x.wfb 4 4 = 0)
    (loop : getBits x.wfb 0 1 = 1) (pk : Nat) : peakDone n x pk s = scaleUpdate n x pk (meanTaken n pk s) := by
  have peaks : (pk :: if (s.ch n).wav.peakCfg = x.wfb then (s.ch n).wav.peaks else []) = [pk] := congrArg (pk :: ·) none
  simp [peakDone, peaks, one, loop, meanTaken]

theorem meanTaken_word (n : Fin 16) (rest : List Meas) (pk : Nat) (s : State) {a : Nat} (apart : a ≠ A.CHn_WAV_WFBPK n) :
    (meanTaken n pk (measTaken n rest s)).word a = s.word a := State.word_put_ne _ pk apart

theorem meanTaken_peak (n : Fin 16) (pk : Nat) (s : State) : (meanTaken n pk s).get (F.CHn_WAV_WFBPK_PEAK n) = pk % 65536 :=
  State.get_put_same _ pk (Nat.le_of_ble_eq_true rfl)

theorem meanTaken_count (n : Fin 16) (rest : List Meas) (pk : Nat) (s : State) :
    (meanTaken n pk (measTaken n rest s)).get (F.CHn_WAV_WFBPK_UPD n) = s.get (F.CHn_WAV_WFBPK_UPD n) := by
  rw [meanTaken, State.get_put_other _ pk (.inl (Nat.le_of_ble_eq_true rfl)), State.modWav_get, measTaken, State.modWav_get]

theorem meanTaken_supRuns (n : Fin 16) (rest : List Meas) (pk : Nat) (s : State) :
    (meanTaken n pk (measTaken n rest s)).supRuns = s.supRuns := by
  have low {a : Nat} (h : a < 0x1000000) : (meanTaken n pk (measTaken n rest s)).word a = s.word a :=
    meanTaken_word n rest pk s (by unfold A.CHn_WAV_WFBPK; omega)
  have sup := State.domOn_of_word (low (a := A.SYS_DOMSTAT_LO) (by decide)) (low (a := A.SYS_DOMSTAT_HI) (by decide)) 3
  rw [State.supRuns, sup, meanTaken, State.put_boot, State.modWav_boot, measTaken, State.modWav_boot, State.supRuns]

/-! ### The scale for the next frame -/

/-- That a limit of the scale has acted is reported (R100). -/
def clampTold (n : Fin 16) (acted : Bool) (s : State) : State := if acted then (s.put (F.CHn_WAV_STAT_CLAMP n) 1).raiseCh n 14 else s

theorem clampTold_word (n : Fin 16) (acted : Bool) (s : State) {a : Nat} (q : quiet a = true) (apart : a ≠ A.CHn_WAV_STAT n) :
    (clampTold n acted s).word a = s.word a := by
  unfold clampTold
  split
  · exact ((RaiseFrame.raiseCh _ n (by decide)).word a q).trans (State.word_put_ne s 1 apart)
  · rfl

/-- With class 3 off the Tuner leaves the loop its scale. -/
theorem fileScale_off {s : State} (off : s.flag (F.TUN_CFGc_EN 3) = false) (i new : Nat) : fileScale i new s = (new, s) :=
  if_neg (by rw [off]; decide)

/-- The new scale of a frame on port 0 under its own settings, and whether a limit acted. -/
def State.scaleFor (s : State) (n : Fin 16) (x : Meas) (pk : Nat) : Nat × Bool :=
  newScaleOf pk (getBits x.tgt 0 12) (s.get (F.CHn_WAV_SCALE_SC0 n)) (getBits x.tgt 16 12) (getBits x.lim 0 16) (getBits x.lim 16 16)

theorem scaleUpdate_waits {s : State} {n : Fin 16} {x : Meas} (runs : s.supRuns = true) (port : getBits x.wfb 1 1 = 0)
    (loop : s.flag (F.CHn_WAV_WFB_LOOP_EN n) = true) (src : s.get (F.CHn_WAV_WFB_SRC n) = 0)
    (off : s.flag (F.TUN_CFGc_EN 3) = false) (pk : Nat) :
    scaleUpdate n x pk s = (clampTold n (s.scaleFor n x pk).2 (s.bump (F.CHn_WAV_WFBPK_UPD n) 1)).modWav n fun v =>
      { v with newScale := some (s.scaleFor n x pk).1 } := by
  have still : (clampTold n (s.scaleFor n x pk).2 (s.bump (F.CHn_WAV_WFBPK_UPD n) 1)).flag (F.TUN_CFGc_EN 3) = false := by
    refine (State.flag_of_word ((clampTold_word n _ _ (by decide +kernel) ?_).trans (State.word_put_ne s _ ?_))).trans off
    · simp only [F.TUN_CFGc_EN, A.TUN_CFGc, A.CHn_WAV_STAT]
      omega
    · simp only [F.TUN_CFGc_EN, A.TUN_CFGc, F.CHn_WAV_WFBPK_UPD, A.CHn_WAV_WFBPK]
      omega
  have filed := fileScale_off still (2 * n.val) (s.scaleFor n x pk).1
  unfold State.scaleFor clampTold at filed ⊢
  unfold scaleUpdate
  simp only [runs, port, loop, src, Bool.not_true, Bool.false_eq_true, if_false, if_true, Nat.add_zero, beq_self_eq_true, Bool.and_self]
  rw [filed]

/-- A mean of one frame sets the next frame's scale and leaves the present one (R100). -/
theorem wfbFrameMeasure_scales {s : State} {n : Fin 16} {before adc : List Nat} {x : Meas} {rest : List Meas}
    (meaning : exec (.wfbFrameMeasure n before adc) s = .next (measure n x before (x.taken adc) (measTaken n rest s)))
    (clean : x.clean = true) (some : x.taken adc ≠ []) (below : (x.taken adc).contains 4095 = false)
    (none : s.peaksFor n x = []) (one : getBits x.wfb 4 4 = 0) (own : getBits x.wfb 0 2 = 1)
    (loop : s.flag (F.CHn_WAV_WFB_LOOP_EN n) = true) (src : s.get (F.CHn_WAV_WFB_SRC n) = 0) (runs : s.supRuns = true)
    (off : s.flag (F.TUN_CFGc_EN 3) = false) (range : getBits x.lim 0 16 ≤ getBits x.lim 16 16) :
    does (.wfbFrameMeasure n before adc) s fun t => t.get (F.CHn_WAV_WFBPK_PEAK n) = framePeak before (x.taken adc) % 65536 ∧
      bumps (F.CHn_WAV_WFBPK_UPD n) 65535 s t ∧ t.get (F.CHn_WAV_SCALE_SC0 n) = s.get (F.CHn_WAV_SCALE_SC0 n) ∧
      ∃ v, (t.ch n).wav.newScale = .some v ∧ getBits x.lim 0 16 ≤ v ∧ v ≤ getBits x.lim 16 16 ∧
        (getBits x.lim 0 16 ≤ s.get (F.CHn_WAV_SCALE_SC0 n) → s.get (F.CHn_WAV_SCALE_SC0 n) ≤ getBits x.lim 16 16 →
          v ≤ s.get (F.CHn_WAV_SCALE_SC0 n) + getBits x.tgt 16 12 ∧ s.get (F.CHn_WAV_SCALE_SC0 n) ≤ v + getBits x.tgt 16 12) := by
  obtain ⟨enabled, port⟩ : getBits x.wfb 0 1 = 1 ∧ getBits x.wfb 1 1 = 0 := by
    rw [getBits_eq] at own ⊢
    rw [getBits_eq]
    omega
  rw [measure_peak clean some below, peakDone_single ((measTaken_peaksFor n rest s x).trans none) one enabled] at meaning
  generalize framePeak before (x.taken adc) = pk at meaning ⊢
  have word {a : Nat} := meanTaken_word n rest pk s (a := a)
  have peak := meanTaken_peak n pk (measTaken n rest s)
  have count := meanTaken_count n rest pk s
  have sup := meanTaken_supRuns n rest pk s
  generalize meanTaken n pk (measTaken n rest s) = u at *
  have get {f : Fld} (apart : f.addr ≠ A.CHn_WAV_WFBPK n) : u.get f = s.get f := State.get_of_word (word apart)
  have flag {f : Fld} (apart : f.addr ≠ A.CHn_WAV_WFBPK n) : u.flag f = s.flag f := State.flag_of_word (word apart)
  have wfb : A.CHn_WAV_WFB n ≠ A.CHn_WAV_WFBPK n := by
    unfold A.CHn_WAV_WFB A.CHn_WAV_WFBPK
    omega
  have scale : A.CHn_WAV_SCALE n ≠ A.CHn_WAV_WFBPK n := by
    unfold A.CHn_WAV_SCALE A.CHn_WAV_WFBPK
    omega
  have cfg : A.TUN_CFGc 3 ≠ A.CHn_WAV_WFBPK n := by
    unfold A.TUN_CFGc A.CHn_WAV_WFBPK
    omega
  rw [scaleUpdate_waits (sup.trans runs) port ((flag wfb).trans loop) ((get wfb).trans src) ((flag cfg).trans off)] at meaning
  have told {b : Nat} (own : 0x1020000 ≤ b ∧ b < 0x1020034) := clampTold_word n (u.scaleFor n x pk).2 (u.bump (F.CHn_WAV_WFBPK_UPD n) 1)
    (a := b + n.val * 0x100000) (quiet_wav n rfl (by omega)) (by unfold A.CHn_WAV_STAT; omega)
  have now : u.get (F.CHn_WAV_SCALE_SC0 n) = s.get (F.CHn_WAV_SCALE_SC0 n) := get scale
  have within := newScaleOf_within pk (getBits x.tgt 0 12) (s.get (F.CHn_WAV_SCALE_SC0 n)) (getBits x.tgt 16 12) range
  refine does_of meaning ⟨?_, ?_, ?_, (u.scaleFor n x pk).1, by rw [State.ch_modWav_same], ?_⟩
  · exact (State.get_of_word (told (b := 0x1020030) (by decide))).trans
      ((State.get_put_other u _ (.inr (Nat.le_of_ble_eq_true rfl))).trans peak)
  · have counted := State.bump_one u (f := F.CHn_WAV_WFBPK_UPD n) (Nat.le_of_ble_eq_true rfl)
    rw [bumps, count] at counted
    exact (State.get_of_word (told (b := 0x1020030) (by decide))).trans counted
  · exact (State.get_of_word (told (b := 0x102001C) (by decide))).trans ((State.get_put_ne u _ scale).trans now)
  · rw [State.scaleFor, now]
    exact within

/-- Settles O34: what the samples of a frame's window give, by whether there are any, one is saturated, or the mean has its last. -/
theorem amplitudeLoopSetsTheScale : Obligations.AmplitudeLoopSetsTheScale := by
  unfold Obligations.AmplitudeLoopSetsTheScale
  intro s n before adc x rest meas on ended len codes
  have meaning := exec_wfbFrameMeasure_over meas on ended len codes
  refine ⟨fun without => ?_, fun clean some => ⟨wfbFrameMeasure_saturated meaning clean some, ?_⟩⟩
  · rw [measure_none (without.imp_left Bool.eq_false_of_not_eq_true')] at meaning
    exact does_of meaning ⟨measTaken_wav n rest s, measTaken_only n rest s⟩
  · rintro below ps pk rfl rfl
    refine ⟨fun more => ?_, ?_⟩
    · rw [measure_peak clean some below, peakDone_joins ((measTaken_peaksFor n rest s x).symm ▸ more), measTaken_peaksFor] at meaning
      refine does_of meaning ⟨?_, (measTaken_only n rest s).trans (onlyCh_modCh _ n _)⟩
      rw [State.ch_modWav_same, measTaken_wav]
      rfl
    · rintro none one own loop src runs off sc lo hi rfl rfl rfl range
      exact wfbFrameMeasure_scales meaning clean some below none one own loop src runs (Bool.eq_false_of_not_eq_true' off) range

end Sys2Proof.Machine

namespace Sys2Proof.Machine

/-! ## Position feedback: encoders, windows, trackers, frets and emulation (R110 to R137) -/

/-! ### Front ends, encoders and emulation outputs -/

@[simp] theorem State.fe_modFe_same (s : State) (i : Fin 17) (e : Fin 4) (f : EncFe → EncFe) :
    (s.modFe i e f).fe i e = f (s.fe i e) := by
  simp only [State.fe, State.modFe, vget_set_same]

theorem State.fe_modFe_ne (s : State) {i j : Fin 17} {e k : Fin 4} (f : EncFe → EncFe) (h : j ≠ i ∨ k ≠ e) :
    (s.modFe i e f).fe j k = s.fe j k := by
  simp only [State.fe, State.modFe]
  by_cases hj : j = i
  · subst hj
    rw [vget_set_same, vget_set_ne _ _ (h.resolve_left (· rfl))]
  · rw [vget_set_ne _ _ hj]

@[simp] theorem State.encOf_modFe (s : State) (i : Fin 17) (e k : Fin 4) (f : EncFe → EncFe) : (s.modFe i e f).encOf k = s.encOf k := rfl
@[simp] theorem State.fe_modEnc (s : State) (e k : Fin 4) (i : Fin 17) (f : EncPos → EncPos) : (s.modEnc e f).fe i k = s.fe i k := rfl

@[simp] theorem State.encOf_modEnc_same (s : State) (e : Fin 4) (f : EncPos → EncPos) : (s.modEnc e f).encOf e = f (s.encOf e) :=
  vget_set_same ..

theorem State.encOf_modEnc_ne (s : State) {e k : Fin 4} (f : EncPos → EncPos) (h : k ≠ e) : (s.modEnc e f).encOf k = s.encOf k :=
  vget_set_ne _ _ h

@[simp] theorem State.emuOf_modEmu_same (s : State) (m : Fin 4) (f : Emu → Emu) : (s.modEmu m f).emuOf m = f (s.emuOf m) :=
  vget_set_same ..

@[simp] theorem State.fe_put (s : State) (f : Fld) (v : Nat) (i : Fin 17) (e : Fin 4) : (s.put f v).fe i e = s.fe i e := rfl
@[simp] theorem State.get_modEnc (s : State) (e : Fin 4) (g : EncPos → EncPos) (f : Fld) : (s.modEnc e g).get f = s.get f := rfl
@[simp] theorem State.flag_modEnc (s : State) (e : Fin 4) (g : EncPos → EncPos) (f : Fld) : (s.modEnc e g).flag f = s.flag f := rfl

theorem State.pairEn_of_word {s t : State} (h : t.word A.POS_PAIR_CTRL = s.word A.POS_PAIR_CTRL) : t.pairEn = s.pairEn := by
  rw [State.pairEn, State.pairEn]
  exact State.flag_of_word h

/-- What POS keeps of an encoder has the tracker it takes its count from, where an update leaves that. -/
theorem State.sub_modEnc (s : State) (e k : Fin 4) {f : EncPos → EncPos} (h : (f (s.encOf e)).sub = (s.encOf e).sub) :
    ((s.modEnc e f).encOf k).sub = (s.encOf k).sub := by
  by_cases hk : k = e
  · rw [hk, State.encOf_modEnc_same, h]
  · rw [State.encOf_modEnc_ne s f hk]

/-- A change of encoder e in every front end is one in each. -/
theorem everyFe_fe (e : Fin 4) (f : EncFe → EncFe) (s : State) (i : Fin 17) : (everyFe e f s).fe i e = f (s.fe i e) := by
  have others (l : List (Fin 17)) (out : i ∉ l) (u : State) :
      (l.foldl (fun (s : State) (j : Fin 17) => s.modFe j e f) u).fe i e = u.fe i e := by
    induction l generalizing u with
    | nil => rfl
    | cons j l ih =>
      rw [List.mem_cons, not_or] at out
      rw [List.foldl_cons, ih out.2, State.fe_modFe_ne _ _ (.inl out.1)]
  obtain ⟨l₁, l₂, hl⟩ := List.append_of_mem (List.mem_finRange i)
  have once : (l₁ ++ i :: l₂).Nodup := hl ▸ List.nodup_finRange 17
  rw [List.nodup_middle, List.nodup_cons, List.mem_append, not_or] at once
  obtain ⟨⟨out₁, out₂⟩, -⟩ := once
  rw [everyFe, hl, List.foldl_append, List.foldl_cons, others l₂ out₂, State.fe_modFe_same, others l₁ out₁]

/-- What each step of a fold keeps is kept. -/
theorem foldl_keeps {α σ : Type} {P : σ → Prop} {g : σ → α → σ} (keep : ∀ s a, P s → P (g s a)) (l : List α) {s : σ} (h : P s) :
    P (l.foldl g s) := by
  induction l generalizing s with
  | nil => exact h
  | cons a l ih => exact ih (keep s a h)

/-- Steps that do nothing to a state do nothing to it in turn. -/
theorem foldl_idle {α σ : Type} {g : σ → α → σ} {l : List α} {s : σ} (h : ∀ a ∈ l, g s a = s) : l.foldl g s = s := by
  induction l with
  | nil => rfl
  | cons a l ih =>
    obtain ⟨own, rest⟩ := List.forall_mem_cons.1 h
    rw [List.foldl_cons, own, ih rest]

/-- A fold of which one step alone does something: the others do nothing before it, nor behind it. -/
theorem foldl_once {α σ : Type} {g : σ → α → σ} {l : List α} {a : α} (mem : a ∈ l) (nodup : l.Nodup) {s u : σ}
    (before : ∀ b ∈ l, b ≠ a → g s b = s) (own : g s a = u) (behind : ∀ b ∈ l, b ≠ a → g u b = u) : l.foldl g s = u := by
  obtain ⟨l₁, l₂, rfl⟩ := List.append_of_mem mem
  rw [List.nodup_middle, List.nodup_cons, List.mem_append, not_or] at nodup
  obtain ⟨⟨out₁, out₂⟩, -⟩ := nodup
  rw [List.foldl_append, List.foldl_cons, foldl_idle fun b hb => before b (by simp [hb]) fun e => out₁ (e ▸ hb), own,
    foldl_idle fun b hb => behind b (by simp [hb]) fun e => out₂ (e ▸ hb)]

/-- Only the front ends change. -/
structure FesOnly (s t : State) : Prop where
  rest : t = { s with pos := t.pos }
  enc : t.pos.enc = s.pos.enc
  pairs : t.pos.pairs = s.pos.pairs

namespace FesOnly

variable {s t u : State}

theorem refl (s : State) : FesOnly s s := ⟨rfl, rfl, rfl⟩

theorem trans (h : FesOnly s t) (k : FesOnly t u) : FesOnly s u :=
  ⟨by rw [k.rest, h.rest], k.enc.trans h.enc, k.pairs.trans h.pairs⟩

theorem modFe (s : State) (i : Fin 17) (e : Fin 4) (f : EncFe → EncFe) : FesOnly s (s.modFe i e f) := ⟨rfl, rfl, rfl⟩

theorem everyFe (e : Fin 4) (f : EncFe → EncFe) (s : State) : FesOnly s (everyFe e f s) :=
  foldl_keeps (P := FesOnly s) (fun t i h => h.trans (modFe t i e f)) (List.finRange 17) (refl s)

theorem word (h : FesOnly s t) (a : Nat) : t.word a = s.word a := State.word_of_bar (congrArg State.bar h.rest) a
theorem get (h : FesOnly s t) (f : Fld) : t.get f = s.get f := State.get_of_word (h.word _)
theorem flag (h : FesOnly s t) (f : Fld) : t.flag f = s.flag f := State.flag_of_word (h.word _)
theorem encOf (h : FesOnly s t) (k : Fin 4) : t.encOf k = s.encOf k := by rw [State.encOf, h.enc, State.encOf]
theorem pairOf (h : FesOnly s t) (i : Fin 17) : t.pairOf i = s.pairOf i := by rw [State.pairOf, h.pairs, State.pairOf]
theorem tick (h : FesOnly s t) : t.tick = s.tick := by rw [h.rest]

theorem free (h : FesOnly s t) : t.free = s.free := by rw [h.rest]
theorem withPos (h : FesOnly s t) (p : Pos) : ({ t with pos := p } : State) = { s with pos := p } := by rw [h.rest]

end FesOnly

/-! ### Frames within the position block -/

/-- Only the position block, the free values and the registers listed change. -/
abbrev posAt (as : List Nat) (s t : State) : Prop := onlyAt as { s with pos := t.pos, free := t.free } t

namespace posAt

variable {as : List Nat} {s t u : State}

theorem refl (as : List Nat) (s : State) : posAt as s s := ⟨rfl, fun _ _ => rfl⟩

theorem trans (h : posAt as s t) (k : posAt as t u) : posAt as s u :=
  ⟨by rw [k.1, h.1], fun a ha => (k.2 a ha).trans (h.2 a ha)⟩

theorem mono {bs : List Nat} (h : posAt as s t) (sub : as ⊆ bs) : posAt bs s t := ⟨h.1, fun a ha => h.2 a fun m => ha (sub m)⟩

/-- Only the position block changes. -/
theorem of_pos (as : List Nat) (h : t = { s with pos := t.pos }) : posAt as s t :=
  ⟨by rw [h], fun a _ => State.word_of_bar (congrArg State.bar h) a⟩

theorem put (s : State) {f : Fld} (v : Nat) (mem : f.addr ∈ as) : posAt as s (s.put f v) :=
  ⟨rfl, fun _ ha => State.word_put_ne s v fun e => ha (e ▸ mem)⟩

theorem ite {c : Prop} [Decidable c] (h : posAt as s t) (k : posAt as s u) : posAt as s (if c then t else u) := by
  split
  · exact h
  · exact k

/-- Where no free value is taken, only the position block and the registers change. -/
theorem fixed (h : posAt as s t) (free : t.free = s.free) : onlyAt as { s with pos := t.pos } t := by
  have same : ({ s with pos := t.pos, free := t.free } : State) = { s with pos := t.pos } := by rw [free]
  exact same ▸ h

theorem word (h : posAt as s t) {a : Nat} (out : a ∉ as) : t.word a = s.word a := h.2 a out
theorem get (h : posAt as s t) {f : Fld} (out : f.addr ∉ as) : t.get f = s.get f := State.get_of_word (h.2 _ out)
theorem flag (h : posAt as s t) {f : Fld} (out : f.addr ∉ as) : t.flag f = s.flag f := State.flag_of_word (h.2 _ out)

theorem pairEn (h : posAt as s t) (out : A.POS_PAIR_CTRL ∉ as) : t.pairEn = s.pairEn := State.pairEn_of_word (h.word out)

end posAt

/-! ### A stale fault count (R117) -/

/-- Encoder 0 counts in mode ×4 with FLIM = 1; its fault window has ended with one fault in it, and its FAULT is clear. No premise of the
statement excludes such a state. -/
def staleFault : State :=
  let s := [(domFld 0, 2), (domFld 4, 2), (F.POS_ENCe_CFG_EN 0, 1), (F.POS_ENCe_CFG_MODE 0, 2), (F.POS_ENCe_FLT_FLIM 0, 1)].foldl
    (fun (s : State) (x : Fld × Nat) => s.put x.1 x.2) State.reset
  { s.modFe fePos 0 fun f => { f with fc := 1 } with tick := 10000000 }

/-- Whether FAULT of encoder e stands in what a command answers. -/
def showsFault (e : Fin 4) (o : Host.Outcome State Fault Refusal) : Bool :=
  match o with
  | .next t => t.flag (F.POS_ENCe_STAT_FAULT e)
  | _ => false

theorem staleFault_meets : staleFault.bareEnc 0 (fun _ => false) = true ∧ staleFault.get (F.POS_ENCe_CFG_FILT 0) = 0 ∧
    (staleFault.fe fePos 0).settled = true ∧
    quadIdx true true = (quadIdx (staleFault.fe fePos 0).a.acc (staleFault.fe fePos 0).b.acc + 2) % 4 ∧
    0 + 1 = staleFault.get (F.POS_ENCe_FLT_FLIM 0) ∧ staleFault.encFaulty 0 = false ∧ staleFault.domOn 0 = true ∧
    (staleFault.encOf 0).winTick + (staleFault.get (F.POS_ENCe_FLT_FWIN 0) + 1) * usTicks ≤ staleFault.tick := by
  decide +kernel

/-- A double step is the first fault of the new window, and FLIM is 1, but FAULT does not come. -/
theorem staleFault_not_declared :
    showsFault 0 (exec (.encoderTransition 0 true true (staleFault.fe fePos 0).z.acc (1#17 <<< 16)) staleFault) = false := by
  decide +kernel

/-- Refutes O18: the statement ranges over every state, and in `staleFault` the fault count of the window that has ended stands at FLIM
while FAULT is clear. A double step then reaches FLIM in the new window, but the model asks that the count was below FLIM before the
sample, when the old window's count still stood, and declares nothing. -/
theorem not_encodersCountAndFindFaults : ¬ Obligations.EncodersCountAndFindFaults := by
  unfold Obligations.EncodersCountAndFindFaults
  intro h
  obtain ⟨bare, filt, settled, double, limit, clear, host, ended⟩ := staleFault_meets
  obtain ⟨-, faults⟩ := h staleFault 0 true true bare filt settled
  obtain ⟨-, declared⟩ := faults 0 (if_pos ended).symm double
  obtain ⟨t, answer, fault, -⟩ := declared limit (by rw [clear]; rfl) host
  have silent := staleFault_not_declared
  rw [answer] at silent
  exact Bool.noConfusion (silent.symm.trans fault)

end Sys2Proof.Machine

namespace Sys2Proof.Machine

/-! ### Fault windows and speed windows (R117, R123) -/

/-- The end of a fault window shows in the encoder's status alone. -/
theorem faultWindow_at (e : Fin 4) (s : State) : posAt [A.POS_ENCe_STAT e] s (faultWindow e s) := by
  have cleared (u : State) : posAt [A.POS_ENCe_STAT e] u (everyFe e (fun f => { f with fc := 0 }) u) := .of_pos _ (FesOnly.everyFe e _ u).rest
  exact .ite (.trans (.of_pos (t := s.modEnc e _) _ rfl) (.trans (cleared _) (.put _ 0 (.head _)))) (.refl _ s)

theorem faultWindow_free (e : Fin 4) (s : State) : (faultWindow e s).free = s.free := by
  unfold faultWindow
  dsimp only
  split
  · rw [State.put_free, (FesOnly.everyFe e _ _).free]
    rfl
  · rfl

/-- A fault window whose end has come clears the fault counts of all front ends. -/
theorem faultWindow_ends {s : State} {e : Fin 4}
    (ended : (s.encOf e).winTick + (s.get (F.POS_ENCe_FLT_FWIN e) + 1) * usTicks ≤ s.tick) :
    (faultWindow e s).get (F.POS_ENCe_STAT_FCOUNT e) = 0 ∧ (∀ i, (faultWindow e s).fe i e = { s.fe i e with fc := 0 }) ∧
      onlyAt [A.POS_ENCe_STAT e] { s with pos := (faultWindow e s).pos } (faultWindow e s) := by
  refine ⟨?_, fun i => ?_, (faultWindow_at e s).fixed (faultWindow_free e s)⟩
  · rw [faultWindow, if_pos ended]
    exact State.get_put_same _ _ (by simp [F.POS_ENCe_STAT_FCOUNT])
  · rw [faultWindow, if_pos ended, State.fe_put, everyFe_fe, State.fe_modEnc]

/-- A speed window takes a free value where it had no count; it touches nothing but POS_ENCe_SPD and what POS keeps of the window. -/
theorem speedWindow_only (e : Fin 4) (s : State) : posAt [A.POS_ENCe_SPD e] s (speedWindow e s) := by
  have taken : posAt [A.POS_ENCe_SPD e] s (if (s.encOf e).edges = 0 then s.takeFree else s) := .ite ⟨rfl, fun _ _ => rfl⟩ (.refl _ s)
  exact .ite (.trans taken (.trans (.put _ _ (.head _)) (.trans (.put _ _ (.head _)) (.of_pos _ rfl)))) (.refl _ s)

/-- The count that POS works with is one and the same: its front ends and the trackers it has substituted. -/
structure CountsKept (s t : State) : Prop where
  fes : t.pos.fes = s.pos.fes
  sub : ∀ k, (t.encOf k).sub = (s.encOf k).sub

namespace CountsKept

variable {s t u : State}

theorem refl (s : State) : CountsKept s s := ⟨rfl, fun _ => rfl⟩
theorem trans (h : CountsKept s t) (k : CountsKept t u) : CountsKept s u := ⟨k.fes.trans h.fes, fun e => (k.sub e).trans (h.sub e)⟩
theorem of_pos (h : t.pos = s.pos) : CountsKept s t := ⟨by rw [h], fun _ => by rw [State.encOf, h, State.encOf]⟩

theorem put (s : State) (f : Fld) (v : Nat) : CountsKept s (s.put f v) := of_pos rfl

theorem modEnc (s : State) (e : Fin 4) {f : EncPos → EncPos} (h : (f (s.encOf e)).sub = (s.encOf e).sub) : CountsKept s (s.modEnc e f) :=
  ⟨rfl, fun k => s.sub_modEnc e k h⟩

theorem ite {c : Prop} [Decidable c] (h : CountsKept s t) (k : CountsKept s u) : CountsKept s (if c then t else u) := by
  split
  · exact h
  · exact k

theorem fe (h : CountsKept s t) (i : Fin 17) (k : Fin 4) : t.fe i k = s.fe i k := by rw [State.fe, h.fes, State.fe]

theorem posCnt (h : CountsKept s t) (k : Fin 4) : t.posCnt k = s.posCnt k := by
  simp only [State.posCnt, State.posFe, h.sub, h.fe]

end CountsKept

theorem speedWindow_counts (e : Fin 4) (s : State) : CountsKept s (speedWindow e s) :=
  have taken : CountsKept s (if (s.encOf e).edges = 0 then s.takeFree else s) := .ite (.of_pos rfl) (.refl s)
  .ite (.trans taken (.trans (.put _ _ _) (.trans (.put _ _ _) (.modEnc _ e rfl)))) (.refl s)

/-- A speed window with counts shows them as its end has come. -/
theorem speedWindow_ends {s : State} {e : Fin 4}
    (ended : (s.encOf e).spdTick + (s.get (F.POS_ENCe_SPDCFG_SWIN e) + 1) * usTicks ≤ s.tick) (some : (s.encOf e).edges ≠ 0) :
    (speedWindow e s).get (F.POS_ENCe_SPD_EDGES e) = min (s.encOf e).edges 0xFFFFFF ∧
      (speedWindow e s).flag (F.POS_ENCe_SPD_DIR e) = (s.encOf e).spdDir ∧ ((speedWindow e s).encOf e).edges = 0 ∧
      onlyAt [A.POS_ENCe_SPD e] { s with pos := (speedWindow e s).pos } (speedWindow e s) := by
  have only := speedWindow_only e s
  simp only [speedWindow, if_pos ended, if_neg some] at only ⊢
  refine ⟨?_, ?_, by rw [State.encOf_modEnc_same], only.fixed rfl⟩
  · rw [State.get_modEnc, State.get_put_other _ _ (.inr (by simp [F.POS_ENCe_SPD_EDGES, F.POS_ENCe_SPD_DIR])),
      State.get_put_same _ _ (by simp [F.POS_ENCe_SPD_EDGES])]
    exact Nat.mod_eq_of_lt (show _ < 2 ^ 24 by omega)
  · rw [State.flag_modEnc, State.flag, State.get_put_same _ _ (by simp [F.POS_ENCe_SPD_DIR])]
    cases (s.encOf e).spdDir <;> rfl

/-! ### Counts of POS (R123, R132, R136) -/

/-- A count of encoder e shows in POS_ENCe_PERIOD and, where the speed window's end has come, in POS_ENCe_SPD. -/
theorem posTally_only (e : Fin 4) (s0 s : State) : posAt [A.POS_ENCe_PERIOD e, A.POS_ENCe_SPD e] s (posTally e s0 s) := by
  have tallied : posAt [A.POS_ENCe_PERIOD e, A.POS_ENCe_SPD e] s ((speedWindow e s).modEnc e fun x =>
      { x with edges := x.edges + 1, spdDir := decide (cntDiff (s.posCnt e) (s0.posCnt e) < 0) }) :=
    .trans (.mono (speedWindow_only e s) (by simp)) (.of_pos _ rfl)
  exact .ite (.refl _ s) (.ite tallied (.trans tallied (.put _ _ (.head _))))

theorem posTally_counts (e : Fin 4) (s0 s : State) : CountsKept s (posTally e s0 s) := by
  have tallied : CountsKept s ((speedWindow e s).modEnc e fun x =>
      { x with edges := x.edges + 1, spdDir := decide (cntDiff (s.posCnt e) (s0.posCnt e) < 0) }) :=
    .trans (speedWindow_counts e s) (.modEnc _ e rfl)
  exact .ite (.refl s) (.ite tallied (.trans tallied (.put _ _ _)))

theorem cntDiff_self (c : BitVec 48) : cntDiff c c = 0 := by simp [cntDiff]

/-- Without a count there is nothing to tally. -/
theorem posTally_still {e : Fin 4} {s0 s : State} (same : s.posCnt e = s0.posCnt e) : posTally e s0 s = s := by
  simp [posTally, same, cntDiff_self]

/-- A position that stays crosses nothing. -/
theorem crosses_self (p c : BitVec 48) (dir : Nat) : crosses p p c dir = none := by
  simp [crosses, cntDiff_self]

/-- What one fret does as the counts go from those of s0 to those of s (R132). -/
def fretTurn (moves : Nat → Bool) (s0 s s1 : State) (f : Nat) : State :=
  let src := s1.get (F.POS_FRETf_CTRL_SRC f)
  if s1.flag (F.POS_FRETf_CTRL_ARM f) ∧ src < 5 ∧ (src = 4 → s.pairEn) ∧ moves src ∧ ¬ s1.srcFaulty src then
    match crosses (s0.srcCnt src) (s.srcCnt src) (s1.fretCmp f) (s1.get (F.POS_FRETf_CTRL_DIR f)) with
    | some fwd => fretMatch f fwd s1
    | none => s1
  else s1

theorem fretsFollow_eq (moves : Nat → Bool) (s0 s : State) :
    fretsFollow moves s0 s = (List.range 64).foldl (fretTurn moves s0 s) s := rfl

/-- A fret that is not armed, or whose source has not moved, does nothing. -/
theorem fretTurn_still {moves : Nat → Bool} {s0 s s1 : State} {f : Nat}
    (same : s1.flag (F.POS_FRETf_CTRL_ARM f) = true → s1.get (F.POS_FRETf_CTRL_SRC f) < 5 →
      (s1.get (F.POS_FRETf_CTRL_SRC f) = 4 → s.pairEn = true) →
      s.srcCnt (s1.get (F.POS_FRETf_CTRL_SRC f)) = s0.srcCnt (s1.get (F.POS_FRETf_CTRL_SRC f))) :
    fretTurn moves s0 s s1 f = s1 := by
  unfold fretTurn
  dsimp only
  split
  · next armed =>
    obtain ⟨arm, known, pair, -⟩ := armed
    rw [same arm known pair, crosses_self]
  · rfl

theorem encOfSrc_lt {v : Nat} (h : v < 4) : encOfSrc v = some ⟨v, h⟩ := dif_pos h
theorem encOfSrc_ge {v : Nat} (h : 4 ≤ v) : encOfSrc v = none := dif_neg (by omega)

/-- The position of a source stays where the counts stay, and for the pair where its position does. -/
theorem srcCnt_congr {s0 s : State} {src : Nat} (cnt : ∀ k : Fin 4, k.val = src → s.posCnt k = s0.posCnt k)
    (pair : 4 ≤ src → s.posPairCnt = s0.posPairCnt) : s.srcCnt src = s0.srcCnt src := by
  unfold State.srcCnt
  by_cases h : src < 4
  · rw [encOfSrc_lt h]
    exact cnt ⟨src, h⟩ rfl
  · rw [encOfSrc_ge (by omega)]
    exact pair (by omega)

/-- Frets do nothing where no count moves, nor the position of an enabled pair. -/
theorem fretsFollow_still {moves : Nat → Bool} {s0 s : State} (cnt : ∀ k, s.posCnt k = s0.posCnt k)
    (pair : s.pairEn = true → s.posPairCnt = s0.posPairCnt) : fretsFollow moves s0 s = s := by
  rw [fretsFollow_eq]
  refine foldl_idle fun f _ => fretTurn_still fun _ known enabled => srcCnt_congr (fun k _ => cnt k) fun four => pair (enabled ?_)
  omega

/-- A source that has not moved gives emulation no counts; nor does the pair where it is off (log 158). -/
theorem srcMove_still {s0 s : State} {src : Nat} (cnt : ∀ k : Fin 4, k.val = src → s.posCnt k = s0.posCnt k)
    (off : s.pairEn = false) : s0.srcMove s src = 0 := by
  unfold State.srcMove
  by_cases h : src < 4
  · rw [encOfSrc_lt h]
    simp only [cnt ⟨src, h⟩ rfl, cntDiff_self]
  · rw [encOfSrc_ge (by omega)]
    simp [off]

/-- Emulation outputs do nothing where no source of an enabled one gives counts. -/
theorem emuFollow_still {s0 s1 s : State}
    (still : ∀ m : Fin 4, s.flag (F.POS_EMUm_CFG_EN m) = true → s0.srcMove s1 (s.get (F.POS_EMUm_CFG_SRC m)) = 0) :
    emuFollow s0 s1 s = s := by
  unfold emuFollow
  exact foldl_idle fun m _ => if_neg fun moved => moved.2 (still m moved.1)

end Sys2Proof.Machine

namespace Sys2Proof.Machine

/-! ### Words of two registers (R119, R134) -/

/-- A 48-bit number in two words is that of their fields, whatever the reserved bits of the high one hold. -/
theorem State.pair48 (s : State) (lo hi : Nat) :
    BitVec.ofNat 48 (s.pair lo hi) = BitVec.ofNat 48 (getBits (s.word lo) 0 32 + 2 ^ 32 * getBits (s.word hi) 0 16) := by
  have low := (s.word lo).isLt
  apply BitVec.eq_of_toNat_eq
  simp only [State.pair, getBits_eq, BitVec.toNat_ofNat, pow_zero, Nat.div_one]
  omega

theorem setIdxCap_only (e : Fin 4) (c : BitVec 48) (s : State) : posAt [A.POS_ENCe_IDXCAP_LO e, A.POS_ENCe_IDXCAP_HI e] s (setIdxCap e c s) :=
  .trans (.put _ _ (.head _)) (.trans (.put _ _ (.tail _ (.head _))) (.put _ _ (.tail _ (.head _))))

theorem setIdxCap_counts (e : Fin 4) (c : BitVec 48) (s : State) : CountsKept s (setIdxCap e c s) :=
  .trans (.put _ _ _) (.trans (.put _ _ _) (.put _ _ _))

theorem setIdxCap_valid (e : Fin 4) (c : BitVec 48) (s : State) : (setIdxCap e c s).flag (F.POS_ENCe_IDXCAP_HI_VALID e) = true :=
  State.flag_put_one _ (by simp [F.POS_ENCe_IDXCAP_HI_VALID]) (by simp [F.POS_ENCe_IDXCAP_HI_VALID])

/-- A capture reads back. -/
theorem setIdxCap_idxCap (e : Fin 4) (c : BitVec 48) (s : State) : (setIdxCap e c s).idxCap e = c := by
  have apart : A.POS_ENCe_IDXCAP_LO e ≠ A.POS_ENCe_IDXCAP_HI e := by simp only [A.POS_ENCe_IDXCAP_LO, A.POS_ENCe_IDXCAP_HI]; omega
  have low : (setIdxCap e c s).get (F.POS_ENCe_IDXCAP_LO_CAP_L e) = c.toNat % 2 ^ 32 := by
    rw [setIdxCap, State.get_put_ne _ _ (by exact apart), State.get_put_ne _ _ (by exact apart),
      State.get_put_same _ _ (by simp [F.POS_ENCe_IDXCAP_LO_CAP_L])]
    rfl
  have high : (setIdxCap e c s).get (F.POS_ENCe_IDXCAP_HI_CAP_H e) = c.toNat / 2 ^ 32 % 2 ^ 16 := by
    rw [setIdxCap, State.get_put_other _ _ (.inr (by simp [F.POS_ENCe_IDXCAP_HI_VALID, F.POS_ENCe_IDXCAP_HI_CAP_H])),
      State.get_put_same _ _ (by simp [F.POS_ENCe_IDXCAP_HI_CAP_H])]
    rfl
  have range := c.isLt
  rw [State.idxCap, State.pair48]
  show BitVec.ofNat 48 ((setIdxCap e c s).get (F.POS_ENCe_IDXCAP_LO_CAP_L e) +
    2 ^ 32 * (setIdxCap e c s).get (F.POS_ENCe_IDXCAP_HI_CAP_H e)) = c
  rw [low, high]
  apply BitVec.eq_of_toNat_eq
  rw [BitVec.toNat_ofNat]
  omega

/-! ### A sample of a plain encoder (R110 to R113) -/

/-- POS counts encoder e itself, the pair is off, and no emulation output counts it or waits for it. -/
structure Plain (s : State) (e : Fin 4) : Prop where
  on : s.feOn fePos e = true
  sub : (s.encOf e).sub = none
  off : s.pairEn = false
  emu : ∀ m : Fin 4, s.flag (F.POS_EMUm_CFG_EN m) = true → s.get (F.POS_EMUm_CFG_SRC m) ≠ e.val
  due : ∀ m : Fin 4, ∀ x ∈ allTx, s.dueEntries x (isEmu m) = []

theorem Plain.of_plainEnc {s : State} {e : Fin 4} (h : s.plainEnc e = true) : Plain s e := by
  simp only [State.plainEnc, State.singleEnc, Bool.and_eq_true, Bool.not_eq_true', List.all_eq_true, List.mem_finRange,
    forall_const, Option.isNone_iff_eq_none, Bool.and_eq_false_imp, beq_eq_false_iff_ne, List.isEmpty_iff] at h
  obtain ⟨⟨⟨on, sub⟩, off⟩, outputs⟩ := h
  exact ⟨on, sub, off, fun m => (outputs m).1, fun m => (outputs m).2⟩

/-- With no emulation setting waiting, a sample is the front ends' counting and what POS derives from it. -/
theorem withEmu_plain {s : State} {e : Fin 4} (plain : Plain s e) (f : State → State) : withEmu e f s = posFollow e s (f s) := by
  have none (u : State) : ((List.finRange 4).filter fun m =>
      (allTx.any fun x => !(s.dueEntries x (isEmu m)).isEmpty) && s.srcMove u (s.emuNextSrc m) != 0) = [] := by
    rw [List.filter_eq_nil_iff]
    intro m _ waits
    obtain ⟨some, -⟩ := Bool.and_eq_true_iff.1 waits
    obtain ⟨x, mem, entries⟩ := List.any_eq_true.1 some
    simp [plain.due m x mem] at entries
  unfold withEmu
  dsimp only
  rw [none]
  rfl

/-- A sample of encoder e has led from s to u: only its front ends changed. -/
structure SampleOf (e : Fin 4) (s u : State) : Prop extends FesOnly s u where
  other : ∀ i k, k ≠ e → u.fe i k = s.fe i k

namespace SampleOf

variable {e : Fin 4} {s u : State}

theorem refl (e : Fin 4) (s : State) : SampleOf e s s := ⟨.refl s, fun _ _ _ => rfl⟩

theorem modFe (h : SampleOf e s u) (i : Fin 17) (f : EncFe → EncFe) : SampleOf e s (u.modFe i e f) :=
  ⟨h.toFesOnly.trans (.modFe u i e f), fun j k hk => (State.fe_modFe_ne u f (.inr hk)).trans (h.other j k hk)⟩

theorem pairEn (h : SampleOf e s u) : u.pairEn = s.pairEn := h.flag _

theorem posCnt_ne (h : SampleOf e s u) {k : Fin 4} (hk : k ≠ e) : u.posCnt k = s.posCnt k := by
  simp only [State.posCnt, State.posFe, h.encOf, h.other _ k hk]

/-- POS's count of its own is that of its front end. -/
theorem posCnt (h : SampleOf e s u) (sub : (s.encOf e).sub = none) : u.posCnt e = (u.fe fePos e).cnt := by
  simp only [State.posCnt, State.posFe, h.encOf, sub]

end SampleOf

theorem posCnt_own {s : State} {e : Fin 4} (sub : (s.encOf e).sub = none) : s.posCnt e = (s.fe fePos e).cnt :=
  (SampleOf.refl e s).posCnt sub

/-- The pair is not followed where it is off. -/
theorem pairSample_off {i : Fin 17} {e : Fin 4} {s0 s : State} (off : s.pairEn = false) : pairSample i e s0 s = s := by
  simp [pairSample, pairFollow, State.hasPair, off]

/-- Recording faults leaves the pair's settings. -/
theorem feFaults_pairEn (e : Fin 4) (ill rej : Nat) (s : State) : (feFaults fePos e ill rej s).pairEn = s.pairEn := by
  have window : posAt [A.POS_ENCe_STAT e, A.POS_ENCe_FCNT e] s (faultWindow e s) := (faultWindow_at e s).mono (by simp)
  have noted (u : State) (x y : Fld) (k : Nat) (hx : x.addr = A.POS_ENCe_STAT e) (hy : y.addr = A.POS_ENCe_FCNT e) :
      posAt [A.POS_ENCe_STAT e, A.POS_ENCe_FCNT e] u (if k = 0 then u else (u.put x 1).bump y k) :=
    .ite (.refl _ u) (.trans (.put _ _ (hx ▸ .head _)) (.put _ _ (hy ▸ .tail _ (.head _))))
  have all : posAt [A.POS_ENCe_STAT e, A.POS_ENCe_FCNT e] s (feFaults fePos e ill rej s) :=
    .ite (.refl _ s) (.ite (.trans window (.of_pos _ rfl)) (.trans (.trans (.trans (.trans window
      (.of_pos (t := (faultWindow e s).modFe fePos e _) _ rfl)) (noted _ _ _ ill rfl rfl)) (noted _ _ _ rej rfl rfl)) (.put _ _ (.head _))))
  exact all.pairEn (by simp [A.POS_ENCe_STAT, A.POS_ENCe_FCNT, A.POS_PAIR_CTRL]; omega)

/-- POS's front end takes levels: it counts, and its faults are recorded and may declare the encoder faulty (R113, R114, R117). -/
theorem feTake_pos {s : State} {e : Fin 4} {a b z : EncSig} {rej : Nat} {c : Int} {ill : Bool} (plain : Plain s e)
    (count : countOf (s.get (F.POS_ENCe_CFG_MODE e)) (s.fe fePos e).a.acc (s.fe fePos e).b.acc a.acc b.acc = (c, ill)) :
    ∃ g : EncFe, feTake fePos e a b z rej s = feDeclare fePos e s (feFaults fePos e (b2n ill) rej (s.modFe fePos e fun _ => g)) ∧
      g.a = a ∧ g.b = b ∧ g.z = z ∧ g.fc = (s.fe fePos e).fc ∧
      g.cnt = (s.fe fePos e).cnt + BitVec.ofInt 48 (if s.flag (F.POS_ENCe_CFG_DIRINV e) then -c else c) := by
  have far : ¬ (fePos : Fin 17).val < 16 := by decide
  have alone (f : EncFe → EncFe) : pairSample fePos e s (feFaults fePos e (b2n ill) rej (s.modFe fePos e f)) =
      feFaults fePos e (b2n ill) rej (s.modFe fePos e f) :=
    pairSample_off ((feFaults_pairEn e _ _ _).trans plain.off)
  simp only [feTake, plain.on, count, Bool.not_true, Bool.false_eq_true, if_false, far, dite_false, alone]
  exact ⟨_, rfl, rfl, rfl, rfl, rfl, rfl⟩

/-- Without a new fault nothing is declared. -/
theorem feDeclare_same {i : Fin 17} {e : Fin 4} {s0 s : State} (same : (s.fe i e).fc = (s0.fe i e).fc) : feDeclare i e s0 s = s :=
  if_neg fun h => absurd h.2.1 (Nat.not_le.2 (same ▸ h.2.2))

/-- Without a fault it only counts. -/
theorem feTake_clean {s : State} {e : Fin 4} {a b z : EncSig} {c : Int} (plain : Plain s e)
    (count : countOf (s.get (F.POS_ENCe_CFG_MODE e)) (s.fe fePos e).a.acc (s.fe fePos e).b.acc a.acc b.acc = (c, false)) :
    ∃ g : EncFe, feTake fePos e a b z 0 s = s.modFe fePos e (fun _ => g) ∧ g.a = a ∧ g.b = b ∧ g.z = z ∧
      g.cnt = (s.fe fePos e).cnt + BitVec.ofInt 48 (if s.flag (F.POS_ENCe_CFG_DIRINV e) then -c else c) := by
  obtain ⟨g, taken, ga, gb, gz, fc, cnt⟩ := feTake_pos (z := z) (rej := 0) plain count
  refine ⟨g, taken.trans ?_, ga, gb, gz, cnt⟩
  rw [show feFaults fePos e (b2n false) 0 (s.modFe fePos e fun _ => g) = s.modFe fePos e fun _ => g from rfl]
  exact feDeclare_same (by rw [State.fe_modFe_same, fc])

/-- Without a filter, a settled line takes the level it is sampled at, and no change is discarded (R111). -/
theorem sigSample_unfiltered {now : Nat} {r : Bool} {g : EncSig} (settled : g.raw = g.acc) :
    sigSample 0 now r g = (if r = g.acc then g else ⟨r, r, now⟩, false) := by
  obtain ⟨raw, acc, tick⟩ := g
  obtain rfl : raw = acc := settled
  by_cases h : r = raw <;> simp [sigSample, h]

theorem settled_lines {f : EncFe} (h : f.settled = true) : f.a.raw = f.a.acc ∧ f.b.raw = f.b.acc ∧ f.z.raw = f.z.acc := by
  simpa [EncFe.settled, and_assoc] using h

/-- A sample of POS's front end alone. -/
theorem onFrontEnds_pos (f : Fin 17 → State → State) (s : State) : onFrontEnds (1#17 <<< 16) f s = f fePos s := by
  have none : ∀ n : Fin 16, (1#17 <<< 16).getLsbD n.val = false := by decide
  have own : (1#17 <<< 16).getLsbD 16 = true := by decide
  simp only [onFrontEnds, own, if_true]
  exact State.eachCh_idle fun n => by rw [none, if_neg Bool.false_ne_true]

/-! ### What POS derives from a plain encoder's sample (R123, R132, R136) -/

/-- A fret that is not armed on encoder e does nothing at a sample of e with the pair off. -/
theorem fretTurn_apart {moves : Nat → Bool} {e : Fin 4} {s v w : State} {f : Nat} (cnt : ∀ k, k ≠ e → v.posCnt k = s.posCnt k)
    (off : v.pairEn = false) (apart : w.flag (F.POS_FRETf_CTRL_ARM f) = true → w.get (F.POS_FRETf_CTRL_SRC f) ≠ e.val) :
    fretTurn moves s v w f = w := by
  refine fretTurn_still fun arm known pair => srcCnt_congr (fun k hk => cnt k ?_) fun four => ?_
  · rintro rfl
    exact apart arm hk.symm
  · have on := pair (by omega)
    rw [off] at on
    cases on

/-- With no output counting encoder e, emulation does nothing at its sample. -/
theorem emuFollow_plain {e : Fin 4} {s u w : State} (plain : Plain s e) (sample : SampleOf e s u)
    (cfg : ∀ m : Fin 4, w.word (A.POS_EMUm_CFG m) = s.word (A.POS_EMUm_CFG m)) : emuFollow s u w = w := by
  refine emuFollow_still fun m en => srcMove_still (fun k hk => sample.posCnt_ne ?_) (sample.pairEn.trans plain.off)
  rintro rfl
  rw [State.flag_of_word (f := F.POS_EMUm_CFG_EN m) (cfg m)] at en
  rw [State.get_of_word (f := F.POS_EMUm_CFG_SRC m) (cfg m)] at hk
  exact plain.emu m en hk.symm

/-- A sample that is no index event, with no index check, shows in the speed, the frets and the emulation outputs. -/
theorem posFollow_counts {e : Fin 4} {s u : State} (plain : Plain s e) (sample : SampleOf e s u) (index : s.indexIn u e = false)
    (nom : s.get (F.POS_ENCe_IDXNOM_NOM e) = 0) :
    posFollow e s u = emuFollow s u (fretsFollow (fun _ => true) s (posTally e s u)) := by
  have sub : subFollow e s u = u := by simp [subFollow, sample.encOf, plain.sub]
  have nom' : (posTally e s u).get (F.POS_ENCe_IDXNOM_NOM e) = 0 := by
    rw [(posTally_only e s u).get (by simp [F.POS_ENCe_IDXNOM_NOM, A.POS_ENCe_IDXNOM, A.POS_ENCe_PERIOD, A.POS_ENCe_SPD]),
      sample.get, nom]
  have missing : missingIndex e (posTally e s u) = posTally e s u :=
    if_neg fun h => h.1 (by rw [nom']; rfl)
  simp only [posFollow, sub, index, missing, Bool.false_eq_true, if_false, ite_self]

/-- The registers of emulation and of the frets lie beside those that a count shows in. -/
theorem posTally_word (e : Fin 4) (s u : State) {a : Nat} (far : 0x40200 ≤ a) : (posTally e s u).word a = u.word a := by
  refine (posTally_only e s u).word ?_
  simp only [A.POS_ENCe_PERIOD, A.POS_ENCe_SPD, List.mem_cons, List.not_mem_nil, or_false]
  omega

end Sys2Proof.Machine

namespace Sys2Proof.Machine

/-! ### Counts of a bare encoder (R110, R111, R113) -/

/-- A plain encoder in mode ×4 with no index check, on which no fret is armed but those that p names. -/
structure Bare (s : State) (e : Fin 4) (p : Nat → Bool) : Prop extends Plain s e where
  nom : s.get (F.POS_ENCe_IDXNOM_NOM e) = 0
  frets : ∀ f, f < 64 → p f = false → s.flag (F.POS_FRETf_CTRL_ARM f) = true → s.get (F.POS_FRETf_CTRL_SRC f) ≠ e.val
  mode : s.get (F.POS_ENCe_CFG_MODE e) = 2
  gate : s.flag (F.POS_ENCe_CFG_IDXGATE e) = false

theorem Bare.of_bareEnc {s : State} {e : Fin 4} {p : Nat → Bool} (h : s.bareEnc e p = true) : Bare s e p := by
  simp only [State.bareEnc, Bool.and_eq_true, beq_iff_eq, Bool.not_eq_true', State.noFret, List.all_eq_true, List.mem_range,
    Bool.or_eq_true, bne_iff_ne] at h
  obtain ⟨⟨⟨⟨plain, nom⟩, frets⟩, mode⟩, gate⟩ := h
  refine ⟨.of_plainEnc plain, nom, fun f lt out arm => ?_, mode, gate⟩
  simpa [out, arm] using frets f lt

/-- POS's front end has taken levels with Z as before: what POS derives is the speed, the frets and the emulation outputs. -/
theorem posFollow_bare {s : State} {e : Fin 4} {p : Nat → Bool} {g : EncFe} (bare : Bare s e p) (z : g.z.acc = (s.fe fePos e).z.acc) :
    posFollow e s (s.modFe fePos e fun _ => g) =
      emuFollow s (s.modFe fePos e fun _ => g)
        (fretsFollow (fun _ => true) s (posTally e s (s.modFe fePos e fun _ => g))) := by
  refine posFollow_counts bare.toPlain ((SampleOf.refl e s).modFe fePos _) ?_ bare.nom
  simp [State.indexIn, bare.gate, z]

/-- With no fret armed on the encoder, its count shows in the speed alone. -/
theorem posFollow_unfretted {s : State} {e : Fin 4} {g : EncFe} (bare : Bare s e (fun _ => false)) (z : g.z.acc = (s.fe fePos e).z.acc) :
    posFollow e s (s.modFe fePos e fun _ => g) = posTally e s (s.modFe fePos e fun _ => g) := by
  have sample : SampleOf e s (s.modFe fePos e fun _ => g) := (SampleOf.refl e s).modFe fePos _
  have word {a : Nat} (far : 0x40200 ≤ a) : (posTally e s (s.modFe fePos e fun _ => g)).word a = s.word a :=
    (posTally_word e s _ far).trans (sample.word a)
  have ctrl (f : Nat) : 0x40200 ≤ A.POS_FRETf_CTRL f := by simp only [A.POS_FRETf_CTRL]; omega
  have counts := posTally_counts e s (s.modFe fePos e fun _ => g)
  have still : fretsFollow (fun _ => true) s (posTally e s (s.modFe fePos e fun _ => g)) = posTally e s (s.modFe fePos e fun _ => g) := by
    rw [fretsFollow_eq]
    refine foldl_idle fun f lt => fretTurn_apart (e := e) (fun k hk => (counts.posCnt k).trans (sample.posCnt_ne hk)) ?_ fun arm => ?_
    · exact (State.pairEn_of_word (word (by decide))).trans bare.off
    · rw [State.flag_of_word (f := F.POS_FRETf_CTRL_ARM f) (word (ctrl f))] at arm
      rw [State.get_of_word (f := F.POS_FRETf_CTRL_SRC f) (word (ctrl f))]
      exact bare.frets f (List.mem_range.1 lt) rfl arm
  rw [posFollow_bare bare z, still]
  exact emuFollow_plain bare.toPlain sample fun m => word (by simp only [A.POS_EMUm_CFG]; omega)

/-- A change of A by itself is one step, forward where B has the level that A had (R113). -/
theorem countOf_riseA (b : Bool) : countOf 2 false b true b = (if b then -1 else 1, false) := by cases b <;> rfl

theorem step_dirinv (b inv : Bool) :
    BitVec.ofInt 48 (if inv then -(if b then -1 else 1) else if b then -1 else 1) = if b = inv then 1 else -1 := by
  cases b <;> cases inv <;> rfl

/-- A pending rise of A that has stood for FILT is accepted in POS, and counts (R111, R113). -/
theorem filterAccept_counts {s : State} {e : Fin 4} (bare : Bare s e (fun _ => false)) (acc : (s.fe fePos e).a.acc = false)
    (raw : (s.fe fePos e).a.raw = true) (stood : (s.fe fePos e).a.tick + 2 * s.get (F.POS_ENCe_CFG_FILT e) ≤ s.tick) :
    does (.filterAccept e .a .pos) s fun t => (t.fe fePos e).a.acc ∧ (t.fe fePos e).a.tick = s.tick ∧
      (t.fe fePos e).cnt = (s.fe fePos e).cnt + (if (s.fe fePos e).b.acc = s.flag (F.POS_ENCe_CFG_DIRINV e) then 1 else -1) ∧
      onlyAt [A.POS_ENCe_PERIOD e, A.POS_ENCe_SPD e] { s with pos := t.pos, free := t.free } t := by
  have accepted : sigAccept (s.get (F.POS_ENCe_CFG_FILT e)) s.tick (s.fe fePos e).a = ⟨true, true, s.tick⟩ := by
    simp [sigAccept, acc, raw, stood]
  have count : countOf (s.get (F.POS_ENCe_CFG_MODE e)) (s.fe fePos e).a.acc (s.fe fePos e).b.acc true (s.fe fePos e).b.acc =
      (if (s.fe fePos e).b.acc then -1 else 1, false) := by rw [bare.mode, acc, countOf_riseA]
  obtain ⟨g, taken, ga, -, gz, gc⟩ :=
    feTake_clean (a := ⟨true, true, s.tick⟩) (b := (s.fe fePos e).b) (z := (s.fe fePos e).z) bare.toPlain count
  have change : (⟨true, true, s.tick⟩ : EncSig) ≠ (s.fe fePos e).a := fun h => by simp [← h] at acc
  have answer : exec (.filterAccept e .a .pos) s = .next (posTally e s (s.modFe fePos e fun _ => g)) := by
    show execFilterAccept e .a .pos s = _
    simp only [execFilterAccept, feIdx, if_true, reduceCtorEq, if_false, accepted, change, false_and]
    rw [withEmu_plain bare.toPlain, taken, posFollow_unfretted bare (by rw [gz])]
  have fe : (posTally e s (s.modFe fePos e fun _ => g)).fe fePos e = g := by rw [(posTally_counts e s _).fe, State.fe_modFe_same]
  refine does_of answer ⟨by rw [fe, ga], by rw [fe, ga], ?_, posAt.trans (.of_pos _ rfl) (posTally_only e s _)⟩
  rw [fe, gc, step_dirinv]

end Sys2Proof.Machine

namespace Sys2Proof.Machine

/-! ### Index events (R119 to R121) -/

/-- Registers of POS lie where no event writes. -/
theorem quiet_pos {a : Nat} (lo : 0x40000 ≤ a) (hi : a < 0x50000) : quiet a = true := by
  have block : blockOf a ≠ 1 ∧ blockOf a ≠ 22 := by
    rw [blockOf_sys (by omega)]
    omega
  have flt : fltReg a = false := by
    simp only [fltReg, A.FLT_STAT_LO, A.FLT_STAT_HI, A.FLT_SAFE, A.FLT_FIRST, A.FLT_FIRSTTIME_LO, A.FLT_FIRSTTIME_HI, A.FLT_LOGCNT,
      List.contains_cons, List.contains_nil, Bool.or_false, Bool.or_eq_false_iff, beq_eq_false_iff_ne, Bool.and_eq_false_iff,
      decide_eq_false_iff_not]
    omega
  have react : a ∉ reactRegs := by
    simp only [reactRegs, List.mem_append, List.mem_cons, List.mem_flatMap, List.not_mem_nil, or_false, not_or, not_exists, not_and,
      A.WRK_CTRL, A.PWR_MON_FLUSH, A.WRK_SCRn_STAT, A.CHn_FT_STAT, A.THM_CHn_HTRSTAT, A.CHn_BRG_STAT, A.MOT_AXa_TGT_LO,
      A.MOT_AXa_TGT_HI, A.MOT_AXa_STAT]
    exact ⟨⟨by omega, by omega, fun m _ => by omega⟩, fun x _ => by omega⟩
  simp [quiet, flt, react, block]

theorem quiet_encStat (e : Fin 4) : quiet (A.POS_ENCe_STAT e) = true := by
  have := e.isLt
  exact quiet_pos (by simp only [A.POS_ENCe_STAT]; omega) (by simp only [A.POS_ENCe_STAT]; omega)

/-- No register of POS holds a pending bit. -/
theorem pend_apart {e a : Nat} (he : e < 512) (lo : 0x40000 ≤ a) : (pendFld e).addr ≠ a := by
  simp only [pendFld, A.EVT_PENDw]
  omega

/-- An index event is noted before its check: Z of the outputs that follow it, and that the next one is checked. -/
def indexNoted (e : Fin 4) (s : State) : State :=
  ((List.finRange 4).foldl (fun (s : State) (m : Fin 4) =>
    let src := s.get (F.POS_EMUm_CFG_SRC m)
    if src = e.val ∨ (src = 4 ∧ e = s.pri) then s.modEmu m fun x => { x with pend := true } else s) s).modEnc e
    fun x => { x with idxChecked := true, missed := false }

/-- Only what POS keeps beside its counts has changed. -/
structure Aside (s t : State) : Prop where
  rest : t = { s with pos := t.pos }
  counts : CountsKept s t

namespace Aside

variable {s t u : State}

theorem refl (s : State) : Aside s s := ⟨rfl, .refl s⟩
theorem trans (h : Aside s t) (k : Aside t u) : Aside s u := ⟨by rw [k.rest, h.rest], h.counts.trans k.counts⟩
theorem modEmu (s : State) (m : Fin 4) (f : Emu → Emu) : Aside s (s.modEmu m f) := ⟨rfl, rfl, fun _ => rfl⟩
theorem word (h : Aside s t) (a : Nat) : t.word a = s.word a := State.word_of_bar (congrArg State.bar h.rest) a
theorem free (h : Aside s t) : t.free = s.free := by rw [h.rest]

end Aside

theorem indexNoted_aside (e : Fin 4) (s : State) : Aside s (indexNoted e s) := by
  refine .trans (foldl_keeps (P := Aside s) (fun t m h => ?_) (List.finRange 4) (.refl s)) ⟨rfl, .modEnc _ e rfl⟩
  dsimp only
  split
  · exact h.trans (.modEmu t m _)
  · exact h

/-- A mismatch under a policy other than FAIL is recorded and reported. -/
theorem idxMismatch_reports {e : Fin 4} {s : State} (policy : s.get (F.POS_ENCe_IDXCFG_POLICY e) ≠ 2) :
    idxMismatch e s = (s.put (F.POS_ENCe_STAT_IDXMIS e) 1).raise (52 + e.val) := by
  simp [idxMismatch, policy]

/-- With NOM = 0 an index event captures the count. -/
theorem indexEvent_unchecked {e : Fin 4} {s : State} (nom : s.get (F.POS_ENCe_IDXNOM_NOM e) = 0) :
    indexEvent e s = setIdxCap e (s.posCnt e) (indexNoted e s) := by
  simp only [indexEvent, nom, Int.natCast_zero, ne_eq, not_true_eq_false, false_and, if_false]
  rfl

/-- An index event off the nominal distance is a mismatch, and with POLICY 0 the count is captured as it stands. -/
theorem indexEvent_mismatch {e : Fin 4} {s : State} {d : Nat} (dist : d = (cntDiff (s.posCnt e) (s.idxCap e)).natAbs)
    (nom : s.get (F.POS_ENCe_IDXNOM_NOM e) ≠ 0) (checked : (s.encOf e).idxChecked = true)
    (policy : s.get (F.POS_ENCe_IDXCFG_POLICY e) = 0) (far : s.get (F.POS_ENCe_IDXCFG_TOL e) < d)
    (off : s.get (F.POS_ENCe_IDXCFG_TOL e) < ((d : Int) - s.get (F.POS_ENCe_IDXNOM_NOM e)).natAbs) :
    indexEvent e s =
      setIdxCap e (s.posCnt e) (((indexNoted e s).put (F.POS_ENCe_STAT_IDXMIS e) 1).raise (52 + e.val)) := by
  have policy' : (indexNoted e s).get (F.POS_ENCe_IDXCFG_POLICY e) = 0 := by
    rw [State.get_of_word ((indexNoted_aside e s).word _), policy]
  have mismatch : ((s.get (F.POS_ENCe_IDXNOM_NOM e) : Int) ≠ 0 ∧ (s.encOf e).idxChecked = true) ∧
      ¬ (((cntDiff (s.posCnt e) (s.idxCap e)).natAbs : Int) ≤ s.get (F.POS_ENCe_IDXCFG_TOL e) ∨
        ((((cntDiff (s.posCnt e) (s.idxCap e)).natAbs : Int) - s.get (F.POS_ENCe_IDXNOM_NOM e)).natAbs : Int) ≤
          s.get (F.POS_ENCe_IDXCFG_TOL e)) := by
    rw [← dist]
    exact ⟨⟨by omega, checked⟩, by omega⟩
  rw [← idxMismatch_reports (s := indexNoted e s) (by rw [policy']; decide)]
  simp only [indexEvent]
  rw [if_pos mismatch, if_neg (by rw [policy]; decide)]
  rfl

/-- The frets and the emulation outputs do nothing at an index event that leaves the counts. -/
theorem posFollow_index {e : Fin 4} {s u : State} (plain : Plain s e) (sample : SampleOf e s u) (index : s.indexIn u e = true)
    (same : (u.fe fePos e).cnt = (s.fe fePos e).cnt) (counts : CountsKept u (indexEvent e u))
    (pair : (indexEvent e u).word A.POS_PAIR_CTRL = u.word A.POS_PAIR_CTRL) : posFollow e s u = indexEvent e u := by
  have sub : subFollow e s u = u := by simp [subFollow, sample.encOf, plain.sub]
  have cnt (k : Fin 4) : u.posCnt k = s.posCnt k := by
    by_cases hk : k = e
    · rw [hk, sample.posCnt plain.sub, same, posCnt_own plain.sub]
    · exact sample.posCnt_ne hk
  have off : u.pairEn = false := sample.pairEn.trans plain.off
  have off' : (indexEvent e u).pairEn = false := (State.pairEn_of_word pair).trans off
  simp only [posFollow, sub, posTally_still (cnt e), index, cnt e, if_true]
  rw [fretsFollow_still (fun k => (counts.posCnt k).trans (cnt k)) fun on => absurd on (by rw [off']; decide)]
  exact emuFollow_still fun m _ => srcMove_still (fun k _ => cnt k) off

/-! ### Z of a plain encoder rises -/

theorem feCh_ne (n : Fin 16) : feCh n ≠ fePos := fun h => absurd (congrArg Fin.val h) (Nat.ne_of_lt n.isLt)

/-- A channel's front end that does not count the encoder only takes its levels. -/
theorem feSample_off {s : State} {n : Fin 16} {e : Fin 4} (off : (s.fe (feCh n) e).en = false) (a b z : Bool) :
    ∃ f : EncFe → EncFe, (∀ x, (f x).en = x.en) ∧ feSample (feCh n) e a b z s = s.modFe (feCh n) e f := by
  have idle : s.feOn (feCh n) e = false := by simp [State.feOn, feCh_ne, off]
  refine ⟨_, fun x => ?_, if_pos (by rw [idle]; rfl)⟩
  rfl

/-- Z rises in the front ends of an encoder that no channel counts: POS's takes it, and counts nothing. -/
theorem indexRise {s : State} {e : Fin 4} (plain : Plain s e) (alone : ∀ n, (s.fe (feCh n) e).en = false)
    (settled : (s.fe fePos e).settled = true) (low : (s.fe fePos e).z.acc = false) (filt : s.get (F.POS_ENCe_CFG_FILT e) = 0) :
    ∃ u, exec (.indexEvent e) s = .next (posFollow e s u) ∧ SampleOf e s u ∧ (u.fe fePos e).cnt = (s.fe fePos e).cnt ∧
      (u.fe fePos e).z.acc = true := by
  obtain ⟨ra, rb, rz⟩ := settled_lines settled
  have still (m : Nat) (a b : Bool) : countOf m a b a b = (0, false) := by
    match m with
    | 0 => cases a <;> cases b <;> rfl
    | 1 => cases a <;> cases b <;> rfl
    | 2 => cases a <;> cases b <;> rfl
    | 3 => cases a <;> cases b <;> rfl
    | 4 => cases a <;> cases b <;> rfl
    | _ + 5 => rfl
  obtain ⟨g, taken, -, -, gz, gc⟩ := feTake_clean (z := ⟨true, true, s.tick⟩) plain
    (still (s.get (F.POS_ENCe_CFG_MODE e)) (s.fe fePos e).a.acc (s.fe fePos e).b.acc)
  have own : feSample fePos e (s.fe fePos e).a.raw (s.fe fePos e).b.raw true s = s.modFe fePos e fun _ => g := by
    simp only [feSample, filt, sigSample_unfiltered ra, sigSample_unfiltered rb, sigSample_unfiltered rz, ra, rb, low, if_true,
      Bool.true_eq_false, if_false]
    exact taken
  have every : ∀ n : Fin 16, (BitVec.allOnes 17).getLsbD n.val = true := by decide
  have pos : (BitVec.allOnes 17).getLsbD 16 = true := by decide
  refine ⟨_, congrArg Host.Outcome.next (withEmu_plain plain _), ?_⟩
  simp only [onFrontEnds, pos, every, if_true, own]
  obtain ⟨sample, fe, -⟩ := State.eachCh_inv
    (P := fun w => SampleOf e s w ∧ w.fe fePos e = g ∧ ∀ m, (w.fe (feCh m) e).en = false)
    (f := fun n w => feSample (feCh n) e (w.fe (feCh n) e).a.raw (w.fe (feCh n) e).b.raw true w)
    (fun n w hw => by
      obtain ⟨sample, fe, off⟩ := hw
      obtain ⟨f, en, taken⟩ := feSample_off (off n) (w.fe (feCh n) e).a.raw (w.fe (feCh n) e).b.raw true
      rw [taken]
      refine ⟨sample.modFe _ f, by rw [State.fe_modFe_ne _ _ (.inl (feCh_ne n).symm), fe], fun m => ?_⟩
      by_cases hm : feCh m = feCh n
      · rw [hm, State.fe_modFe_same, en, off]
      · rw [State.fe_modFe_ne _ _ (.inl hm), off])
    (s := s.modFe fePos e fun _ => g)
    ⟨(SampleOf.refl e s).modFe fePos _, State.fe_modFe_same .., fun m => by
      rw [State.fe_modFe_ne _ _ (.inl (feCh_ne m)), alone]⟩
  exact ⟨sample, by rw [fe, gc]; simp, by rw [fe, gz]⟩

theorem indexRise_indexIn {s u : State} {e : Fin 4} (plain : Plain s e) (low : (s.fe fePos e).z.acc = false)
    (high : (u.fe fePos e).z.acc = true) (gate : s.flag (F.POS_ENCe_CFG_IDXGATE e) = false) : s.indexIn u e = true := by
  simp [State.indexIn, plain.on, gate, low, high]

end Sys2Proof.Machine

namespace Sys2Proof.Machine

section
variable {s : State} {e : Fin 4} (plain : s.plainEnc e = true) (alone : ∀ n, (s.fe (feCh n) e).en = false)
  (settled : (s.fe fePos e).settled = true) (low : (s.fe fePos e).z.acc = false) (filt : s.get (F.POS_ENCe_CFG_FILT e) = 0)
  (gate : s.flag (F.POS_ENCe_CFG_IDXGATE e) = false)
include plain alone settled low filt gate

/-- With NOM = 0 an index event captures the count (R119). -/
theorem indexEvent_captures (nom : s.get (F.POS_ENCe_IDXNOM_NOM e) = 0) : does (.indexEvent e) s fun t =>
    t.idxCap e = (s.fe fePos e).cnt ∧ t.flag (F.POS_ENCe_IDXCAP_HI_VALID e) ∧ (t.fe fePos e).cnt = (s.fe fePos e).cnt ∧
      onlyAt [A.POS_ENCe_IDXCAP_LO e, A.POS_ENCe_IDXCAP_HI e] { s with pos := t.pos } t := by
  have plain := Plain.of_plainEnc plain
  obtain ⟨u, answer, sample, same, high⟩ := indexRise plain alone settled low filt
  have captured := indexEvent_unchecked ((sample.get _).trans nom)
  have counts : CountsKept u (indexEvent e u) := captured ▸ (indexNoted_aside e u).counts.trans (setIdxCap_counts e _ _)
  have only : posAt [A.POS_ENCe_IDXCAP_LO e, A.POS_ENCe_IDXCAP_HI e] s (indexEvent e u) :=
    captured ▸ .trans (.of_pos _ sample.rest) (.trans (.of_pos _ (indexNoted_aside e u).rest) (setIdxCap_only e _ _))
  have index := indexRise_indexIn plain low high gate
  have pair : (indexEvent e u).word A.POS_PAIR_CTRL = u.word A.POS_PAIR_CTRL := by
    rw [only.word (by simp [A.POS_ENCe_IDXCAP_LO, A.POS_ENCe_IDXCAP_HI, A.POS_PAIR_CTRL]; omega)]
    exact (sample.word _).symm
  rw [posFollow_index plain sample index same counts pair] at answer
  refine does_of answer ⟨?_, ?_, by rw [counts.fe, same], only.fixed ?_⟩
  · rw [captured, setIdxCap_idxCap, sample.posCnt plain.sub, same]
  · rw [captured, setIdxCap_valid]
  · rw [captured, setIdxCap, State.put_free, State.put_free, State.put_free, (indexNoted_aside e u).free, sample.free]

/-- An index event off the nominal distance under POLICY 0 is reported, and the count stays (R120, R121). -/
theorem indexEvent_mismatches {d : Nat} (dist : d = (cntDiff (s.fe fePos e).cnt (s.idxCap e)).natAbs)
    (nom : s.get (F.POS_ENCe_IDXNOM_NOM e) ≠ 0) (checked : (s.encOf e).idxChecked = true)
    (policy : s.get (F.POS_ENCe_IDXCFG_POLICY e) = 0) (far : s.get (F.POS_ENCe_IDXCFG_TOL e) < d)
    (off : s.get (F.POS_ENCe_IDXCFG_TOL e) < ((d : Int) - s.get (F.POS_ENCe_IDXNOM_NOM e)).natAbs) :
    does (.indexEvent e) s fun t => t.flag (F.POS_ENCe_STAT_IDXMIS e) ∧ t.idxCap e = (s.fe fePos e).cnt ∧
      (t.fe fePos e).cnt = (s.fe fePos e).cnt ∧ raises (52 + e.val) s t := by
  have plain := Plain.of_plainEnc plain
  obtain ⟨u, answer, sample, same, high⟩ := indexRise plain alone settled low filt
  have event : 52 + e.val < 512 := by omega
  have cap : u.idxCap e = s.idxCap e := by simp only [State.idxCap, State.pair, sample.word]
  have captured := indexEvent_mismatch (s := u) (d := d) (by rw [dist, sample.posCnt plain.sub, same, cap]) (by rwa [sample.get])
    (by rw [sample.encOf, checked]) (by rw [sample.get, policy]) (by rwa [sample.get]) (by rwa [sample.get, sample.get])
  have noted := indexNoted_aside e u
  have told := RaiseFrame.raise ((indexNoted e u).put (F.POS_ENCe_STAT_IDXMIS e) 1) event
  have counts : CountsKept u (indexEvent e u) :=
    captured ▸ noted.counts.trans (.trans (.put _ _ _) (.trans (.of_pos told.pos) (setIdxCap_counts e _ _)))
  have index := indexRise_indexIn plain low high gate
  have pair : (indexEvent e u).word A.POS_PAIR_CTRL = u.word A.POS_PAIR_CTRL := by
    rw [captured, (setIdxCap_only e _ _).word (by simp [A.POS_ENCe_IDXCAP_LO, A.POS_ENCe_IDXCAP_HI, A.POS_PAIR_CTRL]; omega),
      told.word _ (quiet_pos (a := A.POS_PAIR_CTRL) (by decide) (by decide)),
      State.word_put_ne _ _ (by simp [F.POS_ENCe_STAT_IDXMIS, A.POS_ENCe_STAT, A.POS_PAIR_CTRL]; omega), noted.word]
  rw [posFollow_index plain sample index same counts pair] at answer
  refine does_of answer ⟨?_, ?_, by rw [counts.fe, same], fun host => ?_⟩
  · rw [captured, (setIdxCap_only e _ _).flag (by simp [F.POS_ENCe_STAT_IDXMIS, A.POS_ENCe_STAT, A.POS_ENCe_IDXCAP_LO, A.POS_ENCe_IDXCAP_HI]),
      told.flag (f := F.POS_ENCe_STAT_IDXMIS e) (quiet_encStat e)]
    exact State.flag_put_one _ (by simp [F.POS_ENCe_STAT_IDXMIS]) Nat.one_pos
  · rw [captured, setIdxCap_idxCap, sample.posCnt plain.sub, same]
  · have host' : ((indexNoted e u).put (F.POS_ENCe_STAT_IDXMIS e) 1).domOn 0 = true := by
      rw [State.domOn_zero_of_word, host]
      rw [State.word_put_ne _ _ (by simp [F.POS_ENCe_STAT_IDXMIS, A.POS_ENCe_STAT, A.SYS_DOMSTAT_LO]; omega), noted.word, sample.word]
    rw [captured, (setIdxCap_only e _ _).flag (by
      simpa using ⟨pend_apart event (by simp [A.POS_ENCe_IDXCAP_LO]; omega), pend_apart event (by simp [A.POS_ENCe_IDXCAP_HI]; omega)⟩)]
    exact raise_pending _ event host'

end

end Sys2Proof.Machine

namespace Sys2Proof.Machine

/-! ### What a matching fret does (R133) -/

/-- The bit of POS_FRETHIT for fret f. -/
def hitFld (f : Nat) : Fld := if f < 32 then F.POS_FRETHIT_LO_HIT_L.bit f else F.POS_FRETHIT_HI_HIT_H.bit (f - 32)

theorem hitFld_addr (f : Nat) : (hitFld f).addr = A.POS_FRETHIT_LO ∨ (hitFld f).addr = A.POS_FRETHIT_HI := by
  unfold hitFld
  split
  · exact .inl rfl
  · exact .inr rfl

theorem hitFld_fits {f : Nat} (h : f < 64) : (hitFld f).lo + (hitFld f).width ≤ 32 ∧ 0 < (hitFld f).width := by
  unfold hitFld
  split
  · simp only [Fld.bit, F.POS_FRETHIT_LO_HIT_L]
    omega
  · simp only [Fld.bit, F.POS_FRETHIT_HI_HIT_H]
    omega

/-- A matching fret's hit, with EVT its bit and its event. -/
def fretHit (f : Nat) (s : State) : State := if s.flag (F.POS_FRETf_CTRL_EVT f) then (s.put (hitFld f) 1).raise 60 else s

/-- The actions of a matching fret: its hit, its commit strobe and its page mark. -/
def fretActs (f : Nat) (fwd : Bool) (s : State) : State :=
  let s2 := if s.flag (F.POS_FRETf_CTRL_CAPO f) then capoCond 3 f (fretHit f s) else fretHit f s
  if s.flag (F.POS_FRETf_CTRL_PAGE f) then s2.eachCh (pageMark f fwd (s.fretCmp f)) else s2

/-- After its actions a fret is reloaded or disarmed. -/
theorem fretMatch_eq (f : Nat) (fwd : Bool) (s : State) : fretMatch f fwd s =
    if s.flag (F.POS_FRETf_CTRL_RELOAD f) ∧ s.get (F.POS_FRETf_STEP_STEP f) ≠ 0 then
      ((fretActs f fwd s).put (F.POS_FRETf_CMP_LO_CMP_L f)
        (s.fretCmp f + BitVec.ofInt 48 (toSigned 32 (s.get (F.POS_FRETf_STEP_STEP f)))).toNat).put (F.POS_FRETf_CMP_HI_CMP_H f)
        ((s.fretCmp f + BitVec.ofInt 48 (toSigned 32 (s.get (F.POS_FRETf_STEP_STEP f)))).toNat / 2 ^ 32)
    else (fretActs f fwd s).put (F.POS_FRETf_CTRL_ARM f) 0 := rfl

/-! ### What the pair, the lines and the frets leave of an encoder's status (R118, R128 to R134) -/

/-- The status register of encoder e and every front end are as before. -/
structure EncKept (e : Fin 4) (s t : State) : Prop where
  stat : t.word (A.POS_ENCe_STAT e) = s.word (A.POS_ENCe_STAT e)
  fes : t.pos.fes = s.pos.fes

namespace EncKept

variable {e : Fin 4} {s t u : State}

theorem refl (e : Fin 4) (s : State) : EncKept e s s := ⟨rfl, rfl⟩
theorem trans (h : EncKept e s t) (k : EncKept e t u) : EncKept e s u := ⟨k.stat.trans h.stat, k.fes.trans h.fes⟩

theorem ite {c : Prop} [Decidable c] (h : EncKept e s t) (k : EncKept e s u) : EncKept e s (if c then t else u) := by
  split
  · exact h
  · exact k

theorem of_frame (h : RaiseFrame s t) : EncKept e s t := ⟨h.word _ (quiet_encStat e), by rw [h.pos]⟩

/-- Neither the registers nor the front ends change. -/
theorem of_bar (bar : t.bar = s.bar) (fes : t.pos.fes = s.pos.fes) : EncKept e s t := ⟨State.word_of_bar bar _, fes⟩

theorem ft (s : State) (n : Fin 16) (f : Ft → Ft) : EncKept e s (s.modFt n f) := of_bar rfl rfl
theorem work (s : State) (n : Fin 16) (f : Work → Work) : EncKept e s (s.modWork n f) := of_bar rfl rfl
theorem img (s : State) (n : Fin 16) (f : Img → Img) : EncKept e s (s.modImg n f) := of_bar rfl rfl
theorem dut (s : State) (n : Fin 16) (f : Dut → Dut) : EncKept e s (s.modDut n f) := of_bar rfl rfl
theorem brg (s : State) (n : Fin 16) (f : Brg → Brg) : EncKept e s (s.modBrg n f) := of_bar rfl rfl
theorem pair (s : State) (i : Fin 17) (f : PairSt → PairSt) : EncKept e s (s.modPair i f) := of_bar rfl rfl

/-- The encoders' registers lie below those of the pair, the frets and the channels. -/
theorem put (s : State) {f : Fld} (v : Nat) (far : 0x40200 ≤ f.addr) : EncKept e s (s.put f v) :=
  ⟨State.word_put_ne s v (by simp only [A.POS_ENCe_STAT]; omega), rfl⟩

theorem raise (s : State) {k : Nat} (h : k < 512) : EncKept e s (s.raise k) := of_frame (.raise s h)
theorem raiseCh (s : State) (n : Fin 16) {k : Nat} (h : k < 24) : EncKept e s (s.raiseCh n k) := of_frame (.raiseCh s n h)

theorem checkUnderrun (n : Fin 16) (s : State) : EncKept e s (checkUnderrun n s) := .ite (of_frame (.hold s n 5)) (refl e s)

/-! #### The pair -/

theorem switchPair (i : Fin 17) (toSec : Bool) (s : State) : EncKept e s (switchPair i toSec s) := by
  unfold Machine.switchPair
  dsimp only
  have chosen : EncKept e s (s.modPair i fun p => { p with onSec := toSec, clean := 0 }) := pair s i _
  refine .trans ?_ (raise _ (by decide))
  split
  · exact ite (.trans chosen (ft _ _ _)) chosen
  · exact chosen.trans (put _ _ (by decide))

theorem pushGap (i : Fin 17) (s : State) : EncKept e s (pushGap i s) := pair s i _
theorem freezeOfs (i : Fin 17) (s0 s : State) : EncKept e s (freezeOfs i s0 s) := (pair s i _).trans (pushGap i _)
theorem cleanRun (i : Fin 17) (s0 s : State) : EncKept e s (cleanRun i s0 s) := by
  unfold Machine.cleanRun
  exact pair s i _


theorem chooseSource (i : Fin 17) (s0 s : State) : EncKept e s (chooseSource i s0 s) :=
  ite (switchPair i true s) (ite (switchPair i false s) (refl e s))

theorem checkDiv (s : State) : EncKept e s (checkDiv s) := ite (.trans (put s 1 (by decide)) (raise _ (by decide))) (refl e s)

theorem pairFollow (i : Fin 17) (s0 s : State) : EncKept e s (pairFollow i s0 s) := by
  have chosen : EncKept e s (Machine.chooseSource i s0 (Machine.cleanRun i s0 (Machine.freezeOfs i s0 s))) :=
    .trans (.trans (freezeOfs i s0 s) (cleanRun i s0 _)) (chooseSource i s0 _)
  exact ite (refl e s) (ite (chosen.trans (checkDiv _)) chosen)

theorem foldl {α : Type} (l : List α) (g : State → α → State) (h : ∀ s a, EncKept e s (g s a)) (s : State) :
    EncKept e s (l.foldl g s) :=
  foldl_keeps (P := EncKept e s) (fun t a k => k.trans (h t a)) l (refl e s)

theorem eachCh (s : State) (g : Fin 16 → State → State) (h : ∀ n s, EncKept e s (g n s)) : EncKept e s (s.eachCh g) :=
  foldl allCh _ (fun s n => h n s) s

theorem pairsFollow (k : Fin 4) (s0 s : State) : EncKept e s (pairsFollow k s0 s) :=
  ite (foldl _ _ (fun s i => pairFollow i s0 s) s) (refl e s)

/-! #### Lines -/

theorem reverseAt (n : Fin 16) (q : BitVec 64) (s : State) : EncKept e s (reverseAt n q s) :=
  ite (.trans (.trans (.trans (ft s n _) (put _ _ (by simp only [F.CHn_FT_STAT_REVERSE, A.CHn_FT_STAT]; omega)))
    (put _ _ (by simp only [F.CHn_FT_CNT_REVCNT, A.CHn_FT_CNT]; omega))) (raiseCh _ n (by decide))) (refl e s)

theorem ftCount (n : Fin 16) (old new : BitVec 64) (s : State) : EncKept e s (ftCount n old new s) :=
  ite (refl e s) (ite (.trans (ft s n _) (reverseAt n _ _)) (.trans (ft s n _) (checkUnderrun n _)))

theorem lineFollow (n : Fin 16) (s0 s : State) : EncKept e s (lineFollow n s0 s) :=
  ite (.trans (.trans (.trans (ft s n _) (ft _ n _)) (reverseAt n _ _)) (checkUnderrun n _)) (ftCount n _ _ s)

/-! #### Page marks -/

theorem armMiss (n : Fin 16) (s : State) : EncKept e s (armMiss n s) :=
  .trans (.trans (put s _ (by simp only [F.CHn_FT_CNT_MISSCNT, A.CHn_FT_CNT]; omega))
    (put _ _ (by simp only [F.CHn_FT_STAT_MISS, A.CHn_FT_STAT]; omega))) (raiseCh _ n (by decide))

theorem ftStat (n : Fin 16) (s : State) (v : Nat) : EncKept e s (s.put (F.CHn_FT_STAT_STATE n) v) :=
  put s v (by simp only [F.CHn_FT_STAT_STATE, A.CHn_FT_STAT]; omega)

theorem ftDir (n : Fin 16) (s : State) (v : Nat) : EncKept e s (s.put (F.CHn_FT_STAT_DIR n) v) :=
  put s v (by simp only [F.CHn_FT_STAT_DIR, A.CHn_FT_STAT]; omega)

theorem ftLines (n : Fin 16) (s : State) (v : Nat) : EncKept e s (s.put (F.CHn_FT_LINES_LINES n) v) :=
  put s v (by simp only [F.CHn_FT_LINES_LINES, A.CHn_FT_LINES]; omega)

theorem fixDelays (n : Fin 16) (pg : Nat) (back : Bool) (s : State) : EncKept e s (fixDelays n pg back s) := by
  unfold Machine.fixDelays
  exact ft s n _

theorem dropAhead (n : Fin 16) (pg : Nat) (s : State) : EncKept e s (dropAhead n pg s) := by
  unfold Machine.dropAhead
  dsimp only
  have cut : EncKept e s (if (s.ch n).img.started ∧ pg ≤ (s.ch n).img.scrPage then s.modImg n fun i =>
      { i with released := i.released.filter (fun x => decide (x.page < pg)), job := none, scrPage := pg, scrL := 0 } else s) :=
    ite (img s n _) (refl e s)
  split
  · exact ite cut (cut.trans (.trans (dut _ n _) (brg _ n _)))
  · exact cut

theorem rescreen (n : Fin 16) (back : Bool) (s : State) : EncKept e s (rescreen n back s) := by
  unfold Machine.rescreen
  split
  · exact refl e s
  · exact ite (.trans (dropAhead n _ s) (img _ n _)) (refl e s)

theorem armPage (n : Fin 16) (back sos : Bool) (x : BitVec 80) (s : State) : EncKept e s (armPage n back sos x s) := by
  unfold Machine.armPage
  dsimp only
  refine .trans ?_ (checkUnderrun n _)
  split
  · exact .trans (.trans (.trans (.trans (.trans (.trans (rescreen n back s) (ftDir n _ _)) (ftStat n _ _)) (ftLines n _ _)) (ft _ n _))
      (work _ n _)) (fixDelays n _ _ _)
  · exact .trans (.trans (.trans (.trans (rescreen n back s) (ftDir n _ _)) (ftStat n _ _)) (ftLines n _ _)) (ft _ n _)

theorem rearmAt (n : Fin 16) (x : BitVec 80) (s : State) : EncKept e s (rearmAt n x s) := by
  unfold Machine.rearmAt
  dsimp only
  refine .trans ?_ (checkUnderrun n _)
  split
  · exact .trans (.trans (.trans (.trans (ftStat n s _) (ftLines n _ _)) (ft _ n _)) (work _ n _)) (fixDelays n _ _ _)
  · exact .trans (.trans (ftStat n s _) (ftLines n _ _)) (ft _ n _)

theorem latchEvent (n : Fin 16) (sos : Bool) (mark : BitVec 48) (cap : BitVec 64) (back : Bool) (s : State) :
    EncKept e s (latchEvent n sos mark cap back s) := by
  have latched (f g : Ft → Ft) : EncKept e s (if sos then s.modFt n f else s.modFt n g) := ite (ft s n _) (ft s n _)
  exact ite (refl e s) (ite (.trans (latched _ _) (armMiss n _)) (latched _ _))

theorem pageMark (f : Nat) (fwd : Bool) (p : BitVec 48) (n : Fin 16) (s : State) : EncKept e s (pageMark f fwd p n s) :=
  ite (refl e s) (ite (ite (latchEvent n ..) (ite (armMiss n s) (rearmAt n _ s)))
    (ite (ite (ite (.trans (ft s n _) (armMiss n _)) (armPage n ..)) (refl e s)) (latchEvent n ..)))

/-! #### Frets -/

theorem capoCond (cond arg : Nat) (s : State) : EncKept e s (capoCond cond arg s) := by
  rw [capoCond_eq]
  exact of_bar rfl rfl

theorem fretHit (f : Nat) (s : State) : EncKept e s (fretHit f s) :=
  ite (.trans (put s 1 (by rcases hitFld_addr f with h | h <;> rw [h] <;> decide)) (raise _ (by decide))) (refl e s)

theorem fretActs (f : Nat) (fwd : Bool) (s : State) : EncKept e s (fretActs f fwd s) := by
  have strobed : EncKept e s (if s.flag (F.POS_FRETf_CTRL_CAPO f) then Machine.capoCond 3 f (Machine.fretHit f s) else Machine.fretHit f s) :=
    ite (.trans (fretHit f s) (capoCond 3 f _)) (fretHit f s)
  exact ite (strobed.trans (eachCh _ _ fun n u => pageMark f fwd _ n u)) strobed

theorem fretMatch (f : Nat) (fwd : Bool) (s : State) : EncKept e s (fretMatch f fwd s) := by
  have far : 0x40200 ≤ A.POS_FRETf_CMP_LO f ∧ 0x40200 ≤ A.POS_FRETf_CMP_HI f ∧ 0x40200 ≤ A.POS_FRETf_CTRL f := by
    simp only [A.POS_FRETf_CMP_LO, A.POS_FRETf_CMP_HI, A.POS_FRETf_CTRL]
    omega
  obtain ⟨lo, hi, ctrl⟩ := far
  rw [fretMatch_eq]
  exact ite (.trans (.trans (fretActs f fwd s) (put _ _ lo)) (put _ _ hi)) (.trans (fretActs f fwd s) (put _ _ ctrl))

theorem fretsFollow (moves : Nat → Bool) (s0 s : State) : EncKept e s (fretsFollow moves s0 s) := by
  rw [fretsFollow_eq]
  refine foldl _ _ (fun s1 f => ?_) s
  unfold fretTurn
  dsimp only
  split
  · split
    · exact fretMatch f _ s1
    · exact refl e s1
  · exact refl e s1

end EncKept

end Sys2Proof.Machine

namespace Sys2Proof.Machine

/-! ### FAULT is cleared (R118, R120) -/

/-- FAULT of encoder e is low in POS's status and in every front end, and the next index event is not checked where it was set. -/
def faultLowered (e : Fin 4) (s : State) : State :=
  everyFe e (fun f => { f with faulty := false })
    (if s.encFaulty e then (s.put (F.POS_ENCe_STAT_FAULT e) 0).modEnc e fun x => { x with idxChecked := false } else s)

theorem faultLowered_fe (e : Fin 4) (s : State) (i : Fin 17) : ((faultLowered e s).fe i e).faulty = false := by
  rw [faultLowered, everyFe_fe]

theorem faultLowered_flag (e : Fin 4) (s : State) : (faultLowered e s).flag (F.POS_ENCe_STAT_FAULT e) = false := by
  rw [faultLowered, (FesOnly.everyFe e _ _).flag]
  split
  · rw [State.flag_modEnc]
    exact State.flag_put_zero s (by simp [F.POS_ENCe_STAT_FAULT])
  · next clear => exact Bool.eq_false_of_not_eq_true clear

theorem faultLowered_at (e : Fin 4) (s : State) : posAt [A.POS_ENCe_STAT e] s (faultLowered e s) := by
  have status : posAt [A.POS_ENCe_STAT e] s
      (if s.encFaulty e then (s.put (F.POS_ENCe_STAT_FAULT e) 0).modEnc e fun x => { x with idxChecked := false } else s) :=
    .ite (.trans (.put s 0 (.head _)) (.of_pos _ rfl)) (.refl _ s)
  exact .trans status (.of_pos _ (FesOnly.everyFe e _ _).rest)

theorem faultLowered_free (e : Fin 4) (s : State) : (faultLowered e s).free = s.free := by
  rw [faultLowered, (FesOnly.everyFe e _ _).free]
  split <;> rfl

theorem faultLowered_pairEn (e : Fin 4) (s : State) : (faultLowered e s).pairEn = s.pairEn :=
  (faultLowered_at e s).pairEn (by simp [A.POS_ENCe_STAT, A.POS_PAIR_CTRL]; omega)

/-- A change of a front end leaves the counts that POS works with, where it leaves its own. -/
theorem State.posCnt_modFe (s : State) (i : Fin 17) (e : Fin 4) {f : EncFe → EncFe} (keep : ∀ x, (f x).cnt = x.cnt) (k : Fin 4) :
    (s.modFe i e f).posCnt k = s.posCnt k := by
  have cnt (j : Fin 17) : ((s.modFe i e f).fe j k).cnt = (s.fe j k).cnt := by
    by_cases own : j = i ∧ k = e
    · obtain ⟨rfl, rfl⟩ := own
      rw [State.fe_modFe_same, keep]
    · rw [State.fe_modFe_ne _ _ (not_and_or.1 own)]
  simp only [State.posCnt, State.posFe, State.encOf_modFe, cnt]

theorem everyFe_posCnt (e : Fin 4) {f : EncFe → EncFe} (keep : ∀ x, (f x).cnt = x.cnt) (s : State) (k : Fin 4) :
    (everyFe e f s).posCnt k = s.posCnt k :=
  foldl_keeps (P := fun t : State => t.posCnt k = s.posCnt k) (fun t i h => (t.posCnt_modFe i e keep k).trans h) (List.finRange 17) rfl

theorem faultLowered_posCnt (e : Fin 4) (s : State) (k : Fin 4) : (faultLowered e s).posCnt k = s.posCnt k := by
  have status : CountsKept s
      (if s.encFaulty e then (s.put (F.POS_ENCe_STAT_FAULT e) 0).modEnc e fun x => { x with idxChecked := false } else s) :=
    .ite (.trans (.put _ _ _) (.modEnc _ e rfl)) (.refl s)
  rw [faultLowered, everyFe_posCnt e (by exact fun _ => rfl), status.posCnt]

/-- The state in which the pair has followed, and the lines of the channels that print from it. -/
def faultFollowed (e : Fin 4) (s : State) : State :=
  (pairsFollow e s (faultLowered e s)).eachCh fun n t =>
    if (pairsFollow e s (faultLowered e s)).hasPair (feCh n) then lineFollow n s t else t

/-- FAULT clears where the fault count is below FLIM, or FLIM is 0, and nothing is pending. -/
theorem encFaultClear_eq {e : Fin 4} {s : State}
    (below : s.get (F.POS_ENCe_FLT_FLIM e) = 0 ∨ (s.fe fePos e).fc < s.get (F.POS_ENCe_FLT_FLIM e))
    (pending : (s.encOf e).pending = false) (xpend : (s.encOf e).xpend = false) :
    encFaultClear e s = fretsFollow (fun _ => true) s (faultFollowed e s) :=
  if_pos ⟨below, by simp [pending], by simp [xpend]⟩

/-- FAULT stays where a cause of it is pending. -/
theorem encFaultClear_stays {e : Fin 4} {s : State} (cause : (s.encOf e).pending = true ∨ (s.encOf e).xpend = true) :
    encFaultClear e s = s :=
  if_neg fun ⟨_, pending, xpend⟩ => cause.elim pending xpend

theorem faultFollowed_kept (e : Fin 4) (s : State) : EncKept e (faultLowered e s) (faultFollowed e s) :=
  .trans (.pairsFollow e s _) (.eachCh _ _ fun n t => .ite (.lineFollow n s t) (.refl e t))

/-- With the pair off nothing follows it. -/
theorem faultFollowed_off {e : Fin 4} {s : State} (off : s.pairEn = false) : faultFollowed e s = faultLowered e s := by
  have lowered := (faultLowered_pairEn e s).trans off
  have follow : pairsFollow e s (faultLowered e s) = faultLowered e s := by
    unfold pairsFollow
    split
    · exact foldl_idle fun i _ => by simp [pairFollow, State.hasPair, lowered]
    · rfl
  rw [faultFollowed, follow]
  exact State.eachCh_idle fun n => by simp [State.hasPair, lowered]

theorem exec_encFaultClear (m : Master) (e : Fin 4) (s : State) :
    exec (.encFaultClear m e) s = .next (s.wr m (A.POS_ENCe_STAT e) (encFaultClear e)) := rfl

theorem encFaultClear_clears {m : Master} {e : Fin 4} {s : State} (reach : s.reaches m (A.POS_ENCe_STAT e) = true)
    (below : s.get (F.POS_ENCe_FLT_FLIM e) = 0 ∨ (s.fe fePos e).fc < s.get (F.POS_ENCe_FLT_FLIM e))
    (pending : (s.encOf e).pending = false) (xpend : (s.encOf e).xpend = false) :
    does (.encFaultClear m e) s fun t => t.flag (F.POS_ENCe_STAT_FAULT e) = false ∧ (∀ i, (t.fe i e).faulty = false) ∧
      (s.pairEn = false → onlyAt [A.POS_ENCe_STAT e] { s with pos := t.pos } t) := by
  have kept : EncKept e (faultLowered e s) (fretsFollow (fun _ => true) s (faultFollowed e s)) :=
    (faultFollowed_kept e s).trans (.fretsFollow _ s _)
  refine does_of (t := fretsFollow (fun _ => true) s (faultFollowed e s)) ?_ ⟨?_, fun i => ?_, fun off => ?_⟩
  · rw [exec_encFaultClear, State.wr_reaches reach, encFaultClear_eq below pending xpend]
  · exact (State.flag_of_word kept.stat).trans (faultLowered_flag e s)
  · rw [State.fe, kept.fes]
    exact faultLowered_fe e s i
  · have still : fretsFollow (fun _ => true) s (faultLowered e s) = faultLowered e s :=
      fretsFollow_still (faultLowered_posCnt e s) fun on => by
        rw [faultLowered_pairEn, off] at on
        cases on
    rw [faultFollowed_off off, still]
    exact (faultLowered_at e s).fixed (faultLowered_free e s)

/-- Settles O19: the filter, the index, the ends of the windows, and FAULT, whose clearing and the clearing of the fault counts act on every
front end (log 39). -/
theorem encoderWindowsAndIndex : Obligations.EncoderWindowsAndIndex := by
  unfold Obligations.EncoderWindowsAndIndex
  simp only [Bool.not_eq_true']
  refine fun s e => ⟨fun bare => filterAccept_counts (.of_bareEnc bare), fun plain alone settled low filt gate => ⟨?_, ?_⟩, fun ended => ?_,
    fun ended some => ?_, fun m reach => ⟨fun below pending xpend => encFaultClear_clears reach below pending xpend, fun cause => ?_⟩⟩
  · exact indexEvent_captures plain alone settled low filt gate
  · exact fun d dist nom checked policy far off =>
      indexEvent_mismatches plain alone settled low filt gate dist nom checked policy far off
  · exact does_of rfl (faultWindow_ends ended)
  · exact does_of rfl (speedWindow_ends ended some)
  · rw [idles, exec_encFaultClear, State.wr_reaches reach, encFaultClear_stays cause]

end Sys2Proof.Machine

namespace Sys2Proof.Machine

/-! ### The position of the pair (R128, R129) -/

/-- The pair's position in POS rests on its settings, on the counts POS works with, on the faults of its front end, on what is kept of the
pair, and on the tick. -/
theorem posPairCnt_congr {s t : State} (ctrl : t.word A.POS_PAIR_CTRL = s.word A.POS_PAIR_CTRL) (k : t.word A.POS_PAIR_K = s.word A.POS_PAIR_K)
    (tick : t.tick = s.tick) (pair : t.pairOf fePos = s.pairOf fePos) (cnt : ∀ e, t.posCnt e = s.posCnt e)
    (faults : ∀ e, (t.fe fePos e).fc = (s.fe fePos e).fc ∧ (t.fe fePos e).faulty = (s.fe fePos e).faulty) :
    t.posPairCnt = s.posPairCnt := by
  have pri : t.pri = s.pri := by rw [State.pri, State.flag_of_word (f := F.POS_PAIR_CTRL_PRI) ctrl, State.pri]
  have sec : t.sec = s.sec := by rw [State.sec, State.flag_of_word (f := F.POS_PAIR_CTRL_PRI) ctrl, State.sec]
  have ratio : t.get F.POS_PAIR_K_K = s.get F.POS_PAIR_K_K := State.get_of_word k
  have tracks : t.ofsTracks fePos = s.ofsTracks fePos := by
    simp only [State.ofsTracks, pair, pri, sec, (faults _).1, (faults _).2]
  have ofs : t.pairOfs fePos = s.pairOfs fePos := by rw [State.pairOfs, tracks, pair, tick, State.pairOfs]
  simp only [State.posPairCnt, State.pairPos, State.standIn, State.kS, State.cntOf, pair, pri, sec, ratio, ofs, cnt, if_true]

/-! ### The cross-check (R125, R126) -/

/-- What a front end counts, and whether it does so. -/
def EncFe.core (f : EncFe) : BitVec 48 × Bool × Bool := (f.cnt, f.en, f.failed)

/-- A tracker as a snapshot leaves it. -/
def State.trkSeen (s : State) (e : Fin 4) (n : Fin 16) : EncFe :=
  let f := s.fe (feCh n) e
  if !s.trkLive e n then f
  else if s.trkOff e n then { f with disagree := if f.valid then f.disagree + 1 else 0 }
  else { f with disagree := 0, valid := true }

/-- What the comparison of trackers leaves: POS's front end, the other encoders, and of a tracker what it counts and whether it works. -/
structure Snap (e : Fin 4) (s t : State) : Prop extends SampleOf e s t where
  pos : t.fe fePos e = s.fe fePos e
  core : ∀ n, (t.fe (feCh n) e).core = (s.fe (feCh n) e).core

theorem FesOnly.feOn_pos {s t : State} (h : FesOnly s t) (k : Fin 4) : t.feOn fePos k = s.feOn fePos k := by
  simp only [State.feOn, State.encEn, State.domOn, State.domState, h.get, h.flag, if_true]

theorem State.modFe_self (s : State) (i : Fin 17) (e : Fin 4) : s.modFe i e (fun f => f) = s := by
  have own {α : Type} {k : Nat} (v : Vector α k) (j : Fin k) : v.set j (v.get j) = v := by
    exact Vector.set_getElem_self ..
  simp only [State.modFe, State.fe, own]

namespace Snap

variable {e : Fin 4} {s t u : State}

theorem refl (e : Fin 4) (s : State) : Snap e s s := ⟨.refl e s, rfl, fun _ => rfl⟩

/-- One tracker's run of disagreements and its validity change. -/
theorem modFe (h : Snap e s t) (n : Fin 16) {f : EncFe → EncFe} (keep : ∀ x, (f x).core = x.core) :
    Snap e s (t.modFe (feCh n) e f) := by
  refine ⟨h.toSampleOf.modFe _ f, by rw [State.fe_modFe_ne _ _ (.inl (feCh_ne n).symm), h.pos], fun m => ?_⟩
  by_cases hm : feCh m = feCh n
  · rw [hm, State.fe_modFe_same, keep, ← hm, h.core]
  · rw [State.fe_modFe_ne _ _ (.inl hm), h.core]

theorem cnt (h : Snap e s t) (n : Fin 16) : (t.fe (feCh n) e).cnt = (s.fe (feCh n) e).cnt := congrArg (·.1) (h.core n)
theorem en (h : Snap e s t) (n : Fin 16) : (t.fe (feCh n) e).en = (s.fe (feCh n) e).en := congrArg (·.2.1) (h.core n)
theorem failed (h : Snap e s t) (n : Fin 16) : (t.fe (feCh n) e).failed = (s.fe (feCh n) e).failed := congrArg (·.2.2) (h.core n)

theorem trkLive (h : Snap e s t) (n : Fin 16) : t.trkLive e n = s.trkLive e n := by
  simp only [State.trkLive, State.feOn, State.encEn, State.domOn, State.domState, h.get, h.flag, h.en, h.failed, feCh_ne, if_false]

theorem posCnt (h : Snap e s t) (k : Fin 4) : t.posCnt k = s.posCnt k := by
  by_cases hk : k = e
  · subst hk
    simp only [State.posCnt, State.posFe, h.encOf]
    split
    · exact h.cnt _
    · rw [h.pos]
  · exact h.posCnt_ne hk

theorem trkOff (h : Snap e s t) (n : Fin 16) : t.trkOff e n = s.trkOff e n := by
  simp only [State.trkOff, h.get, h.cnt, h.posCnt]

theorem fePos_eq (h : Snap e s t) (k : Fin 4) : t.fe fePos k = s.fe fePos k := by
  by_cases hk : k = e
  · rw [hk, h.pos]
  · exact h.other _ k hk

theorem trkSeen (h : Snap e s t) {n : Fin 16} (own : t.fe (feCh n) e = s.fe (feCh n) e) : t.trkSeen e n = s.trkSeen e n := by
  simp only [State.trkSeen, h.trkLive, h.trkOff, own]

end Snap

/-- The comparison of one tracker. -/
theorem trkCompare_eq (e : Fin 4) (n : Fin 16) (s : State) :
    ∃ f : EncFe → EncFe, (∀ x, (f x).core = x.core) ∧ trkCompare e n s = s.modFe (feCh n) e f ∧ f (s.fe (feCh n) e) = s.trkSeen e n := by
  unfold trkCompare State.trkSeen
  split
  · exact ⟨fun f => f, fun _ => rfl, (State.modFe_self s _ e).symm, rfl⟩
  · split
    · exact ⟨fun f => { f with disagree := if f.valid then f.disagree + 1 else 0 }, fun _ => rfl, rfl, rfl⟩
    · exact ⟨fun f => { f with disagree := 0, valid := true }, fun _ => rfl, rfl, rfl⟩

/-- After the comparison every tracker is as the snapshot leaves it. -/
theorem compared_snap (e : Fin 4) (s : State) : Snap e s (s.eachCh fun n s => trkCompare e n s) ∧
    ∀ n, (s.eachCh fun n s => trkCompare e n s).fe (feCh n) e = s.trkSeen e n := by
  have step (m : Fin 16) (u : State) (h : Snap e s u) : Snap e s (trkCompare e m u) := by
    obtain ⟨f, keep, changed, -⟩ := trkCompare_eq e m u
    exact changed ▸ h.modFe m keep
  have beside {n m : Fin 16} (hm : m ≠ n) (u : State) : (trkCompare e m u).fe (feCh n) e = u.fe (feCh n) e := by
    obtain ⟨f, -, changed, -⟩ := trkCompare_eq e m u
    rw [changed, State.fe_modFe_ne _ _ (.inl fun h => hm (Fin.ext (congrArg Fin.val h).symm))]
  refine ⟨State.eachCh_inv (fun n u => step n u) (.refl e s), fun n => ?_⟩
  refine (State.eachCh_at (P := fun u => Snap e s u ∧ u.fe (feCh n) e = s.fe (feCh n) e)
    (Q := fun u => Snap e s u ∧ u.fe (feCh n) e = s.trkSeen e n) n (fun m u hm hu => ⟨step m u hu.1, (beside hm u).trans hu.2⟩)
    (fun u hu => ⟨step n u hu.1, ?_⟩) (fun m u hm hu => ⟨step m u hu.1, (beside hm u).trans hu.2⟩) ⟨.refl e s, rfl⟩).2
  obtain ⟨snap, own⟩ := hu
  obtain ⟨f, -, changed, seen⟩ := trkCompare_eq e n u
  rw [changed, State.fe_modFe_same, seen, snap.trkSeen own]

end Sys2Proof.Machine

namespace Sys2Proof.Machine

/-- The trackers of encoder e that a snapshot of s compares, and those of them that differ. -/
def validTrk (e : Fin 4) (s : State) : List (Fin 16) := allCh.filter fun n => s.trkLive e n && (s.fe (feCh n) e).valid
def offTrk (e : Fin 4) (s : State) : List (Fin 16) := (validTrk e s).filter fun n => s.trkOff e n

theorem mem_validTrk {e : Fin 4} {s : State} {n : Fin 16} : n ∈ validTrk e s ↔ s.trkLive e n = true ∧ (s.fe (feCh n) e).valid = true := by
  simp [validTrk, allCh]

/-- With no tracker that differs a snapshot ends what was pending of a finding. -/
theorem xcheckEnc_agrees {e : Fin 4} {s v : State} (compared : (s.eachCh fun n s => trkCompare e n s) = v) (none : offTrk e v = []) :
    xcheckEnc e s = v.modEnc e fun x => { x with xpend := false } := by
  unfold offTrk validTrk at none
  simp only [xcheckEnc, compared, none, List.any_nil, Bool.not_false, if_true, List.isEmpty_nil]

/-- One tracker alone that differs for long enough, with another that agrees, fails. -/
theorem xcheckEnc_alone {e : Fin 4} {s v : State} {n : Fin 16} (compared : (s.eachCh fun n s => trkCompare e n s) = v)
    (alone : offTrk e v = [n]) (two : 2 ≤ (validTrk e v).length)
    (long : max 1 (v.get F.POS_XCFG_XPERS) ≤ (v.fe (feCh n) e).disagree) : xcheckEnc e s = failTracker e n v := by
  unfold offTrk validTrk at alone
  unfold validTrk at two
  simp only [xcheckEnc, compared, alone, List.any_cons, List.any_nil, long, two, decide_true, Bool.true_or, Bool.not_true,
    Bool.false_eq_true, if_false, true_or, if_true]

/-- POS has one encoder enabled: a snapshot is its cross-check, and the frets follow. -/
theorem xcheckSnapshot_one {s u : State} {e : Fin 4} (on : s.domOn 4 = true) (own : s.feOn fePos e = true)
    (others : ∀ k, k ≠ e → s.feOn fePos k = false) (checked : xcheckEnc e s = u) (others' : ∀ k, k ≠ e → u.feOn fePos k = false) :
    exec .xcheckSnapshot s = .next (fretsFollow (fun _ => true) s u) := by
  have all : (List.finRange 4).foldl (fun (s : State) (e : Fin 4) => if s.feOn fePos e then xcheckEnc e s else s) s = u :=
    foldl_once (List.mem_finRange e) (List.nodup_finRange 4) (fun k _ hk => if_neg (by rw [others k hk]; decide))
      ((if_pos own).trans checked) fun k _ hk => if_neg (by rw [others' k hk]; decide)
  show Host.Outcome.next (if s.domOn 4 then _ else s) = _
  rw [if_pos on, all]

/-- Where all live trackers lie within XTOL they become valid, and nothing else changes (R125). -/
theorem xcheckSnapshot_validates {s : State} {e : Fin 4} (on : s.domOn 4 = true) (own : s.feOn fePos e = true)
    (others : ∀ k, k ≠ e → s.feOn fePos k = false) (agree : ∀ n, s.trkLive e n = true → s.trkOff e n = false) :
    does .xcheckSnapshot s fun t =>
      (∀ n, s.trkLive e n = true → t.fe (feCh n) e = { s.fe (feCh n) e with disagree := 0, valid := true }) ∧
      t = { s with pos := t.pos } := by
  obtain ⟨snap, seen⟩ := compared_snap e s
  generalize compared : (s.eachCh fun n s => trkCompare e n s) = v at snap seen
  have none : offTrk e v = [] := by
    rw [offTrk, List.filter_eq_nil_iff]
    intro n valid
    rw [snap.trkOff, agree n ((snap.trkLive n).symm.trans (mem_validTrk.1 valid).1)]
    decide
  have checked := xcheckEnc_agrees compared none
  have still : fretsFollow (fun _ => true) s (v.modEnc e fun x => { x with xpend := false }) = v.modEnc e fun x => { x with xpend := false } := by
    have counts : CountsKept v (v.modEnc e fun x => { x with xpend := false }) := .modEnc v e rfl
    have cnt (k : Fin 4) := (counts.posCnt k).trans (snap.posCnt k)
    exact fretsFollow_still cnt fun _ => posPairCnt_congr (snap.word _) (snap.word _) snap.tick (snap.pairOf _) cnt fun k => by
      rw [State.fe_modEnc, snap.fePos_eq]
      exact ⟨rfl, rfl⟩
  have answer := xcheckSnapshot_one on own others checked fun k hk => (snap.feOn_pos k).trans (others k hk)
  rw [still] at answer
  refine does_of answer ⟨fun n live => ?_, by rw [snap.rest]; rfl⟩
  rw [State.fe_modEnc, seen, State.trkSeen, live, agree n live]
  rfl

/-! ### A tracker fails -/

theorem posLost_frame (n : Fin 16) (s : State) : RaiseFrame s (posLost n s) := by
  unfold posLost
  split
  · exact (RaiseFrame.raiseCh s n (by decide)).trans (.hold _ n 2)
  · exact .refl s

end Sys2Proof.Machine

namespace Sys2Proof.Machine

/-- The tracker of channel n is marked failed. -/
def trkFailed (e : Fin 4) (n : Fin 16) (s : State) : State :=
  s.modFe (feCh n) e fun f => { f with failed := true, valid := false, disagree := 0 }

/-- What follows as a tracker fails, its bit in TRKFAIL set, is the event and the hold of its channel. -/
theorem failTracker_frame (e : Fin 4) (n : Fin 16) (s : State) :
    RaiseFrame ((trkFailed e n s).put (F.POS_XSTAT_TRKFAIL.bit n) 1) (failTracker e n s) :=
  (RaiseFrame.raise _ (by decide)).trans (posLost_frame n _)

theorem failTracker_pos (e : Fin 4) (n : Fin 16) (s : State) : (failTracker e n s).pos = (trkFailed e n s).pos :=
  (failTracker_frame e n s).pos

/-- A register of POS beside POS_XSTAT stays as a tracker fails. -/
theorem failTracker_word (e : Fin 4) (n : Fin 16) (s : State) {a : Nat} (q : quiet a = true) (out : a ≠ A.POS_XSTAT) :
    (failTracker e n s).word a = s.word a := by
  rw [(failTracker_frame e n s).word a q, State.word_put_ne _ _ (by exact out)]
  rfl

theorem failTracker_posCnt (e : Fin 4) (n : Fin 16) (s : State) (k : Fin 4) : (failTracker e n s).posCnt k = s.posCnt k := by
  have counts : CountsKept (trkFailed e n s) (failTracker e n s) := .of_pos (failTracker_pos e n s)
  rw [counts.posCnt, trkFailed, State.posCnt_modFe s _ e (by exact fun _ => rfl)]

theorem failTracker_flag (e : Fin 4) (n : Fin 16) (s : State) : (failTracker e n s).flag (F.POS_XSTAT_TRKFAIL.bit n) = true := by
  rw [(failTracker_frame e n s).flag (by show quiet A.POS_XSTAT = true; decide +kernel)]
  exact State.flag_put_one _ (by simp only [Fld.bit, F.POS_XSTAT_TRKFAIL]; omega) Nat.one_pos

theorem failTracker_raises (e : Fin 4) (n : Fin 16) (s : State) : raises 58 s (failTracker e n s) := fun host =>
  (posLost_frame n _).pend 58 (by decide) (raise_pending _ (by decide) (by
    rw [State.domOn_zero_of_word, host]
    exact State.word_put_ne _ _ (by show A.SYS_DOMSTAT_LO ≠ A.POS_XSTAT; decide)))

theorem failTracker_calm (e : Fin 4) (n : Fin 16) (s : State) :
    calmBut [A.POS_XSTAT] { s with pos := (failTracker e n s).pos } (failTracker e n s) := by
  rw [failTracker_pos]
  have set : calmBut [A.POS_XSTAT] (trkFailed e n s) ((trkFailed e n s).put (F.POS_XSTAT_TRKFAIL.bit n) 1) :=
    Calm.put _ 1 (by simp [Fld.bit, F.POS_XSTAT_TRKFAIL])
  exact set.trans (Calm.of_frame (failTracker_frame e n s) fun a h => (quiet_of_but h).1)

/-- The front ends of POS are enabled as before where their settings and the power read as before. -/
theorem feOn_pos_of_word {s t : State} {k : Fin 4} (cfg : t.word (A.POS_ENCe_CFG k) = s.word (A.POS_ENCe_CFG k))
    (dom : t.word A.SYS_DOMSTAT_LO = s.word A.SYS_DOMSTAT_LO) : t.feOn fePos k = s.feOn fePos k := by
  have en : t.flag (F.POS_ENCe_CFG_EN k) = s.flag (F.POS_ENCe_CFG_EN k) := State.flag_of_word cfg
  have mode : t.get (F.POS_ENCe_CFG_MODE k) = s.get (F.POS_ENCe_CFG_MODE k) := State.get_of_word cfg
  have power : t.domOn 4 = s.domOn 4 := by
    rw [State.domOn, State.domState, State.get_of_word (f := domFld 4) dom]
    rfl
  simp only [State.feOn, State.encEn, en, mode, power, if_true]

/-- The one tracker that differs, where every live one but it agrees. -/
theorem offTrk_single {e : Fin 4} {s : State} {n : Fin 16} (live : s.trkLive e n = true) (valid : (s.fe (feCh n) e).valid = true)
    (off : s.trkOff e n = true) (rest : ∀ j, j ≠ n → s.trkLive e j = true → s.trkOff e j = false) : offTrk e s = [n] := by
  have one : ∀ n : Fin 16, allCh.filter (fun m => decide (m = n)) = [n] := by decide
  rw [offTrk, validTrk, List.filter_filter, ← one n]
  refine List.filter_congr fun m _ => ?_
  by_cases hm : m = n
  · simp [hm, live, valid, off]
  · cases alive : s.trkLive e m
    · simp [hm]
    · simp [hm, rest m hm alive]

/-- A tracker that has differed for XPERS snapshots, alone and with another that agrees, fails (R126). -/
theorem xcheckSnapshot_fails {s : State} {e : Fin 4} {n k : Fin 16} (on : s.domOn 4 = true) (own : s.feOn fePos e = true)
    (others : ∀ j, j ≠ e → s.feOn fePos j = false) (apart : n ≠ k) (live : s.trkLive e n = true) (live' : s.trkLive e k = true)
    (off : s.trkOff e n = true) (rest : ∀ j, j ≠ n → s.trkLive e j = true → s.trkOff e j = false)
    (valid : (s.fe (feCh n) e).valid = true) (long : s.get F.POS_XCFG_XPERS ≤ (s.fe (feCh n) e).disagree + 1) :
    does .xcheckSnapshot s fun t => (t.fe (feCh n) e).failed ∧ t.flag (F.POS_XSTAT_TRKFAIL.bit n) ∧
      (t.fe fePos e).cnt = (s.fe fePos e).cnt ∧ raises 58 s t ∧ calmBut [A.POS_XSTAT] { s with pos := t.pos } t := by
  obtain ⟨snap, seen⟩ := compared_snap e s
  generalize compared : (s.eachCh fun n s => trkCompare e n s) = v at snap seen
  have differs : v.fe (feCh n) e = { s.fe (feCh n) e with disagree := (s.fe (feCh n) e).disagree + 1 } := by
    simp only [seen, State.trkSeen, live, off, valid, Bool.not_true, Bool.false_eq_true, if_false, if_true]
  have agrees : (v.fe (feCh k) e).valid = true := by
    rw [seen, State.trkSeen, live', rest k apart.symm live']
    rfl
  have valid' : (v.fe (feCh n) e).valid = true := by rw [differs, valid]
  have single : offTrk e v = [n] := offTrk_single ((snap.trkLive n).trans live) valid' ((snap.trkOff n).trans off) fun j hj alive =>
    (snap.trkOff j).trans (rest j hj ((snap.trkLive j).symm.trans alive))
  have two : 2 ≤ (validTrk e v).length := by
    have sub : [n, k] ⊆ validTrk e v := by
      simp only [List.cons_subset, List.nil_subset, and_true, mem_validTrk, snap.trkLive]
      exact ⟨⟨live, valid'⟩, live', agrees⟩
    exact (List.subperm_of_subset (by simpa using apart) sub).length_le
  have checked := xcheckEnc_alone compared single two (by rw [snap.get, differs]; exact max_le (Nat.le_add_left ..) long)
  have word {a : Nat} (q : quiet a = true) (out : a ≠ A.POS_XSTAT) : (failTracker e n v).word a = s.word a :=
    (failTracker_word e n v q out).trans (snap.word a)
  have cnt (j : Fin 4) : (failTracker e n v).posCnt j = s.posCnt j := (failTracker_posCnt e n v j).trans (snap.posCnt j)
  have fes (i : Fin 17) (j : Fin 4) : (failTracker e n v).fe i j = (trkFailed e n v).fe i j := by
    rw [State.fe, failTracker_pos, State.fe]
  have pos (j : Fin 4) : (failTracker e n v).fe fePos j = s.fe fePos j := by
    rw [fes, trkFailed, State.fe_modFe_ne _ _ (.inl (feCh_ne n).symm), snap.fePos_eq]
  have still : fretsFollow (fun _ => true) s (failTracker e n v) = failTracker e n v := by
    refine fretsFollow_still cnt fun _ => posPairCnt_congr (word (by decide +kernel) (by decide)) (word (by decide +kernel) (by decide))
      ((failTracker_frame e n v).tick.trans snap.tick) ?_ cnt fun j => by rw [pos]; exact ⟨rfl, rfl⟩
    rw [State.pairOf, failTracker_pos]
    exact snap.pairOf _
  have answer := xcheckSnapshot_one on own others checked fun j hj => (feOn_pos_of_word
    (word (quiet_pos (by simp only [A.POS_ENCe_CFG]; omega) (by simp only [A.POS_ENCe_CFG]; omega))
      (by simp only [A.POS_ENCe_CFG, A.POS_XSTAT]; omega)) (word (by decide +kernel) (by decide))).trans (others j hj)
  rw [still] at answer
  refine does_of answer ⟨?_, failTracker_flag e n v, by rw [pos], fun host => failTracker_raises e n v ?_, ?_⟩
  · rw [fes, trkFailed, State.fe_modFe_same]
  · rw [State.domOn_zero_of_word (snap.word _), host]
  · exact snap.withPos _ ▸ failTracker_calm e n v

/-- Settles O20: where every live tracker agrees they become valid; one that differs alone for long enough fails. -/
theorem trackersAreCrossChecked : Obligations.TrackersAreCrossChecked := by
  unfold Obligations.TrackersAreCrossChecked
  simp only [Bool.not_eq_true']
  exact fun s e on own others => ⟨xcheckSnapshot_validates on own others, fun n k apart live live' off rest valid long =>
    xcheckSnapshot_fails on own others apart live live' off rest valid long⟩

end Sys2Proof.Machine

namespace Sys2Proof.Machine

/-! ### Compare values and arming (R134) -/

theorem fretCmpLoWrite_stages {s : State} {m : Master} {f : Fin 64} (v : Word) (reach : s.reaches m (A.POS_FRETf_CMP_LO f) = true) :
    does (.fretCmpLoWrite m f v) s fun t => t.pos.fretStage.get f = v ∧ t.fretCmp f = s.fretCmp f ∧ t = { s with pos := t.pos } := by
  have answer : exec (.fretCmpLoWrite m f v) s = .next (fretCmpLo f v s) := congrArg Host.Outcome.next (State.wr_reaches reach)
  exact does_of answer ⟨vget_set_same .., rfl, rfl⟩

/-- With the high word both words of CMP take effect. -/
theorem fretCmpHiWrite_loads {s : State} {m : Master} {f : Fin 64} (v : Word) (reach : s.reaches m (A.POS_FRETf_CMP_HI f) = true) :
    does (.fretCmpHiWrite m f v) s fun t =>
      t.fretCmp f = BitVec.ofNat 48 ((s.pos.fretStage.get f).toNat + 2 ^ 32 * (v.toNat % 65536)) ∧
      onlyAt [A.POS_FRETf_CMP_LO f, A.POS_FRETf_CMP_HI f] s t := by
  have answer : exec (.fretCmpHiWrite m f v) s = .next (fretCmpHi f v s) := congrArg Host.Outcome.next (State.wr_reaches reach)
  have apart : A.POS_FRETf_CMP_LO f ≠ A.POS_FRETf_CMP_HI f := by simp only [A.POS_FRETf_CMP_LO, A.POS_FRETf_CMP_HI]; omega
  have low : (fretCmpHi f v s).word (A.POS_FRETf_CMP_LO f) = s.pos.fretStage.get f := by
    rw [fretCmpHi, State.word_put_ne _ _ (by exact apart), State.word_setWord_same]
  have high : getBits ((fretCmpHi f v s).word (A.POS_FRETf_CMP_HI f)) 0 16 = v.toNat % 65536 :=
    State.get_put_same _ _ (f := F.POS_FRETf_CMP_HI_CMP_H f) (by simp [F.POS_FRETf_CMP_HI_CMP_H])
  have full : getBits (s.pos.fretStage.get f) 0 32 = (s.pos.fretStage.get f).toNat := by
    rw [getBits_eq, pow_zero, Nat.div_one]
    exact Nat.mod_eq_of_lt (s.pos.fretStage.get f).isLt
  refine does_of answer ⟨?_, .trans (.setWord s _ (.head _)) (.setWord _ _ (.tail _ (.head _)))⟩
  rw [State.fretCmp, State.pair48, low, high, full]

/-! ### A fret is hit (R132, R133) -/

/-- One count forward onto the compare value is a forward crossing. -/
theorem crosses_next (p : BitVec 48) : crosses p (p + 1) (p + 1) 0 = some true := by
  have one : cntDiff (p + 1) p = 1 := by
    have step : p + 1 - p = 1 := by rw [BitVec.add_comm, BitVec.add_sub_cancel]
    rw [cntDiff, step]
    rfl
  simp only [crosses, one]
  rfl

/-- With EVT a match sets the fret's bit and raises FRET, and its commit strobe leaves all but the capo engine. -/
theorem fretActs_hit {f : Nat} {s : State} (evt : s.flag (F.POS_FRETf_CTRL_EVT f) = true)
    (page : s.flag (F.POS_FRETf_CTRL_PAGE f) = false) (fwd : Bool) : ∃ c, fretActs f fwd s = { (s.put (hitFld f) 1).raise 60 with capo := c } := by
  have hit : fretHit f s = (s.put (hitFld f) 1).raise 60 := if_pos evt
  unfold fretActs
  simp only [page, hit, Bool.false_eq_true, if_false]
  split
  · exact ⟨_, capoCond_eq 3 f _⟩
  · exact ⟨_, rfl⟩

/-- What a match with EVT, with no page mark and no reload does. -/
structure Hit (f : Nat) (s t : State) : Prop where
  pos : t.pos = s.pos
  word : ∀ a, 0x40000 ≤ a → a < 0x50000 → a ≠ A.POS_FRETHIT_LO → a ≠ A.POS_FRETHIT_HI → a ≠ A.POS_FRETf_CTRL f → t.word a = s.word a
  arm : t.flag (F.POS_FRETf_CTRL_ARM f) = false
  shown : t.flag (hitFld f) = true
  told : raises 60 s t

theorem fretMatch_hits {f : Nat} {s : State} (known : f < 64) (evt : s.flag (F.POS_FRETf_CTRL_EVT f) = true)
    (page : s.flag (F.POS_FRETf_CTRL_PAGE f) = false) (once : s.flag (F.POS_FRETf_CTRL_RELOAD f) = false) (fwd : Bool) :
    Hit f s (fretMatch f fwd s) := by
  obtain ⟨c, acts⟩ := fretActs_hit evt page fwd
  have meaning : fretMatch f fwd s = ({ (s.put (hitFld f) 1).raise 60 with capo := c } : State).put (F.POS_FRETf_CTRL_ARM f) 0 := by
    rw [fretMatch_eq, once, if_neg (fun h => Bool.false_ne_true h.1), acts]
  have frame := RaiseFrame.raise (s.put (hitFld f) 1) (e := 60) (by decide)
  have ctrl : (F.POS_FRETf_CTRL_ARM f).addr = 0x4100C + f * 0x10 := rfl
  have hits : (hitFld f).addr = 0x40300 ∨ (hitFld f).addr = 0x40304 := hitFld_addr f
  rw [meaning]
  refine ⟨frame.pos, fun a lo hi low high own => ?_, ?_, ?_, fun host => ?_⟩
  · rw [State.word_put_ne _ _ (by exact own)]
    refine (frame.word a (quiet_pos lo hi)).trans (State.word_put_ne _ _ ?_)
    rcases hitFld_addr f with h | h <;> rw [h] <;> assumption
  · exact State.flag_put_zero _ (by simp [F.POS_FRETf_CTRL_ARM])
  · rw [State.flag_put_ne _ _ (by omega)]
    refine (frame.flag (f := hitFld f) (quiet_pos (by omega) (by omega))).trans ?_
    exact State.flag_put_one _ (hitFld_fits known).1 (hitFld_fits known).2
  · rw [State.flag_put_ne _ _ (pend_apart (by decide) (by omega))]
    refine raise_pending _ (by decide) ?_
    rw [State.domOn_zero_of_word, host]
    refine State.word_put_ne _ _ (fun h => ?_)
    have : A.SYS_DOMSTAT_LO < 0x40000 := by decide
    omega

/-- An armed fret whose source is healthy and makes a crossing in its direction matches. -/
theorem fretTurn_hits {s v : State} {e : Fin 4} {f : Nat} (arm : v.flag (F.POS_FRETf_CTRL_ARM f) = true)
    (src : v.get (F.POS_FRETf_CTRL_SRC f) = e.val) (healthy : v.encFaulty e = false) {fwd : Bool}
    (cross : crosses (s.posCnt e) (v.posCnt e) (v.fretCmp f) (v.get (F.POS_FRETf_CTRL_DIR f)) = some fwd) :
    fretTurn (fun _ => true) s v v f = fretMatch f fwd v := by
  have enc : encOfSrc e.val = some e := encOfSrc_lt e.isLt
  have able : v.flag (F.POS_FRETf_CTRL_ARM f) ∧ e.val < 5 ∧ (e.val = 4 → v.pairEn) ∧ (fun _ : Nat => true) e.val ∧
      ¬ v.srcFaulty e.val := by
    simp only [State.srcFaulty, enc, arm, healthy]
    exact ⟨trivial, by omega, by omega, trivial, Bool.false_ne_true⟩
  unfold fretTurn
  dsimp only
  rw [src, if_pos able]
  simp only [State.srcCnt, enc, cross]

/-- Fret f, armed forward on the healthy encoder e with EVT, neither reloading nor marking pages, stands one count ahead. -/
structure Aimed (f : Fin 64) (e : Fin 4) (s : State) : Prop where
  arm : s.flag (F.POS_FRETf_CTRL_ARM f) = true
  src : s.get (F.POS_FRETf_CTRL_SRC f) = e.val
  evt : s.flag (F.POS_FRETf_CTRL_EVT f) = true
  once : s.flag (F.POS_FRETf_CTRL_RELOAD f) = false
  page : s.flag (F.POS_FRETf_CTRL_PAGE f) = false
  dir : s.get (F.POS_FRETf_CTRL_DIR f) = 0
  healthy : s.encFaulty e = false
  cmp : s.fretCmp f = (s.fe fePos e).cnt + 1

/-- POS's front end has counted on to g, and POS has tallied that in v. -/
structure Tallied (e : Fin 4) (g : EncFe) (s v : State) : Prop where
  only : posAt [A.POS_ENCe_PERIOD e, A.POS_ENCe_SPD e] s v
  counts : CountsKept (s.modFe fePos e fun _ => g) v

theorem posTally_tallied (e : Fin 4) (g : EncFe) (s : State) : Tallied e g s (posTally e s (s.modFe fePos e fun _ => g)) :=
  ⟨.trans (.of_pos _ rfl) (posTally_only e s _), posTally_counts e s _⟩

namespace Tallied

variable {s v : State} {e : Fin 4} {g : EncFe} {f : Fin 64}

/-- Registers beside those of the encoders read as before. -/
theorem word (h : Tallied e g s v) {a : Nat} (far : 0x40200 ≤ a) : v.word a = s.word a :=
  h.only.word (by simp only [A.POS_ENCe_PERIOD, A.POS_ENCe_SPD, List.mem_cons, List.not_mem_nil, or_false]; omega)

theorem ctrl (h : Tallied e g s v) (k : Nat) : v.word (A.POS_FRETf_CTRL k) = s.word (A.POS_FRETf_CTRL k) :=
  h.word (by simp only [A.POS_FRETf_CTRL]; omega)

theorem fe (h : Tallied e g s v) : v.fe fePos e = g := by rw [h.counts.fe, State.fe_modFe_same]

theorem posCnt_ne (h : Tallied e g s v) {k : Fin 4} (hk : k ≠ e) : v.posCnt k = s.posCnt k :=
  (h.counts.posCnt k).trans (((SampleOf.refl e s).modFe fePos _).posCnt_ne hk)

theorem posCnt (h : Tallied e g s v) (plain : Plain s e) : v.posCnt e = g.cnt := by
  rw [h.counts.posCnt, ((SampleOf.refl e s).modFe fePos _).posCnt plain.sub, State.fe_modFe_same]

/-- The fret that stands one count ahead is hit by the count. -/
theorem hit (h : Tallied e g s v) (aimed : Aimed f e s) : Hit f v (fretMatch f true v) :=
  fretMatch_hits f.isLt ((State.flag_of_word (h.ctrl f)).trans aimed.evt) ((State.flag_of_word (h.ctrl f)).trans aimed.page)
    ((State.flag_of_word (h.ctrl f)).trans aimed.once) true

theorem fretTurn_own (h : Tallied e g s v) (plain : Plain s e) (aimed : Aimed f e s) (cnt : g.cnt = (s.fe fePos e).cnt + 1) :
    fretTurn (fun _ => true) s v v f = fretMatch f true v := by
  have cmp : v.fretCmp f = s.fretCmp f := by
    simp only [State.fretCmp, State.pair, h.word (show 0x40200 ≤ A.POS_FRETf_CMP_LO f by simp only [A.POS_FRETf_CMP_LO]; omega),
      h.word (show 0x40200 ≤ A.POS_FRETf_CMP_HI f by simp only [A.POS_FRETf_CMP_HI]; omega)]
  have dir : v.get (F.POS_FRETf_CTRL_DIR f) = 0 := (State.get_of_word (h.ctrl f)).trans aimed.dir
  have healthy : v.encFaulty e = false :=
    (h.only.flag (by simp [F.POS_ENCe_STAT_FAULT, A.POS_ENCe_STAT, A.POS_ENCe_PERIOD, A.POS_ENCe_SPD])).trans aimed.healthy
  refine fretTurn_hits ((State.flag_of_word (h.ctrl f)).trans aimed.arm) ((State.get_of_word (h.ctrl f)).trans aimed.src) healthy ?_
  rw [posCnt_own plain.sub, h.posCnt plain, cnt, cmp, aimed.cmp, dir, crosses_next]

/-- It alone matches. -/
theorem frets (h : Tallied e g s v) (bare : Bare s e (fun k => k == f.val)) (aimed : Aimed f e s)
    (cnt : g.cnt = (s.fe fePos e).cnt + 1) : fretsFollow (fun _ => true) s v = fretMatch f true v := by
  have off : v.pairEn = false := (State.pairEn_of_word (h.word (by decide))).trans bare.off
  have other {w : State} {k : Nat} (known : k < 64) (hk : k ≠ f.val) (ctrl : w.word (A.POS_FRETf_CTRL k) = v.word (A.POS_FRETf_CTRL k)) :
      fretTurn (fun _ => true) s v w k = w := by
    have same := ctrl.trans (h.ctrl k)
    refine fretTurn_apart (fun j hj => h.posCnt_ne hj) off fun arm => ?_
    rw [State.flag_of_word (f := F.POS_FRETf_CTRL_ARM k) same] at arm
    rw [State.get_of_word (f := F.POS_FRETf_CTRL_SRC k) same]
    exact bare.frets k known (by simpa using hk) arm
  rw [fretsFollow_eq]
  refine foldl_once (List.mem_range.2 f.isLt) List.nodup_range (fun k hk ne => other (List.mem_range.1 hk) ne rfl)
    (h.fretTurn_own bare.toPlain aimed cnt) fun k hk ne => other (List.mem_range.1 hk) ne ((h.hit aimed).word _ ?_ ?_ ?_ ?_ ?_)
  all_goals
    have := List.mem_range.1 hk
    simp only [A.POS_FRETf_CTRL, A.POS_FRETHIT_LO, A.POS_FRETHIT_HI]
    omega

/-- No emulation output follows. -/
theorem outputs (h : Tallied e g s v) (plain : Plain s e) (aimed : Aimed f e s) :
    emuFollow s (s.modFe fePos e fun _ => g) (fretMatch f true v) = fretMatch f true v := by
  refine emuFollow_plain plain ((SampleOf.refl e s).modFe fePos _) fun m => ?_
  have cfg : A.POS_EMUm_CFG m = 0x40400 + m * 0x20 := rfl
  have ctrl : A.POS_FRETf_CTRL f = 0x4100C + f * 0x10 := rfl
  have hits : A.POS_FRETHIT_LO = 0x40300 ∧ A.POS_FRETHIT_HI = 0x40304 := ⟨rfl, rfl⟩
  rw [(h.hit aimed).word _ (by omega) (by omega) (by omega) (by omega) (by omega), h.word (by omega)]

end Tallied

/-- A rises in a settled encoder with B low: POS's front end counts one forward (R110, R113). -/
theorem encoderTransition_rises {s : State} {e : Fin 4} {p : Nat → Bool} (bare : Bare s e p) (filt : s.get (F.POS_ENCe_CFG_FILT e) = 0)
    (settled : (s.fe fePos e).settled = true) (inv : s.flag (F.POS_ENCe_CFG_DIRINV e) = false) (a : (s.fe fePos e).a.acc = false)
    (b : (s.fe fePos e).b.acc = false) :
    ∃ g, exec (.encoderTransition e true false (s.fe fePos e).z.acc (1#17 <<< 16)) s = .next (posFollow e s (s.modFe fePos e fun _ => g)) ∧
      g.cnt = (s.fe fePos e).cnt + 1 ∧ g.z.acc = (s.fe fePos e).z.acc := by
  obtain ⟨ra, rb, rz⟩ := settled_lines settled
  have count : countOf (s.get (F.POS_ENCe_CFG_MODE e)) (s.fe fePos e).a.acc (s.fe fePos e).b.acc true (s.fe fePos e).b.acc = (1, false) := by
    rw [bare.mode, a, b, countOf_riseA]
    rfl
  obtain ⟨g, taken, -, -, gz, gc⟩ :=
    feTake_clean (a := ⟨true, true, s.tick⟩) (b := (s.fe fePos e).b) (z := (s.fe fePos e).z) bare.toPlain count
  have sampled : feSample fePos e true false (s.fe fePos e).z.acc s = s.modFe fePos e fun _ => g := by
    simp only [feSample, filt, sigSample_unfiltered ra, sigSample_unfiltered rb, sigSample_unfiltered rz, a, b, if_true,
      Bool.true_eq_false, if_false]
    exact taken
  refine ⟨g, ?_, by rw [gc, inv]; rfl, by rw [gz]⟩
  show Host.Outcome.next (withEmu e (onFrontEnds (1#17 <<< 16) fun i s' => feSample i e true false (s.fe fePos e).z.acc s') s) = _
  rw [withEmu_plain bare.toPlain, onFrontEnds_pos, sampled]

/-- A count that reaches the compare value of the armed fret hits it (R132, R133). -/
theorem encoderTransition_hits {s : State} {e : Fin 4} {f : Fin 64} (bare : Bare s e (fun k => k == f.val))
    (filt : s.get (F.POS_ENCe_CFG_FILT e) = 0) (settled : (s.fe fePos e).settled = true) (aimed : Aimed f e s)
    (inv : s.flag (F.POS_ENCe_CFG_DIRINV e) = false) (a : (s.fe fePos e).a.acc = false) (b : (s.fe fePos e).b.acc = false) :
    does (.encoderTransition e true false (s.fe fePos e).z.acc (1#17 <<< 16)) s fun t => (t.fe fePos e).cnt = s.fretCmp f ∧
      t.flag (F.POS_FRETf_CTRL_ARM f) = false ∧ t.flag (hitFld f) ∧ raises 60 s t := by
  obtain ⟨g, answer, cnt, z⟩ := encoderTransition_rises bare filt settled inv a b
  have tallied := posTally_tallied e g s
  have hit := tallied.hit aimed
  rw [posFollow_bare bare z, tallied.frets bare aimed cnt, tallied.outputs bare.toPlain aimed] at answer
  refine does_of answer ⟨?_, hit.arm, hit.shown, fun host => hit.told ?_⟩
  · rw [State.fe, hit.pos, ← State.fe, tallied.fe, cnt, aimed.cmp]
  · rw [State.domOn_zero_of_word (tallied.only.word ?_), host]
    simp only [A.SYS_DOMSTAT_LO, A.POS_ENCe_PERIOD, A.POS_ENCe_SPD, List.mem_cons, List.not_mem_nil, or_false]
    omega

/-! ### One count of an emulation output (R136 to R138) -/

/-- Only the position block changes and what leaves the block, and of output k not when it last counted. -/
structure EmuOut (k : Fin 4) (s t : State) : Prop where
  rest : t = { s with pos := t.pos, out := t.out }
  out : s.out ⊆ t.out
  last : (t.emuOf k).lastTick = (s.emuOf k).lastTick

namespace EmuOut

variable {k : Fin 4} {s t u : State}

theorem refl (k : Fin 4) (s : State) : EmuOut k s s := ⟨rfl, fun _ m => m, rfl⟩
theorem trans (h : EmuOut k s t) (g : EmuOut k t u) : EmuOut k s u :=
  ⟨by rw [g.rest, h.rest], fun _ m => g.out (h.out m), g.last.trans h.last⟩

theorem ite {c : Prop} [Decidable c] (h : EmuOut k s t) (g : EmuOut k s u) : EmuOut k s (if c then t else u) := by
  split
  · exact h
  · exact g

theorem modEmu (s : State) {f : Emu → Emu} (keep : (f (s.emuOf k)).lastTick = (s.emuOf k).lastTick) : EmuOut k s (s.modEmu k f) :=
  ⟨rfl, fun _ m => m, by rw [State.emuOf_modEmu_same, keep]⟩

theorem emit (s : State) (o : Output) : EmuOut k s (s.emit o) := ⟨rfl, fun _ m => .tail _ m, rfl⟩

/-- Z after a count: its level, and its pulse. -/
theorem emuZ (k : Fin 4) (s : State) : EmuOut k s (emuZ k s) := by
  unfold Machine.emuZ
  dsimp only
  refine .trans (.ite (.modEmu s ?_) (.ite (.modEmu s ?_) (.modEmu s ?_))) (.ite (.emit _ _) (.refl k _))
  all_goals rfl

end EmuOut

/-- A backlog read as two's complement moves one towards 0: its sign, and its new code. -/
theorem backlog_step {b : Nat} (range : b < 2 ^ 16) (some : b ≠ 0) :
    (b < 32768 → 0 < toSigned 16 b ∧ ofSigned 16 (toSigned 16 b - (toSigned 16 b).sign) = b - 1) ∧
    (32768 ≤ b → toSigned 16 b < 0 ∧ ofSigned 16 (toSigned 16 b - (toSigned 16 b).sign) = (b + 1) % 65536) := by
  have code : b % 2 ^ 16 = b := Nat.mod_eq_of_lt range
  refine ⟨fun low => ?_, fun high => ?_⟩
  · have value : toSigned 16 b = b := by rw [toSigned, code, if_pos (by omega)]
    have pos : 0 < toSigned 16 b := by omega
    refine ⟨pos, ?_⟩
    rw [Int.sign_eq_one_of_pos pos, value, ofSigned]
    omega
  · have value : toSigned 16 b = (b : Int) - 65536 := by rw [toSigned, code, if_neg (by omega)]; rfl
    have neg : toSigned 16 b < 0 := by omega
    refine ⟨neg, ?_⟩
    rw [Int.sign_eq_neg_one_of_neg neg, value, ofSigned]
    omega

/-- The count of output k with its new backlog, in one direction, before its Z. -/
def emuCounted (k : Fin 4) (up : Bool) (back : Nat) (s : State) : State :=
  ((s.put (F.POS_EMUm_STAT_BACKLOG k) back).modEmu k fun x =>
    { x with out := x.out + (if up then 1 else -1), lastTick := s.tick }).emit (.emu k.val up)

theorem emuZ_emuCounted (k : Fin 4) (up : Bool) {back : Nat} (range : back < 2 ^ 16) (s : State) :
    (emuZ k (emuCounted k up back s)).get (F.POS_EMUm_STAT_BACKLOG k) = back ∧ .emu k.val up ∈ (emuZ k (emuCounted k up back s)).out ∧
    ((emuZ k (emuCounted k up back s)).emuOf k).lastTick = s.tick ∧
    onlyAt [A.POS_EMUm_STAT k] { s with pos := (emuZ k (emuCounted k up back s)).pos, out := (emuZ k (emuCounted k up back s)).out }
      (emuZ k (emuCounted k up back s)) := by
  have z := EmuOut.emuZ k (emuCounted k up back s)
  have word (a : Nat) : (emuZ k (emuCounted k up back s)).word a = (s.put (F.POS_EMUm_STAT_BACKLOG k) back).word a :=
    State.word_of_bar (congrArg State.bar z.rest) a
  refine ⟨?_, z.out (.head _), ?_, by rw [z.rest]; rfl, fun a out => (word a).trans (State.word_put_ne s back fun h => out (h ▸ .head _))⟩
  · rw [State.get_of_word (word _), State.get_put_same _ _ (by simp [F.POS_EMUm_STAT_BACKLOG])]
    exact Nat.mod_eq_of_lt range
  · rw [z.last, emuCounted, (EmuOut.emit (k := k) _ _).last, State.emuOf_modEmu_same]

/-- An enabled output with a backlog counts once at its minimum spacing, its backlog one nearer to 0 (R136, R137). -/
theorem emuOutputCount_counts {s : State} {k : Fin 4} {b : Nat} (on : s.domOn 4 = true) (en : s.flag (F.POS_EMUm_CFG_EN k) = true)
    (free : s.emuHold k = false) (backlog : b = s.get (F.POS_EMUm_STAT_BACKLOG k)) (some : b ≠ 0)
    (spaced : (s.emuOf k).lastTick + s.emuGap k ≤ s.tick) : does (.emuOutputCount k) s fun t =>
      (b < 32768 → t.get (F.POS_EMUm_STAT_BACKLOG k) = b - 1 ∧ .emu k.val (!s.flag (F.POS_EMUm_CFG_DIRINV k)) ∈ t.out) ∧
      (32768 ≤ b → t.get (F.POS_EMUm_STAT_BACKLOG k) = (b + 1) % 65536 ∧ .emu k.val (s.flag (F.POS_EMUm_CFG_DIRINV k)) ∈ t.out) ∧
      (t.emuOf k).lastTick = s.tick ∧ onlyAt [A.POS_EMUm_STAT k] { s with pos := t.pos, out := t.out } t := by
  have range : b < 2 ^ 16 := backlog ▸ State.get_lt s (F.POS_EMUm_STAT_BACKLOG k)
  obtain ⟨forward, backward⟩ := backlog_step range some
  have waits : toSigned 16 b ≠ 0 := by
    by_cases low : b < 32768
    · exact (forward low).1.ne'
    · exact (backward (by omega)).1.ne
  have answer : exec (.emuOutputCount k) s = .next (emuZ k (emuCounted k
      (decide (0 < toSigned 16 b) != s.flag (F.POS_EMUm_CFG_DIRINV k)) (ofSigned 16 (toSigned 16 b - (toSigned 16 b).sign)) s)) := by
    subst backlog
    exact congrArg Host.Outcome.next (if_pos ⟨on, en, by simp [free], waits, spaced⟩)
  refine does_of answer ?_
  by_cases low : b < 32768
  · obtain ⟨pos, code⟩ := forward low
    have up : (decide (0 < toSigned 16 b) != s.flag (F.POS_EMUm_CFG_DIRINV k)) = !s.flag (F.POS_EMUm_CFG_DIRINV k) := by simp [pos]
    rw [up, code]
    obtain ⟨back, out, last, only⟩ := emuZ_emuCounted k (!s.flag (F.POS_EMUm_CFG_DIRINV k)) (back := b - 1) (by omega) s
    exact ⟨fun _ => ⟨back, out⟩, fun high => absurd low (by omega), last, only⟩
  · obtain ⟨neg, code⟩ := backward (by omega)
    have up : (decide (0 < toSigned 16 b) != s.flag (F.POS_EMUm_CFG_DIRINV k)) = s.flag (F.POS_EMUm_CFG_DIRINV k) := by
      simp [not_lt.2 neg.le]
    rw [up, code]
    obtain ⟨back, out, last, only⟩ := emuZ_emuCounted k (s.flag (F.POS_EMUm_CFG_DIRINV k)) (back := (b + 1) % 65536) (by omega) s
    exact ⟨fun h => absurd h low, fun _ => ⟨back, out⟩, last, only⟩

/-- Settles O21: the compare words, ARM and DISARM, the fret that a count hits, the count of an emulation output. -/
theorem fretsMatchAndEmulationCounts : Obligations.FretsMatchAndEmulationCounts := by
  unfold Obligations.FretsMatchAndEmulationCounts
  simp only [Bool.not_eq_true']
  refine fun s => ⟨fun m f v => ⟨fretCmpLoWrite_stages v, fretCmpHiWrite_loads v, fun reach => ?_⟩, ?_, ?_⟩
  · exact ⟨congrArg Host.Outcome.next (State.wr_reaches reach), congrArg Host.Outcome.next (State.wr_reaches reach)⟩
  · exact fun e f bare filt settled healthy arm src evt once page dir inv a b cmp =>
      encoderTransition_hits (.of_bareEnc bare) filt settled ⟨arm, src, evt, once, page, dir, healthy, cmp⟩ inv a b
  · exact fun k b on en free backlog some spaced => emuOutputCount_counts on en free backlog some spaced

end Sys2Proof.Machine

namespace Sys2Proof.Machine

/-! ## SOS events, FOLLOW pages and halt requests (R152 to R156; log 41) -/

/-! ### What every step of a reaction keeps -/

/-- A relation between states that each step of a reaction keeps: a step changes what lies outside the channels, a channel's work,
waveform or link, discards its latches, or gives up the line it has decided. -/
structure Reaction (R : State → State → Prop) : Prop where
  refl : ∀ s, R s s
  trans : ∀ {s t u}, R s t → R t u → R s u
  outside : ∀ {s t : State}, t.chans = s.chans → R s t
  work : ∀ (s : State) k g, R s (s.modWork k g)
  wav : ∀ (s : State) k g, R s (s.modWav k g)
  brg : ∀ (s : State) k g, R s (s.modBrg k g)
  unlatch : ∀ (s : State) k, R s (s.modFt k fun f => { f with latchMark := none, latchSos := none })
  cancel : ∀ k s, R s (cancelDecided k s)

namespace Reaction

variable {R : State → State → Prop} {rs : Nat → State → State}

theorem either {c : Prop} [Decidable c] {s t u : State} (h : R s t) (k : R s u) : R s (if c then t else u) := by
  split
  · exact h
  · exact k

section

variable (r : Reaction R)
include r

theorem put (s : State) (f : Fld) (v : Nat) : R s (s.put f v) := r.outside rfl
theorem emit (s : State) (o : Output) : R s (s.emit o) := r.outside rfl
theorem flt (s : State) (f : Flt) : R s { s with flt := f } := r.outside rfl
theorem heaterOff (k : Fin 16) (s : State) : R s (heaterOff k s) := r.outside rfl
theorem stopAxis (a : Fin 4) (s : State) : R s (stopAxis a s) := r.outside rfl

theorem foldl {α : Type} (l : List α) (g : State → α → State) (h : ∀ s a, R s (g s a)) (s : State) : R s (l.foldl g s) := by
  induction l generalizing s with
  | nil => exact r.refl s
  | cons a l ih => exact r.trans (h s a) (ih _)

theorem eachCh (s : State) (g : Fin 16 → State → State) (h : ∀ k s, R s (g k s)) : R s (s.eachCh g) := r.foldl _ _ (fun s k => h k s) s

theorem enterHeld (k : Fin 16) (s : State) : R s (enterHeld k s) := r.trans (r.trans (r.put s _ 2) (r.put _ _ 3)) (r.unlatch _ k)

theorem dropHpen (k : Fin 16) (s : State) : R s (dropHpen k s) := either (r.trans (r.brg s k _) (r.put _ _ 0)) (r.refl s)

theorem noteHalted (k : Fin 16) (s : State) : R s (noteHalted k s) := by
  unfold Machine.noteHalted
  dsimp only
  split
  · exact r.trans (r.dropHpen k s) (r.put _ _ _)
  · exact r.dropHpen k s

theorem startFlush (w : Bool) (s : State) : R s (startFlush w s) := by
  have marks (u : State) : R u (clearMarks u) := by
    obtain ⟨j, same⟩ := clearMarks_eq u
    exact r.outside (by rw [same])
  have under (u : State) (x : Option (Nat × Bool)) : R u { u with pwr := { u.pwr with flush := x } } := r.outside rfl
  unfold Machine.startFlush
  split
  · exact under s _
  · exact r.trans (r.trans (under s _) (marks _)) (r.eachCh _ _ fun k u => r.put u _ 0)

end

section

variable (r : Reaction R) (hrs : ∀ e s, e < 512 → R s (rs e s))
include r hrs

theorem showCause (k : Fin 16) (c : Nat) (s : State) : R s (showCause rs k c s) :=
  either (r.refl s) (r.trans (r.put s _ c) (hrs _ _ (RaiseFrame.chEvt_lt k (by decide))))

theorem holdWith (k : Fin 16) (c : Nat) (s : State) : R s (holdWith rs k c s) := by
  unfold Machine.holdWith
  dsimp only
  refine either ?_ (either (r.trans (r.work s k _) (r.showCause hrs k _ _)) (r.refl s))
  refine r.trans ?_ (hrs _ _ (RaiseFrame.chEvt_lt k (by decide)))
  exact r.trans (r.trans (r.enterHeld k s) (r.work _ k _)) (r.put _ _ _)

theorem partialPending (k : Fin 16) (q l : Nat) (s : State) : R s (partialPending rs k q l s) := by
  unfold Machine.partialPending
  dsimp only
  refine r.trans ?_ (r.trans (hrs _ _ (RaiseFrame.chEvt_lt k (by decide))) (r.holdWith hrs k 3 _))
  have counted : R s (modBand k q (fun b => { b with npart := b.npart + 1, hadPart := true })
      (((s.put (F.CHn_LED_PSEQ_SEQ k) q).put (F.CHn_LED_PLINE_LINE k) l).put (F.CHn_LED_PLINE_PEND k) 1)) :=
    r.trans (r.trans (r.put s _ q) (r.put _ _ l)) (r.trans (r.put _ _ 1) (r.work _ k _))
  refine r.trans counted ?_
  split
  · exact r.work _ k _
  · exact r.refl _

theorem cutWindow (k : Fin 16) (s : State) : R s (cutWindow rs k s) := by
  unfold Machine.cutWindow
  split
  · refine r.trans ?_ (r.partialPending hrs k _ _ _)
    exact r.trans (r.trans (r.put s _ 1) (r.put _ _ 1)) (r.trans (r.wav _ k _) (r.emit _ _))
  · exact r.refl s

theorem inhibitWith (c : Nat) (k : Fin 16) (s : State) : R s (inhibitWith rs c k s) := by
  unfold Machine.inhibitWith
  refine r.trans ?_ (r.holdWith hrs k c _)
  exact r.trans (r.trans (r.cutWindow hrs k s) (r.cancel k _)) (either (r.refl _) (r.noteHalted k _))

theorem safeWith (c : Fld) (s : State) : R s (safeWith rs c s) := by
  unfold Machine.safeWith
  dsimp only
  refine either (r.put s c 1) (r.trans ?_ (r.startFlush false _))
  refine r.trans ?_ (hrs _ _ (by decide))
  refine r.trans ?_ (r.foldl _ _ (fun u a => either (r.stopAxis a u) (r.refl u)) _)
  refine r.trans ?_ (r.eachCh _ _ fun k u => r.trans (r.inhibitWith hrs 2 k u) (r.heaterOff k _))
  exact r.trans (r.trans (r.put s _ 1) (r.put _ c 1)) (either (r.put _ _ 0) (r.refl _))

theorem reactTo (e v : Nat) (s : State) : R s (reactTo rs e v s) := by
  unfold Machine.reactTo
  split
  · exact r.refl s
  · refine either (r.trans (r.flt s _) (r.safeWith hrs _ _)) ?_
    split
    · exact r.refl s
    · exact either (r.refl s) (either (r.trans (r.flt s _) (r.holdWith hrs ..)) (either (r.trans (r.flt s _) (r.inhibitWith hrs ..)) (r.refl s)))

theorem collect (e : Nat) (s : State) : R s (collect rs e s) := by
  have noted : R s (noteHalt e s) := either (r.flt s _) (r.refl s)
  have logged (v : Nat) : R s (logRaise e v (noteHalt e s)) := r.trans noted (r.outside (Told.logRaise e v _).chans)
  exact either (r.refl s) (either (logged _)
    (r.trans (r.trans (logged _) (r.outside (Told.latchLine e _ _).chans)) (r.reactTo hrs ..)))

end

theorem raiseN (r : Reaction R) (k : Nat) : ∀ (e : Nat) (s : State), e < 512 → R s (raiseN k e s) := by
  induction k with
  | zero => exact fun e s h => r.trans (r.outside (Told.evtRaise s h).chans) (r.collect (fun _ u _ => r.refl u) e _)
  | succ k ih => exact fun e s h => r.trans (r.outside (Told.evtRaise s h).chans) (r.collect ih e _)

end Reaction

/-! ### A channel that has decided no line keeps its fire timing -/

/-- Of the fire timing of channel n only the latches differ. -/
def LatchesOnly (n : Fin 16) (s t : State) : Prop :=
  (t.ch n).ft = { (s.ch n).ft with latchMark := (t.ch n).ft.latchMark, latchSos := (t.ch n).ft.latchSos }

namespace LatchesOnly

variable {n : Fin 16} {s t u : State}

theorem of_ft (h : (t.ch n).ft = (s.ch n).ft) : LatchesOnly n s t := by rw [LatchesOnly, h]

theorem trans (h : LatchesOnly n s t) (k : LatchesOnly n t u) : LatchesOnly n s u := by
  unfold LatchesOnly at *
  rw [k, h]

theorem decided (h : LatchesOnly n s t) : (t.ch n).ft.decided = (s.ch n).ft.decided := by rw [h]
theorem sosk (h : LatchesOnly n s t) : (t.ch n).ft.sosk = (s.ch n).ft.sosk := by rw [h]

theorem unlatch (n k : Fin 16) (s : State) :
    LatchesOnly n s (s.modFt k fun f => { f with latchMark := none, latchSos := none }) := by
  by_cases own : n = k
  · subst own
    rw [LatchesOnly, State.ch_modFt_same]
  · exact of_ft (congrArg Chan.ft (State.ch_modCh_ne s _ own))

end LatchesOnly

/-- A change of a channel that leaves its fire timing. -/
theorem ft_modCh (s : State) (n k : Fin 16) {g : Chan → Chan} (own : (g (s.ch k)).ft = (s.ch k).ft) :
    ((s.modCh k g).ch n).ft = (s.ch n).ft := by
  by_cases e : n = k
  · subst e
    rw [State.ch_modCh_same, own]
  · rw [State.ch_modCh_ne s g e]

/-- A reaction gives up the line of channel n only where it has decided one. -/
theorem cancelDecided_latches (n k : Fin 16) {s : State} (none : (s.ch n).ft.decided = []) : LatchesOnly n s (cancelDecided k s) := by
  refine .of_ft ?_
  unfold cancelDecided
  split
  next d ds some =>
    have other : n ≠ k := by
      rintro rfl
      exact List.cons_ne_nil d ds (some.symm.trans none)
    refine congrArg Chan.ft ((LinesStay.restartScreen_other other _).trans ((State.put_ch ..).trans ?_))
    exact (State.ch_modCh_ne _ _ other).trans (State.ch_modCh_ne s _ other)
  next => rfl

theorem reaction_latches (n : Fin 16) : Reaction fun s t => (s.ch n).ft.decided = [] → LatchesOnly n s t where
  refl _ _ := .of_ft rfl
  trans h k none := (h none).trans (k ((h none).decided.trans none))
  outside same _ := .of_ft (by rw [State.ch, same, State.ch])
  work s k _ _ := .of_ft (ft_modCh s n k rfl)
  wav s k _ _ := .of_ft (ft_modCh s n k rfl)
  brg s k _ _ := .of_ft (ft_modCh s n k rfl)
  unlatch s k _ := .unlatch n k s
  cancel k _ none := cancelDecided_latches n k none

/-- An event that gives up no decided line of channel n leaves its fire timing but for the latches. -/
theorem raise_latches {s : State} {n : Fin 16} {e : Nat} (lt : e < 512) (spares : s.spares n e = true) : LatchesOnly n s (s.raise e) := by
  simp only [State.spares, Bool.or_eq_true, decide_eq_true_eq, List.isEmpty_iff] at spares
  obtain sev | none := spares
  · exact .of_ft (by rw [(Told.raise s lt sev).ch n])
  · exact (reaction_latches n).raiseN 6 e s lt none

/-- A channel in RUN that is halted, before HELD is raised. -/
def haltMarked (n : Fin 16) (c : Nat) (s : State) : State :=
  let s1 := addCause n c (enterHeld n s)
  s1.put (F.WRK_SCRn_STAT_HCAUSE n) (s1.causeNow n c)

theorem hold_run {s : State} {n : Fin 16} (run : s.wstate n = 1) (c : Nat) : s.hold n c = (haltMarked n c s).raise (chEvt n 2) :=
  if_pos run

theorem haltMarked_latches (n : Fin 16) (c : Nat) (s : State) : LatchesOnly n s (haltMarked n c s) := by
  have entered : LatchesOnly n s (enterHeld n s) :=
    .trans (.of_ft (t := (s.put (F.WRK_SCRn_STAT_STATE n) 2).put (F.CHn_FT_STAT_STATE n) 3) (by rw [State.put_ch, State.put_ch]))
      (.unlatch n n _)
  refine entered.trans (.of_ft ?_)
  rw [haltMarked, State.put_ch, addCause, State.ch_modWork_same]

theorem haltMarked_word (n : Fin 16) (c : Nat) (s : State) {a : Nat} (stat : a ≠ A.WRK_SCRn_STAT n) (ft : a ≠ A.CHn_FT_STAT n) :
    (haltMarked n c s).word a = s.word a := by
  have state : (s.put (F.WRK_SCRn_STAT_STATE n) 2).word a = s.word a := State.word_put_ne _ _ stat
  have held : (addCause n c (enterHeld n s)).word a = s.word a := by
    rw [addCause, State.modWork_word, enterHeld, State.modFt_word]
    exact (State.word_put_ne _ _ ft).trans state
  unfold haltMarked
  exact (State.word_put_ne _ _ stat).trans held

theorem haltMarked_sevOf (n : Fin 16) (c : Nat) (s : State) {e : Nat} (lt : e < 512) : (haltMarked n c s).sevOf e = s.sevOf e := by
  refine State.sevOf_of_word (haltMarked_word n c s ?_ ?_)
  · unfold A.FLT_SEVw A.WRK_SCRn_STAT
    omega
  · unfold A.FLT_SEVw A.CHn_FT_STAT
    omega

/-- The underrun test at most halts the channel. -/
theorem checkUnderrun_frame (n : Fin 16) (s : State) : RaiseFrame s (checkUnderrun n s) := by
  unfold checkUnderrun
  split
  · exact .hold s n 5
  · exact .refl s

/-- Where HELD spares what the channel has decided, the underrun test leaves its fire timing but for the latches. -/
theorem checkUnderrun_latches {s : State} {n : Fin 16} (spares : s.spares n (chEvt n 2) = true) :
    LatchesOnly n s (checkUnderrun n s) := by
  have lt := RaiseFrame.chEvt_lt n (k := 2) (by decide)
  have marked := haltMarked_latches n 5 s
  unfold checkUnderrun
  split
  next halt =>
    rw [hold_run halt.1]
    refine marked.trans (raise_latches lt ?_)
    rw [State.spares, haltMarked_sevOf n 5 s lt, marked.decided]
    exact spares
  next => exact .of_ft rfl

/-! ### What is screened again for an armed page -/

/-- Only channel n changes, and its fire timing does not. -/
structure AheadOnly (n : Fin 16) (s t : State) : Prop where
  only : onlyCh n s t
  ft : (t.ch n).ft = (s.ch n).ft

namespace AheadOnly

variable {n : Fin 16} {s t u : State}

theorem refl (n : Fin 16) (s : State) : AheadOnly n s s := ⟨onlyCh_refl n s, rfl⟩
theorem trans (h : AheadOnly n s t) (k : AheadOnly n t u) : AheadOnly n s u := ⟨h.only.trans k.only, k.ft.trans h.ft⟩
theorem img (s : State) (g : Img → Img) : AheadOnly n s (s.modImg n g) := ⟨onlyCh_modCh s n _, ft_modCh s n n rfl⟩
theorem dut (s : State) (g : Dut → Dut) : AheadOnly n s (s.modDut n g) := ⟨onlyCh_modCh s n _, ft_modCh s n n rfl⟩
theorem brg (s : State) (g : Brg → Brg) : AheadOnly n s (s.modBrg n g) := ⟨onlyCh_modCh s n _, ft_modCh s n n rfl⟩

theorem ite {c : Prop} [Decidable c] (h : AheadOnly n s t) (k : AheadOnly n s u) : AheadOnly n s (if c then t else u) := by
  split
  · exact h
  · exact k

theorem dropAhead (n : Fin 16) (pg : Nat) (s : State) : AheadOnly n s (dropAhead n pg s) := by
  unfold Machine.dropAhead
  dsimp only
  split
  · exact ite (ite (img s _) (refl n s)) (.trans (ite (img s _) (refl n s)) (.trans (dut _ _) (brg _ _)))
  · exact ite (img s _) (refl n s)

theorem rescreen (n : Fin 16) (back : Bool) (s : State) : AheadOnly n s (rescreen n back s) := by
  unfold Machine.rescreen
  split
  · exact refl n s
  · exact ite ((dropAhead n _ s).trans (img _ _)) (refl n s)

end AheadOnly

theorem onlyCh.toAt {n : Fin 16} {s t : State} (h : onlyCh n s t) (as : List Nat) : onlyChAt n as s t :=
  ⟨by rw [h.1], h.2, fun a _ => h.word a⟩

/-! ### The page is armed (R152, R154, R158) -/

/-- The page is armed with X at x, its direction and kind, before the underrun test. -/
structure PageArmed (n : Fin 16) (back sos : Bool) (x : BitVec 80) (s t : State) : Prop where
  armed : (t.ch n).ft.armed = true
  line : (t.ch n).ft.x = x
  kind : (t.ch n).ft.sosk = sos
  mark : (t.ch n).ft.h = printPos back (s.linePos n)
  decided : (t.ch n).ft.decided = (s.ch n).ft.decided
  count : t.get (F.CHn_FT_LINES_LINES n) = 0
  only : onlyChAt n [A.CHn_FT_STAT n, A.CHn_FT_LINES n] s t

section

variable {n : Fin 16} {back sos : Bool} {x : BitVec 80} {s t : State}

/-- Of its fire timing an armed page may yet fix the row delays. -/
theorem PageArmed.modCh (h : PageArmed n back sos x s t) {g : Chan → Chan}
    (keep : { (g (t.ch n)).ft with pageDly := (t.ch n).ft.pageDly } = (t.ch n).ft) : PageArmed n back sos x s (t.modCh n g) := by
  have own := State.ch_modCh_same t n g
  exact {
    armed := by rw [own, ← h.armed, ← keep]
    line := by rw [own, ← h.line, ← keep]
    kind := by rw [own, ← h.kind, ← keep]
    mark := by rw [own, ← h.mark, ← keep]
    decided := by rw [own, ← h.decided, ← keep]
    count := h.count
    only := h.only.trans (.modCh t n g) }

theorem PageArmed.work (h : PageArmed n back sos x s t) (g : Work → Work) : PageArmed n back sos x s (t.modWork n g) := h.modCh rfl

theorem PageArmed.delays (h : PageArmed n back sos x s t) (pg : Nat) : PageArmed n back sos x s (fixDelays n pg back t) := by
  unfold fixDelays
  exact h.modCh rfl

/-- The fire timing that arming sets, written over a state whose lines ahead are those for the page's direction. -/
theorem PageArmed.begin {r : State} (path : AheadOnly n s r) {g : Ft → Ft} (armed : (g (r.ch n).ft).armed = true)
    (line : (g (r.ch n).ft).x = x) (kind : (g (r.ch n).ft).sosk = sos) (mark : (g (r.ch n).ft).h = printPos back (s.linePos n))
    (decided : (g (r.ch n).ft).decided = (r.ch n).ft.decided) :
    PageArmed n back sos x s ((((r.put (F.CHn_FT_STAT_DIR n) (b2n back)).put (F.CHn_FT_STAT_STATE n) 2).put
      (F.CHn_FT_LINES_LINES n) 0).modFt n g) := by
  obtain ⟨only, ft⟩ := path
  have begun : ((((((r.put (F.CHn_FT_STAT_DIR n) (b2n back)).put (F.CHn_FT_STAT_STATE n) 2).put (F.CHn_FT_LINES_LINES n) 0).modFt n g).ch
      n).ft) = g (r.ch n).ft := by rw [State.ch_modFt_same, State.put_ch, State.put_ch, State.put_ch]
  have regs : onlyChAt n [A.CHn_FT_STAT n, A.CHn_FT_LINES n] r
      (((r.put (F.CHn_FT_STAT_DIR n) (b2n back)).put (F.CHn_FT_STAT_STATE n) 2).put (F.CHn_FT_LINES_LINES n) 0) :=
    .trans (.trans (.put r n _ (.head _)) (.put _ n _ (.head _))) (.put _ n _ (.tail _ (.head _)))
  have count : (((r.put (F.CHn_FT_STAT_DIR n) (b2n back)).put (F.CHn_FT_STAT_STATE n) 2).put (F.CHn_FT_LINES_LINES n) 0).get
      (F.CHn_FT_LINES_LINES n) = 0 := State.get_put_same _ 0 (Nat.le_of_ble_eq_true rfl)
  exact ⟨by rw [begun, armed], by rw [begun, line], by rw [begun, kind], by rw [begun, mark], by rw [begun, decided, ft],
    (State.modFt_get ..).trans count, ((only.toAt _).trans regs).trans (.modCh _ n _)⟩

/-- Arming fixes the page's direction, kind and row delays, sets H to q and X to line 0, and then tests for an underrun. -/
theorem armPage_arms (n : Fin 16) (back sos : Bool) (x : BitVec 80) (s : State) :
    ∃ u, armPage n back sos x s = checkUnderrun n u ∧ PageArmed n back sos x s u := by
  have path := AheadOnly.rescreen n back s
  unfold armPage
  dsimp only
  generalize rescreen n back s = r at path
  refine ⟨_, rfl, ?_⟩
  split
  · refine PageArmed.delays (PageArmed.work (PageArmed.begin path ?_ ?_ ?_ ?_ ?_) _) _
    all_goals rfl
  · refine PageArmed.begin path ?_ ?_ ?_ ?_ ?_
    all_goals rfl

/-- Over a reaction the fire timing of a channel is as before in each field but those that it touches. -/
theorem RaiseFrame.ftField {α : Type} (h : RaiseFrame s t) (n : Fin 16) (g : Ft → α)
    (indep : ∀ (f : Ft) m l d k, g { f with latchMark := m, latchSos := l, decided := d, sosk := k } = g f) :
    g (t.ch n).ft = g (s.ch n).ft :=
  (indep ..).symm.trans (congrArg g (h.ft n))

theorem quiet_ftLines (n : Fin 16) : quiet (A.CHn_FT_LINES n) = true :=
  quiet_window n (b := 0x103007C) rfl (by decide) (by decide) (by decide) (by decide) (by decide)

theorem quiet_ftCnt (n : Fin 16) : quiet (A.CHn_FT_CNT n) = true :=
  quiet_window n (b := 0x1030078) rfl (by decide) (by decide) (by decide) (by decide) (by decide)

/-- The armed page, the underrun test included. -/
theorem armPage_page (n : Fin 16) (back sos : Bool) (x : BitVec 80) (s : State) :
    ((armPage n back sos x s).ch n).ft.armed ∧ ((armPage n back sos x s).ch n).ft.x = x ∧
    ((armPage n back sos x s).ch n).ft.h = printPos back (s.linePos n) ∧
    (armPage n back sos x s).get (F.CHn_FT_LINES_LINES n) = 0 := by
  obtain ⟨u, same, page⟩ := armPage_arms n back sos x s
  have frame := checkUnderrun_frame n u
  rw [same]
  exact ⟨(frame.ftField n (·.armed) fun _ _ _ _ _ => rfl).trans page.armed, (frame.linePos n).trans page.line,
    (frame.ftField n (·.h) fun _ _ _ _ _ => rfl).trans page.mark, (frame.getAt (quiet_ftLines n) rfl).trans page.count⟩

/-- The kind of the armed page stands where HELD spares what the channel has decided. -/
theorem armPage_kind (spares : s.spares n (chEvt n 2) = true) : ((armPage n back sos x s).ch n).ft.sosk = sos := by
  obtain ⟨u, same, page⟩ := armPage_arms n back sos x s
  have sev : u.sevOf (chEvt n 2) = s.sevOf (chEvt n 2) := State.sevOf_of_word (page.only.below (fun a m => by
    simp only [List.mem_cons, List.not_mem_nil, or_false, A.CHn_FT_STAT, A.CHn_FT_LINES] at m
    omega) (by unfold A.FLT_SEVw chEvt; omega))
  rw [same, (checkUnderrun_latches (by rw [State.spares, sev, page.decided]; exact spares)).sosk, page.kind]

theorem armPage_quiet (n : Fin 16) (back sos : Bool) (x : BitVec 80) (s : State) :
    quietBut [A.CHn_FT_LINES n] s (armPage n back sos x s) := by
  obtain ⟨u, same, page⟩ := armPage_arms n back sos x s
  intro a q out
  have stat : a ≠ A.CHn_FT_STAT n := by
    rintro rfl
    simp [loud_ftStat n] at q
  rw [same, (checkUnderrun_frame n u).word a q]
  exact page.only.2.2 a fun m => out ((List.mem_cons.1 m).resolve_left stat)

/-! ### Calm but for one channel -/

/-- Two states that differ in channel n alone have the same channels once n's is set. -/
theorem chans_set_of_chBut (h : chBut n s t) (c : Chan) : t.chans.set n c = s.chans.set n c := by
  refine Vector.ext fun i lt => ?_
  rw [Vector.getElem_set, Vector.getElem_set]
  split
  · rfl
  next other => exact h ⟨i, lt⟩ fun own => other (by rw [← own])

theorem State.ch_set_same (s : State) (n : Fin 16) (c : Chan) : ({ s with chans := s.chans.set n c } : State).ch n = c := vget_set_same ..
theorem State.ch_set_ne (s : State) {n k : Fin 16} (c : Chan) (h : k ≠ n) :
    ({ s with chans := s.chans.set n c } : State).ch k = s.ch k := vget_set_ne _ _ h

/-- A calm change, seen from a state that already has channel n's outcome. -/
theorem Calm.withCh {keep : Nat → Bool} (h : Calm keep s t) (n : Fin 16) : Calm keep { s with chans := s.chans.set n (t.ch n) } t := by
  have at_ch (P : Chan → Chan → Prop) (refl : ∀ c, P c c) (rest : ∀ k, P (s.ch k) (t.ch k)) (k : Fin 16) :
      P (({ s with chans := s.chans.set n (t.ch n) } : State).ch k) (t.ch k) := by
    by_cases own : k = n
    · rw [own, State.ch_set_same]
      exact refl _
    · rw [State.ch_set_ne s _ own]
      exact rest k
  exact { h with
    img := at_ch (fun c d => { d.img with job := c.img.job, released := c.img.released, started := c.img.started } = c.img)
      (fun _ => rfl) h.img
    dut := at_ch (fun c d => { d.dut with dec := c.dut.dec } = c.dut) (fun _ => rfl) h.dut
    brg := at_ch (fun c d => { d.brg with sent := c.brg.sent, acked := c.brg.acked, retxed := c.brg.retxed,
                                          hpenHold := c.brg.hpenHold } = c.brg) (fun _ => rfl) h.brg
    iso := at_ch (fun c d => d.iso = c.iso) (fun _ => rfl) h.iso }

/-- After a change of channel n and of registers that are not kept, what is calm is calm from the start but for that channel. -/
theorem onlyChAt.calm {as : List Nat} {keep : Nat → Bool} {u : State} (h : onlyChAt n as s t) (loud : ∀ a ∈ as, keep a = false)
    (rest : Calm keep t u) : Calm keep { s with chans := s.chans.set n (u.ch n) } u := by
  obtain ⟨same, chans, regs⟩ := h
  have merged : ({ t with chans := t.chans.set n (u.ch n) } : State) = { s with bar := t.bar, chans := s.chans.set n (u.ch n) } := by
    rw [chans_set_of_chBut chans, same]
  have start : Calm keep { s with chans := s.chans.set n (u.ch n) } { s with bar := t.bar, chans := s.chans.set n (u.ch n) } :=
    { Calm.refl keep { s with chans := s.chans.set n (u.ch n) } with
      word := fun a kept => regs a fun m => by
        rw [loud a m] at kept
        exact Bool.noConfusion kept }
  exact start.trans (merged ▸ rest.withCh n)

end

/-! ### An SOS event (R153, R154) -/

/-- The sample of an SOS event that counts is noted. -/
def sosNoted (n : Fin 16) (s : State) : State := s.modFt n fun f => { f with sosTick := some s.tick }

theorem exec_sosEvent (i : Fin 8) (n : Fin 16) (s : State) : exec (.sosEvent i n) s = execSosEvent i n s := rfl

/-- An SOS event that is heard reaches its channel, which is ON and in RUN (R153). -/
theorem exec_sosEvent_heard {s : State} {i : Fin 8} {n : Fin 16} (h : s.sosHeard n i = true) :
    exec (.sosEvent i n) s = .next (sosEvent false (s.sosCapture n) n (sosNoted n s)) ∧ s.chOn n = true ∧ s.wstate n = 1 := by
  simp only [State.sosHeard, Bool.and_eq_true, beq_iff_eq, Bool.not_eq_true'] at h
  obtain ⟨⟨⟨⟨⟨on, run⟩, fwd⟩, bwd⟩, lower⟩, sample⟩ := h
  refine ⟨?_, on, run⟩
  simp only [exec_sosEvent, execSosEvent, on, fwd, bwd, lower, sample, Bool.or_false, Bool.not_false, Bool.and_self, if_true]
  rfl

theorem sosNoted_ch (n : Fin 16) (s : State) :
    (sosNoted n s).ch n = { (s.ch n) with ft := { (s.ch n).ft with sosTick := some s.tick } } := State.ch_modFt_same ..

theorem sosNoted_lines (n : Fin 16) (s : State) : SameLines n id s (sosNoted n s) where
  kept := .id
  bands := by rw [sosNoted_ch, List.map_id]
  decPage := by rw [sosNoted_ch]
  decL := by rw [sosNoted_ch]
  delay := State.maxDelay_congr rfl (fun _ _ => rfl) (by rw [sosNoted_ch]) (by rw [sosNoted_ch])
  dir := rfl

theorem sosNoted_pageOver (n : Fin 16) (s : State) : (sosNoted n s).pageOver n = s.pageOver n := (sosNoted_lines n s).pageOver rfl

theorem sosNoted_nextPageBand (n : Fin 16) (s : State) : (sosNoted n s).nextPageBand n = s.nextPageBand n := by
  simp only [State.nextPageBand, sosNoted_ch]

theorem sosNoted_readyToArm (n : Fin 16) (s : State) : (sosNoted n s).readyToArm n = s.readyToArm n := by
  have lost : (sosNoted n s).posUnavailable n = s.posUnavailable n := rfl
  have state : (sosNoted n s).wstate n = s.wstate n := rfl
  have enabled : (sosNoted n s).flag (F.CHn_FT_CTRL_FIRE_EN n) = s.flag (F.CHn_FT_CTRL_FIRE_EN n) := rfl
  simp only [State.readyToArm, lost, state, enabled, sosNoted_ch, sosNoted_pageOver, sosNoted_nextPageBand]

theorem sosNoted_armKind (n : Fin 16) (s : State) : (sosNoted n s).armKind n = s.armKind n := by
  simp only [State.armKind, sosNoted_ch, sosNoted_pageOver, sosNoted_nextPageBand]

/-- What being ready to arm says of a channel. -/
theorem State.readyToArm_parts {s : State} {n : Fin 16} (h : s.readyToArm n = true) :
    s.flag (F.CHn_FT_CTRL_FIRE_EN n) = true ∧ (s.ch n).ft.waitMark = false := by
  simp only [State.readyToArm, Bool.and_eq_true, Bool.not_eq_true'] at h
  obtain ⟨⟨⟨⟨⟨⟨⟨-, enabled⟩, -⟩, waits⟩, -⟩, -⟩, -⟩, -⟩ := h
  exact ⟨enabled, waits⟩

/-- An SOS event that a channel ready to arm waits for. -/
theorem sosEvent_ready {s : State} {n : Fin 16} (on : s.chOn n = true) (run : s.wstate n = 1) (ready : s.readyToArm n = true)
    (kind : s.armKind n = some 2) (back : Bool) (cap : BitVec 64) :
    sosEvent back cap n s = tryArm n back true (s.sosX n cap back) s := by
  obtain ⟨enabled, waits⟩ := State.readyToArm_parts ready
  simp [sosEvent, on, run, enabled, waits, ready, kind]

/-- An SOS event for a page whose kind is not yet known. -/
theorem sosEvent_early {s : State} {n : Fin 16} (on : s.chOn n = true) (run : s.wstate n = 1)
    (enabled : s.flag (F.CHn_FT_CTRL_FIRE_EN n) = true) (waits : (s.ch n).ft.waitMark = false) (kind : s.armKind n = none) (back : Bool)
    (cap : BitVec 64) : sosEvent back cap n s = s.modFt n fun f => { f with latchSos := some (cap, back) } := by
  have next : s.nextPageBand n = none := Option.map_eq_none_iff.1 kind
  have ready : s.readyToArm n = false := by simp [State.readyToArm, next]
  simp [sosEvent, latchEvent, on, run, enabled, waits, ready, kind]

/-- An SOS event is tried for the page that waits for it, with X from its capture (R152). -/
theorem exec_sosEvent_ready {s : State} {i : Fin 8} {n : Fin 16} (h : s.sosHeard n i = true) (ready : s.readyToArm n = true)
    (kind : s.armKind n = some 2) :
    exec (.sosEvent i n) s = .next (tryArm n false true (s.sosX n (s.sosCapture n) false) (sosNoted n s)) := by
  obtain ⟨meaning, on, run⟩ := exec_sosEvent_heard h
  rw [meaning, sosEvent_ready (s := sosNoted n s) on run ((sosNoted_readyToArm n s).trans ready) ((sosNoted_armKind n s).trans kind)]
  rfl

/-- The arming of a page by an SOS event (R152, R154). -/
theorem sosEvent_arms {s : State} {i : Fin 8} {n : Fin 16} {x : BitVec 80} (h : s.sosHeard n i = true)
    (ready : s.readyToArm n = true) (kind : s.armKind n = some 2) (capture : x = s.sosX n (s.sosCapture n) false)
    (ahead : reached (s.linePos n) (pos16 x) = false) (spares : s.spares n (chEvt n 2) = true) :
    does (.sosEvent i n) s fun t => (t.ch n).ft.armed ∧ (t.ch n).ft.x = x ∧ (t.ch n).ft.sosk ∧ (t.ch n).ft.h = s.linePos n ∧
      t.get (F.CHn_FT_LINES_LINES n) = 0 ∧ calmBut [A.CHn_FT_LINES n] { s with chans := s.chans.set n (t.ch n) } t := by
  have arms : tryArm n false true x (sosNoted n s) = armPage n false true x (sosNoted n s) :=
    if_neg (Bool.eq_false_iff.1 (show reached ((sosNoted n s).linePos n) (pos16 x) = false from ahead))
  have meaning := exec_sosEvent_ready h ready kind
  rw [← capture, arms] at meaning
  obtain ⟨armed, line, mark, count⟩ := armPage_page n false true x (sosNoted n s)
  have sosk : ((armPage n false true x (sosNoted n s)).ch n).ft.sosk = true :=
    armPage_kind (by rw [State.spares, sosNoted_ch]; exact spares)
  refine does_of meaning ⟨armed, line, sosk, mark, count, ?_⟩
  obtain ⟨u, same, page⟩ := armPage_arms n false true x (sosNoted n s)
  rw [same]
  refine ((onlyChAt.modCh s n _).trans page.only).calm (fun a m => ?_)
    (Calm.of_frame (checkUnderrun_frame n u) fun a kept => (quiet_of_but kept).1)
  obtain rfl | rfl : a = A.CHn_FT_STAT n ∨ a = A.CHn_FT_LINES n := by simpa using m
  · simp [loud_ftStat n]
  · simp

/-! ### A miss (R154) -/

/-- MISSCNT has counted and MISS is set, before the event is raised. -/
def missMarked (n : Fin 16) (s : State) : State := (s.bump (F.CHn_FT_CNT_MISSCNT n) 1).put (F.CHn_FT_STAT_MISS n) 1

theorem armMiss_eq (n : Fin 16) (s : State) : armMiss n s = (missMarked n s).raiseCh n 18 := rfl

theorem missMarked_count (n : Fin 16) (s : State) : bumps (F.CHn_FT_CNT_MISSCNT n) 65535 s (missMarked n s) := by
  have apart : A.CHn_FT_CNT n ≠ A.CHn_FT_STAT n := by
    unfold A.CHn_FT_CNT A.CHn_FT_STAT
    omega
  exact (State.get_put_ne _ 1 apart).trans (State.bump_one s (f := F.CHn_FT_CNT_MISSCNT n) (Nat.le_of_ble_eq_true rfl))

theorem missMarked_step (n : Fin 16) (s : State) : PathStep n s (missMarked n s) :=
  (PathStep.put s _ (b := 0x1030078) rfl (by decide)).trans (.put _ 1 (b := 0x1030060) rfl (by decide))

theorem missMarked_ch (n : Fin 16) (s : State) (k : Fin 16) : (missMarked n s).ch k = s.ch k := by
  rw [missMarked, State.put_ch, State.bump_ch]

theorem missMarked_calm (n : Fin 16) (s : State) : calmBut [A.CHn_FT_CNT n] s (missMarked n s) :=
  Calm.trans (Calm.put s _ (by simp [F.CHn_FT_CNT_MISSCNT])) (Calm.put _ 1 (by simp [F.CHn_FT_STAT_MISS, loud_ftStat n]))

/-- A miss is counted and told of, and leaves whether a page is armed. -/
theorem armMiss_misses (n : Fin 16) (s : State) : ((armMiss n s).ch n).ft.armed = (s.ch n).ft.armed ∧
    bumps (F.CHn_FT_CNT_MISSCNT n) 65535 s (armMiss n s) ∧ raises (chEvt n 18) s (armMiss n s) ∧
    calmBut [A.CHn_FT_CNT n] s (armMiss n s) := by
  have frame := RaiseFrame.raiseCh (missMarked n s) n (k := 18) (by decide)
  have armed := frame.ftField n (·.armed) fun _ _ _ _ _ => rfl
  rw [missMarked_ch] at armed
  rw [armMiss_eq]
  exact ⟨armed, (frame.getAt (quiet_ftCnt n) rfl).trans (missMarked_count n s),
    fun host => raise_pending _ (RaiseFrame.chEvt_lt n (by decide)) ((missMarked_step n s).host.trans host),
    (missMarked_calm n s).trans (Calm.of_frame frame fun a kept => (quiet_of_but kept).1)⟩

/-- An SOS event whose X is already reached (R154). -/
theorem sosEvent_misses {s : State} {i : Fin 8} {n : Fin 16} {x : BitVec 80} (h : s.sosHeard n i = true)
    (ready : s.readyToArm n = true) (kind : s.armKind n = some 2) (capture : x = s.sosX n (s.sosCapture n) false)
    (behind : reached (s.linePos n) (pos16 x) = true) : does (.sosEvent i n) s fun t => (t.ch n).ft.armed = (s.ch n).ft.armed ∧
      bumps (F.CHn_FT_CNT_MISSCNT n) 65535 s t ∧ raises (chEvt n 18) s t ∧ calmBut [A.CHn_FT_CNT n] s t := by
  have misses : tryArm n false true x (sosNoted n s) =
      armMiss n ((sosNoted n s).modFt n fun f => { f with latchMark := none, latchSos := none }) :=
    if_pos (show reached ((sosNoted n s).linePos n) (pos16 x) = true from behind)
  have meaning := exec_sosEvent_ready h ready kind
  rw [← capture, misses] at meaning
  have still : (((sosNoted n s).modFt n fun f => { f with latchMark := none, latchSos := none }).ch n).ft.armed = (s.ch n).ft.armed := by
    rw [State.ch_modFt_same, sosNoted_ch]
  obtain ⟨armed, count, told, rest⟩ := armMiss_misses n ((sosNoted n s).modFt n fun f => { f with latchMark := none, latchSos := none })
  exact does_of meaning ⟨armed.trans still, count, told, Calm.trans (Calm.trans (Calm.ft s n _) (Calm.ft _ n _)) rest⟩

/-- An SOS event is latched until the kind of the next page is known (R154). -/
theorem sosEvent_latched {s : State} {i : Fin 8} {n : Fin 16} (h : s.sosHeard n i = true)
    (enabled : s.flag (F.CHn_FT_CTRL_FIRE_EN n) = true) (waits : (s.ch n).ft.waitMark = false) (kind : s.armKind n = none) :
    does (.sosEvent i n) s fun t =>
      (t.ch n).ft = { (s.ch n).ft with latchSos := some (s.sosCapture n, false), sosTick := some s.tick } ∧ onlyCh n s t := by
  obtain ⟨meaning, on, run⟩ := exec_sosEvent_heard h
  rw [sosEvent_early (s := sosNoted n s) on run enabled (by rw [sosNoted_ch]; exact waits) ((sosNoted_armKind n s).trans kind)] at meaning
  refine does_of meaning ⟨?_, (onlyCh_modCh s n _).trans (onlyCh_modCh _ n _)⟩
  rw [State.ch_modFt_same, sosNoted_ch]

/-! ### FOLLOW pages and halt requests (R152, R155, R156) -/

theorem exec_pageArm (n : Fin 16) (s : State) : exec (.pageArm n) s = execPageArm n s := rfl

/-- With no entry committed and waiting, none applies. -/
theorem applyAll_idle {q : Nat → Bool} {s : State} (none : ∀ k, s.dueEntries k q = []) (hook : State → State → State) :
    applyAll q hook s = s := by
  unfold applyAll applyIn
  exact if_neg (by simp [none])

theorem settleFt_idle {n : Fin 16} {s : State} (none : ∀ k, s.dueEntries k (isPart (.ch n 3)) = []) : settleFt n s = s := by
  unfold settleFt
  rw [applyAll_idle none, ite_self]

/-- A FOLLOW page goes on from where X stands (R152). -/
theorem pageArm_follows {s : State} {n : Fin 16} (ready : s.readyToArm n = true)
    (none : ∀ k, s.dueEntries k (isPart (.ch n 3)) = []) (kind : s.armKind n = some 0) :
    does (.pageArm n) s fun t => (t.ch n).ft.armed ∧ (t.ch n).ft.x = (s.ch n).ft.x ∧ (t.ch n).ft.h = s.q n ∧
      t.get (F.CHn_FT_LINES_LINES n) = 0 ∧ quietBut [A.CHn_FT_LINES n] s t := by
  have meaning : exec (.pageArm n) s = .next (armPage n (s.pageDir n) false (s.ch n).ft.x s) := by
    simp only [exec_pageArm, execPageArm, settleFt_idle none, ready, kind, if_true]
  obtain ⟨armed, line, mark, count⟩ := armPage_page n (s.pageDir n) false (s.ch n).ft.x s
  exact does_of meaning ⟨armed, line, mark, count, armPage_quiet n _ _ _ s⟩

theorem exec_haltRequest {s : State} {n : Fin 16} (on : s.chOn n = true) : exec (.haltRequest n) s = .next (s.hold n 2) :=
  congrArg Host.Outcome.next (if_pos on)

/-- A channel in IDLE or RESUME_WAIT is not halted (R56). -/
theorem hold_idle {s : State} {n : Fin 16} (idle : s.wstate n = 0 ∨ s.wstate n = 3) (c : Nat) : s.hold n c = s := by
  unfold State.hold holdWith
  rw [if_neg (by omega), if_neg (by omega)]

/-- Settles O17: an SOS event arms the page that waits for it or misses, by whether its X is reached, and is latched where no next page
is known; a FOLLOW page; the halt request, whose cause is the model's choice (log 41). -/
theorem pagesArmFromTheirEvents : Obligations.PagesArmFromTheirEvents := by
  unfold Obligations.PagesArmFromTheirEvents
  simp only [Bool.not_eq_true']
  refine fun s => ⟨fun i n heard => ⟨fun ready kind x capture => ⟨sosEvent_arms heard ready kind capture,
    sosEvent_misses heard ready kind capture⟩, sosEvent_latched heard⟩, fun n b ready none _ kind => pageArm_follows ready none kind,
    fun n on => ⟨fun run => ?_, fun idle => ?_⟩⟩
  · exact does_of (exec_haltRequest on) ⟨hold_holds s n 2 (.inl run), (RaiseFrame.hold s n 2).calm⟩
  · exact (exec_haltRequest on).trans (congrArg Host.Outcome.next (hold_idle idle 2))

end Sys2Proof.Machine

namespace Sys2Proof.Machine

/-! ## Forward frames (R166, R168, R169, R171, R177; logs 43, 45, 51) -/

/-! ### A frame starts on free lanes -/

theorem exec_dataFrameSend (n : Fin 16) (s : State) : exec (.dataFrameSend n) s = execDataFrameSend n s := rfl
theorem exec_cfgFrameSend (n : Fin 16) (s : State) : exec (.cfgFrameSend n) s = execCfgFrameSend n s := rfl
theorem exec_statFrameSend (n : Fin 16) (s : State) : exec (.statFrameSend n) s = execStatFrameSend n s := rfl
theorem exec_idleFrameSend (n : Fin 16) (s : State) : exec (.idleFrameSend n) s = execIdleFrameSend n s := rfl

theorem State.mayStart_parts {s : State} {n : Fin 16} (h : s.mayStart n = true) :
    s.chOn n = true ∧ s.linkIsUp n = true ∧ (s.ch n).brg.outst = none ∧ s.lanesFree n = true := by
  simp only [State.mayStart, Bool.and_eq_true, Option.isNone_iff_eq_none] at h
  obtain ⟨⟨⟨on, up⟩, none⟩, free⟩ := h
  exact ⟨on, up, none, free⟩

/-- On free lanes a frame starts in this tick. -/
theorem State.lanesFree_max {s : State} {n : Fin 16} (h : s.lanesFree n = true) : max s.tick (s.ch n).brg.busyTill = s.tick :=
  max_eq_left (of_decide_eq_true h)

/-- The frame that a new one started now makes outstanding. -/
def State.frameNow (s : State) (n : Fin 16) (typ tab mbank : Nat) (payload : List Byte) (masks : List (Nat × Nat))
    (soft : Option (Nat × Word)) : Frame :=
  { typ := typ, fsn := (s.ch n).brg.nextFsn, tab := tab, mbank := mbank, payload := payload, retx := 0,
    endTick := s.tick + (13 + payload.length) / 2, masks := masks, soft := soft }

/-- The link once a frame that awaits an answer has started now. -/
def Brg.started (b : Brg) (tick : Nat) (f : Frame) : Brg :=
  { b with outst := some f, nextFsn := (b.nextFsn + 1) % 256, lastStart := tick, busyTill := f.endTick + 4,
           onLanes := (tick, frameBytes f false) :: b.onLanes.take 1 }

theorem newFrame_eq {s : State} {n : Fin 16} {typ : Nat} (free : s.lanesFree n = true) (answered : typ ≠ 0) (tab mbank : Nat)
    (payload : List Byte) (masks : List (Nat × Nat)) (soft : Option (Nat × Word)) :
    newFrame n typ tab mbank payload masks soft s =
      (s.modBrg n fun b => b.started s.tick (s.frameNow n typ tab mbank payload masks soft)).emit
        (.frame n.val s.tick (frameBytes (s.frameNow n typ tab mbank payload masks soft) false)) := by
  have now := State.lanesFree_max free
  unfold newFrame sendFrame
  simp only [answered, if_false, State.modBrg_tick, State.ch_modBrg_same, now]
  simp only [State.modBrg, State.modCh, State.ch, vget_set_same, Vector.set_set]
  rfl

/-- Of its channel a new frame changes the link alone. -/
theorem newFrame_ch {s : State} {n : Fin 16} {typ : Nat} (free : s.lanesFree n = true) (answered : typ ≠ 0) (tab mbank : Nat)
    (payload : List Byte) (masks : List (Nat × Nat)) (soft : Option (Nat × Word)) :
    (newFrame n typ tab mbank payload masks soft s).ch n =
      { s.ch n with brg := (s.ch n).brg.started s.tick (s.frameNow n typ tab mbank payload masks soft) } := by
  rw [newFrame_eq free answered, State.emit_ch, State.ch_modBrg_same]

/-- A change of one channel and something that leaves the block. -/
theorem onlyCh_emitted (s : State) (n : Fin 16) (g : Chan → Chan) (o : Output) :
    onlyCh n { s with out := ((s.modCh n g).emit o).out } ((s.modCh n g).emit o) := ⟨rfl, fun _ other => State.ch_modCh_ne s g other⟩

theorem newFrame_sent {s : State} {n : Fin 16} {typ : Nat} (free : s.lanesFree n = true) (answered : typ ≠ 0) (tab mbank : Nat)
    (payload : List Byte) (masks : List (Nat × Nat)) (soft : Option (Nat × Word)) :
    frameSent n typ payload masks soft s (newFrame n typ tab mbank payload masks soft s) := by
  have first := congrArg (fun c : Chan => c.brg.outst) (newFrame_ch free answered tab mbank payload masks soft)
  refine ⟨_, first, rfl, rfl, rfl, rfl, rfl, rfl, ?_, ?_, ?_⟩
  all_goals rw [newFrame_eq free answered]
  · rfl
  · rw [State.emit_ch, State.ch_modBrg_same, Brg.started]
  · exact onlyCh_emitted s n _ _

/-- What is done within the channel before a frame starts, beside its FSN, is no part of the frame. -/
theorem frameSent.after {n : Fin 16} {typ : Nat} {payload : List Byte} {masks : List (Nat × Nat)} {soft : Option (Nat × Word)}
    {s u t : State} (h : frameSent n typ payload masks soft u t) (before : onlyCh n s u)
    (fsn : (u.ch n).brg.nextFsn = (s.ch n).brg.nextFsn) : frameSent n typ payload masks soft s t := by
  obtain ⟨f, out, kind, number, data, carried, written, ended, sent, next, same, others⟩ := h
  have tick : u.tick = s.tick := by rw [before.1]
  have outs : u.out = s.out := by rw [before.1]
  refine ⟨f, out, kind, number.trans fsn, data, carried, written, by rw [ended, tick], ?_, by rw [next, fsn], ?_, fun k other => ?_⟩
  · unfold frameOut at sent ⊢
    rw [sent, tick, outs]
  · rw [same, before.1]
  · exact (others k other).trans (before.2 k other)

/-- A note in the link's record after a frame has started, of what is not about the frame. -/
theorem frameSent.noted {n : Fin 16} {typ : Nat} {payload : List Byte} {masks : List (Nat × Nat)} {soft : Option (Nat × Word)}
    {s t : State} (h : frameSent n typ payload masks soft s t) {g : Brg → Brg} (out : (g (t.ch n).brg).outst = (t.ch n).brg.outst)
    (fsn : (g (t.ch n).brg).nextFsn = (t.ch n).brg.nextFsn) : frameSent n typ payload masks soft s (t.modBrg n g) := by
  obtain ⟨f, first, kind, number, data, carried, written, ended, sent, next, same, others⟩ := h
  refine ⟨f, ?_, kind, number, data, carried, written, ended, sent, ?_, ?_, fun k other => ?_⟩
  · rw [State.ch_modBrg_same]
    exact out.trans first
  · rw [State.ch_modBrg_same]
    exact fsn.trans next
  · show t.modBrg n g = { { s with out := t.out } with chans := (t.modBrg n g).chans }
    rw [State.modBrg, State.modCh, same]
  · exact (State.ch_modCh_ne _ _ other).trans (others k other)

/-- The IDLE frame of a link. -/
def idleFrame (b : Brg) : Frame :=
  { typ := 0, fsn := (b.nextFsn + 255) % 256, tab := 0, mbank := 0, payload := [], retx := 0, endTick := 0, masks := [], soft := none }

theorem sendFrame_idle {s : State} {n : Fin 16} (free : s.lanesFree n = true) : sendFrame n (idleFrame (s.ch n).brg) false s =
    (s.modBrg n fun b => { b with lastStart := s.tick, busyTill := s.tick + 10,
                                  onLanes := (s.tick, frameBytes (idleFrame (s.ch n).brg) false) :: b.onLanes.take 1 }).emit
      (.frame n.val s.tick (frameBytes (idleFrame (s.ch n).brg) false)) := by
  have bits : (13 + (idleFrame (s.ch n).brg).payload.length) / 2 = 6 := by simp [idleFrame]
  have kind : (idleFrame (s.ch n).brg).typ = 0 := rfl
  simp only [sendFrame, State.lanesFree_max free, bits, kind, if_true]

/-! ### DATA -/

theorem applyWav_idle {n : Fin 16} {s : State} (none : ∀ k, s.dueEntries k (isPart (.ch n 2)) = []) : applyWav n s = s :=
  applyAll_idle none _

theorem dataFrameSend_starts {s : State} {n : Fin 16} {d : DutyDec} (may : s.mayStart n = true) (dec : (s.ch n).dut.dec = some d)
    (ready : s.dataReady n = true) (settled : ∀ k, s.dueEntries k (isPart (.ch n 2)) = []) : does (.dataFrameSend n) s fun t =>
      frameSent n 1 (packCodes ((s.get (F.CHn_IMG_GEOM_NNOZ n) + 3) / 4) d.out) [] none s t ∧ (t.ch n).brg.sent ∧
      ∃ f, (t.ch n).brg.outst = some f ∧ f.tab = s.tabOf n d.line.pass ∧ f.mbank = s.get (F.CHn_WAV_BANK_BANK n) := by
  obtain ⟨-, -, -, free⟩ := State.mayStart_parts may
  have meaning : exec (.dataFrameSend n) s = .next ((newFrame n 1 (s.tabOf n d.line.pass) (s.get (F.CHn_WAV_BANK_BANK n))
      (packCodes ((s.get (F.CHn_IMG_GEOM_NNOZ n) + 3) / 4) d.out) [] none s).modBrg n fun b => { b with sent := true }) := by
    simp only [exec_dataFrameSend, execDataFrameSend, dec, may, ready, Bool.and_self, if_true, applyWav_idle settled]
  refine does_of meaning ⟨(newFrame_sent free one_ne_zero ..).noted rfl rfl, ?_, s.frameNow n 1 (s.tabOf n d.line.pass)
    (s.get (F.CHn_WAV_BANK_BANK n)) (packCodes ((s.get (F.CHn_IMG_GEOM_NNOZ n) + 3) / 4) d.out) [] none, ?_, rfl, rfl⟩
  · rw [State.ch_modBrg_same]
  · rw [State.ch_modBrg_same]
    exact congrArg (fun c : Chan => c.brg.outst) (newFrame_ch free one_ne_zero ..)

/-! ### CFG and STAT -/

section

variable {s : State} {n : Fin 16} (may : s.mayStart n = true) (idle : s.dataReady n = false)
include may idle

/-- Masks go first (R171). -/
theorem cfgFrameSend_masks {x : Nat × Nat} {rest : List (Nat × Nat)} (words : (s.ch n).wav.words = x :: rest) :
    does (.cfgFrameSend n) s fun t =>
      frameSent n 2 (cfgPayload (0x80 * x.1 + 4 * ((s.cfgMasks n x).headD x).2) ((s.cfgMasks n x).map (s.maskWord n)))
        (s.cfgMasks n x) none s t ∧ (t.ch n).wav.words = (x :: rest).filter fun y => !(s.cfgMasks n x).contains y := by
  obtain ⟨-, -, -, free⟩ := State.mayStart_parts may
  let u := s.modWav n fun w => { w with words := w.words.filter fun y => !(s.cfgMasks n x).contains y }
  have fsn : (u.ch n).brg.nextFsn = (s.ch n).brg.nextFsn := by rw [State.ch_modWav_same]
  have left : (u.ch n).wav.words = (x :: rest).filter fun y => !(s.cfgMasks n x).contains y := by rw [State.ch_modWav_same, words]
  have lanes : u.lanesFree n = true := by
    rw [State.lanesFree, State.ch_modWav_same]
    exact free
  have meaning : exec (.cfgFrameSend n) s = .next (newFrame n 2 0 0
      (cfgPayload (0x80 * x.1 + 4 * ((s.cfgMasks n x).headD x).2) ((s.cfgMasks n x).map (s.maskWord n))) (s.cfgMasks n x) none u) := by
    simp only [exec_cfgFrameSend, execCfgFrameSend, may, idle, words, Bool.not_false, Bool.and_self, if_true]
    rfl
  refine does_of meaning ⟨(newFrame_sent lanes two_ne_zero ..).after (onlyCh_modCh s n _) fsn, ?_⟩
  rw [newFrame_ch lanes two_ne_zero, left]

theorem cfgFrameSend_software {a : Nat} {w : Word} (none : (s.ch n).wav.words = []) (soft : (s.ch n).brg.soft = some (a, w)) :
    does (.cfgFrameSend n) s fun t => frameSent n 2 (cfgPayload a [w]) [] (some (a, w)) s t ∧ (t.ch n).brg.soft = Option.none := by
  obtain ⟨-, -, -, free⟩ := State.mayStart_parts may
  let u := s.modBrg n fun b => { b with soft := Option.none }
  have fsn : (u.ch n).brg.nextFsn = (s.ch n).brg.nextFsn := by rw [State.ch_modBrg_same]
  have taken : (u.ch n).brg.soft = Option.none := by rw [State.ch_modBrg_same]
  have lanes : u.lanesFree n = true := by
    rw [State.lanesFree, State.ch_modBrg_same]
    exact free
  have meaning : exec (.cfgFrameSend n) s = .next (newFrame n 2 0 0 (cfgPayload a [w]) [] (some (a, w)) u) := by
    simp only [exec_cfgFrameSend, execCfgFrameSend, may, idle, none, soft, Bool.not_false, Bool.and_self, if_true]
    rfl
  refine does_of meaning ⟨(newFrame_sent lanes two_ne_zero ..).after (onlyCh_modCh s n _) fsn, ?_⟩
  rw [newFrame_ch lanes two_ne_zero, Brg.started, taken]

theorem statFrameSend_starts {p : Nat} (none : s.cfgDue n = false) (asked : (s.ch n).brg.stat = some p)
    (run : s.get (F.CHn_FT_STAT_STATE n) ≠ 2) :
    does (.statFrameSend n) s (frameSent n 3 [BitVec.ofNat 8 (p % 16), 0, 0, 0] [] Option.none s) := by
  obtain ⟨-, -, -, free⟩ := State.mayStart_parts may
  have due : s.statDue n = true := by simp [State.statDue, asked, run]
  have meaning : exec (.statFrameSend n) s =
      .next (newFrame n 3 0 0 [BitVec.ofNat 8 (p % 16), 0, 0, 0] [] Option.none s) := by
    simp only [exec_statFrameSend, execStatFrameSend, asked, may, idle, none, due, Bool.not_false, Bool.and_self, if_true]
  exact does_of meaning (newFrame_sent free three_ne_zero ..)

/-! ### IDLE -/

/-- An IDLE frame is not answered and takes no FSN: it carries that of the frame before it (log 51). -/
theorem idleFrameSend_starts (noCfg : s.cfgDue n = false) (noStat : s.statDue n = false) (stays : (s.ch n).brg.offPend = false)
    (rest : (s.ch n).brg.lastStart + usTicks ≤ s.tick) :
    does (.idleFrameSend n) s fun t => (∃ f, f.typ = 0 ∧ f.payload = [] ∧ frameOut n f s t ∧ (t.ch n).brg = { (s.ch n).brg with
      lastStart := s.tick, busyTill := s.tick + 10, onLanes := (s.tick, frameBytes f false) :: (s.ch n).brg.onLanes.take 1 }) ∧
      onlyCh n { s with out := t.out } t := by
  obtain ⟨on, up, none, free⟩ := State.mayStart_parts may
  have meaning : exec (.idleFrameSend n) s = .next (sendFrame n (idleFrame (s.ch n).brg) false s) := by
    simp only [exec_idleFrameSend, execIdleFrameSend, settleOff_idle stays, none, on, up, free, idle, noCfg, noStat, rest,
      Option.isNone_none, Bool.or_self, Bool.and_false, Bool.not_false, Bool.and_self, Bool.true_or, decide_true, if_true, idleFrame]
  rw [sendFrame_idle free] at meaning
  refine does_of meaning ⟨⟨idleFrame (s.ch n).brg, rfl, rfl, rfl, ?_⟩, onlyCh_emitted s n _ _⟩
  rw [State.emit_ch, State.ch_modBrg_same]

end

/-- Settles O22: each kind of frame starts where those before it in R177 have nothing to send. An IDLE frame takes no FSN (log 51). -/
theorem framesGoOutByPriority : Obligations.FramesGoOutByPriority := by
  unfold Obligations.FramesGoOutByPriority
  simp only [Bool.not_eq_true']
  exact fun s n may => ⟨fun d dec ready settled => dataFrameSend_starts may dec ready settled, fun idle =>
    ⟨fun x rest words => cfgFrameSend_masks may idle words, fun a w none soft => cfgFrameSend_software may idle none soft,
      fun noCfg => ⟨fun p asked run => statFrameSend_starts may idle noCfg asked run,
        fun noStat stays rest => idleFrameSend_starts may idle noCfg noStat stays rest⟩⟩⟩

end Sys2Proof.Machine

namespace Sys2Proof.Machine

/-! ## A frame that awaits no answer (R176, R177) -/

/-- Channel 0 with an IDLE frame outstanding whose time for an answer is over. No run comes to such a state, for an IDLE frame is never
made outstanding, but no premise of the statement excludes it. -/
def staleIdle : State :=
  { (State.reset.put (domFld 8) 2).modBrg 0 fun b => { b with outst := some (idleFrame b) } with tick := usTicks }

/-- How often the outstanding frame of channel n has been sent again, in what a command answers. -/
def timesAgain (n : Fin 16) (o : Host.Outcome State Fault Refusal) : Option Nat :=
  match o with
  | .next t => (t.ch n).brg.outst.map (·.retx)
  | _ => none

theorem staleIdle_timesOut : (staleIdle.ch 0).brg.outst = some (idleFrame (State.reset.ch 0).brg) ∧ staleIdle.chOn 0 = true ∧
    (idleFrame (State.reset.ch 0).brg).endTick + usTicks ≤ staleIdle.tick ∧
    staleIdle.ackHere 0 (idleFrame (State.reset.ch 0).brg) = false ∧
    (idleFrame (State.reset.ch 0).brg).retx < max 1 (staleIdle.get (F.CHn_BRG_CTRL_RETXMAX 0)) := by
  decide +kernel

/-- The timeout sends the frame again, but the frame outstanding stays as it was. -/
theorem staleIdle_notCounted : timesAgain 0 (exec (.answerTimeout 0) staleIdle) = some 0 := by
  decide +kernel

/-- Refutes O23: its clause on the timeout ranges over every outstanding frame, also over one of type 0. In `staleIdle` an IDLE frame is
outstanding; the model sends it again, but sending an IDLE frame leaves what is outstanding as it was, so its retransmissions do not
count up. -/
theorem not_answersCompleteOrRepeatAFrame : ¬ Obligations.AnswersCompleteOrRepeatAFrame := by
  unfold Obligations.AnswersCompleteOrRepeatAFrame
  intro h
  obtain ⟨outst, on, late, noAnswer, few⟩ := staleIdle_timesOut
  obtain ⟨-, answers⟩ := h staleIdle 0
  obtain ⟨-, timeout⟩ := answers _ outst
  obtain ⟨-, again⟩ := timeout on late
  obtain ⟨repeats, -⟩ := again (by rw [noAnswer]; rfl)
  obtain ⟨t, answer, ⟨counted, -⟩, -⟩ := repeats few
  have still := staleIdle_notCounted
  rw [answer, timesAgain, counted] at still
  exact absurd still (by decide)

end Sys2Proof.Machine

namespace Sys2Proof.Machine

/-! ## What reactions do to the status of a link -/

/-- A relation between states that each step of a reaction keeps, seen from the status register of channel n's link: a step leaves that
register, or lets CHn_HPEN of a channel fall. -/
structure StatusReaction (n : Fin 16) (R : State → State → Prop) : Prop where
  trans : ∀ {s t u}, R s t → R t u → R s u
  still : ∀ {s t : State}, t.word (A.CHn_BRG_STAT n) = s.word (A.CHn_BRG_STAT n) → R s t
  fall : ∀ (k : Fin 16) s, R s (s.put (F.CHn_BRG_STAT_HPEN k) 0)

namespace StatusReaction

variable {n : Fin 16} {R : State → State → Prop} {rs : Nat → State → State}

section

variable (r : StatusReaction n R)
include r

theorem refl (s : State) : R s s := r.still rfl
theorem of_bar {s t : State} (h : t.bar = s.bar) : R s t := r.still (State.word_of_bar h _)
theorem modWork (s : State) (k : Fin 16) (g : Work → Work) : R s (s.modWork k g) := r.of_bar rfl
theorem modFt (s : State) (k : Fin 16) (g : Ft → Ft) : R s (s.modFt k g) := r.of_bar rfl
theorem flt (s : State) (f : Flt) : R s { s with flt := f } := r.of_bar rfl

theorem told {s t : State} (h : Told s t) : R s t := r.still (h.word _ (toldReg_high (by
  unfold A.CHn_BRG_STAT
  omega)))

/-- A register that is the status of no link: those lie at one offset within the channels' windows. -/
theorem put (s : State) {f : Fld} (v : Nat) (apart : f.addr % 0x100000 ≠ 0x4000C) : R s (s.put f v) :=
  r.still (State.word_put_ne s v fun e => apart (by
    rw [← e]
    unfold A.CHn_BRG_STAT
    omega))

/-- A register of a channel's window beside the status of its link. -/
theorem putWindow (s : State) {f : Fld} {b : Nat} (k : Fin 16) (v : Nat) (addr : f.addr = b + k.val * 0x100000)
    (apart : b % 0x100000 ≠ 0x4000C) : R s (s.put f v) :=
  r.put s v (by omega)

theorem putWork (s : State) {f : Fld} (k : Fin 16) (v : Nat) (addr : f.addr = A.WRK_SCRn_STAT k) : R s (s.put f v) :=
  r.put s v (by
    rw [addr, A.WRK_SCRn_STAT]
    omega)

theorem foldl {α : Type} (l : List α) (g : State → α → State) (h : ∀ s a, R s (g s a)) (s : State) : R s (l.foldl g s) := by
  induction l generalizing s with
  | nil => exact r.refl s
  | cons a l ih => exact r.trans (h s a) (ih _)

theorem eachCh (s : State) (g : Fin 16 → State → State) (h : ∀ k s, R s (g k s)) : R s (s.eachCh g) :=
  r.foldl _ _ (fun s k => h k s) s

theorem enterHeld (k : Fin 16) (s : State) : R s (enterHeld k s) :=
  r.trans (r.trans (r.putWork s k 2 rfl) (r.putWindow _ (b := 0x1030060) k 3 rfl (by decide))) (r.modFt _ k _)

theorem cancelDecided (k : Fin 16) (s : State) : R s (cancelDecided k s) := by
  unfold Machine.cancelDecided
  split
  next d ds dec =>
    refine r.trans ?_ (r.still (restartScreen_word k _ _))
    exact r.trans (r.trans (r.modFt s k _) (r.modWork _ k _)) (r.putWindow _ (b := 0x1030060) k _ rfl (by decide))
  next => exact r.refl s

theorem dropHpen (k : Fin 16) (s : State) : R s (dropHpen k s) :=
  Reaction.either (r.trans (r.of_bar (t := s.modBrg k fun b => { b with hpenHold := false }) rfl) (r.fall k _)) (r.refl s)

theorem noteHalted (k : Fin 16) (s : State) : R s (noteHalted k s) := by
  unfold Machine.noteHalted
  dsimp only
  split
  · exact r.trans (r.dropHpen k s) (r.put (f := F.PWR_MON_FLUSH_HALTT) _ _ (by decide))
  · exact r.dropHpen k s

theorem heaterOff (k : Fin 16) (s : State) : R s (heaterOff k s) := by
  have far : A.THM_CHn_HTRSTAT k % 0x100000 ≠ 0x4000C := by
    unfold A.THM_CHn_HTRSTAT
    omega
  exact r.trans (r.trans (r.put s (f := F.THM_CHn_HTRSTAT_DUTY k) 0 far) (r.put _ (f := F.THM_CHn_HTRSTAT_FORCED0 k) 1 far)) (r.of_bar rfl)

theorem stopAxis (a : Fin 4) (s : State) : R s (stopAxis a s) := by
  have axis (u : State) {f : Fld} {o : Nat} (v : Nat) (addr : f.addr = 0x70100 + o + a * 0x80) (own : o < 0x80) : R u (u.put f v) :=
    r.put u v (by omega)
  refine r.trans (r.trans (r.trans (r.trans (r.of_bar (s := s) ?_) (axis _ (o := 0x24) _ rfl (by decide)))
    (axis _ (o := 0x28) _ rfl (by decide))) (axis _ (o := 0x54) 1 rfl (by decide))) (axis _ (o := 0x54) 0 rfl (by decide))
  rfl

theorem startFlush (w : Bool) (s : State) : R s (startFlush w s) := by
  have marks (u : State) : R u (clearMarks u) := by
    obtain ⟨j, same⟩ := clearMarks_eq u
    exact r.of_bar (by rw [same])
  have under (u : State) (x : Option (Nat × Bool)) : R u { u with pwr := { u.pwr with flush := x } } := r.of_bar rfl
  unfold Machine.startFlush
  split
  · exact under s _
  · exact r.trans (r.trans (under s _) (marks _)) (r.eachCh _ _ fun k u => r.putWindow u (b := 0x1060018) k 0 rfl (by decide))

end

section

variable (r : StatusReaction n R) (hrs : ∀ e s, e < 512 → R s (rs e s))
include r hrs

theorem showCause (k : Fin 16) (c : Nat) (s : State) : R s (showCause rs k c s) :=
  Reaction.either (r.refl s) (r.trans (r.putWork s k c rfl) (hrs _ _ (RaiseFrame.chEvt_lt k (by decide))))

theorem holdWith (k : Fin 16) (c : Nat) (s : State) : R s (holdWith rs k c s) := by
  unfold Machine.holdWith
  dsimp only
  refine Reaction.either ?_ (Reaction.either (r.trans (r.modWork s k _) (r.showCause hrs k _ _)) (r.refl s))
  refine r.trans ?_ (hrs _ _ (RaiseFrame.chEvt_lt k (by decide)))
  exact r.trans (r.trans (r.enterHeld k s) (r.modWork _ k _)) (r.putWork _ k _ rfl)

theorem partialPending (k : Fin 16) (q l : Nat) (s : State) : R s (partialPending rs k q l s) := by
  unfold Machine.partialPending
  dsimp only
  refine r.trans ?_ (r.trans (hrs _ _ (RaiseFrame.chEvt_lt k (by decide))) (r.holdWith hrs k 3 _))
  have counted : R s (modBand k q (fun b => { b with npart := b.npart + 1, hadPart := true })
      (((s.put (F.CHn_LED_PSEQ_SEQ k) q).put (F.CHn_LED_PLINE_LINE k) l).put (F.CHn_LED_PLINE_PEND k) 1)) :=
    r.trans (r.trans (r.putWindow s (b := 0x106000C) k q rfl (by decide)) (r.putWindow _ (b := 0x1060010) k l rfl (by decide)))
      (r.trans (r.putWindow _ (b := 0x1060010) k 1 rfl (by decide)) (r.modWork _ k _))
  refine r.trans counted ?_
  split
  · exact r.modWork _ k _
  · exact r.refl _

theorem cutWindow (k : Fin 16) (s : State) : R s (cutWindow rs k s) := by
  unfold Machine.cutWindow
  split
  · refine r.trans ?_ (r.partialPending hrs k _ _ _)
    have left (u : State) (g : Wav → Wav) (o : Output) : R u ((u.modWav k g).emit o) := r.of_bar rfl
    refine r.trans (r.trans (r.put s 1 ?_) (r.putWindow _ (f := F.CHn_LED_LINE_STATE k) (b := 0x1060004) k 1 rfl (by decide))) (left _ _ _)
    unfold ledLastState ledSlot
    dsimp only
    omega
  · exact r.refl s

theorem inhibitWith (c : Nat) (k : Fin 16) (s : State) : R s (inhibitWith rs c k s) := by
  unfold Machine.inhibitWith
  refine r.trans ?_ (r.holdWith hrs k c _)
  exact r.trans (r.trans (r.cutWindow hrs k s) (r.cancelDecided k _)) (Reaction.either (r.refl _) (r.noteHalted k _))

theorem safeWith {c : Fld} (far : c.addr % 0x100000 ≠ 0x4000C) (s : State) : R s (safeWith rs c s) := by
  unfold Machine.safeWith
  dsimp only
  refine Reaction.either (r.put s 1 far) (r.trans ?_ (r.startFlush false _))
  refine r.trans ?_ (hrs _ _ (by decide))
  refine r.trans ?_ (r.foldl _ _ (fun u a => Reaction.either (r.stopAxis a u) (r.refl u)) _)
  refine r.trans ?_ (r.eachCh _ _ fun k u => r.trans (r.inhibitWith hrs 2 k u) (r.heaterOff k _))
  refine r.trans (r.trans (r.put (f := F.FLT_SAFE_ACTIVE) s 1 (by decide)) (r.put _ 1 far)) ?_
  exact Reaction.either (r.put (f := F.WRK_CTRL_FETCH_EN) _ 0 (by decide)) (r.refl _)

theorem reactTo (e v : Nat) (s : State) : R s (reactTo rs e v s) := by
  unfold Machine.reactTo
  split
  · exact r.refl s
  · refine Reaction.either (r.trans (r.flt s _) (r.safeWith hrs (by decide) _)) ?_
    split
    · exact r.refl s
    · exact Reaction.either (r.refl s) (Reaction.either (r.trans (r.flt s _) (r.holdWith hrs ..))
        (Reaction.either (r.trans (r.flt s _) (r.inhibitWith hrs ..)) (r.refl s)))

theorem collect (e : Nat) (s : State) : R s (collect rs e s) := by
  have logged (v : Nat) : R s (logRaise e v (noteHalt e s)) :=
    r.trans (Reaction.either (r.flt s _) (r.refl s)) (r.told (Told.logRaise e v _))
  exact Reaction.either (r.refl s) (Reaction.either (logged _)
    (r.trans (r.trans (logged _) (r.told (Told.latchLine e _ _))) (r.reactTo hrs ..)))

end

theorem raiseN (r : StatusReaction n R) (k : Nat) : ∀ (e : Nat) (s : State), e < 512 → R s (raiseN k e s) := by
  induction k with
  | zero => exact fun e s h => r.trans (r.told (Told.evtRaise s h)) (r.collect (fun _ u _ => r.refl u) e _)
  | succ k ih => exact fun e s h => r.trans (r.told (Told.evtRaise s h)) (r.collect ih e _)

theorem raiseCh (r : StatusReaction n R) (s : State) (k : Fin 16) {e : Nat} (lt : e < 24) : R s (s.raiseCh k e) :=
  r.raiseN 6 _ s (RaiseFrame.chEvt_lt k lt)

theorem hold (r : StatusReaction n R) (s : State) (k : Fin 16) (c : Nat) : R s (s.hold k c) := r.holdWith (r.raiseN 6) k c s

theorem inhibit (r : StatusReaction n R) (s : State) (k : Fin 16) : R s (s.inhibit k) := r.inhibitWith (r.raiseN 6) 2 k s

end StatusReaction

/-- No reaction raises CHn_HPEN. -/
theorem hpen_staysLow (n : Fin 16) :
    StatusReaction n fun s t => s.flag (F.CHn_BRG_STAT_HPEN n) = false → t.flag (F.CHn_BRG_STAT_HPEN n) = false where
  trans h k low := k (h low)
  still same low := (State.flag_of_word same).trans low
  fall k s low := by
    by_cases own : k = n
    · rw [own]
      exact State.flag_put_zero s (Nat.le_of_ble_eq_true rfl)
    · refine (State.flag_put_ne s 0 fun e => own (Fin.ext ?_)).trans low
      simp only [F.CHn_BRG_STAT_HPEN, A.CHn_BRG_STAT] at e
      omega

end Sys2Proof.Machine

namespace Sys2Proof.Machine

/-! ## Head boards, identity and training (R181 to R184, R188 to R191) -/

/-! ### The link takes a state -/

theorem quiet_brg {a b : Nat} (n : Fin 16) (addr : a = b + n.val * 0x100000) (own : 0x1040000 ≤ b ∧ b < 0x1050000)
    (stat : b ≠ 0x104000C) : quiet a = true :=
  quiet_window n addr (by omega) (by omega) (by omega) (by omega) stat

theorem setLink_word (n : Fin 16) (v : Nat) (s : State) {a : Nat} (h : a ≠ A.CHn_BRG_STAT n) : (setLink n v s).word a = s.word a :=
  (State.word_put_ne _ _ h).trans (State.word_put_ne s v h)

/-- Of the status register only LSTATE and HPEN take part. -/
theorem setLink_get (n : Fin 16) (v : Nat) (s : State) {f : Fld} (addr : f.addr = A.CHn_BRG_STAT n)
    (beside : 3 ≤ f.lo) (pen : f.lo + f.width ≤ 4 ∨ 5 ≤ f.lo) : (setLink n v s).get f = s.get f :=
  ((LinkStat.putHpen n _ _).get f addr pen).trans (State.get_put_other s v (.inl beside))

theorem setLink_lstate {v : Nat} (n : Fin 16) (lt : v < 8) (s : State) : (setLink n v s).lstate n = v := by
  refine ((LinkStat.putHpen n (s.put (F.CHn_BRG_STAT_LSTATE n) v) _).get _ rfl (.inl (Nat.le_of_ble_eq_true rfl))).trans ?_
  exact (State.get_put_same s v (Nat.le_of_ble_eq_true rfl)).trans (Nat.mod_eq_of_lt lt)

/-- CHn_HPEN is low in every state but UP (R185). -/
theorem setLink_hpen {v : Nat} (n : Fin 16) (lt : v < 8) (down : v ≠ 3) (s : State) :
    (setLink n v s).flag (F.CHn_BRG_STAT_HPEN n) = false := by
  have state : (s.put (F.CHn_BRG_STAT_LSTATE n) v).linkIsUp n = false := by
    rw [State.linkIsUp, State.get_put_same s v (Nat.le_of_ble_eq_true rfl)]
    exact beq_eq_false_iff_ne.2 ((Nat.mod_eq_of_lt lt).trans_ne down)
  unfold setLink settleHpen
  rw [state, Bool.and_false]
  exact State.flag_put_zero _ (Nat.le_of_ble_eq_true rfl)

theorem setLink_ch (n : Fin 16) (v : Nat) (s : State) (k : Fin 16) : (setLink n v s).ch k = s.ch k := by
  rw [setLink, settleHpen, State.put_ch, State.put_ch]

theorem setLink_only {as : List Nat} (n : Fin 16) (v : Nat) (s : State) (stat : A.CHn_BRG_STAT n ∈ as) :
    onlyChAt n as s (setLink n v s) := (onlyChAt.put s n v stat).trans (.put _ n _ stat)

/-- A link of a channel that is not isolated enters IDENT. -/
theorem startIdent_starts {n : Fin 16} {s : State} (joined : (s.ch n).iso.isolated = false) :
    (startIdent n s).lstate n = 1 ∧ ((startIdent n s).ch n).brg.i2cTries = 0 ∧
    onlyChAt n [A.CHn_BRG_STAT n] s (startIdent n s) ∧
    (startIdent n s).flag (F.CHn_BRG_STAT_PRES n) = s.flag (F.CHn_BRG_STAT_PRES n) := by
  have begun : startIdent n s =
      (setLink n 1 s).modBrg n fun b => { b with i2cTries := 0, trimPend := false, offPend := false } := by
    simp [startIdent, joined]
  rw [begun]
  refine ⟨?_, ?_, (setLink_only n 1 s (.head _)).trans (.modCh _ n _), ?_⟩
  · rw [State.lstate, State.modBrg_get]
    exact setLink_lstate n (by decide) s
  · rw [State.ch_modBrg_same]
  · have same := setLink_get n 1 s (f := F.CHn_BRG_STAT_PRES n) rfl (Nat.le_of_ble_eq_true rfl) (.inl (Nat.le_of_ble_eq_true rfl))
    rw [State.modBrg_flag, State.flag, same, State.flag]

/-- The domain of HOST is told of by a register below the channel windows. -/
theorem onlyChAt.host {n : Fin 16} {as : List Nat} {s t : State} (h : onlyChAt n as s t) (win : ∀ a ∈ as, 0x1000000 ≤ a) :
    t.domOn 0 = s.domOn 0 := State.domOn_zero_of_word (h.below win (by decide))

theorem brgStat_high (n : Fin 16) : ∀ a ∈ [A.CHn_BRG_STAT n], 0x1000000 ≤ a := by
  simp only [List.mem_singleton, forall_eq, A.CHn_BRG_STAT]
  omega

/-! ### A head board appears (R182) -/

theorem exec_headPresent (n : Fin 16) (s : State) : exec (.headPresent n) s = execHeadPresent n s := rfl

/-- PRES is set, before the event is raised. -/
def boardSeen (n : Fin 16) (s : State) : State := s.put (F.CHn_BRG_STAT_PRES n) 1

theorem RaiseFrame.isolated {s t : State} (h : RaiseFrame s t) (n : Fin 16) : (t.ch n).iso.isolated = (s.ch n).iso.isolated := by
  rw [h.iso n]

theorem LinkStat.flag {n : Fin 16} {s t : State} (h : LinkStat n s t) {f : Fld} (addr : f.addr = A.CHn_BRG_STAT n)
    (pen : f.lo + f.width ≤ 4 ∨ 5 ≤ f.lo) : t.flag f = s.flag f := by
  rw [State.flag, h.get f addr pen, State.flag]

theorem quiet_brgCtrl (n : Fin 16) : quiet (A.CHn_BRG_CTRL n) = true := quiet_brg n (b := 0x1040000) rfl (by decide) (by decide)

theorem headPresent_identifies {s : State} {n : Fin 16} (on : s.chOn n = true) (joined : (s.ch n).iso.isolated = false)
    (absent : s.flag (F.CHn_BRG_STAT_PRES n) = false) (en : s.flag (F.CHn_BRG_CTRL_LINK_EN n) = true) :
    does (.headPresent n) s fun t => t.flag (F.CHn_BRG_STAT_PRES n) ∧ t.lstate n = 1 ∧ (t.ch n).brg.i2cTries = 0 ∧
      raises (chEvt n 22) s t ∧ quietBut [A.CHn_BRG_STAT n] s t := by
  have only : onlyChAt n [A.CHn_BRG_STAT n] s (boardSeen n s) := .put s n 1 (.head _)
  have frame : RaiseFrame (boardSeen n s) ((boardSeen n s).raiseCh n 22) := .raiseCh _ n (by decide)
  have pres : ((boardSeen n s).raiseCh n 22).flag (F.CHn_BRG_STAT_PRES n) = true :=
    ((LinkStat.raiseCh _ n (by decide)).flag rfl (.inl (Nat.le_of_ble_eq_true rfl))).trans
      (State.flag_put_one s (Nat.le_of_ble_eq_true rfl) Nat.one_pos)
  have isolated : (((boardSeen n s).raiseCh n 22).ch n).iso.isolated = false := by
    rw [frame.isolated, boardSeen, State.put_ch, joined]
  have enabled : ((boardSeen n s).raiseCh n 22).flag (F.CHn_BRG_CTRL_LINK_EN n) = true :=
    (frame.flagAt (quiet_brgCtrl n) rfl).trans ((State.flag_put_ne s 1 (by
      simp only [F.CHn_BRG_CTRL_LINK_EN, A.CHn_BRG_CTRL, F.CHn_BRG_STAT_PRES, A.CHn_BRG_STAT]
      omega)).trans en)
  obtain ⟨state, tries, ident, kept⟩ := startIdent_starts isolated
  have meaning : exec (.headPresent n) s = .next (startIdent n ((boardSeen n s).raiseCh n 22)) := by
    simp only [exec_headPresent, execHeadPresent, on, absent, Bool.not_false, Bool.and_self, if_true]
    exact congrArg Host.Outcome.next (if_pos enabled)
  refine does_of meaning ⟨kept.trans pres, state, tries, fun host => ?_, fun a q out => ?_⟩
  · have told := raise_pending (boardSeen n s) (RaiseFrame.chEvt_lt n (k := 22) (by decide)) ((only.host (brgStat_high n)).trans host)
    have low := pend_below (RaiseFrame.chEvt_lt n (k := 22) (by decide))
    exact (State.flag_of_word (ident.below (brgStat_high n) low)).trans told
  · exact (ident.quietBut a q out).trans ((frame.word a q).trans (only.2.2 a out))

/-! ### The identity record (R188, R190, R191) -/

theorem exec_identityReadDone (n : Fin 16) (rec : List Byte) (s : State) :
    exec (.identityReadDone n rec) s = execIdentityReadDone n rec s := rfl
theorem exec_i2cRetry (n : Fin 16) (s : State) : exec (.i2cRetry n) s = execI2cRetry n s := rfl
theorem exec_trimReadDone (n : Fin 16) (trim : List Byte) (s : State) : exec (.trimReadDone n trim) s = execTrimReadDone n trim s := rfl

/-- Words stored one behind the other from an offset on. -/
theorem word_foldl_range (a : Nat) (g : Nat → Word) (k : Nat) (s : State) (b : Nat) :
    ((List.range k).foldl (fun (s : State) (i : Nat) => s.setWord (a + 4 * i) (g i)) s).word b =
      if a ≤ b ∧ (b - a) % 4 = 0 ∧ (b - a) / 4 < k then g ((b - a) / 4) else s.word b := by
  induction k with
  | zero => simp
  | succ k ih =>
    rw [List.range_succ, List.foldl_append, List.foldl_cons, List.foldl_nil, State.word_setWord, ih]
    by_cases last : b = a + 4 * k
    · subst last
      rw [if_pos rfl, if_pos (by omega), show (a + 4 * k - a) / 4 = k by omega]
    · rw [if_neg last]
      exact if_congr (by omega) rfl rfl

theorem storeBytes_word (a : Nat) (bs : List Byte) (s : State) (i : Nat) (h : i < (bs.length + 3) / 4) :
    (storeBytes a bs s).word (a + 4 * i) = BitVec.ofNat 32 (fieldAt bs (4 * i) 4) := by
  have place : (a + 4 * i - a) / 4 = i := by omega
  rw [storeBytes, word_foldl_range a (fun i => BitVec.ofNat 32 (fieldAt bs (4 * i) 4)), place, if_pos (by omega)]

theorem storeBytes_below (a : Nat) (bs : List Byte) (s : State) {b : Nat} (h : b < a) : (storeBytes a bs s).word b = s.word b :=
  (word_foldl_range a _ _ s b).trans (if_neg (by omega))

/-- Stored bytes are registers alone. -/
theorem storeBytes_same (a : Nat) (bs : List Byte) (s : State) : storeBytes a bs s = { s with bar := (storeBytes a bs s).bar } :=
  List.foldlRecOn (motive := fun (u : State) => u = { s with bar := u.bar }) _ (fun (s : State) (i : Nat) =>
    s.setWord (a + 4 * i) (BitVec.ofNat 32 (fieldAt bs (4 * i) 4))) rfl fun u same i _ => by
      rw [same]
      rfl

theorem storeBytes_ch (a : Nat) (bs : List Byte) (s : State) (k : Fin 16) : (storeBytes a bs s).ch k = s.ch k := by
  rw [storeBytes_same]
  rfl

theorem storeBytes_fires (n : Fin 16) (a : Nat) (bs : List Byte) (s : State) : Fires n s (storeBytes a bs s) :=
  ⟨by rw [storeBytes_same], fun k _ => storeBytes_ch a bs s k⟩

/-- What CHn_BRG_IDSTAT shows of a record's checks. -/
def idStat (good magic crc nn typ : Bool) : Word :=
  BitVec.ofNat 32 (b2n good + 2 * b2n (!magic) + 4 * b2n (!crc) + 16 * b2n (!nn) + 32 * b2n (!typ))

theorem idStat_bits : ∀ good magic crc nn typ : Bool, getBits (idStat good magic crc nn typ) 0 1 = b2n good ∧
    getBits (idStat good magic crc nn typ) 1 1 = b2n (!magic) := by
  decide

/-- A record shows in its window, and its checks in CHn_BRG_IDSTAT. -/
def recShown (n : Fin 16) (rec : List Byte) (v : Word) (s : State) : State :=
  (storeBytes (chBase n + 0x41000) rec s).setWord (A.CHn_BRG_IDSTAT n) v

theorem recShown_fires (n : Fin 16) (rec : List Byte) (v : Word) (s : State) : Fires n s (recShown n rec v s) :=
  (storeBytes_fires n _ rec s).trans (.setWord n _ _ v)

theorem recShown_idStat (n : Fin 16) (rec : List Byte) (v : Word) (s : State) : (recShown n rec v s).word (A.CHn_BRG_IDSTAT n) = v :=
  State.word_setWord_same ..

theorem recShown_window (n : Fin 16) (rec : List Byte) (v : Word) (s : State) (i : Nat) (h : i < (rec.length + 3) / 4) :
    (recShown n rec v s).word (chBase n + 0x41000 + 4 * i) = BitVec.ofNat 32 (fieldAt rec (4 * i) 4) := by
  refine (State.word_setWord_ne _ v ?_).trans (storeBytes_word _ rec s i h)
  unfold chBase A.CHn_BRG_IDSTAT
  omega

theorem recShown_below (n : Fin 16) (rec : List Byte) (v : Word) (s : State) {a : Nat} (low : a < 0x1000000) :
    (recShown n rec v s).word a = s.word a := by
  refine (State.word_setWord_ne _ v ?_).trans (storeBytes_below _ rec s ?_)
  · unfold A.CHn_BRG_IDSTAT
    omega
  · unfold chBase
    omega

theorem startTrain_word (n : Fin 16) (s : State) {a : Nat} (h : a ≠ A.CHn_BRG_STAT n) : (startTrain n s).word a = s.word a := by
  rw [startTrain, State.emit_word, State.modBrg_word, setLink_word n 2 s h]

theorem startTrain_fires (n : Fin 16) (s : State) : Fires n s (startTrain n s) :=
  (((Fires.put s _ _).trans (.put _ _ _)).trans (.modCh _ n _)).trans (.emit _ _)

theorem startTrain_trains (n : Fin 16) (s : State) : (startTrain n s).lstate n = 2 ∧
    ((startTrain n s).ch n).brg.phase = 1 ∧ ((startTrain n s).ch n).brg.trdy = 0 ∧ ((startTrain n s).ch n).brg.nextFsn = 0 ∧
    (startTrain n s).out = .train n.val 0x7A0C :: s.out := by
  refine ⟨?_, ?_, ?_, ?_, ?_⟩
  · rw [State.lstate, startTrain, State.emit_get, State.modBrg_get]
    exact setLink_lstate n (by decide) s
  rotate_right
  · rw [startTrain, State.emit, State.modBrg_out, setLink, settleHpen, State.put_out, State.put_out, trainWord]
  all_goals rw [startTrain, State.emit_ch, State.ch_modBrg_same]

theorem brgIdStat_apart (n : Fin 16) : A.CHn_BRG_IDSTAT n ≠ A.CHn_BRG_STAT n := by
  unfold A.CHn_BRG_IDSTAT A.CHn_BRG_STAT
  omega

theorem quiet_idStat (n : Fin 16) : quiet (A.CHn_BRG_IDSTAT n) = true := quiet_brg n (b := 0x1040010) rfl (by decide) (by decide)

/-- STOP, with the event told of. -/
theorem refuseHead_stops {n : Fin 16} (s : State) : (refuseHead n s).lstate n = 5 ∧
    (refuseHead n s).word (A.CHn_BRG_IDSTAT n) = s.word (A.CHn_BRG_IDSTAT n) ∧ raises (chEvt n 22) s (refuseHead n s) := by
  refine ⟨?_, ?_, fun host => ?_⟩
  · exact ((LinkStat.raiseCh _ n (by decide)).get _ rfl (.inl (Nat.le_of_ble_eq_true rfl))).trans (setLink_lstate n (by decide) s)
  · exact ((RaiseFrame.raiseCh _ n (by decide)).word _ (quiet_idStat n)).trans (setLink_word n 5 s (brgIdStat_apart n))
  · exact raise_pending _ (RaiseFrame.chEvt_lt n (by decide)) (((setLink_only n 5 s (.head _)).host (brgStat_high n)).trans host)

section

variable {s : State} {n : Fin 16} {rec : List Byte} (on : s.chOn n = true) (ident : s.lstate n = 1) (len : rec.length = 256)
include on ident len

theorem identityReadDone_good (magic : fieldAt rec 0 4 = 0x44494855) (version : fieldAt rec 4 1 = 1)
    (crc : fieldAt rec 252 4 = (crc32 (bytesAt rec 0 252)).toNat) (nozzles : fieldAt rec 58 2 = s.get (F.CHn_IMG_GEOM_NNOZ n))
    (anyType : s.flag (F.CHn_BRG_HEXP_TYPECHK n) = false) : does (.identityReadDone n rec) s fun t => identified n rec s t := by
  let u := (recShown n rec (idStat true true true true true) s).modBrg n fun b =>
    { b with trimPend := fieldAt rec 116 1 == 1, i2cTries := 0 }
  have state : s.get (F.CHn_BRG_STAT_LSTATE n) = 1 := ident
  have meaning : exec (.identityReadDone n rec) s = .next (startTrain n u) := by
    simp only [exec_identityReadDone, execIdentityReadDone, len, on, state, magic, version, crc, nozzles, anyType, beq_self_eq_true,
      Bool.and_self, Bool.not_false, Bool.true_or, and_self, if_true, nextIf_true]
    rfl
  have word {a : Nat} (h : a ≠ A.CHn_BRG_STAT n) :
      (startTrain n u).word a = (recShown n rec (idStat true true true true true) s).word a :=
    (startTrain_word n u h).trans (State.modBrg_word ..)
  have fires : Fires n s (startTrain n u) := ((recShown_fires n rec _ s).trans (.modCh _ n _)).trans (startTrain_fires n u)
  have outs : u.out = s.out := by
    rw [State.modBrg_out, recShown, State.setWord_out, storeBytes_same]
  obtain ⟨train, phase, row, fsn, out⟩ := startTrain_trains n u
  refine does_of meaning ⟨?_, train, phase, row, fsn, fun i lt => ?_, by rw [out, outs], fires.1, fires.2⟩
  · have shown := (word (brgIdStat_apart n)).trans (recShown_idStat n rec _ s)
    rw [State.flag, State.get]
    show (getBits ((startTrain n u).word (A.CHn_BRG_IDSTAT n)) 0 1 != 0) = true
    rw [shown, (idStat_bits true true true true true).1]
    rfl
  · refine (word ?_).trans (recShown_window n rec _ s i (by omega))
    unfold chBase A.CHn_BRG_STAT
    omega

theorem identityReadDone_foreign (magic : fieldAt rec 0 4 ≠ 0x44494855) : does (.identityReadDone n rec) s fun t =>
    t.flag (F.CHn_BRG_IDSTAT_IDVALID n) = false ∧ t.flag (F.CHn_BRG_IDSTAT_MAGICERR n) ∧ t.lstate n = 5 ∧
    raises (chEvt n 22) s t := by
  have state : s.get (F.CHn_BRG_STAT_LSTATE n) = 1 := ident
  have foreign : (fieldAt rec 0 4 == 0x44494855) = false := beq_eq_false_iff_ne.2 magic
  obtain ⟨crc, nn, typ, meaning⟩ : ∃ crc nn typ, exec (.identityReadDone n rec) s =
      .next (refuseHead n (recShown n rec (idStat false false crc nn typ) s)) := by
    refine ⟨fieldAt rec 252 4 == (crc32 (bytesAt rec 0 252)).toNat, fieldAt rec 58 2 == s.get (F.CHn_IMG_GEOM_NNOZ n),
      !s.flag (F.CHn_BRG_HEXP_TYPECHK n) || fieldAt rec 56 2 == s.get (F.CHn_BRG_HEXP_TYPE n), ?_⟩
    simp only [exec_identityReadDone, execIdentityReadDone, len, on, state, foreign, beq_self_eq_true, Bool.false_and, and_self,
      if_true, nextIf_true, Bool.false_eq_true, if_false]
    rfl
  obtain ⟨valid, err⟩ := idStat_bits false false crc nn typ
  obtain ⟨stop, kept, told⟩ := refuseHead_stops (n := n) (recShown n rec (idStat false false crc nn typ) s)
  rw [recShown_idStat] at kept
  refine does_of meaning ⟨?_, ?_, stop, fun host => told ((State.domOn_zero_of_word (recShown_below n rec _ s (by decide))).trans host)⟩
  · show (getBits ((refuseHead n _).word (A.CHn_BRG_IDSTAT n)) 0 1 != 0) = false
    rw [kept, valid]
    rfl
  · show (getBits ((refuseHead n _).word (A.CHn_BRG_IDSTAT n)) 1 1 != 0) = true
    rw [kept, err]
    rfl

end

/-- A failed read is repeated three times. -/
theorem i2cRetry_repeats {s : State} {n : Fin 16} (on : s.chOn n = true) (ident : s.lstate n = 1) (few : (s.ch n).brg.i2cTries < 3) :
    does (.i2cRetry n) s fun t =>
      (t.ch n).brg = { (s.ch n).brg with i2cTries := (s.ch n).brg.i2cTries + 1 } ∧ onlyCh n s t := by
  have state : s.get (F.CHn_BRG_STAT_LSTATE n) = 1 := ident
  have meaning : exec (.i2cRetry n) s = .next (s.modBrg n fun b => { b with i2cTries := b.i2cTries + 1 }) := by
    simp only [exec_i2cRetry, execI2cRetry, on, state, few, beq_self_eq_true, Bool.true_or, Bool.and_self, if_true]
  exact does_of meaning ⟨by rw [State.ch_modBrg_same], onlyCh_modCh s n _⟩

theorem i2cRetry_fails {s : State} {n : Fin 16} (on : s.chOn n = true) (ident : s.lstate n = 1) (tried : (s.ch n).brg.i2cTries = 3) :
    does (.i2cRetry n) s fun t => t.flag (F.CHn_BRG_IDSTAT_I2CERR n) ∧ t.lstate n = 5 := by
  have state : s.get (F.CHn_BRG_STAT_LSTATE n) = 1 := ident
  have meaning : exec (.i2cRetry n) s = .next (refuseHead n (s.setWord (A.CHn_BRG_IDSTAT n) 8)) := by
    simp only [exec_i2cRetry, execI2cRetry, on, state, tried, beq_self_eq_true, Bool.true_or, Bool.and_self, if_true, Nat.lt_irrefl,
      if_false]
  obtain ⟨stop, kept, -⟩ := refuseHead_stops (n := n) (s.setWord (A.CHn_BRG_IDSTAT n) 8)
  rw [State.word_setWord_same] at kept
  refine does_of meaning ⟨?_, stop⟩
  show (getBits ((refuseHead n _).word (A.CHn_BRG_IDSTAT n)) 3 1 != 0) = true
  rw [kept]
  decide

/-! ### The trim area (R189, R190) -/

/-- What the trim area's check reads of the identity record, the number of its words and its CRC. -/
def State.trimOk (s : State) (n : Fin 16) (trim : List Byte) : Bool :=
  (crc32 (bytesAt trim 0 (2 * getBits (s.word (chBase n + 0x41000 + 4 * 14)) 16 16))).toNat ==
    (s.word (chBase n + 0x41000 + 4 * 31)).toNat

/-- What a read of the trim area stores of it. -/
def State.trimStored (s : State) (n : Fin 16) (trim : List Byte) : State :=
  storeBytes (chBase n + 0x42000) (trim.take (256 * min 32 (getBits (s.word (chBase n + 0x41000 + 4 * 28)) 16 16))) s

theorem trimReadDone_checks {s : State} {n : Fin 16} {trim : List Byte} (on : s.chOn n = true) (len : trim.length = 8192)
    (pend : (s.ch n).brg.trimPend = true) : does (.trimReadDone n trim) s fun t =>
      t.flag (F.CHn_BRG_IDSTAT_TRIMVALID n) = s.trimOk n trim ∧ (t.ch n).brg.trimPend = false ∧
      t = { s with bar := t.bar, chans := t.chans } ∧ chBut n s t := by
  have meaning : exec (.trimReadDone n trim) s = .next (((s.trimStored n trim).put (F.CHn_BRG_IDSTAT_TRIMVALID n)
      (b2n (s.trimOk n trim))).modBrg n fun b => { b with trimPend := false }) := by
    simp only [exec_trimReadDone, execTrimReadDone, len, on, pend, beq_self_eq_true, Bool.and_self, if_true, nextIf_true,
      State.trimStored, State.trimOk]
  refine does_of meaning ⟨?_, ?_, ?_, fun k other => ?_⟩
  · rw [State.modBrg_flag, State.flag, State.get_put_same _ _ (Nat.le_of_ble_eq_true rfl)]
    cases s.trimOk n trim <;> rfl
  · rw [State.ch_modBrg_same]
  · rw [State.modBrg, State.modCh, State.put, State.setWord, State.trimStored, storeBytes_same]
  · rw [State.modBrg, State.ch_modCh_ne _ _ other, State.put_ch, State.trimStored, storeBytes_ch]

/-! ### Training (R183) -/

theorem exec_trdy (n : Fin 16) (rd : Bool) (syms : List (BitVec 10)) (s : State) : exec (.trdy n rd syms) s = execTrdy n rd syms s := rfl
theorem exec_trainIdleDone (n : Fin 16) (s : State) : exec (.trainIdleDone n) s = execTrainIdleDone n s := rfl
theorem exec_trainTimeout (n : Fin 16) (s : State) : exec (.trainTimeout n) s = execTrainTimeout n s := rfl
theorem exec_autoRetrain (n : Fin 16) (s : State) : exec (.autoRetrain n) s = execAutoRetrain n s := rfl

theorem heard_good {s : State} {n : Fin 16} {rd : Bool} {syms : List (BitVec 10)} {bs : List Byte} {k : List Byte → State → State}
    (h : s.hears n = true) (m : retMsg rd syms = some bs) : heard n rd syms k s = k bs s := by
  simp [heard, h, m]

theorem State.hears_train {s : State} {n : Fin 16} (on : s.chOn n = true) (train : s.lstate n = 2) : s.hears n = true := by
  rw [State.lstate] at train
  simp [State.hears, on, train]

/-- FLAGS with HVOK alone report nothing but a head voltage in range. -/
def hvokNoted (n : Fin 16) (s : State) : State := (s.put (F.CHn_BRG_STAT_FLAGS n) 1).put (F.CHn_BRG_STAT_HVOK n) 1

theorem noteFlags_hvok (n : Fin 16) (s : State) : noteFlags n 1 s = hvokNoted n s := by
  have none : ∀ i < 6, bitAt 1 (i + 1) = false := by decide
  have quiet : ((List.range 6).any fun i => bitAt (1 : Byte).toNat (i + 1) &&
      !bitAt (s.get (F.CHn_BRG_STAT_FLAGS n)) (i + 1)) = false :=
    List.any_eq_false.2 fun i mem => by simp [none i (List.mem_range.1 mem)]
  rw [noteFlags, quiet]
  rfl

theorem hvokNoted_lstate (n : Fin 16) (s : State) : (hvokNoted n s).lstate n = s.lstate n :=
  (State.get_put_other _ 1 (.inr (Nat.le_of_ble_eq_true rfl))).trans (State.get_put_other s 1 (.inr (Nat.le_of_ble_eq_true rfl)))

theorem hvokNoted_only (n : Fin 16) (s : State) : onlyChAt n [A.CHn_BRG_STAT n] s (hvokNoted n s) :=
  (onlyChAt.put s n (f := F.CHn_BRG_STAT_FLAGS n) 1 (.head _)).trans (.put _ n (f := F.CHn_BRG_STAT_HVOK n) 1 (.head _))

theorem hvokNoted_ch (n k : Fin 16) (s : State) : (hvokNoted n s).ch k = s.ch k := by rw [hvokNoted, State.put_ch, State.put_ch]

/-- A TRDY message is counted. -/
def trdyNoted (n : Fin 16) (s : State) : State :=
  (hvokNoted n s).modBrg n fun b => { b with trdy := b.trdy + 1, phase := if 4 ≤ b.trdy + 1 then 2 else 1, phaseTick := s.tick }

theorem trdyMsg_hvok {s : State} {n : Fin 16} (train : s.lstate n = 2) (phase : (s.ch n).brg.phase = 1) :
    trdyMsg n 1 s = trdyNoted n s := by
  have state : (hvokNoted n s).get (F.CHn_BRG_STAT_LSTATE n) = 2 := (hvokNoted_lstate n s).trans train
  simp only [trdyMsg, noteFlags_hvok, hvokNoted_ch, state, phase, and_self, if_true, trdyNoted]

section

variable {s : State} {n : Fin 16} (on : s.chOn n = true)
include on

section

variable (train : s.lstate n = 2)
include train

theorem trdy_counts {rd : Bool} {syms : List (BitVec 10)} (msg : retMsg rd syms = some [5, 0xFF, 1]) (phase : (s.ch n).brg.phase = 1) :
    does (.trdy n rd syms) s fun t => (t.ch n).brg = { (s.ch n).brg with
      trdy := (s.ch n).brg.trdy + 1, phase := if 3 ≤ (s.ch n).brg.trdy then 2 else 1, phaseTick := s.tick } ∧
      onlyChAt n [A.CHn_BRG_STAT n] s t := by
  have fourth : (if 4 ≤ (s.ch n).brg.trdy + 1 then 2 else 1) = if 3 ≤ (s.ch n).brg.trdy then 2 else 1 := if_congr (by omega) rfl rfl
  have meaning : exec (.trdy n rd syms) s = .next (trdyNoted n s) := by
    rw [exec_trdy, execTrdy, heard_good (State.hears_train on train) msg, ← trdyMsg_hvok train phase]
    simp only [BitVec.ofNat_eq_ofNat]
  rw [trdyNoted] at meaning
  refine does_of meaning ⟨?_, (hvokNoted_only n s).trans (.modCh _ n _)⟩
  rw [State.ch_modBrg_same, hvokNoted_ch, fourth]

theorem trainIdleDone_asks (phase : (s.ch n).brg.phase = 2) (rest : (s.ch n).brg.phaseTick + 10 * usTicks ≤ s.tick)
    (free : s.lanesFree n = true) : does (.trainIdleDone n) s fun t =>
      frameSent n 3 [0, 0, 0, 0] [] none s t ∧ (t.ch n).brg.phase = 3 := by
  let u := s.modBrg n fun b => { b with phase := 3 }
  have state : s.get (F.CHn_BRG_STAT_LSTATE n) = 2 := train
  have fsn : (u.ch n).brg.nextFsn = (s.ch n).brg.nextFsn := by rw [State.ch_modBrg_same]
  have lanes : u.lanesFree n = true := by
    rw [State.lanesFree, State.ch_modBrg_same]
    exact free
  have meaning : exec (.trainIdleDone n) s = .next (newFrame n 3 0 0 [0, 0, 0, 0] [] none u) := by
    simp only [exec_trainIdleDone, execTrainIdleDone, on, state, phase, rest, free, beq_self_eq_true, decide_true, Bool.and_self,
      if_true, u]
  refine does_of meaning ⟨(newFrame_sent lanes three_ne_zero ..).after (onlyCh_modCh s n _) fsn, ?_⟩
  rw [newFrame_ch lanes three_ne_zero, Brg.started, State.ch_modBrg_same]

end

theorem autoRetrain_identifies (joined : (s.ch n).iso.isolated = false) (down : s.lstate n = 4)
    (auto : s.flag (F.CHn_BRG_CTRL_AUTORT n) = true) (en : s.flag (F.CHn_BRG_CTRL_LINK_EN n) = true)
    (rest : (s.ch n).brg.downTick + msTicks ≤ s.tick) :
    does (.autoRetrain n) s fun t => t.lstate n = 1 ∧ onlyChAt n [A.CHn_BRG_STAT n] s t := by
  have state : s.get (F.CHn_BRG_STAT_LSTATE n) = 4 := down
  have meaning : exec (.autoRetrain n) s = .next (startIdent n s) := by
    simp only [exec_autoRetrain, execAutoRetrain, on, state, auto, en, rest, beq_self_eq_true, decide_true, Bool.and_self, if_true]
  obtain ⟨ident, -, only, -⟩ := startIdent_starts joined
  exact does_of meaning ⟨ident, only⟩

end

/-! ### The link leaves its state (R178, R184) -/

/-- LSTATE and DCAUSE of a link that leaves its state. -/
def leftLink (n : Fin 16) (v c : Nat) (s : State) : State := (setLink n v s).put (F.CHn_BRG_STAT_DCAUSE n) c

/-- A link that goes to DOWN is counted, with its time. -/
def linkDown (n : Fin 16) (c : Nat) (s : State) : State :=
  ((leftLink n 4 c s).bump (F.CHn_BRG_CNT2_DOWNCNT n) 1).modBrg n fun b => { b with downTick := s.tick }

theorem leaveLink_down_up {s : State} {n : Fin 16} (up : s.linkIsUp n = true) (c : Nat) :
    leaveLink n 4 c s = ((dropFrames n (linkDown n c s)).raiseCh n 21).hold n 2 := by
  simp only [leaveLink, up, if_true, linkDown, leftLink]

theorem leaveLink_down_train {s : State} {n : Fin 16} (up : s.linkIsUp n = false) (c : Nat) :
    leaveLink n 4 c s = (linkDown n c s).modBrg n fun b => { b with outst := none } := by
  simp only [leaveLink, up, if_true, Bool.false_eq_true, if_false, linkDown, leftLink]

theorem leaveLink_off_up {s : State} {n : Fin 16} (up : s.linkIsUp n = true) (c : Nat) :
    leaveLink n 0 c s = ((dropFrames n (leftLink n 0 c s)).raiseCh n 21).hold n 2 := by
  simp [leaveLink, up, leftLink]

theorem leaveLink_off_else {s : State} {n : Fin 16} (up : s.linkIsUp n = false) (c : Nat) :
    leaveLink n 0 c s = (leftLink n 0 c s).modBrg n fun b => { b with outst := none } := by
  simp [leaveLink, up, leftLink]

section

variable (n : Fin 16) (v c : Nat) (s : State)

theorem leftLink_lstate (lt : v < 8) : (leftLink n v c s).lstate n = v :=
  (State.get_put_other _ c (.inr (Nat.le_of_ble_eq_true rfl))).trans (setLink_lstate n lt s)

theorem leftLink_dcause (lt : c < 8) : (leftLink n v c s).get (F.CHn_BRG_STAT_DCAUSE n) = c :=
  (State.get_put_same _ c (Nat.le_of_ble_eq_true rfl)).trans (Nat.mod_eq_of_lt lt)

theorem leftLink_pres : (leftLink n v c s).get (F.CHn_BRG_STAT_PRES n) = s.get (F.CHn_BRG_STAT_PRES n) :=
  (State.get_put_other _ c (.inr (Nat.le_of_ble_eq_true rfl))).trans
    (setLink_get n v s rfl (Nat.le_of_ble_eq_true rfl) (.inl (Nat.le_of_ble_eq_true rfl)))

theorem leftLink_hpen (lt : v < 8) (down : v ≠ 3) : (leftLink n v c s).flag (F.CHn_BRG_STAT_HPEN n) = false := by
  have low := setLink_hpen n lt down s
  rw [State.flag] at low ⊢
  rwa [leftLink, State.get_put_other _ c (.inr (Nat.le_of_ble_eq_true rfl))]

theorem leftLink_word {a : Nat} (h : a ≠ A.CHn_BRG_STAT n) : (leftLink n v c s).word a = s.word a :=
  (State.word_put_ne _ c h).trans (setLink_word n v s h)

theorem leftLink_ch (k : Fin 16) : (leftLink n v c s).ch k = s.ch k := (State.put_ch ..).trans (setLink_ch n v s k)

theorem leftLink_only {as : List Nat} (stat : A.CHn_BRG_STAT n ∈ as) : onlyChAt n as s (leftLink n v c s) :=
  (setLink_only n v s stat).trans (.put _ n c stat)

theorem linkDown_stat : (linkDown n c s).word (A.CHn_BRG_STAT n) = (leftLink n 4 c s).word (A.CHn_BRG_STAT n) := by
  rw [linkDown, State.modBrg_word, State.bump]
  exact State.word_put_ne _ _ (brgStat_ne_cnt2 n)

theorem linkDown_lstate : (linkDown n c s).lstate n = 4 :=
  (State.get_of_word (linkDown_stat n c s)).trans (leftLink_lstate n 4 c s (by decide))

theorem linkDown_dcause (lt : c < 8) : (linkDown n c s).get (F.CHn_BRG_STAT_DCAUSE n) = c :=
  (State.get_of_word (linkDown_stat n c s)).trans (leftLink_dcause n 4 c s lt)

theorem linkDown_hpen : (linkDown n c s).flag (F.CHn_BRG_STAT_HPEN n) = false :=
  (State.flag_of_word (linkDown_stat n c s)).trans (leftLink_hpen n 4 c s (by decide) (by decide))

theorem linkDown_counts : bumps (F.CHn_BRG_CNT2_DOWNCNT n) 255 s (linkDown n c s) := by
  have before : (leftLink n 4 c s).get (F.CHn_BRG_CNT2_DOWNCNT n) = s.get (F.CHn_BRG_CNT2_DOWNCNT n) :=
    State.get_of_word (leftLink_word n 4 c s (brgStat_ne_cnt2 n).symm)
  have count := (leftLink n 4 c s).bump_one (f := F.CHn_BRG_CNT2_DOWNCNT n) (Nat.le_of_ble_eq_true rfl)
  rw [bumps, before] at count
  rw [bumps, linkDown, State.modBrg_get, count]
  rfl

theorem linkDown_only : onlyChAt n [A.CHn_BRG_STAT n, A.CHn_BRG_CNT2 n] s (linkDown n c s) := by
  have counted (u : State) : onlyChAt n [A.CHn_BRG_STAT n, A.CHn_BRG_CNT2 n] u (u.bump (F.CHn_BRG_CNT2_DOWNCNT n) 1) :=
    .put u n (f := F.CHn_BRG_CNT2_DOWNCNT n) _ (.tail _ (.head _))
  unfold linkDown
  exact ((leftLink_only n 4 c s (.head _)).trans (counted _)).trans (.modCh _ n _)

end

theorem State.linkDown_of_train {s : State} {n : Fin 16} (train : s.lstate n = 2) : s.linkIsUp n = false := by
  rw [State.lstate] at train
  simp [State.linkIsUp, train]

theorem trainTimeout_ends {s : State} {n : Fin 16} (on : s.chOn n = true) (train : s.lstate n = 2)
    (late : (s.ch n).brg.trainTick + 5 * msTicks ≤ s.tick) : does (.trainTimeout n) s fun t => t.lstate n = 4 ∧
      t.get (F.CHn_BRG_STAT_DCAUSE n) = 3 ∧ (t.ch n).brg.downTick = s.tick ∧ onlyChAt n [A.CHn_BRG_STAT n, A.CHn_BRG_CNT2 n] s t := by
  have state : s.get (F.CHn_BRG_STAT_LSTATE n) = 2 := train
  have meaning : exec (.trainTimeout n) s = .next ((linkDown n 3 s).modBrg n fun b => { b with outst := none }) := by
    simp only [exec_trainTimeout, execTrainTimeout, on, state, late, beq_self_eq_true, decide_true, Bool.and_self, if_true,
      leaveLink_down_train (State.linkDown_of_train train)]
  refine does_of meaning ⟨?_, ?_, ?_, (linkDown_only n 3 s).trans (.modCh _ n _)⟩
  · rw [State.lstate, State.modBrg_get]
    exact linkDown_lstate n 3 s
  · rw [State.modBrg_get]
    exact linkDown_dcause n 3 s (by decide)
  · rw [State.ch_modBrg_same, linkDown, State.ch_modBrg_same]

/-- The channel of a link that was UP halts (R178). -/
def linkHalt (n : Fin 16) (s : State) : State := ((dropFrames n s).raiseCh n 21).hold n 2

theorem dropFrames_word (n : Fin 16) (s : State) {a : Nat} (h : a ≠ A.CHn_BRG_HCFG_STAT n) : (dropFrames n s).word a = s.word a := by
  have ended : ((s.put (F.CHn_BRG_HCFG_STAT_BUSY n) 0).put (F.CHn_BRG_HCFG_STAT_RES n) 1).word a = s.word a :=
    (State.word_put_ne _ 1 h).trans (State.word_put_ne s 0 h)
  exact Reaction.either (R := fun s t => t.word a = s.word a) ended rfl

/-- Nothing is outstanding and no mask word is left to send. -/
theorem dropFrames_drops (n : Fin 16) (s : State) :
    ((dropFrames n s).ch n).brg.outst = none ∧ ((dropFrames n s).ch n).wav.words = [] := by
  unfold dropFrames
  dsimp only
  rw [State.ch_modWav_same, State.ch_modBrg_same]
  exact ⟨rfl, rfl⟩

theorem hcfgStat_apart (n : Fin 16) : A.CHn_BRG_STAT n ≠ A.CHn_BRG_HCFG_STAT n ∧ A.CHn_BRG_CNT2 n ≠ A.CHn_BRG_HCFG_STAT n ∧
    A.CHn_BRG_CTRL n ≠ A.CHn_BRG_HCFG_STAT n ∧ A.WRK_SCRn_STAT n ≠ A.CHn_BRG_HCFG_STAT n := by
  unfold A.CHn_BRG_STAT A.CHn_BRG_CNT2 A.CHn_BRG_CTRL A.CHn_BRG_HCFG_STAT A.WRK_SCRn_STAT
  omega

theorem workStat_ne_brgStat (n : Fin 16) : A.WRK_SCRn_STAT n ≠ A.CHn_BRG_STAT n := by
  unfold A.CHn_BRG_STAT A.WRK_SCRn_STAT
  omega

section

variable (n : Fin 16) (s : State)

theorem linkHalt_frame : RaiseFrame (dropFrames n s) (linkHalt n s) :=
  .trans (.raiseCh _ n (by decide)) (.hold _ n 2)

theorem linkHalt_stat : LinkStat n s (linkHalt n s) := by
  obtain ⟨stat, -⟩ := hcfgStat_apart n
  exact .trans (.of_word (dropFrames_word n s stat)) (.trans (.raiseCh _ n (by decide)) (.hold _ n 2))

theorem linkHalt_hpen (low : s.flag (F.CHn_BRG_STAT_HPEN n) = false) : (linkHalt n s).flag (F.CHn_BRG_STAT_HPEN n) = false := by
  obtain ⟨stat, -⟩ := hcfgStat_apart n
  have dropped : (dropFrames n s).flag (F.CHn_BRG_STAT_HPEN n) = false := (State.flag_of_word (dropFrames_word n s stat)).trans low
  exact (hpen_staysLow n).hold _ n 2 ((hpen_staysLow n).raiseCh _ n (by decide) dropped)

theorem linkHalt_word {a : Nat} (q : quiet a = true) (h : a ≠ A.CHn_BRG_HCFG_STAT n) : (linkHalt n s).word a = s.word a :=
  ((linkHalt_frame n s).word a q).trans (dropFrames_word n s h)

theorem linkHalt_drops : ((linkHalt n s).ch n).brg.outst = none ∧ ((linkHalt n s).ch n).wav.words = [] := by
  obtain ⟨outst, words⟩ := dropFrames_drops n s
  have link := congrArg Brg.outst ((linkHalt_frame n s).brg n)
  have masks := congrArg Wav.words ((linkHalt_frame n s).wav n)
  exact ⟨link.trans outst, masks.trans words⟩

theorem linkHalt_holds (work : s.wstate n = 1 ∨ s.wstate n = 2) : held n 2 (linkHalt n s) := by
  obtain ⟨-, -, -, wrk⟩ := hcfgStat_apart n
  have same : (dropFrames n s).wstate n = s.wstate n := State.get_of_word (dropFrames_word n s wrk)
  rw [← same] at work
  exact hold_holds _ n 2 (RaiseFrame.working (.raiseCh _ n (by decide)) work)

theorem linkHalt_raises : raises (chEvt n 21) s (linkHalt n s) := fun host => by
  have low : ∀ a < 0x1000000, (dropFrames n s).word a = s.word a := fun a lt => dropFrames_word n s (by
    unfold A.CHn_BRG_HCFG_STAT
    omega)
  have on : (dropFrames n s).domOn 0 = true := (State.domOn_zero_of_word (low _ (by decide))).trans host
  exact RaiseFrame.pend (.hold _ n 2) _ (RaiseFrame.chEvt_lt n (by decide)) (raise_pending _ (RaiseFrame.chEvt_lt n (by decide)) on)

end

/-! ### The return lane falls silent, the head board is removed (R182, R184) -/

theorem exec_returnLaneLoss (n : Fin 16) (s : State) : exec (.returnLaneLoss n) s = execReturnLaneLoss n s := rfl
theorem exec_headRemoved (n : Fin 16) (s : State) : exec (.headRemoved n) s = execHeadRemoved n s := rfl

section

variable {s : State} {n : Fin 16} (on : s.chOn n = true) (up : s.linkIsUp n = true) (run : s.wstate n = 1)
include on up run

theorem returnLaneLoss_loses : does (.returnLaneLoss n) s (linkLost n 2 s) := by
  have meaning : exec (.returnLaneLoss n) s = .next (linkHalt n (linkDown n 2 s)) := by
    simp only [exec_returnLaneLoss, execReturnLaneLoss, on, up, Bool.and_self, if_true, leaveLink_down_up up, linkHalt]
  obtain ⟨-, count, -⟩ := hcfgStat_apart n
  have only := linkDown_only n 2 s
  have high : ∀ a ∈ [A.CHn_BRG_STAT n, A.CHn_BRG_CNT2 n], 0x1000000 ≤ a := by
    simp only [List.mem_cons, List.not_mem_nil, or_false, forall_eq_or_imp, forall_eq, A.CHn_BRG_STAT, A.CHn_BRG_CNT2]
    omega
  have work : (linkDown n 2 s).wstate n = 1 := (State.get_of_word (only.below high (by
    simp only [F.WRK_SCRn_STAT_STATE, A.WRK_SCRn_STAT]
    omega))).trans run
  have stat := linkHalt_stat n (linkDown n 2 s)
  obtain ⟨outst, words⟩ := linkHalt_drops n (linkDown n 2 s)
  refine does_of meaning ⟨?_, ?_, ?_, outst, words, linkHalt_hpen n _ (linkDown_hpen n 2 s), linkHalt_holds n _ (.inl work),
    fun host => linkHalt_raises n _ ((only.host high).trans host)⟩
  · exact (stat.get _ rfl (.inl (Nat.le_of_ble_eq_true rfl))).trans (linkDown_lstate n 2 s)
  · exact (stat.get _ rfl (.inr (Nat.le_of_ble_eq_true rfl))).trans (linkDown_dcause n 2 s (by decide))
  · have counted : (linkHalt n (linkDown n 2 s)).get (F.CHn_BRG_CNT2_DOWNCNT n) = (linkDown n 2 s).get (F.CHn_BRG_CNT2_DOWNCNT n) :=
      State.get_of_word (linkHalt_word n _ (quiet_brgCnt2 n) count)
    exact counted.trans (linkDown_counts n 2 s)

end

/-- The link goes OFF and does not start again (R187). -/
def linkStopped (n : Fin 16) (c : Nat) (s : State) : State :=
  (leaveLink n 0 c s).modBrg n fun b => { b with offPend := false, trimPend := false }

section

variable (n : Fin 16) (c : Nat) (s : State)

theorem linkStopped_stat : LinkStat n (leftLink n 0 c s) (linkStopped n c s) := by
  refine .trans ?_ (.modBrg _ n _)
  cases up : s.linkIsUp n with
  | true => exact leaveLink_off_up up c ▸ linkHalt_stat n _
  | false => exact leaveLink_off_else up c ▸ .modBrg _ n _

theorem linkStopped_lstate : (linkStopped n c s).lstate n = 0 :=
  ((linkStopped_stat n c s).get _ rfl (.inl (Nat.le_of_ble_eq_true rfl))).trans (leftLink_lstate n 0 c s (by decide))

theorem linkStopped_dcause (lt : c < 8) : (linkStopped n c s).get (F.CHn_BRG_STAT_DCAUSE n) = c :=
  ((linkStopped_stat n c s).get _ rfl (.inr (Nat.le_of_ble_eq_true rfl))).trans (leftLink_dcause n 0 c s lt)

theorem linkStopped_pres : (linkStopped n c s).flag (F.CHn_BRG_STAT_PRES n) = s.flag (F.CHn_BRG_STAT_PRES n) := by
  have kept := ((linkStopped_stat n c s).get (F.CHn_BRG_STAT_PRES n) rfl (.inl (Nat.le_of_ble_eq_true rfl))).trans (leftLink_pres n 0 c s)
  rw [State.flag, kept, State.flag]

theorem linkStopped_hpen : (linkStopped n c s).flag (F.CHn_BRG_STAT_HPEN n) = false := by
  have low := leftLink_hpen n 0 c s (by decide) (by decide)
  rw [linkStopped, State.modBrg_flag]
  cases up : s.linkIsUp n with
  | true => exact leaveLink_off_up up c ▸ linkHalt_hpen n _ low
  | false => rwa [leaveLink_off_else up c, State.modBrg_flag]

theorem linkStopped_word {a : Nat} (q : quiet a = true) (stat : a ≠ A.CHn_BRG_STAT n) (cfg : a ≠ A.CHn_BRG_HCFG_STAT n) :
    (linkStopped n c s).word a = s.word a := by
  have left := leftLink_word n 0 c s stat
  rw [linkStopped, State.modBrg_word]
  cases up : s.linkIsUp n with
  | true => exact leaveLink_off_up up c ▸ (linkHalt_word n _ q cfg).trans left
  | false => rwa [leaveLink_off_else up c, State.modBrg_word]

theorem linkStopped_en : (linkStopped n c s).flag (F.CHn_BRG_CTRL_LINK_EN n) = s.flag (F.CHn_BRG_CTRL_LINK_EN n) := by
  obtain ⟨-, -, cfg, -⟩ := hcfgStat_apart n
  have stat : A.CHn_BRG_CTRL n ≠ A.CHn_BRG_STAT n := by
    unfold A.CHn_BRG_CTRL A.CHn_BRG_STAT
    omega
  exact State.flag_of_word (linkStopped_word n c s (quiet_brgCtrl n) stat cfg)

end

/-- A channel that was printing over the link is held. -/
theorem linkStopped_wstate {s : State} {n : Fin 16} (up : s.linkIsUp n = true) (c : Nat) (work : s.wstate n = 1 ∨ s.wstate n = 2) :
    (linkStopped n c s).wstate n = 2 := by
  have before : (leftLink n 0 c s).wstate n = s.wstate n := State.get_of_word (leftLink_word n 0 c s (workStat_ne_brgStat n))
  obtain ⟨hold, -⟩ := linkHalt_holds n (leftLink n 0 c s) (by rwa [before])
  rw [State.wstate, linkStopped, State.modBrg_get, leaveLink_off_up up c]
  exact hold

theorem linkOff_stops {s : State} {n : Fin 16} (c : Nat) (state : 1 ≤ s.lstate n)
    (stays : (s.flag (F.CHn_BRG_CTRL_LINK_EN n) && s.flag (F.CHn_BRG_STAT_PRES n)) = false) : linkOff n c s = linkStopped n c s := by
  rw [State.lstate] at state
  rw [← linkStopped_en n c s, ← linkStopped_pres n c s] at stays
  rw [linkStopped] at stays ⊢
  simp only [linkOff, Nat.one_le_iff_ne_zero.1 state, if_false, stays, Bool.false_eq_true]

/-- PRES is clear, and the event has been raised. -/
def boardGone (n : Fin 16) (s : State) : State := (s.put (F.CHn_BRG_STAT_PRES n) 0).raiseCh n 22

/-- The link is OFF for want of a head board (DCAUSE 4), and its channel is HELD. -/
def offUnplugged (n : Fin 16) (t : State) : Prop :=
  t.lstate n = 0 ∧ t.get (F.CHn_BRG_STAT_DCAUSE n) = 4 ∧ t.flag (F.CHn_BRG_STAT_PRES n) = false ∧
    t.flag (F.CHn_BRG_STAT_HPEN n) = false ∧ t.wstate n = 2

/-- A firing window that was cut is noted beside it. -/
theorem offUnplugged.cut {n : Fin 16} {t : State} (h : offUnplugged n t) : offUnplugged n (t.put (F.CHn_BRG_STAT_PARTH n) 1) := by
  have beside {f : Fld} (below : f.lo + f.width ≤ 25) :
      (t.put (F.CHn_BRG_STAT_PARTH n) 1).get f = t.get f := State.get_put_other t 1 (.inr below)
  obtain ⟨state, cause, gone, low, halted⟩ := h
  rw [State.flag] at gone low
  refine ⟨?_, ?_, ?_, ?_, ?_⟩
  · exact (beside (Nat.le_of_ble_eq_true rfl)).trans state
  · exact (beside (Nat.le_of_ble_eq_true rfl)).trans cause
  · rwa [State.flag, beside (Nat.le_of_ble_eq_true rfl)]
  · rwa [State.flag, beside (Nat.le_of_ble_eq_true rfl)]
  · exact (State.get_put_ne t 1 (workStat_ne_brgStat n)).trans halted

theorem headRemoved_stops {s : State} {n : Fin 16} (on : s.chOn n = true) (up : s.linkIsUp n = true) (run : s.wstate n = 1)
    (present : s.flag (F.CHn_BRG_STAT_PRES n) = true) : does (.headRemoved n) s (offUnplugged n) := by
  let u := linkStopped n 4 (boardGone n s)
  have told : LinkStat n (s.put (F.CHn_BRG_STAT_PRES n) 0) (boardGone n s) := .raiseCh _ n (by decide)
  have gone : (boardGone n s).flag (F.CHn_BRG_STAT_PRES n) = false :=
    (told.flag rfl (.inl (Nat.le_of_ble_eq_true rfl))).trans (State.flag_put_zero s (Nat.le_of_ble_eq_true rfl))
  have link : (boardGone n s).lstate n = s.lstate n :=
    (told.get _ rfl (.inl (Nat.le_of_ble_eq_true rfl))).trans (State.get_put_other s 0 (.inr (Nat.le_of_ble_eq_true rfl)))
  have stillUp : (boardGone n s).linkIsUp n = true := (congrArg (· == 3) link).trans up
  have work : (boardGone n s).wstate n = 1 ∨ (boardGone n s).wstate n = 2 := by
    refine RaiseFrame.working (.raiseCh _ n (by decide)) (.inl ?_)
    exact (State.get_put_ne s 0 (workStat_ne_brgStat n)).trans run
  have off : linkOff n 4 (boardGone n s) = u := by
    refine linkOff_stops 4 ?_ (by rw [gone, Bool.and_false])
    rw [State.lstate, eq_of_beq stillUp]
    decide
  have meaning : exec (.headRemoved n) s =
      .next (if s.inWindow n then (u.inhibit n).put (F.CHn_BRG_STAT_PARTH n) 1 else u.inhibit n) := by
    rw [boardGone] at off stillUp
    simp only [exec_headRemoved, execHeadRemoved, on, present, Bool.and_self, if_true, stillUp, Bool.true_or, off]
  have stat : LinkStat n u (u.inhibit n) := LinkStat.inhibitWith (fun e s lt => LinkStat.raiseN 6 e s lt) 2 n u
  have low : (u.inhibit n).flag (F.CHn_BRG_STAT_HPEN n) = false := (hpen_staysLow n).inhibit u n (linkStopped_hpen n 4 _)
  have halted : (u.inhibit n).wstate n = 2 := by
    have before : u.wstate n = 2 := linkStopped_wstate stillUp 4 work
    rcases (RaiseFrame.inhibit u n).wst n with same | ⟨-, hold⟩
    · exact same.trans before
    · exact hold
  have ends : offUnplugged n (u.inhibit n) := ⟨(stat.get _ rfl (.inl (Nat.le_of_ble_eq_true rfl))).trans (linkStopped_lstate n 4 _),
    (stat.get _ rfl (.inr (Nat.le_of_ble_eq_true rfl))).trans (linkStopped_dcause n 4 _ (by decide)),
    (stat.flag rfl (.inl (Nat.le_of_ble_eq_true rfl))).trans ((linkStopped_pres n 4 _).trans gone), low, halted⟩
  refine does_of meaning ?_
  split
  · exact ends.cut
  · exact ends

/-- Settles O24, clause by clause in the order of the link's states. -/
theorem headBoardsAreIdentifiedAndTrained : Obligations.HeadBoardsAreIdentifiedAndTrained := by
  unfold Obligations.HeadBoardsAreIdentifiedAndTrained
  simp only [Bool.not_eq_true']
  intro s n on joined
  refine ⟨headPresent_identifies on joined, fun ident => ⟨fun rec len => ⟨?_, ?_⟩, ?_, ?_⟩, ?_, fun train => ⟨?_, ?_, ?_⟩, ?_,
    fun up run => ⟨returnLaneLoss_loses on up run, headRemoved_stops on up run⟩⟩
  · exact identityReadDone_good on ident len
  · exact identityReadDone_foreign on ident len
  · exact i2cRetry_repeats on ident
  · exact i2cRetry_fails on ident
  · exact fun trim => trimReadDone_checks on
  · exact fun rd syms => trdy_counts on train
  · exact trainIdleDone_asks on train
  · exact trainTimeout_ends on train
  · exact autoRetrain_identifies on joined

end Sys2Proof.Machine

namespace Sys2Proof.Machine

/-! ## Software drives the link (R171, R183, R187) -/

theorem exec_linkEnWrite (m : Master) (n : Fin 16) (v : Word) (s : State) : exec (.linkEnWrite m n v) s = execLinkEnWrite m n v s := rfl
theorem exec_statreqGo (m : Master) (n : Fin 16) (v : Word) (s : State) : exec (.statreqGo m n v) s = execStatreqGo m n v s := rfl
theorem exec_hcfgDataWrite (m : Master) (n : Fin 16) (v : Word) (s : State) :
    exec (.hcfgDataWrite m n v) s = execHcfgDataWrite m n v s := rfl

/-- A field one bit wide reads that bit. -/
theorem getBits_one (w : Word) (i : Nat) : getBits w i 1 = b2n (w.getLsbD i) := by
  refine Nat.eq_of_testBit_eq fun j => ?_
  rw [testBit_getBits]
  cases j with
  | zero => cases w.getLsbD i <;> rfl
  | succ j => cases w.getLsbD i <;> simp [b2n, Nat.testBit_succ]

/-! ### A halt that is only told of leaves the line where it is -/

/-- What tells whether channel n stands at a line boundary is as before. -/
def lineStays (n : Fin 16) (s t : State) : Prop :=
  (t.ch n).ft.decided = (s.ch n).ft.decided ∧ (t.ch n).wav.win = (s.ch n).wav.win ∧ t.tick = s.tick

theorem lineStays.atBoundary {n : Fin 16} {s t : State} (h : lineStays n s t) : t.atBoundary n = s.atBoundary n := by
  obtain ⟨decided, win, tick⟩ := h
  unfold State.atBoundary State.inWindow
  rw [decided, win, tick]

theorem lineStays.trans {n : Fin 16} {s t u : State} (h : lineStays n s t) (k : lineStays n t u) : lineStays n s u := by
  obtain ⟨decided, win, tick⟩ := h
  obtain ⟨decided', win', tick'⟩ := k
  exact ⟨decided'.trans decided, win'.trans win, tick'.trans tick⟩

theorem lineStays.of_told {n : Fin 16} {s t : State} (h : Told s t) : lineStays n s t := by
  have chan : t.ch n = s.ch n := by
    rw [h.same]
    rfl
  exact ⟨by rw [chan], by rw [chan], by rw [h.same]⟩

theorem haltMarked_line (n : Fin 16) (c : Nat) (s : State) : lineStays n s (haltMarked n c s) := by
  refine ⟨?_, ?_, ?_⟩
  · rw [haltMarked_latches n c s]
  · rw [haltMarked, State.put_ch, addCause, State.ch_modWork_same, enterHeld, State.ch_modFt_same, State.put_ch, State.put_ch]
  · rw [haltMarked, State.put_tick, addCause, State.modWork_tick, enterHeld, State.modFt_tick, State.put_tick, State.put_tick]

theorem addCause_line (n : Fin 16) (c : Nat) (s : State) : lineStays n s (addCause n c s) := by
  refine ⟨?_, ?_, State.modWork_tick ..⟩
  all_goals rw [addCause, State.ch_modWork_same]

/-- A cause that shows is told of. -/
theorem showCause_line {s : State} {n : Fin 16} (c : Nat) (told : s.sevOf (chEvt n 2) ≤ 1) :
    lineStays n s (showCause (raiseN 6) n c s) := by
  have ev := RaiseFrame.chEvt_lt n (k := 2) (by decide)
  have severity : (s.put (F.WRK_SCRn_STAT_HCAUSE n) c).sevOf (chEvt n 2) = s.sevOf (chEvt n 2) :=
    State.sevOf_of_word (State.word_put_ne s c (by
      simp only [F.WRK_SCRn_STAT_HCAUSE, A.FLT_SEVw, A.WRK_SCRn_STAT]
      omega))
  have shown : lineStays n s (s.put (F.WRK_SCRn_STAT_HCAUSE n) c) := ⟨by rw [State.put_ch], by rw [State.put_ch], State.put_tick ..⟩
  exact Reaction.either ⟨rfl, rfl, rfl⟩ (shown.trans (.of_told (Told.raise _ ev (by rwa [severity]))))

theorem hold_line {s : State} {n : Fin 16} (c : Nat) (told : s.sevOf (chEvt n 2) ≤ 1) : lineStays n s (s.hold n c) := by
  have ev := RaiseFrame.chEvt_lt n (k := 2) (by decide)
  by_cases run : s.wstate n = 1
  · rw [hold_run run]
    exact (haltMarked_line n c s).trans (.of_told (.raise _ ev (by rwa [haltMarked_sevOf n c s ev])))
  unfold State.hold holdWith
  rw [if_neg run]
  refine Reaction.either ((addCause_line n c s).trans (showCause_line _ ?_)) ⟨rfl, rfl, rfl⟩
  rwa [addCause, State.sevOf_of_word (State.modWork_word ..)]

/-! ### LINK_EN (R183, R187) -/

/-- CHn_BRG_CTRL as written. -/
def ctrlWritten (n : Fin 16) (v : Word) (s : State) : State := s.setWord (A.CHn_BRG_CTRL n) (v &&& 0x73)

theorem onlyChAt.mono {n : Fin 16} {as bs : List Nat} {s t : State} (h : onlyChAt n as s t) (sub : as ⊆ bs) : onlyChAt n bs s t := by
  obtain ⟨same, others, regs⟩ := h
  exact ⟨same, others, fun a out => regs a fun mem => out (sub mem)⟩

theorem ctrl_ne_stat (n : Fin 16) : A.CHn_BRG_STAT n ≠ A.CHn_BRG_CTRL n := by
  unfold A.CHn_BRG_CTRL A.CHn_BRG_STAT
  omega

section

variable (n : Fin 16) (v : Word) (s : State)

theorem ctrlWritten_stat : (ctrlWritten n v s).word (A.CHn_BRG_STAT n) = s.word (A.CHn_BRG_STAT n) :=
  State.word_setWord_ne s _ (ctrl_ne_stat n)

theorem ctrlWritten_lstate : (ctrlWritten n v s).lstate n = s.lstate n := State.get_of_word (ctrlWritten_stat n v s)

theorem ctrlWritten_line : lineStays n s (ctrlWritten n v s) :=
  ⟨by rw [ctrlWritten, State.setWord_ch], by rw [ctrlWritten, State.setWord_ch], State.setWord_tick ..⟩

theorem ctrlWritten_wstate : (ctrlWritten n v s).wstate n = s.wstate n := State.get_of_word (State.word_setWord_ne s _ (by
  simp only [F.WRK_SCRn_STAT_STATE, A.WRK_SCRn_STAT, A.CHn_BRG_CTRL]
  omega))

theorem ctrlWritten_sevOf : (ctrlWritten n v s).sevOf (chEvt n 2) = s.sevOf (chEvt n 2) :=
  State.sevOf_of_word (State.word_setWord_ne s _ (by
    unfold A.FLT_SEVw A.CHn_BRG_CTRL chEvt
    omega))

/-- A link that is UP has its channel halted when LINK_EN = 0 is written. -/
def haltAsked : State := if (ctrlWritten n v s).lstate n = 3 then (ctrlWritten n v s).hold n 2 else ctrlWritten n v s

/-- The LINK_EN = 0 written waits. -/
def offAsked : State := (haltAsked n v s).modBrg n fun b => { b with offPend := true }

theorem offAsked_pend : ((offAsked n v s).ch n).brg.offPend = true := by
  rw [offAsked, State.ch_modBrg_same]

theorem offAsked_lstate : (offAsked n v s).lstate n = s.lstate n := by
  have halt : LinkStat n (ctrlWritten n v s) (offAsked n v s) := .trans (.ite (.hold _ n 2) (.refl n _)) (.modBrg _ n _)
  exact (halt.get _ rfl (.inl (Nat.le_of_ble_eq_true rfl))).trans (ctrlWritten_lstate n v s)

theorem offAsked_disabled (off : v.getLsbD 0 = false) : (offAsked n v s).flag (F.CHn_BRG_CTRL_LINK_EN n) = false := by
  have halt : RaiseFrame (ctrlWritten n v s) (haltAsked n v s) := Reaction.either (.hold _ n 2) (.refl _)
  have clear : getBits (v &&& 0x73) 0 1 = 0 := by
    rw [getBits_one, BitVec.getLsbD_and, off, Bool.false_and]
    rfl
  have written : (ctrlWritten n v s).get (F.CHn_BRG_CTRL_LINK_EN n) = 0 := by
    rw [State.get, ctrlWritten]
    exact (congrArg (getBits · 0 1) (State.word_setWord_same ..)).trans clear
  rw [offAsked, State.modBrg_flag, State.flag, halt.getAt (quiet_brgCtrl n) rfl, written]
  rfl

theorem offAsked_atBoundary (told : s.sevOf (chEvt n 2) ≤ 1) : (offAsked n v s).atBoundary n = s.atBoundary n := by
  have halt : lineStays n (ctrlWritten n v s) (haltAsked n v s) :=
    Reaction.either (hold_line 2 (by rwa [ctrlWritten_sevOf])) ⟨rfl, rfl, rfl⟩
  have asked (u : State) : lineStays n u (u.modBrg n fun b => { b with offPend := true }) :=
    ⟨by rw [State.ch_modBrg_same], by rw [State.ch_modBrg_same], State.modBrg_tick ..⟩
  exact ((ctrlWritten_line n v s).trans (halt.trans (asked _))).atBoundary

theorem offAsked_wstate (up : s.lstate n = 3) (run : s.wstate n = 1) : (offAsked n v s).wstate n = 2 := by
  obtain ⟨halted, -⟩ := hold_holds (ctrlWritten n v s) n 2 (.inl ((ctrlWritten_wstate n v s).trans run))
  rw [State.wstate, offAsked, State.modBrg_get, haltAsked, if_pos ((ctrlWritten_lstate n v s).trans up)]
  exact halted

end

theorem settleOff_due {s : State} {n : Fin 16} (pend : (s.ch n).brg.offPend = true) :
    settleOff n s = if s.atBoundary n then linkOff n 5 s else s := by
  rw [settleOff, pend, Bool.true_and, State.atBoundary]

theorem linkEn_off {s : State} {n : Fin 16} {v : Word} (off : v.getLsbD 0 = false) (state : 1 ≤ (ctrlWritten n v s).lstate n) :
    linkEn n v s = settleOff n (offAsked n v s) := by
  have bit : getBits v 0 1 ≠ 1 := by
    rw [getBits_one, off]
    decide
  unfold linkEn
  rw [if_neg bit]
  exact if_neg (Nat.one_le_iff_ne_zero.1 state)

theorem linkEnWrite_starts {s : State} {m : Master} {n : Fin 16} {v : Word} (reach : s.reaches m (A.CHn_BRG_CTRL n) = true)
    (en : v.getLsbD 0 = true) (off : s.lstate n = 0) (present : s.flag (F.CHn_BRG_STAT_PRES n) = true)
    (joined : (s.ch n).iso.isolated = false) : does (.linkEnWrite m n v) s fun t =>
      t.word (A.CHn_BRG_CTRL n) = v &&& 0x73 ∧ t.lstate n = 1 ∧ onlyChAt n [A.CHn_BRG_CTRL n, A.CHn_BRG_STAT n] s t := by
  have bit : getBits v 0 1 = 1 := by
    rw [getBits_one, en]
    rfl
  have state : (ctrlWritten n v s).get (F.CHn_BRG_STAT_LSTATE n) = 0 := (ctrlWritten_lstate n v s).trans off
  have seen : (ctrlWritten n v s).flag (F.CHn_BRG_STAT_PRES n) = true := (State.flag_of_word (ctrlWritten_stat n v s)).trans present
  have meaning : exec (.linkEnWrite m n v) s = .next (startIdent n (ctrlWritten n v s)) := by
    rw [ctrlWritten] at state seen
    simp only [exec_linkEnWrite, execLinkEnWrite, State.wr_reaches reach, linkEn, bit, state, seen, if_true, and_self, ctrlWritten]
  have notIsolated : ((ctrlWritten n v s).ch n).iso.isolated = false := by rw [ctrlWritten, State.setWord_ch, joined]
  obtain ⟨ident, -, only, -⟩ := startIdent_starts notIsolated
  have written : onlyChAt n [A.CHn_BRG_CTRL n] s (ctrlWritten n v s) := .setWord s n _ _
  have ⟨_, _, regs⟩ := only
  refine does_of meaning ⟨(regs _ ?_).trans (State.word_setWord_same ..), ident,
    (written.mono (List.cons_subset_cons _ (List.nil_subset _))).trans (only.mono (List.subset_cons_self _ _))⟩
  rw [List.mem_singleton]
  exact (ctrl_ne_stat n).symm

theorem linkEnWrite_stops {s : State} {m : Master} {n : Fin 16} {v : Word} (reach : s.reaches m (A.CHn_BRG_CTRL n) = true)
    (off : v.getLsbD 0 = false) (state : 1 ≤ s.lstate n) (told : s.sevOf (chEvt n 2) ≤ 1) : does (.linkEnWrite m n v) s fun t =>
      (s.lstate n = 3 → s.wstate n = 1 → t.wstate n = 2) ∧
      (s.atBoundary n = true → t.lstate n = 0 ∧ t.get (F.CHn_BRG_STAT_DCAUSE n) = 5) ∧
      (s.atBoundary n = false → t.lstate n = s.lstate n ∧ (t.ch n).brg.offPend = true) := by
  have same := ctrlWritten_lstate n v s
  have meaning : exec (.linkEnWrite m n v) s = .next (if s.atBoundary n then linkOff n 5 (offAsked n v s) else offAsked n v s) := by
    rw [← offAsked_atBoundary n v s told, ← settleOff_due (offAsked_pend n v s), ← linkEn_off off (state.trans_eq same.symm),
      exec_linkEnWrite, execLinkEnWrite, State.wr_reaches reach]
  have link := offAsked_lstate n v s
  have stops : linkOff n 5 (offAsked n v s) = linkStopped n 5 (offAsked n v s) :=
    linkOff_stops 5 (state.trans_eq link.symm) (by rw [offAsked_disabled n v s off, Bool.false_and])
  rw [stops] at meaning
  cases boundary : s.atBoundary n with
  | true =>
    rw [boundary, if_pos rfl] at meaning
    refine does_of meaning ⟨fun up run => ?_, fun _ => ⟨linkStopped_lstate n 5 _, linkStopped_dcause n 5 _ (by decide)⟩, nofun⟩
    have stillUp : (offAsked n v s).linkIsUp n = true := beq_iff_eq.2 (link.trans up)
    exact linkStopped_wstate stillUp 5 (.inr (offAsked_wstate n v s up run))
  | false =>
    rw [boundary, if_neg Bool.false_ne_true] at meaning
    exact does_of meaning ⟨offAsked_wstate n v s, nofun, fun _ => ⟨link, offAsked_pend n v s⟩⟩

/-! ### Status pages and the head space (R171, R177) -/

/-- What a write of CHn_BRG_STATREQ does before GO: PAGE as written, DONE cleared by a 1. -/
def pageWritten (n : Fin 16) (v : Word) (s : State) : State :=
  if getBits v 29 1 = 1 then (s.put (F.CHn_BRG_STATREQ_PAGE n) (getBits v 0 4)).put (F.CHn_BRG_STATREQ_DONE n) 0
  else s.put (F.CHn_BRG_STATREQ_PAGE n) (getBits v 0 4)

section

variable (n : Fin 16) (v : Word) (s : State)

theorem pageWritten_only : onlyChAt n [A.CHn_BRG_STATREQ n] s (pageWritten n v s) := by
  have page : onlyChAt n [A.CHn_BRG_STATREQ n] s (s.put (F.CHn_BRG_STATREQ_PAGE n) (getBits v 0 4)) := .put s n _ (.head _)
  exact Reaction.either (page.trans (.put _ n (f := F.CHn_BRG_STATREQ_DONE n) 0 (.head _))) page

theorem pageWritten_ch : (pageWritten n v s).ch n = s.ch n := by
  unfold pageWritten
  split
  · rw [State.put_ch, State.put_ch]
  · rw [State.put_ch]

theorem pageWritten_busy : (pageWritten n v s).flag (F.CHn_BRG_STATREQ_BUSY n) = s.flag (F.CHn_BRG_STATREQ_BUSY n) := by
  have page := State.flag_put_other s (f := F.CHn_BRG_STATREQ_PAGE n) (g := F.CHn_BRG_STATREQ_BUSY n) (getBits v 0 4)
    (.inl (Nat.le_of_ble_eq_true rfl))
  unfold pageWritten
  split
  · exact (State.flag_put_other _ 0 (.inl (Nat.le_of_ble_eq_true rfl))).trans page
  · exact page

theorem pageWritten_page : (pageWritten n v s).get (F.CHn_BRG_STATREQ_PAGE n) = v.toNat % 16 := by
  have page : (s.put (F.CHn_BRG_STATREQ_PAGE n) (getBits v 0 4)).get (F.CHn_BRG_STATREQ_PAGE n) = v.toNat % 16 := by
    rw [State.get_put_same s _ (Nat.le_of_ble_eq_true rfl), getBits_eq]
    simp [F.CHn_BRG_STATREQ_PAGE]
  unfold pageWritten
  split
  · exact (State.get_put_other _ 0 (.inr (Nat.le_of_ble_eq_true rfl))).trans page
  · exact page

end

theorem statreqGo_asks {s : State} {m : Master} {n : Fin 16} {v : Word} (reach : s.reaches m (A.CHn_BRG_STATREQ n) = true)
    (go : v.getLsbD 31 = true) (idle : s.flag (F.CHn_BRG_STATREQ_BUSY n) = false) : does (.statreqGo m n v) s fun t =>
      (t.ch n).brg = { (s.ch n).brg with stat := some (v.toNat % 16) } ∧ t.flag (F.CHn_BRG_STATREQ_BUSY n) = true ∧
      t.get (F.CHn_BRG_STATREQ_PAGE n) = v.toNat % 16 ∧ onlyChAt n [A.CHn_BRG_STATREQ n] s t := by
  have bit : getBits v 31 1 = 1 := by
    rw [getBits_one, go]
    rfl
  have page : getBits v 0 4 = v.toNat % 16 := by
    rw [getBits_eq]
    simp
  have free : ¬ (pageWritten n v s).flag (F.CHn_BRG_STATREQ_BUSY n) = true := by
    rw [pageWritten_busy, idle]
    exact Bool.false_ne_true
  have meaning : exec (.statreqGo m n v) s = .next (((pageWritten n v s).put (F.CHn_BRG_STATREQ_BUSY n) 1).modBrg n
      fun b => { b with stat := some (v.toNat % 16) }) := by
    rw [exec_statreqGo, execStatreqGo, State.wr_reaches reach, ← page]
    exact congrArg Host.Outcome.next (if_pos ⟨bit, free⟩)
  have asked : onlyChAt n [A.CHn_BRG_STATREQ n] (pageWritten n v s) ((pageWritten n v s).put (F.CHn_BRG_STATREQ_BUSY n) 1) :=
    .put _ n 1 (.head _)
  refine does_of meaning ⟨?_, ?_, ?_, ((pageWritten_only n v s).trans asked).trans (.modCh _ n _)⟩
  · rw [State.ch_modBrg_same, State.put_ch, pageWritten_ch]
  · rw [State.modBrg_flag]
    exact State.flag_put_one _ (Nat.le_of_ble_eq_true rfl) Nat.one_pos
  · rw [State.modBrg_get]
    exact (State.get_put_other _ 1 (.inr (Nat.le_of_ble_eq_true rfl))).trans (pageWritten_page n v s)

section

variable {s : State} {m : Master} {n : Fin 16} (v : Word) (reach : s.reaches m (A.CHn_BRG_HCFG_DATA n) = true)
include reach

theorem exec_hcfgData : exec (.hcfgDataWrite m n v) s = .next (hcfgData n v s) := by
  rw [exec_hcfgDataWrite, execHcfgDataWrite, State.wr_reaches reach]

theorem hcfgDataWrite_busy (busy : s.flag (F.CHn_BRG_HCFG_STAT_BUSY n) = true) :
    exec (.hcfgDataWrite m n v) s = .next (s.put (F.CHn_BRG_HCFG_STAT_RES n) 3) := by
  rw [exec_hcfgData v reach, hcfgData, if_pos busy]

variable (idle : s.flag (F.CHn_BRG_HCFG_STAT_BUSY n) = false)
include idle

theorem hcfgDataWrite_refused (low : s.get (F.CHn_BRG_HCFG_ADDR_ADDR n) < 0x400) :
    exec (.hcfgDataWrite m n v) s = .next (s.put (F.CHn_BRG_HCFG_STAT_RES n) 2) := by
  rw [exec_hcfgData v reach, hcfgData, if_neg (Bool.eq_false_iff.1 idle), if_pos (by omega)]

theorem hcfgDataWrite_waits (high : 0x400 ≤ s.get (F.CHn_BRG_HCFG_ADDR_ADDR n)) : does (.hcfgDataWrite m n v) s fun t =>
    (t.ch n).brg = { (s.ch n).brg with soft := some (4 * s.get (F.CHn_BRG_HCFG_ADDR_ADDR n), v) } ∧
    t.flag (F.CHn_BRG_HCFG_STAT_BUSY n) = true ∧ onlyChAt n [A.CHn_BRG_HCFG_STAT n] s t := by
  have meaning : exec (.hcfgDataWrite m n v) s = .next ((s.put (F.CHn_BRG_HCFG_STAT_BUSY n) 1).modBrg n
      fun b => { b with soft := some (4 * s.get (F.CHn_BRG_HCFG_ADDR_ADDR n), v) }) := by
    rw [exec_hcfgData v reach, hcfgData, if_neg (Bool.eq_false_iff.1 idle), if_neg (by omega)]
  have busy : onlyChAt n [A.CHn_BRG_HCFG_STAT n] s (s.put (F.CHn_BRG_HCFG_STAT_BUSY n) 1) := .put s n 1 (.head _)
  refine does_of meaning ⟨?_, ?_, busy.trans (.modCh _ n _)⟩
  · rw [State.ch_modBrg_same, State.put_ch]
  · rw [State.modBrg_flag]
    exact State.flag_put_one s (Nat.le_of_ble_eq_true rfl) Nat.one_pos

end

/-- Settles O25: LINK_EN, STATREQ and the head space, each clause one write. -/
theorem softwareDrivesTheLink : Obligations.SoftwareDrivesTheLink := by
  unfold Obligations.SoftwareDrivesTheLink
  simp only [Bool.not_eq_true']
  refine fun s m n v => ⟨fun reach => ⟨?_, ?_⟩, ?_, fun reach => ⟨?_, fun idle => ⟨?_, fun high _ => ?_⟩⟩⟩
  · exact linkEnWrite_starts reach
  · exact linkEnWrite_stops reach
  · exact statreqGo_asks
  · exact hcfgDataWrite_busy v reach
  · exact hcfgDataWrite_refused v reach idle
  · exact hcfgDataWrite_waits v reach idle high

end Sys2Proof.Machine
